-- ==== Sys2Proof/Word.lean ====
section
/-!
DEFINITION. The words of the model: bytes, 32-bit register words, and the sorted association list in which
every sparse piece of state is held (`Store`). The operations on a `Store` stand in Machine/Store.lean.
-/

namespace Sys2Proof

/-- A byte of any memory. -/
abbrev Byte := BitVec 8

/-- A register word (R8: all registers are 32 bits wide). -/
abbrev Word := BitVec 32

/-- Sparse data by key: a list of (key, value) pairs with strictly rising keys. -/
abbrev Store (α : Type) := List (Nat × α)

/-- A byte memory: the bytes listed, with strictly rising addresses; and fills, newest first, each a range
`[lo, hi)` whose unlisted bytes read as zero (none) or as free bytes of a draw (some `k`). Outside every fill an
unlisted byte reads as zero. -/
structure Mem where
  cells : List Host.Cell
  fills : List (Nat × Nat × Option Nat)
deriving DecidableEq, Repr

end Sys2Proof
end

