-- ==== Sys2Proof/Syntax.lean ====
section
/-!
DEFINITION. The commands the block takes: one constructor per row of the operation table, with the operands that the
sender or the environment supplies. DESIGN CHOICE (log 1): the table gives no row operands or bits; the operands here
are what the row's rule takes from outside the modelled state (an instance number, a value written, data carried, a
reading of a sensor, the outcome of a physical action). An operand that has a default stands last, and the default is the plain case.
-/

namespace Sys2Proof

/-- An NVMe command: its function (0 the physical function, 1–32 the virtual functions), submission queue (0 the admin queue) and
command identifier; and whether a field that its command set reserves is set in it, fused operation among them (R113, R134). -/
structure CmdId where
  fn : Nat
  sq : Nat
  cid : Nat
  rsvd : Bool := false
deriving DecidableEq, Repr

/-- A TCG Opal method that changes locking state, as its bytes spell it (R457, R458). A range is named by its key slot:
NSID − 2 the Global Range of a namespace, 64 + r the non-global range r. -/
inductive OpalMethod where
  /-- A method that changes no range: sessions, credentials, DataStore, the MBR table. -/
  | other
  /-- Read and write locking of a range set. -/
  | lock (slot : Nat) (rd wr : Bool)
  /-- Non-global range `r` placed: namespace, first logical byte, bytes (0 frees it). -/
  | define (r ns first len : Nat)
  /-- A new media key for a range: a crypto erase of it. -/
  | genKey (slot : Nat)
deriving DecidableEq, Repr

/-- What a start-up meets (R518 to R520, R568): straps as read, ROM self-check fault, hold-up bank in µF and whether it charged in time, a component
of steps 6 to 9 failing its digest, a Control die, LPDDR5X or FTL tables that cannot be brought up, a dip of the input (0 none; 1 during inrush, before the
test; else the input in mV at a brown-out during the hold-up test, R572), and the first sample of the sensors (number, reading, good). -/
structure StartInput where
  straps : Nat
  romFault : Bool
  bankUf : Nat
  charged : Bool
  badComponent : Bool
  startFails : Bool
  dip : Nat
  vals : List (Nat × Int × Bool)
deriving DecidableEq, Repr

/-- An NVMe-MI request (Table 18-1, R481): the structures, polls and settings of the Management Endpoint, and the three Admin commands that
its tunnel carries, each with the function it addresses. -/
inductive MiRequest where
  | dataStructure (kind : Nat)
  | subsystemHealth
  | controllerHealth (fn : Nat)
  /-- Configuration Get and Set: 1 SMBus frequency (1: 100 kHz, 2: 400 kHz), 3 MCTP transmission unit in bytes. -/
  | configGet (id : Nat)
  | configSet (id v : Nat)
  | vpdRead (off n : Nat)
  | identify (fn cns nsid : Nat)
  | getLog (fn lid lsi lsp off n : Nat)
  | getFeatures (fn fid cdw11 : Nat)
  /-- Any other: not supported. -/
  | other (bytes : List Byte)
deriving DecidableEq, Repr

/-- A PLDM request of types 0, 2 and 4 (Table 18-1, R481). A write of the POWER_CAP effecter is a row of its own (R490), and the update
requests of type 5 are (R524). -/
inductive PldmRequest where
  | getTid
  | setTid (v : Nat)
  | getTypes
  | getVersion (type : Nat)
  | getCommands (type : Nat)
  /-- GetSensorReading of a sensor of Table 18-2. -/
  | sensor (n : Nat)
  /-- GetNumericEffecterValue of POWER_CAP. -/
  | powerCap
  /-- GetPDR of the record with a handle. -/
  | pdr (handle : Nat)
  /-- The FRU record set. -/
  | fru
  | other (bytes : List Byte)
deriving DecidableEq, Repr

/-- The MCTP transports (Table 18-1). -/
inductive Transport where
  | i3c
  | smbus
  | vdm
deriving DecidableEq, Repr
/-- The commands of the block: one constructor per row of the operation table. -/
inductive Instr where
  /-- POWER_ON_START (R519). The 54 V input enters its operating range and the Kettle runs the start-up sequence from step 1. Operands: what the start-up meets. -/
  | powerOnStart (inp : StartInput)
  /-- INPUT_SWITCH_CLOSE (R562). After PRSNT_B# has read low for 100 ms, the input switch closes and the input capacitance charges under the inrush limit. Operands: none. -/
  | inputSwitchClose
  /-- PRSNT_B_OPEN (R562). PRSNT_B# reads high while the input switch is closed, and the brown-out sequence starts at once. Operands: input in mV; the record write runs to its end. -/
  | prsntBOpen (mv : Nat) (whole : Bool)
  /-- BROWN_OUT (R567). The input falls below 44.0 V for more than 20 µs; the device cuts the compute rails, runs on hold-up, flushes staging, freezes and persists the recorder, and holds the planes in reset. Operands: input in mV; the record write runs to its end. -/
  | brownOut (mv : Nat) (whole : Bool)
  /-- INPUT_OVER_VOLTAGE (R565). The input rises above 60.0 V for more than 20 µs, the input switch opens and the brown-out sequence runs. Operands: input in mV; the record write runs to its end. -/
  | inputOverVoltage (mv : Nat) (whole : Bool)
  /-- INPUT_OVER_CURRENT (R565). The input current exceeds 50 A for more than 100 µs, the input switch opens and the brown-out sequence runs. Operands: current in mA; input in mV; the record write runs to its end. -/
  | inputOverCurrent (ma mv : Nat) (whole : Bool)
  /-- BROWN_OUT_RECOVERY (R567). The input has been back in range for 10 ms with the bank above its minimum; the control plane is released with RESET_CAUSE 2 and OP0 is held. Operands: input in mV; a component fails its digest; the control plane cannot be brought up. -/
  | brownOutRecovery (mv : Nat) (bad fails : Bool)
  /-- HOLD_UP_BANK_EXHAUSTED (R567). During a brown-out the hold-up bank reaches its minimum voltage and the Kettle stops. Operands: none. -/
  | holdUpBankExhausted
  /-- BROWN_OUT_OP_HOLD_EXPIRY (R82). 100 ms of device time after the input recovers, the OP0 limit of brown-out recovery ends and the operating point returns to the request. Operands: none. -/
  | brownOutOpHoldExpiry
  /-- PERST_ASSERT (R20). PERST# is asserted; the staging flush runs, the control and data planes reset, and every context is torn down. Operands: it is a hot reset of the link. -/
  | perstAssert (hot : Bool := false)
  /-- PERST_DEASSERT (R102). PERST# is deasserted; the Kettle runs start-up steps 6–10, hands over to any pending firmware slot, and the endpoint begins link training. Operands: a component fails its digest; the control plane cannot be brought up. -/
  | perstDeassert (bad fails : Bool)
  /-- PCIE_LINK_TRAINED (R102). Link training settles; below 32 GT/s the device retrains up to three times, then sets LINK_BELOW_MIN and never reaches ready. Operands: width 4, 8 or 16; rate as RATE of Table 05-15. -/
  | pcieLinkTrained (width rate : Nat)
  /-- PCIE_LANE_RETIRE (R103). A PCIe lane is classified permanent and the link retrains to the next lower width that avoids it, or goes down. Operands: lane; it failed equalisation in three consecutive retrains. -/
  | pcieLaneRetire (lane : Nat) (eq : Bool)
  /-- PCIE_UNCORRECTABLE_TLP (R135). An uncorrectable TLP is reported through AER; a compute DMA faults its context and an NVM or SLM command completes with Data Transfer Error. Operands: context, Hob and descriptor index of a compute DMA; command whose data it carried. -/
  | pcieUncorrectableTlp (ctx : Option (Nat × Nat × Nat)) (cmd : Option CmdId)
  /-- CONTROLLER_ENABLE (R106). CC.EN is written 1 and CSTS.RDY reaches 1 within the bound that CC.CRIME selects. Operands: function; CC.CRIME; weighted round robin selected; AQA sizes of the admin queues, 0-based. -/
  | controllerEnable (fn : Nat) (crime wrr : Bool) (asqs acqs : Nat := 0)
  /-- CONTROLLER_RESET (R20). CC.EN goes from 1 to 0; the queues are reset and every context is torn down. Operands: function. -/
  | controllerReset (fn : Nat)
  /-- SHUTDOWN_NOTIFICATION (R107). CC.SHN is written; fetching stops, tasks reach cheap points, contexts are torn down and the journal is flushed before CSTS.SHST = 2. Operands: function. -/
  | shutdownNotification (fn : Nat)
  /-- FUNCTION_LEVEL_RESET (R20). A function-level reset resets that function's queues, tears down its contexts and empties the program slots it owns. Operands: function. -/
  | functionLevelReset (fn : Nat)
  /-- MEDIA_READY (R443). The FTL finishes its rebuild and reports media ready, and the global STATE becomes ON. Operands: 0 every journal copy agrees, 1 one copy unreadable, 2 the last flush lost. -/
  | mediaReady (journal : Nat)
  /-- WATCHDOG_EXPIRY (R527). The watchdog counter expires; the device ends the eFlash pulse, flushes staging, freezes and persists the recorder, and resets. Operands: eFlash operation cut off (0 none, 1 read, 2 program, 3 erase); the handler ends in time; what the start-up meets. -/
  | watchdogExpiry (op : Nat) (whole : Bool) (inp : StartInput)
  /-- WATCHDOG_KICK (R526). Every 250 ms, Kettle firmware reloads the watchdog to 2 s, provided that every heartbeat source has reported within the last 1 s. Operands: none. -/
  | watchdogKick
  /-- HEARTBEAT_REPORT (R526). A heartbeat source reports to the Kettle. Operands: source. -/
  | heartbeatReport (src : Nat)
  /-- OP_REQUEST_WRITE (R36). OP_REQUEST is written and the point in force becomes the request lowered by the limits, through a ramp. Operands: value written -/
  | opRequestWrite (v : Nat)
  /-- BOOST_ALLOW_WRITE (R37). BOOST_ALLOW is written, which enables or forbids OP5. Operands: value written -/
  | boostAllowWrite (v : Bool)
  /-- RAMP_COMPLETE (R38). An operating-point ramp settles; OP_EFFECTIVE updates, IN_TRANSITION clears and any waiting request is taken up. -/
  | rampComplete
  /-- OP5_CONDITION_FAIL (R37). A condition for OP5 fails and the device moves to OP4 within 1 ms with LIMIT_CAUSE 4. -/
  | op5ConditionFail
  /-- OP5_HOLD_EXPIRY (R37). Every OP5 condition has held without a break for 1 s and a requested OP5 is entered. -/
  | op5HoldExpiry
  /-- RATE_WINDOW_END (R39). A rate-monitor window of 1,024 ticks ends; RATE_MHS is written, and after two empty windows the monitor is marked STALE. Operands: page class and instance, handshakes that the ring made in the window -/
  | rateWindowEnd (c inst n : Nat)
  /-- HANDSHAKE_STALL (R51). A stage holds a token for 1,024 ticks; the block moves to FAULTED and the owning context faults. Operands: page class and instance, region, ERR_FIRST_INFO, context of the token on a shared block, not confined to a region -/
  | handshakeStall (c inst r info ctx : Nat) (whole : Bool)
  /-- ARBITER_GRANT (R44). An arbiter at a crossing point in FREE mode grants a waiting party one service. Operands: crossing point, instance, requests presented since the last grant as (party, context, serial), whether the last two came together -/
  | arbiterGrant (cp inst : Nat) (new : List (Nat × Nat × Nat)) (together : Bool := false)
  /-- LOCKSTEP_SLOT (R46). A LOCKSTEP slot starts and grants an eligible request of its owning party; late requests are recorded as slips. Operands: crossing point, instance, slot of the frame, requests presented since the last slot as (party, due tick, context) -/
  | lockstepSlot (cp inst sl : Nat) (new : List (Nat × Nat × Nat))
  /-- DET_MODE_REQUEST_WRITE (R84). DET_MODE_REQUEST is written: the change becomes pending, or a pending change is cancelled. Operands: value written: LOCKSTEP -/
  | detModeRequestWrite (v : Bool)
  /-- DET_MODE_TO_LOCKSTEP (R84). At the first tick boundary with no started task unfinished, all crossing points switch to LOCKSTEP. -/
  | detModeToLockstep
  /-- DET_MODE_TO_FREE (R84). At the next tick boundary after the request, the crossing points switch to FREE and any armed run ends. -/
  | detModeToFree
  /-- ARM (R48). ARM is written in LOCKSTEP, which clears the slip fields and schedules a run at the next multiple of 32 ticks. -/
  | arm
  /-- LOCKSTEP_ARM_TICK (R48). The arm tick is reached; ARM_TICK is captured and ARMED is set. -/
  | lockstepArmTick
  /-- BAD_ACCESS (R57). An access that is not a naturally aligned 32-bit access or a LO/HI 64-bit access returns all ones or is dropped, and BAD_ACCESS_COUNT increments. Operands: aperture address, width in bits, a write -/
  | badAccess (a size : Nat) (write : Bool)
  /-- REGISTER_WRITE (R9). A write to a register field with no row of its own sets the field, as its access code gives. Operands: aperture address, value, a 64-bit access -/
  | registerWrite (a v : Nat) (wide : Bool)
  /-- READ_LO_LATCH (R8). A read of the LO register of a 64-bit pair latches HI for the next read. Operands: aperture address of LO, a 64-bit access -/
  | readLoLatch (a : Nat) (wide : Bool)
  /-- READ_CLEAR (R9). A read of an RC field returns its value and clears it. Operands: aperture address -/
  | readClear (a : Nat)
  /-- PAIR_HI_WRITE (R75). A write of HI of a RW 64-bit pair commits HI with the last LO written. Operands: aperture address of HI, value -/
  | pairHiWrite (a v : Nat)
  /-- PROXY_READ_TIMEOUT (R77). A proxied read that cannot reach its Colander within 500 µs returns the shadow and marks the shadow STATE FAULTED. Operands: Colander and offset in its page -/
  | proxyReadTimeout (inst off : Nat)
  /-- PROXY_WRITE_DROPPED (R77). A proxied write that cannot reach its Colander is dropped and reported in the hub page. Operands: Colander -/
  | proxyWriteDropped (inst : Nat)
  /-- ENABLE_WRITE (R64). ENABLE is written; it starts or drains the unit, or sets or clears a pending flag. Operands: page class and instance, value written -/
  | enableWrite (c inst : Nat) (v : Bool)
  /-- DRAIN_WRITE (R66). DRAIN is written, which closes or reopens the unit's inputs. Operands: page class and instance, value written -/
  | drainWrite (c inst : Nat) (v : Bool)
  /-- PAGE_RESET (R65). RESET is written in CONTROL; the page resets at once or after the transition in progress. Operands: page class and instance -/
  | pageReset (c inst : Nat)
  /-- UNIT_START_COMPLETE (R62). A unit in STARTING completes its start and enters ON, then DRAINING if a disable is pending. Operands: page class and instance, the self-check of a Griddle passed -/
  | unitStartComplete (c inst : Nat) (ok : Bool)
  /-- START_LIMIT_EXPIRY (R63). A unit is not ON within the start limit of its class and moves to FAULTED with UNIT_FAULT. Operands: page class and instance -/
  | startLimitExpiry (c inst : Nat)
  /-- DRAIN_COMPLETE (R62). BUSY falls to 0 in DRAINING; the unit enters OFF, then applies a pending reset or enable. Operands: page class and instance -/
  | drainComplete (c inst : Nat)
  /-- ERR_STATUS_CLEAR (R10). A W1C write to ERR_STATUS or FIRST_VALID clears bits, which re-arms the first-error capture. Operands: page class and instance, bits of ERR_STATUS written 1, FIRST_VALID written 1 -/
  | errStatusClear (c inst mask : Nat) (fv : Bool)
  /-- ERROR_CAPTURE (R70). An ERR_STATUS bit goes from 0 to 1 while FIRST_VALID is 0, and the first-error capture is taken. Operands: page class and instance, error bit, ERR_FIRST_INFO, context of the transfer (0xFF the owner) -/
  | errorCapture (c inst b info ctx : Nat)
  /-- INJECT_GO (R72). INJECT_GO is written, which arms an error injection in test mode or else sets CONFIG_REJECT. Operands: page class and instance -/
  | injectGo (c inst : Nat)
  /-- SNAPSHOT_TRIGGER (R73). TRIGGER is written in a page, which requests a capture at the next tick boundary. Operands: page class and instance -/
  | snapshotTrigger (c inst : Nat)
  /-- GLOBAL_SNAPSHOT_TRIGGER (R74). TRIGGER is written in the global page, which schedules a common capture at least 16 ticks later. -/
  | globalSnapshotTrigger
  /-- SNAPSHOT_CAPTURE (R73). At the tick boundary the unit copies its live counters and the tick into the snapshot registers and increments SEQ. -/
  | snapshotCapture
  /-- TIME_SOURCE_REQUEST_WRITE (R92). TIME_SOURCE_REQUEST is written; PTP is refused on a variant without Ethernet. Operands: the source: 0 PTP, 1 PTM, 2 HOLDOVER. -/
  | timeSourceRequestWrite (v : Nat)
  /-- TEST_MODE_ENTER (R94). TEST_MODE_REQUEST is written 1 with the key, and test mode is entered or the write is refused with a cause. Operands: TEST_KEY written -/
  | testModeEnter (key : Nat)
  /-- TEST_MODE_LEAVE (R95). TEST_MODE_REQUEST is written 0; injections are cancelled and test contexts are torn down. -/
  | testModeLeave
  /-- MEDIA_READ_ONLY_ENTRY (R452). The margin M falls to 0 or below, media mode becomes READ_ONLY with cause 1, and the change is persisted and reported. Operands: none -/
  | mediaReadOnlyEntry
  /-- SQ_DOORBELL (R128). A submission queue doorbell is written; during or after entry to a non-operational state it causes an exit. Operands: function, submission queue, new tail -/
  | sqDoorbell (fn q tail : Nat)
  /-- CQ_DOORBELL (R114). A completion queue head doorbell is written, which frees completion entries. Operands: function, completion queue, entries freed -/
  | cqDoorbell (fn q n : Nat)
  /-- COMMAND_FETCH (R118). An intake slot is free and the arbitration between functions and queues fetches the next command. Operands: identifier of the command at the head of the queue served, an SLM command -/
  | commandFetch (cid : Nat) (slm : Bool)
  /-- OVERLOAD_RAISE (R121). A class has stayed saturated for 10 s; SUSTAINED_OVERLOAD is raised, recorded and posted. Operands: context, or 64 the pool -/
  | overloadRaise (k : Nat)
  /-- OVERLOAD_CLEAR (R121). A class has been unsaturated for 1 s and the overload condition clears. Operands: context, or 64 the pool -/
  | overloadClear (k : Nat)
  /-- IDENTIFY (R105). The Identify admin command returns controller or namespace data. Operands: the command, CNS, namespace -/
  | identify (cmd : CmdId) (cns nsid : Nat)
  /-- GET_LOG_PAGE (R131). Get Log Page returns a standard or vendor log and re-arms events as RAE gives. Operands: the command, log, LSI, LSP, offset, bytes, retain event -/
  | getLogPage (cmd : CmdId) (lid lsi lsp off n : Nat) (rae : Bool)
  /-- FLOOR_RATIO_OPEN_INTERVAL (R494). Get Log Page 0xC2 with LSP 1 opens a host interval at the next sample boundary. Operands: the command, offset, bytes -/
  | floorRatioOpenInterval (cmd : CmdId) (off n : Nat)
  /-- FLOOR_RATIO_CLOSE_INTERVAL (R494). Get Log Page 0xC2 with LSP 2 closes the open host interval at the next sample boundary. Operands: the command, offset, bytes -/
  | floorRatioCloseInterval (cmd : CmdId) (off n : Nat)
  /-- GET_FEATURES (R116). Get Features returns a supported feature value. Operands: command, feature, CDW11 -/
  | getFeatures (cmd : CmdId) (fid cdw11 : Nat)
  /-- SET_FEATURES (R116). Set Features changes a supported feature that has no row of its own; other features are refused. Operands: command, feature, CDW11, data -/
  | setFeatures (cmd : CmdId) (fid cdw11 : Nat) (data : List Byte)
  /-- SET_FEATURES_POWER_MANAGEMENT (R128). Set Features (Power Management) requests a power state; a non-operational state is entered as under APST. Operands: command, power state -/
  | setFeaturesPowerManagement (cmd : CmdId) (ps : Nat)
  /-- SET_FEATURES_CONTEXT_QUOTA (R117). Set Features (Context Quota) sets a virtual function's context quota. Operands: command, virtual function number, quota -/
  | setFeaturesContextQuota (cmd : CmdId) (vf quota : Nat)
  /-- CREATE_IO_SQ (R143). Create I/O Submission Queue creates a queue and, with COMPUTE set, binds it to a context. Operands: command, queue, entries, completion queue, QPRIO, COMPUTE, context, CDW12[15:0] -/
  | createIoSq (cmd : CmdId) (q size cq prio : Nat) (compute : Bool) (ctx low : Nat)
  /-- CREATE_IO_CQ (R114). Create I/O Completion Queue creates a completion queue. Operands: command, queue, entries, interrupts enabled, vector -/
  | createIoCq (cmd : CmdId) (q size : Nat) (ien : Bool) (iv : Nat)
  /-- DELETE_IO_SQ (R145). Delete I/O Submission Queue deletes a queue, and is refused for a compute queue whose context exists. Operands: command, queue -/
  | deleteIoSq (cmd : CmdId) (q : Nat)
  /-- DELETE_IO_CQ (R114). Delete I/O Completion Queue deletes a completion queue. Operands: command, queue -/
  | deleteIoCq (cmd : CmdId) (q : Nat)
  /-- ABORT (R122). Abort names a command and catches it, or reports that it was not caught, as Table 05-6 gives. Operands: command, queue and identifier of the target -/
  | abort (cmd : CmdId) (sqid cid : Nat)
  /-- ABORT_TIMEOUT (R122). A running task reaches no cheap point within 2 ms of the Abort, which completes as not caught. Operands: the Abort -/
  | abortTimeout (cmd : CmdId)
  /-- ASYNC_EVENT_REQUEST (R133). An Asynchronous Event Request is queued, and any kept event is posted at once. Operands: command -/
  | asyncEventRequest (cmd : CmdId)
  /-- ASYNC_EVENT_POST (R133). An event arises and is posted to an outstanding request, or kept until one arrives. Operands: function, type and information of Table 05-13 -/
  | asyncEventPost (fn type info : Nat)
  /-- NAMESPACE_MANAGEMENT (R109). Namespace Management creates or deletes an NVM or SLM namespace within the capacity limits. Operands: command, create, an SLM namespace, NSID to delete, size in bytes, LBA format, byte 3,840 -/
  | namespaceManagement (cmd : CmdId) (create slm : Bool) (nsid size lbaf pset : Nat)
  /-- NAMESPACE_ATTACHMENT (R111). Namespace Attachment attaches or detaches a namespace to or from controllers. Operands: command, NSID, attach, functions -/
  | namespaceAttachment (cmd : CmdId) (nsid : Nat) (attach : Bool) (fns : List Nat)
  /-- FORMAT_NVM (R456). Format NVM unmaps, or crypto-erases then unmaps, the named namespaces, with a forced flush. Operands: command, NSID, LBA format, SES -/
  | formatNvm (cmd : CmdId) (nsid lbaf ses : Nat)
  /-- SANITIZE (R454). Sanitize is accepted or refused by media mode; once accepted, media mode becomes SANITIZING and the action starts. Operands: command, action (1 Crypto Erase, 2 Block Erase, 3 Overwrite), pattern, No-Deallocate After Sanitize -/
  | sanitize (cmd : CmdId) (action pattern : Nat) (noDealloc : Bool)
  /-- SANITIZE_PROGRESS (R455). A sanitize action reaches a progress point of 1/256 and journals it. Operands: none -/
  | sanitizeProgress
  /-- SANITIZE_COMPLETE (R454). A sanitize action completes; everything is unmapped and media mode leaves SANITIZING. Operands: none -/
  | sanitizeComplete
  /-- SANITIZE_FAIL (R455). A sanitize cannot erase or mark a block, or cannot write a key, and MEDIA_CAUSE becomes 5. Operands: ERR_FIRST_INFO -/
  | sanitizeFail (info : Nat)
  /-- FIRMWARE_IMAGE_DOWNLOAD (R521). Firmware Image Download stages one piece of a package in HBM. Operands: first byte of the piece; its bytes. -/
  | firmwareImageDownload (cmd : CmdId) (off : Nat) (data : List Byte)
  /-- FIRMWARE_COMMIT_WRITE (R521). Firmware Commit with CA 0 writes the staged package into a slot and commits it. Operands: firmware slot; the eFlash write reaches its end. -/
  | firmwareCommitWrite (cmd : CmdId) (fs : Nat) (whole : Bool)
  /-- FIRMWARE_COMMIT_WRITE_ACTIVATE (R521). Firmware Commit with CA 1 writes and commits the slot and sets ACTIVATE. Operands: firmware slot; the eFlash write reaches its end. -/
  | firmwareCommitWriteActivate (cmd : CmdId) (fs : Nat) (whole : Bool)
  /-- FIRMWARE_COMMIT_ACTIVATE (R521). Firmware Commit with CA 2 activates a committed slot. Operands: firmware slot. -/
  | firmwareCommitActivate (cmd : CmdId) (fs : Nat)
  /-- KEY_PACKAGE_COMMIT (R525). Committing a key package stores program-signing keys or applies revocations. Operands: commit action. -/
  | keyPackageCommit (cmd : CmdId) (ca : Nat)
  /-- SECURITY_SEND (R457). Security Send carries a TCG Opal method: a locking change, a key change or GenKey. Operands: command, security protocol, method, admitted by its authority, bytes -/
  | securitySend (cmd : CmdId) (proto : Nat) (m : OpalMethod) (auth : Bool) (data : List Byte)
  /-- SECURITY_RECEIVE (R457). Security Receive returns a TCG Opal response. Operands: command, security protocol -/
  | securityReceive (cmd : CmdId) (proto : Nat)
  /-- NVME_MI_SEND (R112). The NVMe-MI Send admin command passes a management request. Operands: the command, the request it carries -/
  | nvmeMiSend (cmd : CmdId) (r : MiRequest)
  /-- NVME_MI_RECEIVE (R112). The NVMe-MI Receive admin command returns a management response. Operands: the command, its buffer in bytes -/
  | nvmeMiReceive (cmd : CmdId) (n : Nat)
  /-- RESUME_CONTEXT (R164). Resume Context unfreezes a TASK-severity freeze and runs or discards the held commands. Operands: command, context, CDW11[0] -/
  | resumeContext (cmd : CmdId) (c : Nat) (discard : Bool)
  /-- TEAR_DOWN_CONTEXT (R165). Tear Down Context stops the task, completes held commands, frees the resources and unbinds the queue. Operands: command, context -/
  | tearDownContext (cmd : CmdId) (c : Nat)
  /-- COLLECTION_DESCRIPTOR_SET (R338). Collection Descriptor Set defines, replaces or deletes a collection and binds it to a context. Operands: command, collection, context, descriptor -/
  | collectionDescriptorSet (cmd : CmdId) (id c : Nat) (data : List Byte)
  /-- COLLECTION_DESCRIPTOR_GET (R129). Collection Descriptor Get returns a collection descriptor as last set. Operands: command, collection -/
  | collectionDescriptorGet (cmd : CmdId) (id : Nat)
  /-- TIME_QUERY (R130). Time Query returns a coherent DTC and tick read with the time source and ERROR_BOUND. Operands: command -/
  | timeQuery (cmd : CmdId)
  /-- ADMIN_UNSUPPORTED (R112). An admin opcode that is not supported, or not allowed on the function, completes with Invalid Command Opcode. Operands: command -/
  | adminUnsupported (cmd : CmdId)
  /-- NVM_READ (R113). An NVM Read returns data through the FTL, from staging, a copy or flash. Operands: command, NSID, first block, blocks, Limited Retry, a page decodes only past step 4 -/
  | nvmRead (cmd : CmdId) (ns slba nlb : Nat) (lr hard : Bool)
  /-- NVM_WRITE (R436). An NVM Write reserves staging, receives its data into both copies and is acknowledged. Operands: command, NSID, first block, data -/
  | nvmWrite (cmd : CmdId) (ns slba : Nat) (data : List Byte)
  /-- NVM_FLUSH (R125). Flush completes without media work, because every completed write is already power-loss safe. Operands: command, NSID -/
  | nvmFlush (cmd : CmdId) (ns : Nat)
  /-- NVM_WRITE_ZEROES (R444). Write Zeroes deallocates its range as Deallocate does, with a forced flush. Operands: command, NSID, first block, blocks -/
  | nvmWriteZeroes (cmd : CmdId) (ns slba nlb : Nat)
  /-- DATASET_MANAGEMENT_DEALLOCATE (R444). Dataset Management Deallocate unmaps whole IUs, merges zeros into partial IUs and drops copies. Operands: command, NSID, Deallocate attribute, ranges as (first block, blocks) -/
  | datasetManagementDeallocate (cmd : CmdId) (ns : Nat) (ad : Bool) (rs : List (Nat × Nat))
  /-- NVM_COMPARE (R113). Compare reads the range and compares it with the host data. Operands: command, NSID, first block, data, Limited Retry, a page decodes only past step 4 -/
  | nvmCompare (cmd : CmdId) (ns slba : Nat) (data : List Byte) (lr hard : Bool)
  /-- NVM_VERIFY (R113). Verify reads the range and checks it. Operands: command, NSID, first block, blocks, Limited Retry, a page decodes only past step 4 -/
  | nvmVerify (cmd : CmdId) (ns slba nlb : Nat) (lr hard : Bool := false)
  /-- SLM_READ (R113). A Subsystem Local Memory Read returns bytes from SLM pages in HBM. Operands: command, NSID, byte offset, bytes -/
  | slmRead (cmd : CmdId) (ns off n : Nat)
  /-- SLM_WRITE (R113). A Subsystem Local Memory Write writes bytes to SLM pages in HBM. Operands: command, NSID, byte offset, data -/
  | slmWrite (cmd : CmdId) (ns off : Nat) (data : List Byte)
  /-- EXECUTE_PROGRAM (R146). Execute Program on a compute queue enters intake and waits for its context's task-register load. Operands: command, NSID, CDW10, CDW11, TIME_LIMIT, CDW13 to CDW15 as one number, segments of its data pointer as (address, bytes) -/
  | executeProgram (cmd : CmdId) (nsid cdw10 cdw11 limit cdw13 : Nat) (dptr : List (Nat × Nat))
  /-- LOAD_PROGRAM (R140). Load Program writes one piece of a program image into a slot and checks the image once it is whole. Operands: command, NSID, slot, byte offset, data -/
  | loadProgram (cmd : CmdId) (nsid slot off : Nat) (data : List Byte)
  /-- PROGRAM_ACTIVATION_MANAGEMENT (R141). Program Activation Management activates or deactivates a program slot. Operands: command, NSID, slot, activate -/
  | programActivationManagement (cmd : CmdId) (nsid slot : Nat) (on : Bool)
  /-- MEMORY_RANGE_SET_MANAGEMENT (R142). Memory Range Set Management defines a set of SLM ranges. Operands: command, NSID, set, ranges as (namespace, offset, length) -/
  | memoryRangeSetManagement (cmd : CmdId) (nsid set : Nat) (rs : List (Nat × Nat × Nat))
  /-- APST_IDLE_EXPIRY (R128). The APST idle timer expires and entry to a non-operational power state is requested. -/
  | apstIdleExpiry
  /-- PS_ENTRY_START (R87). Once no command is outstanding and no task runs, entry to PS3 or PS4 begins. -/
  | psEntryStart
  /-- PS_ENTRY_COMPLETE (R86). Entry to PS3 or PS4 completes with the state kept that Table 04-4 gives. -/
  | psEntryComplete
  /-- PS_EXIT_COMPLETE (R127). Exit from PS3 or PS4 completes and PS_EFFECTIVE returns to the last operational state. -/
  | psExitComplete
  /-- TASK_START (R148). Crossing point 1 grants the task-register load; the sequencer checks the program, stages it and starts issuing. Operands: context -/
  | taskStart (c : Nat)
  /-- TASK_END (R155). All descriptors and conditions finish; epoch advances take effect, the record is written and the completion is posted. Operands: context -/
  | taskEnd (c : Nat)
  /-- TASK_FAULT (R159). A task error stops issue, posts the error completion, freezes the queue, writes the Context Error log and posts the event. Operands: context, Hob, and what the unit reports: fault code, descriptor index, case, unit class and instance -/
  | taskFault (c h code idx case ucls uinst : Nat)
  /-- TASK_TIMEOUT (R150). TIME_LIMIT ticks elapse while the context is loaded, and the task faults with TASK_TIMEOUT. Operands: context -/
  | taskTimeout (c : Nat)
  /-- BARRIER (R154). The BARRIER descriptor holds issue until the watched work has completed. Operands: context and Hob of the sequencer -/
  | barrier (c h : Nat)
  /-- BARRIER_RELEASE (R154). The watched work of a pending BARRIER completes and issue resumes. Operands: context and Hob of the sequencer -/
  | barrierRelease (c h : Nat)
  /-- SEM_WAIT (R154). The SEM_WAIT descriptor waits until a semaphore holds VALUE, and optionally acquires it. Operands: context and Hob of the sequencer -/
  | semWait (c h : Nat)
  /-- SEM_WAIT_SATISFIED (R154). A waited semaphore reaches VALUE; the wait passes and any acquire subtracts it. Operands: context and Hob of the sequencer -/
  | semWaitSatisfied (c h : Nat)
  /-- SEM_SIGNAL (R154). The SEM_SIGNAL descriptor passes a signal to the semaphore block, deferred on its watched work. Operands: context and Hob of the sequencer -/
  | semSignal (c h : Nat)
  /-- SEM_SIGNAL_EFFECT (R154). The watched work of a deferred signal completes and VALUE is added to the semaphore, or it faults with SEM_OVERFLOW. Operands: context, Hob and index of the signalling descriptor -/
  | semSignalEffect (c h inst : Nat)
  /-- YIELD (R154). The YIELD descriptor acts as a full barrier and meeting point and checks the holds and live sizes. Operands: context and Hob of the sequencer -/
  | yield (c h : Nat)
  /-- YIELD_DRAINED (R288). A YIELD drains into a cheap point; the replay state is recorded, a checkpoint is written if forceable, and settings are invalidated. Operands: context -/
  | yieldDrained (c : Nat)
  /-- REPEAT (R154). The REPEAT descriptor jumps back or falls through and updates the loop state and the pacing offset. Operands: context and Hob of the sequencer -/
  | repeat (c h : Nat)
  /-- GRIDDLE_MM (R177). The GRIDDLE_MM descriptor starts a pass on a Griddle region after its decode checks. Operands: context and Hob of the sequencer -/
  | griddleMm (c h : Nat)
  /-- GRIDDLE_PASS_COMPLETE (R173). A pass's last token group enters the tile share, and with DRAIN set the share is handed to the Drain. Operands: Griddle page instance and region -/
  | griddlePassComplete (inst r : Nat)
  /-- GRIDDLE_CHECK_ERROR (R184). A weight-parity, residue or tile-buffer error is detected; the pass is discarded and the region or Griddle faults. Operands: Griddle page instance, region, error bit, ERR_FIRST_INFO, not confined to a region -/
  | griddleCheckError (inst r kind info : Nat) (whole : Bool)
  /-- STREAM_MISMATCH (R180). A stream's last-element mark or format does not match its pass, which faults the context and empties the share. Operands: Griddle page instance, region, port: 0 west edge, 1 preload, 3 row scale, 4 drain output, 5 row sums -/
  | streamMismatch (inst r port : Nat)
  /-- GRIDDLE_SELF_CHECK (R185). Sparing firmware runs the self-check on a faulted region after its context is torn down. Operands: Griddle page instance and region -/
  | griddleSelfCheck (inst r : Nat)
  /-- GRIDDLE_SELF_CHECK_DONE (R185). A self-check finishes and classifies the region as transient, as a localised row or column, or as needing retirement. Operands: Griddle page instance, outcome (0 no fault, 1 a row, 2 a column, 3 a cell, 4 not completed), physical row and column -/
  | griddleSelfCheckDone (inst outcome row col : Nat)
  /-- SELF_CHECK_GO (R191). A host write of SELF_CHECK_GO, in test mode on an unowned region, runs a self-check. Operands: Griddle page instance -/
  | selfCheckGo (inst : Nat)
  /-- SPARE_ROW_COMMIT (R186). Once every region is unowned and drained, the row and column maps and the skew table are committed together. Operands: Griddle page instance -/
  | spareRowCommit (inst : Nat)
  /-- GRIDDLE_RETIRE (R189). A Griddle is retired, and the spare Griddle takes over its logical number or SPARE_EXHAUSTED is set. Operands: Griddle page instance -/
  | griddleRetire (inst : Nat)
  /-- DRAIN_CFG (R214). The DRAIN_CFG descriptor sets a region's accumulation or drain settings and loads tables. Operands: context and Hob of the sequencer -/
  | drainCfg (c h : Nat)
  /-- DRAIN_TABLE_LOAD_DONE (R215). A DRAIN_CFG table load ends, once any latched drain of the slot has ended, and the DRAIN_CFG completes. Operands: Griddle page instance and region -/
  | drainTableLoadDone (inst r : Nat)
  /-- DRAIN_TILE_START (R215). A handed-over tile share begins to drain under its latched settings, after earlier hand-overs and the table loads. Operands: Griddle page instance and region -/
  | drainTileStart (inst r : Nat)
  /-- DRAIN_TILE_COMPLETE (R204). The Drain writes the last result of a tile share, emits row sums, and releases the share to EMPTY. Operands: Griddle page instance and region -/
  | drainTileComplete (inst r : Nat)
  /-- DRAIN_ERROR (R218). A Drain table, residue, non-finite or table-validity error stops the drain and faults a region, the Griddle or the task. Operands: Griddle page instance, region, error bit, entry or table byte reported, shared input stage -/
  | drainError (inst r kind pos : Nat) (whole : Bool)
  /-- LADLE_MOVE (R228). The LADLE_MOVE descriptor fetches its move record, checks it and queues the move on a channel. Operands: context and Hob of the sequencer -/
  | ladleMove (c h : Nat)
  /-- LADLE_MOVE_START (R237). A queued move starts once its earlier moves and its SB port bindings are clear. Operands: Ladle page instance -/
  | ladleMoveStart (ch : Nat)
  /-- LADLE_MOVE_COMPLETE (R236). A move's last byte is accepted at its destination; it completes and releases its SB ports. Operands: Ladle page instance -/
  | ladleMoveComplete (ch : Nat)
  /-- LADLE_HALT (R240). A channel meets an uncorrectable source error, discards its staged bytes, halts and faults its context. Operands: Ladle page instance, failing address, error in the staging buffer -/
  | ladleHalt (ch addr : Nat) (staging : Bool)
  /-- SB_READ_ERROR (R239). An SB read finds an error; a single-bit error is corrected, an uncorrectable line is remapped, and a macro-group may retire. Operands: Hob, SB offset, uncorrectable, user (0 the Ladle page instance ch, 1 a fetch of context ch, 2 another) -/
  | sbReadError (h a : Nat) (double : Bool) (user ch : Nat)
  /-- WHISK (R244). The WHISK descriptor attaches, detaches or configures a Whisk and loads its tables. Operands: context and Hob of the sequencer -/
  | whisk (c h : Nat)
  /-- WHISK_CHECK_ERROR (R245). A Whisk residue or table-SRAM error faults the owning context with WHISK_CHECK. Operands: Whisk page instance, error bit, ERR_FIRST_INFO -/
  | whiskCheckError (inst kind info : Nat)
  /-- HBM_READ_ERROR (R254). An HBM sector read fails ECC or address parity; it is re-read and handled by the user of the sector. Operands: stack, byte offset, outcome of Table 10-4, address-parity mismatch, user of the sector, its Ladle page instance or context, its SLM command -/
  | hbmReadError (k a outcome : Nat) (parity : Bool) (user n : Nat) (cmd : CmdId)
  /-- HBM_ROW_REPAIR (R255). A marked row's tier page is freed by its user; the row is soft-repaired and verified and the page returns to the pool. Operands: T1 page (24,576 × stack + page), the bank has a repair left -/
  | hbmRowRepair (t : Nat) (bankLeft : Bool)
  /-- HBM_PSEUDO_CHANNEL_RETIRE (R256). An HBM pseudo-channel is retired, which ends new use of its stack and drops its copies. Operands: stack and pseudo-channel; its training failed while the controller starts -/
  | hbmPseudoChannelRetire (k p : Nat) (train : Bool := false)
  /-- HEAT_DECAY (R257). At the end of each decay period every T1 and T2 heat counter is halved. -/
  | heatDecay
  /-- PLACEMENT_PERIOD (R258). Every 100 ms the placement policy chooses T2 pages to promote and starts copies. -/
  | placementPeriod
  /-- PLACEMENT_COPY_COMPLETE (R258). A placement copy finishes, or is abandoned at the end of the next period. Operands: T2 page (NSID × 2^32 + page) -/
  | placementCopyComplete (tk : Nat)
  /-- WINDOW_PAGE_READY (R262). A fill writes the last byte of a window page, READY is set, and waiting consumers resume. Operands: Ladle page instance and T1 page (24,576 × stack + page) -/
  | windowPageReady (ch page : Nat)
  /-- BATCH_STEP (R271). A move completes over the request page; the batch manager checks it, processes leaves and joins, writes the slot table and sets READY. Operands: context -/
  | batchStep (c : Nat)
  /-- CREATE_CONTEXT (R278). CMD with OP CREATE fetches and checks a request block, takes the resources and writes the page directory. Operands: CONTEXT field of the CMD write -/
  | createContext (v : Nat)
  /-- CMD_TEAR_DOWN (R303). CMD with OP TEAR_DOWN tears down a context of any function, as Tear Down Context does. Operands: CONTEXT field of the CMD write -/
  | cmdTearDown (v : Nat)
  /-- CMD_PREEMPT (R298). CMD with OP PREEMPT pre-empts a running context, normally or forced. Operands: CONTEXT and FORCE fields of the CMD write -/
  | cmdPreempt (v : Nat) (force : Bool)
  /-- CMD_SET_POLICY (R297). CMD with OP SET_POLICY sets a context's priority, quantum and forcing. Operands: CONTEXT field of the CMD write -/
  | cmdSetPolicy (v : Nat)
  /-- CONTEXT_LOAD (R285). Units become free and the context manager presents the next fitting waiter at crossing point 1. Operands: context -/
  | contextLoad (c : Nat)
  /-- PREEMPT_DECISION (R286). A waiter, priority or quantum changes, and the context manager decides whether to pre-empt the overlapping running contexts. Operands: running context judged -/
  | preemptDecision (c : Nat)
  /-- FORCE_AFTER_EXPIRY (R286). A forceable context passes no cheap point within FORCE_AFTER_MS, and a forced pre-emption is requested. Operands: context -/
  | forceAfterExpiry (c : Nat)
  /-- FORCED_PREEMPT (R292). A forced pre-emption is granted; issue stops, semaphores and credits are released and the live SB range is saved. Operands: context -/
  | forcedPreempt (c : Nat)
  /-- CONTEXT_SAVE_COMPLETE (R289). A save finishes, the home is released and the context becomes SUSPENDED and WAITING. Operands: context -/
  | contextSaveComplete (c : Nat)
  /-- CONTEXT_RESTORE (R290). Crossing point 1 grants a suspended context its restore, which writes back SB, tiles and semaphores. Operands: context -/
  | contextRestore (c : Nat)
  /-- CONTEXT_RESTORE_COMPLETE (R294). A restore finishes and issue restarts at LAST_YIELD + 1. Operands: context -/
  | contextRestoreComplete (c : Nat)
  /-- PUU_STEP (R323). The PUU_STEP descriptor fetches and checks a tensor table, marks frozen granules and queues the step. Operands: context and Hob of the sequencer -/
  | puuStep (c h : Nat)
  /-- PUU_STEP_COMPLETE (R326). A PUU step writes its last byte and RESULT, at BLOCK or LAYER grain. Operands: Hob -/
  | puuStepComplete (h : Nat)
  /-- PUU_STEP_FAULT (R325). A running PUU step meets a tensor, non-finite, memory, datapath or stall fault and stops. Operands: Hob, kind of fault (0 what the data give, 1 HBM read, 2 NAND read, 3 residue, 4 statistics buffer, 5 stall), entry, pass B, record -/
  | puuStepFault (h kind e : Nat) (inB : Bool) (pos : Nat)
  /-- PUU_SELF_TEST_GO (R328). SELF_TEST_GO is written in test mode with the unit unowned, and the PUU self-test runs. Operands: Hob -/
  | puuSelfTestGo (h : Nat)
  /-- PUU_SELF_TEST_DONE (R328). The PUU self-test compares its signature; the unit returns to ON, goes to FAULTED or is retired. Operands: Hob, duration in µs, signature matched -/
  | puuSelfTestDone (h us : Nat) (ok : Bool)
  /-- FILTER_LOAD (R348). FILTER in MODE LOAD writes a filter program into a slot on every Colander of its reach. Operands: context and Hob of the sequencer -/
  | filterLoad (c h : Nat)
  /-- FILTER_COUNT (R350). FILTER in MODE COUNT counts the matching records on each Colander. Operands: context and Hob of the sequencer -/
  | filterCount (c h : Nat)
  /-- FILTER_BITMAP (R350). FILTER in MODE BITMAP writes a selection bitmap over the range. Operands: context and Hob of the sequencer -/
  | filterBitmap (c h : Nat)
  /-- FILTER_GATHER (R350). FILTER in MODE GATHER writes the record numbers and column values of matching records. Operands: context and Hob of the sequencer -/
  | filterGather (c h : Nat)
  /-- SKIM_SCAN_LOAD_TABLES (R351). SKIM_SCAN in MODE LOAD_TABLES broadcasts distance tables into table slots. Operands: context and Hob of the sequencer -/
  | skimScanLoadTables (c h : Nat)
  /-- SKIM_SCAN_SCAN (R353). SKIM_SCAN in MODE SCAN scores codes in the Skimmer lanes and writes a top-K list per query and Colander. Operands: context and Hob of the sequencer -/
  | skimScanScan (c h : Nat)
  /-- COLANDER_DESCRIPTOR_COMPLETE (R357). A FILTER or SKIM_SCAN completes when its loads are in place or its last output byte is accepted. Operands: context, Hob and index of the descriptor -/
  | colanderDescriptorComplete (c h inst : Nat)
  /-- COLANDER_RUN_FAULT (R359). A running FILTER, SKIM_SCAN or collection stream meets a fault and stops on every Colander. Operands: context, Hob and index of the descriptor, kind of fault (0 what the state shows, 1 NAND page, 2 unreachable, 3 lane residue, 4 SRAM, 5 stall), Colander, ERR_FIRST_INFO -/
  | colanderRunFault (c h inst kind col info : Nat)
  /-- SKIM_MERGE_TABLES (R366). SKIM_MERGE in MODE TABLES builds quantised distance tables and scale records. Operands: context and Hob of the sequencer -/
  | skimMergeTables (c h : Nat)
  /-- SKIM_MERGE_MERGE (R377). SKIM_MERGE in MODE MERGE merges input lists into result lists. Operands: context and Hob of the sequencer -/
  | skimMergeMerge (c h : Nat)
  /-- SKIM_MERGE_EXPAND (R381). SKIM_MERGE in MODE EXPAND expands one graph frontier step. Operands: context and Hob of the sequencer -/
  | skimMergeExpand (c h : Nat)
  /-- SKIM_MERGE_RERANK (R378). SKIM_MERGE in MODE RERANK ranks candidates by exact distance. Operands: context and Hob of the sequencer -/
  | skimMergeRerank (c h : Nat)
  /-- SKIM_MERGE_RESCAN (R379). SKIM_MERGE in MODE RESCAN scores every visible record of a range exactly. Operands: context and Hob of the sequencer -/
  | skimMergeRescan (c h : Nat)
  /-- SKIM_MERGE_FETCH (R380). SKIM_MERGE in MODE FETCH writes a column's values for result entries. Operands: context and Hob of the sequencer -/
  | skimMergeFetch (c h : Nat)
  /-- SKIM_MERGE_COMPLETE (R376). A SKIM_MERGE's last output byte is accepted; with FINAL set it writes RESULT. Operands: context, Hob and index of the descriptor; 0 no check failed, 1 residue mismatch, 2 buffer error -/
  | skimMergeComplete (c h inst check : Nat)
  /-- EPOCH_ADVANCE (R387). The EPOCH_ADVANCE descriptor is decoded and checked, to take effect at the task's successful end. Operands: context and Hob of the sequencer -/
  | epochAdvance (c h : Nat)
  /-- FLASH_PROGRAM (R403). A wordline program is checked against the tracker and pulsed, and returns its status. Operands: Colander, planes, the die has reported OK -/
  | flashProgram (c np : Nat) (done : Bool)
  /-- FLASH_PROGRAM_FAIL (R406). A die reports program failure; the block is closed FULL, the data is rewritten and the block is marked BAD. Operands: Colander, die, plane, block -/
  | flashProgramFail (c d k b : Nat)
  /-- FLASH_ERASE (R404). A block erase runs, or is refused, and the tracker moves the block to ERASED or BAD. Operands: Colander, die, block, planes, 0 begun or 1 ended, planes that failed -/
  | flashErase (c d b : Nat) (planes : List Nat) (outcome : Nat) (bad : List Nat)
  /-- FLASH_READ (R411). A page read senses and decodes, climbs the ladder as needed, and returns its status. Operands: Colander, die, plane, block, page, ladder step that decodes (7 none), die whose member failed (16 none), read by the FTL for itself -/
  | flashRead (c d k b p step member : Nat) (own : Bool)
  /-- FLASH_KEY_LOAD (R336). The FTL loads an AES-XTS key slot into a Colander. Operands: Colander, key slot -/
  | flashKeyLoad (c slot : Nat)
  /-- PROGRAM_ERASE_RESUME (R400). No read waits, or 1 ms has passed, and the suspended operation resumes. Operands: Colander, die -/
  | programEraseResume (c d : Nat)
  /-- DIE_TIMEOUT (R401). A die is not ready by its limit; it is reset and the operation is reissued, or it is classified. Operands: Colander, die -/
  | dieTimeout (c d : Nat)
  /-- ZQ_CALIBRATION (R397). Each second, or after a temperature move, ZQ calibration runs on an idle die. Operands: Colander, die -/
  | zqCalibration (c d : Nat)
  /-- THRESHOLD_TEMPERATURE_UPDATE (R415). Every 1 s the per-die temperature term of the read thresholds is updated. Operands: Colander, die, temperature term -/
  | thresholdTemperatureUpdate (c d : Nat) (term : Int)
  /-- ONFI_CHANNEL_STEP_DOWN (R420). A fourth retraining within an hour moves a channel down one rate step, and step 3 retires it. Operands: Colander, channel, retraining succeeded -/
  | onfiChannelStepDown (c ch : Nat) (ok : Bool)
  /-- DIE_RETIRE (R421). A die is classified permanent; it is recorded, excluded from new stripes and relocated by rebuild. Operands: Colander, die -/
  | dieRetire (c d : Nat)
  /-- DIE_RELOCATION_COMPLETE (R421). Relocation of a retired die ends, and its pages are no longer read. Operands: Colander, die -/
  | dieRelocationComplete (c d : Nat)
  /-- PACKAGE_RETIRE (R422). A package is retired, takes no more programs and is evacuated. Operands: package -/
  | packageRetire (c : Nat)
  /-- PACKAGE_EVACUATION_COMPLETE (R422). Evacuation of a retired package ends and its Colander page reaches RETIRED. Operands: package -/
  | packageEvacuationComplete (c : Nat)
  /-- STAGING_SLOT_COMMIT (R436). A staged IU's wordline and stripe parity have programmed; the map takes the NAND location and the slot frees. Operands: sequence number of the staged IU -/
  | stagingSlotCommit (seq : Nat)
  /-- JOURNAL_FLUSH (R440). After 64 MiB programmed or 50 ms, a journal flush writes the records, the open-block state and one map segment. -/
  | journalFlush
  /-- JOURNAL_FORCED_FLUSH (R440). A flush is forced before a change that requires one takes effect. -/
  | journalForcedFlush
  /-- MAP_ECC_RELOAD (R429). An uncorrectable map read reloads the segment from its checkpoint and journal. Operands: map segment -/
  | mapEccReload (seg : Nat)
  /-- GC_COPY_COMMIT (R449). A GC copy's wordline and parity have programmed, and the map moves only if it still holds the source. Operands: IU and the location it was read from -/
  | gcCopyCommit (iu src : Nat)
  /-- GC_START (R448). A package falls below 8 free superblocks and garbage collection starts on the fewest-valid victim. Operands: package -/
  | gcStart (c : Nat)
  /-- GC_STOP (R448). A package reaches 12 free superblocks and garbage collection stops. Operands: package -/
  | gcStop (c : Nat)
  /-- RETENTION_REFRESH (R447). A superblock meets a refresh condition and its valid IUs are relocated. Operands: package, superblock -/
  | retentionRefresh (c b : Nat)
  /-- PACKAGE_SHED (R453). SPARE of a package falls below 6,480 MiB and whole tier pages are moved off it. Operands: package -/
  | packageShed (c : Nat)
  /-- SUSPECT_IU_RELOCATE (R445). Relocation of a SUSPECT IU reads it again, and the entry becomes LOST if that read fails. Operands: IU, the read decoded -/
  | suspectIuRelocate (iu : Nat) (ok : Bool)
  /-- PANTRY_LANE_REPLAY (R463). A lane CRC error is cured by replaying the 64-byte unit. Operands: link, lane, replays of the unit, two lanes' CRCs failed -/
  | pantryLaneReplay (k lane tries : Nat) (two : Bool)
  /-- PANTRY_LANE_SPARE (R466). A lane is classified permanent; the hub holds grants, retrains with the spare, replays and resumes. Operands: link, lane, µs of the retrain -/
  | pantryLaneSpare (k lane us : Nat)
  /-- PANTRY_LINK_DEGRADE (R467). A link with its spare in use loses another lane, runs on one lane and its package is retired. Operands: link, lane, µs of the retrain -/
  | pantryLinkDegrade (k lane us : Nat)
  /-- COLANDER_SELF_CHECK (R468). After a Colander fault its work is discarded and the self-check classifies the read path and the engines. Operands: Colander, a datapath residue mismatch is what failed it, the event concerns the read path, the read path passes, the engines pass -/
  | colanderSelfCheck (k : Nat) (residue read readOk engOk : Bool)
  /-- HOB_LINK_FAULT (R470). A Hob-to-Hob lane fault with no repair lane left faults the link permanently. Operands: contexts with transfers in flight on the link -/
  | hobLinkFault (cs : List Nat)
  /-- HOB_LINK_LANE_REPAIR (R463). A Hob-to-Hob lane fault is cured by live UCIe lane repair. Operands: Hob -/
  | hobLinkLaneRepair (h : Nat)
  /-- UNIT_RETIREMENT (R465). A permanent fault retires a unit or channel, is written to eFlash, and brings in a spare where one exists. Operands: page class, instance, macro-group (class 0x15) -/
  | unitRetirement (c inst g : Nat)
  /-- NAND_PATROL (R473). The Scourer reads one wordline of a written block and runs a valley search if the margin is low. Operands: Colander, die, plane, block, wordline, the margin is low, the offset set that the valley search found -/
  | nandPatrol (c d k b wl : Nat) (weak : Bool) (offs : Nat)
  /-- MEDIA_SCAN (R473). The Scourer reads the page of a MAPPED or SUSPECT IU and reports weak blocks. Operands: indirection unit, first step of the ladder that decodes (7 none) -/
  | mediaScan (iu step : Nat)
  /-- HBM_SCRUB (R473). The Scourer scrubs HBM pages and writes back corrected sectors. Operands: T1 page, byte of the page, 0 clean, 1 corrected, 2 uncorrectable -/
  | hbmScrub (t a outcome : Nat)
  /-- SRAM_SCRUB (R473). The Scourer scrubs unowned SB and Colander SRAM. Operands: a Colander's SRAM, Colander or Hob, macro-group, byte, 0 clean, 1 corrected, 2 uncorrectable -/
  | sramScrub (col : Bool) (inst g a outcome : Nat)
  /-- LPDDR5X_SCRUB (R473). The Scourer scrubs the LPDDR5X array. Operands: map segment, 0 clean, 1 corrected, 2 uncorrectable -/
  | lpddr5xScrub (seg outcome : Nat)
  /-- SPARE_GRIDDLE_CHECK (R473). The Scourer self-checks an idle spare Griddle daily and retires it on failure. Operands: Hob, the check passed -/
  | spareGriddleCheck (h : Nat) (ok : Bool)
  /-- SPARE_LANE_CHECK (R473). The Scourer trains an idle spare pantry lane daily and retires it on failure. Operands: link, the check passed -/
  | spareLaneCheck (k : Nat) (ok : Bool)
  /-- EDGE_REPAIR_PASS (R474). An edge repair pass rewrites the neighbour lists that name deleted records, as pending versions. Operands: function, collection, record -/
  | edgeRepairPass (fn id u : Nat)
  /-- SENSOR_SAMPLE (R485). Every 64 ticks the Kettle samples every sensor and rail monitor, integrates energy and checks the limits. Operands: samples as (sensor, reading in the unit of R484, in range and passing its self-check); handshakes as (rail, context or 64, count); rails idle for 1 ms. -/
  | sensorSample (vals : List (Nat × Int × Bool)) (hs : List (Nat × Nat × Nat)) (idle : List Nat)
  /-- RAIL_MONITOR_RECALIBRATE (R485). A rail monitor is recalibrated at start-up or after a failed hourly offset check. Operands: rail monitor (sensor number). -/
  | railMonitorRecalibrate (n : Nat)
  /-- THERMAL_TRIP_CLEAR (R487). Every sensor has read 10 °C below its trip limit for 1 s, and the trip clears. Operands: none. -/
  | thermalTripClear
  /-- THERMAL_SHUTDOWN_RELEASE (R488). After 60 s below the release margin the Kettle releases the control plane. Operands: a component fails its digest; the control plane cannot be brought up. -/
  | thermalShutdownRelease (bad fails : Bool)
  /-- POWER_CAP_WRITE (R490). POWER_CAP is written through the Kettle page or the PLDM effecter, or the write is refused. Operands: value in W; written through the PLDM effecter. -/
  | powerCapWrite (v : Nat) (pldm : Bool)
  /-- POWER_CAP_WINDOW (R491). At the end of each 100 ms window the cap ceiling is lowered or raised. Operands: none. -/
  | powerCapWindow
  /-- RECORDER_ENTRY_ACCEPT (R497). The Kettle accepts one waiting recorder entry into the ring in delivery order. Operands: none. -/
  | recorderEntryAccept
  /-- RECORDER_FREEZE (R498). A freeze cause stops the ring after a 0x0606 entry. Operands: freeze cause 4 or 5. -/
  | recorderFreeze (cause : Nat)
  /-- HOST_FREEZE (R502). HOST_FREEZE is written and the ring freezes with cause 6. Operands: the same write sets UNFREEZE. -/
  | hostFreeze (both : Bool)
  /-- UNFREEZE (R502). UNFREEZE is written and a cause-6 freeze ends. Operands: the same write sets HOST_FREEZE. -/
  | unfreeze (both : Bool)
  /-- RECORD_PERSIST (R499). A persisted freeze writes the ring and then the header into the READY record slot. Operands: the write runs to its end. -/
  | recordPersist (whole : Bool)
  /-- MCTP_SET_ENDPOINT_ID (R481). The bus owner assigns the Kettle's MCTP EID. Operands: endpoint identifier. -/
  | mctpSetEndpointId (eid : Nat)
  /-- NVME_MI_REQUEST (R482). An NVMe-MI request over MCTP is answered from Kettle state or through crossing point 4. Operands: the transport, the request -/
  | nvmeMiRequest (t : Transport) (r : MiRequest)
  /-- PLDM_PLATFORM_REQUEST (R481). A PLDM base, platform or FRU request is answered from Kettle state. Operands: the transport, the request -/
  | pldmPlatformRequest (t : Transport) (r : PldmRequest)
  /-- PLDM_REQUEST_UPDATE (R524). PLDM RequestUpdate takes the update lock for a firmware update. Operands: none. -/
  | pldmRequestUpdate
  /-- PLDM_UPDATE_COMPONENT (R524). PLDM UpdateComponent starts writing the package into the slot that is not running. Operands: component identifier. -/
  | pldmUpdateComponent (comp : Nat)
  /-- PLDM_FIRMWARE_DATA (R524). A RequestFirmwareData answer delivers package data, which the Kettle writes to the slot. Operands: offset and bytes; the eFlash writes reach their end. -/
  | pldmFirmwareData (off : Nat) (data : List Byte) (whole : Bool)
  /-- PLDM_ACTIVATE_FIRMWARE (R524). ActivateFirmware sets ACTIVATE and may make a planned Kettle restart. Operands: SelfContainedActivationRequest. -/
  | pldmActivateFirmware (now : Bool)
  /-- PLDM_CANCEL_UPDATE (R524). CancelUpdate or CancelUpdateComponent ends the update and releases the lock. Operands: none. -/
  | pldmCancelUpdate
  /-- PLANNED_KETTLE_RESTART (R524). A planned Kettle restart resets with the scope of watchdog expiry and starts up again. Operands: what the start-up meets. -/
  | plannedKettleRestart (inp : StartInput)
  /-- EFLASH_READ (R510). The ROM routine reads eFlash words with correction or majority vote. Operands: word address, count; words with wrong bits and how many. -/
  | eflashRead (a n : Nat) (errs : List (Nat × Nat))
  /-- EFLASH_PROGRAM (R510). The ROM routine programs eFlash words with margin-read or pulse-verify. Operands: word address, data, VERIFY, MAX_PULSES, RECORD, called by a ROM handler; pulses needed, first word that fails, cut off there. -/
  | eflashProgram (a : Nat) (data : List Nat) (pulseVerify : Bool) (maxPulses : Nat) (record handler : Bool) (need failAt : Nat) (cut : Bool := false)
  /-- EFLASH_ERASE (R510). The ROM routine erases sectors and tracks them in the sector-state table. Operands: first sector, count, VERIFY, MAX_PULSES, RECORD, called by a ROM handler; pulses needed, sector that fails, cut off. -/
  | eflashErase (x n : Nat) (pulseVerify : Bool) (maxPulses : Nat) (record handler : Bool) (need failing : Nat) (cut : Bool := false)
  /-- EFLASH_BLANK_CHECK (R510). The ROM routine checks that sectors read erased. Operands: first sector, count. -/
  | eflashBlankCheck (x n : Nat)
  /-- CONFIG_STORE_COMPACTION (R514). Three-quarters of the active configuration store is used, and the live records are copied to the other half. Operands: none. -/
  | configStoreCompaction
  /-- PTP_SYNC_RECEIVED (R534). A Sync and its follow-up give an offset that the servo slews or steps, and lock is judged. Operands: port, domain, master's port identity, log2 of the Sync interval, origin time in 2^−16 ns, PHY cycles from the delimiter to the read. -/
  | ptpSyncReceived (p dom sender : Nat) (logSync : Int) (t1 cyc : Nat)
  /-- PTP_ANNOUNCE_RECEIVED (R535). An Announce is received and the best master is selected. Operands: port, domain, master's port identity, log2 of the Announce interval; priority 1, class, accuracy, variance, priority 2, grandmaster identity, steps removed. -/
  | ptpAnnounceReceived (p dom sender : Nat) (logAnn : Int) (data : List Nat)
  /-- PTP_DELAY_RESPONSE (R537). A Delay_Resp or Pdelay response completes a path-delay measurement. Operands: port, master, log2 of the least Delay_Req interval; E2E: a the request's receipt; P2P: a its receipt and b the answer's sending, cyc the PHY cycles since the answer; times in 2^−16 ns. -/
  | ptpDelayResponse (p sender : Nat) (logDelay : Int) (a b cyc : Nat)
  /-- PTP_PDELAY_REQUEST (R537). A received Pdelay_Req is answered with Pdelay_Resp and its Follow_Up. Operands: port, domain, PHY cycles from the request's and the answer's delimiter to the read. -/
  | ptpPdelayRequest (p dom cyc cycOut : Nat)
  /-- PTP_SOURCE_LOSS (R535). An Announce or Sync timeout, or a link loss, loses PTP; the standby takes over or the device enters HOLDOVER. Operands: port. -/
  | ptpSourceLoss (p : Nat)
  /-- PTP_PREFERRED_RETURN (R539). The preferred port has met lock for 60 s and becomes active again. Operands: none. -/
  | ptpPreferredReturn
  /-- PTM_DIALOG (R540). Every PTM_INTERVAL_MS a PTM dialog measures the offset to the root, steering the DTC and judging lock or loss. Operands: whether it succeeds; root's time in ns; link delay and age of the answer in 2^−16 ns. -/
  | ptmDialog (ok : Bool) (root delay ago : Nat)
  /-- PPS_OUT_EDGE (R541). The DTC reaches a second boundary and the 1PPS out edge is driven as the mode gives. Operands: none. -/
  | ppsOutEdge
  /-- PPS_IN_EDGE (R541). A 1PPS in edge is timestamped and its offset reported. Operands: PHY cycles from the edge to the read. -/
  | ppsInEdge (cyc : Nat)
  /-- PPS_IN_MISSING (R553). No 1PPS in edge arrives for 2 s after one was seen, and PPS_IN_MISSING is set. Operands: none. -/
  | ppsInMissing
  /-- ETHERNET_LINK_DOWN (R543). A port's link goes down; Snilo Link traffic moves to the other port and the PTP role passes. Operands: port; the lane that failed link training, if any. -/
  | ethernetLinkDown (p : Nat) (lane : Option Nat)
  /-- ETHERNET_LINK_UP (R543). A port's link retrains and comes up. Operands: port; 1 400G, 2 800G; 0 KR4, 1 CR4. -/
  | ethernetLinkUp (p speed medium : Nat)
  /-- ETHERNET_FRAME_DISCARD (R542). A frame that is not accepted is discarded and counted. Operands: port; 0 not accepted, 1 bad Snilo Link CRC, 2 lost to FEC; lane; bytes after the MAC header. -/
  | ethernetFrameDiscard (p kind lane n : Nat)
  /-- SNILO_READ_REQ (R549). A received READ_REQ is queued, checked against the export table and served or answered with a NAK. Operands: port, requesting sled, export address, length, serve queue full -/
  | sniloReadReq (port src a n : Nat) (full : Bool)
  /-- SNILO_READ_RSP (R548). A received READ_RSP matching a credit is accepted and the credit returns. Operands: TAG of Table 20-6, payload, port, sending sled -/
  | sniloReadRsp (tag : Nat) (data : List Byte) (port src : Nat := 0)
  /-- SNILO_NAK (R548). A received NAK faults the move with REMOTE_REFUSED or is retried for NOT_READY. Operands: TAG and STATUS of Table 20-6, port, sending sled -/
  | sniloNak (tag reason : Nat) (port src : Nat := 0)
  /-- SNILO_RETRANSMIT (R548). A request has no answer after its wait, and it is sent again with the wait doubled. Operands: channel, port and credit of the tag, port the retransmission uses -/
  | sniloRetransmit (ch port credit via : Nat)
  /-- SNILO_REMOTE_TIMEOUT (R548). REMOTE_TIMEOUT_MS passes with no answer, and the move faults with REMOTE_UNREACHABLE. Operands: channel, port and credit of the tag -/
  | sniloRemoteTimeout (ch port credit : Nat)
  /-- SNILO_CREDITS_END (R550). A forced pre-emption, fault, teardown or channel reset ends the outstanding requests and returns their credits. Operands: Ladle page instance -/
  | sniloCreditsEnd (ch : Nat)
  /-- LOAD_PEERS (R555). OP LOAD_PEERS loads peer table entries by DMA. -/
  | loadPeers
  /-- LOAD_EXPORTS (R555). OP LOAD_EXPORTS loads export windows by DMA and refuses overlaps. -/
  | loadExports
  /-- CLEAR_EXPORTS (R555). OP CLEAR_EXPORTS clears the export table. -/
  | clearExports
  /-- SLED_ID_WRITE (R544). SLED_ID is written while no T3 request is outstanding. Operands: value written -/
  | sledIdWrite (v : Nat)
  /-- PANTRY_LANE_LOSS_OF_LOCK (R463). A pantry lane loses lock; the hub holds grants and retrains the link, and a single successful retrain makes the event a transient that is counted towards the lane's retrain limits. Operands: link, lane, µs of the retrain, it succeeded -/
  | pantryLaneLossOfLock (k lane us : Nat) (ok : Bool)
  /-- PCIE_LINK_REPLAY (R135). An LCRC or FEC event on the PCIe link is replayed, counted as CORRECTED and attributed to its lane. Operands: lane. -/
  | pcieLinkReplay (lane : Nat)
  /-- PTP_DELAY_REQUEST_SEND (R537). At the master's logMinDelayReqInterval, or every PDELAY_LOG interval in P2P, the port sends a Delay_Req or Pdelay_Req and timestamps it under R538. Operands: port; PHY cycles from the delimiter to the read. -/
  | ptpDelayRequestSend (p cyc : Nat)
  /-- ARP_NEIGHBOR_DISCOVERY (R542). An ARP or IPv6 Neighbor Discovery frame for the port's own address is accepted and answered. Operands: port; address asked for; IPv6; bytes of the frame and of its answer. -/
  | arpNeighborDiscovery (p target : Nat) (v6 : Bool) (n m : Nat)
  /-- PFC_FRAME (R542). With PFC_EN set, a received 802.1Qbb PFC frame pauses or resumes transmission on PFC_PRIO. Operands: port; priority; pause or resume. -/
  | pfcFrame (p prio : Nat) (pause : Bool)
  /-- PCIE_CONFIGURATION_WRITE (R101). The host writes PCIe configuration state with device behaviour of its own: setting or clearing PTM enable (PTM_ENABLED, loss of the PTM source), enabling virtual functions, Bus Master Enable for the VDM binding, or ASPM settings. Operands: 0 PTM enable, 1 virtual functions, 2 Command, 3 ASPM control, 4 Max Payload Size, 5 Max Read Request Size, 6 BAR0, 7 L0p width; value; function, 33 the register function. -/
  | pcieConfigurationWrite (what v : Nat) (fn : Nat := 0)
  /-- INTERRUPT_COALESCING_TIMEOUT (R116). Under the Interrupt Coalescing feature, the aggregation time runs out and the pending MSI-X interrupt for posted completions is sent. Operands: function and vector. -/
  | interruptCoalescingTimeout (fn iv : Nat)
deriving DecidableEq, Repr

end Sys2Proof
end

