-- ==== Sys2Proof/Decode.lean ====
section
/-!
DEFINITION. The decoder over the operation table's bits. The table gives no row any bits (every row's field list is
empty), so there is no word that spells a command (log 5).
-/

namespace Sys2Proof

/-- The command an operation-table word spells: none, since the table gives no row any bits. -/
def decodeTableWord (_nbits _w : Nat) : Option Instr := none

end Sys2Proof
end

