-- ==== Sys2Proof/Config.lean ====
section
/-!
DEFINITION. What an implementation fixes, and the free values: constants with no body, of which nothing can be
proved. `State.freeCount` counts the draws, so that each draw of `freeValue` is a value of its own.
-/

namespace Sys2Proof.Config

/-- The free value of draw `n`, where the spec leaves a value open after an operation that goes on (log 2). -/
opaque freeValue : Nat → Nat

/-- Whether an ECDSA P-384 signature verifies: the message bytes, the signature bytes and the key's digest. The spec
names the algorithm by its public standard only (R139, R516); the result is a free function of what it checks
(log 3). -/
opaque ecdsaVerifies : List Byte → List Byte → Nat → Bool

/-- SHA-384 of a byte list, as a number (log 3). -/
opaque sha384 : List Byte → Nat

/-- CRC-32C of a byte list (log 3). -/
opaque crc32c : List Byte → Nat

/-- The answer to a TCG Opal method: its bytes, from the method's bytes (log 3). -/
opaque opalResponse : List Byte → List Byte

/-- The answer to an NVMe-MI, PLDM base, platform or FRU request whose fields this spec does not lay out (log 3). -/
opaque mgmtResponse : Nat → List Byte → List Nat

/-- Byte `a` of a memory range whose contents the spec calls undefined, by the draw that left it so (log 2). -/
opaque openByte : Nat → Nat → Byte

/-- Opcode of a compute command, by kind: 0 Execute Program, 1 Load Program, 2 Program Activation Management, 3 Memory Range
Set Management, 4 one that a compute queue does not accept. The spec takes the public command set's numbers without stating them (log 16). -/
opaque computeOpcode : Nat → Nat

/-- Recorder code of a forced pre-emption: Table 11-8 asks for an entry and Table 18-7 lists no code for it (log 18). -/
opaque preemptCode : Nat

/-- PHY latency of an Ethernet port at a rate (1 400G, 2 800G), from the factory tables, in 1/100 ns (R538, log 26). -/
opaque phyLatency : Nat → Nat → Nat

/-- Static energy of a rail over one sample period, in fJ, from the factory-calibration coefficients: rail, operating point in force,
the temperature readings by sensor, the rail's last idle measurement (R27, log 2). -/
opaque staticEnergy : Nat → Nat → List Int → Nat → Nat

/-- Digest of firmware root public key 0 to 3, fixed in the mask ROM (R516, log 3). -/
opaque rootKey : Nat → Nat

/-- The records of a KEYS component as (index, generation, public key), and of a REVOKE component as (firmware root key?, index, generation):
the spec gives what a record carries and not its layout (R525, log 3). -/
opaque keyRecords : List Byte → List (Nat × Nat × Nat)
opaque revokeRecords : List Byte → List (Bool × Nat × Nat)

/-- A word of the eFlash's factory region that is written at manufacture and whose value the spec does not give (Table 19-3): word of the row, or of
the tables (log 34). -/
opaque factoryWord : Nat → Nat

/-- A byte that a public data structure holds and the spec does not state: structure (0x100 + CNS of Identify, 0x200 + log) and offset (log 22). -/
opaque infoByte : Nat → Nat → Byte

/-- NVMe-MI status Controller Not Ready (R482): the spec names it and gives no code (log 3). -/
opaque miNotReady : Nat

/-- The page that a compressed column is written as: a length field and an LZ4 block that decodes to the values given (R337), of the many
there are (log 2). -/
opaque lz4Encode : List Byte → List Byte

end Sys2Proof.Config
end

