-- ==== Sys2Proof/Machine/Regs.lean ====
section
/-!
DEFINITION. The register fields of every page: one `Field` per field of the spec's register tables (page class,
offset, bits, access code, reset value), the header fields parameterised by class, and what each page class reports
of itself. RSVD bits have no field and therefore read 0 (R9, R56). Fields marked HW keep their value through a page
reset (R10). `own` marks a RW field whose write is a row of its own of the operation table.
-/

namespace Sys2Proof.Machine

/-- Access codes (R9, Table 00-5). RSVD bits have no field. -/
inductive Access where
  | rw | ro | w1c | w1s | wo | rc
deriving DecidableEq, Repr

/-- A register field: page class, offset in the page, lowest bit, width, access, HW mark, whether a write of it is a
row of its own, and the value it holds at reset in instance `i` of its class (R10). -/
structure Field where
  cls : Nat
  off : Nat
  lsb : Nat
  width : Nat
  acc : Access
  hw : Bool
  own : Bool
  dflt : Nat → Nat

/-- Where the field of instance `i` is held: pages in class, instance and offset order (R54), then its lowest bit. -/
def Field.key (f : Field) (i : Nat) : Nat := ((f.cls * 256 + i) * 4096 + f.off) * 32 + f.lsb

/-- First key of a page. -/
def pageKey (cls i : Nat) : Nat := (cls * 256 + i) * 131072

/-- IS_SPARE (R575): physical Griddle 16 of each Hob and its Drain. -/
def isSpareUnit (c i : Nat) : Nat := if (c = 0x11 ∨ c = 0x14) ∧ i % 17 = 16 then 1 else 0

/-- IN_SERVICE of a module with no unit retired (R575). -/
def inServiceAtStart (c i : Nat) : Nat := 1 - isSpareUnit c i

/-- LOGICAL_INDEX of a module with no unit retired (R575). -/
def logicalAtStart (c i : Nat) : Nat :=
  if isSpareUnit c i = 1 then 0xFF
  else if c = 0x11 ∨ c = 0x14 then i % 17
  else if c = 0x12 then i % 64
  else if c = 0x13 ∨ c = 0x16 then i % 4
  else i

/-- SUB_TOTAL: spare sub-units built in (R190, R248, R273, R361, R477). -/
def subTotal (c _i : Nat) : Nat :=
  if c = 0x11 then 8 else if c = 0x15 then 16 else if c = 0x16 then 128 else if c = 0x20 then 32 else if c = 0x21 then 65 else 0

/-- OWNER_CONTEXT at reset: 0xFE on the units that serve several contexts (R61, R574), 0xFF on the others. -/
def ownerAtReset (c : Nat) : Nat :=
  if c = 0x10 ∨ c = 0x15 ∨ c = 0x16 ∨ c = 0x20 ∨ c = 0x21 then 0xFE else 0xFF

/-- Rate of the block's replica ring over the last complete window, in M hs/s (R40). -/
def hdr_RATE_MHS (c : Nat) : Field := ⟨c, 0x28, 0, 16, .ro, false, false, fun _ => 0⟩

/-- 1: no count in the last two windows (R39) (R40). -/
def hdr_STALE (c : Nat) : Field := ⟨c, 0x28, 31, 1, .ro, false, false, fun _ => 0⟩

/-- Requested operating point, 0–5 (Table 02-8). -/
def glob_OP_REQUEST : Field := ⟨0x0, 0x200, 0, 3, .rw, false, true, fun _ => 4⟩

/-- 0: OP5 is never entered; a request of 5 yields OP4 with LIMIT_CAUSE = 4 (Table 02-8). -/
def glob_BOOST_ALLOW : Field := ⟨0x0, 0x200, 8, 1, .rw, false, true, fun _ => 1⟩

/-- Operating point in force (Table 02-8). -/
def glob_OP_EFFECTIVE : Field := ⟨0x0, 0x204, 0, 3, .ro, false, false, fun _ => 4⟩

/-- 0: none; 1: safety event; 2: power cap; 3: NVMe power state; 4: OP5 conditions (R37); 5: brown-out recovery (Table 02-8). -/
def glob_LIMIT_CAUSE : Field := ⟨0x0, 0x204, 4, 3, .ro, false, false, fun _ => 0⟩

/-- 1 while any rail ramps (Table 02-8). -/
def glob_IN_TRANSITION : Field := ⟨0x0, 0x204, 8, 1, .ro, false, false, fun _ => 0⟩

/-- 0: FREE; 1: LOCKSTEP (Table 02-8). -/
def glob_DET_MODE_REQUEST : Field := ⟨0x0, 0x208, 0, 1, .rw, false, true, fun _ => 0⟩

/-- Mode in force at the crossing points (Table 02-8). -/
def glob_DET_MODE_EFFECTIVE : Field := ⟨0x0, 0x208, 1, 1, .ro, false, false, fun _ => 0⟩

/-- 1 starts a LOCKSTEP run at the next tick count that is a multiple of 32 (R48) (Table 02-8). -/
def glob_ARM : Field := ⟨0x0, 0x208, 4, 1, .wo, false, false, fun _ => 0⟩

/-- 1 from the arm tick until the mode returns to FREE or a new ARM is written (Table 02-8). -/
def glob_ARMED : Field := ⟨0x0, 0x208, 5, 1, .ro, false, false, fun _ => 0⟩

/-- Monotonic tick count at the arm tick, bits [31:0] (Table 02-8). -/
def glob_ARM_TICK_LO : Field := ⟨0x0, 0x210, 0, 32, .ro, false, false, fun _ => 0⟩

/-- Bits [63:32], latched by reading LO (R8) (Table 02-8). -/
def glob_ARM_TICK_HI : Field := ⟨0x0, 0x214, 0, 32, .ro, false, false, fun _ => 0⟩

/-- Slips since the last ARM, counted whenever LOCKSTEP is in force (R47), bits [31:0] (Table 02-8). -/
def glob_SLIP_COUNT_LO : Field := ⟨0x0, 0x218, 0, 32, .ro, false, false, fun _ => 0⟩

/-- Bits [63:32] (Table 02-8). -/
def glob_SLIP_COUNT_HI : Field := ⟨0x0, 0x21c, 0, 32, .ro, false, false, fun _ => 0⟩

/-- Crossing point of the first slip since the last ARM or reset (R47), 1–5; 0: no slip (Table 02-8). -/
def glob_SLIP_CP : Field := ⟨0x0, 0x220, 0, 3, .ro, false, false, fun _ => 0⟩

/-- Party of the first slip, numbered in the order of Table 02-6 (Table 02-8). -/
def glob_SLIP_PARTY : Field := ⟨0x0, 0x220, 8, 8, .ro, false, false, fun _ => 0⟩

/-- Arbiter instance: Hob for CP1; pantry link for CP2; for CP3 the pseudo-channel group 8 × stack + ⌊pseudo-channel ÷ 8⌋, 0–63; 0 for CP4 and CP5 (Table 02-8). -/
def glob_SLIP_INSTANCE : Field := ⟨0x0, 0x220, 16, 8, .ro, false, false, fun _ => 0⟩

/-- Monotonic tick count since Kettle start-up, bits [31:0] (Table 02-8). -/
def glob_TICK_LO : Field := ⟨0x0, 0x224, 0, 32, .ro, true, false, fun _ => 0⟩

/-- Bits [63:32], latched by reading LO (R8) (Table 02-8). -/
def glob_TICK_HI : Field := ⟨0x0, 0x228, 0, 32, .ro, true, false, fun _ => 0⟩

/-- 0: OFF; 1: STARTING; 2: ON; 3: DRAINING; 4: FAULTED; 5: RETIRED (R59). -/
def hdr_STATE (c : Nat) : Field := ⟨c, 12, 0, 3, .ro, false, false, fun _ => 0⟩

/-- Enable waiting for a drain to reach OFF (R59). -/
def hdr_ENABLE_PENDING (c : Nat) : Field := ⟨c, 12, 8, 1, .ro, false, false, fun _ => 0⟩

/-- Disable waiting for a start to reach ON (R59). -/
def hdr_DISABLE_PENDING (c : Nat) : Field := ⟨c, 12, 9, 1, .ro, false, false, fun _ => 0⟩

/-- RESET waiting for a transition to end (R59). -/
def hdr_RESET_PENDING (c : Nat) : Field := ⟨c, 12, 10, 1, .ro, false, false, fun _ => 0⟩

/-- 1: some stage of the block holds a token (R59). -/
def hdr_BUSY (c : Nat) : Field := ⟨c, 12, 11, 1, .ro, false, false, fun _ => 0⟩

/-- ERR_STATUS bit that moved the block to FAULTED (R59). -/
def hdr_FAULT_CAUSE (c : Nat) : Field := ⟨c, 12, 16, 5, .ro, false, false, fun _ => 0⟩

/-- 1: the unit is wanted ON; 0: wanted OFF (R59). -/
def hdr_ENABLE (c : Nat) : Field := ⟨c, 16, 0, 1, .rw, false, true, fun _ => 0⟩

/-- 1: the unit's inputs are closed (R59). -/
def hdr_DRAIN (c : Nat) : Field := ⟨c, 16, 1, 1, .rw, false, true, fun _ => 0⟩

/-- 1: page reset (R59). -/
def hdr_RESET (c : Nat) : Field := ⟨c, 16, 2, 1, .wo, false, false, fun _ => 0⟩

/-- 0–63: owning context; 0xFE: shared; 0xFF: unowned (R59). -/
def hdr_OWNER_CONTEXT (c : Nat) : Field := ⟨c, 16, 8, 8, .ro, false, false, fun _ => ownerAtReset c⟩

/-- Error bits: [7:0] as Table 03-6; [31:8] block-specific (R59). -/
def hdr_ERR_STATUS (c : Nat) : Field := ⟨c, 20, 0, 32, .w1c, false, false, fun _ => 0⟩

/-- 1 in a bit position withholds that error from host notification (R59). -/
def hdr_ERR_MASK (c : Nat) : Field := ⟨c, 24, 0, 32, .rw, false, false, fun _ => 0⟩

/-- Bit number of the first captured error (R59). -/
def hdr_FIRST_BIT (c : Nat) : Field := ⟨c, 28, 0, 5, .ro, false, false, fun _ => 0⟩

/-- 1: the first captured error was injected (R59). -/
def hdr_FIRST_INJECTED (c : Nat) : Field := ⟨c, 28, 7, 1, .ro, false, false, fun _ => 0⟩

/-- OWNER_CONTEXT, or the context in the transfer tag on a shared unit, at the first error (R59). -/
def hdr_FIRST_CONTEXT (c : Nat) : Field := ⟨c, 28, 8, 8, .ro, false, false, fun _ => 255⟩

/-- 1: ERR_FIRST holds a capture (R59). -/
def hdr_FIRST_VALID (c : Nat) : Field := ⟨c, 28, 31, 1, .w1c, false, false, fun _ => 0⟩

/-- ERR_STATUS bit to inject (R59). -/
def hdr_INJECT_BIT (c : Nat) : Field := ⟨c, 32, 0, 5, .rw, false, false, fun _ => 0⟩

/-- Number of events to inject, 1–15 (R59). -/
def hdr_INJECT_COUNT (c : Nat) : Field := ⟨c, 32, 8, 4, .rw, false, false, fun _ => 0⟩

/-- 1 until the last requested event has been injected (R59). -/
def hdr_INJECT_PENDING (c : Nat) : Field := ⟨c, 32, 30, 1, .ro, false, false, fun _ => 0⟩

/-- 1: arm the injection (R59). -/
def hdr_INJECT_GO (c : Nat) : Field := ⟨c, 32, 31, 1, .wo, false, false, fun _ => 0⟩

/-- Record each change of STATE (R59). -/
def hdr_STATE_CHANGE (c : Nat) : Field := ⟨c, 36, 0, 1, .rw, false, false, fun _ => 1⟩

/-- Record each snapshot capture (R59). -/
def hdr_SNAPSHOT_DONE (c : Nat) : Field := ⟨c, 36, 1, 1, .rw, false, false, fun _ => 0⟩

/-- Record each change of SPARE_MAP (R59). -/
def hdr_SPARE_SWITCHED (c : Nat) : Field := ⟨c, 36, 2, 1, .rw, false, false, fun _ => 1⟩

/-- Record corrected errors (R59). -/
def hdr_CORRECTED_RECORD (c : Nat) : Field := ⟨c, 36, 3, 1, .rw, false, false, fun _ => 0⟩

/-- Block-specific event enables: bit 16 + n enables block event n of the block chapter, recorded under R71 (R59). -/
def hdr_BLOCK_EVENTS (c : Nat) : Field := ⟨c, 36, 16, 16, .rw, false, false, fun _ => 0⟩

/-- 1: this unit was built as a spare of its kind (R575) (R59). -/
def hdr_IS_SPARE (c : Nat) : Field := ⟨c, 48, 0, 1, .ro, true, false, fun i => isSpareUnit c i⟩

/-- 1: this unit serves a logical number (R575) (R59). -/
def hdr_IN_SERVICE (c : Nat) : Field := ⟨c, 48, 1, 1, .ro, true, false, fun i => inServiceAtStart c i⟩

/-- Logical number served; 0xFF: none (R575) (R59). -/
def hdr_LOGICAL_INDEX (c : Nat) : Field := ⟨c, 48, 8, 8, .ro, true, false, fun i => logicalAtStart c i⟩

/-- Spare sub-units built into this unit, such as rows, lanes or remap words (R59). -/
def hdr_SUB_TOTAL (c : Nat) : Field := ⟨c, 48, 16, 8, .ro, true, false, fun i => subTotal c i⟩

/-- Spare sub-units in use (R59). -/
def hdr_SUB_USED (c : Nat) : Field := ⟨c, 48, 24, 8, .ro, true, false, fun _ => 0⟩

/-- 1: take a snapshot (R59). -/
def hdr_TRIGGER (c : Nat) : Field := ⟨c, 52, 0, 1, .wo, false, false, fun _ => 0⟩

/-- 1: live counters restart from 0 at each capture (R59). -/
def hdr_CLEAR_ON_SNAPSHOT (c : Nat) : Field := ⟨c, 52, 1, 1, .rw, false, false, fun _ => 0⟩

/-- 1: a capture is in progress (R59). -/
def hdr_SNAP_BUSY (c : Nat) : Field := ⟨c, 52, 2, 1, .ro, false, false, fun _ => 0⟩

/-- Captures since reset, modulo 65,536 (R59). -/
def hdr_SEQ (c : Nat) : Field := ⟨c, 52, 16, 16, .ro, false, false, fun _ => 0⟩

/-- Error events, injected ones included; saturates at 0xFFFF_FFFF (R59). -/
def hdr_ERR_COUNT (c : Nat) : Field := ⟨c, 56, 0, 32, .ro, false, false, fun _ => 0⟩

/-- Block-specific detail of the first captured error, such as an address (R59). -/
def hdr_ERR_FIRST_INFO (c : Nat) : Field := ⟨c, 60, 0, 32, .ro, false, false, fun _ => 0⟩

/-- Counter 0 at the last capture, bits [31:0] (R59). -/
def hdr_SNAP0_LO (c : Nat) : Field := ⟨c, 64, 0, 32, .ro, false, false, fun _ => 0⟩

/-- Bits [63:32] (R59). -/
def hdr_SNAP0_HI (c : Nat) : Field := ⟨c, 68, 0, 32, .ro, false, false, fun _ => 0⟩

/-- Counter 1, bits [31:0] (R59). -/
def hdr_SNAP1_LO (c : Nat) : Field := ⟨c, 72, 0, 32, .ro, false, false, fun _ => 0⟩

/-- Bits [63:32] (R59). -/
def hdr_SNAP1_HI (c : Nat) : Field := ⟨c, 76, 0, 32, .ro, false, false, fun _ => 0⟩

/-- Counter 2, bits [31:0] (R59). -/
def hdr_SNAP2_LO (c : Nat) : Field := ⟨c, 80, 0, 32, .ro, false, false, fun _ => 0⟩

/-- Bits [63:32] (R59). -/
def hdr_SNAP2_HI (c : Nat) : Field := ⟨c, 84, 0, 32, .ro, false, false, fun _ => 0⟩

/-- Counter 3, bits [31:0] (R59). -/
def hdr_SNAP3_LO (c : Nat) : Field := ⟨c, 88, 0, 32, .ro, false, false, fun _ => 0⟩

/-- Bits [63:32] (R59). -/
def hdr_SNAP3_HI (c : Nat) : Field := ⟨c, 92, 0, 32, .ro, false, false, fun _ => 0⟩

/-- Tick count (TICK_LO and TICK_HI) at the last capture, bits [31:0] (R59). -/
def hdr_SNAP_TICK_LO (c : Nat) : Field := ⟨c, 96, 0, 32, .ro, false, false, fun _ => 0⟩

/-- Bits [63:32] (R59). -/
def hdr_SNAP_TICK_HI (c : Nat) : Field := ⟨c, 100, 0, 32, .ro, false, false, fun _ => 0⟩

/-- Tick count at the first captured error, bits [31:0] (R59). -/
def hdr_ERR_FIRST_TICK_LO (c : Nat) : Field := ⟨c, 104, 0, 32, .ro, false, false, fun _ => 0⟩

/-- Bits [63:32] (R59). -/
def hdr_ERR_FIRST_TICK_HI (c : Nat) : Field := ⟨c, 108, 0, 32, .ro, false, false, fun _ => 0⟩

/-- Hob number (Table 03-13). -/
def hob_HOB : Field := ⟨0x10, 0x100, 0, 1, .ro, true, false, fun i => i⟩

/-- First semaphore of the Hob in device numbering: 0 or 512 (R12) (Table 03-13). -/
def hob_SEM_FIRST : Field := ⟨0x10, 0x100, 16, 10, .ro, true, false, fun i => 512 * i⟩

/-- Present setpoint of the Hob's SRAM domain, 4 or 5, in mV (R35, R576) (Table 03-13). -/
def hob_SRAM_MV : Field := ⟨0x10, 0x104, 0, 12, .ro, true, false, fun _ => 800⟩

/-- Contexts whose task registers are loaded on the Hob now, 0–64 (Table 03-13). -/
def hob_TASKS_LOADED : Field := ⟨0x10, 0x108, 0, 7, .ro, false, false, fun _ => 0⟩

/-- Bad accesses under R57; saturates (R76). -/
def glob_BAD_ACCESS_COUNT : Field := ⟨0x0, 584, 0, 32, .rc, false, false, fun _ => 0⟩

/-- 0: NORMAL; 1: READ_ONLY; 2: SANITIZING (Table 04-3). -/
def glob_MEDIA_MODE : Field := ⟨0x0, 0x280, 0, 2, .ro, true, false, fun _ => 0⟩

/-- 0: none; 1: usable spare pool at the reserve floor; 2: package retirements beyond the three-package reserve; 3: hold-up bank failed its start-up test; 4: sanitize in progress; 5: last sanitize failed (Table 04-3). -/
def glob_MEDIA_CAUSE : Field := ⟨0x0, 0x280, 4, 4, .ro, true, false, fun _ => 0⟩

/-- 0: PTP; 1: PTM; 2: HOLDOVER (Table 04-3). -/
def glob_TIME_SOURCE : Field := ⟨0x0, 0x280, 8, 2, .ro, false, false, fun _ => 2⟩

/-- 1: LAYER grain forced for every PUU_STEP, during the start-up self-test or test mode (Table 04-3). -/
def glob_PUU_GRAIN_FORCED : Field := ⟨0x0, 0x280, 12, 1, .ro, false, false, fun _ => 0⟩

/-- 1: test mode in force (Table 04-3). -/
def glob_TEST_MODE : Field := ⟨0x0, 0x280, 13, 1, .ro, false, false, fun _ => 0⟩

/-- 1: DET_MODE_REQUEST differs from DET_MODE_EFFECTIVE and the change waits under R84 (Table 04-3). -/
def glob_DET_CHANGE_PENDING : Field := ⟨0x0, 0x280, 14, 1, .ro, false, false, fun _ => 0⟩

/-- NVMe power state in force, 0–4 (Table 04-3). -/
def glob_PS_EFFECTIVE : Field := ⟨0x0, 0x280, 16, 3, .ro, false, false, fun _ => 0⟩

/-- 1 from acceptance of a power-state change until entry or exit completes (Table 04-3). -/
def glob_PS_IN_TRANSITION : Field := ⟨0x0, 0x280, 19, 1, .ro, false, false, fun _ => 0⟩

/-- 0: PTP; 1: PTM; 2: HOLDOVER (free-run on the last frequency); 3: write ignored (Table 04-3). -/
def glob_TIME_SOURCE_REQUEST : Field := ⟨0x0, 0x284, 0, 2, .rw, true, true, fun _ => 0⟩

/-- Must be 0x7E57 in the same write that sets TEST_MODE_REQUEST to 1 (Table 04-3). -/
def glob_TEST_KEY : Field := ⟨0x0, 0x284, 8, 16, .wo, false, false, fun _ => 0⟩

/-- 1: enter test mode under R94; 0: leave it (Table 04-3). -/
def glob_TEST_MODE_REQUEST : Field := ⟨0x0, 0x284, 24, 1, .rw, false, true, fun _ => 0⟩

/-- Cause of the last refused mode write: 0: none; 1: PTP on a variant with no Ethernet MAC present; 2: test key wrong; 3: a context exists; 4: media mode SANITIZING (Table 04-3). -/
def glob_REJECT_CAUSE : Field := ⟨0x0, 0x288, 0, 4, .rc, false, false, fun _ => 0⟩

/-- Refused mode writes since the last read; saturates at 255 (Table 04-3). -/
def glob_REJECT_COUNT : Field := ⟨0x0, 0x288, 8, 8, .rc, false, false, fun _ => 0⟩

/-- Tick count at the last change of MEDIA_MODE since start-up, bits [31:0]; 0 if none (Table 04-3). -/
def glob_MEDIA_TICK_LO : Field := ⟨0x0, 0x290, 0, 32, .ro, false, false, fun _ => 0⟩

/-- Bits [63:32], latched by reading LO (R8) (Table 04-3). -/
def glob_MEDIA_TICK_HI : Field := ⟨0x0, 0x294, 0, 32, .ro, false, false, fun _ => 0⟩

/-- Link width in force: 4, 8 or 16; 0 while down (Table 05-15). -/
def front_WIDTH : Field := ⟨0x3, 0x100, 0, 5, .ro, false, false, fun _ => 0⟩

/-- 0: down; 1: 32 GT/s; 2: 64 GT/s; 3: 128 GT/s; 4: below 32 GT/s (R102) (Table 05-15). -/
def front_RATE : Field := ⟨0x3, 0x100, 5, 3, .ro, false, false, fun _ => 0⟩

/-- 1: FLIT mode (Table 05-15). -/
def front_FLIT : Field := ⟨0x3, 0x100, 8, 1, .ro, false, false, fun _ => 0⟩

/-- 1: the host enabled the PTM requester (Table 05-15). -/
def front_PTM_ENABLED : Field := ⟨0x3, 0x100, 9, 1, .ro, false, false, fun _ => 0⟩

/-- 1: width lowered by a retired lane (R103) (Table 05-15). -/
def front_NARROWED : Field := ⟨0x3, 0x100, 10, 1, .ro, false, false, fun _ => 0⟩

/-- Retrains since PERST#; saturates at 255 (Table 05-15). -/
def front_RETRAIN_COUNT : Field := ⟨0x3, 0x100, 16, 8, .ro, false, false, fun _ => 0⟩

/-- NVM and SLM intake slots: 8,192 (Table 05-15). -/
def front_POOL_TOTAL : Field := ⟨0x3, 0x104, 0, 14, .ro, true, false, fun _ => 8192⟩

/-- Slots occupied now (Table 05-15). -/
def front_POOL_BUSY : Field := ⟨0x3, 0x104, 16, 14, .ro, false, false, fun _ => 0⟩

/-- 1: the NVM and SLM class is saturated (Table 05-15). -/
def front_SAT_POOL : Field := ⟨0x3, 0x108, 0, 1, .ro, false, false, fun _ => 0⟩

/-- 1: some context is saturated (Table 05-15). -/
def front_SAT_CONTEXT : Field := ⟨0x3, 0x108, 1, 1, .ro, false, false, fun _ => 0⟩

/-- 1: R121 holds for the pool (Table 05-15). -/
def front_SUSTAINED_POOL : Field := ⟨0x3, 0x108, 2, 1, .ro, false, false, fun _ => 0⟩

/-- 1: R121 holds for some context (Table 05-15). -/
def front_SUSTAINED_CONTEXT : Field := ⟨0x3, 0x108, 3, 1, .ro, false, false, fun _ => 0⟩

/-- Lowest-numbered context in sustained overload; 0xFF: none (Table 05-15). -/
def front_OVERLOAD_CONTEXT : Field := ⟨0x3, 0x108, 8, 8, .ro, false, false, fun _ => 255⟩

/-- Entries to PS3 or PS4 since PERST#; saturates (Table 05-15). -/
def front_PS_ENTRY_COUNT : Field := ⟨0x3, 0x110, 0, 32, .ro, false, false, fun _ => 0⟩

/-- Commands accepted under R128 during an entry, since PERST#; saturates (Table 05-15). -/
def front_PS_WAKE_DURING_ENTRY : Field := ⟨0x3, 0x114, 0, 32, .ro, false, false, fun _ => 0⟩

/-- Abort commands that caught their target; saturates (Table 05-15). -/
def front_ABORT_CAUGHT : Field := ⟨0x3, 0x118, 0, 16, .ro, false, false, fun _ => 0⟩

/-- Abort commands that did not; saturates (Table 05-15). -/
def front_ABORT_MISSED : Field := ⟨0x3, 0x118, 16, 16, .ro, false, false, fun _ => 0⟩

/-- 0: P1; 1: P2; 2: P4 (Table 07-10). -/
def grid_PART_MODE : Field := ⟨0x11, 0x100, 0, 2, .ro, false, false, fun _ => 0⟩

/-- Regions in the mode: 1, 2 or 4 (Table 07-10). -/
def grid_REGIONS : Field := ⟨0x11, 0x100, 8, 3, .ro, false, false, fun _ => 1⟩

/-- 1: a bad row or column waits for the commit of R186 (Table 07-10). -/
def grid_SPARE_PENDING : Field := ⟨0x11, 0x100, 16, 1, .ro, true, false, fun _ => 0⟩

/-- 1: a self-check runs (Table 07-10). -/
def grid_SELF_CHECK_BUSY : Field := ⟨0x11, 0x100, 17, 1, .ro, false, false, fun _ => 0⟩

/-- Owning context of region 0; 0xFF: unowned (Table 07-10). -/
def grid_REGION0_OWNER : Field := ⟨0x11, 0x104, 0, 8, .ro, false, false, fun _ => 255⟩

/-- Region 1 (Table 07-10). -/
def grid_REGION1_OWNER : Field := ⟨0x11, 0x104, 8, 8, .ro, false, false, fun _ => 255⟩

/-- Region 2 (Table 07-10). -/
def grid_REGION2_OWNER : Field := ⟨0x11, 0x104, 16, 8, .ro, false, false, fun _ => 255⟩

/-- Region 3 (Table 07-10). -/
def grid_REGION3_OWNER : Field := ⟨0x11, 0x104, 24, 8, .ro, false, false, fun _ => 255⟩

/-- Four nibbles, region n at [4n+3:4n]: bits [2:0] in the STATE encoding of Table 03-3; bit 3 BUSY (Table 07-10). -/
def grid_REGION_STATE : Field := ⟨0x11, 0x108, 0, 16, .ro, false, false, fun _ => 0⟩

/-- Region n, tile t at [4n+2t+1:4n+2t]: 0 EMPTY; 1 OPEN; 2 DRAINING (Table 07-10). -/
def grid_TILE_STATE : Field := ⟨0x11, 0x10c, 0, 16, .ro, false, false, fun _ => 0⟩

/-- Bit n: region n holds a loaded shadow not yet swapped in (Table 07-10). -/
def grid_SHADOW_FULL : Field := ⟨0x11, 0x110, 0, 4, .ro, false, false, fun _ => 0⟩

/-- Bit 4 + n: region n's active weights are valid (R175) (Table 07-10). -/
def grid_WEIGHTS_VALID : Field := ⟨0x11, 0x110, 4, 4, .ro, false, false, fun _ => 0⟩

/-- Physical row marked bad; 0x1FF: none (Table 07-10). -/
def grid_BAD_ROW0 : Field := ⟨0x11, 0x114, 0, 9, .ro, true, false, fun _ => 511⟩

/-- As BAD_ROW0 (Table 07-10). -/
def grid_BAD_ROW1 : Field := ⟨0x11, 0x114, 16, 9, .ro, true, false, fun _ => 511⟩

/-- As BAD_ROW0 (Table 07-10). -/
def grid_BAD_ROW2 : Field := ⟨0x11, 0x118, 0, 9, .ro, true, false, fun _ => 511⟩

/-- As BAD_ROW0 (Table 07-10). -/
def grid_BAD_ROW3 : Field := ⟨0x11, 0x118, 16, 9, .ro, true, false, fun _ => 511⟩

/-- Physical column marked bad; 0x1FF: none (Table 07-10). -/
def grid_BAD_COL0 : Field := ⟨0x11, 0x11c, 0, 9, .ro, true, false, fun _ => 511⟩

/-- As BAD_COL0 (Table 07-10). -/
def grid_BAD_COL1 : Field := ⟨0x11, 0x11c, 16, 9, .ro, true, false, fun _ => 511⟩

/-- As BAD_COL0 (Table 07-10). -/
def grid_BAD_COL2 : Field := ⟨0x11, 0x120, 0, 9, .ro, true, false, fun _ => 511⟩

/-- As BAD_COL0 (Table 07-10). -/
def grid_BAD_COL3 : Field := ⟨0x11, 0x120, 16, 9, .ro, true, false, fun _ => 511⟩

/-- 1: run the self-check on SELF_CHECK_REGION (Table 07-10). -/
def grid_SELF_CHECK_GO : Field := ⟨0x11, 0x124, 0, 1, .wo, false, false, fun _ => 0⟩

/-- Region to check (Table 07-10). -/
def grid_SELF_CHECK_REGION : Field := ⟨0x11, 0x124, 4, 2, .rw, false, false, fun _ => 0⟩

/-- 1: the last self-check has finished (Table 07-10). -/
def grid_SELF_CHECK_DONE : Field := ⟨0x11, 0x124, 8, 1, .ro, false, false, fun _ => 0⟩

/-- 1: the last self-check found no fault (Table 07-10). -/
def grid_SELF_CHECK_PASS : Field := ⟨0x11, 0x124, 9, 1, .ro, false, false, fun _ => 0⟩

/-- 1: the fault found lies in a row; 0: in a column (Table 07-10). -/
def grid_SELF_CHECK_IS_ROW : Field := ⟨0x11, 0x124, 10, 1, .ro, false, false, fun _ => 0⟩

/-- Physical row or column found faulty; 0x1FF: none (Table 07-10). -/
def grid_SELF_CHECK_WHERE : Field := ⟨0x11, 0x124, 16, 9, .ro, false, false, fun _ => 511⟩

/-- Entries per hs in P1: 512 (Table 08-9). -/
def drain_DRAIN_RATE : Field := ⟨0x14, 0x100, 0, 10, .ro, true, false, fun _ => 512⟩

/-- Pipeline depth in hs: 24 (Table 08-9). -/
def drain_PIPE_DEPTH : Field := ⟨0x14, 0x100, 16, 8, .ro, true, false, fun _ => 24⟩

/-- Region n at [4n+3:4n]: bit 0 slot 0 activation table loaded; bit 1 slot 0 channel table loaded; bits 2 and 3 the same for slot 1 (Table 08-9). -/
def drain_TABLE_STATE : Field := ⟨0x14, 0x104, 0, 16, .ro, false, false, fun _ => 0⟩

/-- Region n at [2n+1:2n]: tile shares handed over and not yet drained, 0–2 (Table 08-9). -/
def drain_DRAIN_QUEUE : Field := ⟨0x14, 0x108, 0, 8, .ro, false, false, fun _ => 0⟩

/-- G in force for region n (Table 08-9). -/
def drain_ACC_EXP (n : Nat) : Field := ⟨0x14, 0x110 + 4 * n, 0, 9, .ro, false, false, fun _ => 0⟩

/-- Preload format in force (Table 08-9). -/
def drain_PRE_FMT (n : Nat) : Field := ⟨0x14, 0x110 + 4 * n, 12, 3, .ro, false, false, fun _ => 0⟩

/-- Activation zero point in force (Table 08-9). -/
def drain_A_ZERO (n : Nat) : Field := ⟨0x14, 0x110 + 4 * n, 16, 8, .ro, false, false, fun _ => 0⟩

/-- Domain of tile share 0: 0 integer; 1 FP32 (Table 08-9). -/
def drain_DOMAIN0 (n : Nat) : Field := ⟨0x14, 0x110 + 4 * n, 24, 1, .ro, false, false, fun _ => 0⟩

/-- Domain of tile share 1 (Table 08-9). -/
def drain_DOMAIN1 (n : Nat) : Field := ⟨0x14, 0x110 + 4 * n, 25, 1, .ro, false, false, fun _ => 0⟩

/-- 1: accumulation settings set since the task started (Table 08-9). -/
def drain_ACC_VALID (n : Nat) : Field := ⟨0x14, 0x110 + 4 * n, 31, 1, .ro, false, false, fun _ => 0⟩

/-- Drain settings of the last DRAIN_CFG issued for region n, which the next GRIDDLE_MM issued to the region latches at its hand-over (R215) (Table 08-9). -/
def drain_OUT_FMT (n : Nat) : Field := ⟨0x14, 0x120 + 4 * n, 0, 4, .ro, false, false, fun _ => 0⟩

/-- As DRAIN_CFG (Table 08-9). -/
def drain_ROUND (n : Nat) : Field := ⟨0x14, 0x120 + 4 * n, 4, 1, .ro, false, false, fun _ => 0⟩

/-- As DRAIN_CFG (Table 08-9). -/
def drain_ACT (n : Nat) : Field := ⟨0x14, 0x120 + 4 * n, 5, 2, .ro, false, false, fun _ => 0⟩

/-- As DRAIN_CFG (Table 08-9). -/
def drain_CH_TABLE (n : Nat) : Field := ⟨0x14, 0x120 + 4 * n, 7, 1, .ro, false, false, fun _ => 0⟩

/-- As DRAIN_CFG (Table 08-9). -/
def drain_ROWSUM (n : Nat) : Field := ⟨0x14, 0x120 + 4 * n, 8, 2, .ro, false, false, fun _ => 0⟩

/-- As DRAIN_CFG (Table 08-9). -/
def drain_ROWSCALE (n : Nat) : Field := ⟨0x14, 0x120 + 4 * n, 10, 2, .ro, false, false, fun _ => 0⟩

/-- As DRAIN_CFG (Table 08-9). -/
def drain_NF_FAULT (n : Nat) : Field := ⟨0x14, 0x120 + 4 * n, 12, 1, .ro, false, false, fun _ => 0⟩

/-- As DRAIN_CFG (Table 08-9). -/
def drain_TABLE_SLOT (n : Nat) : Field := ⟨0x14, 0x120 + 4 * n, 13, 1, .ro, false, false, fun _ => 0⟩

/-- 1: drain settings valid (R215) (Table 08-9). -/
def drain_DRAIN_VALID (n : Nat) : Field := ⟨0x14, 0x120 + 4 * n, 15, 1, .ro, false, false, fun _ => 0⟩

/-- As DRAIN_CFG (Table 08-9). -/
def drain_T_SHIFT (n : Nat) : Field := ⟨0x14, 0x120 + 4 * n, 16, 8, .ro, false, false, fun _ => 0⟩

/-- As DRAIN_CFG (Table 08-9). -/
def drain_Z_OUT (n : Nat) : Field := ⟨0x14, 0x120 + 4 * n, 24, 8, .ro, false, false, fun _ => 0⟩

/-- Seed of R212 for the last drain begun with ROUND = 1, bits [31:0] (Table 08-9). -/
def drain_SR_SEED_LO : Field := ⟨0x14, 0x130, 0, 32, .ro, false, false, fun _ => 0⟩

/-- Bits [63:32], latched by reading LO (R8) (Table 08-9). -/
def drain_SR_SEED_HI : Field := ⟨0x14, 0x134, 0, 32, .ro, false, false, fun _ => 0⟩

/-- Region of that drain (Table 08-9). -/
def drain_SR_REGION : Field := ⟨0x14, 0x138, 0, 2, .ro, false, false, fun _ => 0⟩

/-- Tile share of that drain (Table 08-9). -/
def drain_SR_TILE : Field := ⟨0x14, 0x138, 2, 1, .ro, false, false, fun _ => 0⟩

/-- count used in that seed (Table 08-9). -/
def drain_SR_COUNT : Field := ⟨0x14, 0x138, 16, 16, .ro, false, false, fun _ => 0⟩

/-- 1: a move runs (Table 09-9). -/
def ladle_MOVE_ACTIVE : Field := ⟨0x12, 0x100, 0, 1, .ro, false, false, fun _ => 0⟩

/-- 1: halted under R240 (Table 09-9). -/
def ladle_HALTED : Field := ⟨0x12, 0x100, 1, 1, .ro, false, false, fun _ => 0⟩

/-- 0: none; 1: source; 2: destination; 3: crossing point; 4: SB port binding; 5: LOCKSTEP due frame; 6: Whisk (Table 09-9). -/
def ladle_WAIT_CAUSE : Field := ⟨0x12, 0x100, 2, 3, .ro, false, false, fun _ => 0⟩

/-- Of the running move (Table 09-9). -/
def ladle_SRC_KIND : Field := ⟨0x12, 0x100, 8, 4, .ro, false, false, fun _ => 0⟩

/-- Of the running move (Table 09-9). -/
def ladle_DST_KIND : Field := ⟨0x12, 0x100, 12, 4, .ro, false, false, fun _ => 0⟩

/-- Descriptor index of the running move (Table 09-9). -/
def ladle_DESC_INDEX : Field := ⟨0x12, 0x100, 16, 16, .ro, false, false, fun _ => 0⟩

/-- Issued moves not yet started, 0–8 (Table 09-9). -/
def ladle_QUEUED : Field := ⟨0x12, 0x104, 0, 4, .ro, false, false, fun _ => 0⟩

/-- Bytes of the running move not yet accepted, bits [31:0] (Table 09-9). -/
def ladle_BYTES_LEFT_LO : Field := ⟨0x12, 0x108, 0, 32, .ro, false, false, fun _ => 0⟩

/-- Bits [63:32], latched by reading LO (R8) (Table 09-9). -/
def ladle_BYTES_LEFT_HI : Field := ⟨0x12, 0x10c, 0, 32, .ro, false, false, fun _ => 0⟩

/-- Failing address under R240, bits [31:0] (Table 09-9). -/
def ladle_HALT_ADDR_LO : Field := ⟨0x12, 0x110, 0, 32, .ro, false, false, fun _ => 0⟩

/-- Bits [63:32] (Table 09-9). -/
def ladle_HALT_ADDR_HI : Field := ⟨0x12, 0x114, 0, 32, .ro, false, false, fun _ => 0⟩

/-- Kind of the failing side (Table 09-9). -/
def ladle_HALT_KIND : Field := ⟨0x12, 0x118, 0, 4, .ro, false, false, fun _ => 0⟩

/-- As WHISK; 0 also while invalid (Table 09-10). -/
def whisk_ATTACH : Field := ⟨0x13, 0x100, 0, 2, .ro, false, false, fun _ => 0⟩

/-- As WHISK (Table 09-10). -/
def whisk_ROT : Field := ⟨0x13, 0x100, 2, 3, .ro, false, false, fun _ => 0⟩

/-- As WHISK (Table 09-10). -/
def whisk_SMOOTH : Field := ⟨0x13, 0x100, 5, 1, .ro, false, false, fun _ => 0⟩

/-- As WHISK (Table 09-10). -/
def whisk_SIGNS : Field := ⟨0x13, 0x100, 6, 1, .ro, false, false, fun _ => 0⟩

/-- 1: tables loaded since the last YIELD (Table 09-10). -/
def whisk_TABLES_LOADED : Field := ⟨0x13, 0x100, 7, 1, .ro, false, false, fun _ => 0⟩

/-- Drain attachment target (Table 09-10). -/
def whisk_GRIDDLE : Field := ⟨0x13, 0x100, 8, 5, .ro, false, false, fun _ => 0⟩

/-- Drain attachment target (Table 09-10). -/
def whisk_REGION : Field := ⟨0x13, 0x100, 13, 2, .ro, false, false, fun _ => 0⟩

/-- As WHISK (Table 09-10). -/
def whisk_VLEN : Field := ⟨0x13, 0x100, 16, 14, .ro, false, false, fun _ => 0⟩

/-- As WHISK (Table 09-10). -/
def whisk_IN_FMT : Field := ⟨0x13, 0x104, 0, 4, .ro, false, false, fun _ => 0⟩

/-- As WHISK (Table 09-10). -/
def whisk_OUT_FMT : Field := ⟨0x13, 0x104, 4, 4, .ro, false, false, fun _ => 0⟩

/-- As WHISK (Table 09-10). -/
def whisk_ROUND : Field := ⟨0x13, 0x104, 8, 1, .ro, false, false, fun _ => 0⟩

/-- As WHISK (Table 09-10). -/
def whisk_Z_OUT : Field := ⟨0x13, 0x104, 16, 8, .ro, false, false, fun _ => 0⟩

/-- Seed of R243 for the last move begun with ROUND = 1, bits [31:0] (Table 09-10). -/
def whisk_SR_SEED_LO : Field := ⟨0x13, 0x108, 0, 32, .ro, false, false, fun _ => 0⟩

/-- Bits [63:32] (Table 09-10). -/
def whisk_SR_SEED_HI : Field := ⟨0x13, 0x10c, 0, 32, .ro, false, false, fun _ => 0⟩

/-- count used in that seed (Table 09-10). -/
def whisk_SR_COUNT : Field := ⟨0x13, 0x110, 0, 16, .ro, false, false, fun _ => 0⟩

/-- 48 (Table 09-11). -/
def sb_GROUPS_TOTAL : Field := ⟨0x15, 0x100, 0, 6, .ro, true, false, fun _ => 48⟩

/-- Macro-groups not retired (Table 09-11). -/
def sb_GROUPS_USABLE : Field := ⟨0x15, 0x100, 16, 6, .ro, true, false, fun _ => 48⟩

/-- Bit g: macro-group g retired, g = 0–31 (Table 09-11). -/
def sb_RETIRED_MAP0 : Field := ⟨0x15, 0x104, 0, 32, .ro, true, false, fun _ => 0⟩

/-- Bit g − 32, g = 32–47 (Table 09-11). -/
def sb_RETIRED_MAP1 : Field := ⟨0x15, 0x108, 0, 16, .ro, true, false, fun _ => 0⟩

/-- Bit g: macro-group g is a program macro-group (Table 09-11). -/
def sb_PROGRAM_MAP0 : Field := ⟨0x15, 0x10c, 0, 32, .ro, false, false, fun _ => 0⟩

/-- Groups 32–47 (Table 09-11). -/
def sb_PROGRAM_MAP1 : Field := ⟨0x15, 0x110, 0, 16, .ro, false, false, fun _ => 0⟩

/-- Bit g: read port of group g bound now (Table 09-11). -/
def sb_READ_BOUND0 : Field := ⟨0x15, 0x114, 0, 32, .ro, false, false, fun _ => 0⟩

/-- Groups 32–47 (Table 09-11). -/
def sb_READ_BOUND1 : Field := ⟨0x15, 0x118, 0, 16, .ro, false, false, fun _ => 0⟩

/-- Bit g: write port of group g bound now (Table 09-11). -/
def sb_WRITE_BOUND0 : Field := ⟨0x15, 0x11c, 0, 32, .ro, false, false, fun _ => 0⟩

/-- Groups 32–47 (Table 09-11). -/
def sb_WRITE_BOUND1 : Field := ⟨0x15, 0x120, 0, 16, .ro, false, false, fun _ => 0⟩

/-- For j = 0–11, byte k: owning context of group 4j + k; 0xFF unowned (Table 09-11). Byte of macro-group `n`. -/
def sb_GROUP_OWNER (n : Nat) : Field := ⟨0x15, 0x140 + 4 * (n / 4), 8 * (n % 4), 8, .ro, false, false, fun _ => 0xFF⟩

/-- For j = 0–11, byte k: remap words used in group 4j + k, 0–16 (Table 09-11). Byte of macro-group `n`. -/
def sb_REMAP_USED (n : Nat) : Field := ⟨0x15, 0x180 + 4 * (n / 4), 8 * (n % 4), 8, .ro, true, false, fun _ => 0⟩

/-- Line index within the group of the last remap (Table 09-11). -/
def sb_LAST_REMAP_LINE : Field := ⟨0x15, 0x1c0, 0, 15, .ro, true, false, fun _ => 0⟩

/-- Group of the last remap (Table 09-11). -/
def sb_LAST_REMAP_GROUP : Field := ⟨0x15, 0x1c0, 16, 6, .ro, true, false, fun _ => 0⟩

/-- Remap word used (Table 09-11). -/
def sb_LAST_REMAP_WORD : Field := ⟨0x15, 0x1c0, 24, 4, .ro, true, false, fun _ => 0⟩

/-- 0: no promotion; existing copies stay and serve reads (Table 10-5). -/
def glob_PLACE_ENABLE : Field := ⟨0x0, 0x2a0, 0, 1, .rw, false, false, fun _ => 1⟩

/-- Lowest T2 heat that is promoted; 0 is taken as 1 (Table 10-5). -/
def glob_PROMOTE_MIN : Field := ⟨0x0, 0x2a0, 8, 8, .rw, false, false, fun _ => 8⟩

/-- Decay period in ms of device time; 0 is taken as 1 (Table 10-5). -/
def glob_HEAT_DECAY_MS : Field := ⟨0x0, 0x2a0, 16, 16, .rw, false, false, fun _ => 1000⟩

/-- Largest number of promotions per placement period (Table 10-5). -/
def glob_PROMOTE_MAX : Field := ⟨0x0, 0x2a4, 0, 16, .rw, false, false, fun _ => 256⟩

/-- Copies completed since start-up, bits [31:0] (Table 10-5). -/
def glob_PROMOTIONS_LO : Field := ⟨0x0, 0x2a8, 0, 32, .ro, false, false, fun _ => 0⟩

/-- Bits [63:32], latched by reading LO (R8) (Table 10-5). -/
def glob_PROMOTIONS_HI : Field := ⟨0x0, 0x2ac, 0, 32, .ro, false, false, fun _ => 0⟩

/-- Copies dropped or demoted, bits [31:0] (Table 10-5). -/
def glob_DROPS_LO : Field := ⟨0x0, 0x2b0, 0, 32, .ro, false, false, fun _ => 0⟩

/-- Bits [63:32] (Table 10-5). -/
def glob_DROPS_HI : Field := ⟨0x0, 0x2b4, 0, 32, .ro, false, false, fun _ => 0⟩

/-- Bytes served from copies, in 4,096-byte units, bits [31:0] (Table 10-5). -/
def glob_COPY_READ_BYTES_LO : Field := ⟨0x0, 0x2b8, 0, 32, .ro, false, false, fun _ => 0⟩

/-- Bits [63:32] (Table 10-5). -/
def glob_COPY_READ_BYTES_HI : Field := ⟨0x0, 0x2bc, 0, 32, .ro, false, false, fun _ => 0⟩

/-- Stack served (Table 10-8). -/
def hbm_STACK : Field := ⟨0x16, 0x100, 0, 3, .ro, true, false, fun i => i⟩

/-- 1: stack in self-refresh (PS3, PS4) (Table 10-8). -/
def hbm_SELF_REFRESH : Field := ⟨0x16, 0x100, 8, 1, .ro, false, false, fun _ => 0⟩

/-- 24,576 (Table 10-8). -/
def hbm_PAGES_TOTAL : Field := ⟨0x16, 0x104, 0, 16, .ro, true, false, fun _ => 24576⟩

/-- Pool pages not retired; 0 after R256 (Table 10-8). -/
def hbm_PAGES_USABLE : Field := ⟨0x16, 0x104, 16, 16, .ro, true, false, fun _ => 24512⟩

/-- Device-region pages held on this stack (Table 10-8). -/
def hbm_PAGES_DEVICE : Field := ⟨0x16, 0x108, 0, 16, .ro, true, false, fun _ => 64⟩

/-- Pool pages held by SLM (Table 10-8). -/
def hbm_PAGES_SLM : Field := ⟨0x16, 0x108, 16, 16, .ro, false, false, fun _ => 0⟩

/-- Pool pages held by contexts (Table 10-8). -/
def hbm_PAGES_CONTEXT : Field := ⟨0x16, 0x10c, 0, 16, .ro, false, false, fun _ => 0⟩

/-- Of those, window pages (Table 10-8). -/
def hbm_PAGES_WINDOW : Field := ⟨0x16, 0x10c, 16, 16, .ro, false, false, fun _ => 0⟩

/-- Placement copies (Table 10-8). -/
def hbm_PAGES_PLACED : Field := ⟨0x16, 0x110, 0, 16, .ro, false, false, fun _ => 0⟩

/-- Free pool pages (Table 10-8). -/
def hbm_PAGES_FREE : Field := ⟨0x16, 0x110, 16, 16, .ro, false, false, fun _ => 0⟩

/-- Bit p: pseudo-channel p retired, p = 0–31 (Table 10-8). -/
def hbm_PC_RETIRED_LO : Field := ⟨0x16, 0x114, 0, 32, .ro, true, false, fun _ => 0⟩

/-- Pseudo-channels 32–63; latched by reading LO (R8) (Table 10-8). -/
def hbm_PC_RETIRED_HI : Field := ⟨0x16, 0x118, 0, 32, .ro, true, false, fun _ => 0⟩

/-- Row repairs offered by the stack, read from it at training (R255); at least 128 (Table 10-8). -/
def hbm_PPR_TOTAL : Field := ⟨0x16, 0x11c, 0, 16, .ro, true, false, fun _ => 128⟩

/-- Row repairs made (Table 10-8). -/
def hbm_PPR_USED : Field := ⟨0x16, 0x11c, 16, 16, .ro, true, false, fun _ => 0⟩

/-- Pool pages retired under R255 (Table 10-8). -/
def hbm_PAGES_RETIRED : Field := ⟨0x16, 0x120, 0, 16, .ro, true, false, fun _ => 0⟩

/-- Rows marked and not yet repaired (Table 10-8). -/
def hbm_REPAIR_PENDING : Field := ⟨0x16, 0x120, 16, 16, .ro, true, false, fun _ => 0⟩

/-- Context of the last late consumer; 0xFF: none (Table 10-8). -/
def hbm_LATE_CONTEXT : Field := ⟨0x16, 0x124, 0, 8, .ro, false, false, fun _ => 255⟩

/-- Its cause: 0 none; 1 FLASH_LATE; 2 LINK_LATE; 3 ECC_RETRY; 4 REMOTE_LATE (Table 10-8). -/
def hbm_LATE_CAUSE : Field := ⟨0x16, 0x124, 8, 3, .ro, false, false, fun _ => 0⟩

/-- 2,048 (Table 10-8). -/
def hbm_SLOTS_TOTAL : Field := ⟨0x16, 0x200, 0, 12, .ro, true, false, fun i => if i % 4 = 0 then 2048 else 0⟩

/-- Live slots of all contexts on this manager, counting both Hobs' halves of paired contexts (Table 10-8). -/
def hbm_SLOTS_LIVE : Field := ⟨0x16, 0x200, 16, 12, .ro, false, false, fun _ => 0⟩

/-- Slots declared by contexts against this Hob (Table 10-8). -/
def hbm_SLOTS_DECLARED : Field := ⟨0x16, 0x204, 0, 12, .ro, false, false, fun _ => 0⟩

/-- Steps completed, bits [31:0] (Table 10-8). -/
def hbm_STEPS_LO : Field := ⟨0x16, 0x208, 0, 32, .ro, false, false, fun _ => 0⟩

/-- Bits [63:32] (Table 10-8). -/
def hbm_STEPS_HI : Field := ⟨0x16, 0x20c, 0, 32, .ro, false, false, fun _ => 0⟩

/-- BATCH_JOIN_DEFERRED, all contexts, bits [31:0] (Table 10-8). -/
def hbm_JOIN_DEFERRED_LO : Field := ⟨0x16, 0x210, 0, 32, .ro, false, false, fun _ => 0⟩

/-- Bits [63:32] (Table 10-8). -/
def hbm_JOIN_DEFERRED_HI : Field := ⟨0x16, 0x214, 0, 32, .ro, false, false, fun _ => 0⟩

/-- Joins rejected; saturates (Table 10-8). -/
def hbm_JOIN_REJECTED : Field := ⟨0x16, 0x218, 0, 32, .ro, false, false, fun _ => 0⟩

/-- Context of the last step (Table 10-8). -/
def hbm_LAST_CONTEXT : Field := ⟨0x16, 0x21c, 0, 8, .ro, false, false, fun _ => 255⟩

/-- 1: CREATE; 2: TEAR_DOWN; 3: PREEMPT; 4: SET_POLICY; 0, 5–7: no operation (Table 11-11). -/
def ctxm_OP : Field := ⟨0x4, 0x100, 0, 3, .rw, false, false, fun _ => 0⟩

/-- With PREEMPT: 1 forced (Table 11-11). -/
def ctxm_FORCE : Field := ⟨0x4, 0x100, 3, 1, .rw, false, false, fun _ => 0⟩

/-- Context 0–63; 0x7F with CREATE: lowest free (Table 11-11). -/
def ctxm_CONTEXT : Field := ⟨0x4, 0x100, 8, 7, .rw, false, false, fun _ => 127⟩

/-- 1: run OP (Table 11-11). -/
def ctxm_GO : Field := ⟨0x4, 0x100, 31, 1, .wo, false, false, fun _ => 0⟩

/-- 1: an operation runs (Table 11-11). -/
def ctxm_BUSY : Field := ⟨0x4, 0x104, 0, 1, .ro, false, false, fun _ => 0⟩

/-- 1: the last operation has finished (Table 11-11). -/
def ctxm_DONE : Field := ⟨0x4, 0x104, 1, 1, .ro, false, false, fun _ => 0⟩

/-- Table 11-2 (Table 11-11). -/
def ctxm_RESULT : Field := ⟨0x4, 0x104, 8, 8, .ro, false, false, fun _ => 0⟩

/-- Context created or acted on (Table 11-11). -/
def ctxm_CONTEXT_OUT : Field := ⟨0x4, 0x104, 16, 6, .ro, false, false, fun _ => 0⟩

/-- Bus address of the request block, bits [31:0]; bits [5:0] must be 0 (Table 11-11). -/
def ctxm_REQ_ADDR_LO : Field := ⟨0x4, 0x108, 0, 32, .rw, false, true, fun _ => 0⟩

/-- Bits [63:32] (Table 11-11). -/
def ctxm_REQ_ADDR_HI : Field := ⟨0x4, 0x10c, 0, 32, .rw, false, true, fun _ => 0⟩

/-- Bit c: context c exists, c = 0–31 (Table 11-11). -/
def ctxm_EXIST_LO : Field := ⟨0x4, 0x110, 0, 32, .ro, false, false, fun _ => 0⟩

/-- Contexts 32–63; latched by reading LO (R8) (Table 11-11). -/
def ctxm_EXIST_HI : Field := ⟨0x4, 0x114, 0, 32, .ro, false, false, fun _ => 0⟩

/-- Bit c: home loaded (IDLE_LOADED, RUNNING, PREEMPTING or RESTORING) (Table 11-11). -/
def ctxm_LOADED_LO : Field := ⟨0x4, 0x118, 0, 32, .ro, false, false, fun _ => 0⟩

/-- Contexts 32–63 (Table 11-11). -/
def ctxm_LOADED_HI : Field := ⟨0x4, 0x11c, 0, 32, .ro, false, false, fun _ => 0⟩

/-- Bit c: a task is saved (Table 11-11). -/
def ctxm_SUSPENDED_LO : Field := ⟨0x4, 0x120, 0, 32, .ro, false, false, fun _ => 0⟩

/-- Contexts 32–63 (Table 11-11). -/
def ctxm_SUSPENDED_HI : Field := ⟨0x4, 0x124, 0, 32, .ro, false, false, fun _ => 0⟩

/-- Bit c: FROZEN (Table 11-11). -/
def ctxm_FROZEN_LO : Field := ⟨0x4, 0x128, 0, 32, .ro, false, false, fun _ => 0⟩

/-- Contexts 32–63 (Table 11-11). -/
def ctxm_FROZEN_HI : Field := ⟨0x4, 0x12c, 0, 32, .ro, false, false, fun _ => 0⟩

/-- Bit k: share k named by some home (Table 11-11). -/
def ctxm_SHARES_CLAIMED : Field := ⟨0x4, 0x130, 0, 16, .ro, false, false, fun _ => 0⟩

/-- Bit k: share k held by a loaded context (Table 11-11). -/
def ctxm_SHARES_LOADED : Field := ⟨0x4, 0x130, 16, 16, .ro, false, false, fun _ => 0⟩

/-- Context shown at 0x138–0x144 (Table 11-11). -/
def ctxm_CTX_SELECT : Field := ⟨0x4, 0x134, 0, 6, .rw, false, false, fun _ => 0⟩

/-- Table 11-4 (Table 11-11). -/
def ctxm_STATE : Field := ⟨0x4, 0x138, 0, 4, .ro, false, false, fun _ => 0⟩

/-- As the request block (Table 11-11). -/
def ctxm_PAIRING : Field := ⟨0x4, 0x138, 4, 2, .ro, false, false, fun _ => 0⟩

/-- As the request block (Table 11-11). -/
def ctxm_PRIORITY : Field := ⟨0x4, 0x138, 6, 2, .ro, false, false, fun _ => 0⟩

/-- As the request block (Table 11-11). -/
def ctxm_FUNCTION : Field := ⟨0x4, 0x138, 8, 6, .ro, false, false, fun _ => 0⟩

/-- As the request block (Table 11-11). -/
def ctxm_FORCEABLE : Field := ⟨0x4, 0x138, 14, 1, .ro, false, false, fun _ => 0⟩

/-- 1: test flag (R94) (Table 11-11). -/
def ctxm_TEST : Field := ⟨0x4, 0x138, 15, 1, .ro, false, false, fun _ => 0⟩

/-- As the request block (Table 11-11). -/
def ctxm_QUANTUM_MS : Field := ⟨0x4, 0x138, 16, 16, .ro, false, false, fun _ => 0⟩

/-- As the request block (Table 11-11). -/
def ctxm_FORCE_AFTER_MS : Field := ⟨0x4, 0x13c, 0, 16, .ro, false, false, fun _ => 0⟩

/-- Per used Hob (R280) (Table 11-11). -/
def ctxm_SAVE_PAGES : Field := ⟨0x4, 0x13c, 16, 16, .ro, false, false, fun _ => 0⟩

/-- Replay point of the present or saved task, from Hob 0, or Hob 1 for HOB1 (Table 11-11). -/
def ctxm_LAST_YIELD : Field := ⟨0x4, 0x140, 0, 17, .ro, false, false, fun _ => 131071⟩

/-- Forced pre-emptions of the present task; saturates (Table 11-11). -/
def ctxm_REPLAYS : Field := ⟨0x4, 0x140, 24, 8, .ro, false, false, fun _ => 0⟩

/-- Since creation; saturates (Table 11-11). -/
def ctxm_PREEMPTS_NORMAL : Field := ⟨0x4, 0x144, 0, 16, .ro, false, false, fun _ => 0⟩

/-- Since creation; saturates (Table 11-11). -/
def ctxm_PREEMPTS_FORCED : Field := ⟨0x4, 0x144, 16, 16, .ro, false, false, fun _ => 0⟩

/-- Semaphore shown at 0x14C (Table 11-11). -/
def ctxm_SEM_SELECT : Field := ⟨0x4, 0x148, 0, 10, .rw, false, false, fun _ => 0⟩

/-- Present value (Table 11-11). -/
def ctxm_SEM_VALUE : Field := ⟨0x4, 0x14c, 0, 16, .ro, false, false, fun _ => 0⟩

/-- Loaded context that holds it; 0xFF: none (Table 11-11). -/
def ctxm_SEM_OWNER : Field := ⟨0x4, 0x14c, 16, 8, .ro, false, false, fun _ => 255⟩

/-- R292 (Table 11-11). -/
def ctxm_OWNER_PREEMPTED : Field := ⟨0x4, 0x14c, 24, 1, .ro, false, false, fun _ => 0⟩

/-- Context of the last load, save or restore (Table 11-11). -/
def ctxm_SWITCH_CONTEXT : Field := ⟨0x4, 0x150, 0, 6, .ro, false, false, fun _ => 0⟩

/-- 0: task start; 1: normal save; 2: forced save; 3: restore (Table 11-11). -/
def ctxm_SWITCH_KIND : Field := ⟨0x4, 0x150, 8, 3, .ro, false, false, fun _ => 0⟩

/-- Its duration in µs of device time, longer Hob; saturates (Table 11-11). -/
def ctxm_SWITCH_US : Field := ⟨0x4, 0x150, 16, 16, .ro, false, false, fun _ => 0⟩

/-- 1: a step runs (Table 12-10). -/
def puu_STEP_ACTIVE : Field := ⟨0x18, 0x100, 0, 1, .ro, false, false, fun _ => 0⟩

/-- Grain of the running or last step: 0 BLOCK; 1 LAYER (Table 12-10). -/
def puu_GRAIN : Field := ⟨0x18, 0x100, 1, 1, .ro, false, false, fun _ => 0⟩

/-- 0: pass A or check pass; 1: pass B (Table 12-10). -/
def puu_PASS : Field := ⟨0x18, 0x100, 2, 1, .ro, false, false, fun _ => 0⟩

/-- Entry in progress (Table 12-10). -/
def puu_TENSOR : Field := ⟨0x18, 0x100, 8, 6, .ro, false, false, fun _ => 0⟩

/-- Descriptor index of the running step (Table 12-10). -/
def puu_DESC_INDEX : Field := ⟨0x18, 0x100, 16, 16, .ro, false, false, fun _ => 0⟩

/-- Record or touched-list position in progress (Table 12-10). -/
def puu_RECORD : Field := ⟨0x18, 0x104, 0, 32, .ro, false, false, fun _ => 0⟩

/-- Steps completed, bits [31:0] (Table 12-10). -/
def puu_STEPS_LO : Field := ⟨0x18, 0x108, 0, 32, .ro, false, false, fun _ => 0⟩

/-- Bits [63:32], latched by reading LO (R8) (Table 12-10). -/
def puu_STEPS_HI : Field := ⟨0x18, 0x10c, 0, 32, .ro, false, false, fun _ => 0⟩

/-- Steps completed at LAYER grain, self-tests excluded, bits [31:0] (Table 12-10). -/
def puu_LAYER_STEPS_LO : Field := ⟨0x18, 0x110, 0, 32, .ro, false, false, fun _ => 0⟩

/-- Bits [63:32] (Table 12-10). -/
def puu_LAYER_STEPS_HI : Field := ⟨0x18, 0x114, 0, 32, .ro, false, false, fun _ => 0⟩

/-- Tensors skipped under R320, bits [31:0] (Table 12-10). -/
def puu_FREEZE_SKIP_LO : Field := ⟨0x18, 0x118, 0, 32, .ro, false, false, fun _ => 0⟩

/-- Bits [63:32] (Table 12-10). -/
def puu_FREEZE_SKIP_HI : Field := ⟨0x18, 0x11c, 0, 32, .ro, false, false, fun _ => 0⟩

/-- Elements saturated on write (R310); saturates (Table 12-10). -/
def puu_SATURATED : Field := ⟨0x18, 0x120, 0, 32, .ro, false, false, fun _ => 0⟩

/-- Statistics entries used by the last step (Table 12-10). -/
def puu_STATS_USED : Field := ⟨0x18, 0x124, 0, 21, .ro, false, false, fun _ => 0⟩

/-- 1: run the self-test (R328); otherwise CONFIG_REJECT (Table 12-10). -/
def puu_SELF_TEST_GO : Field := ⟨0x18, 0x128, 0, 1, .wo, false, false, fun _ => 0⟩

/-- 1: a self-test runs (Table 12-10). -/
def puu_SELF_TEST_BUSY : Field := ⟨0x18, 0x128, 1, 1, .ro, false, false, fun _ => 0⟩

/-- 1: the last self-test has finished (Table 12-10). -/
def puu_SELF_TEST_DONE : Field := ⟨0x18, 0x128, 2, 1, .ro, false, false, fun _ => 0⟩

/-- 1: the last self-test matched its signature (Table 12-10). -/
def puu_SELF_TEST_PASS : Field := ⟨0x18, 0x128, 3, 1, .ro, false, false, fun _ => 0⟩

/-- Self-tests since start-up; saturates (Table 12-10). -/
def puu_SELF_TEST_RUNS : Field := ⟨0x18, 0x128, 16, 16, .ro, false, false, fun _ => 0⟩

/-- Duration of the last self-test in µs of device time (Table 12-10). -/
def puu_SELF_TEST_US : Field := ⟨0x18, 0x12c, 0, 32, .ro, false, false, fun _ => 0⟩

/-- 64 KiB granules marked frozen on this Hob's stacks (R321) (Table 12-10). -/
def puu_FROZEN_GRANULES : Field := ⟨0x18, 0x130, 0, 32, .ro, false, false, fun _ => 0⟩

/-- Bit n: ONFI channel n in service (Table 13-14). -/
def col_CH_ON : Field := ⟨0x21, 0x100, 0, 8, .ro, true, false, fun _ => 255⟩

/-- Bit n: ONFI channel n retired (Table 13-14). -/
def col_CH_RETIRED : Field := ⟨0x21, 0x100, 8, 8, .ro, true, false, fun _ => 0⟩

/-- Bit d: NAND die d retired (Table 13-14). -/
def col_DIE_RETIRED : Field := ⟨0x21, 0x100, 16, 16, .ro, true, false, fun _ => 0⟩

/-- Bit n: lane n in service (Table 13-14). -/
def col_LANES_ON : Field := ⟨0x21, 0x104, 0, 8, .ro, true, false, fun _ => 255⟩

/-- Bit n: lane n retired (Table 13-14). -/
def col_LANES_RETIRED : Field := ⟨0x21, 0x104, 8, 8, .ro, true, false, fun _ => 0⟩

/-- Bit n: pantry lane n active (Table 13-14). -/
def col_LINK_LANES : Field := ⟨0x21, 0x104, 16, 3, .ro, false, false, fun _ => 0⟩

/-- 1: the spare pantry lane is in service (Table 13-14). -/
def col_SPARE_LANE_USED : Field := ⟨0x21, 0x104, 19, 1, .ro, true, false, fun _ => 0⟩

/-- Bit q: table slot q loaded, q = 0–31 (Table 13-14). -/
def col_TSLOT_VALID_LO : Field := ⟨0x21, 0x108, 0, 32, .ro, false, false, fun _ => 0⟩

/-- Slots 32–63; latched by reading LO (R8) (Table 13-14). -/
def col_TSLOT_VALID_HI : Field := ⟨0x21, 0x10c, 0, 32, .ro, false, false, fun _ => 0⟩

/-- Context whose tables are loaded; 0xFF: none (Table 13-14). -/
def col_TSLOT_CONTEXT : Field := ⟨0x21, 0x110, 0, 8, .ro, false, false, fun _ => 255⟩

/-- Filter slots loaded, 0–128 (Table 13-14). -/
def col_FSLOTS_VALID : Field := ⟨0x21, 0x110, 8, 8, .ro, false, false, fun _ => 0⟩

/-- Key slots loaded, 0–128 (Table 13-14). -/
def col_KEY_SLOTS : Field := ⟨0x21, 0x110, 16, 8, .ro, false, false, fun _ => 0⟩

/-- 0: idle; 1: filter; 2: table load; 3: scan; 4: collection stream; 5: FTL only (Table 13-14). -/
def col_WORK_KIND : Field := ⟨0x21, 0x114, 0, 3, .ro, false, false, fun _ => 0⟩

/-- Context of the running descriptor (Table 13-14). -/
def col_WORK_CONTEXT : Field := ⟨0x21, 0x114, 8, 8, .ro, false, false, fun _ => 255⟩

/-- Its descriptor index (Table 13-14). -/
def col_WORK_DESC : Field := ⟨0x21, 0x114, 16, 16, .ro, false, false, fun _ => 0⟩

/-- SRAM remap words used, 0–64 (Table 13-14). -/
def col_REMAP_USED : Field := ⟨0x21, 0x118, 0, 7, .ro, true, false, fun _ => 0⟩

/-- Corrupt LZ4 pages; saturates (Table 13-14). -/
def col_LZ4_ERRORS : Field := ⟨0x21, 0x11c, 0, 16, .ro, false, false, fun _ => 0⟩

/-- Pantry link retrains; saturates (Table 13-14). -/
def col_LINK_RETRAINS : Field := ⟨0x21, 0x11c, 16, 16, .ro, false, false, fun _ => 0⟩

/-- B_nand of R26 in 4,096-byte units, bits [31:0] (Table 13-14). -/
def col_NAND_READ_LO : Field := ⟨0x21, 0x120, 0, 32, .ro, false, false, fun _ => 0⟩

/-- Bits [63:32] (Table 13-14). -/
def col_NAND_READ_HI : Field := ⟨0x21, 0x124, 0, 32, .ro, false, false, fun _ => 0⟩

/-- Mode of the running descriptor (Table 14-10). -/
def merge_MODE : Field := ⟨0x17, 0x100, 0, 3, .ro, false, false, fun _ => 0⟩

/-- 1: a descriptor runs (Table 14-10). -/
def merge_ACTIVE : Field := ⟨0x17, 0x100, 3, 1, .ro, false, false, fun _ => 0⟩

/-- Query in progress (Table 14-10). -/
def merge_QUERY : Field := ⟨0x17, 0x100, 8, 6, .ro, false, false, fun _ => 0⟩

/-- Its descriptor index (Table 14-10). -/
def merge_DESC_INDEX : Field := ⟨0x17, 0x100, 16, 16, .ro, false, false, fun _ => 0⟩

/-- Issued descriptors not yet started (Table 14-10). -/
def merge_QUEUED : Field := ⟨0x17, 0x104, 0, 4, .ro, false, false, fun _ => 0⟩

/-- Results written with SHORT; saturates (Table 14-10). -/
def merge_SHORT_RESULTS : Field := ⟨0x17, 0x108, 0, 32, .ro, false, false, fun _ => 0⟩

/-- VISITED_FULL faults; saturates (Table 14-10). -/
def merge_VISITED_FAULTS : Field := ⟨0x17, 0x10c, 0, 16, .ro, false, false, fun _ => 0⟩

/-- Namespace of the domain shown (Table 14-10). -/
def merge_DOM_NSID : Field := ⟨0x17, 0x110, 0, 32, .rw, false, false, fun _ => 0⟩

/-- FIRST_TIER_PAGE of the domain shown, bits [31:0] (Table 14-10). -/
def merge_DOM_TIER_LO : Field := ⟨0x17, 0x114, 0, 32, .rw, false, true, fun _ => 0⟩

/-- Bits [63:32]; the committed value follows R75 (Table 14-10). -/
def merge_DOM_TIER_HI : Field := ⟨0x17, 0x118, 0, 32, .rw, false, true, fun _ => 0⟩

/-- 1: the pair names a domain (Table 14-10). -/
def merge_DOM_VALID : Field := ⟨0x17, 0x11c, 0, 1, .ro, false, false, fun _ => 0⟩

/-- As EPOCH_ADVANCE (Table 14-10). -/
def merge_REPAIR : Field := ⟨0x17, 0x11c, 1, 1, .ro, false, false, fun _ => 0⟩

/-- 1: a writer position is held (Table 14-10). -/
def merge_WRITER_BUSY : Field := ⟨0x17, 0x11c, 2, 1, .ro, false, false, fun _ => 0⟩

/-- As EPOCH_ADVANCE (Table 14-10). -/
def merge_NEIGH_COL : Field := ⟨0x17, 0x11c, 8, 8, .ro, false, false, fun _ => 255⟩

/-- Writing context (Table 14-10). -/
def merge_WRITER : Field := ⟨0x17, 0x11c, 16, 6, .ro, false, false, fun _ => 0⟩

/-- Published epoch, bits [31:0] (Table 14-10). -/
def merge_EPOCH_LO : Field := ⟨0x17, 0x120, 0, 32, .ro, false, false, fun _ => 0⟩

/-- Bits [63:32], latched by reading LO (R8) (Table 14-10). -/
def merge_EPOCH_HI : Field := ⟨0x17, 0x124, 0, 32, .ro, false, false, fun _ => 0⟩

/-- VISIBLE, bits [31:0] (Table 14-10). -/
def merge_VISIBLE_LO : Field := ⟨0x17, 0x128, 0, 32, .ro, false, false, fun _ => 0⟩

/-- Bits [63:32] (Table 14-10). -/
def merge_VISIBLE_HI : Field := ⟨0x17, 0x12c, 0, 32, .ro, false, false, fun _ => 0⟩

/-- Pending indirection units, 0 to 1,048,576 (Table 14-10). -/
def merge_PENDING_IUS : Field := ⟨0x17, 0x130, 0, 21, .ro, false, false, fun _ => 0⟩

/-- Superseded units still held (R386) (Table 14-10). -/
def merge_RETAINED_IUS : Field := ⟨0x17, 0x134, 0, 32, .ro, false, false, fun _ => 0⟩

/-- Repaired neighbour lists awaiting an advance (Table 14-10). -/
def merge_REPAIRS_PENDING : Field := ⟨0x17, 0x138, 0, 32, .ro, false, false, fun _ => 0⟩

/-- Domains in existence, 0 to 4,096 (Table 14-10). -/
def merge_DOMAINS_USED : Field := ⟨0x17, 0x13c, 0, 13, .ro, false, false, fun _ => 0⟩

/-- Epochs of the domain shown held by running tasks (Table 14-10). -/
def merge_EPOCHS_HELD : Field := ⟨0x17, 0x13c, 13, 7, .ro, false, false, fun _ => 0⟩

/-- 0: ready; 1: loading tables; 2: replaying; 3: tag scan; 4: sanitizing (Table 16-10). -/
def ftl_REBUILD_STATE : Field := ⟨0x22, 0x100, 0, 3, .ro, false, false, fun _ => 0⟩

/-- 1: the last shutdown flushed clean (Table 16-10). -/
def ftl_CLEAN_LAST : Field := ⟨0x22, 0x100, 3, 1, .ro, true, false, fun _ => 0⟩

/-- U (R430) (Table 16-10). -/
def ftl_USER_TIER_PAGES : Field := ⟨0x22, 0x104, 0, 32, .ro, true, false, fun _ => 100135808⟩

/-- M ÷ 2 MiB, rounded down; 0 when M ≤ 0 (Table 16-10). -/
def ftl_MARGIN_PAGES : Field := ⟨0x22, 0x108, 0, 32, .ro, false, false, fun _ => 0⟩

/-- FLOOR ÷ 2 MiB (Table 16-10). -/
def ftl_FLOOR_PAGES : Field := ⟨0x22, 0x10c, 0, 32, .ro, false, false, fun _ => 0⟩

/-- RESERVE ÷ 2 MiB (Table 16-10). -/
def ftl_RESERVE_PAGES : Field := ⟨0x22, 0x110, 0, 32, .ro, false, false, fun _ => 0⟩

/-- Packages retired (Table 16-10). -/
def ftl_PACKAGES_RETIRED : Field := ⟨0x22, 0x114, 0, 7, .ro, true, false, fun _ => 0⟩

/-- 1: an evacuation runs (Table 16-10). -/
def ftl_EVACUATING : Field := ⟨0x22, 0x114, 7, 1, .ro, false, false, fun _ => 0⟩

/-- Package evacuating (Table 16-10). -/
def ftl_EVAC_PACKAGE : Field := ⟨0x22, 0x114, 8, 6, .ro, false, false, fun _ => 0⟩

/-- 1: a package is being shed (R453) (Table 16-10). -/
def ftl_SHEDDING : Field := ⟨0x22, 0x114, 14, 1, .ro, false, false, fun _ => 0⟩

/-- Fewest free superblocks on any package; saturates at 255 (Table 16-10). -/
def ftl_FREE_SB_MIN : Field := ⟨0x22, 0x114, 16, 8, .ro, false, false, fun _ => 0⟩

/-- That package (Table 16-10). -/
def ftl_FREE_SB_PACKAGE : Field := ⟨0x22, 0x114, 24, 6, .ro, false, false, fun _ => 0⟩

/-- Next sequence number, bits [31:0] (Table 16-10). -/
def ftl_SEQ_LO : Field := ⟨0x22, 0x118, 0, 32, .ro, false, false, fun _ => 0⟩

/-- Bits [63:32], latched by reading LO (R8) (Table 16-10). -/
def ftl_SEQ_HI : Field := ⟨0x22, 0x11c, 0, 32, .ro, false, false, fun _ => 0⟩

/-- Tick of the last durable flush, bits [31:0] (Table 16-10). -/
def ftl_FLUSH_TICK_LO : Field := ⟨0x22, 0x120, 0, 32, .ro, false, false, fun _ => 0⟩

/-- Bits [63:32] (Table 16-10). -/
def ftl_FLUSH_TICK_HI : Field := ⟨0x22, 0x124, 0, 32, .ro, false, false, fun _ => 0⟩

/-- Staging slots in use, 0–2,048 (Table 16-10). -/
def ftl_STAGING_USED : Field := ⟨0x22, 0x128, 0, 12, .ro, false, false, fun _ => 0⟩

/-- Writes that waited for slots; saturates (Table 16-10). -/
def ftl_STAGING_WAITS : Field := ⟨0x22, 0x128, 16, 16, .ro, false, false, fun _ => 0⟩

/-- IUs in SUSPECT (Table 16-10). -/
def ftl_SUSPECT_IUS : Field := ⟨0x22, 0x12c, 0, 32, .ro, false, false, fun _ => 0⟩

/-- IUs in LOST (Table 16-10). -/
def ftl_LOST_IUS : Field := ⟨0x22, 0x130, 0, 32, .ro, false, false, fun _ => 0⟩

/-- Grown bad blocks (Table 16-10). -/
def ftl_GROWN_BAD : Field := ⟨0x22, 0x134, 0, 32, .ro, true, false, fun _ => 0⟩

/-- Highest superblock erase count (Table 16-10). -/
def ftl_ERASE_MAX : Field := ⟨0x22, 0x138, 0, 16, .ro, true, false, fun _ => 0⟩

/-- Mean superblock erase count, rounded down (Table 16-10). -/
def ftl_ERASE_AVG : Field := ⟨0x22, 0x138, 16, 16, .ro, true, false, fun _ => 0⟩

/-- Duration of the last rebuild, in ms of device time (Table 16-10). -/
def ftl_REBUILD_MS : Field := ⟨0x22, 0x13c, 0, 32, .ro, false, false, fun _ => 0⟩

/-- As SPROG (Table 16-10). -/
def ftl_SANITIZE_PROGRESS : Field := ⟨0x22, 0x140, 0, 16, .ro, true, false, fun _ => 0⟩

/-- 0: none; 1: Crypto Erase; 2: Block Erase; 3: Overwrite (Table 16-10). -/
def ftl_SANITIZE_ACTION : Field := ⟨0x22, 0x140, 16, 3, .ro, true, false, fun _ => 0⟩

/-- Pending and retained versions held (Table 16-10). -/
def ftl_VERSION_ENTRIES : Field := ⟨0x22, 0x144, 0, 29, .ro, false, false, fun _ => 0⟩

/-- Bit i: link i has at least one active lane (Table 17-6). -/
def hub_LINK_UP : Field := ⟨0x20, 0x100, 0, 32, .ro, false, false, fun _ => 0⟩

/-- Bit i: the spare lane of link i is in service (Table 17-6). -/
def hub_SPARE_USED : Field := ⟨0x20, 0x104, 0, 32, .ro, true, false, fun _ => 0⟩

/-- Bit i: link i runs on one lane (R467) (Table 17-6). -/
def hub_DEGRADED : Field := ⟨0x20, 0x108, 0, 32, .ro, true, false, fun _ => 0⟩

/-- Bit i: Colander of link i unreachable (R77) (Table 17-6). -/
def hub_UNREACHABLE : Field := ⟨0x20, 0x10c, 0, 32, .ro, false, false, fun _ => 0⟩

/-- Bit i: link i retrains now (Table 17-6). -/
def hub_RETRAINING : Field := ⟨0x20, 0x110, 0, 32, .ro, false, false, fun _ => 0⟩

/-- Link shown at 0x118–0x124 (Table 17-6). -/
def hub_LINK_SELECT : Field := ⟨0x20, 0x114, 0, 5, .rw, false, false, fun _ => 0⟩

/-- Lane n at [3n+2:3n]: 0 active; 1 spare, idle; 2 retired; 3 training; 4 spare, failed its check (Table 17-6). -/
def hub_LANE_STATE : Field := ⟨0x20, 0x118, 0, 9, .ro, true, false, fun _ => 64⟩

/-- Units replayed on the selected link; saturates (Table 17-6). -/
def hub_REPLAYS : Field := ⟨0x20, 0x11c, 0, 32, .ro, false, false, fun _ => 0⟩

/-- Retrains since start-up; saturates (Table 17-6). -/
def hub_RETRAINS : Field := ⟨0x20, 0x120, 0, 16, .ro, false, false, fun _ => 0⟩

/-- Proxied reads answered from the shadow (R77); saturates (Table 17-6). -/
def hub_PROXY_TIMEOUTS : Field := ⟨0x20, 0x120, 16, 16, .ro, false, false, fun _ => 0⟩

/-- Proxied writes dropped (R77); saturates (Table 17-6). -/
def hub_PROXY_DROPPED : Field := ⟨0x20, 0x124, 0, 16, .ro, false, false, fun _ => 0⟩

/-- Duration of the last retrain, in µs of device time (Table 17-6). -/
def hub_LAST_RETRAIN_US : Field := ⟨0x20, 0x124, 16, 16, .ro, false, false, fun _ => 0⟩

/-- Cap in W under R490; 0: none (Table 18-10). -/
def kettle_POWER_CAP : Field := ⟨0x1, 0x100, 0, 12, .rw, false, true, fun _ => 0⟩

/-- Ceiling set by R491 (Table 18-10). -/
def kettle_CAP_CEILING : Field := ⟨0x1, 0x100, 16, 3, .ro, false, false, fun _ => 5⟩

/-- R491 (Table 18-10). -/
def kettle_CAP_UNMET : Field := ⟨0x1, 0x100, 19, 1, .ro, false, false, fun _ => 0⟩

/-- 0 during a trip; 5 otherwise (Table 18-10). -/
def kettle_THERMAL_CEILING : Field := ⟨0x1, 0x100, 20, 3, .ro, false, false, fun _ => 5⟩

/-- Mean input power over the last 100 ms window, in mW (Table 18-10). -/
def kettle_INPUT_MW : Field := ⟨0x1, 0x104, 0, 32, .ro, false, false, fun _ => 0⟩

/-- Input voltage, last sample, in mV (Table 18-10). -/
def kettle_INPUT_MV : Field := ⟨0x1, 0x108, 0, 16, .ro, false, false, fun _ => 0⟩

/-- Input current, last sample, in 10 mA units (Table 18-10). -/
def kettle_INPUT_10MA : Field := ⟨0x1, 0x108, 16, 16, .ro, false, false, fun _ => 0⟩

/-- 0 normal; 1 composite at or above WCTEMP; 2 trip (Table 18-10). -/
def kettle_THERMAL_STATE : Field := ⟨0x1, 0x10c, 0, 2, .ro, false, false, fun _ => 0⟩

/-- Sensor of the present or last trip (Table 18-10). -/
def kettle_TRIP_SENSOR : Field := ⟨0x1, 0x10c, 8, 8, .ro, false, false, fun _ => 255⟩

/-- Composite Temperature in K (R489) (Table 18-10). -/
def kettle_COMPOSITE_K : Field := ⟨0x1, 0x10c, 16, 12, .ro, false, false, fun _ => 0⟩

/-- Sensor shown at 0x114 (Table 18-10). -/
def kettle_SENSOR_SELECT : Field := ⟨0x1, 0x110, 0, 8, .rw, false, false, fun _ => 0⟩

/-- Last sample, in the unit of R484; signed for temperatures (Table 18-10). -/
def kettle_SENSOR_VALUE : Field := ⟨0x1, 0x114, 0, 16, .ro, false, false, fun _ => 0⟩

/-- 0 HOB; 1 CTRL; 2 KETTLE; 3 HBM; 4 COL; 5 NAND; 6 DRAM; 7 VR; 8 COOLANT; 9 HOLDUP; 10 INPUT; 11 RAIL (Table 18-10). -/
def kettle_SENSOR_CLASS : Field := ⟨0x1, 0x114, 16, 8, .ro, false, false, fun _ => 0⟩

/-- 1: the sensor exists and has a sample (Table 18-10). -/
def kettle_VALID : Field := ⟨0x1, 0x114, 24, 1, .ro, false, false, fun _ => 0⟩

/-- R485 (Table 18-10). -/
def kettle_FAILED : Field := ⟨0x1, 0x114, 25, 1, .ro, false, false, fun _ => 0⟩

/-- Thermal trips since Kettle start-up; saturates (Table 18-10). -/
def kettle_TRIP_COUNT : Field := ⟨0x1, 0x118, 0, 16, .ro, false, false, fun _ => 0⟩

/-- Thermal shutdowns since Kettle start-up; saturates (Table 18-10). -/
def kettle_SHUTDOWN_COUNT : Field := ⟨0x1, 0x118, 16, 16, .ro, false, false, fun _ => 0⟩

/-- Ring index of the next entry (Table 18-11). -/
def rec_NEXT_INDEX : Field := ⟨0x5, 0x100, 0, 13, .ro, false, false, fun _ => 0⟩

/-- 1: the ring is frozen (Table 18-11). -/
def rec_FROZEN : Field := ⟨0x5, 0x100, 16, 1, .ro, false, false, fun _ => 0⟩

/-- Table 18-8 (Table 18-11). -/
def rec_FREEZE_CAUSE : Field := ⟨0x5, 0x100, 20, 4, .ro, false, false, fun _ => 0⟩

/-- Table 18-8 (Table 18-11). -/
def rec_SECOND_CAUSE : Field := ⟨0x5, 0x100, 24, 4, .ro, false, false, fun _ => 0⟩

/-- As Table 18-9 (Table 18-11). -/
def rec_SEQ_NEXT : Field := ⟨0x5, 0x104, 0, 32, .ro, false, false, fun _ => 0⟩

/-- Bits [31:0] (Table 18-11). -/
def rec_FREEZE_TICK_LO : Field := ⟨0x5, 0x108, 0, 32, .ro, false, false, fun _ => 0⟩

/-- Bits [63:32], latched by reading LO (R8) (Table 18-11). -/
def rec_FREEZE_TICK_HI : Field := ⟨0x5, 0x10c, 0, 32, .ro, false, false, fun _ => 0⟩

/-- 0 READY; 1 valid; 2 PARTIAL; 3 erasing; 4 empty (Table 18-11). -/
def rec_SLOT_A : Field := ⟨0x5, 0x110, 0, 3, .ro, true, false, fun _ => 4⟩

/-- As SLOT_A (Table 18-11). -/
def rec_SLOT_B : Field := ⟨0x5, 0x110, 4, 3, .ro, true, false, fun _ => 4⟩

/-- RECORD_SEQ of slot A, bits [31:0] (Table 18-11). -/
def rec_RECORD_SEQ_A : Field := ⟨0x5, 0x114, 0, 32, .ro, true, false, fun _ => 0⟩

/-- Slot B (Table 18-11). -/
def rec_RECORD_SEQ_B : Field := ⟨0x5, 0x118, 0, 32, .ro, true, false, fun _ => 0⟩

/-- DROPPED_CORRECTED, bits [31:0] (Table 18-11). -/
def rec_DROPPED_LO : Field := ⟨0x5, 0x11c, 0, 32, .ro, false, false, fun _ => 0⟩

/-- Bits [63:32] (Table 18-11). -/
def rec_DROPPED_HI : Field := ⟨0x5, 0x120, 0, 32, .ro, false, false, fun _ => 0⟩

/-- Entries not stored since the freeze; saturates (Table 18-11). -/
def rec_POST_FREEZE : Field := ⟨0x5, 0x124, 0, 32, .ro, false, false, fun _ => 0⟩

/-- 1: freeze with cause 6 (Table 18-11). -/
def rec_HOST_FREEZE : Field := ⟨0x5, 0x128, 0, 1, .wo, false, false, fun _ => 0⟩

/-- 1: end a cause-6 freeze (Table 18-11). -/
def rec_UNFREEZE : Field := ⟨0x5, 0x128, 1, 1, .wo, false, false, fun _ => 0⟩

/-- Stage of Table 19-8 (Table 19-9). -/
def glob_BOOT_STAGE : Field := ⟨0x0, 0x2c0, 0, 16, .ro, false, false, fun _ => 0⟩

/-- 1: A; 2: B (Table 19-9). -/
def glob_RUN_SLOT : Field := ⟨0x0, 0x2c0, 16, 2, .ro, false, false, fun _ => 0⟩

/-- 0: none; 1: A; 2: B (Table 19-9). -/
def glob_PENDING_SLOT : Field := ⟨0x0, 0x2c0, 18, 2, .ro, false, false, fun _ => 0⟩

/-- 1: the selected slot was not the first pick of R518 (Table 19-9). -/
def glob_FALLBACK : Field := ⟨0x0, 0x2c0, 20, 1, .ro, false, false, fun _ => 0⟩

/-- 0 power-on; 1 watchdog; 2 brown-out; 3 thermal-shutdown release; 4 PERST#; 5 planned Kettle restart; 6 after ROM recovery (Table 19-9). -/
def glob_RESET_CAUSE : Field := ⟨0x0, 0x2c4, 0, 4, .ro, false, false, fun _ => 0⟩

/-- Watchdog expiries in the module's life; saturates (Table 19-9). -/
def glob_WDT_EXPIRIES : Field := ⟨0x0, 0x2c4, 16, 16, .ro, false, false, fun _ => 0⟩

/-- Security-version counter (Table 19-9). -/
def glob_SVN : Field := ⟨0x0, 0x2c8, 0, 16, .ro, false, false, fun _ => 0⟩

/-- Bit i: program-signing key i usable (Table 19-9). -/
def glob_KEY_VALID : Field := ⟨0x0, 0x2c8, 16, 4, .ro, false, false, fun _ => 0⟩

/-- Root key of the running package (Table 19-9). -/
def glob_ROOT_KEY : Field := ⟨0x0, 0x2c8, 20, 2, .ro, false, false, fun _ => 0⟩

/-- Bit i: firmware root key i revoked (Table 19-9). -/
def glob_ROOT_REVOKED : Field := ⟨0x0, 0x2c8, 22, 4, .ro, false, false, fun _ => 0⟩

/-- Last start-up to global STATE ON, in ms of device time (Table 19-9). -/
def glob_BOOT_MS : Field := ⟨0x0, 0x2cc, 0, 32, .ro, false, false, fun _ => 0⟩

/-- Corrected eFlash reads since start-up; saturates (Table 19-9). -/
def glob_EFLASH_CORRECTED : Field := ⟨0x0, 0x2d0, 0, 32, .ro, false, false, fun _ => 0⟩

/-- Sectors in the bad-sector map (Table 19-9). -/
def glob_BAD_SECTORS : Field := ⟨0x0, 0x2d4, 0, 12, .ro, false, false, fun _ => 0⟩

/-- 0 idle; 1 receiving; 2 erasing; 3 programming; 4 verifying; 5 committing (Table 19-9). -/
def glob_UPDATE_STATE : Field := ⟨0x0, 0x2d4, 16, 3, .ro, false, false, fun _ => 0⟩

/-- 0 none; 1 NVMe; 2 PLDM (Table 19-9). -/
def glob_UPDATE_OWNER : Field := ⟨0x0, 0x2d4, 19, 2, .ro, false, false, fun _ => 0⟩

/-- Fraction of the running update, in 65,536ths (Table 19-9). -/
def glob_UPDATE_PROGRESS : Field := ⟨0x0, 0x2d8, 0, 16, .ro, false, false, fun _ => 0⟩

/-- ns[29:0] (Table 20-7). -/
def time_DTC_NS : Field := ⟨0x2, 0x100, 0, 30, .ro, false, false, fun _ => 0⟩

/-- frac[15:0], as latched (Table 20-7). -/
def time_DTC_FRAC : Field := ⟨0x2, 0x104, 0, 16, .ro, false, false, fun _ => 0⟩

/-- seconds[31:0], as latched (Table 20-7). -/
def time_DTC_SEC_LO : Field := ⟨0x2, 0x108, 0, 32, .ro, false, false, fun _ => 0⟩

/-- seconds[47:32], as latched (Table 20-7). -/
def time_DTC_SEC_HI : Field := ⟨0x2, 0x10c, 0, 16, .ro, false, false, fun _ => 0⟩

/-- Rate adjustment in force, signed, in 0.1 ppb (Table 20-7). -/
def time_FREQ_ADJ : Field := ⟨0x2, 0x110, 0, 32, .ro, false, false, fun _ => 0⟩

/-- 0 free run, never locked; 1 acquiring; 2 locked; 3 holdover (Table 20-7). -/
def time_SERVO_STATE : Field := ⟨0x2, 0x114, 0, 3, .ro, false, false, fun _ => 0⟩

/-- 1: the source in force is locked (Table 20-7). -/
def time_LOCKED : Field := ⟨0x2, 0x114, 3, 1, .ro, false, false, fun _ => 0⟩

/-- PTP port that steers (R539) (Table 20-7). -/
def time_ACTIVE_PORT : Field := ⟨0x2, 0x114, 4, 1, .ro, false, false, fun _ => 0⟩

/-- R541; 3 is taken as 2 (Table 20-7). -/
def time_PPS_OUT_MODE : Field := ⟨0x2, 0x114, 8, 2, .rw, false, false, fun _ => 2⟩

/-- 1: a 1PPS in edge arrived within the last 2 s (Table 20-7). -/
def time_PPS_IN_VALID : Field := ⟨0x2, 0x114, 10, 1, .ro, false, false, fun _ => 0⟩

/-- 1–1,000; 0 is taken as 1 and values above 1,000 as 1,000 (Table 20-7). -/
def time_PTM_INTERVAL_MS : Field := ⟨0x2, 0x114, 16, 10, .rw, false, false, fun _ => 10⟩

/-- R536, bits [31:0] (Table 20-7). -/
def time_ERROR_BOUND_LO : Field := ⟨0x2, 0x118, 0, 32, .ro, false, false, fun _ => 4294967295⟩

/-- Bits [63:32], latched by reading LO (R8) (Table 20-7). -/
def time_ERROR_BOUND_HI : Field := ⟨0x2, 0x11c, 0, 32, .ro, false, false, fun _ => 4294967295⟩

/-- Last measured offset, DTC − source, in signed ns; saturates (Table 20-7). -/
def time_LAST_OFFSET : Field := ⟨0x2, 0x120, 0, 32, .ro, false, false, fun _ => 0⟩

/-- Last step, in signed ns; saturates (Table 20-7). -/
def time_LAST_STEP : Field := ⟨0x2, 0x124, 0, 32, .ro, false, false, fun _ => 0⟩

/-- Steps since Kettle start-up; saturates (Table 20-7). -/
def time_STEP_COUNT : Field := ⟨0x2, 0x128, 0, 16, .ro, false, false, fun _ => 0⟩

/-- Losses under Table 20-1; saturates (Table 20-7). -/
def time_LOCK_LOSSES : Field := ⟨0x2, 0x128, 16, 16, .ro, false, false, fun _ => 0⟩

/-- Tick count at the last entry to holdover, bits [31:0] (Table 20-7). -/
def time_HOLDOVER_TICK_LO : Field := ⟨0x2, 0x12c, 0, 32, .ro, false, false, fun _ => 0⟩

/-- Bits [63:32] (Table 20-7). -/
def time_HOLDOVER_TICK_HI : Field := ⟨0x2, 0x130, 0, 32, .ro, false, false, fun _ => 0⟩

/-- Last 1PPS in edge less the nearest DTC second, in signed ns (Table 20-7). -/
def time_PPS_IN_OFFSET : Field := ⟨0x2, 0x134, 0, 32, .ro, false, false, fun _ => 0⟩

/-- 1: link up (Table 20-8). -/
def eth_LINK_UP : Field := ⟨0x31, 0x100, 0, 1, .ro, false, false, fun _ => 0⟩

/-- 0 down; 1 400G; 2 800G (Table 20-8). -/
def eth_SPEED : Field := ⟨0x31, 0x100, 1, 2, .ro, false, false, fun _ => 0⟩

/-- 0 KR4; 1 CR4 (Table 20-8). -/
def eth_MEDIUM : Field := ⟨0x31, 0x100, 3, 1, .ro, false, false, fun _ => 0⟩

/-- Bit n: lane n retired (Table 20-8). -/
def eth_LANES_RETIRED : Field := ⟨0x31, 0x100, 4, 4, .ro, true, false, fun _ => 0⟩

/-- 1: the port is retired (R543) (Table 20-8). -/
def eth_PORT_RETIRED : Field := ⟨0x31, 0x100, 8, 1, .ro, true, false, fun _ => 0⟩

/-- 0 none; 1 active; 2 standby (Table 20-8). -/
def eth_PTP_ROLE : Field := ⟨0x31, 0x100, 9, 2, .ro, false, false, fun _ => 0⟩

/-- 1: the port meets the lock criterion on its own measurements (Table 20-8). -/
def eth_PTP_QUALIFIED : Field := ⟨0x31, 0x100, 11, 1, .ro, false, false, fun _ => 0⟩

/-- R542; values outside 1,518–9,216 are refused with CONFIG_REJECT (Table 20-8). -/
def eth_MTU : Field := ⟨0x31, 0x104, 0, 14, .rw, false, false, fun _ => 9216⟩

/-- 802.1Q VLAN ID (Table 20-8). -/
def eth_VLAN_ID : Field := ⟨0x31, 0x104, 16, 12, .rw, false, false, fun _ => 0⟩

/-- 1: tagged (Table 20-8). -/
def eth_VLAN_EN : Field := ⟨0x31, 0x104, 28, 1, .rw, false, false, fun _ => 0⟩

/-- 1: PFC on PFC_PRIO (Table 20-8). -/
def eth_PFC_EN : Field := ⟨0x31, 0x104, 29, 1, .rw, false, false, fun _ => 0⟩

/-- 1: PTP runs on the port (Table 20-8). -/
def eth_PTP_EN : Field := ⟨0x31, 0x108, 0, 1, .rw, false, false, fun _ => 1⟩

/-- 0 L2; 1 UDP/IPv4; 2 UDP/IPv6; 3 is refused (Table 20-8). -/
def eth_PTP_TRANSPORT : Field := ⟨0x31, 0x108, 1, 2, .rw, false, false, fun _ => 0⟩

/-- 0 E2E; 1 P2P (Table 20-8). -/
def eth_DELAY_MECH : Field := ⟨0x31, 0x108, 3, 1, .rw, false, false, fun _ => 0⟩

/-- R539 (Table 20-8). -/
def eth_PTP_PREF : Field := ⟨0x31, 0x108, 4, 1, .rw, true, false, fun i => if i = 0 then 1 else 0⟩

/-- PFC priority (Table 20-8). -/
def eth_PFC_PRIO : Field := ⟨0x31, 0x108, 5, 3, .rw, false, false, fun _ => 3⟩

/-- domainNumber (Table 20-8). -/
def eth_DOMAIN : Field := ⟨0x31, 0x108, 8, 7, .rw, false, false, fun _ => 0⟩

/-- 2–10; other values are refused (Table 20-8). -/
def eth_ANNOUNCE_TIMEOUT : Field := ⟨0x31, 0x108, 16, 4, .rw, false, false, fun _ => 3⟩

/-- Signed log2 of the Pdelay_Req interval, −7 to 3 (Table 20-8). -/
def eth_PDELAY_LOG : Field := ⟨0x31, 0x108, 20, 4, .rw, false, false, fun _ => 0⟩

/-- Factory MAC address, bits [31:0] (Table 20-8). -/
def eth_MAC_LO : Field := ⟨0x31, 0x10c, 0, 32, .ro, true, false, fun _ => 0⟩

/-- Bits [47:32] (Table 20-8). -/
def eth_MAC_HI : Field := ⟨0x31, 0x110, 0, 16, .ro, true, false, fun _ => 0⟩

/-- clockIdentity of the selected grandmaster, bits [31:0] (Table 20-8). -/
def eth_GM_ID_LO : Field := ⟨0x31, 0x114, 0, 32, .ro, false, false, fun _ => 0⟩

/-- Bits [63:32], latched by reading LO (R8) (Table 20-8). -/
def eth_GM_ID_HI : Field := ⟨0x31, 0x118, 0, 32, .ro, false, false, fun _ => 0⟩

/-- In ns (Table 20-8). -/
def eth_MEAN_PATH_DELAY : Field := ⟨0x31, 0x11c, 0, 32, .ro, false, false, fun _ => 0⟩

/-- Offset measured through this port, in signed ns (Table 20-8). -/
def eth_PORT_OFFSET : Field := ⟨0x31, 0x120, 0, 32, .ro, false, false, fun _ => 0⟩

/-- Frames not accepted under R542 or R537; saturates (Table 20-8). -/
def eth_FRAMES_DISCARDED : Field := ⟨0x31, 0x124, 0, 32, .ro, false, false, fun _ => 0⟩

/-- R544; loaded from the sled-ID straps (Table 20-9). -/
def snilo_SLED_ID : Field := ⟨0x30, 0x100, 0, 15, .rw, true, true, fun _ => 0⟩

/-- 1: peer table loaded and the own entry valid (Table 20-9). -/
def snilo_READY : Field := ⟨0x30, 0x100, 31, 1, .ro, false, false, fun _ => 0⟩

/-- 1 LOAD_PEERS; 2 LOAD_EXPORTS; 3 CLEAR_EXPORTS; others no operation (Table 20-9). -/
def snilo_OP : Field := ⟨0x30, 0x104, 0, 3, .rw, false, false, fun _ => 0⟩

/-- 1: run OP (Table 20-9). -/
def snilo_GO : Field := ⟨0x30, 0x104, 31, 1, .wo, false, false, fun _ => 0⟩

/-- First peer or window index (Table 20-9). -/
def snilo_FIRST_ENTRY : Field := ⟨0x30, 0x108, 0, 15, .rw, false, false, fun _ => 0⟩

/-- Entries to load: 1–32,768 peers or 1–256 windows (Table 20-9). -/
def snilo_ENTRY_COUNT : Field := ⟨0x30, 0x10c, 0, 16, .rw, false, false, fun _ => 0⟩

/-- Bus address of the entries, bits [31:0]; bits [5:0] must be 0 (Table 20-9). -/
def snilo_SRC_ADDR_LO : Field := ⟨0x30, 0x110, 0, 32, .rw, false, true, fun _ => 0⟩

/-- Bits [63:32]; the committed value follows R75 (Table 20-9). -/
def snilo_SRC_ADDR_HI : Field := ⟨0x30, 0x114, 0, 32, .rw, false, true, fun _ => 0⟩

/-- 1: a load runs (Table 20-9). -/
def snilo_BUSY : Field := ⟨0x30, 0x118, 0, 1, .ro, false, false, fun _ => 0⟩

/-- 1: the last load has finished; cleared by GO (Table 20-9). -/
def snilo_DONE : Field := ⟨0x30, 0x118, 1, 1, .ro, false, false, fun _ => 0⟩

/-- 0 success; 1 bad entry; 2 busy; 3 windows overlap (Table 20-9). -/
def snilo_RESULT : Field := ⟨0x30, 0x118, 8, 8, .ro, false, false, fun _ => 0⟩

/-- Index of the first refused entry (Table 20-9). -/
def snilo_BAD_ENTRY : Field := ⟨0x30, 0x118, 16, 15, .ro, false, false, fun _ => 0⟩

/-- First retransmission wait in µs, 20–3,200 (Table 20-9). -/
def snilo_RTO_US : Field := ⟨0x30, 0x11c, 0, 16, .rw, false, false, fun _ => 200⟩

/-- R548, 10–10,000 (Table 20-9). -/
def snilo_REMOTE_TIMEOUT_MS : Field := ⟨0x30, 0x11c, 16, 16, .rw, false, false, fun _ => 100⟩

/-- Windows with KIND ≠ 0 (Table 20-9). -/
def snilo_EXPORTS_VALID : Field := ⟨0x30, 0x120, 0, 9, .ro, false, false, fun _ => 0⟩

/-- Credits of this port not in use (Table 20-9). -/
def snilo_CREDITS_FREE : Field := ⟨0x30, 0x140, 0, 11, .ro, false, false, fun _ => 1024⟩

/-- Requests queued for serving, 0–4,096 (Table 20-9). -/
def snilo_SERVE_QUEUE : Field := ⟨0x30, 0x140, 16, 13, .ro, false, false, fun _ => 0⟩

/-- Saturates (Table 20-9). -/
def snilo_RETRANSMITS : Field := ⟨0x30, 0x144, 0, 32, .ro, false, false, fun _ => 0⟩

/-- Saturates (Table 20-9). -/
def snilo_NAKS_RECEIVED : Field := ⟨0x30, 0x148, 0, 16, .ro, false, false, fun _ => 0⟩

/-- R549; saturates (Table 20-9). -/
def snilo_REQ_DROPPED : Field := ⟨0x30, 0x148, 16, 16, .ro, false, false, fun _ => 0⟩

/-- Server of the last NAK (Table 20-9). -/
def snilo_LAST_NAK_SLED : Field := ⟨0x30, 0x14c, 0, 15, .ro, false, false, fun _ => 0⟩

/-- As STATUS of Table 20-6 (Table 20-9). -/
def snilo_LAST_NAK_REASON : Field := ⟨0x30, 0x14c, 16, 4, .ro, false, false, fun _ => 0⟩

/-- Mean round trip over the last 1 s, in µs (Table 20-9). -/
def snilo_RTT_US : Field := ⟨0x30, 0x150, 0, 16, .ro, false, false, fun _ => 0⟩

/-- The fields of the common header (R59). -/
def fields_hdr (c : Nat) : List Field :=
  [hdr_RATE_MHS c, hdr_STALE c, hdr_STATE c, hdr_ENABLE_PENDING c, hdr_DISABLE_PENDING c, hdr_RESET_PENDING c, hdr_BUSY c, hdr_FAULT_CAUSE c, hdr_ENABLE c, hdr_DRAIN c, hdr_RESET c, hdr_OWNER_CONTEXT c, hdr_ERR_STATUS c, hdr_ERR_MASK c, hdr_FIRST_BIT c, hdr_FIRST_INJECTED c] ++
  [hdr_FIRST_CONTEXT c, hdr_FIRST_VALID c, hdr_INJECT_BIT c, hdr_INJECT_COUNT c, hdr_INJECT_PENDING c, hdr_INJECT_GO c, hdr_STATE_CHANGE c, hdr_SNAPSHOT_DONE c, hdr_SPARE_SWITCHED c, hdr_CORRECTED_RECORD c, hdr_BLOCK_EVENTS c, hdr_IS_SPARE c, hdr_IN_SERVICE c, hdr_LOGICAL_INDEX c, hdr_SUB_TOTAL c, hdr_SUB_USED c] ++
  [hdr_TRIGGER c, hdr_CLEAR_ON_SNAPSHOT c, hdr_SNAP_BUSY c, hdr_SEQ c, hdr_ERR_COUNT c, hdr_ERR_FIRST_INFO c, hdr_SNAP0_LO c, hdr_SNAP0_HI c, hdr_SNAP1_LO c, hdr_SNAP1_HI c, hdr_SNAP2_LO c, hdr_SNAP2_HI c, hdr_SNAP3_LO c, hdr_SNAP3_HI c, hdr_SNAP_TICK_LO c, hdr_SNAP_TICK_HI c] ++
  [hdr_ERR_FIRST_TICK_LO c, hdr_ERR_FIRST_TICK_HI c]

/-- The fields of a glob page. -/
def fields_glob : List Field :=
  [glob_OP_REQUEST, glob_BOOST_ALLOW, glob_OP_EFFECTIVE, glob_LIMIT_CAUSE, glob_IN_TRANSITION, glob_DET_MODE_REQUEST, glob_DET_MODE_EFFECTIVE, glob_ARM, glob_ARMED, glob_ARM_TICK_LO, glob_ARM_TICK_HI, glob_SLIP_COUNT_LO, glob_SLIP_COUNT_HI, glob_SLIP_CP, glob_SLIP_PARTY, glob_SLIP_INSTANCE] ++
  [glob_TICK_LO, glob_TICK_HI, glob_BAD_ACCESS_COUNT, glob_MEDIA_MODE, glob_MEDIA_CAUSE, glob_TIME_SOURCE, glob_PUU_GRAIN_FORCED, glob_TEST_MODE, glob_DET_CHANGE_PENDING, glob_PS_EFFECTIVE, glob_PS_IN_TRANSITION, glob_TIME_SOURCE_REQUEST, glob_TEST_KEY, glob_TEST_MODE_REQUEST, glob_REJECT_CAUSE, glob_REJECT_COUNT] ++
  [glob_MEDIA_TICK_LO, glob_MEDIA_TICK_HI, glob_PLACE_ENABLE, glob_PROMOTE_MIN, glob_HEAT_DECAY_MS, glob_PROMOTE_MAX, glob_PROMOTIONS_LO, glob_PROMOTIONS_HI, glob_DROPS_LO, glob_DROPS_HI, glob_COPY_READ_BYTES_LO, glob_COPY_READ_BYTES_HI, glob_BOOT_STAGE, glob_RUN_SLOT, glob_PENDING_SLOT, glob_FALLBACK] ++
  [glob_RESET_CAUSE, glob_WDT_EXPIRIES, glob_SVN, glob_KEY_VALID, glob_ROOT_KEY, glob_ROOT_REVOKED, glob_BOOT_MS, glob_EFLASH_CORRECTED, glob_BAD_SECTORS, glob_UPDATE_STATE, glob_UPDATE_OWNER, glob_UPDATE_PROGRESS]

/-- The fields of a kettle page. -/
def fields_kettle : List Field :=
  [kettle_POWER_CAP, kettle_CAP_CEILING, kettle_CAP_UNMET, kettle_THERMAL_CEILING, kettle_INPUT_MW, kettle_INPUT_MV, kettle_INPUT_10MA, kettle_THERMAL_STATE, kettle_TRIP_SENSOR, kettle_COMPOSITE_K, kettle_SENSOR_SELECT, kettle_SENSOR_VALUE, kettle_SENSOR_CLASS, kettle_VALID, kettle_FAILED, kettle_TRIP_COUNT] ++
  [kettle_SHUTDOWN_COUNT]

/-- The fields of a time page. -/
def fields_time : List Field :=
  [time_DTC_NS, time_DTC_FRAC, time_DTC_SEC_LO, time_DTC_SEC_HI, time_FREQ_ADJ, time_SERVO_STATE, time_LOCKED, time_ACTIVE_PORT, time_PPS_OUT_MODE, time_PPS_IN_VALID, time_PTM_INTERVAL_MS, time_ERROR_BOUND_LO, time_ERROR_BOUND_HI, time_LAST_OFFSET, time_LAST_STEP, time_STEP_COUNT] ++
  [time_LOCK_LOSSES, time_HOLDOVER_TICK_LO, time_HOLDOVER_TICK_HI, time_PPS_IN_OFFSET]

/-- The fields of a front page. -/
def fields_front : List Field :=
  [front_WIDTH, front_RATE, front_FLIT, front_PTM_ENABLED, front_NARROWED, front_RETRAIN_COUNT, front_POOL_TOTAL, front_POOL_BUSY, front_SAT_POOL, front_SAT_CONTEXT, front_SUSTAINED_POOL, front_SUSTAINED_CONTEXT, front_OVERLOAD_CONTEXT, front_PS_ENTRY_COUNT, front_PS_WAKE_DURING_ENTRY, front_ABORT_CAUGHT] ++
  [front_ABORT_MISSED]

/-- The fields of a ctxm page. -/
def fields_ctxm : List Field :=
  [ctxm_OP, ctxm_FORCE, ctxm_CONTEXT, ctxm_GO, ctxm_BUSY, ctxm_DONE, ctxm_RESULT, ctxm_CONTEXT_OUT, ctxm_REQ_ADDR_LO, ctxm_REQ_ADDR_HI, ctxm_EXIST_LO, ctxm_EXIST_HI, ctxm_LOADED_LO, ctxm_LOADED_HI, ctxm_SUSPENDED_LO, ctxm_SUSPENDED_HI] ++
  [ctxm_FROZEN_LO, ctxm_FROZEN_HI, ctxm_SHARES_CLAIMED, ctxm_SHARES_LOADED, ctxm_CTX_SELECT, ctxm_STATE, ctxm_PAIRING, ctxm_PRIORITY, ctxm_FUNCTION, ctxm_FORCEABLE, ctxm_TEST, ctxm_QUANTUM_MS, ctxm_FORCE_AFTER_MS, ctxm_SAVE_PAGES, ctxm_LAST_YIELD, ctxm_REPLAYS] ++
  [ctxm_PREEMPTS_NORMAL, ctxm_PREEMPTS_FORCED, ctxm_SEM_SELECT, ctxm_SEM_VALUE, ctxm_SEM_OWNER, ctxm_OWNER_PREEMPTED, ctxm_SWITCH_CONTEXT, ctxm_SWITCH_KIND, ctxm_SWITCH_US]

/-- The fields of a rec page. -/
def fields_rec : List Field :=
  [rec_NEXT_INDEX, rec_FROZEN, rec_FREEZE_CAUSE, rec_SECOND_CAUSE, rec_SEQ_NEXT, rec_FREEZE_TICK_LO, rec_FREEZE_TICK_HI, rec_SLOT_A, rec_SLOT_B, rec_RECORD_SEQ_A, rec_RECORD_SEQ_B, rec_DROPPED_LO, rec_DROPPED_HI, rec_POST_FREEZE, rec_HOST_FREEZE, rec_UNFREEZE]

/-- The fields of a hob page. -/
def fields_hob : List Field :=
  [hob_HOB, hob_SEM_FIRST, hob_SRAM_MV, hob_TASKS_LOADED]

/-- The fields of a grid page. -/
def fields_grid : List Field :=
  [grid_PART_MODE, grid_REGIONS, grid_SPARE_PENDING, grid_SELF_CHECK_BUSY, grid_REGION0_OWNER, grid_REGION1_OWNER, grid_REGION2_OWNER, grid_REGION3_OWNER, grid_REGION_STATE, grid_TILE_STATE, grid_SHADOW_FULL, grid_WEIGHTS_VALID, grid_BAD_ROW0, grid_BAD_ROW1, grid_BAD_ROW2, grid_BAD_ROW3] ++
  [grid_BAD_COL0, grid_BAD_COL1, grid_BAD_COL2, grid_BAD_COL3, grid_SELF_CHECK_GO, grid_SELF_CHECK_REGION, grid_SELF_CHECK_DONE, grid_SELF_CHECK_PASS, grid_SELF_CHECK_IS_ROW, grid_SELF_CHECK_WHERE]

/-- The fields of a ladle page. -/
def fields_ladle : List Field :=
  [ladle_MOVE_ACTIVE, ladle_HALTED, ladle_WAIT_CAUSE, ladle_SRC_KIND, ladle_DST_KIND, ladle_DESC_INDEX, ladle_QUEUED, ladle_BYTES_LEFT_LO, ladle_BYTES_LEFT_HI, ladle_HALT_ADDR_LO, ladle_HALT_ADDR_HI, ladle_HALT_KIND]

/-- The fields of a whisk page. -/
def fields_whisk : List Field :=
  [whisk_ATTACH, whisk_ROT, whisk_SMOOTH, whisk_SIGNS, whisk_TABLES_LOADED, whisk_GRIDDLE, whisk_REGION, whisk_VLEN, whisk_IN_FMT, whisk_OUT_FMT, whisk_ROUND, whisk_Z_OUT, whisk_SR_SEED_LO, whisk_SR_SEED_HI, whisk_SR_COUNT]

/-- The fields of a drain page. -/
def fields_drain : List Field :=
  [drain_DRAIN_RATE, drain_PIPE_DEPTH, drain_TABLE_STATE, drain_DRAIN_QUEUE, drain_ACC_EXP 0, drain_ACC_EXP 1, drain_ACC_EXP 2, drain_ACC_EXP 3, drain_PRE_FMT 0, drain_PRE_FMT 1, drain_PRE_FMT 2, drain_PRE_FMT 3, drain_A_ZERO 0, drain_A_ZERO 1, drain_A_ZERO 2, drain_A_ZERO 3] ++
  [drain_DOMAIN0 0, drain_DOMAIN0 1, drain_DOMAIN0 2, drain_DOMAIN0 3, drain_DOMAIN1 0, drain_DOMAIN1 1, drain_DOMAIN1 2, drain_DOMAIN1 3, drain_ACC_VALID 0, drain_ACC_VALID 1, drain_ACC_VALID 2, drain_ACC_VALID 3, drain_OUT_FMT 0, drain_OUT_FMT 1, drain_OUT_FMT 2, drain_OUT_FMT 3] ++
  [drain_ROUND 0, drain_ROUND 1, drain_ROUND 2, drain_ROUND 3, drain_ACT 0, drain_ACT 1, drain_ACT 2, drain_ACT 3, drain_CH_TABLE 0, drain_CH_TABLE 1, drain_CH_TABLE 2, drain_CH_TABLE 3, drain_ROWSUM 0, drain_ROWSUM 1, drain_ROWSUM 2, drain_ROWSUM 3] ++
  [drain_ROWSCALE 0, drain_ROWSCALE 1, drain_ROWSCALE 2, drain_ROWSCALE 3, drain_NF_FAULT 0, drain_NF_FAULT 1, drain_NF_FAULT 2, drain_NF_FAULT 3, drain_TABLE_SLOT 0, drain_TABLE_SLOT 1, drain_TABLE_SLOT 2, drain_TABLE_SLOT 3, drain_DRAIN_VALID 0, drain_DRAIN_VALID 1, drain_DRAIN_VALID 2, drain_DRAIN_VALID 3] ++
  [drain_T_SHIFT 0, drain_T_SHIFT 1, drain_T_SHIFT 2, drain_T_SHIFT 3, drain_Z_OUT 0, drain_Z_OUT 1, drain_Z_OUT 2, drain_Z_OUT 3, drain_SR_SEED_LO, drain_SR_SEED_HI, drain_SR_REGION, drain_SR_TILE, drain_SR_COUNT]

/-- The fields of a sb page. -/
def fields_sb : List Field :=
  [sb_GROUPS_TOTAL, sb_GROUPS_USABLE, sb_RETIRED_MAP0, sb_RETIRED_MAP1, sb_PROGRAM_MAP0, sb_PROGRAM_MAP1, sb_READ_BOUND0, sb_READ_BOUND1, sb_WRITE_BOUND0, sb_WRITE_BOUND1, sb_GROUP_OWNER 0, sb_GROUP_OWNER 1, sb_GROUP_OWNER 2, sb_GROUP_OWNER 3, sb_GROUP_OWNER 4, sb_GROUP_OWNER 5] ++
  [sb_GROUP_OWNER 6, sb_GROUP_OWNER 7, sb_GROUP_OWNER 8, sb_GROUP_OWNER 9, sb_GROUP_OWNER 10, sb_GROUP_OWNER 11, sb_GROUP_OWNER 12, sb_GROUP_OWNER 13, sb_GROUP_OWNER 14, sb_GROUP_OWNER 15, sb_GROUP_OWNER 16, sb_GROUP_OWNER 17, sb_GROUP_OWNER 18, sb_GROUP_OWNER 19, sb_GROUP_OWNER 20, sb_GROUP_OWNER 21] ++
  [sb_GROUP_OWNER 22, sb_GROUP_OWNER 23, sb_GROUP_OWNER 24, sb_GROUP_OWNER 25, sb_GROUP_OWNER 26, sb_GROUP_OWNER 27, sb_GROUP_OWNER 28, sb_GROUP_OWNER 29, sb_GROUP_OWNER 30, sb_GROUP_OWNER 31, sb_GROUP_OWNER 32, sb_GROUP_OWNER 33, sb_GROUP_OWNER 34, sb_GROUP_OWNER 35, sb_GROUP_OWNER 36, sb_GROUP_OWNER 37] ++
  [sb_GROUP_OWNER 38, sb_GROUP_OWNER 39, sb_GROUP_OWNER 40, sb_GROUP_OWNER 41, sb_GROUP_OWNER 42, sb_GROUP_OWNER 43, sb_GROUP_OWNER 44, sb_GROUP_OWNER 45, sb_GROUP_OWNER 46, sb_GROUP_OWNER 47, sb_REMAP_USED 0, sb_REMAP_USED 1, sb_REMAP_USED 2, sb_REMAP_USED 3, sb_REMAP_USED 4, sb_REMAP_USED 5] ++
  [sb_REMAP_USED 6, sb_REMAP_USED 7, sb_REMAP_USED 8, sb_REMAP_USED 9, sb_REMAP_USED 10, sb_REMAP_USED 11, sb_REMAP_USED 12, sb_REMAP_USED 13, sb_REMAP_USED 14, sb_REMAP_USED 15, sb_REMAP_USED 16, sb_REMAP_USED 17, sb_REMAP_USED 18, sb_REMAP_USED 19, sb_REMAP_USED 20, sb_REMAP_USED 21] ++
  [sb_REMAP_USED 22, sb_REMAP_USED 23, sb_REMAP_USED 24, sb_REMAP_USED 25, sb_REMAP_USED 26, sb_REMAP_USED 27, sb_REMAP_USED 28, sb_REMAP_USED 29, sb_REMAP_USED 30, sb_REMAP_USED 31, sb_REMAP_USED 32, sb_REMAP_USED 33, sb_REMAP_USED 34, sb_REMAP_USED 35, sb_REMAP_USED 36, sb_REMAP_USED 37] ++
  [sb_REMAP_USED 38, sb_REMAP_USED 39, sb_REMAP_USED 40, sb_REMAP_USED 41, sb_REMAP_USED 42, sb_REMAP_USED 43, sb_REMAP_USED 44, sb_REMAP_USED 45, sb_REMAP_USED 46, sb_REMAP_USED 47, sb_LAST_REMAP_LINE, sb_LAST_REMAP_GROUP, sb_LAST_REMAP_WORD]

/-- The fields of a hbm page. -/
def fields_hbm : List Field :=
  [hbm_STACK, hbm_SELF_REFRESH, hbm_PAGES_TOTAL, hbm_PAGES_USABLE, hbm_PAGES_DEVICE, hbm_PAGES_SLM, hbm_PAGES_CONTEXT, hbm_PAGES_WINDOW, hbm_PAGES_PLACED, hbm_PAGES_FREE, hbm_PC_RETIRED_LO, hbm_PC_RETIRED_HI, hbm_PPR_TOTAL, hbm_PPR_USED, hbm_PAGES_RETIRED, hbm_REPAIR_PENDING] ++
  [hbm_LATE_CONTEXT, hbm_LATE_CAUSE, hbm_SLOTS_TOTAL, hbm_SLOTS_LIVE, hbm_SLOTS_DECLARED, hbm_STEPS_LO, hbm_STEPS_HI, hbm_JOIN_DEFERRED_LO, hbm_JOIN_DEFERRED_HI, hbm_JOIN_REJECTED, hbm_LAST_CONTEXT]

/-- The fields of a merge page. -/
def fields_merge : List Field :=
  [merge_MODE, merge_ACTIVE, merge_QUERY, merge_DESC_INDEX, merge_QUEUED, merge_SHORT_RESULTS, merge_VISITED_FAULTS, merge_DOM_NSID, merge_DOM_TIER_LO, merge_DOM_TIER_HI, merge_DOM_VALID, merge_REPAIR, merge_WRITER_BUSY, merge_NEIGH_COL, merge_WRITER, merge_EPOCH_LO] ++
  [merge_EPOCH_HI, merge_VISIBLE_LO, merge_VISIBLE_HI, merge_PENDING_IUS, merge_RETAINED_IUS, merge_REPAIRS_PENDING, merge_DOMAINS_USED, merge_EPOCHS_HELD]

/-- The fields of a puu page. -/
def fields_puu : List Field :=
  [puu_STEP_ACTIVE, puu_GRAIN, puu_PASS, puu_TENSOR, puu_DESC_INDEX, puu_RECORD, puu_STEPS_LO, puu_STEPS_HI, puu_LAYER_STEPS_LO, puu_LAYER_STEPS_HI, puu_FREEZE_SKIP_LO, puu_FREEZE_SKIP_HI, puu_SATURATED, puu_STATS_USED, puu_SELF_TEST_GO, puu_SELF_TEST_BUSY] ++
  [puu_SELF_TEST_DONE, puu_SELF_TEST_PASS, puu_SELF_TEST_RUNS, puu_SELF_TEST_US, puu_FROZEN_GRANULES]

/-- The fields of a hub page. -/
def fields_hub : List Field :=
  [hub_LINK_UP, hub_SPARE_USED, hub_DEGRADED, hub_UNREACHABLE, hub_RETRAINING, hub_LINK_SELECT, hub_LANE_STATE, hub_REPLAYS, hub_RETRAINS, hub_PROXY_TIMEOUTS, hub_PROXY_DROPPED, hub_LAST_RETRAIN_US]

/-- The fields of a col page. -/
def fields_col : List Field :=
  [col_CH_ON, col_CH_RETIRED, col_DIE_RETIRED, col_LANES_ON, col_LANES_RETIRED, col_LINK_LANES, col_SPARE_LANE_USED, col_TSLOT_VALID_LO, col_TSLOT_VALID_HI, col_TSLOT_CONTEXT, col_FSLOTS_VALID, col_KEY_SLOTS, col_WORK_KIND, col_WORK_CONTEXT, col_WORK_DESC, col_REMAP_USED] ++
  [col_LZ4_ERRORS, col_LINK_RETRAINS, col_NAND_READ_LO, col_NAND_READ_HI]

/-- The fields of a ftl page. -/
def fields_ftl : List Field :=
  [ftl_REBUILD_STATE, ftl_CLEAN_LAST, ftl_USER_TIER_PAGES, ftl_MARGIN_PAGES, ftl_FLOOR_PAGES, ftl_RESERVE_PAGES, ftl_PACKAGES_RETIRED, ftl_EVACUATING, ftl_EVAC_PACKAGE, ftl_SHEDDING, ftl_FREE_SB_MIN, ftl_FREE_SB_PACKAGE, ftl_SEQ_LO, ftl_SEQ_HI, ftl_FLUSH_TICK_LO, ftl_FLUSH_TICK_HI] ++
  [ftl_STAGING_USED, ftl_STAGING_WAITS, ftl_SUSPECT_IUS, ftl_LOST_IUS, ftl_GROWN_BAD, ftl_ERASE_MAX, ftl_ERASE_AVG, ftl_REBUILD_MS, ftl_SANITIZE_PROGRESS, ftl_SANITIZE_ACTION, ftl_VERSION_ENTRIES]

/-- The fields of a snilo page. -/
def fields_snilo : List Field :=
  [snilo_SLED_ID, snilo_READY, snilo_OP, snilo_GO, snilo_FIRST_ENTRY, snilo_ENTRY_COUNT, snilo_SRC_ADDR_LO, snilo_SRC_ADDR_HI, snilo_BUSY, snilo_DONE, snilo_RESULT, snilo_BAD_ENTRY, snilo_RTO_US, snilo_REMOTE_TIMEOUT_MS, snilo_EXPORTS_VALID, snilo_CREDITS_FREE] ++
  [snilo_SERVE_QUEUE, snilo_RETRANSMITS, snilo_NAKS_RECEIVED, snilo_REQ_DROPPED, snilo_LAST_NAK_SLED, snilo_LAST_NAK_REASON, snilo_RTT_US]

/-- The fields of a eth page. -/
def fields_eth : List Field :=
  [eth_LINK_UP, eth_SPEED, eth_MEDIUM, eth_LANES_RETIRED, eth_PORT_RETIRED, eth_PTP_ROLE, eth_PTP_QUALIFIED, eth_MTU, eth_VLAN_ID, eth_VLAN_EN, eth_PFC_EN, eth_PTP_EN, eth_PTP_TRANSPORT, eth_DELAY_MECH, eth_PTP_PREF, eth_PFC_PRIO] ++
  [eth_DOMAIN, eth_ANNOUNCE_TIMEOUT, eth_PDELAY_LOG, eth_MAC_LO, eth_MAC_HI, eth_GM_ID_LO, eth_GM_ID_HI, eth_MEAN_PATH_DELAY, eth_PORT_OFFSET, eth_FRAMES_DISCARDED]

/-- The block-specific fields of a page class (R55). -/
def blockFields (c : Nat) : List Field :=
  if c = 0x0 then fields_glob else
  if c = 0x1 then fields_kettle else
  if c = 0x2 then fields_time else
  if c = 0x3 then fields_front else
  if c = 0x4 then fields_ctxm else
  if c = 0x5 then fields_rec else
  if c = 0x10 then fields_hob else
  if c = 0x11 then fields_grid else
  if c = 0x12 then fields_ladle else
  if c = 0x13 then fields_whisk else
  if c = 0x14 then fields_drain else
  if c = 0x15 then fields_sb else
  if c = 0x16 then fields_hbm else
  if c = 0x17 then fields_merge else
  if c = 0x18 then fields_puu else
  if c = 0x20 then fields_hub else
  if c = 0x21 then fields_col else
  if c = 0x22 then fields_ftl else
  if c = 0x30 then fields_snilo else
  if c = 0x31 then fields_eth else
  []

/-- Every field of a page class. -/
def fieldsOf (c : Nat) : List Field := fields_hdr c ++ blockFields c

end Sys2Proof.Machine
end

