-- ==== Sys2Proof/Machine/State.lean ====
section
/-!
DEFINITION. The state of the block: plain data. Register fields are held in one store keyed by field position
(Machine/Regs.lean); state that the spec names outside the register tables stands in the groups below, one per part
of the device.
-/

namespace Sys2Proof.Machine

/-- The variants (R2). -/
inductive Variant where
  | x | s | c
deriving DecidableEq, Repr

/-- A recorder entry (R495): tick of detection, class and instance of the source page, code, payload bytes, context
(0xFF none), delivery sequence number and flags. -/
structure RecEntry where
  tick : Nat
  cls : Nat
  inst : Nat
  code : Nat
  payload : List Nat
  ctx : Nat
  seq : Nat
  injected : Bool
  safety : Bool
  late : Bool
deriving DecidableEq, Repr

/-- The module's boundary and supplies (02_self_timed_logic.md, 21_physical_and_electrical.md). -/
structure Power where
  /-- PRSNT_B# reads low, and has for 100 ms (R562). -/
  seated : Bool
  /-- SLED_ID as the Kettle last sampled its straps (R564). -/
  straps : Nat
  /-- The input switch is closed (R562). -/
  switchClosed : Bool
  /-- The last start-up test of the hold-up bank failed (R568). -/
  bankFailed : Bool
  /-- Kettle running (R519). -/
  kettleUp : Bool
  /-- Control plane released (step 6 of Table 19-7). -/
  controlUp : Bool
  /-- A brown-out lasts: compute rails cut, planes held in reset (R567). -/
  brownOut : Bool
  /-- A thermal shutdown lasts (R488). -/
  thermalOff : Bool
  /-- PERST# asserted. -/
  perst : Bool
  /-- STATUS_LED pattern in force: row of Table 21-7, 0 off; the tick at which it began (R570). -/
  led : Nat
  ledSince : Nat
  /-- OP0 is held until this tick after brown-out recovery (R82). -/
  opHoldUntil : Option Nat
  /-- Operating point a running ramp heads for (R38). -/
  rampTo : Option Nat
  /-- Tick at which the running ramp began, and the setpoints of domains 0 to 6 in mV at that tick (R38). -/
  rampSince : Nat
  rampFrom : List Nat
  /-- Domains that are up, with the tick at which each powered up (R40, R52). -/
  domUp : Store Nat
  /-- Input-power samples of sensor 202 in mW, newest first, at most 15,259 (R37, R491). -/
  inputMw : List Nat
  /-- Every Hob junction sensor read below 85 °C at the last sample (R37). -/
  hobCool : Bool
  /-- Tick since which every OP5 condition has held; none while one fails (R37). -/
  op5Since : Option Nat
  /-- A thermal trip holds (R487); the tick since which every sensor has read 10 °C below its trip limit (R487, R488). -/
  trip : Bool
  clearSince : Option Nat
deriving DecidableEq, Repr

/-- A request that waits at a crossing point: instance (CP1 the Hob, CP2 the link, CP3 64 × stack + pseudo-channel), party in the
order of Table 02-6, tick of its presentation, tick at which its due frame starts, context of its transfer (64 none), serial number of
the issue of its descriptor, number of the group of requests presented at the same instant (0: alone), whether a request of that group has
won against it (R45), and the parties granted there while it has waited (R43, R44, R47). -/
structure ArbReq where
  cp : Nat
  inst : Nat
  party : Nat
  tick : Nat
  due : Nat
  ctx : Nat
  ser : Nat
  batch : Nat
  owed : Bool
  passed : List Nat
deriving DecidableEq, Repr

/-- Self-timed arbitration state (R43 to R48). -/
structure Arb where
  /-- Requests that wait, oldest first. -/
  waiting : List ArbReq
  /-- Party granted last at each crossing-point instance, keyed 4,096 × point + instance, and the tick of that grant. -/
  lastGrant : Store (Nat × Nat)
  /-- The arm tick of a run scheduled by ARM and not yet reached (R48). -/
  armAt : Option Nat
  /-- Groups of simultaneous requests numbered so far (R45). -/
  batches : Nat
  /-- Tick of the last completion of each compute queue, by queue key (R47). -/
  done : Store Nat
deriving DecidableEq, Repr

/-- The register function: what its last access returned and the latches of R8 and R75. -/
structure RegFn where
  /-- Data of the last read (32-bit words, low word first); whether the last access was answered with completer abort (R102). -/
  readData : List Nat
  aborted : Bool
  /-- HI latched by the last read of LO, keyed by the LO word's position (R8). -/
  latch : Store Nat
  /-- LO most recently written of a RW pair, keyed by the LO word's position (R75). -/
  pairLo : Store Nat
  /-- Live 64-bit counters of the pages, keyed 4 × (256 × class + instance) + n (R73). -/
  live : Store Nat
  /-- Pages whose snapshot trigger waits for the next tick boundary, by 256 × class + instance, with the tick of the trigger (R73). -/
  snapWait : Store Nat
  /-- Tick boundary of a device-wide capture that waits (R74). -/
  snapAll : Option Nat
  /-- Armed injections: page, bit, events left (R72). -/
  inject : List (Nat × Nat × Nat)
  /-- Rate-monitor windows with no count so far, keyed by page (R39). -/
  emptyWindows : Store Nat
  /-- Tick at which each monitor's last window ended, keyed by page (R39). -/
  windowAt : Store Nat
  /-- Tick at which each page in STARTING entered it, keyed by page (R63). -/
  startTick : Store Nat
  /-- Colander shadows whose STATE reads FAULTED (R77). -/
  shadowFaulted : List Nat
deriving DecidableEq, Repr

/-- Counted work and energy of a span (R493): MACs of the classes 8×8, 4×8 and BF16, NAND and link bytes, measured energy in fJ, energy at the
54 V input in units of 0.1 nJ, whether a rail monitor failed or recalibrated in it, and its samples. -/
structure FloorSums where
  mac8 : Nat
  mac4 : Nat
  macB : Nat
  nand : Nat
  link : Nat
  measured : Nat
  input : Nat
  invalid : Bool
deriving DecidableEq, Repr

/-- A line of the Floor Ratio log (Table 18-5): KIND, the function that owns the context of the line, flags [2] OPEN, [3] TORN_DOWN and [4] TEST, first and
last tick, sums. -/
structure FloorLine where
  kind : Nat
  owner : Nat
  isOpen : Bool
  torn : Bool
  test : Bool
  start : Nat
  stop : Nat
  sums : FloorSums
deriving DecidableEq, Repr

/-- The Kettle's recorder, sensors and power cap (18_management_plane.md). -/
structure Kettle where
  /-- Entries held in their pages, not yet delivered (R475, R497), in order of detection. -/
  waiting : List RecEntry
  /-- Drop counts of CORRECTED entries per page, and the tick of the first drop counted (R497). -/
  drops : Store Nat
  dropTick : Store Nat
  /-- The recorder ring by index (R500). -/
  ring : Store RecEntry
  /-- Tick and Device Time Counter at the last freeze (Table 18-9). -/
  freezeDtc : Nat
  /-- A persisted freeze whose record is not yet written (R499); a freeze since the last start-up was not persisted. -/
  persistWait : Bool
  notPersisted : Bool
  /-- The persisted records by slot (0 A, 1 B): the ring by index, and the header's values in the order of Table 18-9 (R499). -/
  records : Store (Store RecEntry)
  recordHdr : Store (List Nat)
  /-- Kettle start-ups in the module's life (Table 18-9). -/
  starts : Nat
  /-- Rate in M hs/s that the Kettle takes for each block, keyed by page: its own monitor's, or the mean of the other monitors of its domain
  while it is STALE (R39). -/
  rates : Store Nat
  /-- Last sample of each sensor; sensors marked FAILED (R484, R485). -/
  sensors : Store Int
  failed : List Nat
  /-- Rail monitors that recalibrate, with the tick at which they end; last idle measurement of each rail in 100 mW (R27, R485). -/
  recal : Store Nat
  railIdle : Store Nat
  /-- Power-cap window (R491): sum of its input power samples in mW and their number, tick it began, tick the ceiling last changed. -/
  capSum : Nat
  capCount : Nat
  capSince : Nat
  capChanged : Nat
  /-- SMART counters kept across resets (R476). -/
  smart : Store Nat
  /-- MCTP endpoint identifier; 0 until assigned (R481). -/
  eid : Nat
  /-- Work counted for each context (64: background; 65: contexts whose number was reused before their last work was sampled): 256 × context + item; items 0 to 15 MACs by format code, 16 B_nand in bytes, 17 B_link in
  bytes (R26, R28); what the last sample found there. -/
  work : Store Nat
  workSeen : Store Nat
  /-- Floor Ratio lines by number; samples of the sliding window, newest first; contexts created since the last sample; Get Log Page commands that
  wait for the next sample boundary, whether they open a host interval, and the offset and bytes they read (R493, R494); tick and Device
  Time Counter of the last sample boundary. -/
  lines : Store FloorLine
  /-- The floor constants read from the factory-calibration row at start-up, in fJ: 8×8, 4×8, a NAND byte, a link byte (R25). -/
  consts : List Nat
  window : List FloorSums
  fresh : List Nat
  floorWait : List (CmdId × Bool × Nat × Nat)
  sampleTick : Nat
  sampleDtc : Nat
  /-- Responses of the management endpoint that NVMe-MI Receive has not fetched, oldest first; answers sent over MCTP. -/
  miOut : List (List Byte)
  mctpOut : List (List Byte)
  /-- Terminus identifier that SetTID gave; SMBus frequency in kHz and MCTP transmission unit in bytes that Configuration Set gave (R481). -/
  tid : Nat
  smbusKhz : Nat
  mtu : Nat
deriving DecidableEq, Repr

/-- A firmware slot (R518): event bits set ([0] WRITING … [8] SUPERSEDED), generation, SVN, root key, revision and
whether its package verifies. -/
structure FwSlot where
  events : Nat
  gen : Nat
  svn : Nat
  root : Nat
  revision : Nat
  valid : Bool
  stateComplete : Bool
deriving DecidableEq, Repr

/-- Boot, firmware and watchdog (19_embedded_flash_and_boot.md). -/
structure Boot where
  slotA : FwSlot
  slotB : FwSlot
  /-- ROM fault and ROM recovery (R520). -/
  romFault : Bool
  romRecovery : Bool
  /-- Tick at which the running start-up began. -/
  startTick : Nat
  /-- Watchdog: tick of expiry (R526). -/
  wdtAt : Nat
  /-- Tick of the last report of each heartbeat source (R526). -/
  beats : Store Nat
  /-- Update in progress: owner path is UPDATE_OWNER; staged pieces (offset, length) and package image (R521). -/
  pieces : List (Nat × Nat)
  image : Mem
  /-- Slot a PLDM update writes, and the bytes received (R524). -/
  pldmSlot : Option Nat
  pldmBytes : Nat
  /-- Security-version counter; revoked firmware root keys, bit by key; watchdog expiries in the module's life (R516, Table 19-9). -/
  svn : Nat
  rootRevoked : Nat
  wdtExpiries : Nat
  /-- Slot that runs (0 none, 1 A, 2 B), and whether it was not the first pick (R518); a Kettle restart that is due, by its RESET_CAUSE (0
  none). -/
  runSlot : Nat
  fallback : Bool
  restart : Nat
  /-- Program-signing keys: index to (generation, public key); the bits cleared in each revocation value (R525). -/
  keys : Store (Nat × Nat)
  keyRevoked : Store Nat
deriving DecidableEq, Repr

/-- The embedded flash (R505 to R515). -/
structure EFlash where
  /-- Words that do not read erased, by word index; ECC words and bit-clear copies alike. -/
  words : Store Nat
  /-- Begins and completed erases of each sector since the last table compaction (R512). -/
  begun : Store Nat
  ended : Store Nat
  /-- Table compactions made (R512), and whether the routine has stopped compacting. -/
  compactions : Nat
  worn : Bool
  /-- Bad-sector map and consecutive verify failures (R513). -/
  bad : List Nat
  verifyFails : Store Nat
  /-- Configuration store: records by key in force, words used of the active half, active half, next sequence
  number (R514). -/
  config : Store Nat
  configUsed : Nat
  configHalf : Nat
  configSeq : Nat
  /-- Answer of the last ROM request: status, pulses, flags, failing word, data (Table 19-4). -/
  status : Nat
  pulses : Nat
  outFlags : Nat
  failWord : Nat
  data : List Nat
  /-- Retirement and spare records: page class, instance, sub-unit (R465). -/
  retirements : List (Nat × Nat × Nat)
  /-- Retirements classified during a brown-out, which wait for the next start-up (Table 17-8): page class, instance, sub-unit, tick. -/
  held : List (Nat × Nat × Nat × Nat)
deriving DecidableEq, Repr

/-- A completion posted, or held for room in its queue: command, status type and code, Dwords 0 and 1, and the data
the command returned to the host. -/
structure Cpl where
  cmd : CmdId
  sct : Nat
  sc : Nat
  dw0 : Nat
  dw1 : Nat
  data : List Byte
deriving DecidableEq, Repr

/-- What a fetched Execute Program carries (R146). -/
structure ExecCmd where
  cmd : CmdId
  slot : Nat
  timeLimit : Nat
  argLen : Nat
  /-- Segments of host memory that its data pointer names: address and bytes (R146). -/
  dptr : List (Nat × Nat)
  mrs : Nat
  arg : List Byte
deriving DecidableEq, Repr

/-- A command of a compute queue that runs no descriptors (R140 to R142): Load Program with slot, offset and data; Program
Activation Management with slot and direction; Memory Range Set Management with set and (namespace, offset, length); or a command that the queue does not accept, with the status that it completes with in
its turn (R144). -/
inductive QueueOp where
  | load (slot off : Nat) (data : List Byte)
  | activation (slot : Nat) (on : Bool)
  | ranges (set : Nat) (rs : List (Nat × Nat × Nat))
  | invalid (sct sc : Nat)
deriving DecidableEq, Repr

/-- The class of an intake slot (R115). -/
inductive IntakeKind where
  | admin
  | nvm
  | slm
  | compute (ctx : Nat)
deriving DecidableEq, Repr

/-- A command that holds an intake slot (R115): fetched and not completed; `begun` once its media or memory operation
has begun, or its task has started. -/
structure Intake where
  cmd : CmdId
  kind : IntakeKind
  begun : Bool
  exec : Option ExecCmd
  op : Option QueueOp
  /-- A write that has waited for staging slots (Table 16-10). -/
  waited : Bool := false
  /-- Tick at which the command was fetched (R47). -/
  tick : Nat := 0
  /-- The command has completed, and its entry waits for room in its queue (R114, R115). -/
  done : Bool := false
deriving DecidableEq, Repr

/-- A submission queue (R114, R118, R143): entries, completion queue, priority class, bound context, and the
commands made visible by the doorbell and not yet fetched. -/
structure Sq where
  size : Nat
  cq : Nat
  prio : Nat
  ctx : Option Nat
  tail : Nat
  head : Nat
deriving DecidableEq, Repr

/-- A completion queue (R114): entries, interrupt enable and vector, entries posted and not yet freed. -/
structure Cq where
  size : Nat
  ien : Bool
  iv : Nat
  used : Nat
deriving DecidableEq, Repr

/-- An Error Information entry (R131): error count, queue and command, status, LBA and namespace (0 where it names
none). -/
structure ErrEntry where
  count : Nat
  sq : Nat
  cid : Nat
  status : Nat
  lba : Nat
  ns : Nat
deriving DecidableEq, Repr

/-- An NVMe controller, one per function (R104, R105). -/
structure Ctrl where
  en : Bool
  rdy : Bool
  crime : Bool
  /-- CC.AMS: weighted round robin with urgent. -/
  wrr : Bool
  /-- CSTS.SHST: 0 normal, 1 in progress, 2 complete. -/
  shst : Nat
  /-- Tick of the shutdown notification. -/
  shutTick : Nat
  /-- Asynchronous Event Requests outstanding, oldest first; events kept; events posted and not re-armed, as
  (type, information, context of a context-frozen event) (R133). -/
  aerReqs : List CmdId
  aerKept : List (Nat × Nat × Nat)
  aerSent : List (Nat × Nat × Nat)
  /-- Features by identifier (R116); an unlisted feature holds its default. -/
  feat : Store Nat
  /-- Aborts outstanding: the Abort, its target and the tick it was fetched (R122). -/
  aborts : List (CmdId × CmdId × Nat)
  /-- Error Information entries, newest first, at most 64 (R131). -/
  errors : List ErrEntry
  /-- Namespaces of the Changed Namespace List (R131). -/
  changed : List Nat
deriving DecidableEq, Repr

/-- The kinds of namespace (R108). -/
inductive NsKind where
  | nvm
  | slm
deriving DecidableEq, Repr

/-- A namespace (R108 to R111, R431): size in 2 MiB units, LBA format, placement set, functions it is attached to,
and, for SLM, its pages in HBM (stack × 24,576 + page), in order. -/
structure Namespace where
  kind : NsKind
  units : Nat
  lbaf : Nat
  pset : Nat
  attached : List Nat
  pages : List Nat
  /-- Opal locking of the Global Range: read locked, write locked (R457, R458). -/
  rdLocked : Bool
  wrLocked : Bool
deriving DecidableEq, Repr

/-- PCIe configuration state of a function (R53, R101): BAR0, Memory Space Enable and Bus Master Enable, ASPM L1 enabled, and the codes of Max Payload
Size and Max Read Request Size. -/
structure PciFn where
  bar0 : Nat
  memory : Bool
  master : Bool
  l1 : Bool
  payload : Nat
  readReq : Nat
deriving DecidableEq, Repr

/-- The host front end (05_host_interface.md). -/
structure HostIf where
  ctrls : Store Ctrl
  /-- Queues keyed 65,536 × function + queue identifier. -/
  sqs : Store Sq
  cqs : Store Cq
  intake : List Intake
  /-- Completions posted and not yet freed by the host, oldest first; completions held for a full queue. -/
  cpls : List Cpl
  held : List Cpl
  /-- MSI-X interrupts raised, oldest first, as (function, vector); completions aggregated per 65,536 × function +
  vector and the tick of the first (R116). -/
  irqs : List (Nat × Nat)
  aggr : Store Nat
  aggrTick : Store Nat
  namespaces : Store Namespace
  /-- Virtual functions enabled (functions 1 to `numVfs`, R104), and the configuration state of each function, 33 the register function (R53). -/
  numVfs : Nat
  pci : Store PciFn
  /-- How the last configuration request was answered: 0 completed, 1 Request Retry Status (R102). -/
  cfgStatus : Nat
  /-- Context quota of each virtual function (R117). -/
  quota : Store Nat
  /-- Round-robin positions of fetch arbitration: function served last; queue served last of each class of a function, keyed 8 × function + class
  (R118). -/
  lastFn : Nat
  lastSq : Store Nat
  /-- Turn of the weighted classes: fetches left per function and class, keyed 4 × function + class. -/
  credit : Store Nat
  burst : Nat
  /-- Tick since which the pool and each context have been saturated or unsaturated (R121): key 64 the pool. -/
  satSince : Store Nat
  unsatSince : Store Nat
  /-- Classes in sustained overload: contexts, 64 the pool. -/
  sustained : List Nat
  /-- Link training attempts since PERST# that settled below 32 GT/s; the link serves configuration only (R102). -/
  lowTries : Nat
  belowMin : Bool
  /-- The link has trained and is up; training has settled since PERST#, and at which width (R101 to R103). -/
  linkUp : Bool
  trained : Bool
  width : Nat
  /-- PCIe lanes retired (R103). -/
  lanesRetired : List Nat
  /-- Last operational power state; non-operational state requested; entry under way; doorbell during it (R87,
  R128). -/
  psLast : Nat
  psTarget : Option Nat
  psEntering : Bool
  psExiting : Bool
  psWake : Bool
  /-- Tick of the last completion on any queue, from which APST counts (R128). -/
  idleSince : Nat
  /-- Host memory as commands and moves have written it, by bus address. -/
  mem : Mem
deriving DecidableEq, Repr

/-- A program slot (R136, R140): owner function, bytes of the image received, whether the image is whole and was
accepted, whether it is active, generation of the key under which it was accepted (R525). -/
structure ProgSlot where
  owner : Nat
  bytes : List Byte
  complete : Bool
  active : Bool
  gen : Nat := 0
deriving DecidableEq, Repr

/-- The task registers of one Hob sequencer (R149, Table 06-4), with the iteration indexes of the four loop levels
(R230, R288). -/
structure TaskRegs where
  slot : Nat
  progBase : Nat
  issueIndex : Nat
  lastYield : Nat
  loops : List Nat
  loopActive : List Bool
  loopFrom : List Nat
  iters : List Nat
  heldSem : Nat
  result : Nat
  flags : Nat
  startTick : Nat
  paceOffset : Nat
  base : List Nat
  argBase : Nat
  timeLimit : Nat
  mrs : Nat
  seed : Nat
deriving DecidableEq, Repr

/-- A descriptor issued and not yet completed (R153): Hob, index, class, serial number of its issue in the task, kind
of its destination (Table 09-2; 15 none), the 128-bit descriptor, its due tick in LOCKSTEP (R152), and the tick of its last grant at
each arbiter instance, by 4,096 × crossing point + instance (R47). -/
structure Issued where
  hob : Nat
  index : Nat
  cls : Nat
  ser : Nat
  dst : Nat
  word : Nat
  due : Nat
  grants : Store Nat
deriving DecidableEq, Repr

/-- What a sequencer waits at (R154). -/
inductive CtlWait where
  | none
  | barrier (mask : Nat)
  | sem (sem value : Nat) (acquire : Bool)
  | yielding (liveSb liveAcc : Nat)
deriving DecidableEq, Repr

/-- A SEM_SIGNAL whose watched work has not completed: Hob, index, semaphore, value, release, WATCH mask, and the serial
number of its issue: it watches descriptors issued before it (R154). -/
structure Signal where
  hob : Nat
  index : Nat
  sem : Nat
  value : Nat
  release : Bool
  mask : Nat
  ser : Nat
deriving DecidableEq, Repr

/-- An entry of a tile share: its 32-bit pattern and its NF and SAT flags (R197, R200). -/
structure Entry where
  v : Nat
  nf : Bool
  sat : Bool
deriving DecidableEq, Repr

/-- A tile share of a region (R176, R201): 0 EMPTY, 1 OPEN, 2 DRAINING; its domain; its entries by 256 × vector +
column. The contents of an entry not listed are undefined. -/
structure TileShare where
  st : Nat
  fp : Bool
  entries : Store Entry
deriving DecidableEq, Repr

/-- Accumulation settings (R215): G, A_ZERO and PRE_FMT. -/
structure Acc where
  exp : Int
  zero : Int
  pre : Nat
deriving DecidableEq, Repr

/-- What a save or a checkpoint holds (R288, R290): per Hob the task registers, live SB bytes, semaphore values; and
the open tile shares with their accumulation settings. -/
structure Saved where
  regs : List TaskRegs
  sb : List Mem
  sems : List (Nat × Nat)
  /-- By region number (4 × Griddle page instance + region): tile shares and accumulation settings. -/
  tiles : List (Nat × List TileShare)
  accs : List (Nat × Option Acc)
  forced : Bool
  /-- Sequencers past END, and EPOCH_ADVANCE descriptors decoded, at the point saved. -/
  ended : List Bool
  advances : List (Nat × Nat)
deriving DecidableEq, Repr

/-- A running or saved task. -/
structure Task where
  exec : ExecCmd
  regs0 : TaskRegs
  regs1 : TaskRegs
  wait0 : CtlWait
  wait1 : CtlWait
  ended0 : Bool
  ended1 : Bool
  inflight : List Issued
  signals : List Signal
  ser : Nat
  /-- Ticks the context has been loaded with this task, up to the last save, and the tick of the latest load. -/
  ranTicks : Nat
  loadTick : Nat
  /-- Tick of the task-register load (R149, R158). -/
  start : Nat
  /-- EPOCH_ADVANCE descriptors decoded, in issue order: index and the 128-bit descriptor (R387). -/
  advances : List (Nat × Nat)
  /-- Live sizes of the last YIELD passed, in 4 KiB units. -/
  liveSb : Nat
  liveAcc : Nat
  /-- The checkpoint of the last YIELD passed (R288). -/
  checkpoint : Option Saved
  /-- A PUU_STEP or a batch-step move has issued since the last cheap point (R293). -/
  pinned : Bool
  /-- Commit epochs of the domains the task reads, held since its start: (domain, epoch) (R386). -/
  epochs : List (Nat × Nat)
  /-- Regions of SB (0), HBM (1) and host memory (2) that the task writes: (space, address, bytes) (R160). -/
  writes : List (Nat × Nat × Nat)
  /-- Collections that the task has addressed (R338). -/
  colls : List Nat
  replayed : Bool
  slipped : Bool
  /-- Hob whose sequencer wrote RESULT last (Table 06-4). -/
  lastRes : Nat
deriving DecidableEq, Repr

/-- A context request block, decoded (Table 11-1). Lists are indexed by 16 × Hob + Griddle, by Hob or by stack. -/
structure Request where
  fn : Nat
  pairing : Nat
  prio : Nat
  forceable : Bool
  quantum : Nat
  forceAfter : Nat
  shares : Nat
  maxSb : Nat
  maxAcc : Nat
  seed : Nat
  griddles : List Nat
  ladles : List Nat
  sbs : List Nat
  units : List Nat
  semBase : List Nat
  semCount : List Nat
  work : List Nat
  window : List Nat
  batchS : Nat
  batchP : Nat
  dirAddr : Nat
  dirBytes : Nat
deriving DecidableEq, Repr

/-- Context states (Table 11-4). -/
inductive CtxState where
  | none
  | idle
  | idleLoaded
  | waiting
  | running
  | preempting
  | suspended
  | restoring
  | frozen
  | tearingDown
deriving DecidableEq, Repr

/-- The Context Error log of a context (Table 06-10), without the task registers, which `CtxLog.regs` holds. -/
structure CtxLog where
  state : Nat
  sqid : Nat
  cid : Nat
  code : Nat
  index : Nat
  case : Nat
  hob : Nat
  ucls : Nat
  uinst : Nat
  tick : Nat
  dtc : Nat
  info : Nat
  later : Nat
  held : List (Nat × Nat × Nat)
  freezes : Nat
  slot : Nat
  regs : List TaskRegs
  sems : List Nat
  /-- Function that owned the context, in the log kept after its teardown. -/
  owner : Nat := 0
deriving DecidableEq, Repr

/-- A context (R276). -/
structure Ctx where
  st : CtxState
  req : Request
  /-- Program macro-group on each Hob; 48: none (R280). -/
  groups : List Nat
  savePages : Nat
  /-- T1 pages held, as (use, HBM page = 24,576 × stack + page): use 0 save area, 1 working, 2 window, 3 batch
  request page, 4 slot table page, 5 batch pool. -/
  pages : List (Nat × Nat)
  /-- Bound submission queue, as 65,536 × function + identifier (R143). -/
  sq : Option Nat
  task : Option Task
  saved : Option Saved
  waitSince : Nat
  /-- Pre-emption: 0 none, 1 decided under R286, 2 forced requested, 3 normal and not withdrawn (host request, or a forced
  one deferred); the tick of the decision, or of the start of a save or restore (R286, R292, R298). -/
  preempt : Nat
  preemptTick : Nat
  /-- Severity of the freeze: 1 TASK, 2 CONTEXT. -/
  severity : Nat
  log : CtxLog
  logRead : Bool
  test : Bool
  replays : Nat
  normals : Nat
  forceds : Nat
  /-- The next PUU_STEP is the first after a Resume Context (R93). -/
  resumed : Bool
  /-- Program slot whose image the program region holds, unchanged since it was loaded (R148). -/
  staged : Option Nat
  /-- An Abort waits for the next cheap point (R122). -/
  abortWait : Bool
  /-- The log of a fault whose started descriptors still run to their end (R159); none otherwise. -/
  fault : Option CtxLog := none
  /-- The registers of the two sequencers as the last task left them; empty before the first (R149). -/
  last : List TaskRegs := []
  /-- A context in TEARING_DOWN still holds its home (Table 11-4). -/
  holding : Bool := false
  /-- Admin commands that end with the teardown, and a CMD word that does (R165). -/
  tearCmds : List CmdId := []
  tearWord : Bool := false
deriving DecidableEq, Repr

/-- Compute: programs, contexts, semaphores (06_compute_commands.md, 11_contexts_and_scheduling.md). -/
structure Compute where
  slots : Store ProgSlot
  /-- Memory range sets, keyed 65,536 × function + set: (namespace, offset, length) (R142). -/
  mrs : Store (List (Nat × Nat × Nat))
  ctxs : Store Ctx
  /-- Semaphore values, owners and OWNER_PREEMPTED flags (R154, R292). -/
  sems : Store Nat
  semOwner : Store Nat
  semPre : List (Nat × Nat)
  /-- Error log kept for a number whose context is torn down (R165). -/
  oldLogs : Store CtxLog
  /-- Program SB regions: the shared buffers by Hob × 2^28 + offset. -/
  sb : Mem
deriving DecidableEq, Repr

/-- Weights of a region: the format and the rows of their load, and the records of the columns (R174, R231). -/
structure Weights where
  fmt : Nat
  elems : Nat
  cols : List (List Byte)
deriving DecidableEq, Repr

/-- Weights that a pass has made active (R174, R183): the load, and the rows and columns, K_ACTIVE and N_ACTIVE of that pass, whose cells
swapped. -/
structure Swapped where
  load : Weights
  rows : Nat
  wide : Nat
deriving DecidableEq, Repr

/-- A stream delivered to a region's port: Ladle channel, move index, port (0 west edge, 1 preload, 3 row scale),
format, elements per record, records (R231, R232). -/
structure Feed where
  ch : Nat
  index : Nat
  port : Nat
  fmt : Nat
  elems : Nat
  recs : List (List Byte)
deriving DecidableEq, Repr

/-- A pass issued to a region: descriptor index, serial number of its issue, descriptor, and the settings of R215 that
it takes. -/
structure Pass where
  index : Nat
  ser : Nat
  word : Nat
  acc : Option Acc
  cfg : Option Nat
deriving DecidableEq, Repr

/-- A tile share handed over and not yet drained, with its latched settings (R215): the index of the handing
GRIDDLE_MM and the serial number of its issue, tile, vectors, columns, G, DRAIN_CFG, count of R212, and whether the
drain has begun. -/
structure Handover where
  index : Nat
  ser : Nat
  tile : Nat
  m : Nat
  n : Nat
  exp : Int
  cfg : Nat
  count : Nat
  begun : Bool
deriving DecidableEq, Repr

/-- A table load of a DRAIN_CFG that waits or runs (R215): index, descriptor, source address (SB, Hob × 2^28 + offset)
and serial number of its issue. -/
structure TableLoad where
  index : Nat
  word : Nat
  src : Nat
  ser : Nat
deriving DecidableEq, Repr

/-- A region of a Griddle and its part of the Drain (07_griddle_array.md, 08_arithmetic_and_drain.md). -/
structure Region where
  tiles : List TileShare
  shadow : Option Weights
  /-- Active weights, the last swap first: a cell holds those of the first entry that covers it. None of them is valid in an empty list (R175). -/
  active : List Swapped
  /-- The cells that no swap has covered hold the zeros of STARTING (R193); otherwise what they hold is undefined. -/
  zeroed : Bool
  /-- In issue order: formats of shadow loads not yet swapped in, format of the active weights, and the domain of each
  tile share's open chain (R179). -/
  issShadow : List Nat
  issActive : Option Nat
  issOpen : List (Option Bool)
  acc : Option Acc
  cfg : Option Nat
  passes : List Pass
  feeds : List Feed
  loads : List TableLoad
  /-- Activation and channel tables of slots 0 and 1. -/
  act : List (Option (List Byte))
  chan : List (Option (List Byte))
  hands : List Handover
  /-- Row-sum registers by vector (R206). -/
  rowSums : Store Nat
  /-- Hand-overs since the task started or its last YIELD (R212). -/
  handCount : Nat
deriving DecidableEq, Repr

/-- What a FILTER, SKIM_SCAN or SKIM_MERGE took at its decode: the filter program named, if any; distance tables as
(M, code width, bytes); the commit epoch of the domain it reads. -/
structure Job where
  prog : List Byte
  tables : List (Nat × Nat × List Byte)
  epoch : Nat
deriving DecidableEq, Repr

/-- A move issued to a Ladle channel (R228 to R230): Hob, index, context, serial number of its issue, descriptor, move record, loop iteration
indexes, base registers, memory range set; the bytes a port or a transfer has delivered for it; whether it feeds a
port; LOCKSTEP due tick; and, where the entry is the output of a FILTER, SKIM_SCAN or SKIM_MERGE (R357, R376), what
that descriptor took at its decode. -/
structure Move where
  hob : Nat
  index : Nat
  ctx : Nat
  ser : Nat
  word : Nat
  record : List Byte
  iters : List Nat
  base : List Nat
  mrs : Nat
  out : List Byte
  due : Nat
  job : Option Job
  /-- T3 source: pieces requested so far and those answered (R546, R548). -/
  sent : Nat
  rx : Store (List Byte)
  /-- Window pages whose last byte a fill has written (R262). -/
  filled : List Nat
deriving DecidableEq, Repr

/-- A Ladle channel (R224): issued moves not yet started, and the running move. -/
structure Channel where
  queue : List Move
  run : Option Move
deriving DecidableEq, Repr

/-- A Whisk (R241 to R244): the WHISK descriptor in force, its tables, and moves served since the task started or its
last YIELD. -/
structure WhiskUnit where
  cfg : Option Nat
  smooth : List Byte
  signs : List Byte
  loaded : Bool
  count : Nat
deriving DecidableEq, Repr

/-- SB port bindings (R237): Hob, read or write port, macro-group, context and serial number of the descriptor's
issue. -/
structure Binding where
  hob : Nat
  write : Bool
  group : Nat
  ctx : Nat
  ser : Nat
deriving DecidableEq, Repr

/-- A foreign master that a port hears (R535): its port identity, the data set of its last Announce in the order of comparison (priority 1,
class, accuracy, variance, priority 2, grandmaster identity, steps removed), log2 of its Announce interval, and the ticks of its last
Announces, newest first. -/
structure Foreign where
  sender : Nat
  data : List Nat
  logAnn : Int
  ticks : List Nat
deriving DecidableEq, Repr

/-- Offsets measured from a source since the last step, newest first, at most 16, in units of 2^−16 ÷ 25 ns; and how many in succession
lay beyond ±1,000 ns (Table 20-1). -/
structure Measured where
  offs : List Int
  beyond : Nat
deriving DecidableEq, Repr

/-- PTP on a port (R537 to R539): masters heard, the selected one, log2 of its Sync and least Delay_Req intervals, tick of the last Sync used,
its measurements, tick since which it meets the lock criterion, the times of the last Sync (sent, received) and of the last delay
request, and the mean path delay. Times in units of 2^−16 ÷ 25 ns. -/
structure PtpPort where
  foreigns : List Foreign
  master : Option Nat
  logSync : Int
  logDelay : Int
  syncTick : Nat
  meas : Measured
  meetsSince : Option Nat
  sync : Option (Int × Int)
  sent : Option Int
  sentTick : Nat
  delay : Int
deriving DecidableEq, Repr

/-- Device time (20_time_and_fabric.md). -/
structure TimeState where
  /-- The Device Time Counter in units of 2^−48 ns. -/
  dtc : Nat
  ports : Store PtpPort
  /-- PTM: measurements, dialogs failed in succession, tick of the last dialog. -/
  ptm : Measured
  ptmFails : Nat
  ptmTick : Nat
  /-- An offset has been measured since Kettle start-up; a source has locked since. -/
  measured : Bool
  everLocked : Bool
  /-- A step waits for the next tick boundary: signed ns, and the offset that caused it (R534). -/
  step : Option (Int × Int)
  /-- Values of FREQ_ADJ since the lock, newest first, with the tick of each. -/
  freqs : List (Nat × Int)
  /-- The greatest DTC second reached by the 1PPS output; the tick of its last rising edge; the tick of the last 1PPS in edge (R541). -/
  ppsSec : Nat
  ppsOut : Option Nat
  ppsIn : Option Nat
  /-- Messages sent: port, kind (1 Delay_Req, 2 Pdelay_Req, 3 Pdelay_Resp, 10 Pdelay_Resp_Follow_Up, 16 ARP or Neighbor Discovery answer), and
  the time that the message carries. -/
  out : List (Nat × Nat × Int)
  /-- Ports whose transmission a PFC frame has paused (R542). -/
  paused : List Nat
deriving DecidableEq, Repr

/-- A PUU_STEP issued and not completed (R324): context, descriptor index, serial number of its issue, the header and entries of its tensor table, and
its grain (R93). -/
structure PuuStep where
  ctx : Nat
  index : Nat
  ser : Nat
  table : List Byte
  layer : Bool
deriving DecidableEq, Repr

/-- A self-check of a Griddle that runs: of a faulted region, by sparing firmware (R185); of a region, by a host in test mode (R191); in STARTING
(R193); of every region after a commit (Table 07-9). -/
inductive SelfCheck where
  | region (r : Nat)
  | host (r : Nat)
  | start
  | commit
deriving DecidableEq, Repr

/-- The units of the Hobs (07 to 09). Regions by 4 × Griddle page instance + region, channels and Whisks by page
instance. -/
structure Units where
  regions : Store Region
  chans : Store Channel
  whisks : Store WhiskUnit
  bound : List Binding
  /-- Sequencers whose next descriptor waits at issue for an SB port, as (Hob, context) (R237). -/
  portWait : List (Nat × Nat)
  /-- Tick of the last corrected error of each SB line, by Hob × 2^28 + line address (R239). -/
  sbCorrected : Store Nat
  /-- SB lines, as Hob × 2^28 + line address, that showed a second corrected error within 24 hours while their macro-group was owned: the Scourer
  remaps each once the group is free (R239). -/
  sbDue : List Nat
  /-- Remap words free of each Griddle's tile buffers are counted here as used (Table 07-8), by page instance. -/
  tileRemap : Store Nat
  /-- Remainders of the page counters that count in units, by 4 × page number + counter (R26). -/
  rem : Store Nat
  /-- Bad physical rows and bad physical columns that a Griddle's row map, live skew table and column map pass over, as last committed, by page
  instance (R169, R186). -/
  lineMap : Store (List Nat × List Nat)
  /-- Tick of the last self-check that found no fault in a faulted region, by 16 × page instance + 4 × partition mode + region (R185). -/
  lastClean : Store Nat
  /-- Self-check that runs, by Griddle page instance; Griddles classified for retirement (R185, R189). -/
  checking : Store SelfCheck
  retiring : List Nat
  /-- Tick at which each of them was classified (Table 17-8). -/
  classTick : Store Nat
  /-- Steps issued to each Hob's PUU, oldest first: the first one runs. Tick of its last failed self-test (R328). -/
  puu : Store (List PuuStep)
  puuFail : Store Nat
deriving DecidableEq, Repr

/-- Marks of a window page (R262): WINDOW, FILLED_ONCE with the Hobs whose sequencers issued a fill, READY. -/
structure Mark where
  window : Bool
  fillHobs : List Nat
  ready : Bool
deriving DecidableEq, Repr

/-- A placement copy of a T2 page (R258): its T1 page, whether it is finished, and the placement period in which it
began. It holds the bytes that flash would return (R259). -/
structure PlacedCopy where
  t1 : Nat
  done : Bool
  period : Nat
deriving DecidableEq, Repr

/-- A batching context's sequences (R268 to R272): last completed step; slots as (tag, state pages, admitted in the
last step); the join queue as (tag, pages); DEFERRED_TOTAL; request page, slot table page and pool pages. -/
structure Batch where
  s : Nat
  p : Nat
  step : Nat
  slots : Store (Nat × List Nat × Bool)
  queue : List (Nat × Nat)
  deferred : Nat
  reqPage : Nat
  slotPage : Nat
  pool : List Nat
  /-- A step that has begun: the request as it stood when the move over the request page completed (R270). -/
  begun : Option Mem
deriving DecidableEq, Repr

/-- Memory tiers (10_memory_tiers.md). HBM addresses are stack × 2^36 + offset; T1 pages are stack × 24,576 + page;
T2 pages are NSID × 2^32 + page. -/
structure Tiers where
  hbm : Mem
  marks : Store Mark
  heat1 : Store Nat
  heat2 : Store Nat
  /-- Home hint of a T2 page: stack + 1; 0 any (R257). -/
  hint : Store Nat
  copies : Store PlacedCopy
  period : Nat
  /-- T1 pages retired; T1 pages with a row marked for repair (R255). -/
  retired : List Nat
  marked : List Nat
  /-- Stacks whose device region stands in pool pages of the other stacks of their Hob, and those pages (R256). -/
  lost : List Nat
  device : List Nat
  /-- Tick of the last corrected error of each T1 page's row. -/
  corrected : Store Nat
  batches : Store Batch
  /-- 64 KiB granules that a FROZEN entry of a PUU_STEP has marked (R321), as HBM address ÷ 65,536. -/
  frozen : List Nat
  /-- Tick of the last heat decay and of the last placement period. -/
  decayTick : Nat
  placeTick : Nat
deriving DecidableEq, Repr

/-- A map entry (Table 16-1): STATE (0 UNMAPPED, 1 MAPPED, 2 SUSPECT, 3 LOST) and the location, bits [35:0]. -/
structure MapEntry where
  st : Nat
  loc : Nat
deriving DecidableEq, Repr

/-- A staged IU (R436 to R439): its IU (NSID × 2^40 + number), sequence number, STREAM, bytes, ZERO flag, first
sequence number and size of its atomic group, and the location once its wordline has programmed. -/
structure Staged where
  iu : Nat
  seq : Nat
  stream : Nat
  data : Mem
  zero : Bool
  groupSeq : Nat
  groupCount : Nat
  loc : Option Nat
deriving DecidableEq, Repr

/-- A pending version (`upto` none) or a version retained for epochs up to `upto` of an IU of a domain
(NSID × 2^32 + FIRST_TIER_PAGE): its content is the staged IU `seq`, else the page `loc`, else zeros; `st` as in a map
entry; written by an edge-repair pass, and the records whose neighbour lists that pass repaired in it (R383, R385, R386). -/
structure Version where
  iu : Nat
  dom : Nat
  upto : Option Nat
  seq : Nat
  loc : Option Nat
  st : Nat
  repair : Bool
  lists : List Nat := []
deriving DecidableEq, Repr

/-- An epoch domain (R384): 2^64 × the times it was released + EPOCH, which is 0 once it has ended and tasks still read older epochs of it; VISIBLE, REPAIR,
NEIGH_COL, writing context, number of tier pages, VISIBLE of the epochs still held; and the tick of its latest advance, with the epoch published before that
tick, which tasks that start at the tick read (R386). -/
structure Domain where
  epoch : Nat
  visible : Nat
  repair : Bool
  neighCol : Nat
  writer : Option Nat
  pages : Nat
  hist : List (Nat × Nat)
  since : Option (Nat × Nat) := none
  cursor : Nat × Nat := (0, 0)
deriving DecidableEq, Repr

/-- A non-global Opal range (Table 16-8): its namespace, first byte, bytes, read locked, write locked. -/
structure OpalRange where
  ns : Nat
  first : Nat
  len : Nat
  rdLocked : Bool
  wrLocked : Bool
deriving DecidableEq, Repr

/-- Flash translation (16_flash_translation.md). -/
structure Ftl where
  map : Store MapEntry
  staging : List Staged
  versions : List Version
  domains : Store Domain
  /-- Relocation table: package of a tier page that was moved (NSID × 2^32 + page). -/
  moved : Store Nat
  /-- Open superblock and next data position of each package and stream (4 × package + 0 USER, 1 RELOCATE,
  2 SYSTEM), the superblocks closed early, and the streams whose successor the last flush did not name (R434). -/
  openSb : Store (Nat × Nat)
  closed : List Nat
  stale : List Nat
  /-- Completed erases of each superblock (4,096 × package + superblock). -/
  sbErase : Store Nat
  /-- Bytes programmed since the last flush, and journal records waiting; next map segment of the rotation. -/
  sinceFlush : Nat
  records : Nat
  segment : Nat
  /-- Packages that collect; package being shed; packages retired, in order; package evacuating. -/
  collecting : List Nat
  shedding : Option Nat
  evacuating : List Nat
  /-- Blocks reported for refresh (location ÷ 2,048); blocks whose program failed, to be marked BAD once none of their pages is
  valid; packages that no read reaches (R406, R414, R423). -/
  refresh : List Nat
  failed : List Nat
  unreach : List Nat
  /-- Entries that deallocations cleared since the last flush, and between the flush before it and the last: what a lost flush
  brings back (R441). -/
  undo : List (Nat × MapEntry)
  undoLast : List (Nat × MapEntry)
  /-- Sanitize in progress: action, pattern, 1/256 steps done; Opal authority state is the opaque functions' own. -/
  sanAction : Nat
  sanPattern : Nat
  sanSteps : Nat
  /-- Key slots loaded: 128 × Colander + slot (R336). -/
  keysLoaded : List Nat
  /-- The map is rebuilt and media is ready (R106). -/
  ready : Bool
  /-- The READ_ONLY cause 1 or 2 that has once applied, which is permanent (R88); a sanitize has completed (R131). -/
  roCause : Nat
  sanDone : Bool
  /-- Key generation of each key slot (R454, R457): slot NSID − 2 holds a namespace's Global Range, slot 64 + r the
  non-global range r (0 to 7); and the non-global ranges. -/
  keyGen : Store Nat
  ranges : Store OpalRange
  /-- Responses of Security Send that Security Receive has not fetched. -/
  opalOut : List (List Byte)
  /-- The last flush is marked clean (R443). -/
  clean : Bool
  /-- Remainders of the SNAP counters below 4,096 bytes. -/
  acceptedRem : Nat
  copyRem : Nat
deriving DecidableEq, Repr

/-- A NAND block (Table 15-7): state (0 ERASED, 1 OPEN, 2 FULL, 3 DIRTY, 4 BAD), NEXT, reads since the last erase,
erases completed, tick of its oldest program. A block not listed is ERASED. -/
structure Block where
  st : Nat
  next : Nat
  reads : Nat
  erases : Nat
  oldest : Nat
deriving DecidableEq, Repr

/-- A programmed page: user bytes and the META fields of Table 16-5. -/
structure Page where
  data : Mem
  iu : Nat
  seq : Nat
  stream : Nat
  zero : Bool
  groupCount : Nat
  groupSeq : Nat
  dom : Nat
  source : Nat
  tick : Nat
deriving DecidableEq, Repr

/-- A program or erase in progress on a die: kind (1 program, 2 erase), its blocks, tick of its start or last resume, suspensions,
tick of the suspension in force. -/
structure DieOp where
  kind : Nat
  blocks : List Nat
  since : Nat
  suspends : Nat
  suspendedAt : Option Nat
deriving DecidableEq, Repr

/-- NAND media (15_nand_media.md). Blocks by location ÷ 2,048, pages by location, dies by 16 × Colander + die, channels
by 8 × Colander + channel. -/
structure Nand where
  blocks : Store Block
  /-- Members of each superblock since it was opened, as 6 × die + plane (R416, R433). -/
  stripes : Store (List Nat)
  pages : Store Page
  ops : Store DieOp
  /-- Tick of each die's last timeout; ticks of reads that needed step 6, as (wordline key, tick). -/
  timeouts : Store Nat
  step6 : Store (List (Nat × Nat))
  /-- Grown bad blocks of each die. -/
  grown : Store Nat
  /-- Ticks of each channel's retrainings at its present rate step. -/
  retrains : Store (List Nat)
  /-- Rate step of each channel below step 0 (Table 15-4); channels that are dead. -/
  rateStep : Store Nat
  dead : List Nat
  /-- Dies classified as permanently faulty (Table 15-9). -/
  condemned : List Nat
  /-- Last ZQ calibration of each die: tick and temperature. -/
  zq : Store (Nat × Int)
  /-- Tracked threshold offset set of each (die, block number), and each die's temperature term. -/
  offsets : Store Nat
  tempTerm : Store Int
  tempTick : Store Nat
  /-- Retired dies whose relocation has ended. -/
  relocated : List Nat
  /-- Device time in ticks that passed in earlier runs of the Kettle: block ages count from the first (R447). -/
  age : Nat
deriving DecidableEq, Repr

/-- A collection (R338): the 4,096 bytes of its descriptor, the context it is bound to (64: unbound), and whether it is
still valid. -/
structure Collection where
  bytes : List Byte
  ctx : Nat
  valid : Bool
deriving DecidableEq, Repr

/-- The Colanders' slots and the collections (13_colander_near_flash.md). Collections by 65,536 × function + ID; filter
slots by 2 × (64 × Colander + context) + slot; table slots by 64 × Colander + slot, as (M, code width, bytes). -/
structure Near where
  collections : Store Collection
  fslots : Store (List Byte)
  tslots : Store (Nat × Nat × List Byte)
deriving DecidableEq, Repr

/-- An outstanding READ_REQ (R546 to R548): channel, port and credit of its tag, generation, piece of its move, server,
export address, length, ticks of the first and the last send, and the present wait in ticks. -/
structure SReq where
  ch : Nat
  port : Nat
  credit : Nat
  gen : Nat
  piece : Nat
  sled : Nat
  addr : Nat
  len : Nat
  first : Nat
  last : Nat
  wait : Nat
deriving DecidableEq, Repr

/-- The Snilo Link engine (20_time_and_fabric.md): outstanding requests, generation of each credit (keyed
8 × (2 × channel + port) + credit), peer and export tables, round trips of the last second as (port, tick, µs). -/
structure SniloState where
  reqs : List SReq
  gens : Store Nat
  peers : Store (List Byte)
  exports : Store (List Byte)
  rtts : List (Nat × Nat × Nat)
deriving DecidableEq, Repr

/-- A pantry link (R463, R466, R477): its three lanes (0 active, 1 spare, idle, 2 retired, 3 training, 4 spare, failed its check),
units replayed, retrains, proxied reads that timed out, proxied writes dropped, duration of the last retrain in µs, and
retrains that each lane has failed in succession. -/
structure Link where
  lanes : List Nat
  replays : Nat
  retrains : Nat
  timeouts : Nat
  dropped : Nat
  lastUs : Nat
  failed : List Nat
deriving DecidableEq, Repr

/-- What the Kettle keeps of the channels (R463, R464): pantry links by Colander, and the ticks of the events that count
towards a permanent rule, newest first, by rule and channel. The Hob-to-Hob link is faulted (R470). Ticks that passed in PS0 to PS2, and,
on that count, the last visit of each Scourer pass (in the order of Table 17-4) to an item, by 2^64 × pass + item (R473). -/
structure Reliab where
  links : Store Link
  events : Store (List Nat)
  hobFault : Bool
  scourTime : Nat
  visited : Store Nat
deriving DecidableEq, Repr



/-- The whole machine. -/
structure State where
  /-- The commands that wait, first in, first out. -/
  pending : List Instr
  /-- Variant of the module (R2); fixed at manufacture (word 3 of the factory row). -/
  variant : Variant
  /-- Register fields, keyed by `Field.key`; an unlisted field holds its reset value. -/
  regs : Store Nat
  /-- Monotonic tick count since Kettle start-up (R50). -/
  tick : Nat
  /-- The model's own counter of free values drawn (log 2). -/
  freeCount : Nat
  reg : RegFn
  power : Power
  arb : Arb
  kettle : Kettle
  boot : Boot
  eflash : EFlash
  host : HostIf
  cp : Compute
  units : Units
  tiers : Tiers
  time : TimeState
  ftl : Ftl
  nand : Nand
  near : Near
  snilo : SniloState
  rel : Reliab
deriving DecidableEq, Repr

/-- Why the machine stops. -/
inductive Fault where
  /-- Raised by no meaning of this model: every error the spec describes is an effect on the state. -/
  | never
deriving DecidableEq, Repr

/-- Why a command has no meaning. -/
inductive Refusal where
  /-- Raised by an arm of Dispatch.lean whose command has no meaning yet. Safe: nothing is claimed of it. -/
  | notModelled (mnemonic : String)
deriving DecidableEq, Repr

/-- A slot that holds the factory firmware, confirmed. DESIGN CHOICE (log 7). -/
def FwSlot.factory : FwSlot :=
  { events := 0x47, gen := 1, svn := 0, root := 0, revision := 0, valid := true, stateComplete := true }

/-- A slot never written. -/
def FwSlot.empty : FwSlot :=
  { events := 0, gen := 0, svn := 0, root := 0, revision := 0, valid := false, stateComplete := true }

/-- A controller not enabled. -/
def Ctrl.init : Ctrl :=
  { en := false, rdy := false, crime := false, wrr := false, shst := 0, shutTick := 0, aerReqs := [], aerKept := [],
    aerSent := [], feat := [], aborts := [], errors := [], changed := [] }

/-- Configuration state that nothing has written: the smallest payload, reads of 512 bytes (the base's reset values, PRESUMED, log 47). -/
def PciFn.init : PciFn := { bar0 := 0, memory := false, master := false, l1 := false, payload := 0, readReq := 2 }

/-- A region with nothing in it. -/
def Region.empty : Region :=
  { tiles := [{ st := 0, fp := false, entries := [] }, { st := 0, fp := false, entries := [] }], shadow := none,
    active := [], zeroed := false, issShadow := [], issActive := none, issOpen := [none, none], acc := none, cfg := none, passes := [],
    feeds := [], loads := [], act := [none, none], chan := [none, none], hands := [], rowSums := [], handCount := 0 }

/-- A channel with nothing issued. -/
def Channel.empty : Channel := { queue := [], run := none }

/-- A Whisk detached, its tables clear. -/
def WhiskUnit.empty : WhiskUnit := { cfg := none, smooth := [], signs := [], loaded := false, count := 0 }

/-- Units with nothing in them. -/
def Units.init : Units :=
  { regions := [], chans := [], whisks := [], bound := [], portWait := [], sbCorrected := [], sbDue := [], tileRemap := [],
    rem := [], lineMap := [], lastClean := [], checking := [], retiring := [], classTick := [], puu := [], puuFail := [] }

/-- Tiers as start-up leaves them. -/
def Tiers.init : Tiers :=
  { hbm := ⟨[], []⟩, marks := [], heat1 := [], heat2 := [], hint := [], copies := [], period := 0, retired := [], marked := [],
    lost := [], device := [], corrected := [], batches := [], frozen := [], decayTick := 0, placeTick := 0 }

/-- Nothing counted. -/
def FloorSums.zero : FloorSums :=
  { mac8 := 0, mac4 := 0, macB := 0, nand := 0, link := 0, measured := 0, input := 0, invalid := false }

/-- The Kettle before its first start-up. -/
def Kettle.init : Kettle :=
  { waiting := [], drops := [], dropTick := [], ring := [], freezeDtc := 0, persistWait := false, notPersisted := false, records := [],
    recordHdr := [], starts := 0, rates := [], sensors := [], failed := [], recal := [], railIdle := [], capSum := 0, capCount := 0, capSince := 0,
    capChanged := 0, smart := [], eid := 0, work := [], workSeen := [], lines := [], consts := [], window := [], fresh := [], floorWait := [], sampleTick := 0, sampleDtc := 0, miOut := [],
    mctpOut := [], tid := 0, smbusKhz := 100, mtu := 64 }

/-- Device time as power-on leaves it. -/
def TimeState.init : TimeState :=
  { dtc := 0, ports := [], ptm := { offs := [], beyond := 0 }, ptmFails := 0, ptmTick := 0, measured := false, everLocked := false,
    step := none, freqs := [], ppsSec := 0, ppsOut := none, ppsIn := none, out := [], paused := [] }

/-- A port that has heard nothing. -/
def PtpPort.init : PtpPort :=
  { foreigns := [], master := none, logSync := 0, logDelay := 0, syncTick := 0, meas := { offs := [], beyond := 0 },
    meetsSince := none, sync := none, sent := none, sentTick := 0, delay := 0 }

/-- Translation state with nothing mapped. -/
def Ftl.init : Ftl :=
  { map := [], staging := [], versions := [], domains := [], moved := [], openSb := [], closed := [], stale := [], sbErase := [],
    sinceFlush := 0, records := 0, segment := 0, collecting := [], shedding := none, evacuating := [], refresh := [],
    failed := [], unreach := [], undo := [], undoLast := [], sanAction := 0, sanPattern := 0, sanSteps := 0, keysLoaded := [], ready := false, roCause := 0, sanDone := false, keyGen := [], ranges := [], opalOut := [], clean := true, acceptedRem := 0, copyRem := 0 }

/-- Media with every block ERASED. DESIGN CHOICE (log 13). -/
def Nand.init : Nand :=
  { blocks := [], stripes := [], pages := [], ops := [], timeouts := [], step6 := [], grown := [], retrains := [], rateStep := [], dead := [], condemned := [], zq := [],
    offsets := [], tempTerm := [], tempTick := [], relocated := [], age := 0 }

/-- No collection defined and no slot loaded. -/
def Near.init : Near := { collections := [], fslots := [], tslots := [] }

/-- Empty tables and no request outstanding (R557). -/
def SniloState.init : SniloState := { reqs := [], gens := [], peers := [], exports := [], rtts := [] }

/-- A link with two lanes active and the third spare. -/
def Link.init : Link :=
  { lanes := [0, 0, 1], replays := 0, retrains := 0, timeouts := 0, dropped := 0, lastUs := 0, failed := [0, 0, 0] }

/-- No event counted. -/
def Reliab.init : Reliab := { links := [], events := [], hobFault := false, scourTime := 0, visited := [] }



/-- The machine right after reset: power absent, every register field at its reset value, nothing listed. -/
def State.reset : State where
  pending := []
  variant := .x
  regs := []
  tick := 0
  freeCount := 0
  reg := { readData := [], aborted := false, latch := [], pairLo := [], live := [], snapWait := [], snapAll := none, inject := [],
           emptyWindows := [], windowAt := [], startTick := [], shadowFaulted := [] }
  power := { seated := false, straps := 0, switchClosed := false, bankFailed := false,
             kettleUp := false, controlUp := false, brownOut := false, thermalOff := false, perst := true, led := 0, ledSince := 0,
             opHoldUntil := none, rampTo := none, rampSince := 0, rampFrom := [], domUp := [], inputMw := [], hobCool := false, op5Since := none,
             trip := false, clearSince := none }
  arb := { waiting := [], lastGrant := [], armAt := none, batches := 0, done := [] }
  kettle := Kettle.init
  boot := { slotA := FwSlot.factory, slotB := FwSlot.empty, romFault := false, romRecovery := false, startTick := 0,
            wdtAt := 1953125, beats := [], pieces := [], image := ⟨[], []⟩, pldmSlot := none, pldmBytes := 0, svn := 0, rootRevoked := 0,
            wdtExpiries := 0, runSlot := 0, fallback := false, restart := 0, keys := [],
            keyRevoked := [] }
  eflash := { words := [], begun := [], ended := [], compactions := 0, worn := false, bad := [], verifyFails := [],
              config := [], configUsed := 0, configHalf := 0, configSeq := 0, status := 0, pulses := 0, outFlags := 0,
              failWord := 0xFFFFFFFF, data := [], retirements := [], held := [] }
  host := { numVfs := 0, pci := [], cfgStatus := 0, ctrls := [], sqs := [], cqs := [], intake := [], cpls := [], held := [], irqs := [], aggr := [],
            aggrTick := [], namespaces := [], quota := [], lastFn := 0, lastSq := [], credit := [], burst := 0,
            satSince := [], unsatSince := [], sustained := [], lowTries := 0, belowMin := false, linkUp := false, trained := false, width := 0, lanesRetired := [],
            psLast := 0, psTarget := none, psEntering := false, psExiting := false, psWake := false, idleSince := 0,
            mem := ⟨[], []⟩ }
  cp := { slots := [], mrs := [], ctxs := [], sems := [], semOwner := [], semPre := [], oldLogs := [], sb := ⟨[], []⟩ }
  units := Units.init
  tiers := Tiers.init
  time := TimeState.init
  ftl := Ftl.init
  nand := Nand.init
  near := Near.init
  snilo := SniloState.init
  rel := Reliab.init

end Sys2Proof.Machine
end

