-- ==== Sys2Proof/Machine/Store.lean ====
section
/-!
DEFINITION. Operations on sparse data: the association lists that hold registers, counters and maps, and the byte
memories, whose unlisted addresses read as zero.
-/

namespace Sys2Proof.Machine

/-- The value listed at key `k`, if any. -/
def sget? {α : Type} : Store α → Nat → Option α
  | [], _ => none
  | (a, v) :: t, k => if a = k then some v else sget? t k

/-- The value at key `k`, `d` where none is listed. -/
def sget {α : Type} (m : Store α) (k : Nat) (d : α) : α := (sget? m k).getD d

/-- The pairs of `m` whose key is not `k`. -/
def serase {α : Type} : Store α → Nat → Store α
  | [], _ => []
  | (a, v) :: t, k => if a = k then serase t k else (a, v) :: serase t k

/-- `(k, v)` placed before the first key above `k`. -/
def sinsert {α : Type} : Store α → Nat → α → Store α
  | [], k, v => [(k, v)]
  | (a, w) :: t, k, v => if k < a then (k, v) :: (a, w) :: t else (a, w) :: sinsert t k v

/-- `m` with `v` at key `k` and every other key as before. -/
def sput {α : Type} (m : Store α) (k : Nat) (v : α) : Store α := sinsert (serase m k) k v

/-- Keys strictly rise. -/
def swf {α : Type} : Store α → Bool
  | [] => true
  | [_] => true
  | (a, _) :: (b, w) :: t => decide (a < b) && swf ((b, w) :: t)

/-- The pairs whose key lies outside `[lo, hi)`. -/
def sdropRange {α : Type} (m : Store α) (lo hi : Nat) : Store α :=
  m.filter fun p => !(decide (lo ≤ p.1) && decide (p.1 < hi))

/-! ### Byte memories -/

end Sys2Proof.Machine

namespace Sys2Proof

open Sys2Proof.Machine

/-- What an unlisted address reads as under a list of fills. The spec states reset contents for HBM and SB (cleared
by start-up, R223, R275); every other memory follows it. DESIGN CHOICE (log 6), unsafe. -/
def fillDefault : List (Nat × Nat × Option Nat) → Nat → Byte
  | [], _ => 0
  | (lo, hi, k) :: t, a =>
    if lo ≤ a ∧ a < hi then (match k with
      | some j => Config.openByte j a
      | none => 0)
    else fillDefault t a

/-- What an unlisted address of a memory reads as. -/
def Mem.dflt (m : Mem) (a : Nat) : Byte := fillDefault m.fills a

/-- Memory with nothing listed. -/
def Mem.empty : Mem := { cells := [], fills := [] }

/-- One byte of memory. -/
def Mem.read (m : Mem) (a : Nat) : Byte := (sget? m.cells a).getD (m.dflt a)

/-- One byte written, in canonical form: an entry equal to what an unlisted address reads as is removed. -/
def Mem.write (m : Mem) (a : Nat) (v : Byte) : Mem :=
  if v = m.dflt a then { m with cells := serase m.cells a } else { m with cells := sput m.cells a v }

/-- `n` bytes from address `a` upwards. -/
def Mem.readN (m : Mem) (a : Nat) : Nat → List Byte
  | 0 => []
  | n + 1 => m.read a :: Mem.readN m (a + 1) n

/-- The bytes `bs` written from address `a` upwards. -/
def Mem.writeL (m : Mem) (a : Nat) : List Byte → Mem
  | [] => m
  | b :: bs => Mem.writeL (m.write a b) (a + 1) bs

/-- `n` bytes from `a` upwards take one fill: zero, or free bytes of a draw. Fills that the new one covers go, and a
fill of zeros over no other fill is not listed. -/
def Mem.fill (m : Mem) (a n : Nat) (k : Option Nat) : Mem :=
  let fs := m.fills.filter fun f => !(decide (a ≤ f.1) && decide (f.2.1 ≤ a + n))
  { cells := sdropRange m.cells a (a + n)
    fills := if k = none ∧ (fs.all fun f => decide (f.2.1 ≤ a) || decide (a + n ≤ f.1)) = true then fs else (a, a + n, k) :: fs }

/-- The fills of a memory, clipped to a range. -/
def clipFills (fs : List (Nat × Nat × Option Nat)) (lo hi : Nat) : List (Nat × Nat × Option Nat) :=
  (fs.map fun f => (max f.1 lo, min f.2.1 hi, f.2.2)).filter fun f => decide (f.1 < f.2.1)

/-- `dst` with the bytes of `[a, a + n)` as `src` holds them. -/
def Mem.copyFrom (dst src : Mem) (a n : Nat) : Mem :=
  let d := dst.fill a n none
  { cells := (src.cells.filter fun c => decide (a ≤ c.1) && decide (c.1 < a + n) && decide (c.2 ≠ src.dflt c.1)).foldl
      (fun t c => sput t c.1 c.2) d.cells
    fills := clipFills src.fills a (a + n) ++ d.fills }

/-- Canonical form of a byte memory: addresses strictly rise and no entry equals what its address would read as
unlisted. -/
def Memory.wf (m : Mem) : Bool := swf m.cells && m.cells.all fun c => decide (c.2 ≠ m.dflt c.1)

end Sys2Proof

namespace Sys2Proof.Machine

/-! ### Little-endian numbers and byte lists -/

/-- The little-endian number a byte list spells. -/
def leNat : List Byte → Nat
  | [] => 0
  | b :: bs => b.toNat + 256 * leNat bs

/-- A little-endian field of a byte list. -/
def fld (bs : List Byte) (a n : Nat) : Nat := leNat ((bs.drop a).take n)

/-- Every byte of a range is 0. -/
def zeros (bs : List Byte) (a n : Nat) : Bool := ((bs.drop a).take n).all (· == 0)

/-- The `n` little-endian bytes of a number. -/
def natLE (v : Nat) : Nat → List Byte
  | 0 => []
  | n + 1 => BitVec.ofNat 8 v :: natLE (v / 256) n

/-- The bits `[lsb + w - 1 : lsb]` of a number. -/
def bits (v lsb w : Nat) : Nat := (v / 2 ^ lsb) % 2 ^ w

/-- Bit `i` of a number. -/
def bit (v i : Nat) : Bool := (v / 2 ^ i) % 2 == 1

/-- `v` with bit `i` set. -/
def setBit (v i : Nat) : Nat := if bit v i then v else v + 2 ^ i

/-- `v` with bit `i` clear. -/
def clrBit (v i : Nat) : Nat := if bit v i then v - 2 ^ i else v

/-- 1 for true, 0 for false. -/
def b2n (b : Bool) : Nat := if b then 1 else 0

/-- A `w`-bit field read as a signed number. -/
def signed (v w : Nat) : Int := if v % 2 ^ w < 2 ^ (w - 1) then (v % 2 ^ w : Nat) else (v % 2 ^ w : Nat) - (2 ^ w : Nat)

/-- A signed number as a `w`-bit field. -/
def unsigned (v : Int) (w : Nat) : Nat := (v % (2 ^ w : Nat)).toNat

/-- Replace element `i` of a list. -/
def setAt {α : Type} : List α → Nat → α → List α
  | [], _, _ => []
  | _ :: t, 0, v => v :: t
  | x :: t, n + 1, v => x :: setAt t n v

/-- Exact division rounded up. -/
def ceilDiv (a b : Nat) : Nat := (a + b - 1) / b

/-- Saturating addition. -/
def satAdd (a b max : Nat) : Nat := if a + b ≤ max then a + b else max

end Sys2Proof.Machine
end

