-- ==== Sys2Proof/Machine/Ops.lean ====
section
/-!
DEFINITION. The operations every meaning shares: register fields, free values, live counters, the recorder, error
bits and first-error capture, asynchronous events, completions, unit states, media mode.
-/

namespace Sys2Proof.Machine

/-- The machine goes on. -/
abbrev Res := Host.Outcome State Fault Refusal

/-! ### Register fields -/

/-- The value of a field of instance `i`. -/
def State.fget (s : State) (f : Field) (i : Nat) : Nat := sget s.regs (f.key i) (f.dflt i)

/-- `s` with a field set, cut to its width. -/
def State.fset (s : State) (f : Field) (i v : Nat) : State := { s with regs := sput s.regs (f.key i) (v % 2 ^ f.width) }

/-- A field raised by `k`, saturating at the largest value its width holds. -/
def State.fbump (s : State) (f : Field) (i k : Nat) : State :=
  s.fset f i (satAdd (s.fget f i) k (2 ^ f.width - 1))

/-- A 64-bit value held in a LO and a HI field (R8). -/
def State.fget64 (s : State) (lo hi : Field) (i : Nat) : Nat := s.fget lo i + 2 ^ 32 * s.fget hi i

/-- A LO and a HI field set to a 64-bit value. -/
def State.fset64 (s : State) (lo hi : Field) (i v : Nat) : State := (s.fset lo i (v % 2 ^ 32)).fset hi i (v / 2 ^ 32)

/-- Bit `b` of a field set. -/
def State.fsetBit (s : State) (f : Field) (i b : Nat) : State := s.fset f i (setBit (s.fget f i) b)

/-- Bit `b` of a field cleared. -/
def State.fclrBit (s : State) (f : Field) (i b : Nat) : State := s.fset f i (clrBit (s.fget f i) b)

/-- A free value drawn (log 2): the value, and the state that has drawn it. -/
def State.draw (s : State) : Nat × State := (Config.freeValue s.freeCount, { s with freeCount := s.freeCount + 1 })

/-! ### What the pages report of themselves -/

/-- Instances of a page class (Table 03-1). -/
def instancesOf (c : Nat) : Nat :=
  if c = 0x00 ∨ c = 0x01 ∨ c = 0x02 ∨ c = 0x03 ∨ c = 0x04 ∨ c = 0x05 ∨ c = 0x22 then 1
  else if c = 0x10 ∨ c = 0x15 ∨ c = 0x17 ∨ c = 0x18 ∨ c = 0x20 ∨ c = 0x30 ∨ c = 0x31 then 2
  else if c = 0x11 ∨ c = 0x14 then 34
  else if c = 0x12 then 128
  else if c = 0x13 ∨ c = 0x16 then 8
  else if c = 0x21 then 64
  else 0

/-- Colander positions that the C variant populates (R3). -/
def colanderFitted (v : Variant) (i : Nat) : Bool :=
  match v with
  | .c => i < 16 || (32 ≤ i && i < 48)
  | _ => i < 64

/-- PRESENT of a page (R2 to R4, Table 03-1). -/
def present (v : Variant) (c i : Nat) : Bool :=
  if instancesOf c ≤ i then false
  else if c = 0x18 ∨ c = 0x30 ∨ c = 0x31 then v = .x
  else if c = 0x21 then colanderFitted v i
  else true

/-- CAP0.PLANE (Table 03-1): 0 control, 1 data, 2 management. -/
def planeOf (c : Nat) : Nat :=
  if c = 0x01 ∨ c = 0x02 ∨ c = 0x05 then 2
  else if c = 0x00 ∨ c = 0x03 ∨ c = 0x04 ∨ c = 0x22 ∨ c = 0x30 ∨ c = 0x31 then 0
  else 1

/-- CAP0.HAS_STATE (R68). -/
def hasState (c : Nat) : Bool :=
  !(c == 0x00 || c == 0x01 || c == 0x02 || c == 0x03 || c == 0x04 || c == 0x05 || c == 0x10 || c == 0x22)

/-- CAP0.OWNABLE (R190, R246, R247, R329, R390). -/
def ownable (c : Nat) : Bool := c == 0x11 || c == 0x12 || c == 0x13 || c == 0x17 || c == 0x18

/-- CAP0.HAS_SPARES (R190, R219, R248, R273, R361, R477). -/
def hasSpares (c : Nat) : Bool :=
  c == 0x11 || c == 0x14 || c == 0x15 || c == 0x16 || c == 0x20 || c == 0x21

/-- CAP0.INJECT: every page but the global, front end, Hob, Kettle, time and recorder pages. -/
def injectable (c : Nat) : Bool :=
  !(c == 0x00 || c == 0x01 || c == 0x02 || c == 0x03 || c == 0x05 || c == 0x10)

/-- CAP0.PROXIED. -/
def proxied (c : Nat) : Bool := c == 0x21

/-- CAP0.ALWAYS_ON. -/
def alwaysOn (c : Nat) : Bool := c == 0x01 || c == 0x02 || c == 0x05

/-- CAP0.BLOCK_CAP, bits [31:16] of the word. -/
def blockCap (v : Variant) (c i : Nat) : Nat :=
  if c = 0x11 then 0x1F
  else if c = 0x14 then 0xF
  else if c = 0x12 then (if v = .x then 0xF else 0x7)
  else if c = 0x13 then 0x3
  else if c = 0x16 then (if i % 4 = 0 then 0xF else 0xB)
  else if c = 0x04 then 0x3
  else if c = 0x18 then 0xF
  else if c = 0x21 then 0x1F
  else if c = 0x17 then 0x1F
  else if c = 0x22 then 0x7
  else if c = 0x20 then 0x3
  else if c = 0x01 then 0x3
  else if c = 0x02 then (if v = .x then 0x7 else 0x2)
  else if c = 0x31 then 0x7
  else if c = 0x30 then 0x1
  else 0

/-- CAP1. -/
def cap1 (v : Variant) (c i : Nat) : Nat :=
  if c = 0x10 then 512
  else if c = 0x11 then 256 + 256 * 512 + 4 * 0x40000 + 4 * 0x200000 + 2 * 0x1000000
  else if c = 0x14 then 2 + 64 * 16
  else if c = 0x12 then i % 64 / 16 + 16 * 256 + 8 * 65536
  else if c = 0x13 then 6 + 8192 * 16
  else if c = 0x15 then 48 + 16 * 64
  else if c = 0x16 then 64 + 100 * 128 + 24576 * 32768
  else if c = 0x04 then 64 + 256
  else if c = 0x18 then 64 + 1024 * 128
  else if c = 0x21 then 8 + 2 * 16 + 8 * 256 + 64 * 4096 + 32 * 524288
  else if c = 0x17 then 1024 + 64 * 2048
  else if c = 0x22 then 3
  else if c = 0x20 then 32 + 3 * 64 + (32 * i) * 256
  else if c = 0x01 then (if v = .c then 157 else 221)
  else if c = 0x31 then 4
  else if c = 0x30 then 1024
  else 0

/-- The word at 0x000 of a present page. -/
def pageId (c i : Nat) : Nat := c + 256 * i + 65536 * 1 + 0x1000000 * 0x5D

/-- The word at 0x004 of a present page. -/
def cap0 (v : Variant) (c i : Nat) : Nat :=
  1 + 2 * b2n (hasState c) + 4 * b2n (ownable c) + 8 * b2n (hasSpares c) + 16 * b2n (injectable c)
    + 32 * b2n (proxied c) + 64 * b2n (alwaysOn c) + 256 * planeOf c + 65536 * blockCap v c i

/-- DOMAIN of a page (R576). -/
def domainOf (c i : Nat) : Nat :=
  if c = 0x01 ∨ c = 0x02 ∨ c = 0x05 then 0
  else if planeOf c = 0 then 1
  else if c = 0x21 then 6
  else
    let perHob := if c = 0x11 ∨ c = 0x14 then 17 else if c = 0x12 then 64 else if c = 0x13 ∨ c = 0x16 then 4 else 1
    2 + i / perHob

/-- Array supply of an operating point in mV (Table 02-1). -/
def opMv (p : Nat) : Nat :=
  if p = 0 then 550 else if p = 1 then 600 else if p = 2 then 650 else if p = 3 then 700 else if p = 4 then 750
  else 850

/-- Setting of a domain in mV at an operating point (Table 02-2). -/
def domainMv (p d : Nat) : Nat :=
  if d = 0 then 800
  else if d = 1 then 750
  else if d = 2 ∨ d = 3 then opMv p
  else if d = 4 ∨ d = 5 then max (opMv p + 50) 700
  else max (opMv p) 650

/-- Key of a page: 256 × class + instance. -/
def pageNo (c i : Nat) : Nat := 256 * c + i

/-! ### Live counters (R73) -/

/-- Live counter `n` of a page. -/
def State.live (s : State) (c i n : Nat) : Nat := sget s.reg.live (4 * pageNo c i + n) 0

/-- Live counter `n` of a page raised by `k` (64 bits wide). -/
def State.count (s : State) (c i n k : Nat) : State :=
  { s with reg := { s.reg with live := sput s.reg.live (4 * pageNo c i + n) ((s.live c i n + k) % 2 ^ 64) } }

/-- Live counter `n` of a page that counts in units of `u`: the remainder is carried (R26). -/
def State.countUnits (s : State) (c i n k u : Nat) : State :=
  let key := 4 * pageNo c i + n
  let r := sget s.units.rem key 0 + k
  let s1 := s.count c i n (r / u)
  { s1 with units := { s1.units with rem := sput s1.units.rem key (r % u) } }

/-! ### Counted work (R26, R28) -/

/-- Work of an item counted for a context; work of a test context, and of no context, is background (64; R28, R94). -/
def State.work (s : State) (c item n : Nat) : State :=
  let who := match sget? s.cp.ctxs c with
    | some x => if x.test then 64 else c
    | none => 64
  let k := 256 * who + item
  { s with kettle := { s.kettle with work := sput s.kettle.work k (sget s.kettle.work k 0 + n) } }

/-- `n` bytes of TLP payload moved over PCIe for a context (64: none): B_link, and SNAP2 of the front end page (R26, R135). -/
def State.pcie (s : State) (c n : Nat) : State := (s.work c 17 n).countUnits 0x03 0 2 n 4096

/-! ### The recorder (R495 to R497) -/

/-- Entries of a page that wait for delivery. -/
def RecEntry.ofPage (c i : Nat) (e : RecEntry) : Bool := e.cls == c && e.inst == i

/-- An entry enters its page's queue; a CORRECTED entry that finds eight waiting is dropped and counted (R497). -/
def State.recPush (s : State) (e : RecEntry) : State :=
  if e.code = 0x0102 ∧ 8 ≤ (s.kettle.waiting.filter (RecEntry.ofPage e.cls e.inst)).length then
    let p := pageNo e.cls e.inst
    let n := sget s.kettle.drops p 0
    let s1 := { s with kettle := { s.kettle with
      drops := sput s.kettle.drops p (n + 1)
      dropTick := if n = 0 then sput s.kettle.dropTick p e.tick else s.kettle.dropTick } }
    let s2 := s1.fset64 rec_DROPPED_LO rec_DROPPED_HI 0 (s1.fget64 rec_DROPPED_LO rec_DROPPED_HI 0 + 1)
    s2.count 0x05 0 1 1
  else { s with kettle := { s.kettle with waiting := s.kettle.waiting ++ [e] } }

/-- An event recorded by page (`c`, `i`) at the present tick. -/
def State.recEv (s : State) (c i code : Nat) (payload : List Nat) (ctx : Nat := 0xFF) (inj safety : Bool := false) : State :=
  s.recPush { tick := s.tick, cls := c, inst := i, code := code, payload := payload, ctx := ctx, seq := 0,
              injected := inj, safety := safety, late := false }

/-- Little-endian bytes of a payload field. -/
def le (v n : Nat) : List Nat := (natLE v n).map BitVec.toNat

/-- A management answer made of a status and values, in a public structure's own layout (log 30). -/
def mgmt (kind : Nat) (vs : List Nat) : List Byte := (Config.mgmtResponse kind (vs.flatMap fun v => natLE v 8)).map (BitVec.ofNat 8)

/-- A PLDM platform event message (R481, Table 17-5): a retirement, a spare switch, a spare exhausted, or a sensor that crosses a limit or fails. -/
def State.pldmEvent (s : State) (vs : List Nat) : State :=
  if s.power.kettleUp then { s with kettle := { s.kettle with mctpOut := s.kettle.mctpOut ++ [mgmt 0x310 vs] } } else s

/-! ### Arbiters (R43 to R45) -/

/-- A request of this instance. -/
def ArbReq.at (cp inst : Nat) (r : ArbReq) : Bool := r.cp == cp && r.inst == inst

/-- The same request, whatever has been granted while it waited. -/
def ArbReq.same (a b : ArbReq) : Bool :=
  a.at b.cp b.inst && a.party == b.party && a.tick == b.tick && a.ser == b.ser && a.batch == b.batch

/-- A request is granted at its instance: it leaves, every other request there has waited through it (R44), and those presented at the same
instant have lost to it (R45). -/
def State.grant (s : State) (r : ArbReq) (waiting : List ArbReq) : State :=
  let s1 := if r.cp = 2 ∧ r.party < 2 then s.count 0x20 (r.inst / 32) r.party 1 else s
  { s1 with arb := { s1.arb with
    waiting := (waiting.eraseP r.same).map fun (q : ArbReq) => if q.at r.cp r.inst then
        { q with passed := r.party :: q.passed.filter (· ≠ r.party), owed := q.owed || (r.batch != 0 && q.batch == r.batch) }
      else q
    lastGrant := sput s.arb.lastGrant (4096 * r.cp + r.inst) (r.party, s.tick) } }

/-- A request presented and served within the command that presents it. In FREE mode, requests of other parties that have waited through an
earlier grant of this party are served before it (R44); in LOCKSTEP it takes its party's next slot (R46). -/
def State.serve (s : State) (cp inst party : Nat) (ctx : Nat := 64) : State :=
  let first := s.arb.waiting.filter fun (q : ArbReq) => q.at cp inst && q.party != party && q.passed.contains party
  let s1 := if s.fget glob_DET_MODE_EFFECTIVE 0 = 1 then s else first.foldl (fun (t : State) q => t.grant q t.arb.waiting) s
  let r : ArbReq := { cp := cp, inst := inst, party := party, tick := s.tick, due := s.tick, ctx := ctx, ser := 0, batch := 0
                      owed := false, passed := [] }
  s1.grant r (s1.arb.waiting ++ [r])

/-! ### Controllers, completions and interrupts -/

/-- The controller of a function. -/
def State.ctrl (s : State) (fn : Nat) : Ctrl := sget s.host.ctrls fn Ctrl.init

/-- `s` with the controller of a function replaced. -/
def State.setCtrl (s : State) (fn : Nat) (c : Ctrl) : State :=
  { s with host := { s.host with ctrls := sput s.host.ctrls fn c } }

/-- A feature's value in a controller (R116); an unlisted feature holds its default. -/
def Ctrl.feature (c : Ctrl) (fid : Nat) : Nat := sget c.feat fid 0

/-- Key of a queue. -/
def qKey (fn q : Nat) : Nat := 65536 * fn + q

/-- Completion queue of a submission queue: the admin queue's is 0. -/
def State.cqOf (s : State) (fn q : Nat) : Nat :=
  if q = 0 then qKey fn 0 else match sget? s.host.sqs (qKey fn q) with
    | some sq => qKey fn sq.cq
    | none => qKey fn 0

/-- An interrupt vector raised, or counted towards its aggregation (R116, Interrupt Coalescing): feature 0x08 gives
the threshold, 0's based, in [7:0] and the time in units of 100 µs in [15:8]; feature 0x09 bit 16 of a vector
disables coalescing; the admin queue's vector is never coalesced. -/
def State.interrupt (s : State) (fn iv : Nat) (admin : Bool) : State :=
  let f := (s.ctrl fn).feature 0x08
  let off := (s.ctrl fn).feature (0x900 + iv) = 1
  let k := qKey fn iv
  if admin ∨ off ∨ f / 256 % 256 = 0 ∨ sget s.host.aggr k 0 ≥ f % 256 then
    ({ s with host := { s.host with irqs := s.host.irqs ++ [(fn, iv)], aggr := serase s.host.aggr k
                                    aggrTick := serase s.host.aggrTick k } } : State).pcie 64 4
  else
    { s with host := { s.host with
      aggr := sput s.host.aggr k (sget s.host.aggr k 0 + 1)
      aggrTick := if sget s.host.aggr k 0 = 0 then sput s.host.aggrTick k s.tick else s.host.aggrTick } }

/-- The intake slot of a command freed (R115). -/
def State.freeIntake (s : State) (c : CmdId) : State :=
  { s with host := { s.host with intake := s.host.intake.filter fun e => e.cmd ≠ c } }

/-- A completion entry placed in its queue, which frees the command's intake slot, or held with it while the queue is full (R114, R115). -/
def State.place (s : State) (c : Cpl) : State :=
  let k := s.cqOf c.cmd.fn c.cmd.sq
  match sget? s.host.cqs k with
  | none => ({ s with host := { s.host with cpls := s.host.cpls ++ [c] } } : State).freeIntake c.cmd
  | some q =>
    if q.used + 1 < q.size then
      let s1 := ({ s with host := { s.host with
        cpls := s.host.cpls ++ [c], cqs := sput s.host.cqs k { q with used := q.used + 1 } } } : State).freeIntake c.cmd
      if q.ien then s1.interrupt c.cmd.fn q.iv (c.cmd.sq = 0) else s1
    else { s with host := { s.host with
      held := s.host.held ++ [c]
      intake := s.host.intake.map fun (e : Intake) => if e.cmd = c.cmd then { e with begun := true, done := true } else e } }

/-- A command came from a compute queue. -/
def State.computeQueue (s : State) (c : CmdId) : Bool :=
  match sget? s.host.sqs (qKey c.fn c.sq) with
  | some q => q.ctx.isSome
  | none => false

/-- A command completes: the entry is posted, with its stamp taken at crossing point 5 (Table 02-6), its class is counted (R135), its intake slot
frees (R115), the idle time starts afresh (R128), and a status other than success enters the Error Information log (R131). The data returned
and the entry are PCIe payload. The tick of a compute queue's last completion bounds the due frame of its next command (R47). -/
def State.complete (s : State) (c : CmdId) (sct sc : Nat) (dw0 : Nat := 0) (dw1 : Nat := 0) (data : List Byte := []) :
    State :=
  let s0 := ((s.serve 5 0 0).place { cmd := c, sct := sct, sc := sc, dw0 := dw0, dw1 := dw1, data := data }).pcie 64 (16 + data.length)
  let sq := if s.computeQueue c then
    { s0 with arb := { s0.arb with done := sput s0.arb.done (qKey c.fn c.sq) s0.tick } } else s0
  let s1 := if c.sq = 0 then sq else sq.count 0x03 0 (b2n (s.computeQueue c)) 1
  let s2 := { s1 with host := { s1.host with idleSince := s1.tick } }
  if sct = 0 ∧ sc = 0 then s2
  else
    let k := s2.ctrl c.fn
    let e : ErrEntry := { count := (k.errors.map ErrEntry.count).headD 0 + 1, sq := c.sq, cid := c.cid, status := 256 * sct + sc,
                          lba := 0, ns := 0 }
    s2.setCtrl c.fn { k with errors := (e :: k.errors).take 64 }

/-- A command completes with success. -/
def State.succeed (s : State) (c : CmdId) (dw0 : Nat := 0) (data : List Byte := []) : State :=
  s.complete c 0 0 dw0 0 data

/-! ### Asynchronous events (R133) -/

/-- The configuration bit that enables an event (Table 05-13). -/
def aerBit (type info : Nat) : Nat :=
  if type = 7 then (if info = 0 then 31 else if info = 1 then 30 else if info = 2 then 29 else 28)
  else if info = 0 then 8 else if info = 1 then 9 else 20

/-- The LID an event's completion names (Table 05-13). -/
def aerLid (type info : Nat) : Nat :=
  if type = 7 then (if info = 1 then 0xC0 else 0xC1)
  else if type = 2 then (if info = 0 then 0x04 else if info = 1 then 0x03 else 0x81)
  else 0x02

/-- An event arises for a function: it is posted to the oldest outstanding request, or kept once for each type and information (R133). An event
that was posted and is not re-armed posts nothing; `who` is the context of a context-frozen event, which each context re-arms for itself, else
0. -/
def State.aerPost (s : State) (fn type info : Nat) (who : Nat := 0) : State :=
  let c := s.ctrl fn
  if (type, info, who) ∈ c.aerSent ∨ c.aerKept.any (fun k => k.1 == type && k.2.1 == info) then s
  else match c.aerReqs with
    | [] => s.setCtrl fn { c with aerKept := c.aerKept ++ [(type, info, who)] }
    | r :: rs =>
      let s1 := s.setCtrl fn { c with aerReqs := rs, aerSent := (type, info, who) :: c.aerSent }
      s1.complete r 0 0 (type + 256 * info + 65536 * aerLid type info) 0

/-- A notice or a vendor event arises for a function that its configuration enables. -/
def State.aer (s : State) (fn type info : Nat) (who : Nat := 0) : State :=
  if bit ((s.ctrl fn).feature 0x0B) (aerBit type info) then s.aerPost fn type info who else s

/-- The information of the SMART / Health event for a bit of Critical Warning: 0 reliability (bits 2 to 4), 1 a temperature threshold, 2 spare
below threshold; PRESUMED from NVMe (log 22). -/
def warnInfo (b : Nat) : Nat := if b = 1 then 1 else if b = 0 then 2 else 0

/-- A bit of Critical Warning is set for a function (Table 05-13). -/
def State.aerWarn (s : State) (fn b : Nat) : State :=
  if bit ((s.ctrl fn).feature 0x0B) b then s.aerPost fn 1 (warnInfo b) else s

/-- A bit of Critical Warning is set for every controller. -/
def State.aerWarnAll (s : State) (b : Nat) : State := (s.host.ctrls.map Prod.fst).foldl (fun (t : State) fn => t.aerWarn fn b) s

/-- An event's log was read with RAE = 0, or ERR_SUMMARY_LO was read: the event is re-armed (Table 05-13). -/
def State.rearm (s : State) (fn type info : Nat) (who : Nat := 0) : State :=
  let c := s.ctrl fn
  s.setCtrl fn { c with aerSent := c.aerSent.filter (· ≠ (type, info, who)) }

/-- A counter of the SMART / Health Information log raised (R476): 0 media errors, 1 and 2 bytes that the host read and wrote, 3 and
4 read and write commands, 5 power cycles, 6 unsafe shutdowns, 7 and 8 ticks above WCTEMP and CCTEMP, 9 ticks powered; 16 is not 0 once a cause of Critical Warning bit 2 that
stays has arisen. -/
def State.smartAdd (s : State) (k n : Nat) : State :=
  { s with kettle := { s.kettle with smart := sput s.kettle.smart k (sget s.kettle.smart k 0 + n) } }

/-! ### Error bits (R69 to R71) -/

/-- Some page of a class holds an unmasked error (R71). -/
def State.classErr (s : State) (c : Nat) : Bool :=
  (List.range (instancesOf c)).any fun i =>
    decide (Nat.land (s.fget (hdr_ERR_STATUS c) i) (0xFFFFFFFF - s.fget (hdr_ERR_MASK c) i) ≠ 0)

/-- STATE as the page shows it: a Drain page mirrors its Griddle's (R219). -/
def State.stateShown (s : State) (c i : Nat) : Nat := s.fget (hdr_STATE (if c = 0x14 then 0x11 else c)) i

/-- OWNER_CONTEXT as the page shows it: SB reads 0xFE while any macro-group of it is owned (R248); a Drain page mirrors its
Griddle's (R219). -/
def State.ownerShown (s : State) (c i : Nat) : Nat :=
  if c = 0x15 then (if (List.range 48).any fun g => s.fget (sb_GROUP_OWNER g) i ≠ 0xFF then 0xFE else 0xFF)
  else if c = 0x14 then s.fget (hdr_OWNER_CONTEXT 0x11) i
  else s.fget (hdr_OWNER_CONTEXT c) i

/-- FIRST_CONTEXT of an error: the context named, else the owner (R61, R70). On a page that several contexts share, marked 0xFE, an error that
comes with no tagged context shows 0xFF, none: DESIGN CHOICE (log 38), safe for every statement that names a tagged context. -/
def State.errContext (s : State) (c i ctx : Nat) : Nat :=
  if ctx ≠ 0xFF then ctx
  else if s.ownerShown c i < 64 then s.ownerShown c i else 0xFF

/-- The capture of R70 taken for bit `b`. -/
def State.capture (s : State) (c i b info ctx : Nat) (inj : Bool) : State :=
  let s1 := (s.fset (hdr_FIRST_BIT c) i b).fset (hdr_FIRST_INJECTED c) i (b2n inj)
  let s2 := (s1.fset (hdr_FIRST_CONTEXT c) i (s.errContext c i ctx)).fset (hdr_ERR_FIRST_INFO c) i info
  let s3 := s2.fset64 (hdr_ERR_FIRST_TICK_LO c) (hdr_ERR_FIRST_TICK_HI c) i (s.tick % 2 ^ 64)
  s3.fset (hdr_FIRST_VALID c) i 1

/-- Events that an armed injection has still to make on a bit of a page (R72). -/
def State.injectLeft (s : State) (c i b : Nat) : Nat :=
  match s.reg.inject.find? fun x => x.1 == pageNo c i && x.2.1 == b with
  | some x => x.2.2
  | none => 0

/-- `k` injected events made; INJECT_PENDING clears with the last one (R72). -/
def State.useInject (s : State) (c i b k : Nat) : State :=
  let l := (s.reg.inject.map fun x => if x.1 = pageNo c i ∧ x.2.1 = b then (x.1, x.2.1, x.2.2 - k) else x).filter fun x => x.2.2 ≠ 0
  let s1 := { s with reg := { s.reg with inject := l } }
  if l.any fun x => x.1 == pageNo c i then s1 else s1.fset (hdr_INJECT_PENDING c) i 0

/-- The first of some bits on which an injection is armed (R72). -/
def State.armed (s : State) (c i : Nat) (bs : List Nat) : Option Nat := bs.find? fun b => s.injectLeft c i b != 0

/-- One error event: the capture where none is held and the bit goes from 0 to 1, the bit, the count, and the
recorder entry of R71 (bit 2 only with CORRECTED_RECORD; a block bit only as it goes from 0 to 1). While an injection
is armed on the bit, the event is the injected one (R72). SPARE_EXHAUSTED is a lasting cause of Critical Warning bit 2 (R476). -/
def State.errBit (s : State) (c i b info : Nat) (ctx : Nat := 0xFF) (inj : Bool := false) : State :=
  let rising := ¬ bit (s.fget (hdr_ERR_STATUS c) i) b
  let inj1 : Bool := inj || s.injectLeft c i b != 0
  let s0 := if s.injectLeft c i b = 0 then s else s.useInject c i b 1
  let s1 := if rising ∧ s0.fget (hdr_FIRST_VALID c) i = 0 then s0.capture c i b info ctx inj1 else s0
  let s2 := ((if b = 5 then (s1.smartAdd 16 1).pldmEvent [1, c, i] else s1).fsetBit (hdr_ERR_STATUS c) i b).fbump (hdr_ERR_COUNT c) i 1
  if (b < 8 ∨ rising) ∧ (b ≠ 2 ∨ s2.fget (hdr_CORRECTED_RECORD c) i = 1) then
    s2.recEv c i (0x0100 + b) (le info 4 ++ [b, s2.stateShown c i]) (s.errContext c i ctx) inj1
  else s2

/-- Error events of one step, lowest bit first (R70), and the register-page event where the class's ERR_SUMMARY bit
goes from 0 to 1 (R71, R133). -/
def State.err (s : State) (c i : Nat) (bs : List Nat) (info : Nat := 0) (ctx : Nat := 0xFF) (inj : Bool := false) : State :=
  let s1 := bs.foldl (fun t b => t.errBit c i b info ctx inj) s
  if ¬ s.classErr c ∧ s1.classErr c then s1.aer 0 7 0 else s1

/-- CONFIG_REJECT (bit 6): a write was refused (Table 03-6). -/
def State.configReject (s : State) (c i : Nat) : State := s.err c i [6]

/-- A block event of a page, recorded where BLOCK_EVENTS enables it (R71). -/
def State.blockEvent (s : State) (c i n info : Nat) (ok : Bool) (ctx : Nat := 0xFF) : State :=
  if bit (s.fget (hdr_BLOCK_EVENTS c) i) n then
    s.recEv c i (0x0700 + n) (le info 4 ++ [b2n ok, s.stateShown c i]) ctx
  else s

/-! ### Unit states (R62 to R66) -/

/-- STATE of a page takes a new value and the change is recorded where STATE_CHANGE = 1 (R62, Table 18-7). -/
def State.toState (s : State) (c i n : Nat) : State :=
  let old := s.fget (hdr_STATE c) i
  let s1 := s.fset (hdr_STATE c) i n
  if old ≠ n ∧ s1.fget (hdr_STATE_CHANGE c) i = 1 then
    s1.recEv c i 0x0200 [old, n, s1.fget (hdr_ENABLE_PENDING c) i, s1.fget (hdr_DISABLE_PENDING c) i]
  else s1

/-- ENABLE or DRAIN of a unit set; a Griddle's acts on its Drain page too (R219). -/
def State.putControl (s : State) (f : Nat → Field) (c i : Nat) (v : Bool) : State :=
  let s1 := s.fset (f c) i (b2n v)
  if c = 0x11 then s1.fset (f 0x14) i (b2n v) else s1

/-- In STARTING a Griddle is set to P1, and its weights, shadows and tile shares are zeroed (R193). -/
def State.zeroGriddle (s : State) (i : Nat) : State :=
  let s1 := ((s.fset grid_PART_MODE i 0).fset grid_REGIONS i 1).fset grid_REGION_STATE i 1
  let s2 := (s1.fset grid_SELF_CHECK_BUSY i 0).fset grid_SELF_CHECK_DONE i 0
  { s2 with units := { s2.units with
    regions := sput (sdropRange s2.units.regions (4 * i) (4 * i + 4)) (4 * i) { Region.empty with zeroed := true }
    checking := serase s2.units.checking i } }

/-- A unit enters STARTING: the start limit of R63 counts from this tick. A Griddle is zeroed (R193), and a PUU begins its self-test (R328). -/
def State.toStarting (s : State) (c i : Nat) : State :=
  let s0 := s.toState c i 1
  let s1 := if c = 0x18 then (s0.fset puu_SELF_TEST_BUSY i 1).fset puu_SELF_TEST_PASS i 0
    else if c = 0x11 then s0.zeroGriddle i else s0
  { s1 with reg := { s1.reg with startTick := sput s1.reg.startTick (pageNo c i) s1.tick } }

/-- A unit moves to FAULTED from STARTING, ON or DRAINING: FAULT_CAUSE, every pending flag cleared (Table 03-4, R64, R65). -/
def State.moveFaulted (s : State) (c i b : Nat) : State :=
  let st := s.fget (hdr_STATE c) i
  if st = 1 ∨ st = 2 ∨ st = 3 then
    let s2 := (s.fset (hdr_ENABLE_PENDING c) i 0).fset (hdr_DISABLE_PENDING c) i 0
    ((s2.fset (hdr_RESET_PENDING c) i 0).fset (hdr_FAULT_CAUSE c) i b).toState c i 4
  else s

/-- A unit faults: the error bit, and FAULTED. -/
def State.faultUnit (s : State) (c i b info : Nat) (ctx : Nat := 0xFF) (inj : Bool := false) : State :=
  (s.err c i [b] info ctx inj).moveFaulted c i b

/-- Keys of the HW fields of a page, which a page reset keeps (R10). -/
def hwKeys (c i : Nat) : List Nat := ((fieldsOf c).filter (·.hw)).map fun f => f.key i

/-- A live counter of a page is a work counter of R26: MAC[f] in SNAP0 of a Griddle, link bytes in SNAP2 of the front end and of an Ethernet port. -/
def workLive (c n : Nat) : Bool := (c == 0x11 && n == 0) || ((c == 0x03 || c == 0x31) && n == 2)

/-- Keys of the work counters of R26 in a page: NAND_READ of a Colander. MAC and link bytes are live counters. -/
def workKeys (c i : Nat) : List Nat :=
  if c = 0x21 then [col_NAND_READ_LO.key i, col_NAND_READ_HI.key i] else []

/-- Every field of a page back to its reset value, except HW fields and the work counters of R26 (R65). -/
def State.clearPage (s : State) (c i : Nat) : State :=
  let keep := hwKeys c i ++ workKeys c i
  { s with
    regs := s.regs.filter fun p =>
      !(decide (pageKey c i ≤ p.1) && decide (p.1 < pageKey c i + 131072)) || keep.contains p.1
    reg := { s.reg with
      live := s.reg.live.filter fun p =>
        !(decide (4 * pageNo c i ≤ p.1) && decide (p.1 < 4 * pageNo c i + 4)) || workLive c (p.1 - 4 * pageNo c i)
      snapWait := serase s.reg.snapWait (pageNo c i)
      inject := s.reg.inject.filter fun x => x.1 ≠ pageNo c i
      startTick := serase s.reg.startTick (pageNo c i) } }

/-- Every page of the class at its reset values. -/
def State.clearClass (s : State) (c : Nat) : State :=
  (List.range (instancesOf c)).foldl (fun t i => t.clearPage c i) s

/-! ### Configuration store and media mode -/

/-- A configuration record written to the store (R514): by key; two copies of 4 words plus the value. -/
def State.writeConfig (s : State) (key v : Nat) : State :=
  if s.power.brownOut then s
  else { s with eflash := { s.eflash with
    config := sput s.eflash.config key v, configUsed := s.eflash.configUsed + 16,
    configSeq := s.eflash.configSeq + 1 } }

/-- Configuration key of the media mode record; other keys are allotted in their operations. -/
def cfgMedia : Nat := 1

/-- MEDIA_MODE changes (R88): persisted, then set with its tick, recorded, and posted; READ_ONLY sets Critical Warning bit 3 (R89). -/
def State.setMedia (s : State) (mode cause : Nat) : State :=
  let old := s.fget glob_MEDIA_MODE 0
  let s1 := s.writeConfig cfgMedia (mode + 16 * cause)
  let s2 := (s1.fset glob_MEDIA_MODE 0 mode).fset glob_MEDIA_CAUSE 0 cause
  let s3 := if old = mode then s2 else s2.fset64 glob_MEDIA_TICK_LO glob_MEDIA_TICK_HI 0 (s2.tick % 2 ^ 64)
  let s4 := (s3.recEv 0x22 0 0x0303 [mode, cause]).aer 0 7 3
  if mode = 1 ∧ old ≠ 1 then s4.aerWarnAll 3 else s4

/-! ### Retirement records (R465) -/

/-- A retirement or spare switch written to eFlash, then shown: CHANNEL_RETIRED in the unit's page and a 0x0608 entry
(R465, Table 18-7). During a brown-out no pulse may start: the recorder holds it until the next start-up (Table 17-8). -/
def State.recordRetirement (s : State) (c i sub : Nat) : State :=
  if s.power.brownOut then
    (({ s with eflash := { s.eflash with held := s.eflash.held ++ [(c, i, sub, s.tick)] } } : State).recEv c i 0x0608 ([c, i] ++ le sub 2)).pldmEvent [2, c, i, sub]
  else
    let s1 := { s with eflash := { s.eflash with
      retirements := s.eflash.retirements ++ [(c, i, sub)], configUsed := s.eflash.configUsed + 16, configSeq := s.eflash.configSeq + 1 } }
    ((s1.err c i [4]).recEv c i 0x0608 ([c, i] ++ le sub 2)).pldmEvent [2, c, i, sub]

/-- SPARE_SWITCHED recorded where EVENT_ENABLE asks (Table 18-7): sub-unit kind, retired index, spare index, SUB_USED. -/
def State.spareSwitched (s : State) (c i kind old new : Nat) : State :=
  let s1 := s.pldmEvent [3, c, i, kind, old, new]
  if s.fget (hdr_SPARE_SWITCHED c) i = 1 then
    s1.recEv c i 0x0201 ([kind] ++ le old 2 ++ le new 2 ++ [s.fget (hdr_SUB_USED c) i])
  else s1

/-- A unit reaches RETIRED: from STARTING, ON or DRAINING by way of FAULTED; it serves no number any more (R465, R575). -/
def State.toRetired (s : State) (c i : Nat) : State :=
  let st := s.fget (hdr_STATE c) i
  let s1 := if st = 1 ∨ st = 2 ∨ st = 3 then s.toState c i 4 else s
  ((s1.toState c i 5).fset (hdr_IN_SERVICE c) i 0).fset (hdr_LOGICAL_INDEX c) i 0xFF

/-! ### Device time (R536) -/

/-- The bound on the DTC's offset from its source, in ns (R536): the field holds the value of the last measurement while locked, and the value
at entry in holdover, which grows by 20,000 ns per hour. -/
def State.errorBound (s : State) : Nat :=
  let b := s.fget64 time_ERROR_BOUND_LO time_ERROR_BOUND_HI 0
  if s.time.everLocked ∧ s.fget glob_TIME_SOURCE 0 = 2 then
    b + ceilDiv (20000 * 1024 * (s.tick - s.fget64 time_HOLDOVER_TICK_LO time_HOLDOVER_TICK_HI 0)) 3600000000000
  else b

/-! ### Planes -/

/-- Global STATE is ON (R68). -/
def State.globalOn (s : State) : Bool := s.fget (hdr_STATE 0) 0 = 2

/-- The device is in an operational power state, and no entry or exit is under way (R87, R128). -/
def State.operational (s : State) : Bool := !s.host.psEntering && !s.host.psExiting && decide (s.fget glob_PS_EFFECTIVE 0 < 3)

/-- PCIe configuration state of a function: 33 is the register function. -/
def State.pciOf (s : State) (fn : Nat) : PciFn := sget s.host.pci fn PciFn.init

/-- `s` with the configuration state of a function replaced. -/
def State.setPci (s : State) (fn : Nat) (p : PciFn) : State := { s with host := { s.host with pci := sput s.host.pci fn p } }

/-- The PCIe link carries TLPs of the host's commands: it has trained, is up, and did not settle below 32 GT/s (R102, R103). -/
def State.linkUp (s : State) : Bool := s.host.linkUp && !s.host.belowMin

/-- The controller of a function serves commands: its CSTS.RDY is 1 (R106), the link carries them (R102, R103) and the power state lets them be
fetched (R128). -/
def State.serves (s : State) (fn : Nat) : Bool := (s.ctrl fn).rdy && s.linkUp && s.operational

/-- A shutdown that covers a function has been notified: its own, or function 0's, which stops the device (R107). -/
def State.shutting (s : State) (fn : Nat) : Bool := (s.ctrl fn).shst != 0 || (s.ctrl 0).shst != 0

/-- Commands of a function may be fetched (R106, R107). -/
def State.ready (s : State) (fn : Nat) : Bool := s.serves fn && !s.shutting fn

/-- The command as its completion names it. -/
def plainId (c : CmdId) : CmdId := { c with rsvd := false }

/-- A command is served: it may be fetched now, or it has been fetched and is not completed. -/
def State.takes (s : State) (cmd : CmdId) : Bool :=
  s.ready cmd.fn || (s.serves cmd.fn && s.host.intake.any fun e => e.cmd == plainId cmd && !e.done)

/-- A command that is refused whatever it asks: a reserved field is set (R134), or, after a failed sanitize, it is an admin command that changes
state (R91). That such a command completes with Sanitize Failed is DEDUCED (log 46). -/
def State.turnedAway (s : State) (cmd : CmdId) (changes : Bool) : Bool :=
  cmd.rsvd || (changes && s.fget glob_MEDIA_MODE 0 == 2 && s.fget glob_MEDIA_CAUSE 0 == 5)

/-- The completion of a command turned away: Invalid Field in Command, or Sanitize Failed. -/
def State.turnAway (s : State) (cmd : CmdId) : State :=
  s.complete (plainId cmd) 0 (if cmd.rsvd then 0x02 else 0x1C)

/-- The Kettle runs. -/
def State.kettleOn (s : State) : Bool := s.power.kettleUp

/-- The control and data planes run: released, PERST# deasserted, no brown-out and no thermal shutdown. -/
def State.planesOn (s : State) : Bool :=
  s.power.controlUp && !s.power.perst && !s.power.brownOut && !s.power.thermalOff

/-- The host reaches the register function: the planes run and the link carries its accesses (R102, R103). -/
def State.hostUp (s : State) : Bool := s.planesOn && s.linkUp

/-- A function exists: the physical function, or an enabled virtual function (R104). -/
def State.fnEnabled (s : State) (fn : Nat) : Bool := fn ≤ s.host.numVfs

/-- Device-time duration of `us` microseconds in ticks, rounded up (R50). -/
def ticksUs (us : Nat) : Nat := ceilDiv (us * 1000) 1024

/-- Device-time duration of `ms` milliseconds in ticks, rounded up (R50). -/
def ticksMs (ms : Nat) : Nat := ticksUs (ms * 1000)

/-! ### Events that count towards a permanent rule (R463, R464) -/

/-- One more event of a rule and channel, with those of the last `window` ticks. -/
def State.countEvent (s : State) (rule chan window : Nat) : Nat × State :=
  let k := 65536 * rule + chan
  let l := s.tick :: ((sget s.rel.events k []).filter fun t => decide (s.tick < t + window))
  (l.length, { s with rel := { s.rel with events := sput s.rel.events k l } })

/-- One hour, one day and one second in ticks. -/
def hourTicks : Nat := ticksMs 3600000
def dayTicks : Nat := ticksMs 86400000
def secTicks : Nat := ticksMs 1000

/-- A unit classified as permanently faulty (R465). -/
def State.classify (s : State) (k : Nat) : State :=
  if s.units.retiring.contains k then s
  else { s with units := { s.units with retiring := s.units.retiring ++ [k], classTick := sput s.units.classTick k s.tick } }

/-- A unit classified as permanently faulty moves to FAULTED (R465). -/
def State.condemnUnit (s : State) (c i b : Nat) : State := (s.moveFaulted c i b).classify (pageNo c i)

/-- A domain exists: it has published an epoch and has not been released since (R384, R387). -/
def Domain.live (k : Domain) : Bool := k.epoch % 2 ^ 64 != 0

/-- The epoch that a task starting at tick `t` reads: the one published before that tick (R386). -/
def Domain.epochAt (k : Domain) (t : Nat) : Nat := match k.since with
  | some p => if p.1 = t then p.2 else k.epoch
  | none => k.epoch

end Sys2Proof.Machine
end

