-- ==== Sys2Proof/Machine/View.lean ====
section
/-!
DEFINITION. What a read of a register returns: fields held in the register store, fields that report other state, and
the words every page reports of itself.
-/

namespace Sys2Proof.Machine

/-- Instances of a class with PRESENT = 1 (R76). -/
def presentCount (v : Variant) (c : Nat) : Nat := ((List.range (instancesOf c)).filter (present v c)).length

/-- ERR_SUMMARY, bits of classes `lo` to `lo + 31` (Table 03-7). -/
def State.errSummary (s : State) (lo : Nat) : Nat :=
  (List.range 32).foldl (fun a k => if s.classErr (lo + k) then a + 2 ^ k else a) 0

/-- Setpoint of a domain at which a ramp began. -/
def State.rampMv (s : State) (d : Nat) : Nat := s.power.rampFrom.getD d 0

/-- A ramp towards point `p` goes up: the array supply rises (R38). -/
def State.rampUp (s : State) (p : Nat) : Bool := decide (s.rampMv 2 ≤ domainMv p 2)

/-- Domains whose rails move in the first phase of a ramp, and in the second: SRAM rails first going up, array and Colander rails first going
down (R38). -/
def rampFirst (up : Bool) : List Nat := if up then [4, 5] else [2, 3, 6]
def rampSecond (up : Bool) : List Nat := if up then [2, 3, 6] else [4, 5]

/-- Time in ns that some rails take to reach a point at 5 mV/µs (R38): the longest of them. -/
def State.slewNs (s : State) (p : Nat) (ds : List Nat) : Nat :=
  200 * (ds.map fun d => max (s.rampMv d) (domainMv p d) - min (s.rampMv d) (domainMv p d)).foldl max 0

/-- Nanoseconds of device time since a ramp began. -/
def State.rampNs (s : State) : Nat := 1024 * (s.tick - s.power.rampSince)

/-- The second phase of a ramp towards `p` has begun, and has ended. -/
def State.rampHalf (s : State) (p : Nat) : Bool := decide (s.slewNs p (rampFirst (s.rampUp p)) ≤ s.rampNs)
def State.rampOver (s : State) (p : Nat) : Bool :=
  decide (s.slewNs p (rampFirst (s.rampUp p)) + s.slewNs p (rampSecond (s.rampUp p)) ≤ s.rampNs)

/-- Setpoint of a domain now: during a ramp, the last setpoint written to the regulator, which is the target once the phase of the domain has
begun (R38, R40). PS3 holds the Hob array domains at 0.55 V (Table 04-4); a domain that start-up has not brought up, or that is off in PS4, is at 0
(R52). -/
def State.domainNow (s : State) (d : Nat) : Nat :=
  let ps := s.fget glob_PS_EFFECTIVE 0
  if 1 ≤ d ∧ d ≤ 6 ∧ (sget? s.power.domUp d).isNone then 0
  else if ps = 3 ∧ (d = 2 ∨ d = 3) then 550
  else match s.power.rampTo with
    | none => domainMv (s.fget glob_OP_EFFECTIVE 0) d
    | some p => if d ∈ rampFirst (s.rampUp p) ∨ s.rampHalf p then domainMv p d else if 2 ≤ d then s.rampMv d else domainMv p d

/-- A ramp towards point `p` begins at the present setpoints (R38). -/
def State.startRamp (s : State) (p : Nat) : State :=
  { s.fset glob_IN_TRANSITION 0 1 with power := { s.power with
    rampTo := some p, rampSince := s.tick, rampFrom := (List.range 7).map s.domainNow } }

/-- No rail ramps any more. -/
def State.stopRamp (s : State) : State := { s.fset glob_IN_TRANSITION 0 0 with power := { s.power with rampTo := none } }

/-- Every monitor of some domains starts again: RATE_MHS and STALE read 0 until the first window after the domain powers up (R39, R40, R52). -/
def State.restartMonitors (s : State) (ds : List Nat) : State :=
  let pages := (List.range 50).flatMap fun c => ((List.range (instancesOf c)).filter fun i => ds.contains (domainOf c i)).map fun i => (c, i)
  let s1 := pages.foldl (fun (t : State) (p : Nat × Nat) => (t.fset (hdr_RATE_MHS p.1) p.2 0).fset (hdr_STALE p.1) p.2 0) s
  { s1 with reg := { s1.reg with
    emptyWindows := s1.reg.emptyWindows.filter fun p => !ds.contains (domainOf (p.1 / 256) (p.1 % 256))
    windowAt := s1.reg.windowAt.filter fun p => !ds.contains (domainOf (p.1 / 256) (p.1 % 256)) } }

/-- Domains power up at this tick (R40, R52). -/
def State.powerUp (s : State) (ds : List Nat) : State :=
  let s1 := s.restartMonitors ds
  { s1 with power := { s1.power with domUp := ds.foldl (fun m d => sput m d s1.tick) s1.power.domUp } }

/-- Domains lose their supply. -/
def State.powerDown (s : State) (ds : List Nat) : State :=
  { s with power := { s.power with domUp := ds.foldl (fun m d => serase m d) s.power.domUp } }

/-- Start-up brings domain 1 up, then domains 2 to 6 at the point in force, in the order of R38: a ramp from 0 V (R52). Domains that are up stay
as they are. -/
def State.bringUp (s : State) : State :=
  let down (ds : List Nat) : List Nat := ds.filter fun d => (sget? s.power.domUp d).isNone
  let s1 := s.powerUp (down [1])
  if (down [2, 3, 4, 5, 6]).isEmpty then s1 else (s1.startRamp (s1.fget glob_OP_EFFECTIVE 0)).powerUp (down [2, 3, 4, 5, 6])

/-- The exit from a non-operational state begins (R128). From PS4 the domains power up, and in-service Griddles that were ON pass through STARTING
(R193). -/
def State.beginExit (s : State) : State :=
  if s.host.psExiting then s
  else
    let s1 := ({ s with host := { s.host with psExiting := true } } : State).fset glob_PS_IN_TRANSITION 0 1
    if s.fget glob_PS_EFFECTIVE 0 ≠ 4 then s1
    else (List.range 34).foldl (fun (t : State) i => if t.fget (hdr_STATE 0x11) i = 2 then t.toStarting 0x11 i else t) (s1.powerUp [2, 3, 4, 5, 6])

/-- A doorbell, or a request of another sled, in a non-operational state starts the exit; during the entry, it does so once the entry has ended
(R128, Table 20-3). -/
def State.wake (s : State) : State :=
  if s.host.psEntering then { s with host := { s.host with psWake := true } }
  else if 3 ≤ s.fget glob_PS_EFFECTIVE 0 then s.beginExit else s

/-- The context shown by a select field. -/
def State.ctx? (s : State) (c : Nat) : Option Ctx := sget? s.cp.ctxs c

/-- A context's home is loaded (Table 11-4). -/
def CtxState.loaded : CtxState → Bool
  | .idleLoaded | .running | .preempting | .restoring => true
  | _ => false

/-- A context holds its home (Table 11-4): loaded, or in TEARING_DOWN until the teardown completes. -/
def Ctx.holdsHome (x : Ctx) : Bool := x.st.loaded || (x.st == .tearingDown && x.holding)

/-- The code of a context state (Table 11-4). -/
def CtxState.code : CtxState → Nat
  | .none => 0 | .idle => 1 | .idleLoaded => 2 | .waiting => 3 | .running => 4
  | .preempting => 5 | .suspended => 6 | .restoring => 7 | .frozen => 8 | .tearingDown => 9

/-- A bitmap over contexts `lo` to `lo + 31`. -/
def State.ctxMap (s : State) (lo : Nat) (p : Ctx → Bool) : Nat :=
  (List.range 32).foldl (fun a k => match s.ctx? (lo + k) with
    | some x => if p x then a + 2 ^ k else a
    | none => a) 0

/-- The union of the share masks of contexts that satisfy `p`. -/
def State.shareMap (s : State) (p : Ctx → Bool) : Nat :=
  (List.range 64).foldl (fun a k => match s.ctx? k with
    | some x => if p x then Nat.lor a x.req.shares else a
    | none => a) 0

/-- STATE as the context manager page shows it: a suspended task waits for its home, and is shown WAITING
(Table 11-7, step 2; DEDUCED, log 12). -/
def Ctx.shown (x : Ctx) : CtxState := if x.st = .suspended then .waiting else x.st

/-- A context uses Hob `h`. -/
def Request.uses (r : Request) (h : Nat) : Bool := r.pairing == 2 || r.pairing == h

/-- The value of a context-manager field that reports other state, by offset and lowest bit. -/
def State.viewCtxm (s : State) (off lsb : Nat) : Option Nat :=
  let sel := s.ctx? (s.fget ctxm_CTX_SELECT 0)
  let of (g : Ctx → Nat) (d : Nat := 0) : Option Nat := some (match sel with | some x => g x | none => d)
  let sm := s.fget ctxm_SEM_SELECT 0
  match off, lsb with
  | 0x110, _ => some (s.ctxMap 0 fun _ => true)
  | 0x114, _ => some (s.ctxMap 32 fun _ => true)
  | 0x118, _ => some (s.ctxMap 0 fun x => x.st.loaded)
  | 0x11C, _ => some (s.ctxMap 32 fun x => x.st.loaded)
  | 0x120, _ => some (s.ctxMap 0 fun x => x.st == .suspended)
  | 0x124, _ => some (s.ctxMap 32 fun x => x.st == .suspended)
  | 0x128, _ => some (s.ctxMap 0 fun x => x.st == .frozen)
  | 0x12C, _ => some (s.ctxMap 32 fun x => x.st == .frozen)
  | 0x130, 0 => some (s.shareMap fun _ => true)
  | 0x130, _ => some (s.shareMap fun x => x.st.loaded)
  | 0x138, 0 => of fun x => x.shown.code
  | 0x138, 4 => of fun x => x.req.pairing
  | 0x138, 6 => of fun x => x.req.prio
  | 0x138, 8 => of fun x => x.req.fn
  | 0x138, 14 => of fun x => b2n x.req.forceable
  | 0x138, 15 => of fun x => b2n x.test
  | 0x138, 16 => of fun x => x.req.quantum
  | 0x13C, 0 => of fun x => x.req.forceAfter
  | 0x13C, 16 => of fun x => x.savePages
  | 0x140, 0 => of (fun x => match x.task with
      | some t => if x.req.pairing = 1 then t.regs1.lastYield else t.regs0.lastYield
      | none => (x.last.map (·.lastYield)).getD (if x.req.pairing = 1 then 1 else 0) 0x1FFFF) 0x1FFFF
  | 0x140, 24 => of fun x => x.replays
  | 0x144, 0 => of fun x => x.normals
  | 0x144, 16 => of fun x => x.forceds
  | 0x14C, 0 => some (sget s.cp.sems sm 0)
  | 0x14C, 16 => some (sget s.cp.semOwner sm 0xFF)
  | 0x14C, 24 => some (b2n (s.cp.semPre.any fun p => p.2 == sm))
  | _, _ => none

/-- SKIM_MERGE descriptors of Hob `h` in channels: those that run, and those queued. -/
def State.mergeRun (s : State) (h : Nat) : Option Move :=
  (s.units.chans.filterMap fun p => p.2.run).find? fun m => m.job.isSome && m.hob == h && m.word % 256 == 0x22
def State.mergeQueued (s : State) (h : Nat) : Nat :=
  ((s.units.chans.flatMap fun p => p.2.queue).filter fun m => m.job.isSome && m.hob == h && m.word % 256 == 0x22).length

/-- The value of a Skimmer merge page field that reports other state (Table 14-10). -/
def State.viewMerge (s : State) (h off lsb : Nat) : Option Nat :=
  let dom := s.fget merge_DOM_NSID h * 2 ^ 32 + s.fget64 merge_DOM_TIER_LO merge_DOM_TIER_HI h
  let d := match sget? s.ftl.domains dom with
    | some k => if k.live then some k else none
    | none => none
  let of (g : Domain → Nat) (z : Nat := 0) : Option Nat := some (match d with | some k => g k | none => z)
  let vs := s.ftl.versions.filter fun v => v.dom == dom && d.isSome
  match off, lsb with
  | 0x100, 0 => some (match s.mergeRun h with | some m => m.word / 2 ^ 12 % 8 | none => 0)
  | 0x100, 3 => some (b2n (s.mergeRun h).isSome)
  | 0x100, 16 => some (match s.mergeRun h with | some m => m.index | none => 0)
  | 0x104, _ => some (s.mergeQueued h)
  | 0x11C, 0 => some (b2n d.isSome)
  | 0x11C, 1 => of fun k => b2n k.repair
  | 0x11C, 2 => of fun k => b2n k.writer.isSome
  | 0x11C, 8 => of (fun k => k.neighCol) 0
  | 0x11C, 16 => of fun k => k.writer.getD 0
  | 0x120, _ => of fun k => k.epoch % 2 ^ 32
  | 0x124, _ => of fun k => k.epoch / 2 ^ 32 % 2 ^ 32
  | 0x128, _ => of fun k => k.visible % 2 ^ 32
  | 0x12C, _ => of fun k => k.visible / 2 ^ 32
  | 0x130, _ => some (vs.filter fun v => v.upto.isNone).length
  | 0x134, _ => some (vs.filter fun v => v.upto.isSome).length
  | 0x138, _ => some ((vs.filter fun v => v.upto.isNone && v.repair).map fun v => v.lists.length).sum
  | 0x13C, 0 => some (s.ftl.domains.filter fun p => p.2.live).length
  | 0x13C, _ => of fun _ => ((s.cp.ctxs.filterMap fun p => p.2.task.map fun t => match t.epochs.find? fun e => e.1 == dom with
      | some e => e.2
      | none => 0).eraseDups).length
  | _, _ => none

/-- LAYER grain is forced for every PUU_STEP: test mode, or a self-test of a PUU runs (R93, R328); 0 without the PUU. -/
def State.grainForced (s : State) : Bool :=
  s.variant == .x && (s.fget glob_TEST_MODE 0 == 1 || s.fget puu_SELF_TEST_BUSY 0 == 1 || s.fget puu_SELF_TEST_BUSY 1 == 1)

/-! ### Intake (R115, R121) -/

/-- NVM and SLM slots that function `fn` occupies; slots in all; slots of a context; admin slots of a function. -/
def State.poolOf (s : State) (fn : Nat) : Nat :=
  (s.host.intake.filter fun e => e.cmd.fn == fn && (e.kind == .nvm || e.kind == .slm)).length
def State.poolBusy (s : State) : Nat := (s.host.intake.filter fun e => e.kind == .nvm || e.kind == .slm).length
def State.ctxSlots (s : State) (c : Nat) : Nat := (s.host.intake.filter fun e => e.kind == .compute c).length
def State.adminSlots (s : State) (fn : Nat) : Nat := (s.host.intake.filter fun e => e.cmd.fn == fn && e.kind == .admin).length

/-- A queue holds a command that its doorbell has shown and that is not fetched. -/
def Sq.waits (q : Sq) : Bool := q.head != q.tail

/-- The class of R121 with number `k` is saturated: 0 to 63 a context, 64 the NVM and SLM pool. -/
def State.saturated (s : State) (k : Nat) : Bool :=
  if k < 64 then decide (256 ≤ s.ctxSlots k) && s.host.sqs.any fun p => p.2.ctx == some k && p.2.waits
  else decide (8192 ≤ s.poolBusy) && s.host.sqs.any fun p => p.1 % 65536 != 0 && p.2.ctx.isNone && p.2.waits

/-- The value of a host front end field that reports other state (Table 05-15). -/
def State.viewFront (s : State) (off lsb : Nat) : Option Nat :=
  match off, lsb with
  | 0x104, 16 => some s.poolBusy
  | 0x108, 0 => some (b2n (s.saturated 64))
  | 0x108, 1 => some (b2n ((List.range 64).any s.saturated))
  | 0x108, 2 => some (b2n (s.host.sustained.contains 64))
  | 0x108, 3 => some (b2n (s.host.sustained.any (· < 64)))
  | 0x108, 8 => some (((List.range 64).find? s.host.sustained.contains).getD 0xFF)
  | _, _ => none

/-- A region holds work: a pass, a hand-over or a table load. -/
def Region.busy (x : Region) : Bool := !x.passes.isEmpty || !x.hands.isEmpty || !x.loads.isEmpty

/-- Some region of a Griddle holds work. -/
def State.griddleBusy (s : State) (i : Nat) : Bool := (List.range 4).any fun r => (sget s.units.regions (4 * i + r) Region.empty).busy

/-- A pantry link's record. -/
def State.link (s : State) (k : Nat) : Link := sget s.rel.links k Link.init

/-! ### Sensors (Table 18-2) -/

/-- SENSOR_CLASS of a sensor number: 0 HOB, 1 CTRL, 2 KETTLE, 3 HBM, 4 COL, 5 NAND, 6 DRAM, 7 VR, 8 COOLANT, 9 HOLDUP, 10 INPUT, 11 RAIL. -/
def sensorClass (n : Nat) : Option Nat :=
  if n < 32 then some 0
  else if n < 36 then some 1
  else if n = 36 then some 2
  else if 40 ≤ n ∧ n < 48 then some 3
  else if 48 ≤ n ∧ n < 112 then some 4
  else if 112 ≤ n ∧ n < 176 then some 5
  else if n = 176 ∨ n = 177 then some 6
  else if 180 ≤ n ∧ n < 196 then some 7
  else if n = 196 ∨ n = 197 then some 8
  else if n = 198 then some 9
  else if n = 200 ∨ n = 201 ∨ n = 202 then some 10
  else if 208 ≤ n ∧ n < 232 then some 11
  else none

/-- A sensor exists on the variant: those of positions that the C variant does not populate do not (R484). -/
def sensorExists (v : Variant) (n : Nat) : Bool :=
  (sensorClass n).isSome && (if 48 ≤ n ∧ n < 112 then colanderFitted v (n - 48) else if 112 ≤ n ∧ n < 176 then colanderFitted v (n - 112) else true)

/-! ### Locking (R457, R458) -/

/-- Byte `off` of an NVM namespace lies in a locked range: the non-global range that holds it, else the namespace's Global
Range. -/
def State.lockedAt (s : State) (ns off : Nat) (write : Bool) : Bool :=
  match s.ftl.ranges.find? fun p => p.2.ns == ns && decide (p.2.first ≤ off) && decide (off < p.2.first + p.2.len) with
  | some p => if write then p.2.wrLocked else p.2.rdLocked
  | none => match sget? s.host.namespaces ns with
    | some n => if write then n.wrLocked else n.rdLocked
    | none => false

/-- `n` bytes from `off` meet a locked range; a range is a whole number of 2 MiB units. -/
def State.rangeLocked (s : State) (ns off n : Nat) (write : Bool) : Bool :=
  n != 0 && (List.range ((off + n - 1) / 2 ^ 21 - off / 2 ^ 21 + 1)).any fun k => s.lockedAt ns ((off / 2 ^ 21 + k) * 2 ^ 21) write

end Sys2Proof.Machine
end

