-- ==== Sys2Proof/Machine/Ftl.lean ====
section
/-!
DEFINITION. Flash translation: NAND locations, the erase-state tracker, the map, staging, versions, where writes land,
the capacity margin (15_nand_media.md, 16_flash_translation.md).
-/

namespace Sys2Proof.Machine

/-! ### NAND locations (R394, Table 16-1) -/

/-- The location of a page: bits [35:0] of a map entry. -/
def mkLoc (c d k b p : Nat) : Nat := c * 2 ^ 30 + d * 2 ^ 26 + k * 2 ^ 23 + b * 2 ^ 11 + p

def locCol (l : Nat) : Nat := l / 2 ^ 30 % 64
def locDie (l : Nat) : Nat := l / 2 ^ 26 % 16
def locPlane (l : Nat) : Nat := l / 2 ^ 23 % 8
def locBlock (l : Nat) : Nat := l / 2 ^ 11 % 4096
def locPage (l : Nat) : Nat := l % 2 ^ 11

/-- Key of a block, and of a superblock. -/
def blockKey (c d k b : Nat) : Nat := mkLoc c d k b 0 / 2 ^ 11
def sbKey (c b : Nat) : Nat := 4096 * c + b

/-- A block's tracker entry (R404). -/
def State.block (s : State) (k : Nat) : Block :=
  sget s.nand.blocks k { st := 0, next := 0, reads := 0, erases := 0, oldest := 0 }

def State.setBlock (s : State) (k : Nat) (b : Block) : State :=
  { s with nand := { s.nand with blocks := sput s.nand.blocks k b } }

/-- A die is retired or unreachable; the dies of a package that are in service (R421). -/
def State.dieRetired (s : State) (c d : Nat) : Bool := bit (s.fget col_DIE_RETIRED c) d
def State.diesOf (s : State) (c : Nat) : List Nat := (List.range 16).filter fun d => !s.dieRetired c d

/-- A package is retired: evacuating, or RETIRED (R422). -/
def State.packageRetired (s : State) (c : Nat) : Bool :=
  s.ftl.evacuating.contains c || s.fget (hdr_STATE 0x21) c == 5

/-- Packages fitted and in service. -/
def State.packages (s : State) : List Nat := (List.range 64).filter (colanderFitted s.variant)
def State.inService (s : State) : List Nat := s.packages.filter fun c => !s.packageRetired c

/-! ### Superblocks (R433 to R435) -/

/-- Dies that contribute to the stripe of plane `k` of superblock `b` (R416, R433): those recorded when it was opened, else those in service
whose block is not BAD. -/
def State.stripeDies (s : State) (c b k : Nat) : List Nat :=
  match sget? s.nand.stripes (sbKey c b) with
  | some ms => (ms.filter fun m => m % 6 == k).map (· / 6)
  | none => (s.diesOf c).filter fun d => (s.block (blockKey c d k b)).st ≠ 4

/-- The die that holds parity of plane `k` (R416). -/
def State.parityDie (s : State) (c b k : Nat) : Option Nat :=
  let ds := s.stripeDies c b k
  ds[(b + k) % ds.length]?

/-- The (die, plane) pairs of a superblock in the order of R435: all members, and those that hold data. -/
def State.members (s : State) (c b : Nat) : List (Nat × Nat) :=
  (List.range 16).flatMap fun d => ((List.range 6).filter fun k => (s.stripeDies c b k).contains d).map fun k => (d, k)
def State.dataMembers (s : State) (c b : Nat) : List (Nat × Nat) :=
  (s.members c b).filter fun m => s.parityDie c b m.2 ≠ some m.1

/-- Data position `pos` of a superblock: wordline, then die, then plane, then level (R435). -/
def State.locAt (s : State) (c b pos : Nat) : Option Nat :=
  let ms := s.dataMembers c b
  let w := pos / (3 * ms.length)
  match ms[pos % (3 * ms.length) / 3]? with
  | some m => if w < 384 then some (mkLoc c m.1 m.2 b (3 * w + pos % 3)) else none
  | none => none

/-- Superblocks of a package that are not free: open, closed early, recorded as opened, or with a block that is not ERASED. -/
def State.busySbs (s : State) (c : Nat) : List Nat :=
  ((List.range 3).filterMap fun k => (sget? s.ftl.openSb (4 * c + k)).map Prod.fst) ++
  ((s.ftl.closed ++ s.nand.stripes.map Prod.fst).filter (· / 4096 == c)).map (· % 4096) ++
  ((s.nand.blocks.filter fun p => p.2.st != 0 && p.2.st != 4 && locCol (p.1 * 2048) == c &&
    !s.dieRetired c (locDie (p.1 * 2048))).map fun p => p.1 % 4096)

/-- A superblock is free: it is not busy, and some die in service has a good block of it. -/
def State.sbFree (s : State) (c b : Nat) : Bool :=
  !(s.busySbs c).contains b && (s.diesOf c).any fun d => (List.range 6).any fun k => (s.block (blockKey c d k b)).st != 4

/-- Free superblocks of a package. -/
def State.freeSbs (s : State) (c : Nat) : List Nat := (List.range 2208).filter (s.sbFree c)

/-- The free superblock with the lowest erase count, the lowest number on a tie (R446). -/
def State.leastWorn (s : State) (c : Nat) : Option Nat :=
  (s.freeSbs c).foldl (fun a b => match a with
    | none => some b
    | some x => if sget s.ftl.sbErase (sbKey c b) 0 < sget s.ftl.sbErase (sbKey c x) 0 then some b else some x) none

/-! ### The journal (R440) -/

/-- Segments of the map (R429). -/
def mapSegments : Variant → Nat
  | .c => 12224
  | _ => 24448

/-- A flush: the records waiting become durable in journal pages, whose number the spec leaves open; one map segment of 2,621,440 bytes is written; the
flush tick, SNAP1 and SNAP3 advance; and the successor of every stream is named (R434). -/
def State.flush (s : State) : State :=
  let s1 := s.fset64 ftl_FLUSH_TICK_LO ftl_FLUSH_TICK_HI 0 (s.tick % 2 ^ 64)
  let (pages, s2) := s1.draw
  { (s2.count 0x22 0 1 (640 + 8 * pages)).count 0x22 0 3 1 with ftl := { s2.ftl with
    clean := false, undo := [], undoLast := s2.ftl.undo, records := 0, sinceFlush := 0, stale := [], segment := (s2.ftl.segment + 1) % mapSegments s.variant } }

/-! ### Opening superblocks (R434, R435, R446) -/

/-- A stream opens superblock `b`: its members are recorded. The successor that the last flush named is used up. -/
def State.openSuper (s : State) (c stream b : Nat) : State :=
  { s with
    nand := { s.nand with stripes := sput s.nand.stripes (sbKey c b) ((s.members c b).map fun m => 6 * m.1 + m.2) }
    ftl := { s.ftl with
      openSb := sput s.ftl.openSb (4 * c + stream) (b, 0)
      stale := if s.ftl.stale.contains (4 * c + stream) then s.ftl.stale else s.ftl.stale ++ [4 * c + stream] } }

/-- The superblock and data position at which a stream goes on: the one it holds, or position 0 of the least-worn free superblock, which it opens where it
holds none or has filled the one it holds. Where no durable flush has named that one, a flush is forced first; the hold-up flush engine has no journal
(`journal`; R434, R442). -/
def State.openNext (s : State) (c stream : Nat) (journal : Bool) : Option ((Nat × Nat) × State) :=
  let fresh := (s.leastWorn c).map fun b =>
    ((b, 0), (if journal && s.ftl.stale.contains (4 * c + stream) then s.flush else s).openSuper c stream b)
  match sget? s.ftl.openSb (4 * c + stream) with
  | some (b, pos) => if (s.locAt c b pos).isSome then some ((b, pos), s) else fresh
  | none => fresh

/-- The next data position of the superblock that a stream holds. -/
def State.setPos (s : State) (c stream b pos : Nat) : State :=
  { s with ftl := { s.ftl with openSb := sput s.ftl.openSb (4 * c + stream) (b, pos) } }

/-- The next location of a stream of a package. -/
def State.allocLoc (s : State) (c stream : Nat) : Option (Nat × State) :=
  (s.openNext c stream true).bind fun r => (r.2.locAt c r.1.1 r.1.2).map fun l => (l, r.2.setPos c stream r.1.1 (r.1.2 + 1))

/-! ### Pages that only a rebuild reads (R418, R421, R423) -/

/-- The channel of a die is dead. -/
def State.channelDead (s : State) (c d : Nat) : Bool := s.nand.dead.contains (8 * c + d / 2)

/-- The page of a location can be read only by rebuild: its die is retired, or its channel dead (R421, R423). -/
def State.rebuildOnly (s : State) (l : Nat) : Bool := s.dieRetired (locCol l) (locDie l) || s.channelDead (locCol l) (locDie l)

/-- The stripe of a page can rebuild it (R418): no other member lies on a dead channel, or on a retired die whose pages are not yet rebuilt elsewhere. -/
def State.rebuilds (s : State) (l : Nat) : Bool :=
  let c := locCol l
  (s.stripeDies c (locBlock l) (locPlane l)).all fun e => e == locDie l ||
    !(s.channelDead c e || (s.dieRetired c e && !s.nand.relocated.contains (16 * c + e)))

/-- No read can reach the page of a location (R423). -/
def State.unreadable (s : State) (l : Nat) : Bool := s.rebuildOnly l && !s.rebuilds l

/-! ### IUs, tier pages and packages (R427, R431) -/

def iuKey (ns n : Nat) : Nat := ns * 2 ^ 40 + n
def iuNs (k : Nat) : Nat := k / 2 ^ 40
def iuNum (k : Nat) : Nat := k % 2 ^ 40
/-- Tier page of an IU, as NSID × 2^32 + page: 128 IUs each. -/
def tierKey (ns t : Nat) : Nat := ns * 2 ^ 32 + t
def iuTier (k : Nat) : Nat := tierKey (iuNs k) (iuNum k / 128)

/-- Populated packages of a placement set (Table 16-3). -/
def placementSet (v : Variant) (p : Nat) : List Nat :=
  ((List.range 64).filter (colanderFitted v)).filter fun c => p == 0 || (p == 1 && c < 32) || (p == 2 && 32 ≤ c)

/-- The package that holds a tier page: the relocation table's, else its home (R431). -/
def State.packageOf (s : State) (tk : Nat) : Nat :=
  match sget? s.ftl.moved tk with
  | some c => c
  | none =>
    let set := placementSet s.variant (match sget? s.host.namespaces (tk / 2 ^ 32) with
      | some n => n.pset
      | none => 0)
    set.getD (tk % 2 ^ 32 % set.length) 0

/-! ### Content of IUs -/

/-- The map entry of an IU. -/
def State.mapEntry (s : State) (iu : Nat) : MapEntry := sget s.ftl.map iu { st := 0, loc := 0 }

def State.setMap (s : State) (iu st loc : Nat) : State :=
  { s with ftl := { s.ftl with
    map := if st = 0 then serase s.ftl.map iu else sput s.ftl.map iu { st := st, loc := loc } } }

/-- A staged IU by sequence number. -/
def State.stagedSeq (s : State) (q : Nat) : Option Staged := s.ftl.staging.find? fun x => x.seq == q

/-- A staged IU is a version's (R385). -/
def State.isVersion (s : State) (x : Staged) : Bool := s.ftl.versions.any fun v => v.iu == x.iu && v.seq == x.seq && v.loc.isNone

/-- State and bytes of a version: staged, programmed, or as the map entry it was. -/
def State.versionContent (s : State) (v : Version) : Nat × Mem :=
  match v.loc with
  | some l => (v.st, match sget? s.nand.pages l with
      | some p => p.data
      | none => Mem.empty)
  | none => match s.ftl.staging.find? fun x => x.iu == v.iu && x.seq == v.seq with
    | some x => (1, x.data)
    | none => (v.st, Mem.empty)

/-- State and bytes of an IU as published: its staged write, else its map entry (R436, R444). -/
def State.published (s : State) (iu : Nat) : Nat × Mem :=
  match s.ftl.staging.find? fun x => x.iu == iu && !s.isVersion x with
  | some x => (1, x.data)
  | none =>
    let e := s.mapEntry iu
    if e.st = 1 ∨ e.st = 2 then (e.st, match sget? s.nand.pages e.loc with
      | some p => p.data
      | none => Mem.empty)
    else (e.st, Mem.empty)

/-- The pending version of an IU. -/
def State.pendingOf (s : State) (iu : Nat) : Option Version :=
  s.ftl.versions.find? fun v => v.iu == iu && v.upto.isNone

/-- Newest state and bytes of an IU: what an NVM read returns (R385). -/
def State.newest (s : State) (iu : Nat) : Nat × Mem :=
  match s.pendingOf iu with
  | some v => s.versionContent v
  | none => s.published iu

/-- State and bytes of an IU at epoch `e` of its domain (R386). -/
def State.atEpoch (s : State) (iu e : Nat) : Nat × Mem :=
  let vs := s.ftl.versions.filter fun v => v.iu == iu && (match v.upto with
    | some u => decide (e ≤ u)
    | none => false)
  match vs.foldl (fun (a : Option Version) v => match a with
      | none => some v
      | some w => if v.upto.getD 0 < w.upto.getD 0 then some v else some w) none with
  | some v => s.versionContent v
  | none => s.published iu

/-- The IUs that `n` bytes from byte `off` of a namespace meet. -/
def iusOf (ns off n : Nat) : List Nat :=
  if n = 0 then [] else (List.range ((off + n - 1) / 16384 - off / 16384 + 1)).map fun i => iuKey ns (off / 16384 + i)

/-- `n` bytes from byte `off` of a namespace, read by a content function. -/
def State.nvmBytes (s : State) (get : Nat → Nat × Mem) (ns off n : Nat) : List Byte :=
  (iusOf ns off n).flatMap fun iu =>
    let lo := max off (iuNum iu * 16384)
    let hi := min (off + n) (iuNum iu * 16384 + 16384)
    (get iu).2.readN (lo % 16384) (hi - lo)

/-- Newest bytes of a namespace (NVM Read, Ladle move of NVM kind). -/
def State.nvmRead (s : State) (ns off n : Nat) : List Byte := s.nvmBytes s.newest ns off n

/-- A read of an IU whose entry is SUSPECT or LOST fails, and one of a page that an unreachable package holds or that no read reaches (R423, R445). -/
def State.iuFails (s : State) (iu : Nat) : Bool :=
  let loc : Option Nat := match s.pendingOf iu with
    | some v => v.loc
    | none => if s.ftl.staging.any fun x => x.iu == iu && !s.isVersion x then none else some (s.mapEntry iu).loc
  decide (2 ≤ (s.newest iu).1) || ((s.newest iu).1 == 1 && loc.any fun l => s.ftl.unreach.contains (locCol l) || s.unreadable l)

/-- Bytes of a set of IUs that are read from flash: MAPPED and not staged (R26, R444). -/
def State.flashBytes (s : State) (ius : List Nat) : Nat :=
  16384 * (ius.filter fun iu => s.ftl.staging.all (fun x => x.iu ≠ iu) && (s.newest iu).1 == 1).length

/-! ### Domains (R384 to R386) -/

/-- The domain whose tier pages hold an IU. -/
def State.domainOfIu (s : State) (iu : Nat) : Option (Nat × Domain) :=
  s.ftl.domains.find? fun p =>
    p.2.live && p.1 / 2 ^ 32 == iuNs iu && p.1 % 2 ^ 32 ≤ iuNum iu / 128 && iuNum iu / 128 < p.1 % 2 ^ 32 + p.2.pages

/-- Pending IUs of a domain. -/
def State.pendingCount (s : State) (dom : Nat) : Nat :=
  (s.ftl.versions.filter fun v => v.dom == dom && v.upto.isNone).length

/-! ### Staging (R436 to R438) -/

/-- Next sequence number. -/
def State.nextSeq (s : State) : Nat := s.fget64 ftl_SEQ_LO ftl_SEQ_HI 0

/-- Staging slots that host and compute writes use; relocation and journal pages use the others (R436). -/
def State.userSlots (s : State) : Nat := (s.ftl.staging.filter fun x => x.stream < 2).length

/-- Free slots for `n` IUs of host and compute writes. -/
def State.slotsFree (s : State) (n : Nat) : Bool :=
  s.userSlots + n ≤ 1792 && s.ftl.staging.length + n ≤ 2048

/-- Every version of an IU goes: published, pending and repair (R385). -/
def State.dropVersions (s : State) (iu : Nat) : State :=
  { s with ftl := { s.ftl with
    staging := s.ftl.staging.filter fun x => !(x.iu == iu && s.isVersion x)
    versions := s.ftl.versions.filter fun v => v.iu ≠ iu } }

/-- One IU staged with the next sequence number. It replaces an earlier staged copy of the same IU that is no
relocation copy and no other version (R437). `dom` makes it a pending version. -/
def State.stageIu (s : State) (iu stream : Nat) (data : Mem) (zero : Bool) (gseq gcount : Nat) (dom : Option Nat)
    (repair : Bool := false) (lists : List Nat := []) : State :=
  let q := s.nextSeq
  let s1 := s.fset64 ftl_SEQ_LO ftl_SEQ_HI 0 (q + 1)
  let pending (k : Nat) : Bool := s.ftl.versions.any fun v => v.iu == iu && v.upto.isNone && v.loc.isNone && v.seq == k
  let old (x : Staged) : Bool := x.iu == iu && (if dom.isSome then pending x.seq else !s.isVersion x)
  let x : Staged := { iu := iu, seq := q, stream := stream, data := data, zero := zero, groupSeq := gseq,
                      groupCount := gcount, loc := none }
  let vs := match dom with
    | some d => (s1.ftl.versions.filter fun v => !(v.iu == iu && v.upto.isNone)) ++
        [{ iu := iu, dom := d, upto := none, seq := q, loc := none, st := 1, repair := repair, lists := lists }]
    | none => s1.ftl.versions
  { s1 with ftl := { s1.ftl with staging := (s1.ftl.staging.filter fun y => !old y) ++ [x], versions := vs } }

/-- IUs of the write `[off, off + n)` that lie in the 256 KiB region of an IU (R438). -/
def groupOf (ns off n iu : Nat) : List Nat := (iusOf ns off n).filter fun k => iuNum k / 16 == iuNum iu / 16

/-- A write of bytes to a namespace accepted into staging, IU by IU, partial IUs merged with the newest content
(R436 to R438). A compute write to a domain's tier pages becomes a pending version; a host write replaces every
version (R385). -/
def State.nvmWrite (s : State) (ns off : Nat) (bs : List Byte) (compute : Bool) (zero : Bool := false) : State :=
  let n := bs.length
  let s0 := s.nextSeq
  let first := off / 16384
  let s1 := (iusOf ns off n).foldl (fun t iu =>
    let lo := max off (iuNum iu * 16384)
    let hi := min (off + n) (iuNum iu * 16384 + 16384)
    let data := (t.newest iu).2.writeL (lo % 16384) ((bs.drop (lo - off)).take (hi - lo))
    let g := groupOf ns off n iu
    let gs := s0 + (max (iuNum iu / 16 * 16) first - first)
    let dom := if compute then (t.domainOfIu iu).map Prod.fst else none
    let t1 := if compute then t else t.dropVersions iu
    t1.stageIu iu (if compute then 1 else 0) data zero gs g.length dom) s
  let acc := s1.ftl.acceptedRem + n
  { s1.count 0x22 0 0 (acc / 4096) with ftl := { s1.ftl with acceptedRem := acc % 4096, records := s1.ftl.records + 1 } }

/-- Whole IUs unmapped: entry, staged copies and versions (R444). -/
def State.unmapIu (s : State) (iu : Nat) : State :=
  let s1 := (s.dropVersions iu).setMap iu 0 0
  { s1 with ftl := { s1.ftl with
    staging := s1.ftl.staging.filter fun x => x.iu ≠ iu, records := s1.ftl.records + 1
    undo := (iu, s.mapEntry iu) :: s1.ftl.undo } }

/-- A range deallocated: whole IUs unmapped, zeros merged into the partial IUs at its ends (R444). -/
def State.deallocate (s : State) (ns off n : Nat) : State :=
  (iusOf ns off n).foldl (fun t iu =>
    let lo := max off (iuNum iu * 16384)
    let hi := min (off + n) (iuNum iu * 16384 + 16384)
    if hi - lo = 16384 then t.unmapIu iu
    else t.nvmWrite ns lo (List.replicate (hi - lo) 0) false true) s

/-- The slots of a partial-IU deallocation. -/
def partialIus (ns off n : Nat) : List Nat :=
  (iusOf ns off n).filter fun iu => off > iuNum iu * 16384 || off + n < iuNum iu * 16384 + 16384

/-- Every IU of a namespace unmapped; its domains end (R384, R454, R456). -/
def State.unmapNs (s : State) (ns : Nat) : State :=
  { s with ftl := { s.ftl with
    map := s.ftl.map.filter fun p => iuNs p.1 ≠ ns
    staging := s.ftl.staging.filter fun x => iuNs x.iu ≠ ns
    versions := s.ftl.versions.filter fun v => iuNs v.iu ≠ ns
    domains := s.ftl.domains.filter fun p => p.1 / 2 ^ 32 ≠ ns
    records := s.ftl.records + 1 } }

/-! ### Capacity (R430, R451 to R453) -/

/-- U (R430). -/
def userPages (v : Variant) : Nat := if v = .c then 50067904 else 100135808

/-- Bytes of one data block. -/
def blockBytes : Nat := 1152 * 16384

/-- Non-BAD blocks of the in-service dies of a package. -/
def State.goodBlocks (s : State) (c : Nat) : Nat :=
  (s.diesOf c).length * 13248 -
    (s.nand.blocks.filter fun p => p.2.st == 4 && locCol (p.1 * 2048) == c && !s.dieRetired c (locDie (p.1 * 2048))).length

/-- GOOD of a package: its blocks in stripe data positions, one die in each stripe apart (Table 16-6). -/
def State.goodOf (s : State) (c : Nat) : Nat :=
  let n := (s.diesOf c).length
  s.goodBlocks c * blockBytes * (n - 1) / n

def sbBytes : Nat := 1620 * 2 ^ 20

/-- FLOOR and RESERVE (Table 16-6). -/
def State.floorBytes (s : State) : Nat := 4 * sbBytes * s.inService.length
def State.reserveBytes (s : State) : Nat := (3 - (s.packages.filter s.packageRetired).length) * 3750714408960

/-- The journal packages: 0 and 32, or the lowest-numbered in-service package of the same Hob half (R440). -/
def State.journalPackages (s : State) : List Nat :=
  ((s.inService.filter (· < 32)).take 1) ++ ((s.inService.filter (32 ≤ ·)).take 1)

/-- SYSTEM of a package, and of all (Table 16-6). -/
def State.systemOf (s : State) (c : Nat) : Nat := (if s.journalPackages.contains c then 5 else 3) * sbBytes
def State.systemBytes (s : State) : Nat := (s.inService.map s.systemOf).sum

/-- M (Table 16-6). -/
def State.margin (s : State) : Int :=
  ((s.inService.map s.goodOf).sum : Nat) - (userPages s.variant * 2 ^ 21 : Nat) - (s.systemBytes : Nat)
    - (s.reserveBytes : Nat) - (s.floorBytes : Nat)

/-- Tier pages placed on a package. -/
def State.tiersOn (s : State) (c : Nat) : Nat :=
  (s.host.namespaces.map fun p =>
    if p.2.kind = .nvm then ((List.range p.2.units).filter fun t => s.packageOf (tierKey p.1 t) == c).length else 0).sum

/-- Bytes of pending and retained versions, of a package or of all. -/
def State.versionBytes (s : State) (c : Option Nat) : Nat :=
  16384 * (s.ftl.versions.filter fun v => match c with
    | some c => s.packageOf (iuTier v.iu) == c
    | none => true).length

/-- SPARE of a package (R453). -/
def State.spareOf (s : State) (c : Nat) : Int :=
  (s.goodOf c : Nat) - (2 ^ 21 * s.tiersOn c : Nat) - (s.systemOf c : Nat) - (s.versionBytes (some c) : Nat)

/-- Every package that a set of IUs is placed on has more than 4 free superblocks (R448). -/
def State.aboveFloor (s : State) (ius : List Nat) : Bool :=
  ((ius.map fun iu => s.packageOf (iuTier iu)).eraseDups).all fun c => decide (4 < (s.freeSbs c).length)

/-- Margin at manufacture, M0 (R476): that of a module none of whose blocks has gone BAD. -/
def margin0 (v : Variant) : Int := ({ State.reset with variant := v } : State).margin

/-- IUs in a state of the map: 1 MAPPED, 2 SUSPECT, 3 LOST. -/
def State.iusIn (s : State) (st : Nat) : Nat := (s.ftl.map.filter fun p => p.2.st == st).length

/-- Mean erase count of the superblocks of the populated packages, rounded down, and the highest (Table 16-10). -/
def State.eraseAvg (s : State) : Nat := (s.ftl.sbErase.map Prod.snd).sum / (2208 * s.packages.length)
def State.eraseMax (s : State) : Nat := (s.ftl.sbErase.map Prod.snd).foldl max 0

/-- Available Spare (R476). -/
def State.availableSpare (s : State) : Nat :=
  let m0 := (margin0 s.variant).toNat
  min 100 (100 * s.margin.toNat / max 1 m0)

/-- Percentage Used (R476). -/
def State.percentageUsed (s : State) : Nat := min 255 (100 * s.eraseAvg / 3000)

/-- The registers of the capacity terms follow their definitions (Table 16-10). -/
def State.refreshMargin (s : State) : State :=
  let m := s.margin
  let s1 := s.fset ftl_MARGIN_PAGES 0 (if m ≤ 0 then 0 else m.toNat / 2 ^ 21)
  let s2 := (s1.fset ftl_FLOOR_PAGES 0 (s.floorBytes / 2 ^ 21)).fset ftl_RESERVE_PAGES 0 (s.reserveBytes / 2 ^ 21)
  s2.fset ftl_PACKAGES_RETIRED 0 (s.packages.filter s.packageRetired).length

/-! ### Programming staged IUs -/

/-- The block of a location after one of its pages is programmed: OPEN, NEXT past the wordline, FULL at the end
(R404). -/
def State.advanceBlock (s : State) (k page : Nat) : State :=
  let b := s.block k
  let nx := page / 3 * 3 + 3
  s.setBlock k { b with
    st := if 1152 ≤ nx then 2 else 1, next := min nx 1152
    oldest := if b.st = 0 then s.nand.age + s.tick else b.oldest }

/-- A staged IU's bytes stand in a programmed page (Table 16-5). -/
def State.programPage (s : State) (l : Nat) (x : Staged) : State :=
  let dom := match s.ftl.versions.find? fun v => v.seq == x.seq with
    | some v => v.dom % 2 ^ 32
    | none => 0
  let p : Page := { data := x.data, iu := x.iu, seq := x.seq, stream := x.stream, zero := x.zero,
                    groupCount := x.groupCount, groupSeq := x.groupSeq, dom := dom, source := 0, tick := s.tick }
  let s1 := s.count 0x22 0 1 4
  { s1 with
    nand := { s1.nand with pages := sput s1.nand.pages l p }
    ftl := { s1.ftl with sinceFlush := s1.ftl.sinceFlush + 16384 } }

/-- A staged IU whose wordline and stripe parity have programmed: the map, or the version table, takes the location and
the slot frees (R436). -/
def State.commitStaged (s : State) (x : Staged) (l : Nat) : State :=
  let s1 := { s with ftl := { s.ftl with
    staging := s.ftl.staging.filter fun y => !(y.iu == x.iu && y.seq == x.seq), records := s.ftl.records + 1 } }
  if s.isVersion x then
    { s1 with ftl := { s1.ftl with versions := s1.ftl.versions.map fun v =>
        if v.iu = x.iu ∧ v.seq = x.seq then { v with loc := some l } else v } }
  else s1.setMap x.iu 1 l

/-- Staged IUs of host and compute writes that wait for a program on a package, in sequence order. -/
def State.toProgram (s : State) (c : Nat) : List Staged :=
  s.ftl.staging.filter fun x => x.loc.isNone && s.packageOf (iuTier x.iu) == c

/-- First pages of up to `np` wordlines from data position `pos` on, all of one die at one wordline (R403, R435). -/
def State.wordlines (s : State) (c b pos : Nat) : Nat → List Nat
  | 0 => []
  | np + 1 => match s.locAt c b pos with
    | none => []
    | some l => l :: ((s.wordlines c b (pos + 3) np).filter fun m => locDie m == locDie l && locPage m == locPage l)

/-- The parity page of a stripe programs with the stripe's last data wordline, or where `force` closes it (R416, R417): `l` is a
page of the wordline. -/
def State.closeStripe (s : State) (l : Nat) (force : Bool) : State :=
  let c := locCol l
  let b := locBlock l
  let k := locPlane l
  let n := locPage l / 3 * 3 + 3
  match s.parityDie c b k with
  | none => s
  | some d =>
    let key := blockKey c d k b
    let full := (s.stripeDies c b k).all fun e => e == d || decide (n ≤ (s.block (blockKey c e k b)).next)
    if (full ∨ force) ∧ (s.block key).next < n then s.advanceBlock key (locPage l) else s

/-- Every data wordline of the stripe of page `l` has programmed, and its parity (R417, R436). -/
def State.stripeDone (s : State) (l : Nat) : Bool :=
  match s.parityDie (locCol l) (locBlock l) (locPlane l) with
  | none => true
  | some d => decide (locPage l / 3 * 3 + 3 ≤ (s.block (blockKey (locCol l) d (locPlane l) (locBlock l))).next)

/-- Wordlines programmed with staged IUs, three to each. -/
def State.programWls (s : State) : List Nat → List Staged → State
  | [], _ => s
  | l :: ls, xs =>
    let put (t : State) (p : Staged × Nat) : State :=
      let t1 := t.programPage (l + p.2) p.1
      { t1 with ftl := { t1.ftl with staging := t1.ftl.staging.map fun (y : Staged) => if y.seq = p.1.seq then { y with loc := some (l + p.2) } else y } }
    let s1 := ((xs.take 3).zipIdx).foldl put s
    ((s1.advanceBlock (l / 2048) (locPage l)).closeStripe l false).programWls ls (xs.drop 3)

/-- One round of the hold-up flush on a package: the next wordlines of the USER stream take what is staged. -/
def State.flushRound (s : State) (c : Nat) : State :=
  match s.openNext c 0 false with
  | none => s
  | some ((b, pos), s0) =>
    let ls := s0.wordlines c b pos 6
    (s0.programWls ls (s0.toProgram c)).setPos c 0 b (pos + 3 * ls.length)

/-- Rounds of the flush while IUs wait. -/
def State.flushRounds (s : State) (c : Nat) : Nat → State
  | 0 => s
  | n + 1 => if (s.toProgram c).isEmpty then s else (s.flushRound c).flushRounds c n

/-- The staging flush of R442: every staged IU is programmed in the order of R435, open stripes are closed with their parity, and
the IUs enter the map, or the version table. -/
def State.stagingFlush (s : State) : State :=
  let s1 := s.packages.foldl (fun t c => t.flushRounds c t.ftl.staging.length) s
  let s2 := (s1.ftl.staging.filterMap fun x => x.loc).foldl (fun t l => t.closeStripe l true) s1
  s2.ftl.staging.foldl (fun t x => match x.loc with
    | some l => t.commitStaged x l
    | none => t) s2

/-! ### Placement copies and heat (R257 to R260) -/

/-- A placement copy dropped: DROPS counts, its T1 page is free. -/
def State.dropCopy (s : State) (tk : Nat) : State :=
  match sget? s.tiers.copies tk with
  | none => s
  | some c =>
    let n := s.fget64 glob_DROPS_LO glob_DROPS_HI 0
    let s1 := if c.done then s.fset64 glob_DROPS_LO glob_DROPS_HI 0 (n + 1) else s
    { s1 with tiers := { s1.tiers with copies := serase s1.tiers.copies tk, heat1 := serase s1.tiers.heat1 c.t1 } }

/-- Copies whose T2 page satisfies `p` dropped. -/
def State.dropCopies (s : State) (p : Nat → Bool) : State :=
  ((s.tiers.copies.map Prod.fst).filter p).foldl (fun t k => t.dropCopy k) s

/-- A write accepted for T2 pages: copies in progress are abandoned, finished ones hold the new bytes (R260). -/
def State.copiesOnWrite (s : State) (ius : List Nat) : State :=
  s.dropCopies fun tk => (match sget? s.tiers.copies tk with
    | some c => !c.done
    | none => false) && ius.any fun iu => iuTier iu == tk

/-- Copies of the tier pages that a range touches dropped (R260, R444). -/
def State.dropCopiesOf (s : State) (ius : List Nat) : State := s.dropCopies fun tk => ius.any fun iu => iuTier iu == tk

/-- T2 heat of a read of `n` bytes at `off`: one for each aligned 64 KiB that it meets (log 58), saturating at 255; and the home hint (R257). -/
def State.heatT2 (s : State) (ns off n hint : Nat) : State :=
  ((List.range ((off + n + 65535) / 65536 - off / 65536)).foldl (fun t i =>
    let tk := tierKey ns ((off / 65536 + i) / 32)
    { t with tiers := { t.tiers with
      heat2 := sput t.tiers.heat2 tk (satAdd (sget t.tiers.heat2 tk 0) 1 255)
      hint := sput t.tiers.hint tk hint } }) s)

/-- Bytes served by finished copies on an allowed stack are counted, and the others are flash reads (R259, R261, R26).
Unmapped and staged IUs read neither. -/
def State.countReads (s : State) (ius : List Nat) (reached : List Nat) : State :=
  ius.foldl (fun t iu =>
    if t.ftl.staging.any (fun x => x.iu == iu) ∨ (t.newest iu).1 ≠ 1 then t
    else
      let byCopy : Bool := t.fget glob_ARMED 0 == 0 && (match sget? t.tiers.copies (iuTier iu) with
        | some c => c.done && reached.contains (c.t1 / 24576)
        | none => false)
      if byCopy then
        t.fset64 glob_COPY_READ_BYTES_LO glob_COPY_READ_BYTES_HI 0
          (t.fget64 glob_COPY_READ_BYTES_LO glob_COPY_READ_BYTES_HI 0 + 4)
      else
        let c := t.packageOf (iuTier iu)
        (t.fset64 col_NAND_READ_LO col_NAND_READ_HI c (t.fget64 col_NAND_READ_LO col_NAND_READ_HI c + 4)).count 0x21 c 0 1) s

end Sys2Proof.Machine
end

