-- ==== Sys2Proof/Machine/Home.lean ====
section
/-!
DEFINITION. Homes and the end of tasks: which physical units serve a home, taking and releasing them, dropping a
context's work, the Context Error log, faults and the freeze, teardown, and the reset of every context
(06_compute_commands.md, 11_contexts_and_scheduling.md).
-/

namespace Sys2Proof.Machine

/-! ### Griddles and regions -/

/-- The physical Griddle (page instance) of Hob `h` that serves logical number `g` (R189, R575). -/
def State.physGriddle (s : State) (h g : Nat) : Option Nat :=
  ((List.range 17).map (17 * h + ·)).find? fun i =>
    s.fget (hdr_IN_SERVICE 0x11) i = 1 && s.fget (hdr_LOGICAL_INDEX 0x11) i = g && s.fget (hdr_STATE 0x11) i ≠ 5

/-- REGION_OWNER of region `r`. -/
def grid_OWNER (r : Nat) : Field :=
  if r = 0 then grid_REGION0_OWNER else if r = 1 then grid_REGION1_OWNER else if r = 2 then grid_REGION2_OWNER
  else grid_REGION3_OWNER

/-- Regions of a partition mode (R181). -/
def regionsOfMode (m : Nat) : Nat := if m = 0 then 1 else if m = 1 then 2 else 4

/-- Logical rows, logical columns and largest M_COUNT of a partition mode, the limits that a GRIDDLE_MM is checked against (R172, Table 07-3).
The fill-to-drain latency F of R172 is timing. -/
def modeRows (m : Nat) : Nat := if m = 2 then 128 else 256
def modeCols (m : Nat) : Nat := if m = 0 then 256 else 128
def modeVecs (m : Nat) : Nat := if m = 2 then 128 else 256

/-- A region's contents. -/
def State.region (s : State) (i r : Nat) : Region := sget s.units.regions (4 * i + r) Region.empty

/-- `s` with a region's contents replaced. -/
def State.setRegion (s : State) (i r : Nat) (x : Region) : State :=
  { s with units := { s.units with regions := sput s.units.regions (4 * i + r) x } }

/-- STATE nibble of a region, BUSY apart. -/
def State.regionState (s : State) (i r : Nat) : Nat := bits (s.fget grid_REGION_STATE i) (4 * r) 3

/-- A region's STATE set. -/
def State.setRegionState (s : State) (i r v : Nat) : State :=
  s.fset grid_REGION_STATE i (s.fget grid_REGION_STATE i - 2 ^ (4 * r) * s.regionState i r + 2 ^ (4 * r) * v)

/-- The owner of region `r`. -/
def State.regionOwner (s : State) (i r : Nat) : Nat := s.fget (grid_OWNER r) i

/-- OWNER_CONTEXT of a Griddle page from its regions' owners (R190). -/
def State.refreshOwner (s : State) (i : Nat) : State :=
  let os := ((List.range 4).map fun r => s.regionOwner i r).filter (· ≠ 0xFF)
  let v := match os with
    | [] => 0xFF
    | o :: t => if t.all (· == o) then o else 0xFE
  s.fset (hdr_OWNER_CONTEXT 0x11) i v

/-- PART_MODE set to a new mode: weights, shadows and tile shares become invalid and EMPTY, and the regions of the mode
take the page's STATE (R181). -/
def State.setMode (s : State) (i m : Nat) : State :=
  if s.fget grid_PART_MODE i = m then s
  else
    let s1 := (s.fset grid_PART_MODE i m).fset grid_REGIONS i (regionsOfMode m)
    let s2 := { s1 with units := { s1.units with regions := sdropRange s1.units.regions (4 * i) (4 * i + 4) } }
    s2.fset grid_REGION_STATE i (((List.range (regionsOfMode m)).map fun r => 2 ^ (4 * r) * s.fget (hdr_STATE 0x11) i).sum)

/-! ### Requests and homes -/

/-- Hobs that a request uses. -/
def Request.hobs (r : Request) : List Nat := (List.range 2).filter fun h => r.uses h

/-- Mode and region mask of logical Griddle `g` on Hob `h` (Table 11-1). -/
def Request.gMode (r : Request) (h g : Nat) : Nat := if g < 16 then bits (r.griddles.getD (16 * h + g) 0) 0 2 else 0
def Request.gMask (r : Request) (h g : Nat) : Nat := if g < 16 then bits (r.griddles.getD (16 * h + g) 0) 2 4 else 0

/-- The request names channel `n`, data macro-group `n`, unit bit `n` of Hob `h`, or semaphore `n`. -/
def Request.ladle (r : Request) (h n : Nat) : Bool := bit (r.ladles.getD h 0) n
def Request.sbGroup (r : Request) (h n : Nat) : Bool := bit (r.sbs.getD h 0) n
def Request.unit (r : Request) (h n : Nat) : Bool := bit (r.units.getD h 0) n
def Request.holdsSem (r : Request) (n : Nat) : Bool :=
  (List.range 2).any fun h => decide (r.semBase.getD h 0 ≤ n) && decide (n < r.semBase.getD h 0 + r.semCount.getD h 0)

/-- Semaphores of a request. -/
def Request.semsOf (r : Request) : List Nat :=
  (List.range 2).flatMap fun h => (List.range (r.semCount.getD h 0)).map (r.semBase.getD h 0 + ·)

/-- Two homes overlap (R277). -/
def Request.overlaps (a b : Request) : Bool :=
  Nat.land a.shares b.shares != 0 ||
  a.semsOf.any (fun n => b.holdsSem n) ||
  (List.range 2).any fun h =>
    Nat.land (a.ladles.getD h 0) (b.ladles.getD h 0) != 0 || Nat.land (a.sbs.getD h 0) (b.sbs.getD h 0) != 0 ||
    Nat.land (a.units.getD h 0) (b.units.getD h 0) != 0 ||
    (List.range 16).any fun g =>
      a.gMask h g != 0 && b.gMask h g != 0 &&
        (a.gMode h g != b.gMode h g || Nat.land (a.gMask h g) (b.gMask h g) != 0)

/-- Key of a macro-group among the units classified for retirement. -/
def groupKey (h g : Nat) : Nat := 2 ^ 20 + 64 * h + g

/-- Some unit of a home is classified for retirement (R465). -/
def State.homeClassified (s : State) (r : Request) : Bool :=
  r.hobs.any fun h =>
    (List.range 16).any (fun g => r.gMask h g != 0 && (s.physGriddle h g).any fun i => s.units.retiring.contains i) ||
    (List.range 64).any (fun n => r.ladle h n && s.units.retiring.contains (pageNo 0x12 (64 * h + n))) ||
    (List.range 4).any (fun n => r.unit h n && s.units.retiring.contains (pageNo 0x13 (4 * h + n))) ||
    (r.unit h 4 && s.units.retiring.contains (pageNo 0x17 h)) || (r.unit h 5 && s.units.retiring.contains (pageNo 0x18 h)) ||
    (List.range 48).any fun g => r.sbGroup h g && s.units.retiring.contains (groupKey h g)

/-- Some unit of a home was retired with no unit in its place, or its shares of the Hob-to-Hob link no longer exist (R299, R470). -/
def State.homeLost (s : State) (r : Request) : Bool :=
  (r.pairing == 2 && s.rel.hobFault) || r.hobs.any fun h =>
    (List.range 16).any (fun g => r.gMask h g != 0 && (s.physGriddle h g).isNone) ||
    (List.range 64).any (fun n => r.ladle h n && s.fget (hdr_STATE 0x12) (64 * h + n) == 5) ||
    (List.range 4).any (fun n => r.unit h n && s.fget (hdr_STATE 0x13) (4 * h + n) == 5) ||
    (r.unit h 4 && s.fget (hdr_STATE 0x17) h == 5) || (r.unit h 5 && s.fget (hdr_STATE 0x18) h == 5) ||
    (List.range 48).any fun g => r.sbGroup h g &&
      bit (s.fget sb_RETIRED_MAP0 h + 2 ^ 32 * s.fget sb_RETIRED_MAP1 h) g

/-- Every Griddle of a home may be allocated (R185, R187): no SPARE_PENDING, no self-check, and no region of it FAULTED that the home names, or, where
the home sets another partition mode, none at all: a faulted region keeps its mode until its check. -/
def State.griddlesFree (s : State) (r : Request) : Bool :=
  r.hobs.all fun h => (List.range 16).all fun g => r.gMask h g == 0 ||
    match s.physGriddle h g with
    | none => true
    | some i => s.fget grid_SPARE_PENDING i == 0 && s.fget grid_SELF_CHECK_BUSY i == 0 &&
        (List.range 4).all fun k => !((bit (r.gMask h g) k || s.fget grid_PART_MODE i != r.gMode h g) && s.regionState i k == 4)

/-- Every unit of a home has one owner set in its page; `c` = 0xFF releases (R61, R190, R276). -/
def State.setHome (s : State) (r : Request) (c : Nat) : State :=
  let s1 := r.hobs.foldl (fun t h =>
    let t1 := (List.range 16).foldl (fun t g =>
      if r.gMask h g = 0 then t else match t.physGriddle h g with
        | none => t
        | some i =>
          let t1 := if c = 0xFF then t else t.setMode i (r.gMode h g)
          ((List.range 4).foldl (fun t k => if bit (r.gMask h g) k then t.fset (grid_OWNER k) i c else t) t1).refreshOwner i) t
    let t2 := (List.range 64).foldl (fun t n =>
      if r.ladle h n then t.fset (hdr_OWNER_CONTEXT 0x12) (64 * h + n) c else t) t1
    let t3 := (List.range 4).foldl (fun t n =>
      if r.unit h n then t.fset (hdr_OWNER_CONTEXT 0x13) (4 * h + n) c else t) t2
    let t4 := if r.unit h 4 then t3.fset (hdr_OWNER_CONTEXT 0x17) h c else t3
    let t5 := if r.unit h 5 then t4.fset (hdr_OWNER_CONTEXT 0x18) h c else t4
    (List.range 48).foldl (fun t g => if r.sbGroup h g then t.fset (sb_GROUP_OWNER g) h c else t) t5) s
  { s1 with cp := { s1.cp with semOwner := r.semsOf.foldl (fun m n =>
      if c = 0xFF then serase m n else sput m n c) s1.cp.semOwner } }

/-- The home taken. -/
def State.ownHome (s : State) (r : Request) (c : Nat) : State := s.setHome r c

/-- HALTED clears on the channels that are freed (R240). -/
def State.clearHalts (s : State) (r : Request) : State :=
  r.hobs.foldl (fun t h => (List.range 64).foldl (fun t n =>
    if r.ladle h n ∧ t.fget ladle_HALTED (64 * h + n) = 1 then t.fset ladle_HALTED (64 * h + n) 0 else t) t) s

/-- The home released. -/
def State.releaseHome (s : State) (r : Request) : State := (s.setHome r 0xFF).clearHalts r

/-! ### Contexts -/

/-- `s` with context `c` replaced. -/
def State.setCtx (s : State) (c : Nat) (x : Ctx) : State := { s with cp := { s.cp with ctxs := sput s.cp.ctxs c x } }

/-- The log of a context before any fault. -/
def CtxLog.empty : CtxLog :=
  { state := 0, sqid := 0, cid := 0, code := 0, index := 0, case := 0, hob := 0, ucls := 0xFF, uinst := 0, tick := 0,
    dtc := 0, info := 0, later := 0, held := [], freezes := 0, slot := 0, regs := [], sems := [] }

/-- Task registers at reset, before a task-register load (Table 06-4). -/
def TaskRegs.init : TaskRegs :=
  { slot := 0, progBase := 0, issueIndex := 0, lastYield := 0x1FFFF, loops := [0, 0, 0, 0],
    loopActive := [false, false, false, false], loopFrom := [0, 0, 0, 0], iters := [0, 0, 0, 0], heldSem := 0, result := 0,
    flags := 0, startTick := 0, paceOffset := 0, base := [0, 0, 0, 0, 0, 0, 0, 0], argBase := 0, timeLimit := 0, mrs := 0,
    seed := 0 }

/-- The registers of a sequencer that its context does not use, as the Context Error log shows them (Table 06-10). -/
def TaskRegs.unused : TaskRegs := { TaskRegs.init with lastYield := 0 }

/-- The registers of sequencer `h` as the last task of a context left them (R149). -/
def Ctx.lastRegs (x : Ctx) (h : Nat) : TaskRegs := x.last.getD h TaskRegs.init

/-- The task registers that a Context Error log shows: zeros for a Hob that the context does not use (R163). -/
def Ctx.logRegs (x : Ctx) (f : Nat → TaskRegs) : List TaskRegs :=
  (List.range 2).map fun h => if x.req.uses h then f h else TaskRegs.unused

/-- The registers of one Hob's sequencer. -/
def Task.regs (t : Task) (h : Nat) : TaskRegs := if h = 0 then t.regs0 else t.regs1
def Task.setRegs (t : Task) (h : Nat) (r : TaskRegs) : Task :=
  if h = 0 then { t with regs0 := r } else { t with regs1 := r }
def Task.wait (t : Task) (h : Nat) : CtlWait := if h = 0 then t.wait0 else t.wait1
def Task.setWait (t : Task) (h : Nat) (w : CtlWait) : Task :=
  if h = 0 then { t with wait0 := w } else { t with wait1 := w }
def Task.ended (t : Task) (h : Nat) : Bool := if h = 0 then t.ended0 else t.ended1

/-- Completion flags of a task (Table 06-8): those written to FLAGS and the model's own marks. -/
def Task.flagsOf (t : Task) : Nat :=
  Nat.lor (Nat.lor t.regs0.flags t.regs1.flags) (8 * b2n t.slipped + 16 * b2n t.replayed)

/-- A task's flags with bit `b` set, in both sequencers. -/
def Task.flag (t : Task) (b : Nat) : Task :=
  { t with regs0 := { t.regs0 with flags := setBit t.regs0.flags b }, regs1 := { t.regs1 with flags := setBit t.regs1.flags b } }

/-- The registers that a task leaves behind (R149). -/
def Task.leave (t : Task) : List TaskRegs := [t.regs0, t.regs1]

/-- The registers of a task that has ended with success: its Dword 0 flags are in FLAGS (R157). -/
def Task.leaveDone (t : Task) : List TaskRegs := t.leave.map fun r => { r with flags := t.flagsOf }

/-- Commands held in intake for a context, in submission order. -/
def State.heldOf (s : State) (c : Nat) : List Intake :=
  s.host.intake.filter fun e => match e.kind with
    | .compute k => k == c && !e.begun
    | _ => false

/-- The contexts a function holds. -/
def State.ctxsOf (s : State) (fn : Nat) : List Nat := (s.cp.ctxs.filter fun p => p.2.req.fn == fn).map Prod.fst

/-! ### Device time as bytes (Table 05-11) -/

/-- The DTC as 12 bytes: frac, ns, seconds. -/
def dtcBytes (d : Nat) : List Byte :=
  let ns := d / 2 ^ 48
  natLE (d / 2 ^ 32 % 65536) 2 ++ natLE (ns % 1000000000) 4 ++ natLE (ns / 1000000000) 6

/-! ### Dropping work -/

/-- Every descriptor of a context leaves its units, except the running moves and steps that `keepRun` and `keepStep` name: passes, streams,
hand-overs and table loads of its regions, moves of its channels, its SB port bindings; tile shares of its regions become EMPTY. -/
def State.dropExcept (s : State) (c : Nat) (keepRun : Nat → Move → Bool) (keepStep : Nat → PuuStep → Bool) : State :=
  let own (k : Nat) : Bool := s.regionOwner (k / 4) (k % 4) == c
  let runs := s.units.chans.filterMap fun p => (p.2.run.filter fun m => m.ctx == c && keepRun p.1 m).map (·.ser)
  let steps := s.units.puu.filterMap fun p => (p.2.head?.filter fun k => k.ctx == c && keepStep p.1 k).map (·.ser)
  { s with
    units := { s.units with
    regions := s.units.regions.map fun p =>
      if own p.1 then (p.1, { p.2 with passes := [], feeds := [], loads := [], hands := [], rowSums := [],
                                        tiles := Region.empty.tiles, issShadow := [], issActive := none,
                                        issOpen := [none, none], shadow := none, active := [], zeroed := false, acc := none, cfg := none,
                                        act := [none, none], chan := [none, none], handCount := 0 })
      else p
    chans := s.units.chans.map fun p =>
      (p.1, { queue := p.2.queue.filter (fun m => m.ctx ≠ c), run := p.2.run.filter fun m => m.ctx ≠ c || runs.contains m.ser })
    whisks := if runs.isEmpty then s.units.whisks.filter fun p => s.fget (hdr_OWNER_CONTEXT 0x13) p.1 ≠ c else s.units.whisks
    puu := s.units.puu.map fun p => (p.1, p.2.filter fun k => k.ctx ≠ c || steps.contains k.ser)
    bound := s.units.bound.filter fun b => b.ctx ≠ c || runs.contains b.ser || steps.contains b.ser
    portWait := s.units.portWait.filter fun p => p.2 ≠ c }
    arb := { s.arb with waiting := s.arb.waiting.filter fun (q : ArbReq) =>
      q.cp == 1 || q.ctx ≠ c || runs.contains q.ser || steps.contains q.ser } }

/-- Every descriptor of a context leaves its units. -/
def State.dropWork (s : State) (c : Nat) : State := s.dropExcept c (fun _ _ => false) fun _ _ => false

/-- A move whose source or destination is a port of a region. -/
def Move.atPort (m : Move) : Bool :=
  m.job.isNone && (bits (fld m.record 0 1) 0 4 == 7 || bits (fld m.record 0 1) 4 4 == 7)

/-- Regions of memory that a stopped task was writing hold undefined bytes (R160). -/
def State.spoil (s : State) (ws : List (Nat × Nat × Nat)) : State :=
  ws.foldl (fun t w =>
    let k := some t.freeCount
    let t1 := { t with freeCount := t.freeCount + 1 }
    if w.1 = 0 then { t1 with cp := { t1.cp with sb := t1.cp.sb.fill w.2.1 w.2.2 k } }
    else if w.1 = 1 then { t1 with tiers := { t1.tiers with hbm := t1.tiers.hbm.fill w.2.1 w.2.2 k } }
    else { t1 with host := { t1.host with mem := t1.host.mem.fill w.2.1 w.2.2 k } }) s

/-- The data macro-groups of a home become undefined (R284). -/
def State.spoilHome (s : State) (r : Request) : State :=
  s.spoil (r.hobs.flatMap fun h => ((List.range 48).filter fun g => r.sbGroup h g).map fun g =>
    (0, h * 2 ^ 28 + g * 2 ^ 22, 2 ^ 22))

/-! ### What ends with a task (R348, R351, R386) -/

/-- Filter slots of a context become invalid, and the table slots of each Hob whose Skimmer it holds (R348, R351). -/
def State.clearSlots (s : State) (c : Nat) : State :=
  { s with near := { s.near with
    fslots := s.near.fslots.filter fun p => p.1 / 2 % 64 ≠ c
    tslots := s.near.tslots.filter fun p => s.fget (hdr_OWNER_CONTEXT 0x17) (p.1 / 64 / 32) ≠ c } }

/-- The epoch at which a task reads a domain; 0 where it had published none. -/
def Task.epochOf (t : Task) (dom : Nat) : Nat := match t.epochs.find? fun e => e.1 == dom with
  | some e => e.2
  | none => 0

/-- Epochs of a domain that the tasks of other contexts than `c` read (64: none is left out), and that of tasks which start at this tick where it has
advanced already (R386). -/
def State.readersOf (s : State) (dom c : Nat) : List Nat :=
  (s.cp.ctxs.filterMap fun p => if p.1 = c then none else p.2.task.map fun t => t.epochOf dom) ++
  (match sget? s.ftl.domains dom with
   | some k => if k.epochAt s.tick = k.epoch then [] else [k.epochAt s.tick]
   | none => [])

/-- A retained version is still read: some reader's epoch lies above every older retained version of its IU. -/
def State.versionRead (s : State) (v : Version) : Bool :=
  match v.upto with
  | none => true
  | some u => (s.readersOf v.dom 64).any fun e => decide (e ≤ u) && s.ftl.versions.all fun w =>
      !(w.iu == v.iu && (match w.upto with
        | some k => decide (k < u) && decide (e ≤ k)
        | none => false))

/-- Versions and VISIBLE of epochs that no task reads any more go, and domains that were released with them
(R386, R387). -/
def State.prune (s : State) : State :=
  let keep (v : Version) : Bool := s.versionRead v
  let gone := s.ftl.versions.filter fun v => !keep v
  let doms := s.ftl.domains.map fun p => (p.1, { p.2 with hist := p.2.hist.filter fun h => (s.readersOf p.1 64).contains h.1 })
  { s with ftl := { s.ftl with
    versions := s.ftl.versions.filter keep
    staging := s.ftl.staging.filter fun x => !gone.any fun v => v.loc.isNone && v.seq == x.seq
    domains := doms.filter fun p => p.2.live || !p.2.hist.isEmpty || (s.readersOf p.1 64).any (· != 0) } }

/-! ### Completion of tasks -/

/-- RECORD_ADDR of a task (Table 06-3). -/
def ExecCmd.recordAddr (e : ExecCmd) : Nat := leNat ((e.arg.drop 64).take 8)

/-- The completion record of R158 written to host memory. -/
def State.writeRecord (s : State) (t : Task) (sct sc dw0 : Nat) : State :=
  let a := t.exec.recordAddr
  if a = 0 then s
  else
    let bs := natLE t.start 8 ++ natLE s.tick 8 ++ dtcBytes s.time.dtc ++ natLE (256 * sct + sc) 2 ++
      natLE (dw0 % 65536) 2
    ({ s with host := { s.host with mem := s.host.mem.writeL a bs } } : State).pcie 64 bs.length

/-- A task's completion: its record, then its completion entry (R155, R157, R158). -/
def State.postTask (s : State) (t : Task) (sct sc dw0 dw1 : Nat) : State :=
  (s.writeRecord t sct sc dw0).complete t.exec.cmd sct sc dw0 dw1

/-- Aborts that wait for a task which has ended otherwise report that they did not catch it (R122, R167). -/
def State.missAborts (s : State) (cmd : CmdId) : State :=
  ((s.ctrl cmd.fn).aborts.filter fun a => a.2.1 == cmd).foldl (fun u a =>
    let k := u.ctrl a.1.fn
    ((u.setCtrl a.1.fn { k with aborts := k.aborts.filter (· ≠ a) }).fbump front_ABORT_MISSED 0 1).complete a.1 0 0 1) s

/-! ### Faults and the freeze (R159 to R163) -/

/-- Codes of CONTEXT severity (R161, and the block chapters' tables). -/
def contextSeverity (code : Nat) : Bool :=
  (decide (0x20 ≤ code) && decide (code ≤ 0x25)) || code == 0x40 || code == 0x42 || code == 0x48 || code == 0x4C ||
  code == 0x4D || code == 0x50 || code == 0x57 || code == 0x5D || code == 0x5F

/-- A fault as its unit reports it: code, descriptor index (0xFFFF none), case, Hob, unit class (0xFF none) and
instance, detail. -/
structure FaultInfo where
  code : Nat
  index : Nat
  case : Nat := 0
  hob : Nat := 0
  ucls : Nat := 0xFF
  uinst : Nat := 0
  info : Nat := 0
deriving DecidableEq, Repr

/-- Opcode and slot of a held command: kinds 0 Execute Program, 1 Load Program, 2 Program Activation Management,
3 Memory Range Set Management, whose opcodes the spec takes from the public command set; 4 a command that the queue does not accept (log 16). -/
def Intake.heldEntry (e : Intake) : Nat × Nat :=
  match e.op with
  | some (.load k _ _) => (Config.computeOpcode 1, k)
  | some (.activation k _) => (Config.computeOpcode 2, k)
  | some (.ranges _ _) => (Config.computeOpcode 3, 0xFF)
  | some (.invalid _ _) => (Config.computeOpcode 4, 0xFF)
  | none => (Config.computeOpcode 0, match e.exec with
    | some x => x.slot
    | none => 0xFF)

/-- HELD_LIST of a context: CID, opcode, slot (Table 06-10). -/
def State.heldList (s : State) (c : Nat) : List (Nat × Nat × Nat) :=
  (s.heldOf c).map fun e => (e.cmd.cid, e.heldEntry)

/-- What R159 lets run to its end when a task faults: the moves that run between memories and the steps that run, but for those of the faulting
unit. The other descriptors of a port, a pass or a hand-over have their other side discarded with the work that had not started, and end with the
fault. DEDUCED (log 39). -/
def State.dropUnstarted (s : State) (c : Nat) (f : FaultInfo) : State :=
  s.dropExcept c (fun k m => !m.atPort && !(f.ucls == 0x12 && f.uinst == k)) fun h _ => !(f.ucls == 0x18 && f.uinst == h)

/-- Serial numbers of the descriptors of a context that its channels run and its PUUs run or hold. -/
def State.startedSers (s : State) (c : Nat) : List Nat :=
  (s.units.chans.filterMap fun p => (p.2.run.filter fun m => m.ctx == c).map (·.ser)) ++
  (s.units.puu.flatMap fun p => (p.2.filter fun k => k.ctx == c).map (·.ser))

/-- The Context Error log that a fault writes. -/
def State.faultLog (s : State) (c : Nat) (x : Ctx) (t : Task) (f : FaultInfo) : CtxLog :=
  { state := if contextSeverity f.code then 2 else 1
    sqid := t.exec.cmd.sq, cid := t.exec.cmd.cid, code := f.code, index := f.index, case := f.case, hob := f.hob,
    ucls := f.ucls, uinst := f.uinst, tick := s.tick, dtc := s.time.dtc, info := f.info, later := 0,
    held := (s.heldList c).filter fun h => h.1 ≠ t.exec.cmd.cid
    freezes := x.log.freezes + 1, slot := t.exec.slot, regs := x.logRegs t.regs
    sems := x.req.semsOf.map fun n => sget s.cp.sems n 0 }

/-- The freeze that ends a faulted task (R159, R160, R163, R284): the bytes it was writing become undefined, the error completion is posted, the
queue freezes, the log is written, the home is released, and the event is posted and recorded. -/
def State.freezeTask (s : State) (c : Nat) (x : Ctx) (t : Task) (lg0 : CtxLog) : State :=
  let lg := { lg0 with held := (s.heldList c).filter fun h => h.1 ≠ t.exec.cmd.cid }
  let s1 := (((s.clearSlots c).dropWork c).spoil t.writes).postTask t 1 0xD0 (lg.code + 65536 * lg.index) (lg.case + 256 * lg.hob)
  let sm := s1.missAborts t.exec.cmd
  let s2 := if x.st.loaded then sm.releaseHome x.req else sm
  let s3 := s2.setCtx c { x with
    st := .frozen, task := none, saved := none, preempt := 0, severity := lg.state, log := lg, logRead := false,
    abortWait := false, fault := none, last := t.leave }
  (s3.prune.recEv 0x04 0 0x0400 (le lg.code 2 ++ le lg.index 2 ++ [lg.case]) c).aer x.req.fn 7 1 c

/-- A faulted task whose started descriptors have all ended freezes its context (R159). -/
def State.endFault (s : State) (c : Nat) : State :=
  match s.ctx? c with
  | none => s
  | some x => match x.task, x.fault with
    | some t, some lg => if t.inflight.isEmpty then s.freezeTask c x t lg else s
    | _, _ => s

/-- The fault reported of two (R162): the one first detected; of two detected at the same tick the lower code, then Hob 0. The other is counted. -/
def State.laterFault (s : State) (c : Nat) (x : Ctx) (t : Task) (lg : CtxLog) (f : FaultInfo) : CtxLog :=
  let n := satAdd lg.later 1 65535
  if lg.tick = s.tick ∧ (f.code < lg.code ∨ (f.code = lg.code ∧ f.hob < lg.hob)) then { s.faultLog c x t f with later := n }
  else { lg with later := n }

/-- A fault of a context with a task (R159): issue stops, descriptors that have not started are discarded, those that have started run to
their end, but for the faulting unit's; then the context freezes. A fault that finds the context faulted or frozen is counted (R162). -/
def State.faultCtx (s : State) (c : Nat) (f : FaultInfo) : State :=
  match s.ctx? c with
  | none => s
  | some x =>
    if x.st = .frozen then
      s.setCtx c { x with log := { x.log with later := satAdd x.log.later 1 65535 } }
    else match x.task with
      | none => s
      | some t => match x.fault with
        | some lg => s.setCtx c { x with fault := some (s.laterFault c x t lg f) }
        | none =>
          let s1 := s.dropUnstarted c f
          let run := s1.startedSers c
          let t1 := { t with inflight := t.inflight.filter fun e => run.contains e.ser, signals := [] }
          (s1.setCtx c { x with fault := some (s.faultLog c x t f), task := some t1 }).endFault c

/-- A task error whose completion is not Task Fault: the queue freezes in the same way (R159). -/
def State.taskError (s : State) (c : Nat) (sc : Nat) : State :=
  match s.ctx? c with
  | none => s
  | some x => match x.task with
    | none => s
    | some t =>
      let lg := { s.faultLog c x t { code := 0, index := 0xFFFF } with state := 1 }
      let s1 := ((s.clearSlots c).dropWork c).complete t.exec.cmd 1 sc
      let s2 := ((s1.missAborts t.exec.cmd).releaseHome x.req).setCtx c { x with
        st := .frozen, task := none, saved := none, preempt := 0, severity := 1, log := lg, logRead := false, fault := none
        last := t.leave }
      (s2.prune.recEv 0x04 0 0x0400 (le 0 2 ++ le 0xFFFF 2 ++ [0]) c).aer x.req.fn 7 1 c

/-! ### Teardown and resets (R165, R20) -/

/-- The T1 pages of a context return to the pool, with their marks and frozen granules (R265, R322). -/
def State.freeCtxPages (s : State) (c : Nat) (x : Ctx) : State :=
  { s with tiers := { s.tiers with
    marks := x.pages.foldl (fun m p => serase m p.2) s.tiers.marks
    heat1 := x.pages.foldl (fun m p => serase m p.2) s.tiers.heat1
    frozen := s.tiers.frozen.filter fun g => !x.pages.any fun p => p.2 == g / 2 ^ 20 * 24576 + g % 2 ^ 20 / 32
    batches := serase s.tiers.batches c } }

/-- The number is freed: program macro-groups, T1 pages, home, semaphore flags; the bound queue becomes unbound and
the log reads torn down (R145, R165). -/
def State.removeCtx (s : State) (c : Nat) (x : Ctx) : State :=
  let s1 := (if x.holdsHome then s.releaseHome x.req else s).freeCtxPages c x
  let s2 := x.req.hobs.foldl (fun t h =>
    let g := x.groups.getD h 48
    if 48 ≤ g then t
    else
      let t1 := t.fset (sb_GROUP_OWNER g) h 0xFF
      if g < 32 then t1.fclrBit sb_PROGRAM_MAP0 h g else t1.fclrBit sb_PROGRAM_MAP1 h (g - 32)) s1
  let sqs := match x.sq with
    | some k => (match sget? s2.host.sqs k with
      | some q => sput s2.host.sqs k { q with ctx := some 64 }
      | none => s2.host.sqs)
    | none => s2.host.sqs
  { s2 with
    host := { s2.host with sqs := sqs }
    ftl := { s2.ftl with domains := s2.ftl.domains.map fun p => (p.1, if p.2.writer = some c then { p.2 with writer := none } else p.2) }
    near := { s2.near with collections := s2.near.collections.map fun p => (p.1, if p.2.ctx = c then { p.2 with ctx := 64 } else p.2) }
    cp := { s2.cp with
      ctxs := serase s2.cp.ctxs c
      semPre := s2.cp.semPre.filter fun p => p.1 ≠ c
      oldLogs := sput s2.cp.oldLogs c { x.log with state := 3, owner := x.req.fn } } }

/-- Commands held for a context complete with Context Torn Down, in submission order (R165). -/
def State.dropHeld (s : State) (c : Nat) : State := (s.heldOf c).foldl (fun t e => t.complete e.cmd 1 0xD1) s

/-- A request of a context at crossing point 1 of each Hob it uses, other than a task-register load, is served (R43, R166). -/
def State.serveIntake (s : State) (c : Nat) (x : Ctx) : State := x.req.hobs.foldl (fun t h => t.serve 1 h c c) s

/-- Steps 1 and 2 of R165: a running task stops at once and completes with Context Torn Down, then every held command does; the context is
TEARING_DOWN and holds its home until the teardown completes. -/
def State.startTear (s : State) (c : Nat) : State :=
  match s.ctx? c with
  | none => s
  | some x =>
    if x.st = .tearingDown then s else
    let s0 := s.serveIntake c x
    let s1 := match x.task with
      | some t => ((((s0.clearSlots c).dropWork c).spoil t.writes).postTask t 1 0xD1 0 0).missAborts t.exec.cmd
      | none => (s0.clearSlots c).dropWork c
    let s2 := s1.dropHeld c
    s2.setCtx c { x with
      st := .tearingDown, holding := x.st.loaded, task := none, saved := none, preempt := 0, abortWait := false, fault := none }

/-- Step 3 of R165: the resources of a context in TEARING_DOWN are freed, and its queue is unbound. -/
def State.endTear (s : State) (c : Nat) : State :=
  match s.ctx? c with
  | none => s
  | some x => if x.st = .tearingDown then ((s.dropHeld c).removeCtx c x).prune else s

/-- An operation of CMD has finished: BUSY clears, DONE, RESULT and CONTEXT_OUT (R278, R302). -/
def State.cmdDone (s : State) (op force v result out : Nat) : State :=
  let s1 := ((s.fset ctxm_OP 0 op).fset ctxm_FORCE 0 force).fset ctxm_CONTEXT 0 v
  let s2 := (s1.fset ctxm_BUSY 0 0).fset ctxm_DONE 0 1
  (s2.fset ctxm_RESULT 0 result).fset ctxm_CONTEXT_OUT 0 out

/-- A teardown completes: step 3 of R165, and then the commands that asked for it, with the CMD word that did (step 4, R303). -/
def State.finishTear (s : State) (c : Nat) : State :=
  match s.ctx? c with
  | none => s
  | some x =>
    if x.st ≠ .tearingDown then s
    else
      let s1 := x.tearCmds.foldl (fun (t : State) k => t.succeed k) (s.endTear c)
      if x.tearWord then s1.cmdDone 2 0 c 0 c else s1

/-- A context is torn down: a running task and then every held command complete with Context Torn Down, and its
resources are freed (R165). -/
def State.tearDown (s : State) (c : Nat) : State := (s.startTear c).finishTear c

/-- A context removed by a reset: its commands are dropped with their queues (R20, R167); a CMD word that waits for its teardown ends. -/
def State.dropCtx (s : State) (c : Nat) : State :=
  match s.ctx? c with
  | none => s
  | some x =>
    let s1 := match x.task with
      | some t => ((s.clearSlots c).dropWork c).spoil t.writes
      | none => (s.clearSlots c).dropWork c
    let s2 := { s1 with host := { s1.host with intake := s1.host.intake.filter fun e => match e.kind with
      | .compute k => k ≠ c
      | _ => true } }
    let s3 := (s2.removeCtx c x).prune
    if x.tearWord then s3.cmdDone 2 0 c 0 c else s3

/-- Every context removed (R20). -/
def State.dropCtxs (s : State) : State := (s.cp.ctxs.map Prod.fst).foldl (fun t c => t.dropCtx c) s

/-! ### Home checks of descriptors -/

/-- A context holds region `r` of logical Griddle `g` on Hob `h`. -/
def State.holdsRegion (s : State) (c h g r : Nat) : Bool :=
  match s.physGriddle h g with
  | some i => s.regionOwner i r == c
  | none => false

/-- Result of checks 2 and 3 on a logical Griddle: the physical Griddle, or a fault code and case (Table 07-7). -/
def State.checkGriddle (s : State) (c : Nat) (x : Ctx) (h g r : Nat) : Except (Nat × Nat) Nat :=
  match s.physGriddle h g with
  | none => if x.req.gMask h g ≠ 0 then .error (0x4C, 0) else .error (0x04, 20)
  | some i =>
    if s.fget (hdr_STATE 0x11) i ≠ 2 then .error (0x20, 0)
    else if s.regionOwner i r ≠ c then .error (0x04, 20)
    else .ok i

/-- A context holds channel `n` of Hob `h`. -/
def State.holdsLadle (s : State) (c h n : Nat) : Bool := s.fget (hdr_OWNER_CONTEXT 0x12) (64 * h + n) == c

end Sys2Proof.Machine
end

