-- ==== Sys2Proof/Machine/Hbm.lean ====
section
/-!
DEFINITION. HBM: pool pages and their users, window marks, heat, and byte access by tier page
(10_memory_tiers.md). A T1 page is named by stack × 24,576 + page; a byte by stack × 2^36 + offset.
-/

namespace Sys2Proof.Machine

/-- Bytes of a tier page and of a stack (R250). -/
def tierBytes : Nat := 2 ^ 21
def stackBytes : Nat := 51539607552

/-- HBM address of a T1 page, and the T1 page of an HBM address. -/
def t1Addr (t : Nat) : Nat := t / 24576 * 2 ^ 36 + t % 24576 * tierBytes
def t1Of (a : Nat) : Nat := a / 2 ^ 36 * 24576 + a % 2 ^ 36 / tierBytes

/-- The HBM-kind address of a T1 page (Table 09-2). -/
def t1Form (t : Nat) : Nat := t1Addr t

/-- A stack with a retired pseudo-channel is unusable (R256). -/
def State.stackRetired (s : State) (k : Nat) : Bool :=
  s.fget hbm_PC_RETIRED_LO k + s.fget hbm_PC_RETIRED_HI k != 0

/-- Pages held by SLM, by contexts and by placement copies (Table 10-3). -/
def State.slmPages (s : State) : List Nat := s.host.namespaces.flatMap fun p => p.2.pages
def State.ctxPages (s : State) : List Nat := s.cp.ctxs.flatMap fun p => p.2.pages.map Prod.snd
def State.copyPages (s : State) : List Nat := s.tiers.copies.map fun p => p.2.t1

/-- Pool page `g` of stack `k` may take a new user once its present one, if a copy, is dropped. -/
def State.poolUsable (s : State) (t : Nat) : Bool :=
  decide (64 ≤ t % 24576) && !s.stackRetired (t / 24576) && !s.tiers.retired.contains t && !s.tiers.marked.contains t &&
    !s.tiers.device.contains t

/-- Free pool pages of a stack, lowest first. -/
def State.freePages (s : State) (k : Nat) : List Nat :=
  let used := (s.slmPages ++ s.ctxPages ++ s.copyPages).filter fun t => t / 24576 == k
  ((List.range 24576).map (24576 * k + ·)).filter fun t => s.poolUsable t && !used.contains t

/-- At a start-up the device region of each stack with a retired pseudo-channel is rebuilt from the lowest free pool pages of the
other usable stacks of its Hob, taken from them in turn (R256; log 31). -/
def State.rebuildDevice (s : State) : State :=
  let lost := (List.range 8).filter s.stackRetired
  let s0 : State := { s with tiers := { s.tiers with lost := lost, device := [] } }
  let take (k : Nat) : List Nat :=
    let others := ((List.range 4).map fun j => 4 * (k / 4) + j).filter fun j => !lost.contains j
    let before := (lost.filter fun j => decide (j < k) && j / 4 == k / 4).length
    (List.range 64).filterMap fun i => match others[i % others.length]? with
      | some j => ((((List.range 24576).map (24576 * j + ·)).filter s0.poolUsable)[(64 * before + i) / others.length]?)
      | none => none
  { s0 with tiers := { s0.tiers with device := (lost.flatMap take).eraseDups } }

/-- Number of free pool pages of a stack. -/
def State.freeCountOf (s : State) (k : Nat) : Nat := (s.freePages k).length

/-- Placement copies of a stack, lowest heat first, then lowest page (R252). -/
def State.copiesByHeat (s : State) (k : Nat) : List (Nat × Nat) :=
  ((s.tiers.copies.filter fun p => p.2.t1 / 24576 == k).map fun p => (p.1, p.2.t1)).mergeSort fun a b =>
    let ha := sget s.tiers.heat1 a.2 0
    let hb := sget s.tiers.heat1 b.2 0
    decide (ha < hb ∨ (ha = hb ∧ a.2 ≤ b.2))

/-- `n` pool pages of stack `k` taken by a user of rank 1 or 2, zeroed, beside the pages `held` that it has taken already: free pages lowest
first, then the pages of dropped copies in drop order (R252). None where they do not suffice. -/
def State.takePages (s : State) (held : List Nat) (k n : Nat) : Option (List Nat × State) :=
  let fr := ((s.freePages k).filter fun t => !held.contains t).take n
  let cs := ((s.copiesByHeat k).filter fun c => s.poolUsable c.2).take (n - fr.length)
  if fr.length + cs.length < n then none
  else
    let ps := fr ++ cs.map Prod.snd
    let s1 := cs.foldl (fun t c => t.dropCopy c.1) s
    some (ps, { s1 with tiers := { s1.tiers with
      hbm := ps.foldl (fun m t => m.fill (t1Addr t) tierBytes none) s1.tiers.hbm } })

/-! ### Bytes -/

/-- T1 heat of bytes moved in a pool page: one per 64 KiB (R257). DESIGN CHOICE (log 58): an access counts one for each aligned 64 KiB that it meets, and no
part of one is carried to the next access; the spec does not say. -/
def State.heatT1 (s : State) (a n : Nat) : State :=
  (List.range ((a + n + 65535) / 65536 - a / 65536)).foldl (fun t i =>
    let p := t1Of ((a / 65536 + i) * 65536)
    { t with tiers := { t.tiers with heat1 := sput t.tiers.heat1 p (satAdd (sget t.tiers.heat1 p 0) 1 255) } }) s

/-- The T1 pages that `n` bytes from address `a` meet. -/
def pagesOfRange (a n : Nat) : List Nat :=
  if n = 0 then [] else (List.range (t1Of (a + n - 1) - t1Of a + 1)).map (t1Of a + ·)

/-- A page's marks. -/
def State.mark (s : State) (t : Nat) : Mark := sget s.tiers.marks t { window := false, fillHobs := [], ready := false }

def State.setMark (s : State) (t : Nat) (m : Mark) : State :=
  { s with tiers := { s.tiers with marks := sput s.tiers.marks t m } }

/-- HBM bytes written. -/
def State.hbmWrite (s : State) (a : Nat) (bs : List Byte) : State :=
  { s with tiers := { s.tiers with hbm := s.tiers.hbm.writeL a bs } }

/-! ### SLM (R110, R142) -/

/-- HBM address of byte `off` of an SLM namespace. -/
def State.slmAddr (s : State) (ns off : Nat) : Option Nat :=
  match sget? s.host.namespaces ns with
  | some n => (n.pages[off / tierBytes]?).map fun t => t1Addr t + off % tierBytes
  | none => none

/-- Byte `off` of the concatenated ranges of a memory range set, as (namespace, offset) (R142). -/
def rangeByte : List (Nat × Nat × Nat) → Nat → Option (Nat × Nat)
  | [], _ => none
  | (ns, o, n) :: t, off => if off < n then some (ns, o + off) else rangeByte t (off - n)

/-- Length of a memory range set. -/
def rangesLen (rs : List (Nat × Nat × Nat)) : Nat := (rs.map fun r => r.2.2).sum

/-- The ranges of a task's set: key 65,536 × function + set; set 0 is none. -/
def State.mrsOf (s : State) (fn mrs : Nat) : List (Nat × Nat × Nat) :=
  if mrs = 0 then [] else sget s.cp.mrs (65536 * fn + mrs) []

/-- HBM address of byte `off` of a memory range set. -/
def State.mrsAddr (s : State) (rs : List (Nat × Nat × Nat)) (off : Nat) : Option Nat :=
  (rangeByte rs off).bind fun x => s.slmAddr x.1 x.2

end Sys2Proof.Machine
end

