-- ==== Sys2Proof/Machine/Seq.lean ====
section
/-!
DEFINITION. The Hob sequencers: fetching and issuing descriptors, SB port binding, completion of descriptors, watched
work (06_compute_commands.md, R151 to R155; R237).
-/

namespace Sys2Proof.Machine

/-- The descriptor at an index of the program region (R151). -/
def State.fetchDesc (s : State) (h : Nat) (r : TaskRegs) (i : Nat) : Nat :=
  leNat (s.cp.sb.readN (h * 2 ^ 28 + r.progBase + 16 * i) 16)

def descClass (w : Nat) : Nat := bits w 0 8
def descHob (w : Nat) : Nat := bits w 8 1
def descEnd (w : Nat) : Bool := bit w 9
def descPacing (w : Nat) : Nat := bits w 104 24

/-- Classes that both sequencers issue (Table 06-6). -/
def classBoth (k : Nat) : Bool := k == 0x04 || k == 0x05

/-- DESC_COUNT of a slot's image. -/
def State.descCount (s : State) (slot : Nat) : Nat :=
  match sget? s.cp.slots slot with
  | some p => leNat ((p.bytes.drop 8).take 4)
  | none => 0

/-- A task's context runs and its sequencers may issue: RUNNING, or PREEMPTING and not stopped (R291), and not faulted (R159). -/
def Ctx.issuing (x : Ctx) : Bool := (x.st == .running || x.st == .preempting) && x.saved.isNone && x.fault.isNone

/-- Where sequencer `h` stands: the next descriptor that it issues itself, skipping those of the other Hob in a paired
context; none past END. -/
def State.seek (s : State) (x : Ctx) (h : Nat) (r : TaskRegs) : Nat → Nat → Option (Nat × Nat)
  | 0, _ => none
  | f + 1, i =>
    let w := s.fetchDesc h r i
    if x.req.pairing ≠ 2 ∨ descHob w = h ∨ classBoth (descClass w) then some (i, w)
    else if descEnd w then none
    else s.seek x h r f (i + 1)

/-- The sequencer has issued, or passed, the descriptor with END (R155). -/
def State.seqDone (s : State) (x : Ctx) (t : Task) (h : Nat) : Bool :=
  t.ended h || ((s.seek x h (t.regs h) (s.descCount t.exec.slot + 1 - (t.regs h).issueIndex) (t.regs h).issueIndex).isNone
    && decide ((t.regs h).issueIndex < s.descCount t.exec.slot))

/-- A descriptor about to issue: context, Hob, task, index and word. -/
structure Desc where
  c : Nat
  h : Nat
  x : Ctx
  t : Task
  i : Nat
  w : Nat
deriving DecidableEq, Repr

/-- The due tick of a descriptor in LOCKSTEP (R152): START_TICK + PACE_OFFSET + PACING. -/
def Desc.due (d : Desc) : Nat := (d.t.regs d.h).startTick + (d.t.regs d.h).paceOffset + descPacing d.w

/-- What the sequencer meets next. -/
inductive Issue where
  | idle
  | fault (f : FaultInfo)
  | go (d : Desc)
deriving DecidableEq, Repr

/-- The next descriptor of sequencer `h` of context `c`, if it is of class `k`, with the envelope checks of R152, the lower code first where two
fail (R162). -/
def State.nextDesc (s : State) (c h k : Nat) : Issue :=
  match s.ctx? c with
  | none => .idle
  | some x => match x.task with
    | none => .idle
    | some t =>
      if ¬ x.issuing ∨ ¬ x.req.uses h ∨ t.wait h ≠ .none ∨ t.ended h then .idle
      else
        let r := t.regs h
        let n := s.descCount t.exec.slot
        if n ≤ r.issueIndex then .fault { code := 0x01, index := n - 1, hob := h }
        else match s.seek x h r (n + 1 - r.issueIndex) r.issueIndex with
          | none => .idle
          | some (i, w) =>
            if n ≤ i then .fault { code := 0x01, index := n - 1, hob := h }
            else if descClass w ≠ k then .idle
            else if s.fget glob_DET_MODE_EFFECTIVE 0 = 1 ∧ s.tick < r.startTick + r.paceOffset + descPacing w then .idle
            else if bits w 10 2 ≠ 0 then .fault { code := 0x01, index := i, hob := h }
            else if x.req.pairing ≠ 2 ∧ descHob w ≠ h ∧ ¬ classBoth k then
              .fault { code := 0x04, index := i, case := 20, hob := h }
            else .go { c := c, h := h, x := x, t := t, i := i, w := w }

/-- A meaning over the next descriptor of a class: nothing where none is there to issue, the fault where its envelope
fails, else what `f` gives. -/
def State.onDesc (s : State) (c h k : Nat) (f : Desc → State) : Res :=
  match s.nextDesc c h k with
  | .idle => .next s
  | .fault e => .next (s.faultCtx c e)
  | .go d => .next (f d)

/-- A decode fault of a descriptor (R98): the context faults and nothing moves. -/
def State.descFault (s : State) (d : Desc) (code : Nat) (case : Nat := 0) (ucls : Nat := 0xFF) (uinst info : Nat := 0) :
    State :=
  s.faultCtx d.c { code := code, index := d.i, case := case, hob := d.h, ucls := ucls, uinst := uinst, info := info }

/-- The task after a descriptor: the sequencer moves on, and stops past END. -/
def Desc.advance (d : Desc) : Task :=
  let r := d.t.regs d.h
  let t1 := d.t.setRegs d.h { r with issueIndex := d.i + 1 }
  if descEnd d.w then (if d.h = 0 then { t1 with ended0 := true } else { t1 with ended1 := true }) else t1

/-- `s` with the task of context `c` replaced. -/
def State.setTask (s : State) (c : Nat) (t : Task) : State :=
  match s.ctx? c with
  | none => s
  | some x => s.setCtx c { x with task := some t }

/-- A sequencer issues or passes a descriptor: it is counted, and waits for no port any more. -/
def State.moveOn (s : State) (d : Desc) : State :=
  let s1 := s.count 0x10 d.h 0 1
  { s1 with units := { s1.units with portWait := s1.units.portWait.filter (· ≠ (d.h, d.c)) } }

/-- The descriptor is issued: it stays in flight until its unit completes it. -/
def State.issue (s : State) (d : Desc) (dst : Nat := 15) (pin : Bool := false) : State :=
  let t := d.advance
  (s.moveOn d).setTask d.c { t with
    inflight := t.inflight ++ [{ hob := d.h, index := d.i, cls := descClass d.w, ser := t.ser, dst := dst, word := d.w
                                 due := d.due, grants := [] }]
    ser := t.ser + 1
    pinned := t.pinned || pin }

/-- The sequencer moves on past a descriptor that leaves nothing in flight, with the task changed by `f` first. -/
def State.pass (s : State) (d : Desc) (f : Task → Task := id) : State :=
  (s.moveOn d).setTask d.c (f d.advance)

/-- A descriptor in flight completes: the issue with that serial number leaves, and its SB ports are released (R237). The last one of a faulted
task ends its fault (R159). -/
def State.descDone (s : State) (c ser : Nat) : State :=
  let s1 := { s with units := { s.units with bound := s.units.bound.filter fun b => !(b.ctx == c && b.ser == ser) } }
  match s1.ctx? c with
  | none => s1
  | some x => match x.task with
    | none => s1
    | some t => (s1.setCtx c { x with task := some { t with inflight := t.inflight.filter fun e => e.ser != ser } }).endFault c

/-- The bit of the WATCH mask that names a class (Table 06-7). -/
def watchBit (k : Nat) : Nat :=
  if k = 0x10 ∨ k = 0x11 then 0 else if k = 0x18 then 1 else if k = 0x19 then 2 else if k = 0x22 then 3
  else if k = 0x20 ∨ k = 0x21 then 4 else if k = 0x28 then 5 else 8

/-- A descriptor in flight is of the watched work: by its class; as a flash write (bit 6); as a write to host memory
or SLM (bit 7). -/
def Issued.watched (e : Issued) (mask : Nat) : Bool :=
  bit mask (watchBit e.cls) || (bit mask 6 && e.dst == 4) || (bit mask 7 && (e.dst == 2 || e.dst == 3))

/-- Work of sequencer `h` issued before serial `ser` that a mask watches has all completed (R154). -/
def Task.watchDone (t : Task) (h mask ser : Nat) : Bool :=
  t.inflight.all fun e => !(e.hob == h && decide (e.ser < ser) && e.watched mask)

/-! ### SB port binding (R237) -/

/-- Macro-groups that a hull of SB bytes meets. -/
def groupsOfHull (lo hi : Nat) : List Nat := (List.range 48).filter fun g => decide (lo < (g + 1) * 2 ^ 22) && decide (g * 2 ^ 22 ≤ hi)

/-- A port is bound to an unfinished descriptor. -/
def State.portBound (s : State) (h : Nat) (write : Bool) (gs : List Nat) : Bool :=
  s.units.bound.any fun b => b.hob == h && b.write == write && gs.contains b.group

/-- Ports bound for a descriptor. -/
def State.bind (s : State) (d : Desc) (write : Bool) (gs : List Nat) : State :=
  let bs : List Binding := gs.map fun g => { hob := d.h, write := write, group := g, ctx := d.c, ser := d.t.ser }
  { s with units := { s.units with bound := s.units.bound ++ bs } }

/-- A descriptor waits at issue for its SB ports (R237). -/
def State.waitPorts (s : State) (d : Desc) : State :=
  if s.units.portWait.contains (d.h, d.c) then s
  else { s with units := { s.units with portWait := s.units.portWait ++ [(d.h, d.c)] } }

/-- A macro-group is a program macro-group (R238). -/
def State.groupProgram (s : State) (h g : Nat) : Bool := bit (s.fget sb_PROGRAM_MAP0 h + 2 ^ 32 * s.fget sb_PROGRAM_MAP1 h) g

/-- A context holds every data macro-group that a hull of its Hob's SB meets. -/
def State.holdsSb (s : State) (c h lo hi : Nat) : Bool :=
  decide (lo ≤ hi) && decide (hi < 0x0C000000) && (groupsOfHull lo hi).all fun g => s.fget (sb_GROUP_OWNER g) h == c && !s.groupProgram h g

/-- A source of a table or record: an offset of the DATA section, or of the SB address in a base register
(Table 09-3, Table 08-6). The SB byte address on the Hob; none where it does not lie in the DATA section or in SB that
the context holds. -/
def State.tableSource (s : State) (d : Desc) (sel off n : Nat) : Option Nat :=
  let r := d.t.regs d.h
  if sel = 0 then
    let size := match sget? s.cp.slots d.t.exec.slot with
      | some p => leNat ((p.bytes.drop 12).take 4)
      | none => 0
    if off + n ≤ size then some (r.progBase + 16 * s.descCount d.t.exec.slot + off) else none
  else
    let a := (r.base.getD sel 0 + off) % 2 ^ 64
    if s.holdsSb d.c d.h a (a + n - 1) then some a else none

/-- Bytes of the Hob's SB. -/
def State.sbRead (s : State) (h a n : Nat) : List Byte := s.cp.sb.readN (h * 2 ^ 28 + a) n
def State.sbWrite (s : State) (h a : Nat) (bs : List Byte) : State :=
  { s with cp := { s.cp with sb := s.cp.sb.writeL (h * 2 ^ 28 + a) bs } }

/-- A region that the task writes is noted (R160). -/
def State.noteWrite (s : State) (c space a n : Nat) : State :=
  match s.ctx? c with
  | none => s
  | some x => match x.task with
    | none => s
    | some t => s.setCtx c { x with task := some { t with writes := (space, a, n) :: t.writes } }

/-- Completion flag `b` of a context's task is set (Table 06-8). -/
def State.taskFlag (s : State) (c b : Nat) : State :=
  match s.ctx? c with
  | none => s
  | some x => match x.task with
    | none => s
    | some t => s.setCtx c { x with task := some (t.flag b) }

/-- RESULT of sequencer `h` is written (Table 06-4). -/
def State.setResult (s : State) (c h v : Nat) : State :=
  match s.ctx? c with
  | none => s
  | some x => match x.task with
    | none => s
    | some t => s.setCtx c { x with task := some { t.setRegs h { t.regs h with result := v % 2 ^ 32 } with lastRes := h } }

/-- LAST_YIELD as the generators of R212 and R243 take it. -/
def TaskRegs.yieldSeed (r : TaskRegs) : Nat := (r.lastYield + 1) % 2 ^ 17

end Sys2Proof.Machine
end

