-- ==== Sys2Proof/Machine/Arbiter.lean ====
section
/-!
DEFINITION. The arbiters of the five crossing points: parties, presentation, FREE grants, LOCKSTEP slots and slips, and the loads of crossing
point 1 (01_architecture.md, R17; 02_self_timed_logic.md, R43 to R47; R85, R96, R119, R152, R224, R226).
-/

namespace Sys2Proof.Machine

/-! ### Instances and parties (Table 02-6) -/

/-- Instances of a crossing point (Table 02-6): Hobs, pantry links, pseudo-channels, one, one. -/
def cpInstances (cp : Nat) : Nat :=
  if cp = 1 then 2 else if cp = 2 then 64 else if cp = 3 then 512 else if cp = 4 ∨ cp = 5 then 1 else 0

/-- Parties of one instance. -/
def cpParties (cp : Nat) : Nat :=
  if cp = 1 then 64 else if cp = 2 then 3 else if cp = 3 then 21 else if cp = 4 then 3 else 6

/-- A party that is absent on the variant takes no part: the PUU and Snilo Link on S and C, links of positions that the
C variant does not populate (R52). -/
def cpPresent (v : Variant) (cp inst party : Nat) : Bool :=
  decide (inst < cpInstances cp) && decide (party < cpParties cp) &&
  (match cp with
   | 2 => colanderFitted v inst
   | 3 => party != 17 || v == .x
   | 5 => party != 3 || v == .x
   | _ => true)

/-! ### Requests (R43, R47, R224, R226) -/

/-- The descriptor in flight whose issue in its context's task has a serial number. -/
def State.issued? (s : State) (c ser : Nat) : Option Issued :=
  match (s.ctx? c).bind Ctx.task with
  | some t => t.inflight.find? fun e => e.ser == ser
  | none => none

/-- The channel that holds the move of a descriptor in flight. -/
def State.chanOf (s : State) (c ser : Nat) : Option Nat :=
  (s.units.chans.find? fun p => (p.2.run.toList ++ p.2.queue).any fun m => m.ctx == c && m.ser == ser).map Prod.fst

/-- The party takes its requests from descriptors: the streaming channel of a pantry link, and the streams of a pseudo-channel. -/
def cpData (cp party : Nat) : Bool := (cp == 2 && party == 0) || (cp == 3 && decide (party < 18))

/-- A context may send requests from sequencer `h` to Hob `k`: its own, and the peer's where it is paired (R15). -/
def Ctx.reaches (x : Ctx) (h k : Nat) : Bool := h == k || x.req.pairing == 2

/-- A descriptor presents its requests as this party here: on the links of the Colanders it reaches; at a pseudo-channel as Ladle channel n mod
16 of the controller ⌊n ÷ 16⌋ of its own or its peer's Hob, as the Skimmer merge unit, or as the PUU (R224, R226). -/
def State.fits (s : State) (c : Nat) (e : Issued) (cp inst party : Nat) : Bool :=
  match s.ctx? c with
  | none => false
  | some x =>
    if cp = 2 then x.reaches e.hob (inst / 32)
    else x.reaches e.hob (inst / 256) && (
      if party < 16 then (match s.chanOf c e.ser with
        | some k => k % 16 == party && k % 64 / 16 == inst / 64 % 4
        | none => false)
      else if party = 16 then e.cls == 0x21 || e.cls == 0x22
      else e.cls == 0x28)

/-- A request may be presented: at crossing point 1 the loads are the context manager's own, and a party that takes its requests from
descriptors names one in flight. -/
def State.mayPresent (s : State) (cp inst party c ser : Nat) : Bool :=
  cpPresent s.variant cp inst party && cp != 1 && (!cpData cp party || (match s.issued? c ser with
    | some e => s.fits c e cp inst party
    | none => false))

/-- Frame length in ticks, slots in a frame, slot length in ns (Table 02-7). -/
def cpFrame (cp : Nat) : Nat := if cp = 1 then 32 else if cp = 2 then 2 else if cp = 4 then 8 else 1
def cpSlots (cp : Nat) : Nat := if cp = 1 then 64 else if cp = 2 then 16 else if cp = 3 then 32 else if cp = 4 then 4 else 8
def cpSlotNs (cp : Nat) : Nat := 1024 * cpFrame cp / cpSlots cp

/-- The due tick of a request presented now (R47): a descriptor's first request at an instance is due as its PACING gives, and each later one
there at the frame of the grant before it; host SLM access and mailbox messages at the first frame that begins after the presentation. The
spec gives no due frame for the other parties: theirs is the frame of the presentation (DESIGN CHOICE, log 40). -/
def State.dueOf (s : State) (cp inst party c ser : Nat) : Nat :=
  if cpData cp party then (match s.issued? c ser with
    | some e => sget e.grants (4096 * cp + inst) e.due
    | none => s.tick)
  else if cp = 4 ∨ (cp = 3 ∧ party = 19) then (s.tick / cpFrame cp + 1) * cpFrame cp
  else s.tick

/-- Requests presented at this tick, each as (party, context of its transfer, serial number of its descriptor's issue); `together`, that
they arrive at the same instant (R45). -/
def State.present (s : State) (cp inst : Nat) (new : List (Nat × Nat × Nat)) (together : Bool) : List ArbReq :=
  s.arb.waiting ++ (new.filter fun r => s.mayPresent cp inst r.1 r.2.1 r.2.2).map fun r =>
    { cp := cp, inst := inst, party := r.1, tick := s.tick, due := s.dueOf cp inst r.1 r.2.1 r.2.2, ctx := r.2.1, ser := r.2.2
      batch := if together then s.arb.batches + 1 else 0, owed := false, passed := [] }

/-- `s` with the requests of a presentation waiting. -/
def State.withRequests (s : State) (ws : List ArbReq) (together : Bool) : State :=
  { s with arb := { s.arb with waiting := ws, batches := s.arb.batches + b2n together } }

/-- Requests that may be granted next in FREE mode: none of a party that was granted while another party's request has
waited through that grant (R44); and where a request lost to one presented at the same instant, that one (R45). -/
def freeChoices (l : List ArbReq) : List ArbReq :=
  let ok := l.filter fun r => l.all fun q => q.party == r.party || !q.passed.contains r.party
  let owed := ok.filter fun r => r.owed
  if owed.isEmpty then ok else owed

/-- A descriptor's grant at an instance is noted: its next request there is due at this frame (R47). -/
def State.noteGrant (s : State) (r : ArbReq) : State :=
  match s.ctx? r.ctx with
  | none => s
  | some x => match x.task with
    | none => s
    | some t =>
      if cpData r.cp r.party then s.setCtx r.ctx { x with task := some { t with inflight := t.inflight.map fun e =>
        if e.ser = r.ser then { e with grants := sput e.grants (4096 * r.cp + r.inst) s.tick } else e } }
      else s

/-- A descriptor's transfers wait for a grant: it cannot complete before it (R17). -/
def State.ungranted (s : State) (c ser : Nat) : Bool :=
  s.arb.waiting.any fun (q : ArbReq) => cpData q.cp q.party && q.ctx == c && q.ser == ser

/-- ARBITER_GRANT (R44, R45): in FREE mode one waiting party that R44 admits is granted one service; which of them is
free. `new` gives the requests presented since the last grant. -/
def execArbiterGrant (cp inst : Nat) (new : List (Nat × Nat × Nat)) (s : State) (together : Bool := false) : Res :=
  if s.fget glob_DET_MODE_EFFECTIVE 0 = 1 then .next s
  else
    let ws := s.present cp inst new together
    let l := freeChoices (ws.filter (ArbReq.at cp inst))
    let (k, s1) := (s.withRequests ws together).draw
    match l[k % l.length]? with
    | some r => .next ((s1.grant r ws).noteGrant r)
    | none => .next (s.withRequests ws together)

/-! ### LOCKSTEP (R46, R47) -/

/-- The party that owns slot `sl` of frame `f` (Table 02-7). Parties are numbered from 0 in the order of Table 02-6, which SLIP_PARTY shows: the
spec gives no base (DESIGN CHOICE, log 41). -/
def slotOwner (cp f sl : Nat) : Nat :=
  if cp = 1 then sl
  else if cp = 2 then (if sl < 13 then 0 else if sl < 15 then 1 else 2)
  else if cp = 3 then (if sl < 26 then (26 * f + sl) % 18 else if sl < 28 then 18 else if sl < 30 then 19 else 20)
  else if cp = 4 then (if sl = 1 then 1 else if sl = 3 then 2 else 0)
  else [4, 0, 2, 1, 3, 5, 0, 2].getD sl 0

/-- Number of the frame that starts at tick `t`: counted from the arm tick while a run is armed (R47). -/
def State.frameNo (s : State) (cp t : Nat) : Nat :=
  let a := s.fget64 glob_ARM_TICK_LO glob_ARM_TICK_HI 0
  if s.fget glob_ARMED 0 = 1 ∧ a ≤ t then (t - a) / cpFrame cp else t / cpFrame cp

/-- Start in ns of the last slot that a party owns in the frame that starts at tick `t`. -/
def State.lastSlotNs (s : State) (cp party t : Nat) : Nat :=
  match ((List.range (cpSlots cp)).filter fun sl => slotOwner cp (s.frameNo cp t) sl == party).getLast? with
  | some sl => 1024 * t + sl * cpSlotNs cp
  | none => 1024 * (t + cpFrame cp)

/-- SLIP_INSTANCE of an arbiter instance (Table 02-8). -/
def slipInstance (cp inst : Nat) : Nat := if cp = 3 then inst / 8 else inst

/-- A slip recorded (R47): counted, captured if it is the first, shown in the recorder, and marked on the task whose
transfer it was (Table 06-8). -/
def State.slip (s : State) (cp inst party ctx : Nat) : State :=
  let s1 := s.fset64 glob_SLIP_COUNT_LO glob_SLIP_COUNT_HI 0 (s.fget64 glob_SLIP_COUNT_LO glob_SLIP_COUNT_HI 0 + 1)
  let s2 := if s1.fget glob_SLIP_CP 0 ≠ 0 then s1
    else ((s1.fset glob_SLIP_CP 0 cp).fset glob_SLIP_PARTY 0 party).fset glob_SLIP_INSTANCE 0 (slipInstance cp inst)
  let s3 := s2.recEv 0x00 0 0x0302 [cp, party, slipInstance cp inst] (if ctx < 64 then ctx else 0xFF)
  match s3.ctx? ctx with
  | some x => s3.setCtx ctx { x with task := x.task.map fun t => { t with slipped := true } }
  | none => s3

/-- Requests granted in one slot (Table 02-7): up to two sectors at crossing point 3, one transfer elsewhere. -/
def cpPerSlot (cp : Nat) : Nat := if cp = 3 then 2 else 1

/-- The oldest requests of a slot's owner whose due frame has been reached, `n` at most, are granted (R46, R47). -/
def State.grantSlot (s : State) (cp inst owner t0 : Nat) : Nat → State
  | 0 => s
  | n + 1 => match s.arb.waiting.find? fun (r : ArbReq) =>
      r.at cp inst && r.party == owner && decide (r.due / cpFrame cp * cpFrame cp ≤ t0) with
    | some r => ((s.grant r s.arb.waiting).noteGrant r).grantSlot cp inst owner t0 n
    | none => s

/-- LOCKSTEP_SLOT (R46, R47): slot `sl` of the frame at the present tick starts. Requests presented since the instance's last
slot are those of `new`; one presented after its party's last slot in its due frame is a slip. The oldest requests of the
owner whose due frame has been reached are granted; with none the slot passes unused. -/
def execLockstepSlot (cp inst sl : Nat) (new : List (Nat × Nat × Nat)) (s : State) : Res :=
  let t0 := s.tick / cpFrame cp * cpFrame cp
  if s.fget glob_DET_MODE_EFFECTIVE 0 = 0 ∨ cpSlots cp ≤ sl ∨ cpInstances cp ≤ inst ∨
      t0 + sl * cpSlotNs cp / 1024 ≠ s.tick then .next s
  else
    let ws := s.present cp inst new false
    let now := 1024 * t0 + sl * cpSlotNs cp
    let late := (ws.drop s.arb.waiting.length).filter fun (r : ArbReq) =>
      decide (s.lastSlotNs cp r.party (r.due / cpFrame cp * cpFrame cp) < now)
    let s1 := late.foldl (fun (t : State) (r : ArbReq) => t.slip cp inst r.party r.ctx) (s.withRequests ws false)
    .next (s1.grantSlot cp inst (slotOwner cp (s.frameNo cp t0) sl) t0 (cpPerSlot cp))

/-! ### Crossing point 1 (R47, R85, R96, R119) -/

/-- The due tick of a context's next load in LOCKSTEP (R47): the first frame that begins after every earlier command of its queue has completed,
and not before the arm tick, or, with no run armed, after the command was presented. -/
def State.loadDue (s : State) (x : Ctx) (presented : Nat) : Nat :=
  let done := match x.sq.bind (sget? s.arb.done) with
    | some t => (t / 32 + 1) * 32
    | none => 0
  max done (if s.fget glob_ARMED 0 = 1 then s.fget64 glob_ARM_TICK_LO glob_ARM_TICK_HI 0 else (presented / 32 + 1) * 32)

/-- A load request of a context at Hob `h`. -/
def loadReq (s : State) (c h : Nat) : ArbReq :=
  { cp := 1, inst := h, party := c, tick := s.tick, due := s.tick, ctx := c, ser := 0, batch := 0, owed := false, passed := [] }

/-- The load requests of crossing point 1: those of the contexts `cs`, of which the ones that waited already go on waiting. -/
def State.withLoads (s : State) (cs : List Nat) : State :=
  let old (c h : Nat) : ArbReq := (s.arb.waiting.find? fun (q : ArbReq) => q.at 1 h && q.party == c).getD (loadReq s c h)
  let loads := cs.flatMap fun c => match s.ctx? c with
    | some x => x.req.hobs.map fun h => old c h
    | none => []
  { s with arb := { s.arb with waiting := loads ++ s.arb.waiting.filter fun (q : ArbReq) => q.cp != 1 } }

/-- Crossing point 1 admits the load of a context on every Hob it uses: in FREE mode R44 and R45 let its request be granted next; in LOCKSTEP
its slot, the one with its number on both Hobs, starts at this tick, in its due frame or a later one (R46, R47, R96). -/
def State.loadAdmitted (s : State) (c : Nat) (x : Ctx) (presented : Nat) : Bool :=
  if s.fget glob_DET_MODE_EFFECTIVE 0 = 1 then
    s.tick % 32 == c / 2 && decide (s.loadDue x presented ≤ s.tick / 32 * 32)
  else x.req.hobs.all fun h => (freeChoices (s.arb.waiting.filter (ArbReq.at 1 h))).any fun q => q.party == c

/-- A load presented after its context's slot of its due frame, in LOCKSTEP (R47). -/
def State.lateLoad (s : State) (c : Nat) (x : Ctx) (presented : Nat) : Bool :=
  s.fget glob_DET_MODE_EFFECTIVE 0 == 1 && decide (s.loadDue x presented + c / 2 < presented)

/-- The load of a context is granted on every Hob it uses; a late one is a slip (R47). -/
def State.grantLoad (s : State) (c : Nat) (x : Ctx) (presented : Nat) : State :=
  let late := s.lateLoad c x presented
  x.req.hobs.foldl (fun t h =>
    let t1 := if late then t.slip 1 h c c else t
    match t1.arb.waiting.find? fun (q : ArbReq) => q.at 1 h && q.party == c with
    | some q => t1.grant q t1.arb.waiting
    | none => t1) s

end Sys2Proof.Machine
end

