-- ==== Sys2Proof/Machine/Batch.lean ====
section
/-!
DEFINITION. The batch manager: the slot table page and a batch step (10_memory_tiers.md, R268 to R272).
-/

namespace Sys2Proof.Machine

/-- Bytes `b` of a number at an offset of a page image, as (offset, bytes). -/
def leAt (off v n : Nat) : Nat × List Byte := (off, natLE v n)

/-- State pages that no slot holds, lowest first. -/
def Batch.freePages (b : Batch) : List Nat :=
  let used := b.slots.flatMap fun k => k.2.2.1
  (List.range (32 * b.p)).filter fun n => !used.contains n

/-- The lowest free slot. -/
def Batch.freeSlot (b : Batch) : Option Nat := (List.range b.s).find? fun k => (sget? b.slots k).isNone

/-- The slot table page (Table 10-7) of a batch after a step with these counts. -/
def Batch.table (b : Batch) (admitted ignored : Nat) (rejects : List (Nat × Nat)) : List (Nat × List Byte) :=
  [leAt 0 b.step 8, leAt 8 b.slots.length 4, leAt 12 b.freePages.length 4, leAt 16 admitted 4, leAt 20 b.queue.length 4,
   leAt 24 rejects.length 4, leAt 28 ignored 4, leAt 32 b.deferred 8] ++
  (b.slots.flatMap fun k =>
    [(0x1000 + 16 * k.1, natLE (if k.2.2.2 then 2 else 1) 4 ++ natLE k.2.1 4 ++ natLE k.2.2.1.length 2),
     (0x21000 + 256 * k.1, k.2.2.1.flatMap fun n => natLE n 4)]) ++
  (b.pool.zipIdx.map fun t => (0x11000 + 8 * t.2, natLE (t1Form t.1) 8)) ++
  (rejects.zipIdx.map fun r => (0x121000 + 8 * r.2, natLE r.1.1 4 ++ natLE r.1.2 1)) ++
  (b.queue.zipIdx.map fun q => (0x131000 + 16 * q.2, natLE q.1.1 4 ++ natLE q.1.2 2))

/-- The slot table page written whole: the bytes of the table, zeros elsewhere. -/
def State.writeTable (s : State) (b : Batch) (admitted ignored : Nat) (rejects : List (Nat × Nat)) : State :=
  let a := t1Addr b.slotPage
  let m := s.tiers.hbm.fill a tierBytes none
  { s with tiers := { s.tiers with
    hbm := (b.table admitted ignored rejects).foldl (fun m w => m.writeL (a + w.1) w.2) m } }

/-- READY of the slot table page. -/
def State.tableReady (s : State) (b : Batch) (on : Bool) : State :=
  s.setMark b.slotPage { s.mark b.slotPage with ready := on }

/-- Leaves in list order: live slots free; the others are ignored and counted. -/
def Batch.leave (b : Batch) (ls : List Nat) : Batch × Nat :=
  ls.foldl (fun (a : Batch × Nat) k =>
    if (sget? a.1.slots k).isSome then ({ a.1 with slots := serase a.1.slots k }, a.2) else (a.1, a.2 + 1)) (b, 0)

/-- Joins in list order: queued, or rejected with a reason (1 TOO_LARGE, 2 QUEUE_FULL). -/
def Batch.arrive (b : Batch) (js : List (Nat × Nat)) : Batch × List (Nat × Nat) :=
  js.foldl (fun (a : Batch × List (Nat × Nat)) j =>
    if j.2 = 0 ∨ 64 < j.2 ∨ 32 * a.1.p < j.2 then (a.1, a.2 ++ [(j.1, 1)])
    else if 4096 ≤ a.1.queue.length then (a.1, a.2 ++ [(j.1, 2)])
    else ({ a.1 with queue := a.1.queue ++ [j] }, a.2)) (b, [])

/-- Admission from the head of the queue while it fits; no later join overtakes. -/
def Batch.fill : Nat → Batch → Batch × Nat
  | 0, b => (b, 0)
  | f + 1, b => match b.queue with
    | [] => (b, 0)
    | j :: js => match b.freeSlot with
      | none => (b, 0)
      | some k =>
        let ps := b.freePages.take j.2
        if ps.length < j.2 then (b, 0)
        else
          let r := Batch.fill f { b with slots := sput b.slots k (j.1, ps, true), queue := js }
          (r.1, r.2 + 1)

/-- Little-endian field of the request as it stood. -/
def reqFld (m : Mem) (a n : Nat) : Nat := leNat (m.readN a n)

/-- Every reserved byte of a request is 0, the counts are within range and the slots exist (R271, step 1). -/
def requestOk (b : Batch) (m : Mem) (a : Nat) : Bool :=
  let nl := reqFld m (a + 8) 4
  let nj := reqFld m (a + 12) 4
  nl ≤ 4096 && nj ≤ 4096 && (m.readN (a + 16) 48).all (· == 0) &&
  (List.range nl).all (fun k => decide (reqFld m (a + 64 + 4 * k) 4 < b.s)) &&
  (List.range nj).all fun k => (m.readN (a + 16448 + 16 * k + 6) 10).all (· == 0)

/-- The manager of a context: HBM controller 0 of its Hob, Hob 0 for a paired context (R268). -/
def batchManager (x : Ctx) : Nat := if x.req.pairing = 1 then 4 else 0

/-- BATCH_STEP (R271): the step of context `c` that a move over its request page began. A bad request faults the context;
a replay sets READY and changes nothing else; else leaves, arrivals, admission and deferral run in order and the slot
table page is written. -/
def execBatchStep (c : Nat) (s : State) : Res :=
  match s.ctx? c, sget? s.tiers.batches c with
  | some x, some b =>
    match b.begun with
    | none => .next s
    | some m =>
      let a := t1Addr b.reqPage
      let i := batchManager x
      let s0 := { s with tiers := { s.tiers with batches := sput s.tiers.batches c { b with begun := none } } }
      let step := reqFld m a 8
      if step = b.step then .next (s0.tableReady b true)
      else if step ≠ b.step + 1 ∨ ¬ requestOk b m a then
        .next ((s0.err 0x16 i [11] (b.reqPage % 24576) c).faultCtx c { code := 0x4B, index := 0xFFFF, hob := i / 4, ucls := 0x16, uinst := i })
      else
        let b0 := { b with begun := none, step := step, slots := b.slots.map fun (k : Nat × Nat × List Nat × Bool) => (k.1, (k.2.1, k.2.2.1, false)) }
        let l := b0.leave ((List.range (reqFld m (a + 8) 4)).map fun k => reqFld m (a + 64 + 4 * k) 4)
        let j := l.1.arrive ((List.range (reqFld m (a + 12) 4)).map fun k =>
          (reqFld m (a + 16448 + 16 * k) 4, reqFld m (a + 16448 + 16 * k + 4) 2))
        let d := Batch.fill (j.1.queue.length + 1) j.1
        let b1 := { d.1 with deferred := d.1.deferred + d.1.queue.length }
        let s1 := { s0 with tiers := { s0.tiers with batches := sput s0.tiers.batches c b1 } }
        let s2 := (s1.writeTable b1 d.2 l.2 j.2).tableReady b1 true
        let s3 := s2.fset64 hbm_STEPS_LO hbm_STEPS_HI i (s2.fget64 hbm_STEPS_LO hbm_STEPS_HI i + 1)
        let s4 := s3.fset64 hbm_JOIN_DEFERRED_LO hbm_JOIN_DEFERRED_HI i
          (s3.fget64 hbm_JOIN_DEFERRED_LO hbm_JOIN_DEFERRED_HI i + b1.queue.length)
        .next ((s4.fbump hbm_JOIN_REJECTED i j.2.length).fset hbm_LAST_CONTEXT i c)
  | _, _ => .next s

end Sys2Proof.Machine
end

