-- ==== Sys2Proof/Machine/Float.lean ====
section
/-!
DEFINITION. Exact values, rounding and the number formats of Tables 08-1 and 08-5: FP32, BF16, FP16, the 8-, 6- and
4-bit formats, MX scales, stochastic rounding and the generator of R212.
-/

namespace Sys2Proof.Machine

/-- A value: NaN, an infinity, or the exact signed number `num ÷ den` (the sign stands on zero too). -/
inductive Fv where
  | nan
  | inf (neg : Bool)
  | fin (neg : Bool) (num den : Nat)
deriving DecidableEq, Repr

/-- 2^k as a fraction. -/
def pow2N (k : Int) : Nat := if 0 ≤ k then 2 ^ k.toNat else 1
def pow2D (k : Int) : Nat := if 0 ≤ k then 1 else 2 ^ (-k).toNat

/-- `v × 2^k`. -/
def Fv.scale (v : Fv) (k : Int) : Fv :=
  match v with
  | .fin s n d => .fin s (n * pow2N k) (d * pow2D k)
  | x => x

/-- An exact integer. -/
def Fv.ofInt (i : Int) : Fv := .fin (decide (i < 0)) i.natAbs 1

/-- `v` with its sign turned. -/
def Fv.neg (v : Fv) : Fv :=
  match v with
  | .nan => .nan
  | .inf s => .inf (!s)
  | .fin s n d => .fin (!s) n d

/-- The magnitude. -/
def Fv.abs (v : Fv) : Fv :=
  match v with
  | .nan => .nan
  | .inf _ => .inf false
  | .fin _ n d => .fin false n d

/-- The exact sum, with IEEE signs of zero and IEEE special cases. -/
def Fv.add (a b : Fv) : Fv :=
  match a, b with
  | .nan, _ => .nan
  | _, .nan => .nan
  | .inf s, .inf t => if s = t then .inf s else .nan
  | .inf s, _ => .inf s
  | _, .inf t => .inf t
  | .fin s n d, .fin t m e =>
    let x : Int := (if s then -(n * e : Nat) else (n * e : Nat))
    let y : Int := (if t then -(m * d : Nat) else (m * d : Nat))
    if x + y = 0 then .fin (s && t) 0 1 else .fin (decide (x + y < 0)) (x + y).natAbs (d * e)

/-- The exact product. -/
def Fv.mul (a b : Fv) : Fv :=
  match a, b with
  | .nan, _ => .nan
  | _, .nan => .nan
  | .inf s, .inf t => .inf (s != t)
  | .inf s, .fin t m _ => if m = 0 then .nan else .inf (s != t)
  | .fin s n _, .inf t => if n = 0 then .nan else .inf (s != t)
  | .fin s n d, .fin t m e => .fin (s != t) (n * m) (d * e)

/-- The exact quotient. -/
def Fv.div (a b : Fv) : Fv :=
  match a, b with
  | .nan, _ => .nan
  | _, .nan => .nan
  | .inf _, .inf _ => .nan
  | .inf s, .fin t _ _ => .inf (s != t)
  | .fin s _ _, .inf t => .fin (s != t) 0 1
  | .fin s n d, .fin t m e =>
    if m = 0 then (if n = 0 then .nan else .inf (s != t)) else .fin (s != t) (n * e) (d * m)

/-- A value lies below another (false where either is NaN). -/
def Fv.lt (a b : Fv) : Bool :=
  match a, b with
  | .nan, _ => false
  | _, .nan => false
  | .inf s, .inf t => s && !t
  | .inf s, .fin _ _ _ => s
  | .fin _ _ _, .inf t => !t
  | .fin s n d, .fin t m e =>
    let x : Int := (if s then -(n * e : Nat) else (n * e : Nat))
    let y : Int := (if t then -(m * d : Nat) else (m * d : Nat))
    decide (x < y)

/-- Not above (false where either is NaN). -/
def Fv.le (a b : Fv) : Bool := a != .nan && b != .nan && !Fv.lt b a

def Fv.isNan (a : Fv) : Bool := a == .nan

/-- NaN or an infinity. -/
def Fv.nonFinite (a : Fv) : Bool :=
  match a with
  | .fin _ _ _ => false
  | _ => true

def Fv.isZero (a : Fv) : Bool :=
  match a with
  | .fin _ n _ => n == 0
  | _ => false

/-! ### Rounding -/

/-- floor(log2 (n ÷ d)) of a positive fraction. -/
def flog2 (n d : Nat) : Int :=
  let e : Int := (Nat.log2 n : Int) - (Nat.log2 d : Int)
  if n * pow2D e < d * pow2N e then e - 1 else e

/-- A fraction rounded to the nearest integer, ties to even. -/
def rneQ (n d : Nat) : Nat :=
  let q := n / d
  let r := n % d
  if 2 * r < d then q else if d < 2 * r then q + 1 else q + q % 2

/-- A fraction rounded stochastically with a 16-bit random value (R211). -/
def srQ (r16 n d : Nat) : Nat := if r16 < n % d * 65536 / d then n / d + 1 else n / d

/-- Rounding modes: nearest even, or stochastic with a random value. -/
inductive Rnd where
  | rne
  | sr (r16 : Nat)
deriving DecidableEq, Repr

/-- A fraction rounded to an integer under a mode. -/
def Rnd.q (m : Rnd) (n d : Nat) : Nat :=
  match m with
  | .rne => rneQ n d
  | .sr r => srQ r n d

/-- The nearest integer to a finite value, under a mode; 0 for a non-finite one. -/
def Fv.round (v : Fv) (m : Rnd) : Int :=
  match v with
  | .fin s n d => if s then -(m.q n d : Int) else (m.q n d : Int)
  | _ => 0

/-- A binary format: fraction bits, exponent bias, and the largest exponent field of a finite value. -/
structure BinFmt where
  mb : Nat
  bias : Nat
  eb : Nat
deriving DecidableEq, Repr

/-- A positive fraction rounded to the grid of a format, subnormals included: significand and exponent of its unit. -/
def BinFmt.round (f : BinFmt) (m : Rnd) (n d : Nat) : Nat × Int :=
  if n = 0 then (0, 1 - f.bias - f.mb)
  else
    let u := max (flog2 n d - f.mb) (1 - (f.bias : Int) - f.mb)
    let q := m.q (n * pow2D u) (d * pow2N u)
    if q = 2 ^ (f.mb + 1) then (2 ^ f.mb, u + 1) else (q, u)

/-- The exponent and fraction bits of a rounded significand. -/
def BinFmt.pack (f : BinFmt) (q : Nat) (u : Int) : Nat :=
  if q < 2 ^ f.mb then q else (u + f.mb + f.bias).toNat * 2 ^ f.mb + (q - 2 ^ f.mb)

/-- The value of exponent and fraction bits read as a finite number. -/
def BinFmt.value (f : BinFmt) (neg : Bool) (x : Nat) : Fv :=
  let e := x / 2 ^ f.mb
  let fr := x % 2 ^ f.mb
  if e = 0 then (Fv.fin neg fr 1).scale (1 - f.bias - f.mb)
  else (Fv.fin neg (2 ^ f.mb + fr) 1).scale ((e : Int) - f.bias - f.mb)

def fmt32 : BinFmt := { mb := 23, bias := 127, eb := 8 }
def fmtB16 : BinFmt := { mb := 7, bias := 127, eb := 8 }
def fmt16 : BinFmt := { mb := 10, bias := 15, eb := 5 }
def fmtE4M3 : BinFmt := { mb := 3, bias := 7, eb := 4 }
def fmtE5M2 : BinFmt := { mb := 2, bias := 15, eb := 5 }
def fmtE2M3 : BinFmt := { mb := 3, bias := 1, eb := 2 }
def fmtE3M2 : BinFmt := { mb := 2, bias := 3, eb := 3 }
def fmtE2M1 : BinFmt := { mb := 1, bias := 1, eb := 2 }

/-- Sign bit of a format placed. -/
def BinFmt.sign (f : BinFmt) (neg : Bool) : Nat := if neg then 2 ^ (f.mb + f.eb) else 0

/-- The value of an IEEE encoding (largest exponent field: infinities and NaN). -/
def BinFmt.dec (f : BinFmt) (x : Nat) : Fv :=
  let neg := bit x (f.mb + f.eb)
  let y := x % 2 ^ (f.mb + f.eb)
  if y / 2 ^ f.mb = 2 ^ f.eb - 1 then (if y % 2 ^ f.mb = 0 then .inf neg else .nan) else f.value neg y

/-- The quiet NaN of R573. -/
def BinFmt.qnan (f : BinFmt) : Nat := (2 ^ f.eb - 1) * 2 ^ f.mb + 2 ^ (f.mb - 1)

/-- The IEEE encoding of a value, rounded once; subnormal results flushed where `flush` (R573). The flag says that the
result overflowed. -/
def BinFmt.enc (f : BinFmt) (flush : Bool) (m : Rnd) (v : Fv) : Nat × Bool :=
  match v with
  | .nan => (f.qnan, false)
  | .inf s => (f.sign s + (2 ^ f.eb - 1) * 2 ^ f.mb, false)
  | .fin s n d =>
    let r := f.round m n d
    let p := f.pack r.1 r.2
    if (2 ^ f.eb - 1) * 2 ^ f.mb ≤ p then (f.sign s + (2 ^ f.eb - 1) * 2 ^ f.mb, true)
    else if flush ∧ p < 2 ^ f.mb then (f.sign s, false)
    else (f.sign s + p, false)

/-- The encoding of a value in a format with largest finite code `top`, saturated to it; the flag says it saturated.
NaN must not reach it. -/
def BinFmt.encSat (f : BinFmt) (top : Nat) (m : Rnd) (v : Fv) : Nat × Bool :=
  match v with
  | .nan => (0, false)
  | .inf s => (f.sign s + top, true)
  | .fin s n d =>
    let r := f.round m n d
    let p := f.pack r.1 r.2
    if top < p then (f.sign s + top, true) else (f.sign s + p, false)

/-! ### FP32 operations on bit patterns (R204, R312: RNE, subnormal results flushed) -/

def dec32 (x : Nat) : Fv := fmt32.dec x
def enc32 (v : Fv) : Nat := (fmt32.enc true .rne v).1
def f32add (a b : Nat) : Nat := enc32 (Fv.add (dec32 a) (dec32 b))
def f32sub (a b : Nat) : Nat := enc32 (Fv.add (dec32 a) (Fv.neg (dec32 b)))
def f32mul (a b : Nat) : Nat := enc32 (Fv.mul (dec32 a) (dec32 b))
def f32div (a b : Nat) : Nat := enc32 (Fv.div (dec32 a) (dec32 b))

/-- A subnormal pattern replaced by zero of its sign. -/
def flush32 (x : Nat) : Nat := if x % 2 ^ 31 < 2 ^ 23 then x / 2 ^ 31 * 2 ^ 31 else x
def flushB16 (x : Nat) : Nat := if x % 2 ^ 15 < 2 ^ 7 then x / 2 ^ 15 * 2 ^ 15 else x

/-- Integer square root by bits from `2^k` downwards. -/
def isqrtAux (n : Nat) : Nat → Nat → Nat
  | 0, acc => acc
  | k + 1, acc => if (acc + 2 ^ k) * (acc + 2 ^ k) ≤ n then isqrtAux n k (acc + 2 ^ k) else isqrtAux n k acc

/-- floor(√n). -/
def isqrt (n : Nat) : Nat := isqrtAux n (Nat.log2 n / 2 + 1) 0

/-- The square root, as a value that rounds to FP32 as the exact root does: the root of the fraction to 40 bits, with
half a unit added where a remainder is left. -/
def Fv.sqrt (v : Fv) : Fv :=
  match v with
  | .nan => .nan
  | .inf s => if s then .nan else .inf false
  | .fin s n d =>
    if n = 0 then .fin s 0 1 else if s then .nan
    else
      let t : Int := 40 - flog2 n d / 2
      let n' := n * pow2N (2 * t)
      let d' := d * pow2D (2 * t)
      let r := isqrt (n' / d')
      let exact := decide (r * r * d' = n')
      (Fv.fin false (if exact then 2 * r else 2 * r + 1) 1).scale (-(t + 1))

/-- FP16 of a value: RNE, subnormals kept, saturated at ±65,504 (R310, R366); the flag says it saturated. -/
def enc16sat (v : Fv) (m : Rnd := .rne) : Nat × Bool :=
  match v with
  | .nan => (fmt16.qnan, false)
  | _ => fmt16.encSat 0x7BFF m v

def dec16 (x : Nat) : Fv := fmt16.dec x
def decB16 (x : Nat) : Fv := fmtB16.dec x
def encB16 (v : Fv) (m : Rnd := .rne) : Nat × Bool := fmtB16.enc true m v

/-! ### Element formats (Tables 07-6, 08-1) -/

/-- Bits of an element by format code; PRE_FMT codes do not pass here. 0xC and 0xD are 32 bits. -/
def elemBits (f : Nat) : Nat :=
  if f = 0xA then 16 else if f = 0xC ∨ f = 0xD then 32 else if f = 6 ∨ f = 7 then 6 else if f = 8 ∨ f = 9 then 4
  else if f = 0xB then 2 else 8

/-- The MX formats. -/
def isMx (f : Nat) : Bool := f == 3 || f == 4 || f == 5 || f == 6 || f == 7 || f == 9

/-- The value of an element code, without scale or zero point (Table 08-1). -/
def elemValue (f x : Nat) : Fv :=
  if f = 0 then .ofInt (signed x 8)
  else if f = 8 then .ofInt (signed x 4)
  else if f = 3 then (Fv.ofInt (signed x 8)).scale (-6)
  else if f = 1 ∨ f = 4 then (if x % 128 = 127 then .nan else fmtE4M3.value (bit x 7) (x % 128))
  else if f = 2 ∨ f = 5 then fmtE5M2.dec x
  else if f = 6 then fmtE2M3.value (bit x 5) (x % 32)
  else if f = 7 then fmtE3M2.value (bit x 5) (x % 32)
  else if f = 9 then fmtE2M1.value (bit x 3) (x % 8)
  else if f = 0xA then fmtB16.dec x
  else dec32 x

/-- The `n` elements of `w` bits packed from bit 0 of a byte list upwards (R213). -/
def unpack (w n : Nat) (bs : List Byte) : List Nat :=
  let v := leNat bs
  (List.range n).map fun i => bits v (w * i) w

/-- Elements packed least significant first, padded with zero bits to whole bytes (R213). -/
def packElems (w : Nat) (xs : List Nat) : List Byte :=
  natLE (xs.foldr (fun x a => x % 2 ^ w + 2 ^ w * a) 0) (ceilDiv (w * xs.length) 8)

/-- Bytes of a record of `n` elements of a format, scale bytes included (R213, R231). -/
def recordLen (f n : Nat) : Nat := ceilDiv (elemBits f * n) 8 + (if isMx f then ceilDiv n 32 else 0)

/-- The value of a scale byte's block: every element non-finite where the scale is 0xFF (R195, R197). -/
def mxScale (u : Nat) (v : Fv) : Fv := if u = 0xFF then .nan else v.scale ((u : Int) - 127)

/-- The elements of a record as values, with MX scales applied and a zero point taken from INT8 and INT4. -/
def recordValues (f n : Nat) (zero : Int) (bs : List Byte) : List Fv :=
  let eb := ceilDiv (elemBits f * n) 8
  let sc := (bs.drop eb).map BitVec.toNat
  (unpack (elemBits f) n bs).zipIdx.map fun (x, i) =>
    if isMx f then mxScale (sc.getD (i / 32) 127) (elemValue f x)
    else if f = 0 ∨ f = 8 then Fv.add (elemValue f x) (.ofInt (-zero))
    else elemValue f x

/-! ### Conversion to an output format (R209, R210) -/

/-- Element converted: code, saturated or overflowed, marked non-finite. -/
structure Conv where
  code : Nat
  sat : Bool
  nf : Bool
deriving DecidableEq, Repr

/-- Largest code of a small float format. -/
def topCode (f : Nat) : Nat :=
  if f = 1 ∨ f = 4 then 0x7E else if f = 2 ∨ f = 5 then 0x7B else if f = 6 ∨ f = 7 then 0x1F else 7

/-- The binary format of a code of Table 07-6. -/
def fmtOf (f : Nat) : BinFmt :=
  if f = 1 ∨ f = 4 then fmtE4M3 else if f = 2 ∨ f = 5 then fmtE5M2 else if f = 6 then fmtE2M3
  else if f = 7 then fmtE3M2 else if f = 9 then fmtE2M1 else if f = 0xA then fmtB16 else fmt32

/-- A value clamped. -/
def clampI (lo hi v : Int) : Int := if v < lo then lo else if hi < v then hi else v

/-- One element converted to a format that is not MX (Table 08-5). -/
def convertElem (f : Nat) (z : Int) (m : Rnd) (y : Fv) : Conv :=
  if f = 0 ∨ f = 8 then
    let lo : Int := if f = 0 then -128 else -8
    let hi : Int := if f = 0 then 127 else 7
    if y.nonFinite then { code := unsigned (clampI lo hi z) (elemBits f), sat := false, nf := true }
    else
      let r := y.round m
      let r1 := clampI (-2 ^ 31) (2 ^ 31) r
      let o := clampI lo hi (r1 + z)
      { code := unsigned o (elemBits f), sat := decide (r ≠ r1 ∨ o ≠ r1 + z), nf := false }
  else if f = 1 ∨ f = 2 then
    match y with
    | .nan => { code := 0x7F, sat := false, nf := true }
    | .inf s => { code := (fmtOf f).sign s + topCode f, sat := false, nf := true }
    | _ => let r := (fmtOf f).encSat (topCode f) m y
           { code := r.1, sat := r.2, nf := false }
  else if f = 0xA then
    let r := encB16 y m
    { code := r.1, sat := r.2, nf := y.nonFinite || r.2 }
  else { code := enc32 y, sat := false, nf := y.nonFinite }

/-- e_max of an MX format (R210). -/
def mxEmax (f : Nat) : Int :=
  if f = 4 then 8 else if f = 5 then 15 else if f = 6 then 2 else if f = 7 then 4 else if f = 9 then 2 else 0

/-- floor(log2) of the largest magnitude of a list of finite values; none where all are zero. -/
def maxLog2 (ys : List Fv) : Option Int :=
  ys.foldl (fun a y => match y with
    | .fin _ n d => if n = 0 then a else
        let e := flog2 n d
        match a with
        | some x => some (max x e)
        | none => some e
    | _ => a) none

/-- One block of at most 32 elements converted to an MX format: the scale byte and the elements (R210), a rounding
mode for each element. -/
def convertMx (f : Nat) (ys : List (Fv × Rnd)) : Nat × List Conv :=
  if ys.any fun y => y.1.nonFinite then
    (0xFF, ys.map fun y => { code := 0, sat := false, nf := y.1.nonFinite })
  else match maxLog2 (ys.map Prod.fst) with
    | none => (0, ys.map fun _ => { code := 0, sat := false, nf := false })
    | some l =>
      let e := clampI (-127) 127 (l - mxEmax f)
      ((e + 127).toNat, ys.map fun (y, m) =>
        if f = 3 then
          let r := (y.scale (6 - e)).round m
          let o := clampI (-128) 127 r
          { code := unsigned o 8, sat := decide (o ≠ r), nf := false }
        else
          let r := (fmtOf f).encSat (topCode f) m (y.scale (-e))
          { code := r.1, sat := r.2, nf := false })

/-! ### The generator of R212 -/

/-- The multiplier of R212, and the seed that stands in for 0. -/
def lfsrMul : Nat := 0x9e3779b97f4a7c15

/-- The seed of a drain or a Whisk move from the task seed and `k` (R212, R243). -/
def lfsrSeed (taskSeed k : Nat) : Nat :=
  let s := Nat.xor taskSeed (k * lfsrMul % 2 ^ 64)
  if s = 0 then lfsrMul else s

/-- One step of the generator. -/
def lfsrStep (s : Nat) : Nat :=
  let a := Nat.xor s (s * 2 ^ 13 % 2 ^ 64)
  let b := Nat.xor a (a / 2 ^ 7)
  Nat.xor b (b * 2 ^ 17 % 2 ^ 64)

/-- The random values of the next `n` elements, and the seed after them. -/
def lfsrRun : Nat → Nat → List Nat × Nat
  | 0, s => ([], s)
  | n + 1, s =>
    let s1 := lfsrStep s
    let r := lfsrRun n s1
    (s1 / 2 ^ 48 :: r.1, r.2)

/-- Rounding modes of `n` elements: nearest even, or stochastic from a seed; and the seed after them. -/
def rndRun (sr : Bool) (n seed : Nat) : List Rnd × Nat :=
  if sr then
    let r := lfsrRun n seed
    (r.1.map Rnd.sr, r.2)
  else (List.replicate n .rne, seed)

/-- The blocks of 32 of a list, at most `fuel` of them. -/
def blocks32 {α : Type} : Nat → List α → List (List α)
  | 0, _ => []
  | f + 1, xs => if xs.isEmpty then [] else xs.take 32 :: blocks32 f (xs.drop 32)

/-- A vector converted to an output format and packed (R209, R210, R213): its bytes and its conversions. -/
def convertVector (f : Nat) (z : Int) (ys : List (Fv × Rnd)) : List Byte × List Conv :=
  if isMx f then
    let bs := (blocks32 (ys.length + 1) ys).map (convertMx f)
    let cs := (bs.map Prod.snd).flatten
    (packElems (elemBits f) (cs.map (·.code)) ++ bs.map (fun b => BitVec.ofNat 8 b.1), cs)
  else
    let cs := ys.map fun (y, m) => convertElem f z m y
    (packElems (elemBits f) (cs.map (·.code)), cs)

end Sys2Proof.Machine
end

