-- ==== Sys2Proof/Machine/Griddle.lean ====
section
/-!
DEFINITION. The Griddle matrix array: GRIDDLE_MM, passes, streams that do not match, check errors, self-checks, spare
rows and columns, retirement (07_griddle_array.md, R194 to R203).
-/

namespace Sys2Proof.Machine

/-! ### The GRIDDLE_MM body (Table 07-5) -/

def mmRegion (w : Nat) : Nat := bits w 12 2
def mmGriddle (w : Nat) : Nat := bits w 14 5
def mmSwap (w : Nat) : Bool := bit w 20
def mmAcc16 (w : Nat) : Bool := bit w 21
def mmAFmt (w : Nat) : Nat := bits w 22 4
def mmWFmt (w : Nat) : Nat := bits w 26 4
def mmM (w : Nat) : Nat := bits w 30 9
def mmK (w : Nat) : Nat := bits w 39 9
def mmN (w : Nat) : Nat := bits w 48 9
def mmTile (w : Nat) : Nat := bits w 57 1
def mmAccum (w : Nat) : Nat := bits w 58 2
def mmALadle (w : Nat) : Nat := bits w 60 6
def mmPreLadle (w : Nat) : Nat := bits w 66 6
def mmDrain (w : Nat) : Bool := bit w 72

/-- A pass computes in the FP32 domain (R201). -/
def mmFp (w : Nat) : Bool := mmAFmt w == 0xA

/-- Check 1 of Table 07-7 under a partition mode; the counts lie within the limits of R172 and Table 07-3. -/
def mmFieldsOk (mode w : Nat) : Bool :=
  !bit w 19 && bits w 73 31 == 0 && mmAFmt w < 0xC && mmWFmt w < 0xC && mmRegion w < regionsOfMode mode &&
  1 ≤ mmM w && mmM w ≤ modeVecs mode && 1 ≤ mmK w && mmK w ≤ modeRows mode && 1 ≤ mmN w && mmN w ≤ modeCols mode &&
  mmAccum w != 3 && (mmAccum w == 2 || mmPreLadle w == 0)

/-- Check 4: the case of Table 04-6 that forbids the formats and width, 0 where none does. -/
def mmFormatCase (w : Nat) : Nat :=
  if mmAFmt w = 0xA ∧ mmWFmt w = 0xA ∧ mmAcc16 w then 2
  else if (mmAFmt w = 0xA) ≠ (mmWFmt w = 0xA) then 3
  else if mmAFmt w = 8 ∨ mmAFmt w = 9 then 4
  else if mmAFmt w = 0xB ∨ mmWFmt w = 0xB then 5
  else 0

/-- The partition mode that a descriptor's region number is read in: the serving Griddle's, else the home's. -/
def State.descMode (s : State) (x : Ctx) (h g : Nat) : Nat :=
  if x.req.gMask h g ≠ 0 then x.req.gMode h g
  else match s.physGriddle h g with
    | some i => s.fget grid_PART_MODE i
    | none => 0

/-- The table slot that drain settings name, and whether they need its activation and channel tables (Table 08-6). -/
def cfgSlot (cfg : Nat) : Nat := bits cfg 65 1
def cfgNeedsAct (cfg : Nat) : Bool := bits cfg 45 2 == 2
def cfgNeedsChan (cfg : Nat) : Bool := bit cfg 47

/-- The drain settings in force name tables that are loaded, or that an issued DRAIN_CFG is loading (R216). -/
def Region.drainUsable (r : Region) : Bool :=
  match r.cfg with
  | none => false
  | some cfg =>
    let slot := cfgSlot cfg
    let loading (b : Nat) : Bool := r.loads.any fun l => cfgSlot l.word == slot && bit l.word b
    (!cfgNeedsAct cfg || (r.act.getD slot none).isSome || loading 66) &&
    (!cfgNeedsChan cfg || (r.chan.getD slot none).isSome || loading 67)

/-- Check 5 (R216): shadow or weights, accumulation settings, drain settings. -/
def mmSettingsOk (r : Region) (w : Nat) : Bool :=
  (if mmSwap w then !r.issShadow.isEmpty else r.issActive.isSome) &&
  ((mmFp w && mmAccum w != 2) || r.acc.isSome) && (!mmDrain w || r.drainUsable)

/-- Format of the weights that a pass will use. -/
def mmWeightFmt (r : Region) (w : Nat) : Option Nat := if mmSwap w then r.issShadow.head? else r.issActive

/-- Check 7 with the domain rule of R201. -/
def mmAccumOk (r : Region) (w : Nat) : Bool :=
  mmAccum w != 1 || r.issOpen.getD (mmTile w) none == some (mmFp w)

/-- The Whisk attached to a region's Drain, if any: its WHISK descriptor (R241). -/
def State.drainWhisk (s : State) (c h g r : Nat) : Option (Nat × Nat) :=
  (s.units.whisks.filterMap fun p => match p.2.cfg with
    | some cfg => if p.1 / 4 = h ∧ bits cfg 14 2 = 2 ∧ bits cfg 16 5 = g ∧ bits cfg 21 2 = r ∧
        s.fget (hdr_OWNER_CONTEXT 0x13) p.1 = c then some (p.1, cfg) else none
    | none => none).head?

/-- Block length of a ROT code (Table 09-8). -/
def rotLen (r : Nat) : Nat := if r = 0 then 1 else 4 * 2 ^ r

/-- The region with a pass issued to it: issue-order state and queue (R174, R176, R215). -/
def Region.issuePass (r : Region) (i ser w : Nat) : Region :=
  { r with
    passes := r.passes ++ [{ index := i, ser := ser, word := w, acc := r.acc, cfg := r.cfg }]
    issActive := if mmSwap w then r.issShadow.head? else r.issActive
    issShadow := if mmSwap w then r.issShadow.tail else r.issShadow
    issOpen := setAt r.issOpen (mmTile w) (if mmDrain w then none else some (mmFp w)) }

/-- GRIDDLE_MM (R177 to R179): the decode checks in the order of Table 07-7, then the pass is issued to its region, once the Griddle's inputs are
open (R66). -/
def execGriddleMm (c h : Nat) (s : State) : Res :=
  s.onDesc c h 0x10 fun d =>
    let w := d.w
    let g := mmGriddle w
    if ¬ mmFieldsOk (s.descMode d.x h g) w then s.descFault d 0x01
    else match s.checkGriddle c d.x h g (mmRegion w) with
      | .error (code, case) => s.descFault d code case
      | .ok i =>
        let r := s.region i (mmRegion w)
        if ¬ s.holdsLadle c h (mmALadle w) ∨ (mmAccum w = 2 ∧ ¬ s.holdsLadle c h (mmPreLadle w)) then
          s.descFault d 0x04 20 0x11 i
        else if mmFormatCase w ≠ 0 then s.descFault d 0x02 (mmFormatCase w) 0x11 i
        else if ¬ mmSettingsOk r w then s.descFault d 0x01 0 0x11 i
        else if mmWeightFmt r w ≠ some (mmWFmt w) then s.descFault d 0x01 0 0x11 i
        else if ¬ mmAccumOk r w then s.descFault d 0x01 0 0x11 i
        else if s.fget (hdr_DRAIN 0x11) i = 1 then s
        else match (if mmDrain w then s.drainWhisk c h g (mmRegion w) else none) with
          | some (wi, cfg) =>
            if mmN w % rotLen (bits cfg 23 3) ≠ 0 then (s.err 0x13 wi [9]).descFault d 0x47 0 0x13 wi
            else (s.setRegion i (mmRegion w) (r.issuePass d.i d.t.ser w)).issue d
          | none => (s.setRegion i (mmRegion w) (r.issuePass d.i d.t.ser w)).issue d

/-! ### The arithmetic of a pass (R194 to R203) -/

/-- Lanes of a pass (Table 07-2). -/
def mmLanes (w : Nat) : Nat :=
  if mmFp w then 1
  else (if mmWFmt w = 8 ∨ mmWFmt w = 9 then 2 else 1) * (if mmAcc16 w then 2 else 1)

/-- Zero point of a weight column: the byte after its elements (R196). -/
def columnZero (f k : Nat) (rec : List Byte) : Int :=
  let z := ((rec.drop (ceilDiv (elemBits f * k) 8)).headD 0).toNat
  if f = 0 then signed z 8 else if f = 8 then signed z 4 else 0

/-- The weights of a column's rows 0 to `k` − 1 in one load; a cell that the load did not cover holds weight 0 (R174). -/
def loadValues (ws : Weights) (k c : Nat) : List Fv :=
  match ws.cols[c]? with
  | none => List.replicate k (.fin false 0 1)
  | some rec =>
    let vs := recordValues ws.fmt ws.elems (columnZero ws.fmt ws.elems rec) rec
    (List.range k).map fun i => vs.getD i (.fin false 0 1)

/-- The weights of a column's rows 0 to `k` − 1: each cell holds those of the last swap that reached it, since a pass leaves the cells that it gates
untouched (R183); below every swap, `under` gives what the cell of a row holds. -/
def columnValues (under : Nat → Fv) (k c : Nat) : List Swapped → List Fv
  | [] => (List.range k).map under
  | x :: rest =>
    if c < x.wide then loadValues x.load (min k x.rows) c ++ (if k ≤ x.rows then [] else (columnValues under k c rest).drop x.rows)
    else columnValues under k c rest

/-- A weight or scale of one load's column is non-finite. -/
def loadNf (ws : Weights) (c : Nat) : Bool :=
  match ws.cols[c]? with
  | none => false
  | some rec => (recordValues ws.fmt ws.elems 0 rec).any Fv.nonFinite

/-- A weight or scale of the loads that a column's rows 0 to `k` − 1 hold is non-finite (R197); DEDUCED for rows that the pass gates
(log 37). -/
def columnNf (under : Nat → Fv) (k c : Nat) : List Swapped → Bool
  | [] => (List.range k).any fun r => (under r).nonFinite
  | x :: rest =>
    if c < x.wide then loadNf x.load c || (!decide (k ≤ x.rows) && columnNf under k c rest) else columnNf under k c rest

/-- What cell (r, c) holds where no swap has covered it: the zero of STARTING (R193), or, once weights have become invalid there, a free value. -/
def cellUnder (zeroed : Bool) (f base c r : Nat) : Fv :=
  if zeroed then .fin false 0 1 else elemValue f (Config.freeValue (base + 256 * r + c) % 2 ^ elemBits f)

/-- The exact sum of the finite products of one block of 32 rows, scales applied (R197, R198). -/
def blockSum (xs ws : List Fv) : Fv :=
  (xs.zip ws).foldl (fun a p => if p.1.nonFinite || p.2.nonFinite then a else Fv.add a (Fv.mul p.1 p.2)) (.fin false 0 1)

/-- Saturation to a signed width: the value and whether it saturated. -/
def satTo (w : Nat) (v : Int) : Int × Bool :=
  let o := clampI (-2 ^ (w - 1)) (2 ^ (w - 1) - 1) v
  (o, decide (o ≠ v))

/-- The K-tile sum of one entry in the integer domain: block by block, RNE onto the grid 2^G, saturating at the width
(R199, R200). -/
def intKSum (width : Nat) (g : Int) : Nat → List Fv → List Fv → Int × Bool → Int × Bool
  | 0, _, _, a => a
  | f + 1, xs, ws, a =>
    if xs.isEmpty then a
    else
      let v := ((blockSum (xs.take 32) (ws.take 32)).scale (-g)).round .rne
      let r := satTo width (a.1 + v)
      intKSum width g f (xs.drop 32) (ws.drop 32) (r.1, a.2 || r.2)

/-- An exact product of two BF16 elements; one that FP32 would hold as a subnormal is zero of its sign (R202, R573). -/
def fpProduct (x w : Fv) : Fv :=
  let p := Fv.mul x w
  match p with
  | .fin s _ _ => if Fv.lt p.abs (.fin false 1 (2 ^ 126)) then .fin s 0 1 else p
  | q => q

/-- The K-tile sum of one entry in the FP32 domain: +0, then each row's exact product added with one rounding (R202). -/
def fpKSum (xs ws : List Fv) : Nat :=
  (xs.zip ws).foldl (fun a p => enc32 (Fv.add (dec32 a) (fpProduct p.1 p.2))) 0

/-- A BF16 operand as it enters: subnormals flushed (R202). -/
def bf16In (v : Fv) : Fv :=
  match v with
  | .fin s _ _ => if Fv.lt v.abs (.fin false 1 (2 ^ 126)) then .fin s 0 1 else v
  | x => x

/-- Bytes of a preload element. -/
def preBytes (f : Nat) : Nat := if f = 0 ∨ f = 2 then 4 else if f = 4 then 1 else 2

/-- The value of a preload element: grid integers keep weight 2^G (Table 08-2). -/
def preValue (f : Nat) (g : Int) (x : Nat) : Fv :=
  if f = 0 then (Fv.ofInt (signed x 32)).scale g
  else if f = 1 then (Fv.ofInt (signed x 16)).scale g
  else if f = 2 then dec32 x else if f = 3 then decB16 x else elemValue 1 x

/-- A preload value in the domain of the tile share (R203). -/
def preEntry (fp : Bool) (f : Nat) (g : Int) (x : Nat) : Entry :=
  let v := preValue f g x
  if fp then { v := enc32 v, nf := v.nonFinite, sat := false }
  else
    let r := satTo 32 ((v.scale (-g)).round .rne)
    { v := unsigned r.1 32, nf := v.nonFinite, sat := r.2 }

/-- One entry of a pass: its new contents from the entry before; `nf` is the mark of its column (R197, R201, R202). -/
def passEntry (w : Nat) (g : Int) (t : Entry) (xs ws : List Fv) (nf : Bool) : Entry :=
  if mmFp w then { v := f32add (flush32 t.v) (fpKSum (xs.map bf16In) (ws.map bf16In)), nf := t.nf, sat := false }
  else
    let k := intKSum (if mmAcc16 w then 16 else 32) g (xs.length + 1) xs ws (0, false)
    let r := satTo 32 (signed t.v 32 + k.1)
    { v := unsigned r.1 32, nf := t.nf || nf || xs.any Fv.nonFinite, sat := t.sat || k.2 || r.2 }

/-- The elements of a preload stream, one list per vector. -/
def preElems (f n : Nat) (recs : List (List Byte)) : List (List Nat) := recs.map (unpack (8 * preBytes f) n)

/-- The entries of a tile share after a pass: 256 × vector + column over the active vectors and columns, from zero, from
the entries before, or from the preload; other entries hold what they held (R176, R183). An entry never written holds a
free value, and so may a cell (`base` counts the draws). -/
def passEntries (w : Nat) (a : Acc) (x : Region) (feed : Feed) (pre : Option Feed) (base : Nat) (old : Store Entry) :
    Store Entry :=
  let k := mmK w
  let zero := if mmAFmt w = 0 then a.zero else 0
  let xs := (feed.recs.take (mmM w)).map (recordValues (mmAFmt w) k zero)
  let under (c : Nat) : Nat → Fv := cellUnder x.zeroed (mmWFmt w) (base + 65536) c
  let cols := (List.range (mmN w)).map fun c => (columnValues (under c) k c x.active, columnNf (under c) k c x.active)
  let ps := match pre with
    | some f => preElems a.pre (mmN w) f.recs
    | none => []
  xs.zipIdx.foldl (fun m xv => cols.zipIdx.foldl (fun m2 cw =>
    let key := 256 * xv.2 + cw.2
    let t : Entry :=
      if mmAccum w = 0 then { v := 0, nf := false, sat := false }
      else if mmAccum w = 2 then preEntry (mmFp w) a.pre a.exp ((ps.getD xv.2 []).getD cw.2 0)
      else (sget? old key).getD { v := Config.freeValue (base + key) % 2 ^ 32, nf := false, sat := false }
    sput m2 key (passEntry w a.exp t xv.1 cw.1.1 cw.1.2)) m) old

/-! ### Streams and passes -/

/-- The stream that a channel delivers to a port of a region, oldest first. -/
def Region.feed (r : Region) (port ch : Nat) : Option Feed := r.feeds.find? fun f => f.port == port && f.ch == ch

/-- A stream's format and length suit the pass (R180). -/
def westOk (w : Nat) (f : Feed) : Bool := f.fmt == mmAFmt w && f.recs.length == mmM w && f.elems == mmK w
def preOk (w : Nat) (a : Option Acc) (f : Feed) : Bool :=
  (match a with
   | some a => f.fmt == a.pre
   | none => false) && f.recs.length == mmM w && f.elems == mmN w

/-- The active weights after a swap over `k` rows and `n` columns: an earlier one shows only where it reaches further (R183). -/
def swapIn (ws : Weights) (k n : Nat) (old : List Swapped) : List Swapped :=
  { load := ws, rows := k, wide := n } :: old.filter fun x => decide (k < x.rows) || decide (n < x.wide)

/-- The region after a pass has taken its streams and, with SWAP, the shadow of the cells that it does not gate (R174, R183). -/
def Region.takePass (r : Region) (w : Nat) : Region :=
  let f1 := r.feeds.eraseP fun f => f.port == 0 && f.ch == mmALadle w
  { r with
    passes := r.passes.tail
    feeds := if mmAccum w = 2 then f1.eraseP (fun f => f.port == 1 && f.ch == mmPreLadle w) else f1
    active := match r.shadow with
      | some ws => if mmSwap w then swapIn ws (mmK w) (mmN w) r.active else r.active
      | none => r.active
    shadow := if mmSwap w then none else r.shadow }

/-- The accumulation settings that a pass uses; a BF16 pass needs none (R216). -/
def Pass.settings (p : Pass) : Acc := p.acc.getD { exp := 0, zero := 0, pre := 0 }

/-- MACs counted: the Griddle's SNAP0 in units of 2^20, and the owner's work (R26, R192). -/
def State.countMacs (s : State) (i c f n : Nat) : State := (s.countUnits 0x11 i 0 n (2 ^ 20)).work c f n

/-- The layout of ERR_FIRST_INFO of the Griddle page (R192): row or column, is a row, region, tile, word. -/
def gridInfo (whr isRow r tile word : Nat) : Nat := whr + 512 * isRow + 1024 * r + 4096 * tile + 65536 * word

/-- The front pass of a region enters its tile share (R173, R201); with DRAIN = 1 the share is handed over under the settings latched, otherwise
the descriptor completes. -/
def State.runPass (s : State) (i r : Nat) (p : Pass) (f : Feed) (pre : Option Feed) : State :=
  let x := s.region i r
  let w := p.word
  let c := s.regionOwner i r
  let x1 := x.takePass w
  let es := passEntries w p.settings x1 f pre s.freeCount (x.tiles.getD (mmTile w) { st := 0, fp := false, entries := [] }).entries
  let tile' : TileShare := { st := if mmDrain w then 2 else 1, fp := mmFp w, entries := es }
  let x2 := { x1 with tiles := setAt x1.tiles (mmTile w) tile' }
  let hand : Handover :=
    { index := p.index, ser := p.ser, tile := mmTile w, m := mmM w, n := mmN w, exp := p.settings.exp, cfg := p.cfg.getD 0,
      count := x2.handCount, begun := false }
  let x3 := if mmDrain w then { x2 with hands := x2.hands ++ [hand], handCount := x2.handCount + 1 } else x2
  let s1 := ({ s with freeCount := s.freeCount + 131072 }.setRegion i r x3).countMacs i c (mmWFmt w) (mmM w * mmK w * mmN w)
  let s2 := (s1.count 0x11 i 1 1).count 0x11 i 2 (ceilDiv (mmM w) (mmLanes w))
  if mmDrain w then s2 else s2.descDone c p.ser

/-- The front pass of a region has its streams and weights in place and its tile share free: the stream of its west edge and, for a preload, that
one's. A pass waits while the Drain owns its share (R176). -/
def Region.passReady (x : Region) : Option (Pass × Feed × Option Feed) :=
  match x.passes with
  | [] => none
  | p :: _ =>
    let w := p.word
    let held : Bool := (x.tiles.getD (mmTile w) { st := 0, fp := false, entries := [] }).st == 2
    let loaded : Bool := if mmSwap w then x.shadow.isSome else !x.active.isEmpty
    let pre := if mmAccum w = 2 then x.feed 1 (mmPreLadle w) else none
    let preReady : Bool := mmAccum w != 2 || pre.any fun f => preOk w p.acc f
    match x.feed 0 (mmALadle w) with
    | some f => if westOk w f && preReady && !held && loaded then some (p, f, pre) else none
    | none => none

/-! ### Region faults (R182, R184) -/

/-- A fault confined to region `r`: the error bit, REGION_FAULT, the region FAULTED and its work discarded, its context
faulted with the P1 code or PARTITION_FAULT, the page FAULTED once every region is (R182, R192). -/
def State.regionFault (s : State) (i r : Nat) (bs : List Nat) (causeBit p1code index info : Nat) (inj : Bool := false) :
    State :=
  let c := s.regionOwner i r
  let mode := s.fget grid_PART_MODE i
  let s1 := (s.err 0x11 i (bs ++ [13]) info c inj).blockEvent 0x11 i 0 info false c
  let s2 := (s1.setRegion i r Region.empty).setRegionState i r 4
  let all := (List.range (regionsOfMode mode)).all fun k => s2.regionState i k == 4
  let s3 := if all then s2.moveFaulted 0x11 i causeBit else s2
  if c < 64 then
    s3.faultCtx c { code := if mode = 0 then p1code else 0x25, index := index, hob := i / 17, ucls := 0x11, uinst := i,
                    info := if mode = 0 then info else info + 2 ^ 32 * p1code }
  else s3

/-- Index of the descriptor that a region's front work belongs to; 0xFFFF none. -/
def Region.frontIndex (r : Region) : Nat :=
  match r.passes with
  | p :: _ => p.index
  | [] => 0xFFFF

/-- The Griddle is classified for retirement (R189). -/
def State.markRetiring (s : State) (i : Nat) : State := s.classify i

/-- A fault that cannot be confined to a region (R182): every region faults, and every context that holds one, with the index that `index` gives of
its first region. The Griddle is to be retired (R189), for an injected error apart (R72). -/
def State.griddleFault (s : State) (i : Nat) (bs : List Nat) (causeBit code info : Nat) (index : Region → Nat) (inj : Bool := false) :
    State :=
  let held := ((List.range 4).map fun r => (s.regionOwner i r, index (s.region i r))).filter fun p => p.1 < 64
  let s1 := s.err 0x11 i (bs ++ [13]) info 0xFF inj
  let s2 := (List.range (regionsOfMode (s.fget grid_PART_MODE i))).foldl (fun t r =>
    ((t.blockEvent 0x11 i 0 (info / 4096 * 4096 + 1024 * r + info % 1024) false (s.regionOwner i r)).setRegion i r Region.empty).setRegionState
      i r 4) s1
  let s3 := s2.moveFaulted 0x11 i causeBit
  let s4 := (held.map Prod.fst).eraseDups.foldl (fun t c =>
    t.faultCtx c { code := code, index := ((held.find? fun p => p.1 == c).map Prod.snd).getD 0xFFFF, hob := i / 17, ucls := 0x11, uinst := i,
                   info := info }) s3
  if inj then s4 else s4.markRetiring i

/-- What a check error of a Griddle causes (R184, Table 07-8): 2 a single-bit tile-buffer error, corrected; 3 an uncorrectable one, whose
word takes a free remap word; 8 weight parity; 9 residue. One that cannot be confined (`whole`) faults the Griddle and calls for its
retirement (R189). -/
def State.checkError (s : State) (i r kind info : Nat) (whole : Bool) : State :=
  let inj : Bool := s.injectLeft 0x11 i kind != 0
  if kind = 2 then s.err 0x11 i [2] info (s.regionOwner i r)
  else
    let s1 := if kind = 3 ∧ sget s.units.tileRemap i 0 < 4 ∧ ¬ inj then
        { s with units := { s.units with tileRemap := sput s.units.tileRemap i (sget s.units.tileRemap i 0 + 1) } }
      else s
    if whole then s1.griddleFault i [kind] kind 0x40 info Region.frontIndex inj
    else s1.regionFault i r [kind] kind 0x40 (s.region i r).frontIndex info

/-- GRIDDLE_CHECK_ERROR (R184): a check of the Griddle's finds an error. -/
def execGriddleCheckError (i r kind info : Nat) (whole : Bool) (s : State) : Res :=
  if ¬ Sys2Proof.Machine.present s.variant 0x11 i ∨ (kind ≠ 2 ∧ kind ≠ 3 ∧ kind ≠ 8 ∧ kind ≠ 9) then .next s
  else .next (s.checkError i r kind info whole)

/-- STREAM_MISMATCH at a region's west edge or preload port (R180): the front pass is discarded, its tile share becomes
EMPTY, and its context faults. Port 3: a row-scale stream whose length is not the drain's (R206). Ports 4 and 5: the
Drain's output or row-sum channel runs a move for another region or port, or of another length (R231, R232). -/
def State.mismatchAt (s : State) (i r port : Nat) : Option (Nat × Nat × Nat) :=
  let x := s.region i r
  let c := s.regionOwner i r
  let run (ch : Nat) : Option Move := ((sget? s.units.chans (64 * (i / 17) + ch)).bind Channel.run).filter fun m => m.ctx == c
  if port < 2 then match x.passes with
    | [] => none
    | p :: _ =>
      let ch := if port = 0 then mmALadle p.word else mmPreLadle p.word
      if port = 1 ∧ mmAccum p.word ≠ 2 then none
      else match x.feed port ch with
        | some f => if (if port = 0 then westOk p.word f else preOk p.word p.acc f) then none else some (p.index, mmTile p.word, ch)
        | none => none
  else match x.hands with
    | [] => none
    | hd :: _ =>
      if ¬ hd.begun then none
      else if port = 3 then
        (match x.feed 3 (bits hd.cfg 95 6) with
         | some f => if bits hd.cfg 93 2 ≠ 0 ∧ f.recs.length ≠ hd.m then some (hd.index, hd.tile, bits hd.cfg 95 6) else none
         | none => none)
      else
        let ch := if port = 4 then bits hd.cfg 85 6 else bits hd.cfg 95 6
        if port = 5 ∧ bits hd.cfg 91 2 ≠ 2 then none
        else match run ch with
          | none => none
          | some m =>
            let n := hd.m * (if port = 5 then 4 else recordLen (bits hd.cfg 40 4) hd.n)
            let fits : Bool := bits m.word 35 5 == s.fget (hdr_LOGICAL_INDEX 0x11) i &&
              bits m.word 40 2 == r && bits m.word 42 2 == port - 4 &&
              leNat ((m.record.drop 4).take 2) * leNat ((m.record.drop 8).take 4) == n
            if bits (m.record.headD 0).toNat 0 4 ≠ 7 ∨ fits then none else some (hd.index, hd.tile, ch)

/-- What a mismatch causes (R180, R206, R231, R232): the pass or the drain is discarded, its share becomes EMPTY, and the context faults with task
severity; the Griddle's page shows a pass's, and the channel's page shows it. -/
def State.mismatch (s : State) (i r port index tile ch : Nat) : State :=
  let x := s.region i r
  let c := s.regionOwner i r
  let x1 := { x with
    passes := if port < 2 then x.passes.tail else x.passes
    hands := if port < 2 then x.hands else x.hands.tail
    tiles := setAt x.tiles tile { st := 0, fp := false, entries := [] } }
  let s1 := (s.setRegion i r x1).err 0x11 i (if port < 2 then [11] else []) (gridInfo 0 0 r tile 0) c
  let s2 := s1.err 0x12 (64 * (i / 17) + ch) [11] 0 c
  s2.faultCtx c { code := 0x41, index := index, hob := i / 17, ucls := 0x11, uinst := i, info := gridInfo 0 0 r tile 0 }

/-- STREAM_MISMATCH (R180, R206, R231, R232): a stream that does not match its pass or drain is met. -/
def execStreamMismatch (i r port : Nat) (s : State) : Res :=
  match s.mismatchAt i r port with
  | none => .next s
  | some (index, tile, ch) => .next (s.mismatch i r port index tile ch)

/-! ### Passes -/

/-- An armed injection corrupts the pass that would run (R72): a mark misplaced, a parity, residue or tile-buffer error, at a place of the array that is
free. -/
def State.passInjected (s : State) (i r b : Nat) (p : Pass) : State :=
  let (k, s1) := s.draw
  let info := gridInfo (if b = 3 then 0 else k % 260) (if b = 3 then 0 else k / 512 % 2) r (mmTile p.word) (if b = 3 then k % 65536 else 0)
  if b = 11 then s1.mismatch i r 0 p.index (mmTile p.word) (mmALadle p.word) else s1.checkError i r b info false

/-- GRIDDLE_PASS_COMPLETE (R173, R201): the front pass of a region, its streams and weights in place, enters its tile share. A stall that is injected
holds it until the stage timer expires (R72). -/
def execGriddlePassComplete (i r : Nat) (s : State) : Res :=
  match (s.region i r).passReady with
  | none => .next s
  | some (p, f, pre) =>
    if s.fget (hdr_STATE 0x11) i ≠ 2 ∨ s.injectLeft 0x11 i 1 ≠ 0 then .next s
    else match s.armed 0x11 i [3, 8, 9, 11] with
      | some b => .next (s.passInjected i r b p)
      | none =>
        let s1 := if s.injectLeft 0x11 i 2 = 0 then s else s.passInjected i r 2 p
        .next (s1.runPass i r p f pre)

/-! ### Self-check, spare rows and columns, retirement (R185 to R189) -/

/-- BAD_ROW and BAD_COL fields in order. -/
def badRows : List Field := [grid_BAD_ROW0, grid_BAD_ROW1, grid_BAD_ROW2, grid_BAD_ROW3]
def badCols : List Field := [grid_BAD_COL0, grid_BAD_COL1, grid_BAD_COL2, grid_BAD_COL3]

/-- Bad lines marked in the half of a physical row or column (Table 07-1). -/
def State.badInHalf (s : State) (i : Nat) (fs : List Field) (p : Nat) : Nat :=
  (fs.filter fun f => s.fget f i ≠ 0x1FF && (decide (s.fget f i < 130) == decide (p < 130))).length

/-- The physical row or column of a logical one: ascending within its half, past the lines of the map (R169, R186). -/
def lineOf (bad : List Nat) (l : Nat) : Option Nat :=
  let half := if l < 128 then 0 else 130
  (((List.range 130).map (half + ·)).filter fun p => !bad.contains p)[l % 128]?

/-- The row map and live skew table of a Griddle, and its column map, as last committed (R186, R188): the physical row, which is the delay, and the
physical column of a logical one. -/
def State.rowOf (s : State) (i l : Nat) : Option Nat := lineOf (sget s.units.lineMap i ([], [])).1 l
def State.colOf (s : State) (i l : Nat) : Option Nat := lineOf (sget s.units.lineMap i ([], [])).2 l

/-- A bad line marked in the first free field, kept in eFlash; SPARE_PENDING set (R185, R187). The maps follow at the commit. -/
def State.markLine (s : State) (i : Nat) (fs : List Field) (p : Nat) : State :=
  match fs.find? fun f => s.fget f i = 0x1FF with
  | some f => (s.fset f i p).fset grid_SPARE_PENDING i 1
  | none => s

/-- A self-check starts. -/
def State.startCheck (s : State) (i : Nat) (k : SelfCheck) : State :=
  let s1 := (s.fset grid_SELF_CHECK_BUSY i 1).fset grid_SELF_CHECK_DONE i 0
  { s1 with units := { s1.units with checking := sput s1.units.checking i k } }

/-- GRIDDLE_SELF_CHECK (R185, R193): sparing firmware checks a FAULTED region that no context owns; a Griddle in STARTING checks its whole
array. -/
def execGriddleSelfCheck (i r : Nat) (s : State) : Res :=
  let st := s.fget (hdr_STATE 0x11) i
  if ¬ Sys2Proof.Machine.present s.variant 0x11 i ∨ s.fget grid_SELF_CHECK_BUSY i = 1 ∨ st = 5 then .next s
  else if st = 1 then .next (if s.fget grid_SELF_CHECK_DONE i = 0 then s.startCheck i .start else s)
  else if s.regionState i r = 4 ∧ s.regionOwner i r = 0xFF then .next (s.startCheck i (.region r))
  else .next s

/-- SELF_CHECK_GO (Table 07-10): accepted only in test mode on an unowned region; otherwise CONFIG_REJECT. -/
def execSelfCheckGo (i : Nat) (s : State) : Res :=
  if ¬ Sys2Proof.Machine.present s.variant 0x11 i then .next s
  else
    let r := s.fget grid_SELF_CHECK_REGION i
    if s.fget glob_TEST_MODE 0 = 1 ∧ r < s.fget grid_REGIONS i ∧ s.regionOwner i r = 0xFF ∧ s.fget grid_SELF_CHECK_BUSY i = 0 then
      .next (s.startCheck i (.host r))
    else .next (s.configReject 0x11 i)

/-- A page that its regions left FAULTED returns through OFF and STARTING: sparing firmware writes RESET and then
ENABLE (R185), on the Drain page too (R219). -/
def State.restartGriddle (s : State) (i : Nat) : State :=
  if s.fget (hdr_STATE 0x11) i = 4 ∧ (List.range (s.fget grid_REGIONS i)).all (fun k => s.regionState i k ≠ 4) then
    let s1 := ((s.toState 0x11 i 0).clearPage 0x11 i).clearPage 0x14 i
    (s1.putControl hdr_ENABLE 0x11 i true).toStarting 0x11 i
  else s

/-- What a self-check shows (R191, R192): BUSY falls, DONE, PASS, IS_ROW and WHERE; SELF_CHECK_FAIL on a failure; block event 1. -/
def State.showCheck (s : State) (i r : Nat) (ok isRow : Bool) (whr : Nat) : State :=
  let info := gridInfo whr (b2n isRow) r 0 0
  let s1 := ((s.fset grid_SELF_CHECK_BUSY i 0).fset grid_SELF_CHECK_DONE i 1).fset grid_SELF_CHECK_PASS i (b2n ok)
  let s2 := (s1.fset grid_SELF_CHECK_IS_ROW i (b2n isRow)).fset grid_SELF_CHECK_WHERE i whr
  let s3 := (if ok then s2 else s2.err 0x11 i [12] info).blockEvent 0x11 i 1 info ok
  { s3 with units := { s3.units with checking := serase s3.units.checking i } }

/-- A clean check of a faulted region (R185): the event was a transient, and the region returns to ON; a second one within 24 hours in the same region
is permanent and unlocalised. -/
def State.regionClean (s : State) (i r : Nat) : State :=
  let key := 16 * i + 4 * s.fget grid_PART_MODE i + r
  let again : Bool := match sget? s.units.lastClean key with
    | some t => decide (s.tick < t + dayTicks)
    | none => false
  let s1 : State := { s with units := { s.units with lastClean := sput s.units.lastClean key s.tick } }
  if again then s1.markRetiring i else (s1.setRegionState i r 2).restartGriddle i

/-- Step 6 of Table 07-9: DRAIN = 0, the regions return to ON, and allocation resumes. -/
def State.endCommit (s : State) (i : Nat) : State :=
  let s1 := (List.range (s.fget grid_REGIONS i)).foldl (fun t r =>
    if t.regionState i r = 4 then t.setRegionState i r 2 else t) ((s.putControl hdr_DRAIN 0x11 i false).fset grid_SPARE_PENDING i 0)
  s1.restartGriddle i

/-- GRIDDLE_SELF_CHECK_DONE (R185): outcome 0 no fault found; 1 a row; 2 a column; 3 a cell (its row where the half has
a spare row, else its column); 4 not completed. What sparing firmware started is classified: a clean result; a line to be spared; a second clean
result within 24 hours of device time, an unlocalised fault, or a line with no spare left, which call for retirement. A failure in STARTING faults
the page (R193); a check that a host ran only shows its result. -/
def execGriddleSelfCheckDone (i outcome row col : Nat) (s : State) : Res :=
  if s.fget grid_SELF_CHECK_BUSY i = 0 then .next s
  else
    let kind := sget s.units.checking i (.host 0)
    let r := match kind with
      | .region r => r
      | .host r => r
      | .start => 0
      | .commit => 0
    let ok : Bool := outcome == 0
    let isRow : Bool := outcome == 1 || (outcome == 3 && s.badInHalf i badRows row < 2)
    let isCol : Bool := !isRow && (outcome == 2 || outcome == 3)
    let s1 := s.showCheck i r ok isRow (if isRow then row else if isCol then col else 0x1FF)
    match kind with
    | .host _ => .next s1
    | .start => .next (if ok then s1 else (s1.setRegionState i 0 4).moveFaulted 0x11 i 12)
    | _ =>
      if isRow ∧ s1.badInHalf i badRows row < 2 then .next (s1.markLine i badRows row)
      else if isCol ∧ s1.badInHalf i badCols col < 2 then .next (s1.markLine i badCols col)
      else if ¬ ok then .next (s1.markRetiring i)
      else if kind = .commit then .next (s1.endCommit i)
      else .next (if s1.regionState i r = 4 then s1.regionClean i r else s1)

/-- SPARE_ROW_COMMIT (R186 to R188, Table 07-9): with a spare pending and every region unowned, sparing firmware drains the page, and, once BUSY is 0,
commits the row map, the live skew table and the column map together, records it, and starts the self-check that ends the sequence. -/
def execSpareRowCommit (i : Nat) (s : State) : Res :=
  if s.fget grid_SPARE_PENDING i = 1 ∧ (List.range 4).all (fun r => s.regionOwner i r = 0xFF) ∧
      s.fget (hdr_STATE 0x11) i ≠ 5 ∧ s.fget grid_SELF_CHECK_BUSY i = 0 then
    let s0 := s.putControl hdr_DRAIN 0x11 i true
    if s0.griddleBusy i then .next s0
    else
      let marked (fs : List Field) : List Nat := (fs.map fun f => s0.fget f i).filter (· ≠ 0x1FF)
      let bad := (marked badRows, marked badCols)
      let used := bad.1.length + bad.2.length
      let s1 : State := { s0 with units := { s0.units with lineMap := sput s0.units.lineMap i bad } }
      let s2 := ((s1.fset (hdr_SUB_USED 0x11) i used).recordRetirement 0x11 i used).spareSwitched 0x11 i 0 used used
      .next (s2.startCheck i .commit)
  else .next s

/-- A lower Griddle of the same Hob was classified in the same tick: the spare is for that one (Table 17-8). -/
def State.lowerClassified (s : State) (i : Nat) : Bool :=
  (List.range i).any fun j => j / 17 == i / 17 && s.units.retiring.contains j && sget s.units.classTick j 0 == sget s.units.classTick i 0

/-- A Griddle is retired (R189): the Hob's spare, if it is OFF and not in service, starts under its logical number; otherwise
SPARE_EXHAUSTED is set. -/
def State.retireGriddle (s : State) (i : Nat) : State :=
  let g := s.fget (hdr_LOGICAL_INDEX 0x11) i
  let sp := 17 * (i / 17) + 16
  let s1 := (s.recordRetirement 0x11 i 0xFFFF).toRetired 0x11 i
  let s2 := { s1 with units := { s1.units with
    retiring := s1.units.retiring.filter (· ≠ i)
    regions := sdropRange s1.units.regions (4 * i) (4 * i + 4) } }
  if sp ≠ i ∧ ¬ s.lowerClassified i ∧ s2.fget (hdr_STATE 0x11) sp = 0 ∧ s2.fget (hdr_IN_SERVICE 0x11) sp = 0 then
    let s3 := ((s2.fset (hdr_IN_SERVICE 0x11) sp 1).fset (hdr_LOGICAL_INDEX 0x11) sp g).spareSwitched 0x11 sp 2 i sp
    (s3.putControl hdr_ENABLE 0x11 sp true).toStarting 0x11 sp
  else s2.err 0x11 i [5]

/-- GRIDDLE_RETIRE (R189): a Griddle classified for retirement reaches RETIRED once every region is unowned. -/
def execGriddleRetire (i : Nat) (s : State) : Res :=
  if s.units.retiring.contains i ∧ (List.range 4).all (fun r => s.regionOwner i r = 0xFF) ∧ s.fget (hdr_STATE 0x11) i ≠ 5 then
    .next (s.retireGriddle i)
  else .next s

end Sys2Proof.Machine
end

