-- ==== Sys2Proof/Machine/Whisk.lean ====
section
/-!
DEFINITION. The Whisk: its arithmetic, the WHISK descriptor and its check errors (09_operand_movement.md, R241 to
R245).
-/

namespace Sys2Proof.Machine

/-! ### The WHISK body (Table 09-8) -/

def whUnit (w : Nat) : Nat := bits w 12 2
def whAttach (w : Nat) : Nat := bits w 14 2
def whGriddle (w : Nat) : Nat := bits w 16 5
def whRegion (w : Nat) : Nat := bits w 21 2
def whRot (w : Nat) : Nat := bits w 23 3
def whSmooth (w : Nat) : Bool := bit w 26
def whSigns (w : Nat) : Bool := bit w 27
def whInFmt (w : Nat) : Nat := bits w 28 4
def whOutFmt (w : Nat) : Nat := bits w 32 4
def whRound (w : Nat) : Bool := bit w 36
def whVlen (w : Nat) : Nat := bits w 37 14
def whLoad (w : Nat) : Bool := bit w 51
def whSel (w : Nat) : Nat := bits w 52 3
def whOff (w : Nat) : Nat := 64 * bits w 55 14
def whZOut (w : Nat) : Int := signed (bits w 69 8) 8

/-! ### Arithmetic (R242) -/

/-- One butterfly stage at distance `h`, on FP32 patterns: pairs (i, i + h) with i mod 2h below h become (a + b, a − b),
each rounded once. -/
def butterfly (h : Nat) (xs : List Nat) : List Nat :=
  xs.zipIdx.map fun (x, i) =>
    if i % (2 * h) < h then f32add x (xs.getD (i + h) 0) else f32sub (xs.getD (i - h) 0) x

/-- The stages at distances 1, 2, 4, … of a block of 2^`k` elements, `j` of them from distance 2^(k − j). -/
def butterflies (k : Nat) : Nat → List Nat → List Nat
  | 0, xs => xs
  | j + 1, xs => butterflies k j (butterfly (2 ^ (k - (j + 1))) xs)

/-- The factor 1 ÷ √n of n = 2^`k` elements (R242, step 5). -/
def rotFactor (k : Nat) : Fv :=
  if k % 2 = 0 then Fv.scale (.fin false 1 1) (-(k / 2 : Nat)) else (dec32 0x3F3504F3).scale (-((k - 1) / 2 : Nat))

/-- A block rotated and normalised. -/
def rotateBlock (k : Nat) (xs : List Nat) : List Nat :=
  (butterflies k k xs).map fun x => enc32 (Fv.mul (dec32 x) (rotFactor k))

/-- Blocks of `n` elements of a list. -/
def chunks (n : Nat) : Nat → List Nat → List (List Nat)
  | 0, _ => []
  | f + 1, xs => if xs.isEmpty then [] else xs.take n :: chunks n f (xs.drop n)

/-- A vector of FP32 patterns through smoothing, signs, rotation and normalisation. -/
def whiskVector (w : Nat) (smooth signs : List Byte) (xs : List Nat) : List Nat :=
  let a := if whSmooth w then xs.zipIdx.map (fun (x, i) =>
      enc32 ((dec32 x).scale (-(signed (smooth.getD i 0).toNat 8)))) else xs
  let b := if whSigns w then a.zipIdx.map (fun (x, i) =>
      if bit (signs.getD (i / 8) 0).toNat (i % 8) then enc32 (Fv.neg (dec32 x)) else x) else a
  if whRot w = 0 then b
  else ((chunks (2 ^ (whRot w + 2)) (b.length + 1) b).map (rotateBlock (whRot w + 2))).flatten

/-- A source record of a move through a Whisk with a stream attachment: decoded, transformed, converted (R242). -/
def whiskRecord (w : Nat) (smooth signs : List Byte) (ms : List Rnd) (rec : List Byte) : List Byte × List Conv :=
  let xs := (recordValues (whInFmt w) (whVlen w) 0 rec).map enc32
  let ys := (whiskVector w smooth signs xs).map dec32
  convertVector (whOutFmt w) (whZOut w) (ys.zip ms)

/-- The records of a move through a Whisk, the generator running over all of them (R243). -/
def whiskRecords (w : Nat) (smooth signs : List Byte) : Nat → List (List Byte) → List (List Byte × List Conv)
  | _, [] => []
  | seed, r :: rs =>
    let m := rndRun (whRound w) (whVlen w) seed
    whiskRecord w smooth signs m.1 r :: whiskRecords w smooth signs m.2 rs

/-- The `k` of R243. -/
def whiskK (count whisk hob lastYield1 : Nat) : Nat := count % 65536 + whisk * 2 ^ 16 + hob * 2 ^ 18 + lastYield1 * 2 ^ 23 + 2 ^ 40

/-! ### The unit -/

def State.whisk (s : State) (i : Nat) : WhiskUnit := sget s.units.whisks i WhiskUnit.empty
def State.setWhisk (s : State) (i : Nat) (u : WhiskUnit) : State :=
  { s with units := { s.units with whisks := sput s.units.whisks i u } }

/-- A move of a channel names Whisk `n`. -/
def Move.names (m : Move) (n : Nat) : Bool := m.job.isNone && bits m.word 44 3 == n + 1

/-- A move or a hand-over that the Whisk serves is unfinished (R245). -/
def State.whiskBusy (s : State) (h n : Nat) : Bool :=
  (s.units.chans.any fun p => p.1 / 64 == h && (p.2.queue.any (·.names n) || (match p.2.run with
    | some m => m.names n
    | none => false))) ||
  (match (s.whisk (4 * h + n)).cfg with
   | some cfg => whAttach cfg == 2 && (match s.physGriddle h (whGriddle cfg) with
      | some i => let r := s.region i (whRegion cfg)
                  !r.hands.isEmpty || r.passes.any fun p => mmDrain p.word
      | none => false)
   | none => false)

/-- The BAD_DESCRIPTOR conditions of R245 for a WHISK descriptor. -/
def whFieldsOk (w : Nat) : Bool :=
  bits w 77 27 == 0 && whAttach w != 3 && whRot w != 7 &&
  (if whAttach w = 1 then
     whInFmt w != 0xB && whInFmt w < 0xD && whOutFmt w != 0xB && whOutFmt w < 0xD && 1 ≤ whVlen w && whVlen w ≤ 8192 &&
     (whOutFmt w != 8 || (decide (-8 ≤ whZOut w) && decide (whZOut w ≤ 7)))
   else whInFmt w == 0 && whOutFmt w == 0 && !whRound w && whVlen w == 0) &&
  (whAttach w == 2 || (whGriddle w == 0 && whRegion w == 0))

/-- OUT_FMT that a region's drain settings in force give; 0 where they are invalid. -/
def Region.outFmt (r : Region) : Nat := match r.cfg with
  | some cfg => bits cfg 40 4
  | none => 0

/-- WHISK (R244, R245): the checks, then the Whisk takes its settings and, with LOAD, its tables, whose bytes are read
here. The read ports of an SB source must be free (R237). -/
def execWhisk (c h : Nat) (s : State) : Res :=
  s.onDesc c h 0x19 fun d =>
    let w := d.w
    let n := whUnit w
    let i := 4 * h + n
    let u := s.whisk i
    let loaded : Bool := u.loaded || whLoad w
    let reg := if whAttach w = 2 then s.physGriddle h (whGriddle w) else none
    let outMx : Bool := if whAttach w = 1 then isMx (whOutFmt w) else match reg with
      | some g => isMx (s.region g (whRegion w)).outFmt
      | none => false
    let src := s.tableSource d (whSel w) (whOff w) 9216
    if ¬ whFieldsOk w ∨ s.whiskBusy h n ∨ ((whSmooth w ∨ whSigns w) ∧ ¬ loaded) then s.descFault d 0x01 0 0x13 i
    else if s.fget (hdr_STATE 0x13) i ≠ 2 then s.descFault d (if s.fget (hdr_STATE 0x13) i = 5 then 0x4C else 0x20) 0 0x13 i
    else if (whRot w = 1 ∨ whRot w = 2) ∧ outMx then s.descFault d 0x02 9 0x13 i
    else if whAttach w = 1 ∧ whVlen w % rotLen (whRot w) ≠ 0 then (s.err 0x13 i [9] (whVlen w) c).descFault d 0x47 0 0x13 i
    else if s.fget (hdr_OWNER_CONTEXT 0x13) i ≠ c ∨ (whAttach w = 2 ∧ ¬ s.holdsRegion c h (whGriddle w) (whRegion w)) ∨
        (whLoad w ∧ src.isNone) then s.descFault d 0x04 20 0x13 i
    else
      let a := src.getD 0
      let gs := if whLoad w ∧ whSel w ≠ 0 then groupsOfHull a (a + 9215) else []
      if s.portBound h false gs then s.waitPorts d
      else
        let u1 := if whLoad w then
            { u with smooth := s.sbRead h a 8192, signs := s.sbRead h (a + 8192) 1024, loaded := true } else u
        (s.setWhisk i { u1 with cfg := if whAttach w = 0 then none else some w }).pass d

/-- An uncorrectable table word (3; the second within 24 hours is permanent, R469) or a residue mismatch (8) of a Whisk: the owning context faults
(R245). -/
def State.whiskFault (s : State) (i kind info index : Nat) : State :=
  let c := s.fget (hdr_OWNER_CONTEXT 0x13) i
  let s1 := s.err 0x13 i [kind] info c
  let e := s1.countEvent 14 i dayTicks
  let s2 := if kind ≠ 3 ∨ s.injectLeft 0x13 i 3 ≠ 0 then s1 else if 2 ≤ e.1 then e.2.condemnUnit 0x13 i 3 else e.2
  s2.faultCtx c { code := 0x48, index := index, hob := i / 4, ucls := 0x13, uinst := i, info := info }

/-- An armed injection corrupts what a Whisk does next (R72): a table bit is corrected; a table word or a residue faults the context. -/
def State.whiskInjected (s : State) (i index : Nat) : State × Bool :=
  match s.armed 0x13 i [3, 8] with
  | some b => let (k, t) := s.draw
              (t.whiskFault i b (k % 2 ^ 32) index, true)
  | none =>
    if s.injectLeft 0x13 i 2 = 0 then (s, false)
    else let (k, t) := s.draw
         (t.err 0x13 i [2] (k % 2 ^ 32) (s.fget (hdr_OWNER_CONTEXT 0x13) i), false)

/-- WHISK_CHECK_ERROR (R245): 2 a single-bit table error, corrected; 3 an uncorrectable table word, the second within
24 hours being permanent (R469); 8 a residue
mismatch: the owning context faults. -/
def execWhiskCheckError (i kind info : Nat) (s : State) : Res :=
  if ¬ Sys2Proof.Machine.present s.variant 0x13 i ∨ (kind ≠ 2 ∧ kind ≠ 3 ∧ kind ≠ 8) then .next s
  else if kind = 2 then .next (s.err 0x13 i [2] info (s.fget (hdr_OWNER_CONTEXT 0x13) i))
  else .next (s.whiskFault i kind info 0xFFFF)

end Sys2Proof.Machine
end

