-- ==== Sys2Proof/Machine/Drain.lean ====
section
/-!
DEFINITION. The Drain: its stages, the DRAIN_CFG descriptor, table loads, tile drains and errors
(08_arithmetic_and_drain.md, R204 to R218).
-/

namespace Sys2Proof.Machine

/-! ### The DRAIN_CFG body (Table 08-6) -/

def dcRegion (w : Nat) : Nat := bits w 12 2
def dcGriddle (w : Nat) : Nat := bits w 14 5
def dcAccSet (w : Nat) : Bool := bit w 19
def dcAcc (w : Nat) : Acc := { exp := signed (bits w 20 9) 9, zero := signed (bits w 29 8) 8, pre := bits w 37 3 }
def dcOutFmt (w : Nat) : Nat := bits w 40 4
def dcRound (w : Nat) : Bool := bit w 44
def dcAct (w : Nat) : Nat := bits w 45 2
def dcChTable (w : Nat) : Bool := bit w 47
def dcMultEn (w : Nat) : Bool := bit w 48
def dcTShift (w : Nat) : Int := signed (bits w 49 8) 8
def dcZOut (w : Nat) : Int := signed (bits w 57 8) 8
def dcLoadAct (w : Nat) : Bool := bit w 66
def dcLoadCh (w : Nat) : Bool := bit w 67
def dcSel (w : Nat) : Nat := bits w 68 3
def dcOff (w : Nat) : Nat := 64 * bits w 71 14
def dcOutLadle (w : Nat) : Nat := bits w 85 6
def dcRowSum (w : Nat) : Nat := bits w 91 2
def dcRowScale (w : Nat) : Nat := bits w 93 2
def dcAuxLadle (w : Nat) : Nat := bits w 95 6
def dcNfFault (w : Nat) : Bool := bit w 101

/-- Bytes of the tables that a DRAIN_CFG loads (R207, R208). -/
def dcTableBytes (w : Nat) : Nat := 1024 * b2n (dcLoadAct w) + 2048 * b2n (dcLoadCh w)

/-- Check 1 of Table 08-7, the change rule of R215 apart. PRE_FMT codes 5 to 7 are reserved (Table 08-2). -/
def dcFieldsOk (mode w : Nat) : Bool :=
  bits w 102 2 == 0 && dcRegion w < regionsOfMode mode && dcAct w != 3 && dcOutFmt w != 0xB && dcOutFmt w < 0xE &&
  (dcOutFmt w != 8 || (decide (-8 ≤ dcZOut w) && decide (dcZOut w ≤ 7))) &&
  (!dcAccSet w || (dcAcc w).pre < 5) && dcRowSum w != 3 && dcRowScale w != 3 && (dcRowSum w == 0 || dcRowScale w == 0) &&
  (dcRowSum w != 0 || dcRowScale w != 0 || dcAuxLadle w == 0) &&
  (dcOutFmt w != 0xD || (dcAct w == 0 && !dcChTable w && dcRowSum w == 0 && dcRowScale w == 0))

/-- A DRAIN_CFG that changes an accumulation setting while a tile share of the region is OPEN (R215). -/
def Region.changeWhileOpen (r : Region) (w : Nat) : Bool :=
  dcAccSet w && r.issOpen.any Option.isSome && r.acc != some (dcAcc w)

/-- The change rule of R215, which check 1 of Table 08-7 ends with, on the region of the Griddle that serves the number. -/
def State.cfgBarred (s : State) (h w : Nat) : Bool :=
  match s.physGriddle h (dcGriddle w) with
  | some i => (s.region i (dcRegion w)).changeWhileOpen w
  | none => false

/-- DRAIN_CFG (R214 to R216): the checks of Table 08-7, then the settings are in force for every later pass and
hand-over of the region; a table load joins the region's loads, and the descriptor stays in flight until it ends. -/
def execDrainCfg (c h : Nat) (s : State) : Res :=
  s.onDesc c h 0x11 fun d =>
    let w := d.w
    let g := dcGriddle w
    if ¬ dcFieldsOk (s.descMode d.x h g) w ∨ s.cfgBarred h w then s.descFault d 0x01
    else match s.checkGriddle c d.x h g (dcRegion w) with
      | .error (code, case) => s.descFault d code case
      | .ok i =>
        let r := s.region i (dcRegion w)
        let load : Bool := dcLoadAct w || dcLoadCh w
        let src := s.tableSource d (dcSel w) (dcOff w) (dcTableBytes w)
        let rotSmall : Bool := match s.drainWhisk c h g (dcRegion w) with
          | some (_, cfg) => whRot cfg == 1 || whRot cfg == 2
          | none => false
        if ¬ s.holdsLadle c h (dcOutLadle w) ∨
            ((dcRowSum w ≠ 0 ∨ dcRowScale w ≠ 0) ∧ ¬ s.holdsLadle c h (dcAuxLadle w)) then s.descFault d 0x04 20 0x14 i
        else if load ∧ src.isNone then s.descFault d 0x01 0 0x14 i
        else if rotSmall ∧ isMx (dcOutFmt w) then s.descFault d 0x02 9 0x14 i
        else
          let a := src.getD 0
          let gs := if load ∧ dcSel w ≠ 0 then groupsOfHull a (a + dcTableBytes w - 1) else []
          if s.portBound h false gs then s.waitPorts d
          else
            let r1 := { r with cfg := some w, acc := if dcAccSet w then some (dcAcc w) else r.acc }
            if load then
              let l : TableLoad := { index := d.i, word := w, src := h * 2 ^ 28 + a, ser := d.t.ser }
              ((s.setRegion i (dcRegion w) { r1 with loads := r1.loads ++ [l] }).bind d false gs).issue d
            else (s.setRegion i (dcRegion w) r1).pass d

/-! ### Table loads (R207, R208, R215) -/

/-- Breakpoints of an activation table. -/
def actBp (t : List Byte) (i : Nat) : Nat := leNat ((t.drop (4 * i)).take 4)
def actA (t : List Byte) (i : Nat) : Nat := leNat ((t.drop (256 + 8 * i)).take 4)
def actC (t : List Byte) (i : Nat) : Nat := leNat ((t.drop (260 + 8 * i)).take 4)

/-- Breakpoints are non-decreasing and not NaN (R207). -/
def actTableOk (t : List Byte) : Bool :=
  (List.range 63).all (fun i => !(dec32 (actBp t i)).isNan) &&
  (List.range 62).all fun i => !Fv.lt (dec32 (actBp t (i + 1))) (dec32 (actBp t i))

/-- A load waits for every drain, waiting or running, that has latched its slot, and for hand-overs issued before it
(R215). -/
def Region.loadBlocked (r : Region) (l : TableLoad) : Bool :=
  r.hands.any (fun hd => hd.ser < l.ser && cfgSlot hd.cfg == cfgSlot l.word) ||
  r.passes.any fun p => p.ser < l.ser && mmDrain p.word && (match p.cfg with
    | some cfg => cfgSlot cfg == cfgSlot l.word
    | none => false)

/-- The activation table that a load reads. -/
def State.loadAct (s : State) (l : TableLoad) : List Byte := s.cp.sb.readN l.src 1024
/-- The channel table that a load reads. -/
def State.loadChan (s : State) (l : TableLoad) : List Byte :=
  s.cp.sb.readN (l.src + if dcLoadAct l.word then 1024 else 0) 2048

/-- DRAIN_TABLE_LOAD_DONE (R215): the oldest load of a region whose slot no earlier drain holds reads its source bytes
and fills the slot; the DRAIN_CFG completes. A table that breaks R207 does not load; DRAIN_ERROR reports it. -/
def execDrainTableLoadDone (i r : Nat) (s : State) : Res :=
  let x := s.region i r
  match x.loads with
  | [] => .next s
  | l :: ls =>
    if x.loadBlocked l ∨ (dcLoadAct l.word ∧ ¬ actTableOk (s.loadAct l)) then .next s
    else
      let k := cfgSlot l.word
      let x1 := { x with
        loads := ls
        act := if dcLoadAct l.word then setAt x.act k (some (s.loadAct l)) else x.act
        chan := if dcLoadCh l.word then setAt x.chan k (some (s.loadChan l)) else x.chan }
      .next ((s.setRegion i r x1).descDone (s.regionOwner i r) l.ser)

/-! ### Stages 1 to 5 (Table 08-3) -/

/-- Channel-table entry of a column: BIAS bits, M and SHIFT (R208). -/
def chanBias (t : List Byte) (c : Nat) : Nat := leNat ((t.drop (8 * c)).take 4)
def chanMul (t : List Byte) (c : Nat) : Nat := leNat ((t.drop (8 * c + 4)).take 2)
def chanShift (t : List Byte) (c : Nat) : Int := signed (t.getD (8 * c + 6) 0).toNat 8

/-- Segment of an activation table that a value falls into: the number of breakpoints at or below it (R207). -/
def actSegment (t : List Byte) (x : Fv) : Nat := ((List.range 63).filter fun i => Fv.le (dec32 (actBp t i)) x).length

/-- Stage 4 on an FP32 pattern (R207). -/
def drainAct (act : Nat) (t : List Byte) (x : Nat) : Nat :=
  if act = 1 then (if (dec32 x).isNan then 0x7FC00000 else if Fv.lt (.fin false 0 1) (dec32 x) then x else 0)
  else if act = 2 then
    if (dec32 x).isNan then 0x7FC00000
    else
      let k := actSegment t (dec32 x)
      enc32 (Fv.add (Fv.mul (dec32 (actA t k)) (dec32 x)) (dec32 (actC t k)))
  else x

/-- An entry after stages 1 to 4: FP32 bits, SAT and NF. -/
def drainEntry (cfg : Nat) (g : Int) (fp : Bool) (act chan : List Byte) (scale : Option Nat) (col : Nat) (e : Entry) : Entry :=
  let useCh := dcChTable cfg
  let bias := if useCh then chanBias chan col else 0
  let m := if useCh ∧ dcMultEn cfg then chanMul chan col else 0x8000
  let sh := dcTShift cfg + (if useCh then chanShift chan col else 0) - 15
  let t1 : Fv × Bool :=
    if fp then (Fv.mul (if useCh then dec32 (f32add (flush32 e.v) bias) else dec32 e.v) (Fv.ofInt m), false)
    else
      let r := satTo 32 (signed e.v 32 + if useCh then signed bias 32 else 0)
      (Fv.ofInt (r.1 * m), r.2)
  let p := t1.1.scale (sh + if fp then 0 else g)
  let q := fmt32.enc true .rne p
  let x3 := match scale with
    | some sv => if dcRowScale cfg = 1 then f32mul q.1 sv else if dcRowScale cfg = 2 then f32div q.1 sv else q.1
    | none => q.1
  { v := drainAct (dcAct cfg) act x3, nf := e.nf || q.2 || (dec32 q.1).nonFinite, sat := e.sat || t1.2 }

/-- The entries of a hand-over in drain order, vector by vector. An entry never written holds a free value. -/
def shareVectors (base : Nat) (t : TileShare) (m n : Nat) : List (List Entry) :=
  (List.range m).map fun v => (List.range n).map fun c =>
    (sget? t.entries (256 * v + c)).getD { v := Config.freeValue (base + 256 * v + c) % 2 ^ 32, nf := false, sat := false }

/-- What a tile drain gives: the bytes of each vector, the NF mark of each entry and what it adds to SNAP1 (R221), and the row sums. -/
structure Drained where
  out : List Byte
  nfs : List Bool
  sats : List Nat
  sums : List Nat
  seed : Nat

/-- One vector through the stages: its bytes, marks, saturations, and row sum from the register before. -/
def drainVector (cfg : Nat) (g : Int) (fp : Bool) (act chan : List Byte) (whisk : Option (Nat × List Byte × List Byte))
    (sum : Nat) (scale : Option Nat) (seed : Nat) (es : List Entry) : Drained :=
  let rm := rndRun (dcRound cfg) es.length seed
  if dcOutFmt cfg = 0xD then
    { out := packElems 32 (es.map (·.v)), nfs := es.map fun e => e.nf || (fp && (dec32 e.v).nonFinite)
      sats := es.map fun e => b2n e.sat, sums := [sum], seed := rm.2 }
  else
    let ys : List Entry := es.zipIdx.map fun p => drainEntry cfg g fp act chan scale p.2 p.1
    let raw : List Nat := ys.map Entry.v
    let vs : List Nat := match whisk with
      | some (w, sm, sg) => whiskVector w sm sg raw
      | none => raw
    let cv := convertVector (dcOutFmt cfg) (dcZOut cfg) ((vs.map dec32).zip rm.1)
    { out := cv.1, nfs := (ys.zip cv.2).map fun p => p.1.nf || p.2.nf
      sats := (ys.zip cv.2).map fun p => b2n p.1.sat + b2n p.2.sat
      sums := [ys.foldl (fun a y => f32add a y.v) sum], seed := rm.2 }

/-- All vectors of a share, the generator running through them. -/
def drainShare (cfg : Nat) (g : Int) (fp : Bool) (act chan : List Byte) (whisk : Option (Nat × List Byte × List Byte))
    (scales : Option (List Nat)) (rowSums : Store Nat) : Nat → Nat → List (List Entry) → Drained
  | seed, _, [] => { out := [], nfs := [], sats := [], sums := [], seed := seed }
  | seed, v, es :: rest =>
    let d := drainVector cfg g fp act chan whisk (sget rowSums v 0) (scales.map fun l => l.getD v 0) seed es
    let ds := drainShare cfg g fp act chan whisk scales rowSums d.seed (v + 1) rest
    { out := d.out ++ ds.out, nfs := d.nfs ++ ds.nfs, sats := d.sats ++ ds.sats, sums := d.sums ++ ds.sums, seed := ds.seed }

/-- The `k` of R212. -/
def drainK (count region hob griddle lastYield1 : Nat) : Nat :=
  count % 65536 + region * 2 ^ 16 + hob * 2 ^ 18 + griddle % 16 * 2 ^ 19 + lastYield1 * 2 ^ 23

/-- The task registers that a region's owner holds on the region's Hob. -/
def State.ownerRegs (s : State) (i r : Nat) : TaskRegs :=
  match (s.ctx? (s.regionOwner i r)).bind Ctx.task with
  | some t => t.regs (i / 17)
  | none => TaskRegs.init

/-- The seed of R212 for a hand-over. -/
def State.drainSeed (s : State) (i r : Nat) (hd : Handover) : Nat :=
  let t := s.ownerRegs i r
  lfsrSeed t.seed (drainK hd.count r (i / 17) (s.fget (hdr_LOGICAL_INDEX 0x11) i) t.yieldSeed)

/-- DRAIN_TILE_START (R215): the oldest hand-over of a region begins, once no table load issued before it into its slot
is unfinished. The seed registers take its seed where ROUND = 1. -/
def execDrainTileStart (i r : Nat) (s : State) : Res :=
  let x := s.region i r
  match x.hands with
  | [] => .next s
  | hd :: hs =>
    if hd.begun ∨ s.fget (hdr_STATE 0x11) i ≠ 2 ∨ (x.loads.any fun l => l.ser < hd.ser && cfgSlot l.word == cfgSlot hd.cfg) then .next s
    else
      let s1 := s.setRegion i r { x with hands := { hd with begun := true } :: hs }
      if dcRound hd.cfg then
        let s2 := s1.fset64 drain_SR_SEED_LO drain_SR_SEED_HI i (s.drainSeed i r hd)
        .next (((s2.fset drain_SR_REGION i r).fset drain_SR_TILE i hd.tile).fset drain_SR_COUNT i hd.count)
      else .next s1

/-- The Whisk of a region's Drain with its tables. -/
def State.whiskOf (s : State) (i r : Nat) : Option (Nat × List Byte × List Byte) :=
  (s.drainWhisk (s.regionOwner i r) (i / 17) (s.fget (hdr_LOGICAL_INDEX 0x11) i) r).map fun (wi, cfg) =>
    (cfg, (s.whisk wi).smooth, (s.whisk wi).signs)

/-- An armed injection on bit 8 marks the next entries drained (R221). -/
def markFirst : Nat → List (List Entry) → List (List Entry)
  | _, [] => []
  | k, es :: rest =>
    (es.zipIdx.map fun p => if p.2 < k then { p.1 with nf := true } else p.1) :: markFirst (k - es.length) rest

/-- What draining a hand-over gives, from its latched settings (R204). -/
def State.drainOf (s : State) (i r : Nat) (hd : Handover) : Drained :=
  let x := s.region i r
  let k := cfgSlot hd.cfg
  let t := x.tiles.getD hd.tile { st := 0, fp := false, entries := [] }
  let scales := if dcRowScale hd.cfg = 0 then none else (x.feed 3 (dcAuxLadle hd.cfg)).map fun f => f.recs.map leNat
  drainShare hd.cfg hd.exp t.fp ((x.act.getD k none).getD []) ((x.chan.getD k none).getD []) (s.whiskOf i r) scales x.rowSums
    (s.drainSeed i r hd) 0
    (markFirst (s.injectLeft 0x14 i 8) (shareVectors s.freeCount t hd.m hd.n))

/-- The channel's running source-port move takes what a Drain delivers. -/
def State.deliver (s : State) (ch : Nat) (bs : List Byte) : State :=
  match sget? s.units.chans ch with
  | some q => (match q.run with
    | some m => { s with units := { s.units with chans := sput s.units.chans ch { q with run := some { m with out := bs } } } }
    | none => s)
  | none => s

/-- The running move of a channel. -/
def State.running (s : State) (ch : Nat) : Option Move := (sget? s.units.chans ch).bind Channel.run

/-- The running move of a channel is a source-port move for region `r` of Griddle `i`, port `p`, of `n` bytes, that has
taken nothing yet (R231, R232). -/
def State.accepts (s : State) (i r p ch n : Nat) : Bool :=
  match s.running (64 * (i / 17) + ch) with
  | some m => m.job.isNone && bits (m.record.headD 0).toNat 0 4 == 7 && bits m.word 35 5 == s.fget (hdr_LOGICAL_INDEX 0x11) i &&
      bits m.word 40 2 == r && bits m.word 42 2 == p && m.out.isEmpty &&
      leNat ((m.record.drop 4).take 2) * leNat ((m.record.drop 8).take 4) == n
  | none => false

/-- A share released to EMPTY, with its hand-over (R176). -/
def Region.release (x : Region) (tile : Nat) : Region :=
  { x with hands := x.hands.tail, tiles := setAt x.tiles tile { st := 0, fp := false, entries := [] } }

/-- ERR_FIRST_INFO of the Drain page (R221). -/
def drainInfo (r tile slot entry : Nat) : Nat := r + 4 * tile + 8 * slot + 65536 * (entry % 65536)

/-- The drain that a region's Drain works on: the oldest hand-over. -/
def Region.drainPlace (x : Region) (r pos : Nat) : Nat :=
  drainInfo r ((x.hands.head?.map Handover.tile).getD 0) ((x.hands.head?.map fun hd => cfgSlot hd.cfg).getD 0) pos

/-- Index of the GRIDDLE_MM that handed over the share being drained (R218); 0xFFFF none. -/
def Region.drainIndex (x : Region) : Nat := (x.hands.head?.map Handover.index).getD 0xFFFF

/-- The Drain page mirrors a move of its Griddle page to FAULTED, with its own error bit as FAULT_CAUSE (R218). -/
def State.mirrorFault (s : State) (before : State) (i kind : Nat) : State :=
  if s.fget (hdr_STATE 0x11) i = 4 ∧ before.fget (hdr_STATE 0x11) i ≠ 4 then s.fset (hdr_FAULT_CAUSE 0x14) i kind else s

/-- A table word or stage of a Drain fails, or holds a token too long (kind 1, R51; R218): the region faults, or, in the shared input stage or the page logic (`whole`), the whole Griddle,
which is then to be retired (R189). -/
def State.drainFault (s : State) (i r kind pos : Nat) (whole : Bool) : State :=
  let x := s.region i r
  let inj : Bool := s.injectLeft 0x14 i kind != 0
  let rs := if whole then List.range (regionsOfMode (s.fget grid_PART_MODE i)) else [r]
  let s0 := s.err 0x14 i [kind, 11] (x.drainPlace r pos) (s.regionOwner i r)
  let s1 := rs.foldl (fun (t : State) (k : Nat) =>
    t.blockEvent 0x14 i 0 ((s.region i k).drainPlace k (if k = r then pos else 0)) false (s.regionOwner i k)) s0
  let code := if kind = 1 then 0x21 else 0x42
  if whole then (s1.griddleFault i [] 13 code (x.drainPlace r pos) Region.drainIndex inj).mirrorFault s i kind
  else (s1.regionFault i r [] 13 code x.drainIndex (x.drainPlace r pos) inj).mirrorFault s i kind

/-- Entries drained, with what they add to SNAP0 and SNAP1, and marked entries to SNAP2 (R221); those that a Whisk served, in whole vectors
(R247). -/
def State.countDrained (s : State) (i r n sats nfs width : Nat) : State :=
  let s1 := ((s.count 0x14 i 0 n).count 0x14 i 1 sats).count 0x14 i 2 nfs
  match s.drainWhisk (s.regionOwner i r) (i / 17) (s.fget (hdr_LOGICAL_INDEX 0x11) i) r with
  | some (wi, _) => (s1.count 0x13 wi 0 n).count 0x13 wi 1 (n / width)
  | none => s1

/-- The drain that has begun on a region can end: its row scales are there, and OUT_LADLE and, for row sums, AUX_LADLE accept what it delivers (R206,
R217, R231). -/
def State.drainReady (s : State) (i r : Nat) (hd : Handover) (bytes : Nat) : Bool :=
  let scaleOk : Bool := dcRowScale hd.cfg == 0 || (match (s.region i r).feed 3 (dcAuxLadle hd.cfg) with
    | some f => f.recs.length == hd.m
    | none => false)
  hd.begun && s.fget (hdr_STATE 0x11) i == 2 && scaleOk && (dcRowSum hd.cfg != 2 || s.accepts i r 1 (dcAuxLadle hd.cfg) (4 * hd.m)) &&
  s.accepts i r 0 (dcOutLadle hd.cfg) bytes

/-- The drain of a share ends (R204 to R213): its results go to OUT_LADLE and its row sums to AUX_LADLE; the share is EMPTY and the GRIDDLE_MM
completes. -/
def State.endDrain (s : State) (i r : Nat) (hd : Handover) : State :=
  let x := s.region i r
  let cfg := hd.cfg
  let dr := s.drainOf i r hd
  let base := 64 * (i / 17)
  let s1 := s.deliver (base + dcOutLadle cfg) dr.out
  let s2 := if dcRowSum cfg = 2 then s1.deliver (base + dcAuxLadle cfg) (dr.sums.flatMap fun v => natLE v 4) else s1
  let sums := if dcRowSum cfg = 1 then
      dr.sums.zipIdx.foldl (fun m p => sput m p.2 p.1) x.rowSums
    else if dcRowSum cfg = 2 then [] else x.rowSums
  let x1 := { x.release hd.tile with
    rowSums := sums
    feeds := if dcRowScale cfg = 0 then x.feeds else x.feeds.eraseP (fun f => f.port == 3 && f.ch == dcAuxLadle cfg) }
  let s3 := ({ s2.setRegion i r x1 with freeCount := s2.freeCount + 65536 }).countDrained i r (hd.m * hd.n) dr.sats.sum
    (dr.nfs.filter id).length hd.n
  let s4 : State := if s3.injectLeft 0x14 i 8 = 0 then s3 else s3.useInject 0x14 i 8 (hd.m * hd.n)
  s4.descDone (s.regionOwner i r) hd.ser

/-- DRAIN_TILE_COMPLETE (R204 to R213): the drain that has begun on a region ends. With NF_FAULT = 1 a share with a marked entry does not complete:
DRAIN_ERROR reports it. An armed injection corrupts a table word or a stage of it, or holds it until the stage timer expires (R72). -/
def execDrainTileComplete (i r : Nat) (s : State) : Res :=
  match (s.region i r).hands with
  | [] => .next s
  | hd :: _ =>
    let dr := s.drainOf i r hd
    if ¬ s.drainReady i r hd dr.out.length ∨ (dcNfFault hd.cfg ∧ dr.nfs.contains true) ∨ s.injectLeft 0x14 i 1 ≠ 0 then .next s
    else match s.armed 0x14 i [3, 9] with
      | some b => let (k, s1) := s.draw
                  .next (s1.drainFault i r b (k % 65536) false)
      | none =>
        let (k, t) := s.draw
        let s1 := if s.injectLeft 0x14 i 2 = 0 then s else t.err 0x14 i [2] ((s.region i r).drainPlace r k) (s.regionOwner i r)
        match s1.drainWhisk (s1.regionOwner i r) (i / 17) (s1.fget (hdr_LOGICAL_INDEX 0x11) i) r with
        | none => .next (s1.endDrain i r hd)
        | some (wi, _) =>
          if s1.injectLeft 0x13 wi 1 ≠ 0 then .next s
          else
            let (s2, bad) := s1.whiskInjected wi hd.index
            .next (if bad then s2 else s2.endDrain i r hd)

/-! ### Errors (R218, Table 08-8) -/

/-- Place of the first marked entry in drain order. -/
def firstNf (l : List Bool) : Nat := (l.takeWhile fun b => !b).length

/-- A drain stops at its first marked entry (R218): the entries before it have been drained, and the entry itself is counted in SNAP2 (R221). The
share is EMPTY, and the task faults. -/
def State.stopDrain (s : State) (i r : Nat) (hd : Handover) (dr : Drained) : State :=
  let c := s.regionOwner i r
  let n := firstNf dr.nfs
  let info := drainInfo r hd.tile (cfgSlot hd.cfg) n
  let s1 := (s.err 0x14 i [8] info c).blockEvent 0x14 i 1 info false c
  let s2 := ({ s1.setRegion i r ((s.region i r).release hd.tile) with freeCount := s1.freeCount + 65536 }).countDrained i r n (dr.sats.take n).sum 1 hd.n
  s2.faultCtx c { code := 0x43, index := hd.index, hob := i / 17, ucls := 0x14, uinst := i, info := info }

/-- DRAIN_ERROR (R218): 2 a table single-bit error, corrected; 3 a table word, 9 a stage residue: the region faults, or
the whole Griddle for the shared input stage; 8 a marked entry with NF_FAULT = 1: the task faults; 10 the activation
table of the region's oldest load breaks R207: the task faults and the slot is left unloaded. `pos` is the entry or
table byte reported. -/
def execDrainError (i r kind pos : Nat) (whole : Bool) (s : State) : Res :=
  let x := s.region i r
  let c := s.regionOwner i r
  if ¬ Sys2Proof.Machine.present s.variant 0x14 i then .next s
  else if kind = 2 then .next (s.err 0x14 i [2] (x.drainPlace r pos) c)
  else if kind = 3 ∨ kind = 9 then .next (s.drainFault i r kind pos whole)
  else if kind = 8 then
    match x.hands with
    | [] => .next s
    | hd :: _ =>
      let dr := s.drainOf i r hd
      if ¬ hd.begun ∨ ¬ dcNfFault hd.cfg ∨ ¬ dr.nfs.contains true then .next s else .next (s.stopDrain i r hd dr)
  else if kind = 10 then
    match x.loads with
    | [] => .next s
    | l :: ls =>
      if x.loadBlocked l ∨ ¬ dcLoadAct l.word ∨ actTableOk (s.loadAct l) then .next s
      else
        let info := drainInfo r 0 (cfgSlot l.word) pos
        let s1 := s.err 0x14 i [10] info c
        let s2 := s1.setRegion i r { x with loads := ls, act := setAt x.act (cfgSlot l.word) none }
        .next (s2.faultCtx c { code := 0x44, index := l.index, hob := i / 17, ucls := 0x14, uinst := i, info := info })
  else .next s

end Sys2Proof.Machine
end

