-- ==== Sys2Proof/Machine/Coll.lean ====
section
/-!
DEFINITION. Collections: their descriptors, where records lie, LZ4 columns, versions that a task sees, and filter
programs (13_colander_near_flash.md, R337 to R348).
-/

namespace Sys2Proof.Machine

/-! ### Fields (Tables 13-3 and 13-4) -/

def clColumns (d : List Byte) : Nat := fld d 2 2
def clNsid (d : List Byte) : Nat := fld d 4 4
def clG (d : List Byte) : Nat := fld d 8 4
def clFirst (d : List Byte) : Nat := fld d 16 8
def clGroups (d : List Byte) : Nat := fld d 24 8
def clRecords (d : List Byte) : Nat := fld d 32 8
def clIdCol (d : List Byte) : Nat := fld d 40 1
def clDelCol (d : List Byte) : Nat := fld d 41 1
/-- Offset of a column's entry. -/
def colAt (c : Nat) : Nat := 256 + 32 * c
def colType (d : List Byte) (c : Nat) : Nat := fld d (colAt c) 1
def colLz4 (d : List Byte) (c : Nat) : Bool := bit (fld d (colAt c + 1) 1) 0
def colWidth (d : List Byte) (c : Nat) : Nat := fld d (colAt c + 2) 2
def colParam (d : List Byte) (c : Nat) : Nat := fld d (colAt c + 4) 2
def colVfmt (d : List Byte) (c : Nat) : Nat := fld d (colAt c + 6) 1
def colFirst (d : List Byte) (c : Nat) : Nat := fld d (colAt c + 8) 1
def colPages (d : List Byte) (c : Nat) : Nat := fld d (colAt c + 9) 1
def colPerPage (d : List Byte) (c : Nat) : Nat := fld d (colAt c + 12) 4

/-- The width that Table 13-5 fixes for a column. -/
def colWidthOk (d : List Byte) (c : Nat) : Bool :=
  let t := colType d c
  let w := colWidth d c
  let p := colParam d c
  if t = 0 then w == 0 else if t ≤ 2 then w == 1 else if t ≤ 4 then w == 2 else if t ≤ 6 then w == 4
  else if t ≤ 8 then w == 8 else if t = 9 then w == 4 else if t = 0xA then decide (1 ≤ w ∧ w ≤ 16384)
  else if t = 0xB then w == 8 else if t = 0xC then decide (8 ≤ p ∧ p ≤ 128 ∧ w = p)
  else if t = 0xD then decide (8 ≤ p ∧ p ≤ 128 ∧ p % 2 = 0 ∧ w = p / 2)
  else if t = 0xE then decide (1 ≤ p ∧ colVfmt d c < 0xB ∧ w = recordLen (colVfmt d c) p ∧ 1 ≤ w ∧ w ≤ 16384)
  else false

/-- A column entry's own rules (R340). -/
def colOk (d : List Byte) (c : Nat) : Bool :=
  let a := colAt c
  let t := colType d c
  let per := colPerPage d c
  colWidthOk d c && fld d (a + 1) 1 < 2 && (t == 0xC || t == 0xD || t == 0xE || colParam d c == 0) &&
  (t == 0xE || colVfmt d c == 0) && zeros d (a + 7) 1 && zeros d (a + 10) 2 && zeros d (a + 16) 16 &&
  1 ≤ colPages d c && colFirst d c + colPages d c ≤ 128 && clG d ≤ colPages d c * per &&
  (if colLz4 d c then (if t = 0 then ceilDiv per 8 else per * colWidth d c) ≤ 65536
   else if t = 0 then per ≤ 131072 else per * colWidth d c ≤ 16384)

/-- The rules of R339 and R340 on a descriptor that defines columns. -/
def collOk (d : List Byte) : Bool :=
  let n := clColumns d
  fld d 0 2 == 1 && 1 ≤ n && n ≤ 120 && 1 ≤ clG d && clG d ≤ 1048576 && zeros d 12 4 && zeros d 42 214 &&
  1 ≤ clGroups d && clGroups d ≤ 2 ^ 40 && (clGroups d - 1) * clG d + 1 ≤ clRecords d && clRecords d ≤ clGroups d * clG d &&
  (clIdCol d == 0xFF || (clIdCol d < n && colType d (clIdCol d) == 0xB)) &&
  (clDelCol d == 0xFF || (clDelCol d < n && colType d (clDelCol d) == 0)) &&
  (List.range n).all (colOk d) && zeros d (colAt n) (4096 - colAt n) &&
  (List.range n).all fun a => (List.range n).all fun b =>
    a == b || colFirst d a + colPages d a ≤ colFirst d b || colFirst d b + colPages d b ≤ colFirst d a

/-! ### LZ4 blocks (R337) -/

/-- A length continued in bytes of 255 (LZ4 block format): the sum and the rest. -/
def lz4Len : Nat → List Byte → Option (Nat × List Byte)
  | _, [] => none
  | a, b :: bs => if b = 255 then lz4Len (a + 255) bs else some (a + b.toNat, bs)

/-- `n` bytes copied from `off` bytes before the end of the output. -/
def lz4Copy (off : Nat) : Nat → List Byte → List Byte
  | 0, out => out
  | n + 1, out => lz4Copy off n (out ++ [out.getD (out.length - off) 0])

/-- The sequences of a block: input left, output so far, and the output position of the last match. The last sequence
is literals only, at least 5 after a match, and the last match begins at least 12 bytes before the end (the public
block format; PRESUMED). -/
def lz4Go : Nat → List Byte → List Byte → Option Nat → Option (List Byte)
  | 0, _, _, _ => none
  | _, [], _, _ => none
  | f + 1, t :: rest, out, lastMatch =>
    let l0 := t.toNat / 16
    match (if l0 = 15 then lz4Len 15 rest else some (l0, rest)) with
    | none => none
    | some (l, r1) =>
      if r1.length < l then none
      else
        let out1 := out ++ r1.take l
        match r1.drop l with
        | [] =>
          (match lastMatch with
           | none => some out1
           | some p => if 5 ≤ l ∧ p + 12 ≤ out1.length then some out1 else none)
        | [_] => none
        | a :: b :: r2 =>
          let off := a.toNat + 256 * b.toNat
          if off = 0 ∨ out1.length < off then none
          else match (if t.toNat % 16 = 15 then lz4Len 15 r2 else some (t.toNat % 16, r2)) with
            | none => none
            | some (m, r3) => lz4Go f r3 (lz4Copy off (m + 4) out1) (some out1.length)

/-- A compressed page decoded: its length field, its block, and the length that the column requires. -/
def lz4Page (page : List Byte) (want : Nat) : Option (List Byte) :=
  let l := fld page 0 4
  if l = 0 ∨ 16380 < l then none
  else match lz4Go (l + 1) ((page.drop 4).take l) [] none with
    | some out => if out.length = want then some out else none
    | none => none

/-! ### What a task reads (R341 to R343, R386) -/

/-- The descriptor of a collection that a context may use: defined, bound to it and valid (R338). -/
def State.collection (s : State) (c : Nat) (x : Ctx) (id : Nat) : Option (List Byte) :=
  match sget? s.near.collections (65536 * x.req.fn + id) with
  | some k => if k.ctx = c ∧ k.valid then some k.bytes else none
  | none => none

/-- The domain of a collection, as NSID × 2^32 + FIRST_TIER_PAGE. -/
def clDomain (d : List Byte) : Nat := tierKey (clNsid d) (clFirst d)

/-- Records that a task sees: VISIBLE of its epoch, else RECORDS (R343, R384, R386). -/
def State.recordsOf (s : State) (d : List Byte) (epoch : Nat) : Nat :=
  match sget? s.ftl.domains (clDomain d) with
  | none => clRecords d
  | some k =>
    if epoch % 2 ^ 64 = 0 then clRecords d
    else min (clRecords d) (if epoch = k.epoch then k.visible else match k.hist.find? fun h => h.1 == epoch with
      | some h => h.2
      | none => k.visible)

/-- State and bytes of an IU of a collection at an epoch: the version of its pages, the deletion column among them, that a task sees (R343, R386). -/
def State.collIu (s : State) (d : List Byte) (epoch iu : Nat) : Nat × Mem :=
  if (sget? s.ftl.domains (clDomain d)).isSome then s.atEpoch iu epoch else s.newest iu

/-- The IU that holds flash page `p` of group `g`. -/
def clIu (d : List Byte) (g p : Nat) : Nat := iuKey (clNsid d) ((clFirst d + g) * 128 + p)

/-- Where column `c` of record `r` lies: its IU and its slot in the page (R341). -/
def recPlace (d : List Byte) (c r : Nat) : Nat × Nat :=
  let i := r % clG d
  (clIu d (r / clG d) (colFirst d c + i / colPerPage d c), i % colPerPage d c)

/-- A page's values, decoded where the column is compressed; none where the page is corrupt. -/
def pageValues (d : List Byte) (c : Nat) (page : List Byte) : Option (List Byte) :=
  if colLz4 d c then
    lz4Page page (if colType d c = 0 then ceilDiv (colPerPage d c) 8 else colPerPage d c * colWidth d c)
  else some page

/-- The bytes of record `r` in column `c`; a BIT value as one byte of 0 or 1. None where its page is corrupt. -/
def State.recValue (s : State) (d : List Byte) (epoch c r : Nat) : Option (List Byte) :=
  let p := recPlace d c r
  (pageValues d c ((s.collIu d epoch p.1).2.readN 0 16384)).map fun v =>
    if colType d c = 0 then [BitVec.ofNat 8 (b2n (bit (v.getD (p.2 / 8) 0).toNat (p.2 % 8)))]
    else (v.drop (p.2 * colWidth d c)).take (colWidth d c)

/-- A record is deleted: its bit in DELETE_COLUMN is 1 (R343). -/
def State.recDeleted (s : State) (d : List Byte) (epoch r : Nat) : Bool :=
  clDelCol d != 0xFF && s.recValue d epoch (clDelCol d) r == some [1]

/-- The vector ID of a record (R353). -/
def State.recId (s : State) (d : List Byte) (epoch r : Nat) : Nat :=
  if clIdCol d = 0xFF then r else leNat ((s.recValue d epoch (clIdCol d) r).getD [])

/-- Byte `b` of a collection stream that begins at record `first`; deleted records deliver their values like any others, and padding is never
delivered (R341 to R343). -/
def State.streamByte (s : State) (d : List Byte) (epoch c first b : Nat) : Byte :=
  if colType d c = 0 then
    BitVec.ofNat 8 (((List.range 8).map fun k =>
      2 ^ k * leNat (if first + 8 * b + k < s.recordsOf d epoch then (s.recValue d epoch c (first + 8 * b + k)).getD [] else [])).sum)
  else ((s.recValue d epoch c (first + b / colWidth d c)).getD []).getD (b % colWidth d c) 0

/-- Length in bytes of the stream of a column from a record to the end of the records seen. -/
def State.streamLen (s : State) (d : List Byte) (epoch c first : Nat) : Nat :=
  let n := s.recordsOf d epoch - first
  if colType d c = 0 then ceilDiv n 8 else n * colWidth d c

/-- The IUs that bytes `[b, b + n)` of a stream are read from. -/
def streamIus (d : List Byte) (c first b n : Nat) : List Nat :=
  if n = 0 then []
  else
    let w := colWidth d c
    let r0 := if colType d c = 0 then first + 8 * b else first + b / w
    let r1 := if colType d c = 0 then first + 8 * (b + n) - 1 else first + (b + n - 1) / w
    (((List.range (r1 - r0 + 1)).map fun k => (recPlace d c (r0 + k)).1)).eraseDups

/-! ### Filter programs (R344 to R347) -/

def fpN (p : List Byte) : Nat := fld p 2 1
def fpConsts (p : List Byte) : Nat := fld p 3 1
def fpOp (p : List Byte) (i : Nat) : Nat := fld p (576 + 8 * i) 1
def fpCol (p : List Byte) (i : Nat) : Nat := fld p (577 + 8 * i) 1
def fpA (p : List Byte) (i : Nat) : Nat := fld p (578 + 8 * i) 1
def fpB (p : List Byte) (i : Nat) : Nat := fld p (579 + 8 * i) 1

/-- An operation that reads a column. -/
def fpUsesCol (op : Nat) : Bool := decide (1 ≤ op ∧ op ≤ 0x0B)

/-- One instruction's operation and constants are legal (R347). -/
def fpInstrOk (p : List Byte) (i : Nat) : Bool :=
  let op := fpOp p i
  let n := fpConsts p
  let a := fpA p i
  let b := fpB p i
  zeros p (580 + 8 * i) 4 &&
  (if 1 ≤ op ∧ op ≤ 6 then decide (a < n)
   else if op = 7 then decide (a < n) && decide (b < n)
   else if op = 8 then decide (1 ≤ b) && decide (b ≤ 16) && decide (a + b ≤ n)
   else if op = 9 ∨ op = 0xA then decide (a < n)
   else if op = 0xB then decide (1 ≤ b) && decide (b ≤ 64) && decide (8 * a + b ≤ 8 * n)
   else op == 0x10 || op == 0x11 || op == 0x12 || op == 0x13 || op == 0x14 || op == 0x1F)

/-- Stack depth after instructions from `i`; none where it underflows, exceeds 16, or END stands before the last place
or does not leave exactly one value. -/
def fpDepth (p : List Byte) : Nat → Nat → Nat → Bool
  | 0, _, _ => false
  | f + 1, i, d =>
    let op := fpOp p i
    if op = 0x1F then i + 1 == fpN p && d == 1
    else if i + 1 = fpN p then false
    else if fpUsesCol op ∨ op = 0x13 ∨ op = 0x14 then decide (d < 16) && fpDepth p f (i + 1) (d + 1)
    else if op = 0x10 ∨ op = 0x11 then decide (2 ≤ d) && fpDepth p f (i + 1) (d - 1)
    else if op = 0x12 then decide (1 ≤ d) && fpDepth p f (i + 1) d
    else false

/-- Columns that a program names. -/
def fpColumns (p : List Byte) : List Nat :=
  (((List.range (fpN p)).filter fun i => fpUsesCol (fpOp p i)).map (fpCol p)).eraseDups

/-- A program is valid (R344, R347). -/
def filterOk (p : List Byte) : Bool :=
  fld p 0 2 == 1 && 1 ≤ fpN p && fpN p ≤ 128 && fpConsts p ≤ 64 && zeros p 4 60 && zeros p 1600 448 &&
  (List.range (fpN p)).all (fpInstrOk p) && fpDepth p (fpN p + 1) 0 0 && (fpColumns p).length ≤ 8

/-- A column type allows an operation (Table 13-5); EQ and NE on BYTES need WIDTH ≤ 64 and their constants. -/
def fpFits (d : List Byte) (p : List Byte) (i : Nat) : Bool :=
  let op := fpOp p i
  let c := fpCol p i
  let t := colType d c
  !fpUsesCol op || (decide (c < clColumns d) &&
    (if t = 0 then op == 1 || op == 2
     else if t ≤ 8 ∨ t = 0xB then op != 0xB
     else if t = 9 then op ≤ 8
     else if t = 0xA then
       ((op == 1 || op == 2) && decide (colWidth d c ≤ 64) && decide (8 * fpA p i + colWidth d c ≤ 8 * fpConsts p)) ||
       (op == 0xB && decide (fpB p i ≤ colWidth d c))
     else false))

def filterFits (d p : List Byte) : Bool := (List.range (fpN p)).all (fpFits d p)

/-- A value of a numeric column: signed or unsigned as the type gives (R346). -/
def intOf (t : Nat) (bs : List Byte) : Int :=
  if t = 2 then signed (leNat (bs.take 1)) 8 else if t = 4 then signed (leNat (bs.take 2)) 16
  else if t = 6 then signed (leNat (bs.take 4)) 32 else if t = 8 then signed (leNat (bs.take 8)) 64
  else if t = 0 then (leNat (bs.take 1) % 2 : Nat) else if t = 1 then leNat (bs.take 1) else if t = 3 then leNat (bs.take 2)
  else if t = 5 then leNat (bs.take 4) else leNat (bs.take 8)

/-- A comparison by its code, on integers and on FP32 values (R346). -/
def cmpInt (op : Nat) (a b : Int) : Bool :=
  if op = 1 then a == b else if op = 2 then a != b else if op = 3 then decide (a < b) else if op = 4 then decide (a ≤ b)
  else if op = 5 then decide (b < a) else decide (b ≤ a)
def fvEq (a b : Fv) : Bool := Fv.le a b && Fv.le b a
def cmpFv (op : Nat) (a b : Fv) : Bool :=
  if op = 1 then fvEq a b else if op = 2 then !fvEq a b else if op = 3 then Fv.lt a b else if op = 4 then Fv.le a b
  else if op = 5 then Fv.lt b a else Fv.le b a

/-- The constant area from constant `a`. -/
def fpConst (p : List Byte) (a : Nat) : List Byte := p.drop (64 + 8 * a)

/-- What instruction `i` pushes for a value `v` of its column. -/
def fpTest (t : Nat) (p : List Byte) (i : Nat) (v : List Byte) : Bool :=
  let op := fpOp p i
  let a := fpA p i
  let b := fpB p i
  if op = 0xB then v.take b == (fpConst p a).take b
  else if t = 0xA then (v == (fpConst p a).take v.length) == (op == 1)
  else if t = 9 then
    let x := dec32 (leNat (v.take 4))
    let k (j : Nat) : Fv := dec32 (leNat ((fpConst p j).take 4))
    if op = 7 then Fv.le (k a) x && Fv.le x (k b)
    else if op = 8 then (List.range b).any fun j => fvEq x (k (a + j))
    else cmpFv op x (k a)
  else
    let x := intOf t v
    let k (j : Nat) : Int := intOf t (fpConst p j)
    let w := leNat v
    let m := leNat ((fpConst p a).take v.length)
    if op = 7 then decide (k a ≤ x) && decide (x ≤ k b)
    else if op = 8 then (List.range b).any fun j => x == k (a + j)
    else if op = 9 then Nat.land w m != 0
    else if op = 0xA then Nat.land w m == m
    else cmpInt op x (k a)

/-- A program run on one record (R345): `get` gives the value of a column. -/
def filterRun (d p : List Byte) (get : Nat → List Byte) : Nat → Nat → List Bool → Bool
  | 0, _, _ => false
  | f + 1, i, st =>
    let op := fpOp p i
    if op = 0x1F then st.headD false
    else if op = 0x10 then (match st with
      | a :: b :: r => filterRun d p get f (i + 1) ((a && b) :: r)
      | _ => false)
    else if op = 0x11 then (match st with
      | a :: b :: r => filterRun d p get f (i + 1) ((a || b) :: r)
      | _ => false)
    else if op = 0x12 then (match st with
      | a :: r => filterRun d p get f (i + 1) ((!a) :: r)
      | _ => false)
    else if op = 0x13 ∨ op = 0x14 then filterRun d p get f (i + 1) ((op == 0x13) :: st)
    else filterRun d p get f (i + 1) (fpTest (colType d (fpCol p i)) p i (get (fpCol p i)) :: st)

/-- A record passes a filter: it is not deleted, for a deleted one evaluates as false, and the program is true (R343, R345). -/
def State.passes (s : State) (d p : List Byte) (epoch r : Nat) : Bool :=
  !s.recDeleted d epoch r && filterRun d p (fun c => (s.recValue d epoch c r).getD []) (fpN p + 1) 0 []

/-! ### Slots (R348, R351) -/

/-- Populated Colanders of a Hob, in ascending number: the reach of a descriptor (R350). -/
def State.reach (s : State) (h : Nat) : List Nat := ((List.range 32).map (32 * h + ·)).filter (colanderFitted s.variant)

/-- Key of a filter slot. -/
def fslotKey (col c slot : Nat) : Nat := 2 * (64 * col + c) + slot

/-- The collection is being read by the task (R338). -/
def State.noteColl (s : State) (c id : Nat) : State :=
  match s.ctx? c with
  | none => s
  | some x => match x.task with
    | none => s
    | some t => if t.colls.contains id then s else s.setCtx c { x with task := some { t with colls := id :: t.colls } }

/-! ### Colander hardware (R359, R360, R361, R468) -/

/-- The engines of a Colander are retired (R468): no lane is in service, and its package is to be retired (R422). -/
def State.retireEngines (s : State) (p : Nat) : State :=
  (((s.fset col_LANES_ON p 0).fset col_LANES_RETIRED p 0xFF).recordRetirement 0x21 p 0x300).classify (pageNo 0x21 p)

/-- A Skimmer lane of a Colander shows a residue mismatch: where its self-check then fails, or on a second one within 24 hours, the
lane is retired; the last lane takes the engines with it (Table 17-1). -/
def State.laneMismatch (s : State) (p lane info c : Nat) (bad : Bool) : State :=
  let inj : Bool := s.injectLeft 0x21 p 9 != 0
  let s1 := s.err 0x21 p [9] info c
  if inj ∨ 8 ≤ lane ∨ ¬ bit (s.fget col_LANES_ON p) lane then s1
  else
    let e := s1.countEvent 12 (8 * p + lane) dayTicks
    if ¬ bad ∧ e.1 < 2 then e.2
    else
      let s2 := ((e.2.fclrBit col_LANES_ON p lane).fsetBit col_LANES_RETIRED p lane).recordRetirement 0x21 p (0x200 + lane)
      if s2.fget col_LANES_ON p = 0 then s2.retireEngines p else s2

/-- A line of a Colander's SRAM enters a remap word, of which one is free. -/
def State.colRemap (s : State) (p line : Nat) : State :=
  let k := s.fget col_REMAP_USED p
  let s2 := (s.fset col_REMAP_USED p (k + 1)).fset (hdr_SUB_USED 0x21) p (s.fget (hdr_SUB_USED 0x21) p + 1)
  ({ s2 with eflash := { s2.eflash with retirements := s2.eflash.retirements ++ [(0x21, p, 0x400 + k)] } } : State).spareSwitched 0x21 p 1
    (line % 65536) k

/-- An uncorrectable word of a Colander's SRAM enters a free remap word; with none left the Colander fails (R360, R468). -/
def State.colSram (s : State) (p info c : Nat) : State :=
  let s1 := s.err 0x21 p [3] info c
  if s.injectLeft 0x21 p 3 ≠ 0 then s1
  else if s1.fget col_REMAP_USED p < 64 then s1.colRemap p (info / 4096)
  else (s1.err 0x21 p [5] info c).moveFaulted 0x21 p 3

/-- A fault that an operation of a context meets on Colander `p`: 1 a NAND page that cannot be recovered, 2 out of reach, 3 a lane residue mismatch
whose lane then passes its self-check, 6 one whose lane fails it, 4 an uncorrectable SRAM error, 5 a handshake stall, 8 a compressed page that breaks
R337; 0 one that only its task shows. -/
def State.colanderHit (s : State) (kind p info c : Nat) : State :=
  if kind = 8 then (s.err 0x21 p [8] info c).fbump col_LZ4_ERRORS p 1
  else if kind = 3 ∨ kind = 6 then s.laneMismatch p (info / 256 % 16) info c (kind = 6)
  else if kind = 4 then s.colSram p info c
  else if kind = 2 then s.err 0x21 p [10] info c
  else if kind = 5 then s.faultUnit 0x21 p 1 info c
  else s

/-- The fault that an injection armed on one of the Colanders `ps` makes of the operation of context `c` that passes it (R72): kind, code, Colander and
detail; `scan`, the operation uses the lanes. -/
def State.colanderArmed (s : State) (ps : List Nat) (scan : Bool) : Option (Nat × Nat × Nat) :=
  ps.findSome? fun p => (s.armed 0x21 p (if scan then [3, 8, 9] else [3, 8])).map fun b =>
    if b = 3 then (4, 0x57, p) else if b = 9 then (3, 0x57, p) else (8, 0x55, p)

/-- Corrected errors injected on the Colanders that an operation passes (R72). -/
def State.colanderFlips (s : State) (ps : List Nat) (c : Nat) : State :=
  ps.foldl (fun (t : State) p => if t.injectLeft 0x21 p 2 = 0 then t else
    let (k, u) := t.draw
    u.err 0x21 p [2] (k % 2 ^ 32) c) s

end Sys2Proof.Machine
end

