-- ==== Sys2Proof/Machine/Snilo.lean ====
section
/-!
DEFINITION. The Snilo Link engine: requests of T3 moves and their answers, serving, the peer and export tables, the
sled number (20_time_and_fabric.md, R544 to R551, R555).
-/

namespace Sys2Proof.Machine

/-! ### Tables -/

/-- A peer entry is well formed: reserved bits 0 and TRANSPORT not 3 (Table 20-4). -/
def peerOk (e : List Byte) : Bool := bits (fld e 0 1) 1 2 != 3 && bits (fld e 0 1) 4 4 == 0 && zeros e 1 7 && zeros e 14 2 && zeros e 42 2
def peerValid (e : List Byte) : Bool := bit (fld e 0 1) 0
def peerPref (e : List Byte) : Nat := bits (fld e 0 1) 3 1

/-- Export window fields (Table 20-5). -/
def wKind (e : List Byte) : Nat := fld e 0 1
def wNsid (e : List Byte) : Nat := fld e 4 4
def wBase (e : List Byte) : Nat := fld e 8 8
def wPages (e : List Byte) : Nat := fld e 16 4
def wFirst (e : List Byte) : Nat := fld e 20 4
def windowOk (e : List Byte) : Bool :=
  (wKind e == 0 || wKind e == 2 || wKind e == 4) && zeros e 1 3 && zeros e 28 4 && wBase e % 2 ^ 21 == 0 &&
  (wKind e == 0 || (1 ≤ wPages e && wBase e + wPages e * 2 ^ 21 ≤ 2 ^ 48))

/-- Two windows of a table overlap. -/
def windowsOverlap (t : Store (List Byte)) : Bool :=
  t.any fun a => t.any fun b => a.1 != b.1 && wKind a.2 != 0 && wKind b.2 != 0 &&
    wBase a.2 < wBase b.2 + wPages b.2 * 2 ^ 21 && wBase b.2 < wBase a.2 + wPages a.2 * 2 ^ 21

/-- The peer entry of a sled, where it is valid. -/
def State.peer (s : State) (sled : Nat) : Option (List Byte) := (sget? s.snilo.peers sled).filter peerValid

/-- SLED_ID of this sled. -/
def State.sledId (s : State) : Nat := s.fget snilo_SLED_ID 0

/-- READY: the own entry is valid (R555). -/
def State.refreshReady (s : State) : State := s.fset snilo_READY 0 (b2n (s.peer s.sledId).isSome)

/-! ### Serving (R549) -/

/-- MEDIA_MODE codes: 0 READ_WRITE, 1 READ_ONLY, 2 SANITIZING. -/
def State.sanitizing (s : State) : Bool := s.fget glob_MEDIA_MODE 0 == 2

/-- The window of an export address. -/
def State.windowAt (s : State) (a : Nat) : Option (List Byte) :=
  (s.snilo.exports.map Prod.snd).find? fun e => wKind e != 0 && wBase e ≤ a && a < wBase e + wPages e * 2 ^ 21

/-- The answer to a read of export space: bytes, or a NAK reason of Table 20-6. DESIGN CHOICE (log 56): a window that reaches past the end of its namespace
exports nothing there, reason 1; the spec does not say. -/
def State.t3Serve (s : State) (src a n : Nat) : Except Nat (List Byte) :=
  if ¬ s.ftl.ready ∨ s.sanitizing then .error 5
  else match s.windowAt a with
    | none => .error 1
    | some e =>
      let off := wFirst e * 2 ^ 21 + (a - wBase e)
      match sget? s.host.namespaces (wNsid e) with
      | none => .error 1
      | some ns =>
        if (ns.kind == .nvm) != (wKind e == 4) ∨ ns.units * 2 ^ 21 < off + n then .error 1
        else if src < fld e 24 2 ∨ fld e 26 2 < src then .error 2
        else if ns.kind = .nvm then
          if s.rangeLocked (wNsid e) off n false then .error 3
          else if (iusOf (wNsid e) off n).any s.iuFails then .error 4
          else .ok (s.nvmRead (wNsid e) off n)
        else .ok ((List.range n).map fun k => match s.slmAddr (wNsid e) (off + k) with
          | some x => s.tiers.hbm.read x
          | none => 0)

/-- The counts and heat of a served read (R549): background work. -/
def State.t3Served (s : State) (a n : Nat) : State :=
  match s.windowAt a with
  | none => s
  | some e =>
    let off := wFirst e * 2 ^ 21 + (a - wBase e)
    if wKind e = 4 then
      let ius := iusOf (wNsid e) off n
      ((s.countReads ius (List.range 8)).heatT2 (wNsid e) off n 0).work 64 16 (s.flashBytes ius)
    else match s.slmAddr (wNsid e) off with
      | some x => s.heatT1 x n
      | none => s

/-- Ethernet frame bytes after the MAC header of a Snilo Link frame with `n` payload bytes, by the peer's transport
(R26, R546). -/
def sniloFrame (e : Option (List Byte)) (n : Nat) : Nat :=
  48 + n + (match e with
    | some p => if bits (fld p 0 1) 1 2 = 1 then 28 else if bits (fld p 0 1) 1 2 = 2 then 48 else 0
    | none => 0)

/-- The context whose running move a channel serves; 64: none. -/
def State.chCtx (s : State) (ch : Nat) : Nat :=
  match (sget? s.units.chans ch).bind Channel.run with
  | some m => m.ctx
  | none => 64

/-- A frame received on a port (R542). An injected corrected error is found by the FEC and corrected (R72, R554). -/
def State.rx (s : State) (p : Nat) : State :=
  let s1 := s.count 0x31 p 0 1
  if s.injectLeft 0x31 p 2 = 0 then s1 else s1.err 0x31 p [2] 0

/-- An injected uncorrectable error waits for the next frame that a port receives (R72, R554). -/
def State.rxCorrupt (s : State) (p : Nat) : Bool := s.injectLeft 0x31 p 3 != 0

/-- A frame is lost to an FEC codeword that could not be corrected on a lane (R554). -/
def State.rxLost (s : State) (p lane : Nat) : State := (s.count 0x31 p 3 1).err 0x31 p [3, 10] lane 0xFF (s.rxCorrupt p)

/-- A Snilo Link frame sent or received on a port, with `n` payload bytes, for a context: the frame counts of the port's page, and its bytes
after the MAC header as B_link (R26, R554). -/
def State.frame (s : State) (port ctx sled n : Nat) (sent : Bool) : State :=
  let b := sniloFrame (s.peer sled) n
  ((if sent then s.count 0x31 port 1 1 else s.rx port).work ctx 17 b).countUnits 0x31 port 2 b 4096

/-! ### Requests of a move (R546 to R548) -/

/-- A port carries frames. -/
def State.portUp (s : State) (p : Nat) : Bool := s.fget eth_LINK_UP p == 1

/-- The port of a new request: PREF_PORT while its link is up, else the other (R547). -/
def State.portFor (s : State) (sled : Nat) : Nat :=
  let p := match s.peer sled with
    | some e => peerPref e
    | none => 0
  if s.portUp p then p else 1 - p

/-- Outstanding requests of a channel on a port. -/
def State.creditsUsed (s : State) (ch port : Nat) : List Nat :=
  (s.snilo.reqs.filter fun r => r.ch == ch && r.port == port).map SReq.credit

def genKey (ch port credit : Nat) : Nat := 8 * (2 * ch + port) + credit

/-- CREDITS_FREE of each port. -/
def State.refreshCredits (s : State) : State :=
  (List.range 2).foldl (fun t p =>
    t.fset snilo_CREDITS_FREE p (1024 - (t.snilo.reqs.filter fun r => r.port == p).length)) s

/-- A piece of a move answered, on the running move of a channel. -/
def State.setPiece (s : State) (ch piece : Nat) (bs : List Byte) : State :=
  match sget? s.units.chans ch with
  | some q => (match q.run with
    | some m => { s with units := { s.units with
        chans := sput s.units.chans ch { q with run := some { m with rx := sput m.rx piece bs } } } }
    | none => s)
  | none => s

/-- A running T3 move of a channel halts: HALTED, DMA_HALT and SOURCE_ERROR, and its context faults (R240, R548). -/
def State.t3Halt (s : State) (ch addr code info : Nat) : State :=
  match (sget? s.units.chans ch).bind Channel.run with
  | none => s
  | some m =>
    let s1 := (s.fset ladle_HALTED ch 1).fset64 ladle_HALT_ADDR_LO ladle_HALT_ADDR_HI ch addr
    let s2 := (s1.fset ladle_HALT_KIND ch 6).err 0x12 ch [9, 10] (addr % 2 ^ 32) m.ctx
    s2.faultCtx m.ctx { code := code, index := m.index, hob := m.hob, ucls := 0x12, uinst := ch, info := info }

/-- One request for piece `piece`, bytes `[a, a + n)` of a sled's export space: sent on a free credit, with a REQ_TIME that the Snilo Link party takes
at crossing point 5; served at once when the sled is this one (R544). A NAK of reasons 1 to 4 ends the move. -/
def State.t3Request (s : State) (ch piece sled a n : Nat) : Option State :=
  if sled = s.sledId then
    match s.t3Serve sled a n with
    | .ok bs => some (((s.setPiece ch piece bs).t3Served a n).count 0x30 0 2 1)
    | .error 5 => none
    | .error r => some (s.t3Halt ch a 0x5E (r + 65536 * sled))
  else
    let p := s.portFor sled
    if s.time.paused.contains p then none
    else match (List.range 8).find? fun k => !(s.creditsUsed ch p).contains k with
    | none => none
    | some k =>
      let r : SReq := { ch := ch, port := p, credit := k, gen := sget s.snilo.gens (genKey ch p k) 0, piece := piece, sled := sled,
                        addr := a, len := n, first := s.tick, last := s.tick, wait := ticksUs (s.fget snilo_RTO_US 0) }
      let s1 := { s with snilo := { s.snilo with reqs := s.snilo.reqs ++ [r] } }
      some ((((s1.serve 5 0 3).count 0x30 p 0 1).frame p (s.chCtx ch) sled 0 true).refreshCredits)

/-- The 4 KiB pieces of `n` bytes at `a` of export space (R546). -/
def t3Pieces : Nat → Nat → Nat → List (Nat × Nat)
  | 0, _, _ => []
  | f + 1, a, n =>
    if n = 0 then [] else
      let k := min n (4096 - a % 4096)
      (a, k) :: t3Pieces f (a + k) (n - k)

/-- The tag of Table 20-6, bytes 8 to 11: credit group, credit, port and generation. -/
structure Tag where
  ch : Nat
  credit : Nat
  port : Nat
  gen : Nat

def tagOf (v : Nat) : Tag := { ch := bits v 0 7, credit := bits v 7 3, port := bits v 10 1, gen := bits v 11 21 }

/-- The outstanding request that an answer matches (R548). -/
def State.match? (s : State) (t : Tag) : Option SReq :=
  s.snilo.reqs.find? fun r => r.ch == t.ch && r.port == t.port && r.credit == t.credit && r.gen % 2 ^ 21 == t.gen

/-- A request ends: its credit returns and its generation rises. -/
def State.endReq (s : State) (r : SReq) : State :=
  let k := genKey r.ch r.port r.credit
  ({ s with snilo := { s.snilo with
      reqs := s.snilo.reqs.filter fun x => !(x.ch == r.ch && x.port == r.port && x.credit == r.credit)
      gens := sput s.snilo.gens k (sget s.snilo.gens k 0 + 1) } }).refreshCredits

/-- RTT_US: the mean round trip of the last second (Table 20-9). -/
def State.noteRtt (s : State) (p us : Nat) : State :=
  let l := ((p, s.tick, us) :: s.snilo.rtts).filter fun x => decide (s.tick < x.2.1 + ticksMs 1000)
  let mine := (l.filter fun x => x.1 == p).map fun x => x.2.2
  ({ s with snilo := { s.snilo with rtts := l } }).fset snilo_RTT_US p (mine.sum / mine.length)

/-- SNILO_READ_REQ (R549): a request received on a port from a sled. One that finds the queue full is dropped; else it
is checked and served, or answered with a NAK, with an RSP_TIME taken at crossing point 5. In PS3 or PS4 it causes an exit. -/
def execSniloReadReq (port src a n : Nat) (full : Bool) (s : State) : Res :=
  if s.variant ≠ .x ∨ s.fget (hdr_STATE 0x30) port ≠ 2 ∨ ¬ s.portUp port ∨ n = 0 ∨ 4096 < a % 4096 + n then .next s
  else if s.rxCorrupt port then .next (s.rxLost port 0)
  else
    let s1 := s.frame port 64 src 0 false
    let s2 := s1.wake.serve 5 0 3
    if full then .next (s1.fbump snilo_REQ_DROPPED port 1) else
    match s2.t3Serve src a n with
    | .ok bs =>
      .next ((((s2.t3Served a n).count 0x30 port 2 1).countUnits 0x30 port 3 bs.length 4096).frame port 64 src bs.length true)
    | .error _ => .next (s2.frame port 64 src 0 true)

/-- SNILO_READ_RSP (R548): an answer received on a port from a sled. One that matches a credit is accepted once; its bytes go to the move, and the credit
returns. Any other answer is discarded: its bytes are the background's (R26). -/
def execSniloReadRsp (tag : Nat) (data : List Byte) (s : State) (port src : Nat := 0) : Res :=
  if s.variant ≠ .x ∨ ¬ s.portUp port then .next s
  else if s.rxCorrupt port then .next (s.rxLost port 0)
  else match (s.match? (tagOf tag)).filter fun r => data.length == r.len with
    | none => .next (s.frame port 64 src data.length false)
    | some r =>
      let s1 := (s.endReq r).count 0x30 r.port 1 1
      let s2 := (s1.setPiece r.ch r.piece data).noteRtt r.port ((s.tick - r.first) * 1024 / 1000)
      .next (s2.frame port (s.chCtx r.ch) src data.length false)

/-- SNILO_NAK (R548): reason 1 to 4 faults the move with REMOTE_REFUSED; reason 5 leaves the request outstanding. One that matches no credit is
discarded. -/
def execSniloNak (tag reason : Nat) (s : State) (port src : Nat := 0) : Res :=
  if s.variant ≠ .x ∨ ¬ s.portUp port then .next s
  else if s.rxCorrupt port then .next (s.rxLost port 0)
  else match s.match? (tagOf tag) with
    | none => .next (s.frame port 64 src 0 false)
    | some r =>
      let s0 := s.frame port (s.chCtx r.ch) src 0 false
      let s1 := ((s0.fbump snilo_NAKS_RECEIVED r.port 1).fset snilo_LAST_NAK_SLED r.port r.sled).fset snilo_LAST_NAK_REASON r.port reason
      let s2 := s1.err 0x30 r.port [9] r.sled
      if 1 ≤ reason ∧ reason ≤ 4 then .next ((s2.endReq r).t3Halt r.ch r.addr 0x5E (reason + 65536 * r.sled))
      else .next s2

/-- The outstanding request of a channel's credit on a port. -/
def State.reqAt (s : State) (ch port credit : Nat) : Option SReq :=
  s.snilo.reqs.find? fun r => r.ch == ch && r.port == port && r.credit == credit

/-- SNILO_RETRANSMIT (R548): the wait of a request has passed; it is sent again with its tag on port `via`, and the wait
doubles up to 3.2 ms. -/
def execSniloRetransmit (ch port credit via : Nat) (s : State) : Res :=
  match s.reqAt ch port credit with
  | none => .next s
  | some r =>
    if s.tick < r.last + r.wait ∨ ¬ s.portUp (via % 2) ∨ s.time.paused.contains (via % 2) then .next s
    else
      let r1 := { r with last := s.tick, wait := min (2 * r.wait) (ticksUs 3200) }
      let s1 := { s with snilo := { s.snilo with reqs := s.snilo.reqs.map fun x => if x = r then r1 else x } }
      .next ((s1.fbump snilo_RETRANSMITS (via % 2) 1).frame (via % 2) (s.chCtx r.ch) r.sled 0 true)

/-- SNILO_REMOTE_TIMEOUT (R548): REMOTE_TIMEOUT_MS has passed since the first send; the move faults with
REMOTE_UNREACHABLE. -/
def execSniloRemoteTimeout (ch port credit : Nat) (s : State) : Res :=
  match s.reqAt ch port credit with
  | none => .next s
  | some r =>
    if s.tick < r.first + ticksMs (s.fget snilo_REMOTE_TIMEOUT_MS 0) then .next s
    else .next (((s.endReq r).err 0x30 r.port [8] r.sled).t3Halt r.ch r.addr 0x0D r.sled)

/-- A channel runs a T3 move. -/
def State.runsT3 (s : State) (ch : Nat) : Bool :=
  match (sget? s.units.chans ch).bind Channel.run with
  | some m => m.job.isNone && bits (m.record.headD 0).toNat 0 4 == 6
  | none => false

/-- SNILO_CREDITS_END (R550): a channel whose move has ended before its answers came returns its credits, and their
generations rise. -/
def execSniloCreditsEnd (ch : Nat) (s : State) : Res :=
  if s.runsT3 ch then .next s
  else .next ((s.snilo.reqs.filter fun r => r.ch == ch).foldl (fun t r => t.endReq r) s)

/-! ### Loading the tables (R544, R545, R555) -/

/-- A load ends with a result. -/
def State.loadDone (s : State) (result bad : Nat) : State :=
  let s1 := ((s.fset snilo_DONE 0 1).fset snilo_RESULT 0 result).fset snilo_BAD_ENTRY 0 bad
  if result = 0 then s1 else s1.err 0x30 0 [10] bad

/-- The bytes of `n` entries of `size` bytes at SRC_ADDR. -/
def State.loadEntries (s : State) (n size : Nat) : List (List Byte) :=
  let a := s.fget64 snilo_SRC_ADDR_LO snilo_SRC_ADDR_HI 0
  (List.range n).map fun k => s.host.mem.readN (a + size * k) size

/-- Entries placed from index `f` upwards. -/
def putEntries (f : Nat) : List (List Byte) → Store (List Byte) → Store (List Byte)
  | [], m => m
  | e :: es, m => putEntries (f + 1) es (sput m f e)

/-- The Snilo Link port page can be written: the X variant, not absent. -/
def State.sniloOn (s : State) : Bool := s.variant = .x && s.planesOn

/-- LOAD_PEERS (R544): entries are read from host memory and each changes as a whole; the load stops at the first bad
entry. -/
def execLoadPeers (s : State) : Res :=
  if ¬ s.sniloOn then .next s
  else
    let f := s.fget snilo_FIRST_ENTRY 0
    let n := s.fget snilo_ENTRY_COUNT 0
    let s0 := s.fset snilo_OP 0 1
    if n = 0 ∨ 32768 < f + n ∨ s.fget64 snilo_SRC_ADDR_LO snilo_SRC_ADDR_HI 0 % 64 ≠ 0 then .next (s0.loadDone 1 f)
    else
      let es := s.loadEntries n 64
      let good := es.takeWhile peerOk
      let s1 := { s0 with snilo := { s0.snilo with
        peers := putEntries f good s0.snilo.peers } }
      let s2 := (s1.work 64 17 (64 * n)).refreshReady
      .next (if good.length = n then s2.loadDone 0 0 else s2.loadDone 1 (f + good.length))

/-- LOAD_EXPORTS (R545): a load that makes windows overlap is refused. -/
def execLoadExports (s : State) : Res :=
  if ¬ s.sniloOn then .next s
  else
    let f := s.fget snilo_FIRST_ENTRY 0
    let n := s.fget snilo_ENTRY_COUNT 0
    let s0 := s.fset snilo_OP 0 2
    if n = 0 ∨ 256 < f + n ∨ s.fget64 snilo_SRC_ADDR_LO snilo_SRC_ADDR_HI 0 % 64 ≠ 0 then .next (s0.loadDone 1 f)
    else
      let es := s.loadEntries n 32
      let good := es.takeWhile windowOk
      let t := putEntries f good s0.snilo.exports
      let s1 := s0.work 64 17 (32 * n)
      if windowsOverlap t then .next (s1.loadDone 3 f)
      else
        let s2 := ({ s1 with snilo := { s1.snilo with exports := t } }).fset snilo_EXPORTS_VALID 0
          (t.filter fun (e : Nat × List Byte) => wKind e.2 != 0).length
        .next (if good.length = n then s2.loadDone 0 0 else s2.loadDone 1 (f + good.length))

/-- CLEAR_EXPORTS (R555): the export table is empty. -/
def execClearExports (s : State) : Res :=
  if ¬ s.sniloOn then .next s
  else
    let s1 := { s with snilo := { s.snilo with exports := [] } }
    .next (((s1.fset snilo_OP 0 3).fset snilo_EXPORTS_VALID 0 0).loadDone 0 0)

/-- SLED_ID_WRITE (R544): accepted while no T3 request is outstanding; otherwise CONFIG_REJECT. -/
def execSledIdWrite (v : Nat) (s : State) : Res :=
  if ¬ s.sniloOn then .next s
  else if s.snilo.reqs.isEmpty then .next ((s.fset snilo_SLED_ID 0 v).refreshReady)
  else .next (s.configReject 0x30 0)

end Sys2Proof.Machine
end

