-- ==== Sys2Proof/Machine/Ladle.lean ====
section
/-!
DEFINITION. Ladle moves: the move record, addresses and hulls, the decode checks, starting, completing and halting a
move, codebook expansion, window pages, SB errors (09_operand_movement.md, R224 to R240; 10_memory_tiers.md, R262 to
R264, R270).
-/

namespace Sys2Proof.Machine

/-! ### The LADLE_MOVE body (Table 09-3) and the move record (Table 09-4) -/

def mvChan (w : Nat) : Nat := bits w 12 6
def mvSel (w : Nat) : Nat := bits w 18 3
def mvRecOff (w : Nat) : Nat := 64 * bits w 21 14
def mvGriddle (w : Nat) : Nat := bits w 35 5
def mvRegion (w : Nat) : Nat := bits w 40 2
def mvPort (w : Nat) : Nat := bits w 42 2
def mvWhisk (w : Nat) : Nat := bits w 44 3

def rcSrcKind (r : List Byte) : Nat := bits (fld r 0 1) 0 4
def rcDstKind (r : List Byte) : Nat := bits (fld r 0 1) 4 4
def rcSrcBase (r : List Byte) : Nat := bits (fld r 1 1) 0 3
def rcDstBase (r : List Byte) : Nat := bits (fld r 1 1) 4 3
def rcFmt (r : List Byte) : Nat := fld r 2 1
def rcXform (r : List Byte) : Nat := bits (fld r 3 1) 0 2
def rcCount1 (r : List Byte) : Nat := fld r 4 2
def rcCount2 (r : List Byte) : Nat := fld r 6 2
def rcLen0 (r : List Byte) : Nat := fld r 8 4
def rcElems (r : List Byte) : Nat := fld r 12 2
def rcOff (r : List Byte) (src : Bool) : Nat := if src then fld r 16 8 else fld r 24 8
def rcStride1 (r : List Byte) (src : Bool) : Int := signed (if src then fld r 32 4 else fld r 40 4) 32
def rcStride2 (r : List Byte) (src : Bool) : Int := signed (if src then fld r 36 4 else fld r 44 4) 32
def rcLStride (r : List Byte) (src : Bool) (n : Nat) : Int := signed (if src then fld r (48 + 8 * n) 8 else fld r (80 + 8 * n) 8) 64
def rcCb (r : List Byte) : Nat := fld r 112 8

/-- The port of a side. -/
def rcSrcPort (r : List Byte) : Bool := rcSrcKind r == 7
def rcDstPort (r : List Byte) : Bool := rcDstKind r == 7
def Move.toShadow (m : Move) : Bool := rcDstPort m.record && mvPort m.word == 2

/-- Check 1 of Table 09-6: fields and codes. -/
def moveFieldsOk (w : Nat) (r : List Byte) : Bool :=
  let sk := rcSrcKind r
  let dk := rcDstKind r
  let port : Bool := rcSrcPort r || rcDstPort r
  let x := rcXform r
  bits w 47 57 == 0 && mvWhisk w ≤ 4 && (port || (mvGriddle w == 0 && mvRegion w == 0)) && (!rcSrcPort r || mvPort w < 2) &&
  sk ≤ 8 && dk ≤ 8 && dk != 5 && dk != 6 && dk != 8 && !(rcSrcPort r && rcDstPort r) &&
  !bit (fld r 1 1) 3 && !bit (fld r 1 1) 7 && x ≤ 1 && bits (fld r 3 1) 2 6 == 0 &&
  1 ≤ rcCount1 r && 1 ≤ rcCount2 r && (!port || rcCount2 r == 1) && 1 ≤ rcLen0 r && rcLen0 r ≤ 2 ^ 24 &&
  (if rcDstPort r ∨ mvWhisk w ≠ 0 ∨ x = 1 then decide (1 ≤ rcElems r) && decide (rcElems r ≤ 8192)
   else rcSrcPort r || rcElems r == 0) &&
  zeros r 14 2 && zeros r 120 8 && (x == 1 || rcCb r == 0) &&
  (x == 0 || ((sk ≤ 2 || sk == 4 || sk == 6) && ((dk == 7 && mvPort w == 2) || dk == 0 || dk == 1) && rcFmt r == 8 &&
    rcLen0 r == ceilDiv (rcElems r) 4)) &&
  rcCount1 r * rcCount2 r * rcLen0 r ≤ 2 ^ 40

/-! ### Addresses (R230) -/

/-- Offset of record `i1` of group `i2` from a side's base register. -/
def Move.recOff (m : Move) (src : Bool) (i1 i2 : Nat) : Int :=
  let r := m.record
  (rcOff r src : Nat) + ((List.range 4).map fun n => (m.iters.getD n 0 : Nat) * rcLStride r src n).sum +
    (i2 : Nat) * rcStride2 r src + (i1 : Nat) * rcStride1 r src

/-- Base register of a side. -/
def Move.baseOf (m : Move) (src : Bool) : Nat := m.base.getD (if src then rcSrcBase m.record else rcDstBase m.record) 0

/-- A side's address modulo 2^64; a collection address keeps its base, and its offset counts stream bytes (R342). -/
def wrap64 (i : Int) : Nat := (i % (2 ^ 64 : Nat)).toNat
def Move.addr (m : Move) (src : Bool) (i1 i2 : Nat) : Nat :=
  if src ∧ rcSrcKind m.record = 5 then wrap64 (m.recOff src i1 i2) else wrap64 (m.baseOf src + m.recOff src i1 i2)

/-- Bytes of a destination record (R231, R234, R241). -/
def Move.dstLen (m : Move) (wh : Option Nat) : Nat :=
  let zp (f : Nat) : Nat := b2n (m.toShadow && (f == 0 || f == 8))
  match wh with
  | some cfg => recordLen (whOutFmt cfg) (whVlen cfg) + zp (whOutFmt cfg)
  | none => if rcXform m.record = 1 then ceilDiv (rcElems m.record) 2 + b2n m.toShadow else rcLen0 m.record

/-- The hull of a side with records of `len` bytes: lowest and highest byte (R235). -/
def Move.hull (m : Move) (src : Bool) (len : Nat) : Nat × Nat :=
  let r := m.record
  let a : Int := ((rcCount1 r - 1 : Nat) : Int) * rcStride1 r src
  let b : Int := ((rcCount2 r - 1 : Nat) : Int) * rcStride2 r src
  let base : Int := if src ∧ rcSrcKind r = 5 then 0 else m.baseOf src
  let lo := wrap64 (base + m.recOff src 0 0 + min 0 a + min 0 b)
  (lo, lo + (max 0 a + max 0 b - min 0 a - min 0 b).toNat + len - 1)

/-- The records of an issue in the order the channel walks them: (i1, source, destination) (R230). -/
def Move.records (m : Move) : List (Nat × Nat × Nat) :=
  (List.range (rcCount2 m.record)).flatMap fun i2 => (List.range (rcCount1 m.record)).map fun i1 =>
    (i1, m.addr true i1 i2, m.addr false i1 i2)

/-- Address and bytes of the codebook table (R234). -/
def Move.codebook (m : Move) : Nat × Nat :=
  (wrap64 (m.baseOf true + (rcCb m.record : Nat)), 2 * rcCount1 m.record)

/-! ### Decode checks (Table 09-6) -/

/-- A range of one side that a descriptor reads or writes. -/
structure Span where
  kind : Nat
  lo : Nat
  hi : Nat
  write : Bool
deriving DecidableEq, Repr

/-- The memory ranges of a move: hulls of both sides, and the codebook table. -/
def Move.spans (m : Move) (wh : Option Nat) : List Span :=
  let r := m.record
  let s := m.hull true (rcLen0 r)
  let d := m.hull false (m.dstLen wh)
  (if rcSrcPort r ∨ rcSrcKind r = 8 then [] else [{ kind := rcSrcKind r, lo := s.1, hi := s.2, write := false }]) ++
  (if rcXform r = 1 then [{ kind := rcSrcKind r, lo := m.codebook.1, hi := m.codebook.1 + m.codebook.2 - 1, write := false }] else []) ++
  (if rcDstPort r then [] else [{ kind := rcDstKind r, lo := d.1, hi := d.2, write := true }])

/-- Packages that hold the tier pages of a namespace range. -/
def State.packagesOf (s : State) (ns lo hi : Nat) : List Nat :=
  (List.range (hi / 2 ^ 21 - lo / 2 ^ 21 + 1)).map fun k => s.packageOf (tierKey ns (lo / 2 ^ 21 + k))

/-- The context holds what a span needs (check 5): SB macro-groups, T1 pages, and, on a single Hob, only its own Hob's
stacks and Colanders (R282). -/
def State.spanHeld (s : State) (d : Desc) (ch : Nat) (p : Span) : Bool :=
  let x := d.x
  if p.kind = 0 then
    (groupsOfHull p.lo p.hi).all fun g => s.fget (sb_GROUP_OWNER g) d.h == d.c
  else if p.kind = 1 then
    (x.req.pairing == 2 || p.lo / 2 ^ 36 % 8 != 4 * (1 - d.h) + ch / 16) &&
    (pagesOfRange p.lo (p.hi + 1 - p.lo)).all fun t => x.pages.any fun q =>
      q.2 == t && q.1 != 0 && (!p.write || q.1 != 4)
  else if p.kind = 4 ∧ x.req.pairing ≠ 2 then
    (s.packagesOf (p.lo / 2 ^ 48 % 256) (p.lo % 2 ^ 48) (p.hi % 2 ^ 48)).all fun c => c / 32 == d.h
  else true

/-- The stacks that channel `n` of Hob `h` reaches (Table 09-1). -/
def reachStacks (x : Ctx) (h n : Nat) : List Nat := (4 * h + n / 16) :: (if x.req.pairing = 2 then [4 * (1 - h) + n / 16] else [])

/-- Check 6: every stack that an HBM span meets is reachable. -/
def spanReach (d : Desc) (ch : Nat) (p : Span) : Bool :=
  p.kind != 1 || (List.range (p.hi / 2 ^ 36 - p.lo / 2 ^ 36 + 1)).all fun k => (reachStacks d.x d.h ch).contains ((p.lo / 2 ^ 36 + k) % 8)

/-- Check 6 for SLM: every byte that a record of the move touches lies on a reachable stack (R225). -/
def State.slmReach (s : State) (d : Desc) (ch : Nat) (a n : Nat) : Bool :=
  let rs := s.mrsOf d.x.req.fn (d.t.regs d.h).mrs
  (List.range ((a % 2 ^ 48 + n - 1) / 65536 - a % 2 ^ 48 / 65536 + 1)).all fun k =>
    match s.mrsAddr rs (max (a % 2 ^ 48) ((a % 2 ^ 48 / 65536 + k) * 65536)) with
    | some b => (reachStacks d.x d.h ch).contains (b / 2 ^ 36)
    | none => true

/-- A span meets the other Hob's half while the Hob-to-Hob link is faulted (R470): a stack, a Colander, or an SLM byte on one of its stacks. -/
def State.linkLost (s : State) (d : Desc) (p : Span) : Bool :=
  s.rel.hobFault &&
    (if p.kind = 1 then p.lo / 2 ^ 36 % 8 / 4 != d.h
     else if p.kind = 4 then (s.packagesOf (p.lo / 2 ^ 48 % 256) (p.lo % 2 ^ 48) (p.hi % 2 ^ 48)).any fun c => c / 32 != d.h
     else p.kind == 2 && (List.range (p.hi / 65536 + 1 - p.lo / 65536)).any fun k =>
       (s.mrsAddr (s.mrsOf d.x.req.fn (d.t.regs d.h).mrs) (max p.lo ((p.lo / 65536 + k) * 65536))).any fun b => b / 2 ^ 38 != d.h)

/-- Bytes of a logical block. -/
def lbaBytes (lbaf : Nat) : Nat := if lbaf = 0 then 4096 else 16384

/-- Check 7: a span lies inside its address space. -/
def State.spanRange (s : State) (d : Desc) (p : Span) : Bool :=
  if p.kind = 0 then p.hi < 0x0C000000 && !(groupsOfHull p.lo p.hi).any fun g => d.x.groups.getD d.h 48 == g
  else if p.kind = 1 then p.hi < 2 ^ 39 && p.lo / 2 ^ 36 == p.hi / 2 ^ 36 && p.hi % 2 ^ 36 < stackBytes
  else if p.kind = 4 then
    match sget? s.host.namespaces (p.lo / 2 ^ 48 % 256) with
    | some n => p.hi < 2 ^ 56 && p.lo / 2 ^ 48 == p.hi / 2 ^ 48 && n.kind == .nvm && n.attached.contains d.x.req.fn &&
        p.hi % 2 ^ 48 < n.units * 2 ^ 21
    | none => false
  else true

/-- Whole logical blocks: every record of an NVM side starts and ends on a block (Table 09-2). -/
def State.blocksOk (s : State) (m : Move) (src : Bool) (len : Nat) : Bool :=
  let r := m.record
  match sget? s.host.namespaces (m.addr src 0 0 / 2 ^ 48 % 256) with
  | none => true
  | some n =>
    let b := lbaBytes n.lbaf
    m.addr src 0 0 % b == 0 && len % b == 0 && (rcCount1 r == 1 || rcStride1 r src % (b : Nat) == 0) &&
      (rcCount2 r == 1 || rcStride2 r src % (b : Nat) == 0)

/-- Check 8: an SLM span lies within the task's memory range set. -/
def State.spanSlm (s : State) (d : Desc) (p : Span) : Bool :=
  p.kind != 2 || (p.hi < 2 ^ 48 && p.hi < rangesLen (s.mrsOf d.x.req.fn (d.t.regs d.h).mrs))

/-- Check 9: the media mode: (code, case) of the fault. -/
def State.spanMedia (s : State) (p : Span) : Option (Nat × Nat) :=
  if (p.kind = 2 ∨ p.kind = 4 ∨ p.kind = 5) ∧ s.sanitizing then some (0x06, 16)
  else if p.kind = 4 ∧ p.write ∧ s.fget glob_MEDIA_MODE 0 = 1 then some (0x05, 15)
  else none

/-- The domains whose tier pages an NVM span meets. -/
def State.domainsOfSpan (s : State) (p : Span) : List (Nat × Domain) :=
  if p.kind = 4 then
    let ns := p.lo / 2 ^ 48 % 256
    let t0 := p.lo % 2 ^ 48 / 2 ^ 21
    let t1 := p.hi % 2 ^ 48 / 2 ^ 21
    s.ftl.domains.filter fun k => k.2.live && k.1 / 2 ^ 32 == ns && k.1 % 2 ^ 32 ≤ t1 && t0 < k.1 % 2 ^ 32 + k.2.pages
  else []

/-- Units of a domain that a span covers and that hold no pending version yet. -/
def State.freshIus (s : State) (k : Nat × Domain) (p : Span) : List Nat :=
  (iusOf (p.lo / 2 ^ 48 % 256) (p.lo % 2 ^ 48) (p.hi + 1 - p.lo)).filter fun iu =>
    k.1 % 2 ^ 32 ≤ iuNum iu / 128 && iuNum iu / 128 < k.1 % 2 ^ 32 + k.2.pages && !(s.pendingOf iu).any fun v => !v.repair

/-- A write to a domain: one writer, at most 1,048,576 pending units (R385), no more bytes in versions than the margin and at most 2^28 versions
(R453). -/
def State.spanDomain (s : State) (c : Nat) (p : Span) : Option Nat :=
  if ¬ p.write then none
  else
    let ds := s.domainsOfSpan p
    if ds.any fun k => match k.2.writer with
      | some w => w != c
      | none => false then some 0x5B
    else if ds.any fun k => 1048576 < s.pendingCount k.1 + (s.freshIus k p).length ||
        (s.freshIus k p != [] && (decide (s.margin < ((s.versionBytes none + 16384 * (s.freshIus k p).length : Nat) : Int)) ||
          decide (2 ^ 28 < s.ftl.versions.length + (s.freshIus k p).length))) then some 0x59
    else none

/-- A namespace span meets a locked range (R458). -/
def State.spanLocked (s : State) (p : Span) : Bool :=
  p.kind == 4 && s.rangeLocked (p.lo / 2 ^ 48 % 256) (p.lo % 2 ^ 48) (p.hi + 1 - p.lo) p.write

/-- A destination meets a frozen granule (R321). -/
def State.spanFrozen (s : State) (p : Span) : Bool :=
  p.kind == 1 && p.write && s.tiers.frozen.any fun g => p.lo / 65536 ≤ g && g ≤ p.hi / 65536

/-- Window pages that an HBM span meets. -/
def State.windowsOf (s : State) (p : Span) : List Nat :=
  if p.kind = 1 then (pagesOfRange p.lo (p.hi + 1 - p.lo)).filter fun t => (s.mark t).window else []

/-- A fill covers each window page it meets (R262). -/
def State.fillCovers (s : State) (p : Span) : Bool :=
  !p.write || (s.windowsOf p).all fun t => p.lo ≤ t1Addr t && t1Addr t + tierBytes - 1 ≤ p.hi

/-- A consumer's pages are READY, or a fill issued by the same sequencer covers them (R263). -/
def State.consumerOk (s : State) (h : Nat) (p : Span) : Bool :=
  p.write || (s.windowsOf p).all fun t => (s.mark t).ready || (s.mark t).fillHobs.contains h

/-- The Whisk descriptor in force of the Whisk that a move names. -/
def State.moveWhisk (s : State) (h : Nat) (w : Nat) : Option Nat :=
  if mvWhisk w = 0 then none else (s.whisk (4 * h + (mvWhisk w - 1))).cfg

/-- Check 10, ports (R231, R232): (code, case). -/
def portCheck (m : Move) (r : Region) (mode : Nat) (wh : Option Nat) : Option (Nat × Nat) :=
  if ¬ rcDstPort m.record then none
  else
    let f := match wh with
      | some cfg => whOutFmt cfg
      | none => rcFmt m.record
    let e := rcElems m.record
    let len := m.dstLen wh
    if mvPort m.word = 0 then
      if f = 8 ∨ f = 9 then some (0x02, 4) else if f = 0xB then some (0x02, 5)
      else if 0xB < f ∨ len ≠ recordLen f e then some (0x01, 0) else none
    else if mvPort m.word = 2 then
      if f = 0xB then some (0x02, 5)
      else if 0xB < f ∨ modeCols mode < rcCount1 m.record ∨ modeRows mode < e ∨
          len ≠ recordLen f e + b2n (f == 0 || f == 8) then some (0x01, 0)
      else none
    else if mvPort m.word = 1 then
      match r.acc with
      | none => some (0x01, 0)
      | some a => if f ≠ a.pre ∨ len ≠ preBytes a.pre * e then some (0x01, 0) else none
    else if f ≠ 0xC ∨ len ≠ 4 ∨ e ≠ 1 then some (0x01, 0) else none

/-- Check 10, a move that names a Whisk (R241, R245): BAD_DESCRIPTOR while it is detached, invalid, or unlike it. -/
def whiskMoveOk (m : Move) (wh : Option Nat) : Bool :=
  mvWhisk m.word == 0 || (match wh with
    | some cfg => whAttach cfg == 1 && rcElems m.record == whVlen cfg && rcFmt m.record == whInFmt cfg &&
        rcLen0 m.record == recordLen (whInFmt cfg) (whVlen cfg) && rcXform m.record == 0
    | none => false)

/-- A collection side: defined, bound, its column exists, and the hull lies within the records seen (R342). -/
def State.collSide (s : State) (d : Desc) (m : Move) : Option (Nat × Nat) :=
  if rcSrcKind m.record ≠ 5 then none
  else
    let a := m.baseOf true
    match s.collection d.c d.x (a % 65536) with
    | none => some (0x51, 0)
    | some k =>
      let col := a / 65536 % 256
      let e := d.t.epochOf (clDomain k)
      if clColumns k ≤ col then some (0x51, 0)
      else if s.streamLen k e col (a / 2 ^ 24) ≤ (m.hull true (rcLen0 m.record)).2 then some (0x46, 0)
      else none

/-- What the decode of a LADLE_MOVE finds: the fault's code, case, Ladle error bits and address; none where it may
issue. -/
structure MoveFault where
  code : Nat
  case : Nat := 0
  bits : List Nat := []
  addr : Nat := 0

/-- The first span that fails a test, as a fault. -/
def firstSpan (ps : List Span) (ok : Span → Bool) (code case : Nat) (bs : List Nat) : Option MoveFault :=
  (ps.find? fun p => !ok p).map fun p => { code := code, case := case, bits := bs, addr := p.lo }

/-- A unit of a home that has left ON: HOME_LOST where it is retired (R299), else UNIT_FAULTED (R67). -/
def State.unitGone (s : State) (c i : Nat) : Option MoveFault :=
  if s.fget (hdr_STATE c) i = 2 then none else some { code := if s.fget (hdr_STATE c) i = 5 then 0x4C else 0x20 }

/-- Check 6 for SLM (R225): the side some byte of which, in a record or in the codebook table, lies on a stack that the channel does not reach. -/
def State.slmFault (s : State) (d : Desc) (m : Move) (wh : Option Nat) : Option MoveFault :=
  let r := m.record
  let ch := mvChan d.w
  let far (src : Bool) (len : Nat) : Bool := m.records.any fun t => !s.slmReach d ch (if src then t.2.1 else t.2.2) len
  if rcSrcKind r = 2 ∧ far true (rcLen0 r) then some { code := 0x45, bits := [8], addr := (m.hull true (rcLen0 r)).1 }
  else if rcSrcKind r = 2 ∧ rcXform r = 1 ∧ ¬ s.slmReach d ch m.codebook.1 m.codebook.2 then
    some { code := 0x45, bits := [8], addr := m.codebook.1 }
  else if rcDstKind r = 2 ∧ far false (m.dstLen wh) then some { code := 0x45, bits := [8], addr := (m.hull false (m.dstLen wh)).1 }
  else none

/-- Check 7, whole logical blocks: the side that breaks them. -/
def State.blocksFault (s : State) (m : Move) (wh : Option Nat) : Option MoveFault :=
  let r := m.record
  if rcSrcKind r = 4 ∧ ¬ s.blocksOk m true (rcLen0 r) then some { code := 0x46, bits := [8], addr := (m.hull true (rcLen0 r)).1 }
  else if rcDstKind r = 4 ∧ ¬ s.blocksOk m false (m.dstLen wh) then
    some { code := 0x46, bits := [8], addr := (m.hull false (m.dstLen wh)).1 }
  else none

/-- The checks of Table 09-6 after check 1, in order; the channel, like the other units, has to be ON (R67). -/
def State.moveCheck (s : State) (d : Desc) (m : Move) : Option MoveFault :=
  let w := d.w
  let r := m.record
  let ch := mvChan w
  let port : Bool := rcSrcPort r || rcDstPort r
  let wh := s.moveWhisk d.h w
  let ps := m.spans wh
  let g := if port then some (s.checkGriddle d.c d.x d.h (mvGriddle w) (mvRegion w)) else none
  (if rcSrcKind r = 6 ∧ s.variant ≠ .x then some { code := 0x03, case := 13 } else none)
  |>.orElse (fun _ => match g with
    | some (.error (code, case)) => if code = 0x04 then none else some { code := code, case := case }
    | _ => none)
  |>.orElse (fun _ => if mvWhisk w ≠ 0 then s.unitGone 0x13 (4 * d.h + (mvWhisk w - 1)) else none)
  |>.orElse (fun _ => if s.holdsLadle d.c d.h ch then s.unitGone 0x12 (64 * d.h + ch) else none)
  |>.orElse (fun _ => if ¬ s.holdsLadle d.c d.h ch ∨
        (mvWhisk w ≠ 0 ∧ s.fget (hdr_OWNER_CONTEXT 0x13) (4 * d.h + (mvWhisk w - 1)) ≠ d.c) then some { code := 0x04, case := 20 }
      else match g with
        | some (.error (code, case)) => some { code := code, case := case }
        | _ => none)
  |>.orElse (fun _ => firstSpan ps (s.spanHeld d ch) 0x04 20 [])
  |>.orElse (fun _ => firstSpan ps (spanReach d ch) 0x45 0 [8])
  |>.orElse (fun _ => s.slmFault d m wh)
  |>.orElse (fun _ => firstSpan ps (s.spanRange d) 0x46 0 [8])
  |>.orElse (fun _ => s.blocksFault m wh)
  |>.orElse (fun _ => (s.collSide d m).map fun f =>
      { code := f.1, case := f.2, bits := if f.1 = 0x46 then [8] else [], addr := (m.hull true (rcLen0 r)).1 })
  |>.orElse (fun _ => firstSpan ps (s.spanSlm d) 0x0B 0 [8])
  |>.orElse (fun _ => (ps.findSome? s.spanMedia).map fun f => { code := f.1, case := f.2 })
  |>.orElse (fun _ => if whiskMoveOk m wh then none else some { code := 0x01 })
  |>.orElse (fun _ => match g with
    | some (.ok i) => (portCheck m (s.region i (mvRegion w)) (s.fget grid_PART_MODE i) wh).map fun f => { code := f.1, case := f.2 }
    | _ => none)
  |>.orElse (fun _ => firstSpan ps s.fillCovers 0x01 0 [])
  |>.orElse (fun _ => firstSpan ps (s.consumerOk d.h) 0x49 0 [])
  |>.orElse (fun _ => firstSpan ps (fun p => !s.spanLocked p) 0x54 0 [])
  |>.orElse (fun _ => (ps.findSome? (s.spanDomain d.c)).map fun c => { code := c })
  |>.orElse (fun _ => firstSpan ps (fun p => !s.spanFrozen p) 0x24 0 [])
  |>.orElse (fun _ => firstSpan ps (fun p => !s.linkLost d p) 0x4D 0 [])

/-! ### Issue -/

/-- SB macro-groups that a move's spans meet, by direction (R237). -/
def sbGroups (ps : List Span) (write : Bool) : List Nat :=
  (ps.filter fun p => p.kind == 0 && p.write == write).flatMap fun p => groupsOfHull p.lo p.hi

/-- Loop iteration indexes as a move takes them: 0 while a level is not active (R230). -/
def TaskRegs.moveIters (r : TaskRegs) : List Nat := (List.range 4).map fun n => if r.loopActive.getD n false then r.iters.getD n 0 else 0

/-- Channel contents. -/
def State.chan (s : State) (ch : Nat) : Channel := sget s.units.chans ch Channel.empty
def State.setChan (s : State) (ch : Nat) (q : Channel) : State :=
  { s with units := { s.units with chans := sput s.units.chans ch q } }

/-- Moves issued and not completed, on any channel. -/
def State.moves (s : State) : List Move := s.units.chans.flatMap fun p => p.2.queue ++ p.2.run.toList

/-- A window page has an unfinished fill (R264). -/
def State.fillPending (s : State) (t : Nat) : Bool :=
  s.moves.any fun m => m.job.isNone && rcDstKind m.record == 1 && !m.filled.contains t &&
    (let wh := s.moveWhisk m.hob m.word
     let h := m.hull false (m.dstLen wh)
     (pagesOfRange h.1 (h.2 + 1 - h.1)).contains t)

/-- A fill at its issue: FILLED_ONCE with its Hob, READY cleared (R262). -/
def State.markFill (s : State) (h : Nat) (ts : List Nat) : State :=
  ts.foldl (fun t p =>
    let k := t.mark p
    t.setMark p { k with fillHobs := if k.fillHobs.contains h then k.fillHobs else h :: k.fillHobs, ready := false }) s

/-- The batch whose request page's first 64 bytes a write covers (R270). -/
def State.batchOf (s : State) (c : Nat) (ps : List Span) : Bool :=
  match sget? s.tiers.batches c with
  | some b => ps.any fun p => p.kind == 1 && p.write && p.lo ≤ t1Addr b.reqPage && t1Addr b.reqPage + 63 ≤ p.hi
  | none => false

/-- A domain's writer position is taken by the first context that writes it (R385). -/
def State.takeWriter (s : State) (c : Nat) (ps : List Span) : State :=
  let ks := (ps.filter (·.write)).flatMap fun p => (s.domainsOfSpan p).map Prod.fst
  let take (k : Nat × Domain) : Nat × Domain :=
    if ks.contains k.1 ∧ k.2.writer.isNone then (k.1, { k.2 with writer := some c }) else k
  { s with ftl := { s.ftl with domains := s.ftl.domains.map take } }

/-- The shadow format that a move will load enters the issue-order state of its region (R174, R179). -/
def State.issueShadow (s : State) (d : Desc) (m : Move) (wh : Option Nat) : State :=
  if m.toShadow then
    match s.physGriddle d.h (mvGriddle d.w) with
    | some i =>
      let r := s.region i (mvRegion d.w)
      let f := match wh with
        | some cfg => whOutFmt cfg
        | none => rcFmt m.record
      s.setRegion i (mvRegion d.w) { r with issShadow := r.issShadow ++ [f] }
    | none => s
  else s

/-- LADLE_MOVE (R228 to R237): the move record is fetched and the move is checked in the order of Table 09-6; it waits
at issue for its SB ports, which the channel's WAIT_CAUSE shows, for earlier fills of its window pages, for the channel's inputs to be open (R66)
and for room in its queue; then it is queued. -/
def execLadleMove (c h : Nat) (s : State) : Res :=
  s.onDesc c h 0x18 fun d =>
    let w := d.w
    let i := 64 * h + mvChan w
    match s.tableSource d (mvSel w) (mvRecOff w) 128 with
    | none => s.descFault d 0x01 0 0x12 i
    | some a =>
      let r := s.sbRead h a 128
      let m : Move :=
        { hob := h, index := d.i, ctx := c, ser := d.t.ser, word := w, record := r, iters := (d.t.regs h).moveIters, base := (d.t.regs h).base,
          mrs := (d.t.regs h).mrs, out := [], due := d.due, job := none, sent := 0, rx := [], filled := [] }
      if ¬ moveFieldsOk w r then s.descFault d 0x01 0 0x12 i
      else match s.moveCheck d m with
        | some f =>
          let s1 := if f.bits.isEmpty then s else s.err 0x12 i f.bits (f.addr % 2 ^ 32) c
          let s2 := if f.code = 0x47 then s1.err 0x13 (4 * h + (mvWhisk w - 1)) [9] 0 c else s1
          s2.descFault d f.code f.case 0x12 i f.addr
        | none =>
          let wh := s.moveWhisk h w
          let ps := m.spans wh
          let fills := (ps.filter (·.write)).flatMap s.windowsOf
          let q := s.chan i
          if s.portBound h false (sbGroups ps false) ∨ s.portBound h true (sbGroups ps true) then (s.waitPorts d).fset ladle_WAIT_CAUSE i 4
          else if fills.any s.fillPending ∨ s.fget (hdr_DRAIN 0x12) i = 1 ∨ 8 ≤ q.queue.length then s.fset ladle_WAIT_CAUSE i 0
          else
            let s1 := ((s.fset ladle_WAIT_CAUSE i 0).bind d false (sbGroups ps false)).bind d true (sbGroups ps true)
            let s2 := ((s1.markFill h fills).takeWriter c ps).issueShadow d m wh
            let s3 := if rcSrcKind r = 5 then s2.noteColl c (m.baseOf true % 65536) else s2
            (s3.setChan i { q with queue := q.queue ++ [m] }).issue d (rcDstKind r) (s.batchOf c ps)

/-! ### Bytes of a move -/

/-- The epoch at which a move's collection is read. -/
def State.moveEpoch (s : State) (m : Move) (d : List Byte) : Nat :=
  match (s.ctx? m.ctx).bind Ctx.task with
  | some t => t.epochOf (clDomain d)
  | none => 0

/-- The collection descriptor of a move. -/
def State.moveColl (s : State) (m : Move) : Option (List Byte) :=
  (s.ctx? m.ctx).bind fun x => (sget? s.near.collections (65536 * x.req.fn + m.baseOf true % 65536)).map fun k => k.bytes

/-- The pieces of a T3 move: (address with its sled in bits [62:48], bytes), record by record (R546). -/
def Move.pieces (m : Move) : List (Nat × Nat) :=
  m.records.flatMap fun t => t3Pieces (rcLen0 m.record / 4096 + 2) t.2.1 (rcLen0 m.record) ++
    (if rcXform m.record = 1 then t3Pieces 3 (m.codebook.1 + 2 * t.1) 2 else [])

/-- Bytes of a T3 range from the answered pieces. -/
def Move.t3Bytes (m : Move) (a n : Nat) : List Byte :=
  let ps := m.pieces.zipIdx
  (List.range n).map fun k => match ps.find? fun p => p.1.1 ≤ a + k && a + k < p.1.1 + p.1.2 with
    | some p => ((sget? m.rx p.2).getD []).getD (a + k - p.1.1) 0
    | none => 0

/-- `n` source bytes of a move at an address of its source kind. -/
def State.srcBytes (s : State) (m : Move) (a n : Nat) : List Byte :=
  let k := rcSrcKind m.record
  if k = 0 then s.sbRead m.hob (a % 2 ^ 28) n
  else if k = 1 then s.tiers.hbm.readN a n
  else if k = 2 then
    let rs := match s.ctx? m.ctx with
      | some x => s.mrsOf x.req.fn m.mrs
      | none => []
    (List.range n).map fun j => match s.mrsAddr rs (a + j) with
      | some b => s.tiers.hbm.read b
      | none => 0
  else if k = 3 then s.host.mem.readN a n
  else if k = 4 then s.nvmRead (a / 2 ^ 48 % 256) (a % 2 ^ 48) n
  else if k = 5 then
    match s.moveColl m with
    | some d => (List.range n).map fun j =>
        s.streamByte d (s.moveEpoch m d) (m.baseOf true / 65536 % 256) (m.baseOf true / 2 ^ 24) (a + j)
    | none => List.replicate n 0
  else if k = 6 then m.t3Bytes a n
  else List.replicate n 0

/-- A record expanded through its codebook entry: INT4 values, two per byte (R234). -/
def expandRecord (elems entry : Nat) (shadow : Bool) (rec : List Byte) : List Byte :=
  let codes := (List.range elems).map fun e => bits (rec.getD (e / 4) 0).toNat (2 * (e % 4)) 2
  packElems 4 (codes.map fun c => bits entry (4 * c) 4) ++ (if shadow then [0] else [])

/-- The Whisk that a move names, its settings and tables. -/
def State.moveWhiskUnit (s : State) (m : Move) : Option (Nat × WhiskUnit × Nat) :=
  if m.job.isSome ∨ mvWhisk m.word = 0 then none
  else
    let i := 4 * m.hob + (mvWhisk m.word - 1)
    (s.whisk i).cfg.map fun cfg => (i, s.whisk i, cfg)

/-- The seed of R243 for a move through a Whisk. -/
def State.whiskSeed (s : State) (m : Move) (i : Nat) (u : WhiskUnit) : Nat :=
  let t := match (s.ctx? m.ctx).bind Ctx.task with
    | some t => t.regs m.hob
    | none => TaskRegs.init
  lfsrSeed t.seed (whiskK u.count (i % 4) m.hob t.yieldSeed)

/-- The destination records of a move, in order, and its conversions that saturated. -/
def State.moveOut (s : State) (m : Move) : List (List Byte) × Nat :=
  let r := m.record
  let raw : List (List Byte) :=
    if rcSrcPort r then (List.range (rcCount1 r)).map fun i => (m.out.drop (i * rcLen0 r)).take (rcLen0 r)
    else m.records.map fun t => s.srcBytes m t.2.1 (rcLen0 r)
  match s.moveWhiskUnit m with
  | some (i, u, cfg) =>
    let os := whiskRecords cfg u.smooth u.signs (s.whiskSeed m i u) raw
    let zp : List Byte := if m.toShadow ∧ (whOutFmt cfg = 0 ∨ whOutFmt cfg = 8) then [0] else []
    (os.map fun o => o.1 ++ zp, (os.map fun o => (o.2.filter (·.sat)).length).sum)
  | none =>
    if rcXform r = 1 then
      ((raw.zip m.records).map fun p =>
        expandRecord (rcElems r) (leNat (s.srcBytes m (wrap64 ((m.codebook.1 + 2 * p.2.1 : Nat) : Int)) 2)) m.toShadow p.1, 0)
    else (raw, 0)

/-- Adjacent runs of a list of (address, bytes) joined: an NVM write of consecutive records is one write (R236). -/
def joinRuns : List (Nat × List Byte) → List (Nat × List Byte)
  | [] => []
  | (a, bs) :: t => match joinRuns t with
    | (b, cs) :: u => if a + bs.length = b then (a, bs ++ cs) :: u else (a, bs) :: (b, cs) :: u
    | [] => [(a, bs)]

/-- Destination bytes written in the order the channel writes them (R230). -/
def State.dstWrite (s : State) (c h kind mrs : Nat) (ws : List (Nat × List Byte)) : State :=
  if kind = 0 then ws.foldl (fun t w => t.sbWrite h (w.1 % 2 ^ 28) w.2) s
  else if kind = 1 then ws.foldl (fun t w => (t.hbmWrite w.1 w.2).heatT1 w.1 w.2.length) s
  else if kind = 2 then
    let rs := match s.ctx? c with
      | some x => s.mrsOf x.req.fn mrs
      | none => []
    ws.foldl (fun t w => w.2.zipIdx.foldl (fun u b => match u.mrsAddr rs (w.1 + b.2) with
      | some a => u.hbmWrite a [b.1]
      | none => u) t) s
  else if kind = 3 then
    ws.foldl (fun t w => ({ t with host := { t.host with mem := t.host.mem.writeL w.1 w.2 } }).pcie c w.2.length) s
  else (joinRuns ws).foldl (fun t w =>
    let ns := w.1 / 2 ^ 48 % 256
    let t1 := t.copiesOnWrite (iusOf ns (w.1 % 2 ^ 48) w.2.length)
    t1.nvmWrite ns (w.1 % 2 ^ 48) w.2 true) s

/-- Staging takes the NVM writes of a move: slots are free, and no package they land on has 4 free superblocks or fewer (R436, R448). -/
def State.stagingRoom (s : State) (kind : Nat) (ws : List (Nat × Nat)) : Bool :=
  let ius := ws.flatMap fun w => iusOf (w.1 / 2 ^ 48 % 256) (w.1 % 2 ^ 48) w.2
  kind != 4 || (s.slotsFree ius.length && s.aboveFloor ius)

/-! ### Start -/

/-- Source window pages of a move that are not READY. -/
def State.notReady (s : State) (m : Move) : List Nat :=
  if rcSrcKind m.record = 1 then
    let h := m.hull true (rcLen0 m.record)
    (pagesOfRange h.1 (h.2 + 1 - h.1)).filter fun t => (s.mark t).window && !(s.mark t).ready
  else []

/-- The namespace IUs that a move reads from flash. -/
def State.moveIus (s : State) (m : Move) : List Nat :=
  if rcSrcKind m.record = 4 then
    (m.records.flatMap fun t => iusOf (t.2.1 / 2 ^ 48 % 256) (t.2.1 % 2 ^ 48) (rcLen0 m.record)).eraseDups
  else if rcSrcKind m.record = 5 then
    match s.moveColl m with
    | some d => (m.records.flatMap fun t =>
        streamIus d (m.baseOf true / 65536 % 256) (m.baseOf true / 2 ^ 24) t.2.1 (rcLen0 m.record)).eraseDups
    | none => []
  else []

/-- The issued move that fills a window page. -/
def State.fillOf (s : State) (t : Nat) : Option Move :=
  s.moves.find? fun m => m.job.isNone && rcDstKind m.record == 1 &&
    (let h := m.hull false (m.dstLen (s.moveWhisk m.hob m.word))
     (pagesOfRange h.1 (h.2 + 1 - h.1)).contains t)

/-- A move waits at a crossing point, or reads flash over a pantry link with a lane in retraining. -/
def State.onLink (s : State) (m : Move) : Bool :=
  s.ungranted m.ctx m.ser || (s.moveIus m).any fun iu => (s.link (s.packageOf (iuTier iu))).lanes.contains 3

/-- The cause to which the wait for a window page is charged now (R267): 1 FLASH_LATE, 2 LINK_LATE, 3 ECC_RETRY, 4 REMOTE_LATE. Whether a flash read is
in its read-retry ladder at one instant is not part of the state: that choice is free (log 48). -/
def State.lateCause (s : State) (t : Nat) : Nat × State :=
  match s.fillOf t with
  | none => (1, s)
  | some m =>
    let k := rcSrcKind m.record
    if ¬ s.units.chans.any (fun p => p.2.run == some m) then (1, s)
    else if k = 4 ∨ k = 5 then
      let (v, s1) := s.draw
      (if v % 2 = 1 then 3 else if s.onLink m then 2 else 1, s1)
    else (if k = 6 then 4 else 2, s)

/-- A late consumer: LATE_STALL in its task, and the last late consumer in the controller's page (R267). -/
def State.noteLate (s : State) (m : Move) : State :=
  match s.notReady m with
  | [] => s
  | t :: _ =>
    let k := t / 24576
    let (why, s1) := s.lateCause t
    ((s1.taskFlag m.ctx 5).fset hbm_LATE_CONTEXT k m.ctx).fset hbm_LATE_CAUSE k why

/-- Requests of a running T3 move sent while its channel has credits (R547). -/
def State.t3Send (s : State) (ch : Nat) : Nat → State
  | 0 => s
  | f + 1 => match (s.chan ch).run with
    | none => s
    | some m => match m.pieces[m.sent]? with
      | none => s
      | some p =>
        match s.t3Request ch m.sent (p.1 / 2 ^ 48 % 2 ^ 15) (p.1 % 2 ^ 48) p.2 with
        | none => s
        | some s1 => match (s1.chan ch).run with
          | none => s1
          | some m1 => (s1.setChan ch { s1.chan ch with run := some { m1 with sent := m1.sent + 1 } }).t3Send ch f

/-- Conversions that saturated in the Whisk of a move (R247). -/
def State.countSat (s : State) (m : Move) (n : Nat) : State :=
  match s.moveWhiskUnit m with
  | some (i, _, _) => s.count 0x13 i 2 n
  | none => s

/-- A port move's stream stands at its region's port (R232); the conversions of its Whisk that saturated are counted (R247). -/
def State.feedPort (s : State) (m : Move) : State :=
  match s.physGriddle m.hob (mvGriddle m.word) with
  | none => s
  | some i =>
    let r := s.region i (mvRegion m.word)
    let o := s.moveOut m
    let f := match s.moveWhisk m.hob m.word with
      | some cfg => whOutFmt cfg
      | none => rcFmt m.record
    let fd : Feed := { ch := mvChan m.word, index := m.index, port := mvPort m.word, fmt := f, elems := rcElems m.record,
                       recs := o.1 }
    (s.countSat m o.2).setRegion i (mvRegion m.word) { r with feeds := r.feeds ++ [fd] }

/-- Every source byte can be read now: window pages READY, T3 pieces answered, no failing or locked flash page, every
compressed page sound, its Colanders ON. -/
def State.sourceOk (s : State) (m : Move) : Bool :=
  (s.notReady m).isEmpty && (rcSrcKind m.record != 6 || (List.range m.pieces.length).all fun k => (sget? m.rx k).isSome) &&
  (s.moveIus m).all (fun iu => (rcSrcKind m.record == 5 || !s.iuFails iu)) &&
  (match s.moveColl m with
   | some d => rcSrcKind m.record != 5 || (s.moveIus m).all fun iu =>
       (s.collIu d (s.moveEpoch m d) iu).1 < 2 && s.fget (hdr_STATE 0x21) (s.packageOf (iuTier iu)) == 2 &&
       (pageValues d (m.baseOf true / 65536 % 256) ((s.collIu d (s.moveEpoch m d) iu).2.readN 0 16384)).isSome
   | none => rcSrcKind m.record != 5)

/-- The regions of memory that a move writes are noted (R160): SB, HBM and host memory; SLM as the HBM bytes behind
it. -/
def State.noteMove (s : State) (m : Move) : State :=
  let k := rcDstKind m.record
  let n := m.dstLen (s.moveWhisk m.hob m.word)
  if k = 0 then m.records.foldl (fun t r => t.noteWrite m.ctx 0 (m.hob * 2 ^ 28 + r.2.2 % 2 ^ 28) n) s
  else if k = 1 then m.records.foldl (fun t r => t.noteWrite m.ctx 1 r.2.2 n) s
  else if k = 3 then m.records.foldl (fun t r => t.noteWrite m.ctx 2 r.2.2 n) s
  else if k = 2 then
    let rs := match s.ctx? m.ctx with
      | some x => s.mrsOf x.req.fn m.mrs
      | none => []
    m.records.foldl (fun t r => (List.range n).foldl (fun u j => match u.mrsAddr rs (r.2.2 + j) with
      | some a => u.noteWrite m.ctx 1 a 1
      | none => u) t) s
  else s

/-- Descriptors of some classes that a context issued on a Hob before serial number `ser` and that have not completed. -/
def State.earlier (s : State) (c h ser : Nat) (cls : List Nat) : List Issued :=
  match (s.ctx? c).bind Ctx.task with
  | some t => t.inflight.filter fun e => e.hob == h && decide (e.ser < ser) && cls.contains e.cls
  | none => []

/-- A channel runs the output of an issued descriptor. -/
def State.runsJob (s : State) (c ser : Nat) : Bool :=
  s.units.chans.any fun p => match p.2.run with
    | some m => m.job.isSome && m.ctx == c && m.ser == ser
    | none => false

/-- A SKIM_MERGE runs only once every earlier one issued on its Hob has completed (R376); each Colander executes the FILTER and SKIM_SCAN descriptors
of a Hob in issue order (R357). -/
def State.jobTurn (s : State) (m : Move) : Bool :=
  if descClass m.word = 0x22 then (s.earlier m.ctx m.hob m.ser [0x22]).isEmpty
  else (s.earlier m.ctx m.hob m.ser [0x20, 0x21]).all fun e => s.runsJob m.ctx e.ser

/-- The Whisk that a move names serves another (R241): one move at a time, in the order in which they reach it. -/
def State.whiskHeld (s : State) (m : Move) : Bool :=
  m.job.isNone && mvWhisk m.word != 0 &&
    s.units.chans.any fun p => p.1 / 64 == m.hob && p.2.run.any fun k => k.names (mvWhisk m.word - 1)

/-- A side of a move lies in the Hob's SB while its DRAIN closes SB's inputs, or it names a Whisk whose inputs DRAIN closes (R66). -/
def State.moveDrained (s : State) (m : Move) : Bool :=
  m.job.isNone && (((rcSrcKind m.record == 0 || rcDstKind m.record == 0) && s.fget (hdr_DRAIN 0x15) m.hob == 1) ||
    (mvWhisk m.word != 0 && s.fget (hdr_DRAIN 0x13) (4 * m.hob + (mvWhisk m.word - 1)) == 1))

/-- LADLE_MOVE_START (R224, R237): the oldest queued entry of an idle channel starts, in LOCKSTEP not before its due
tick. A move to a port whose source pages are not READY waits; its consumer is late (R267). A T3 move sends its first
requests. A Whisk with ROUND = 1 shows the seed of the move. -/
def execLadleMoveStart (ch : Nat) (s : State) : Res :=
  let q := s.chan ch
  match q.queue, q.run with
  | m :: ms, none =>
    if s.fget (hdr_STATE 0x12) ch ≠ 2 ∨ s.fget ladle_HALTED ch = 1 ∨ s.whiskHeld m ∨ s.moveDrained m ∨
        (s.fget glob_DET_MODE_EFFECTIVE 0 = 1 ∧ s.tick < m.due) then .next s
    else if m.job.isSome then
      if s.jobTurn m then .next (s.setChan ch { queue := ms, run := some m }) else .next s
    else
      let s1 := s.noteLate m
      if rcDstPort m.record ∧ rcSrcKind m.record ≠ 6 ∧ ¬ s.sourceOk m then .next s1
      else
        let s2 := (s1.setChan ch { queue := ms, run := some m }).noteMove m
        let s3 := match s2.moveWhiskUnit m with
          | some (i, u, cfg) => if whRound cfg then
              (s2.fset64 whisk_SR_SEED_LO whisk_SR_SEED_HI i (s2.whiskSeed m i u)).fset whisk_SR_COUNT i u.count else s2
          | none => s2
        .next (if rcSrcKind m.record = 6 then s3.t3Send ch (m.pieces.length + 1)
          else if rcDstPort m.record then s3.feedPort m else s3)
  | _, _ => .next s

/-! ### Completion -/

/-- Counts of a completed move: the channel's bytes and moves, SB bytes, link bytes, flash reads and their heat (R26,
R246, R248, R257). -/
def State.countMove (s : State) (ch : Nat) (m : Move) (outBytes : Nat) : State :=
  let r := m.record
  let n := rcCount1 r * rcCount2 r * rcLen0 r
  let s1 := (s.countUnits 0x12 ch 0 outBytes 64).count 0x12 ch 1 1
  let s2 := if rcSrcKind r = 0 then s1.countUnits 0x15 m.hob 0 n 4096 else s1
  let s3 := if rcDstKind r = 0 then s2.countUnits 0x15 m.hob 1 outBytes 4096 else s2
  let s4 := if rcSrcKind r = 3 then s3.pcie m.ctx n else s3
  let s5 := if rcSrcKind r = 1 then m.records.foldl (fun t x => t.heatT1 x.2.1 (rcLen0 r)) s4 else s4
  if rcSrcKind r = 4 ∨ rcSrcKind r = 5 then
    let ius := s5.moveIus m
    let reached := match s5.ctx? m.ctx with
      | some x => reachStacks x m.hob (mvChan m.word)
      | none => []
    let hint := 4 * m.hob + mvChan m.word / 16 + 1
    let s6 := (s5.countReads ius reached).work m.ctx 16 (s5.flashBytes ius)
    ius.foldl (fun t iu => t.heatT2 (iuNs iu) (iuNum iu * 16384) (min n 16384) hint) s6
  else s5

/-- A move leaves its channel: its descriptor completes, its ports are released, its Whisk has served it. -/
def State.endMove (s : State) (ch : Nat) (m : Move) : State :=
  let s1 := s.setChan ch { s.chan ch with run := none }
  let s2 := match s1.moveWhiskUnit m with
    | some (i, u, cfg) =>
      let n := rcCount1 m.record * rcCount2 m.record
      ((s1.setWhisk i { u with count := u.count + 1 }).count 0x13 i 0 (n * whVlen cfg)).count 0x13 i 1 n
    | none => s1
  s2.descDone m.ctx m.ser

/-- The bytes of a fill that lie outside the pages it has finished. -/
def unfilled (done : List Nat) (w : Nat × List Byte) : List (Nat × List Byte) :=
  if done.isEmpty then [w]
  else (w.2.zipIdx.filter fun b => !done.contains (t1Of (w.1 + b.2))).map fun b => (w.1 + b.2, [b.1])

/-- A step of the batch manager begins: the request as it stands is read, and the slot table page is not READY
(R270, R271). -/
def State.beginBatch (s : State) (c : Nat) : State :=
  match sget? s.tiers.batches c with
  | some b =>
    let req := Mem.empty.copyFrom s.tiers.hbm (t1Addr b.reqPage) tierBytes
    ({ s with tiers := { s.tiers with batches := sput s.tiers.batches c { b with begun := some req } } }).setMark b.slotPage
      { s.mark b.slotPage with ready := false }
  | none => s

/-! ### Halts and SB errors (R239, R240) -/

/-- A channel halts (R240): HALTED, the failing address, and its context's fault. -/
def State.haltChan (s : State) (ch addr kind code : Nat) (bs : List Nat) (m : Move) (inj : Bool := false) : State :=
  let s1 := (s.fset ladle_HALTED ch 1).fset64 ladle_HALT_ADDR_LO ladle_HALT_ADDR_HI ch addr
  let s2 := (s1.fset ladle_HALT_KIND ch kind).err 0x12 ch bs (addr % 2 ^ 32) m.ctx inj
  s2.faultCtx m.ctx { code := code, index := m.index, hob := m.hob, ucls := 0x12, uinst := ch, info := addr }

/-- The fault code of an uncorrectable source error, by the kind of the source. -/
def sourceCode (kind : Nat) : Nat :=
  if kind = 1 ∨ kind = 2 then 0x4A else if kind = 3 then 0x0E else if kind = 4 ∨ kind = 5 then 0x0C
  else if kind = 6 then 0x0D else 0x22

/-- Remap words used in an SB macro-group. -/
def State.sbRemaps (s : State) (h g : Nat) : Nat := s.fget (sb_REMAP_USED g) h

/-- A line of SB enters a free remap word: the spare line reads as zero bytes; SUB_USED follows (R239, R248). -/
def State.sbRemap (s : State) (h a : Nat) : State :=
  let g := a / 2 ^ 22
  let k := s.sbRemaps h g
  let s1 := (s.fset (sb_REMAP_USED g) h (k + 1)).fset (hdr_SUB_USED 0x15) h (max (s.fget (hdr_SUB_USED 0x15) h) (k + 1))
  let s2 := ((s1.fset sb_LAST_REMAP_LINE h (a % 2 ^ 22 / 128)).fset sb_LAST_REMAP_GROUP h g).fset sb_LAST_REMAP_WORD h k
  let s3 := { s2 with
    cp := { s2.cp with sb := s2.cp.sb.fill (h * 2 ^ 28 + a / 128 * 128) 128 none }
    eflash := { s2.eflash with retirements := s2.eflash.retirements ++ [(0x15, h, 65536 * g + a % 2 ^ 22 / 128)] } }
  s3.spareSwitched 0x15 h 1 (a / 128 % 65536) k

/-- A macro-group is retired (R239): RETIRED_MAP, GROUPS_USABLE, GROUP_RETIRED. -/
def State.sbRetire (s : State) (h g : Nat) : State :=
  let s1 := if g < 32 then s.fsetBit sb_RETIRED_MAP0 h g else s.fsetBit sb_RETIRED_MAP1 h (g - 32)
  ((s1.fset sb_GROUPS_USABLE h (s1.fget sb_GROUPS_USABLE h - 1)).err 0x15 h [8] (g * 2 ^ 22)).recordRetirement 0x15 h g

/-- A corrected error of an SB line: it is remapped where it was corrected before within 24 hours, its macro-group is unowned and a word is
free; an owned group's line is remapped by the Scourer once the group is free. -/
def State.sbCorrect (s : State) (h a : Nat) : State :=
  let g := a / 2 ^ 22
  let line := h * 2 ^ 28 + a / 128 * 128
  let s1 := (s.err 0x15 h [2] (a % 2 ^ 28)).count 0x15 h 2 1
  let again : Bool := match sget? s.units.sbCorrected line with
    | some t => decide (s.tick < t + dayTicks)
    | none => false
  let s2 := { s1 with units := { s1.units with sbCorrected := sput s1.units.sbCorrected line s1.tick } }
  if ¬ again ∨ s.injectLeft 0x15 h 2 ≠ 0 then s2
  else if s.fget (sb_GROUP_OWNER g) h = 0xFF then (if s2.sbRemaps h g < 16 then s2.sbRemap h a else s2)
  else if s2.units.sbDue.contains line then s2
  else { s2 with units := { s2.units with sbDue := s2.units.sbDue ++ [line] } }

/-- Lines of a macro-group that wait for the Scourer are remapped, while words are free (R239). -/
def State.sbRemapDue (s : State) (h g : Nat) : State :=
  let mine (l : Nat) : Bool := l / 2 ^ 22 == h * 64 + g
  let s1 := (s.units.sbDue.filter mine).foldl (fun (t : State) (l : Nat) => if t.sbRemaps h g < 16 then t.sbRemap h (l % 2 ^ 28) else t) s
  { s1 with units := { s1.units with sbDue := s1.units.sbDue.filter fun l => !mine l } }

/-- An uncorrectable SB line: it is remapped at once, or SPARE_EXHAUSTED is set and its macro-group is retired, once unowned. An injected error
takes no spare (R72). -/
def State.sbFail (s : State) (h a : Nat) (bs : List Nat) : State :=
  let g := a / 2 ^ 22
  let s1 := s.err 0x15 h bs (a % 2 ^ 28)
  if s.injectLeft 0x15 h 3 ≠ 0 then s1 else if s1.sbRemaps h g < 16 then s1.sbRemap h a
  else
    let t := s1.err 0x15 h [5] (a % 2 ^ 28)
    if s.fget (sb_GROUP_OWNER g) h ≠ 0xFF then t.classify (groupKey h g) else t.sbRetire h g

/-- ERR_FIRST_INFO of an HBM controller page: tier page and pseudo-channel of a stack offset (R253, R273). -/
def hbmInfo (a : Nat) : Nat := a / tierBytes % 2 ^ 15 + 2 ^ 15 * (a / 64 % 64)

/-- `n` bytes of HBM from address `a` reach a retired pseudo-channel of their stack: byte offset `a` lies in pseudo-channel a[11:6] (R253, R256). -/
def State.hitsRetired (s : State) (a n : Nat) : Bool :=
  let k := a / 2 ^ 36
  (List.range (min 64 ((a + n + 63) / 64 - a / 64))).any fun j =>
    bit (s.fget hbm_PC_RETIRED_LO k + 2 ^ 32 * s.fget hbm_PC_RETIRED_HI k) ((a / 64 + j) % 64)

/-- A transfer of a running move may not go on: the media mode forbids what it still has to read or to have accepted (R89 to R91, R100), or it reads
a pseudo-channel that is retired, which is uncorrectable (R256). -/
def State.moveStopped (s : State) (ch : Nat) (m : Move) : Option State :=
  let r := m.record
  let bad := if rcSrcKind r = 1 then m.records.find? fun t => s.hitsRetired t.2.1 (rcLen0 r) else none
  match (m.spans (s.moveWhisk m.hob m.word)).findSome? s.spanMedia, bad with
  | some f, _ => some (s.faultCtx m.ctx { code := f.1, index := m.index, case := f.2, hob := m.hob, ucls := 0x12, uinst := ch })
  | none, some t =>
    let k := t.2.1 / 2 ^ 36
    some ((s.err 0x16 k [3] (hbmInfo (t.2.1 % 2 ^ 36)) m.ctx).haltChan ch t.2.1 1 0x4A [9, 10] m)
  | none, none => none

/-- An injection that is armed on a unit which a move passes corrupts its data (R72): two bits of a staging-buffer word, of an SB line or of an HBM
sector halt the channel; one bit is corrected; a Whisk faults as its own check gives. -/
def State.moveInjected (s : State) (ch : Nat) (m : Move) : State × Bool :=
  let r := m.record
  let a := m.addr true 0 0
  let k := a / 2 ^ 36 % 8
  let sb : Bool := rcSrcKind r == 0
  let hbm : Bool := rcSrcKind r == 1
  if (s.armed 0x12 ch [3, 9]).isSome then (s.haltChan ch a (rcSrcKind r) 0x22 [3, 9] m true, true)
  else if sb ∧ s.injectLeft 0x15 m.hob 3 ≠ 0 then ((s.sbFail m.hob (a % 2 ^ 28) [3]).haltChan ch a 0 0x22 [9] m true, true)
  else match (if hbm then s.armed 0x16 k [3, 8] else none) with
    | some b => ((s.err 0x16 k (if b = 3 then [3] else [3, 8]) (hbmInfo (a % 2 ^ 36)) m.ctx true).haltChan ch a 1 0x4A [9, 10] m true, true)
    | none =>
      let s1 := if s.injectLeft 0x12 ch 2 = 0 then s else s.err 0x12 ch [2] (a % 2 ^ 32) m.ctx
      let s2 := if sb ∧ s.injectLeft 0x15 m.hob 2 ≠ 0 then s1.sbCorrect m.hob (a % 2 ^ 28) else s1
      let s3 := if hbm ∧ s.injectLeft 0x16 k 2 ≠ 0 then s2.err 0x16 k [2] (hbmInfo (a % 2 ^ 36)) else s2
      if mvWhisk m.word = 0 then (s3, false) else s3.whiskInjected (4 * m.hob + (mvWhisk m.word - 1)) m.index

/-- A port destination: a shadow port takes a free shadow; another port has consumed the stream. A T3 stream stands at the port once every piece has
been answered. -/
def State.endPortMove (s : State) (ch : Nat) (m : Move) : State :=
  let r := m.record
  match s.physGriddle m.hob (mvGriddle m.word) with
  | none => s
  | some i =>
    let x := s.region i (mvRegion m.word)
    let mine (f : Feed) : Bool := f.port == mvPort m.word && f.ch == mvChan m.word && f.index == m.index
    if rcSrcKind r = 6 ∧ ¬ x.feeds.any mine ∧ m.out.isEmpty then
      if s.sourceOk m then (s.setChan ch { s.chan ch with run := some { m with out := [0] } }).feedPort m
      else s.t3Send ch (m.pieces.length + 1)
    else if mvPort m.word = 2 then
      match x.feeds.find? mine with
      | some f =>
        if x.shadow.isSome then s
        else
          let s1 := s.setRegion i (mvRegion m.word)
            { x with shadow := some { fmt := f.fmt, elems := f.elems, cols := f.recs }, feeds := x.feeds.eraseP mine }
          (s1.countMove ch m (f.recs.map List.length).sum).endMove ch m
      | none => s
    else if x.feeds.any mine then s
    else (s.countMove ch m (rcCount1 r * m.dstLen (s.moveWhisk m.hob m.word))).endMove ch m

/-- A memory destination takes the bytes in walking order (R230, R236), once its source can be read, a Drain has delivered a source port's stream, and
staging slots are free. -/
def State.endMemoryMove (s : State) (ch : Nat) (m : Move) : State :=
  let r := m.record
  if ¬ s.sourceOk m ∨ (rcSrcPort r ∧ m.out.isEmpty) then s.t3Send ch (m.pieces.length + 1)
  else
    let o := s.moveOut m
    let ws := (m.records.zip o.1).map fun p => (p.1.2.2, p.2)
    if ¬ s.stagingRoom (rcDstKind r) (ws.map fun w => (w.1, w.2.length)) then s
    else
      let s1 := s.dstWrite m.ctx m.hob (rcDstKind r) m.mrs (ws.flatMap (unfilled m.filled))
      let ps := m.spans (s.moveWhisk m.hob m.word)
      let s2 := ((ps.filter (·.write)).flatMap s1.windowsOf).foldl (fun t p => t.setMark p { t.mark p with ready := true }) s1
      let s3 := if s2.batchOf m.ctx ps then s2.beginBatch m.ctx else s2
      ((s3.countSat m o.2).countMove ch m (o.1.map List.length).sum).endMove ch m

/-- The running move of a channel may transfer: it is no job's, the channel is not halted, no stall is injected (R72), and no request of it waits at a
crossing point (R17). -/
def State.moveGoes (s : State) (ch : Nat) (m : Move) : Bool :=
  m.job.isNone && s.fget ladle_HALTED ch == 0 && s.injectLeft 0x12 ch 1 == 0 && !s.ungranted m.ctx m.ser &&
    (mvWhisk m.word == 0 || s.injectLeft 0x13 (4 * m.hob + (mvWhisk m.word - 1)) 1 == 0)

/-- LADLE_MOVE_COMPLETE (R236): the running move of a channel has delivered its last byte. -/
def execLadleMoveComplete (ch : Nat) (s : State) : Res :=
  match (s.chan ch).run with
  | none => .next s
  | some m =>
    let cs := if rcSrcKind m.record = 5 then ((s.moveIus m).map fun iu => s.packageOf (iuTier iu)).eraseDups else []
    if ¬ s.moveGoes ch m then .next s
    else match s.moveStopped ch m, s.colanderArmed cs false with
      | some t, _ => .next t
      | none, some (kind, code, q) =>
        let (n, t) := s.draw
        .next ((t.colanderHit kind q (n % 2 ^ 32) m.ctx).faultCtx m.ctx
          { code := code, index := m.index, hob := m.hob, ucls := 0x21, uinst := q, info := n % 2 ^ 32 })
      | none, none =>
        let (s1, halted) := (s.colanderFlips cs m.ctx).moveInjected ch m
        if halted then .next s1
        else if rcDstPort m.record then .next (s1.endPortMove ch m)
        else .next (s1.endMemoryMove ch m)

/-- WINDOW_PAGE_READY (R262): the running fill of a channel has written the last byte of a window page; the page is
READY, and consumers that wait for it resume. -/
def execWindowPageReady (ch page : Nat) (s : State) : Res :=
  match (s.chan ch).run with
  | none => .next s
  | some m =>
    let h := m.hull false (m.dstLen (s.moveWhisk m.hob m.word))
    if ¬ s.moveGoes ch m ∨ rcDstKind m.record ≠ 1 ∨ ¬ (s.mark page).window ∨ m.filled.contains page ∨
        ¬ (pagesOfRange h.1 (h.2 + 1 - h.1)).contains page ∨ ¬ s.sourceOk m ∨ (rcSrcPort m.record ∧ m.out.isEmpty) then .next s
    else match s.moveStopped ch m with
      | some t => .next t
      | none =>
        let ws := (m.records.zip (s.moveOut m).1).flatMap fun p => p.2.zipIdx.filterMap fun b =>
          if t1Of (p.1.2.2 + b.2) = page then some (p.1.2.2 + b.2, [b.1]) else none
        let s1 := (s.dstWrite m.ctx m.hob 1 m.mrs ws).setMark page { s.mark page with ready := true }
        .next (s1.setChan ch { s1.chan ch with run := some { m with filled := page :: m.filled } })

/-- LADLE_HALT (R240): an uncorrectable error at the source of a channel's running move, or in its staging buffer: the
second such error of the buffer within 24 hours is permanent (Table 17-1). -/
def execLadleHalt (ch addr : Nat) (staging : Bool) (s : State) : Res :=
  match (s.chan ch).run with
  | none => .next s
  | some m =>
    let k := rcSrcKind m.record
    if m.job.isSome ∨ s.fget ladle_HALTED ch = 1 then .next s
    else if staging then
      let s1 := s.haltChan ch addr k 0x22 [3, 9] m
      if s.injectLeft 0x12 ch 3 ≠ 0 then .next s1
      else
        let e := s1.countEvent 13 ch dayTicks
        .next (if 2 ≤ e.1 then e.2.condemnUnit 0x12 ch 3 else e.2)
    else if k = 7 ∨ k = 8 then .next s
    else if k = 0 then .next (s.haltChan ch addr k 0x22 [9] m)
    else .next (s.haltChan ch addr k (sourceCode k) [9, 10] m)

/-- SB_READ_ERROR (R239): `double` an uncorrectable error, else a corrected one. `user`: 0 a Ladle read, on channel `ch`; 1 a descriptor
or record fetch of context `ch`; 2 another read. -/
def execSbReadError (h a : Nat) (double : Bool) (user ch : Nat) (s : State) : Res :=
  if 2 ≤ h ∨ 0x0C000000 ≤ a then .next s
  else if ¬ double then .next (s.sbCorrect h a)
  else
    let s2 := s.sbFail h a ([3] ++ (if user = 1 then [9] else []))
    if user = 0 then
      match (s2.chan ch).run with
      | some m => .next (s2.haltChan ch a 0 0x22 [9] m)
      | none => .next s2
    else if user = 1 then
      match (s2.ctx? ch).bind Ctx.task with
      | some t => .next (s2.faultCtx ch { code := 0x23, index := (t.regs h).issueIndex, hob := h, ucls := 0x15, uinst := h, info := a })
      | none => .next s2
    else .next s2

end Sys2Proof.Machine
end

