-- ==== Sys2Proof/Machine/Tasks.lean ====
section
/-!
DEFINITION. Tasks: the task-register load, the control descriptors, the ends of a task, epoch commits
(06_compute_commands.md, R144 to R158; 14_vector_search.md, R386 to R388; 11_contexts_and_scheduling.md, R285, R288).
-/

namespace Sys2Proof.Machine

/-! ### The program image (Table 06-1) -/

def pgDescs (b : List Byte) : Nat := fld b 8 4
def pgData (b : List Byte) : Nat := fld b 12 4
def pgLiveSb (b : List Byte) : Nat := fld b 16 4
def pgLiveAcc (b : List Byte) : Nat := fld b 20 4
def pgSem (b : List Byte) : Nat := fld b 24 2
def pgArg (b : List Byte) : Nat := fld b 26 2
def pgPairing (b : List Byte) : Nat := fld b 28 1
def pgKey (b : List Byte) : Nat := fld b 29 1

/-- The image of a slot. -/
def State.imageOf (s : State) (slot : Nat) : List Byte :=
  match sget? s.cp.slots slot with
  | some p => p.bytes
  | none => []

/-! ### Waiting contexts (R284, R285) -/

/-- A context waits: WAITING, or its task saved. -/
def Ctx.waits (x : Ctx) : Bool := x.st == .waiting || x.st == .suspended

/-- Waiter `a` (number `ca`) stands ahead of `b` (R285). -/
def State.aheadOf (s : State) (ca : Nat) (a : Ctx) (cb : Nat) (b : Ctx) : Bool :=
  decide (b.req.prio < a.req.prio) || (a.req.prio == b.req.prio &&
    (if s.fget glob_DET_MODE_EFFECTIVE 0 = 1 then decide (ca < cb)
     else decide (a.waitSince < b.waitSince ∨ (a.waitSince = b.waitSince ∧ ca < cb))))

/-- Every unit of a home is free or held by an IDLE_LOADED context. -/
def State.homeFree (s : State) (c : Nat) (r : Request) : Bool :=
  s.griddlesFree r && s.cp.ctxs.all fun p =>
    p.1 == c || !p.2.holdsHome || p.2.st == .idleLoaded || !p.2.req.overlaps r

/-- No waiter ahead of context `c` overlaps its home. -/
def State.firstInLine (s : State) (c : Nat) (x : Ctx) : Bool :=
  s.cp.ctxs.all fun p => p.1 == c || !p.2.waits || !s.aheadOf p.1 p.2 c x || !p.2.req.overlaps x.req

/-- The IDLE_LOADED contexts that a home displaces become IDLE (R284). -/
def State.displace (s : State) (c : Nat) (r : Request) : State :=
  s.cp.ctxs.foldl (fun t p =>
    if p.1 ≠ c ∧ p.2.st = .idleLoaded ∧ p.2.req.overlaps r then (t.releaseHome p.2.req).setCtx p.1 { p.2 with st := .idle }
    else t) s

/-- Loads are granted: the device runs in an operational power state and no entry is under way (R87). -/
def State.powerReady (s : State) : Bool := s.globalOn && s.operational

/-- A waiting change to LOCKSTEP holds task starts and new pre-emption decisions back (R84). -/
def State.lockstepPending (s : State) : Bool :=
  s.fget glob_DET_MODE_EFFECTIVE 0 == 0 && s.fget glob_DET_MODE_REQUEST 0 == 1

/-- SWITCH_* of the context manager page (Table 11-11). -/
def State.noteSwitch (s : State) (c kind us : Nat) : State :=
  ((s.fset ctxm_SWITCH_CONTEXT 0 c).fset ctxm_SWITCH_KIND 0 kind).fset ctxm_SWITCH_US 0 (min us 65535)

/-- A load or a restore is counted on each Hob of a home (R574) and, for a task-register load, by the context manager
(R301). -/
def State.countLoad (s : State) (r : Request) : State := r.hobs.foldl (fun t h => t.count 0x10 h 1 1) s

/-! ### Semaphores -/

/-- Values of semaphores set. -/
def State.setSems (s : State) (vs : List (Nat × Nat)) : State :=
  { s with cp := { s.cp with sems := vs.foldl (fun m v => if v.2 = 0 then serase m v.1 else sput m v.1 v.2) s.cp.sems } }

def State.sem (s : State) (n : Nat) : Nat := sget s.cp.sems n 0

/-! ### Task start (R148, R149) -/

/-- SB byte offset of the program region of a Hob; the argument block stands in its last 4 KiB (DESIGN CHOICE, log 14). -/
def progBase (x : Ctx) (h : Nat) : Nat := x.groups.getD h 48 * 2 ^ 22
def argBase (x : Ctx) (h : Nat) : Nat := progBase x h + 0x3FF000

/-- The task registers that a task-register load sets (Table 06-4). -/
def loadRegs (x : Ctx) (e : ExecCmd) (tick h : Nat) : TaskRegs :=
  { TaskRegs.init with
    slot := e.slot, progBase := progBase x h, startTick := tick, argBase := argBase x h, timeLimit := e.timeLimit
    mrs := e.mrs, base := (List.range 8).map fun k => fld e.arg (8 * k) 8
    seed := Nat.xor x.req.seed (fld e.arg 72 8) }

/-- The task of a command whose argument block is in `e.arg`. -/
def newTask (x : Ctx) (e : ExecCmd) (tick : Nat) (epochs : List (Nat × Nat)) : Task :=
  { exec := e, regs0 := loadRegs x e tick 0, regs1 := loadRegs x e tick 1, wait0 := .none, wait1 := .none,
    ended0 := false, ended1 := false, inflight := [], signals := [], ser := 0, ranTicks := 0, loadTick := tick, start := tick,
    advances := [], liveSb := 0, liveAcc := 0, checkpoint := none, pinned := false, epochs := epochs, writes := [],
    colls := [], replayed := false, slipped := false, lastRes := 0 }

/-- The descriptor and data sections staged into the program region of each Hob, and the argument block copied
(R148). -/
def State.stageProgram (s : State) (x : Ctx) (e : ExecCmd) : State :=
  let img := (s.imageOf e.slot).drop 256
  x.req.hobs.foldl (fun t h =>
    let t1 := if x.staged = some e.slot then t else t.sbWrite h (progBase x h) img
    t1.sbWrite h (argBase x h) e.arg) s

/-- No task of a context is loaded or saved, and its queue is not frozen. -/
def Ctx.atRest (x : Ctx) : Bool := x.st == .idle || x.st == .idleLoaded || x.st == .waiting

/-- Crossing point 1 may grant commands that would start (R84, R87). -/
def State.grantsStarts (s : State) : Bool := s.powerReady && !s.lockstepPending

/-- The load of a new task of a context is presented at crossing point 1: nothing of it is loaded, its home is free, and no waiter ahead of it
overlaps it (R284, R285). -/
def State.mayStart (s : State) (c : Nat) (x : Ctx) : Bool :=
  x.atRest && s.grantsStarts && !s.shutting x.req.fn && s.homeFree c x.req && s.firstInLine c x

/-- The restore of a suspended task is presented at crossing point 1 (R84, R284, R285); none after a shutdown notification (R107). -/
def State.mayRestore (s : State) (c : Nat) (x : Ctx) : Bool :=
  x.st == .suspended && x.saved.isSome && s.powerReady && !s.shutting x.req.fn && s.homeFree c x.req && s.firstInLine c x

/-- A held command of a context is presented at crossing point 1: an Execute Program as its load is; another one needs no home (R144). -/
def State.mayGrant (s : State) (c : Nat) (x : Ctx) (i : Intake) : Bool :=
  if i.op.isSome then x.atRest && s.grantsStarts && !s.shutting x.req.fn else s.mayStart c x

/-- The contexts whose loads crossing point 1 has before it now. -/
def State.loadable (s : State) : List Nat :=
  (s.cp.ctxs.filter fun p => s.mayRestore p.1 p.2 || (match s.heldOf p.1 with
    | i :: _ => s.mayGrant p.1 p.2 i
    | [] => false)).map Prod.fst

/-- Crossing point 1 with the loads that it has before it grants that of context `c`, presented at a tick (R43 to R47); none where it does not
admit it. -/
def State.grantedLoad (s : State) (c : Nat) (x : Ctx) (presented : Nat) : Option State :=
  let s1 := s.withLoads s.loadable
  if s1.loadAdmitted c x presented then some (s1.grantLoad c x presented) else none

/-- The home is taken for a task, with its data macro-groups undefined (R284). -/
def State.takeHome (s : State) (c : Nat) (x : Ctx) : State :=
  (((s.displace c x.req).ownHome x.req c).spoilHome x.req)

/-- The checks of R148 on a task just loaded; none where it may issue. -/
def State.loadCheck (s : State) (x : Ctx) (e : ExecCmd) : Option Nat :=
  let b := s.imageOf e.slot
  if pgArg b ≠ e.argLen then some 0x01
  else if x.req.maxSb < pgLiveSb b ∨ x.req.maxAcc < pgLiveAcc b ∨ x.req.semCount.sum < pgSem b ∨
      (pgPairing b = 1) ≠ (x.req.pairing = 2) then some 0x0A
  else if s.homeLost x.req then some 0x4C
  else none

/-- The bytes of host memory that a data pointer names, segment by segment as its PRP entries or SGL descriptors give (R146). -/
def State.dptrBytes (s : State) (segs : List (Nat × Nat)) : List Byte := segs.flatMap fun p => s.host.mem.readN p.1 p.2

/-- The command with its argument block, as its data pointer names it. -/
def State.withArg (s : State) (e : ExecCmd) : ExecCmd := { e with arg := (s.dptrBytes e.dptr).take e.argLen }

/-- The task that a granted load starts; a late load slips in it (R157). -/
def State.taskOf (s : State) (x : Ctx) (e : ExecCmd) (late : Bool) : Task :=
  { newTask x e s.tick (s.ftl.domains.map fun d => (d.1, d.2.epochAt s.tick)) with slipped := late }

/-- The context as it runs a task. -/
def Ctx.run (x : Ctx) (t : Task) : Ctx :=
  { x with st := .running, task := some t, preempt := 0, abortWait := false, replays := 0, waitSince := 0 }

/-- An Execute Program has its home and its argument block; the task registers are still those that the last task left (R149). -/
def State.beginTask (s : State) (c : Nat) (x : Ctx) (i : Intake) (e : ExecCmd) (late : Bool) : State :=
  let s1 := (((s.takeHome c x).countLoad x.req).noteSwitch c 0 6).pcie c e.argLen
  let s2 := { s1 with
    host := { s1.host with intake := s1.host.intake.map fun (k : Intake) =>
      if k.cmd = i.cmd then { k with begun := true } else k } }
  s2.setCtx c (x.run { s.taskOf x e late with regs0 := x.lastRegs 0, regs1 := x.lastRegs 1 })

/-- An active image of the function is in the slot. -/
def State.imageActive (s : State) (slot fn : Nat) : Bool := (sget? s.cp.slots slot).any fun p => p.active && p.owner == fn

/-- A task whose checks passed: the program and the argument block are staged, the task registers loaded and the semaphores zeroed; issue begins at
descriptor 0 (R148). -/
def State.runTask (s : State) (c : Nat) (x : Ctx) (t : Task) : State :=
  ((s.stageProgram x t.exec).setCtx c { x.run t with staged := some t.exec.slot }).setSems (x.req.semsOf.map fun n => (n, 0))

/-- An Execute Program starts, once its load is granted: the checks of R148 run in order. A task that fails them leaves the registers as the last
task did (R149). -/
def State.startTask (s : State) (c : Nat) (x : Ctx) (i : Intake) (e0 : ExecCmd) (late : Bool) : State :=
  let e := s.withArg e0
  let s1 := s.beginTask c x i e late
  if s1.imageActive e.slot x.req.fn = false then s1.taskError c 0xD2
  else match s1.loadCheck x e with
    | some code =>
      let s2 := if code = 0x4C then s1.err 0x04 0 [9] (c + 65536 * code) c else s1
      s2.faultCtx c { code := code, index := 0xFFFF, hob := x.req.hobs.headD 0 }
    | none => s1.runTask c x (s.taskOf x e late)

/-! ### Program slots (R136 to R142) -/

/-- A context whose program region holds a slot's image must stage it anew. -/
def State.unstage (s : State) (slot : Nat) : State :=
  { s with cp := { s.cp with ctxs := s.cp.ctxs.map fun p =>
      (p.1, if p.2.staged = some slot then { p.2 with staged := none } else p.2) } }

def State.setSlot (s : State) (slot : Nat) (p : ProgSlot) : State := { s with cp := { s.cp with slots := sput s.cp.slots slot p } }
def State.emptySlot (s : State) (slot : Nat) : State := ({ s with cp := { s.cp with slots := serase s.cp.slots slot } }).unstage slot

/-- Every field of an image within its range (Table 06-1); BUILD[1] needs test mode (R139). -/
def State.imageFieldsOk (s : State) (b : List Byte) : Bool :=
  fld b 0 4 == 0x4750464D && fld b 4 2 == 1 && fld b 6 1 < 4 &&
  (if bit (fld b 6 1) 0 then decide (fld b 7 1 ≤ 5) else fld b 7 1 == 0xFF) &&
  1 ≤ pgDescs b && pgDescs b ≤ 65535 && pgData b % 64 == 0 && pgData b ≤ 2 ^ 20 && pgSem b ≤ 512 &&
  80 ≤ pgArg b && pgArg b ≤ 4096 && pgPairing b ≤ 1 && pgKey b ≤ 3 && zeros b 30 2 && zeros b 208 48 &&
  (!bit (fld b 6 1) 1 || s.fget glob_TEST_MODE 0 == 1)

/-- DIGEST matches (R139). -/
def digestOk (b : List Byte) : Bool :=
  decide (Config.sha384 (b.take 64 ++ b.drop 256) = leNat ((b.drop 64).take 48).reverse)

/-- SIGNATURE verifies under a key that is provisioned and not revoked (R139). -/
def State.signatureOk (s : State) (b : List Byte) : Bool :=
  match sget? s.boot.keys (pgKey b) with
  | some k => !bit (sget s.boot.keyRevoked (pgKey b) 0) k.1 && Config.ecdsaVerifies ((b.drop 64).take 48) ((b.drop 112).take 96) k.2
  | none => false

/-- Load Program on a slot (R140): the state, status type and status code. -/
def State.loadPiece (s : State) (fn slot off : Nat) (bs : List Byte) : State × Nat × Nat :=
  let p := sget? s.cp.slots slot
  let busy : Bool := match p with
    | some p => p.active || p.owner != fn
    | none => false
  if busy then (s, 1, 0xD3)
  else if bs = [] then (s, 0, 0x02)
  else
    let at0 := match p with
      | some p => if p.complete then none else some p.bytes.length
      | none => none
    if off ≠ 0 ∧ at0 ≠ some off then (s.emptySlot slot, 1, 0xD5)
    else
      let all := (if off = 0 then [] else match p with
        | some p => p.bytes
        | none => []) ++ bs
      let size := 256 + 16 * pgDescs all + pgData all
      if 16 ≤ all.length ∧ (2 ^ 21 < size ∨ size < all.length) then (s.emptySlot slot, 1, 0xD5)
      else
        let s1 := s.unstage slot
        if all.length < 16 ∨ all.length < size then
          (s1.setSlot slot { owner := fn, bytes := all, complete := false, active := false }, 0, 0)
        else if ¬ s.imageFieldsOk all ∨ ¬ digestOk all then (s1.emptySlot slot, 1, 0xD5)
        else if ¬ s.signatureOk all then (s1.emptySlot slot, 1, 0xD4)
        else (s1.setSlot slot { owner := fn, bytes := all, complete := true, active := false, gen := (sget s.boot.keys (pgKey all) (0, 0)).1 }, 0, 0)

/-- The key under which an image was accepted has been revoked (R525). -/
def State.slotRevoked (s : State) (p : ProgSlot) : Bool := p.complete && bit (sget s.boot.keyRevoked (pgKey p.bytes) 0) p.gen

/-- Images accepted under a revoked key leave their slots once no running task uses them (R525). -/
def State.sweepSlots (s : State) : State :=
  let used (k : Nat) : Bool := s.cp.ctxs.any fun x => match x.2.task with
    | some t => t.exec.slot == k
    | none => false
  ((s.cp.slots.filter fun p => s.slotRevoked p.2 && !used p.1).map Prod.fst).foldl (fun (t : State) (k : Nat) => t.emptySlot k) s

/-- Program Activation Management (R141). -/
def State.activate (s : State) (fn slot : Nat) (on : Bool) : State × Nat × Nat :=
  let p := (sget? s.cp.slots slot).filter fun p => p.owner == fn
  match p with
  | none => if on then (s, 1, 0xD5) else (s, 0, 0)
  | some p =>
    if on then (if p.complete ∧ ¬ s.slotRevoked p then (s.setSlot slot { p with active := true }, 0, 0) else (s, 1, 0xD5))
    else if ¬ p.active then (s, 0, 0)
    else if s.cp.ctxs.any fun k => match k.2.task with
        | some t => t.exec.slot == slot
        | none => false then (s, 1, 0xD3)
    else (s.setSlot slot { p with active := false }, 0, 0)

/-- Memory Range Set Management (R142): up to 32 sets of up to 16 ranges in whole 4 KiB units, each within an attached
SLM namespace. Set 0 is none (Table 06-2). A request outside these bounds is refused (log 15). -/
def State.defineRanges (s : State) (fn set : Nat) (rs : List (Nat × Nat × Nat)) : State × Nat × Nat :=
  let own := s.cp.mrs.filter fun p => p.1 / 65536 = fn && p.1 % 65536 ≠ set
  let ok (r : Nat × Nat × Nat) : Bool :=
    r.2.1 % 4096 == 0 && r.2.2 % 4096 == 0 && (match sget? s.host.namespaces r.1 with
      | some n => n.kind == .slm && n.attached.contains fn && r.2.1 + r.2.2 ≤ n.units * 2 ^ 21
      | none => false)
  if set = 0 ∨ 65536 ≤ set ∨ 16 < rs.length ∨ (rs ≠ [] ∧ 32 ≤ own.length) ∨ ¬ rs.all ok then (s, 0, 0x02)
  else if rs = [] then ({ s with cp := { s.cp with mrs := serase s.cp.mrs (65536 * fn + set) } }, 0, 0)
  else ({ s with cp := { s.cp with mrs := sput s.cp.mrs (65536 * fn + set) rs } }, 0, 0)

/-- The effect of a command of a compute queue other than Execute Program. -/
def State.runQueueOp (s : State) (fn : Nat) : QueueOp → State × Nat × Nat
  | .load slot off bs => s.loadPiece fn slot off bs
  | .activation slot on => s.activate fn slot on
  | .ranges set rs => s.defineRanges fn set rs
  | .invalid sct sc => (s, sct, sc)

/-- A queue freezes on a command that is no task: a status other than success freezes it (R159). -/
def State.freezeOn (s : State) (c : Nat) (x : Ctx) (cmd : CmdId) : State :=
  let lg : CtxLog := { CtxLog.empty with
    state := 1, sqid := cmd.sq, cid := cmd.cid, index := 0xFFFF, tick := s.tick, dtc := s.time.dtc
    held := (s.heldList c).filter fun h => h.1 ≠ cmd.cid
    freezes := x.log.freezes + 1, regs := x.logRegs x.lastRegs, sems := x.req.semsOf.map s.sem }
  let s1 := if x.st.loaded then s.releaseHome x.req else s
  let s2 := s1.setCtx c { x with st := .frozen, severity := 1, log := lg, logRead := false, preempt := 0 }
  (s2.recEv 0x04 0 0x0400 (le 0 2 ++ le 0xFFFF 2 ++ [0]) c).aer x.req.fn 7 1 c

/-- A compute command that runs no descriptors takes effect and completes (R144). Where another command is held behind
it the context goes on waiting; else it is idle. -/
def State.runHeld (s : State) (c : Nat) (x : Ctx) (i : Intake) (op : QueueOp) : State :=
  let r := s.runQueueOp i.cmd.fn op
  let s1 := r.1.complete i.cmd r.2.1 r.2.2
  let x1 := (s1.ctx? c).getD x
  if r.2.1 = 0 ∧ r.2.2 = 0 then
    (if x1.st = .waiting ∧ (s1.heldOf c).isEmpty then s1.setCtx c { x1 with st := .idle } else s1)
  else s1.freezeOn c x1 i.cmd

/-- TASK_START (R119, R144, R148): crossing point 1 grants context `c` its load for the oldest command that its intake holds, which starts. -/
def execTaskStart (c : Nat) (s : State) : Res :=
  match s.ctx? c with
  | none => .next s
  | some x => match s.heldOf c with
    | [] => .next s
    | i :: _ =>
      if ¬ s.mayGrant c x i then .next s
      else match s.grantedLoad c x i.tick with
        | none => .next s
        | some t =>
          let s1 := t.count 0x04 0 0 1
          let x1 := (s1.ctx? c).getD x
          match i.op, i.exec with
          | some op, _ => .next (s1.runHeld c x1 i op)
          | none, some e => .next (s1.startTask c x1 i e (s.lateLoad c x i.tick))
          | none, none => .next s

/-! ### Control descriptors (R154) -/

/-- BARRIER: the sequencer stops until the watched work completes. -/
def execBarrier (c h : Nat) (s : State) : Res :=
  s.onDesc c h 0x01 fun d =>
    if bits d.w 20 84 ≠ 0 then s.descFault d 0x01
    else s.pass d fun t => t.setWait h (.barrier (bits d.w 12 8))

/-- Context `c` has a task that runs. -/
def State.runningTask (s : State) (c : Nat) : Option (Ctx × Task) :=
  match s.ctx? c with
  | some x => if x.issuing then x.task.map fun t => (x, t) else none
  | none => none

/-- BARRIER_RELEASE: the work that the barrier of sequencer `h` watches has completed. -/
def execBarrierRelease (c h : Nat) (s : State) : Res :=
  match s.runningTask c with
  | some (x, t) => (match t.wait h with
    | .barrier m => .next (if t.watchDone h m t.ser then s.setCtx c { x with task := some (t.setWait h .none) } else s)
    | _ => .next s)
  | none => .next s

/-- A wait passes: with ACQUIRE the value is subtracted and HELD_SEM rises. -/
def Task.waitPassed (t : Task) (h : Nat) (acq : Bool) : Task :=
  let r := t.regs h
  (t.setRegs h { r with heldSem := if acq then r.heldSem + 1 else r.heldSem }).setWait h .none

/-- SEM_WAIT: the own Hob's semaphore, which the context holds, at least VALUE; else the sequencer waits. -/
def execSemWait (c h : Nat) (s : State) : Res :=
  s.onDesc c h 0x02 fun d =>
    let n := bits d.w 12 10
    let v := bits d.w 22 16
    let acq := bit d.w 38
    if bits d.w 39 65 ≠ 0 ∨ n / 512 ≠ h then s.descFault d 0x01
    else if ¬ d.x.req.holdsSem n then s.descFault d 0x04 20
    else if v = 0 ∨ v ≤ s.sem n then
      let s1 := if acq then s.setSems [(n, s.sem n - v)] else s
      s1.pass d fun t => t.waitPassed h acq
    else s.pass d fun t => t.setWait h (.sem n v acq)

/-- SEM_WAIT_SATISFIED: the semaphore holds VALUE now. -/
def execSemWaitSatisfied (c h : Nat) (s : State) : Res :=
  match s.runningTask c with
  | some (x, t) => (match t.wait h with
    | .sem n v acq =>
      if v ≤ s.sem n then
        let s1 := if acq then s.setSems [(n, s.sem n - v)] else s
        .next (s1.setCtx c { x with task := some (t.waitPassed h acq) })
      else .next s
    | _ => .next s)
  | none => .next s

/-- A signal takes effect: VALUE is added, and RELEASE lowers HELD_SEM; a sum above 65,535 faults and changes nothing, and a
signal to the other Hob is lost to a faulted link (R470). -/
def State.signalEffect (s : State) (c : Nat) (g : Signal) : State :=
  match s.runningTask c with
  | none => s
  | some (x, t) =>
    let t1 := { t with signals := t.signals.erase g }
    let r := t1.regs g.hob
    if s.rel.hobFault ∧ g.sem / 512 ≠ g.hob then s.faultCtx c { code := 0x4D, index := g.index, hob := g.hob, ucls := 0x10, uinst := g.hob }
    else if 65535 < s.sem g.sem + g.value then s.faultCtx c { code := 0x08, index := g.index, hob := g.hob }
    else if g.release ∧ r.heldSem = 0 then s.faultCtx c { code := 0x01, index := g.index, hob := g.hob }
    else
      let t2 := if g.release then t1.setRegs g.hob { r with heldSem := r.heldSem - 1 } else t1
      ((s.setSems [(g.sem, s.sem g.sem + g.value)]).setCtx c { x with task := some t2 }).count 0x10 (g.sem / 512) 2 1

/-- SEM_SIGNAL: passed to the semaphore block; with its watched work complete it takes effect at once. -/
def execSemSignal (c h : Nat) (s : State) : Res :=
  s.onDesc c h 0x03 fun d =>
    let n := bits d.w 12 10
    let g : Signal := { hob := h, index := d.i, sem := n, value := bits d.w 22 16, release := bit d.w 38,
                        mask := bits d.w 40 8, ser := d.t.ser }
    if bit d.w 39 ∨ bits d.w 48 56 ≠ 0 ∨ (g.release ∧ (d.t.regs h).heldSem = 0) then s.descFault d 0x01
    else if ¬ d.x.req.holdsSem n then s.descFault d 0x04 20
    else
      let s1 := s.pass d fun t => { t with signals := t.signals ++ [g] }
      if d.t.watchDone h g.mask g.ser then s1.signalEffect c g else s1

/-- SEM_SIGNAL_EFFECT: the oldest deferred signal of descriptor `i` of sequencer `h` whose watched work has completed. -/
def execSemSignalEffect (c h i : Nat) (s : State) : Res :=
  match s.runningTask c with
  | none => .next s
  | some (_, t) =>
    match t.signals.find? fun g => g.hob == h && g.index == i && t.watchDone h g.mask g.ser with
    | some g => .next (s.signalEffect c g)
    | none => .next s

/-- YIELD: live sizes within the program's declared maxima; the sequencer drains. -/
def execYield (c h : Nat) (s : State) : Res :=
  s.onDesc c h 0x04 fun d =>
    let b := s.imageOf d.t.exec.slot
    if bits d.w 44 60 ≠ 0 then s.descFault d 0x01
    else if pgLiveSb b < bits d.w 12 16 ∨ pgLiveAcc b < bits d.w 28 16 then s.descFault d 0x0A
    else s.pass d fun t => t.setWait h (.yielding (bits d.w 12 16) (bits d.w 28 16))

/-- REPEAT, as the pseudocode of R154 gives; I_n counts the jumps since the level became active (R230). -/
def execRepeat (c h : Nat) (s : State) : Res :=
  s.onDesc c h 0x05 fun d =>
    let r := d.t.regs h
    let n := bits d.w 48 2
    let target := bits d.w 12 16
    if bits d.w 50 6 ≠ 0 ∨ bits d.w 80 24 ≠ 0 ∨ d.i ≤ target ∨
        (r.loopActive.getD n false ∧ r.loopFrom.getD n 0 ≠ d.i) then s.descFault d 0x01
    else
      let active := r.loopActive.getD n false
      let left := if active then r.loops.getD n 0 else bits d.w 28 20
      let it := if active then r.iters.getD n 0 else 0
      if 0 < left then
        let s1 := s.pass d
        let r1 := { r with
          loops := setAt r.loops n (left - 1), loopActive := setAt r.loopActive n true, loopFrom := setAt r.loopFrom n d.i
          iters := setAt r.iters n (it + 1), paceOffset := (r.paceOffset + bits d.w 56 24) % 2 ^ 40, issueIndex := target }
        s1.setTask c (d.t.setRegs h r1)
      else s.pass d fun t =>
        let q := t.regs h
        t.setRegs h { q with
          loops := setAt r.loops n 0, loopActive := setAt r.loopActive n false, iters := setAt r.iters n 0 }

/-! ### Cheap points (R154, R288, R291) -/

/-- The open tile shares of a context's regions and their accumulation settings. -/
def State.tilesOf (s : State) (c : Nat) : List (Nat × List TileShare) × List (Nat × Option Acc) :=
  let ks := s.units.regions.filter fun p => s.regionOwner (p.1 / 4) (p.1 % 4) == c
  (ks.map fun p => (p.1, p.2.tiles), ks.map fun p => (p.1, p.2.acc))

/-- The physical region numbers of saved tile shares named by Hob, logical Griddle and region, so that a restore finds
the unit that serves the number then (R290): 64 × Hob + 4 × logical Griddle + region. -/
def State.logicalRegion (s : State) (k : Nat) : Nat :=
  64 * (k / 68) + 4 * s.fget (hdr_LOGICAL_INDEX 0x11) (k / 4) + k % 4

/-- Bytes of the live range of a Hob: the first `n` bytes of the data macro-groups in ascending order, as (group, bytes)
(Table 11-6). -/
def liveRanges (r : Request) (h n : Nat) : List (Nat × Nat) :=
  ((List.range 48).filter fun g => r.sbGroup h g).zipIdx.filterMap fun g =>
    let left := n - g.2 * 2 ^ 22
    if left = 0 then none else some (g.1, min left (2 ^ 22))

/-- The live SB bytes of each Hob, at their own offsets. -/
def State.liveSb (s : State) (r : Request) (n : Nat) : List Mem :=
  (List.range 2).map fun h =>
    if r.uses h then (liveRanges r h n).foldl (fun m g => m.copyFrom s.cp.sb (h * 2 ^ 28 + g.1 * 2 ^ 22) g.2) Mem.empty
    else Mem.empty

/-- Settings that a YIELD invalidates: weights (R175), drain settings and tables (R215), row-sum registers (R206), Whisk
attachment, settings and tables (R241), filter and table slots (R348, R351); hand-over and move counts start afresh
(R212, R243). -/
def State.yieldUnits (s : State) (c : Nat) : State :=
  let s1 := s.clearSlots c
  { s1 with units := { s1.units with
    regions := s1.units.regions.map fun p =>
      if s1.regionOwner (p.1 / 4) (p.1 % 4) = c then
        (p.1, { p.2 with shadow := none, active := [], zeroed := false, issShadow := [], issActive := none, cfg := none,
                          act := [none, none], chan := [none, none], rowSums := [], handCount := 0 })
      else p
    whisks := s1.units.whisks.filter fun p => s1.fget (hdr_OWNER_CONTEXT 0x13) p.1 ≠ c } }

/-- The save of a task (R288, R290): registers with ISSUE_INDEX = LAST_YIELD + 1, live SB, semaphores, tile shares. -/
def State.saveOf (s : State) (c : Nat) (x : Ctx) (t : Task) (forced : Bool) : Saved :=
  let at1 (r : TaskRegs) : TaskRegs := { r with issueIndex := r.lastYield + 1 }
  let ts := s.tilesOf c
  { regs := [at1 t.regs0, at1 t.regs1], sb := s.liveSb x.req (4096 * t.liveSb), sems := x.req.semsOf.map fun n => (n, s.sem n)
    tiles := ts.1.map fun p => (s.logicalRegion p.1, p.2), accs := ts.2.map fun p => (s.logicalRegion p.1, p.2)
    forced := forced, ended := [t.ended0, t.ended1], advances := t.advances }

/-- Snilo Link credits that a context's channels hold. -/
def State.creditsHeld (s : State) (c : Nat) : Bool :=
  s.snilo.reqs.any fun r => s.fget (hdr_OWNER_CONTEXT 0x12) r.ch == c

/-- Sequencer `h` stands drained at a YIELD, or takes no part: it is not used or has ended. -/
def Task.drained (t : Task) (r : Request) (h : Nat) : Bool :=
  !r.uses h || t.ended h || (match t.wait h with
    | .yielding .. => t.watchDone h 0xFF t.ser && t.signals.all fun g => g.hob != h
    | _ => false)

/-- The task as a YIELD leaves it: LAST_YIELD of each sequencer, no wait. -/
def Task.passYield (t : Task) (r : Request) : Task :=
  r.hobs.foldl (fun (u : Task) h => match u.wait h with
    | .yielding sb acc =>
      let q := u.regs h
      { (u.setRegs h { q with lastYield := q.issueIndex - 1 }).setWait h .none with liveSb := sb, liveAcc := acc }
    | _ => u) { t with pinned := false }

/-- The replay state and, for a forceable context, the tiles and semaphores of a checkpoint (R288). -/
def State.checkpointOf (s : State) (c : Nat) (x : Ctx) (t : Task) : Saved :=
  let k := s.saveOf c x t true
  if x.req.forceable then { k with sb := [] } else { k with sb := [], sems := [], tiles := [], accs := [] }

/-- A caught Abort stops its task at the cheap point: the task and the Abort complete, and the queue does not freeze
(R122). -/
def State.stopCaught (s : State) (c : Nat) (x : Ctx) (t : Task) : State :=
  let s1 := (((s.clearSlots c).dropWork c).postTask t 0 0x07 0 0).releaseHome x.req
  let as := (s1.ctrl x.req.fn).aborts.filter fun a => a.2.1 == t.exec.cmd
  let s2 := as.foldl (fun u a =>
    let k := u.ctrl a.1.fn
    ((u.setCtrl a.1.fn { k with aborts := k.aborts.filter (· ≠ a) }).fbump front_ABORT_CAUGHT 0 1).complete a.1 0 0 0) s1
  let x1 : Ctx := { x with
    st := if (s2.heldOf c).isEmpty then .idle else .waiting, task := none, saved := none, preempt := 0, abortWait := false
    waitSince := s.tick, last := t.leave }
  (s2.setCtx c x1).prune

/-- The save area of a context cannot be written or read: an injected error, or a page of it on a stack with a retired pseudo-channel, over which every
tier page spreads (R256, R296). -/
def State.saveLost (s : State) (x : Ctx) : Bool :=
  s.injectLeft 0x04 0 8 != 0 || x.pages.any fun p => p.1 == 0 && s.stackRetired (p.2 / 24576)

/-- YIELD_DRAINED (R154, R288): both sequencers have drained. Open holds fault; LAST_YIELD is recorded; settings are
invalidated; a caught Abort stops the task; a pending pre-emption stops and saves it; else issue goes on. An error of
the save area meets the checkpoint (R296, R301). -/
def execYieldDrained (c : Nat) (s : State) : Res :=
  match s.runningTask c with
  | none => .next s
  | some (x, t) =>
    let yielding (h : Nat) : Bool := x.req.uses h && (match t.wait h with
      | .yielding .. => true
      | _ => false)
    if ¬ (List.range 2).all (t.drained x.req) ∨ ¬ (List.range 2).any yielding then .next s
    else
      let h0 := if yielding 0 then 0 else 1
      let at0 := (t.regs h0).issueIndex - 1
      if (t.regs 0).heldSem + (t.regs 1).heldSem ≠ 0 ∨ s.creditsHeld c then
        .next (s.faultCtx c { code := 0x09, index := at0, hob := if (t.regs h0).heldSem = 0 ∧ yielding 1 then 1 else h0 })
      else
        let t1 := t.passYield x.req
        let s1 := s.yieldUnits c
        let t2 := { t1 with checkpoint := some (s1.checkpointOf c x t1) }
        let s2 := s1.setCtx c { x with task := some t2 }
        if x.abortWait then .next (s2.stopCaught c x t2)
        else if x.preempt ≠ 0 then
          let slip : Bool := s.fget glob_DET_MODE_EFFECTIVE 0 == 1
          let t3 := { t2 with ranTicks := t2.ranTicks + (s.tick - t2.loadTick), slipped := t2.slipped || slip }
          .next (s2.setCtx c { x with task := some t3, saved := some (s2.saveOf c x t3 false), preemptTick := s.tick })
        else if x.req.forceable ∧ s2.saveLost x then
          .next ((s2.err 0x04 0 [8] (c + 65536 * 0x5F) c).faultCtx c { code := 0x5F, index := at0, hob := h0 })
        else .next s2

/-! ### The end of a task (R155, R158, R388) -/

/-- An IU's published content set aside for the tasks that read epoch `e` of its domain; it goes where none does
(R386). -/
def State.retain (s : State) (iu dom e c : Nat) : State :=
  let read : Bool := (s.readersOf dom c).any fun k => decide (k ≤ e)
  match s.ftl.staging.find? fun x => x.iu == iu && !s.isVersion x with
  | some x =>
    if read then
      let v : Version := { iu := iu, dom := dom, upto := some e, seq := x.seq, loc := none, st := 1, repair := false }
      { s with ftl := { s.ftl with versions := s.ftl.versions ++ [v] } }
    else { s with ftl := { s.ftl with staging := s.ftl.staging.filter fun y => y.seq ≠ x.seq } }
  | none =>
    let m := s.mapEntry iu
    if read then
      let v : Version := { iu := iu, dom := dom, upto := some e, seq := 2 ^ 64, st := m.st, repair := false,
                           loc := if m.st = 1 ∨ m.st = 2 then some m.loc else none }
      { s with ftl := { s.ftl with versions := s.ftl.versions ++ [v] } }
    else s

/-- A pending version published: it becomes the IU's content, the superseded one is retained while read. -/
def State.publish (s : State) (c e : Nat) (v : Version) : State :=
  let s1 := s.retain v.iu v.dom e c
  let s2 := { s1 with ftl := { s1.ftl with versions := s1.ftl.versions.erase v } }
  match v.loc with
  | some l => s2.setMap v.iu v.st l
  | none => s2

/-- Pending versions of a domain, of contexts and repairs. -/
def State.pendingIn (s : State) (dom : Nat) : List Version := s.ftl.versions.filter fun v => v.dom == dom && v.upto.isNone

/-- A pending repair discarded (R387). -/
def State.dropRepairs (s : State) (dom : Nat) : State :=
  let gone := (s.pendingIn dom).filter (·.repair)
  { s with ftl := { s.ftl with
    versions := s.ftl.versions.filter fun v => !(v.dom == dom && v.upto.isNone && v.repair)
    staging := s.ftl.staging.filter fun x => !gone.any fun v => v.loc.isNone && v.seq == x.seq } }

/-- One advance at the end of a task of context `c` (R384, R386, R388): a journal commit at a single tick. The domain's tier pages follow the largest GROUPS
that its collections name. -/
def State.advance (s : State) (c : Nat) (coll : List Byte) (w : Nat) : State :=
  let dom := clDomain coll
  let old := sget? s.ftl.domains dom
  let e := match old with
    | some k => k.epoch
    | none => 0
  let since := match old.bind Domain.since with
    | some p => if p.1 = s.tick then p else (s.tick, e)
    | none => (s.tick, e)
  let k0 : Domain := old.getD { epoch := 0, visible := 0, repair := false, neighCol := 0xFF, writer := none, pages := 0, hist := [] }
  let s0 := { s with ftl := { s.ftl with domains := sput s.ftl.domains dom { k0 with epoch := e + 1, since := some since } } }
  let s1 := (s0.pendingIn dom).foldl (fun t v => t.publish c e v) s0
  let rep := bit w 29
  let s2 := if rep then s1 else s1.dropRepairs dom
  let hist := match old with
    | some k => (e, k.visible) :: k.hist
    | none => []
  let kept := hist.filter fun h => (s0.readersOf dom c).contains h.1
  let named := (s.near.collections.filter fun p => clDomain p.2.bytes == dom).map fun p => clGroups p.2.bytes
  let k : Domain := { epoch := if bit w 28 then (e / 2 ^ 64 + 1) * 2 ^ 64 else e + 1, visible := bits w 38 60, repair := rep && !bit w 28,
                      neighCol := bits w 30 8, writer := none, hist := kept, since := some since
                      pages := named.foldl max (max (clGroups coll) k0.pages) }
  let s3 := { s2 with ftl := { s2.ftl with domains := sput s2.ftl.domains dom k, records := s2.ftl.records + 1 } }
  s3.flush

/-- The EPOCH_ADVANCE descriptors of a task take effect, in issue order. -/
def State.advances (s : State) (c : Nat) (x : Ctx) (t : Task) : State :=
  t.advances.foldl (fun u w => match sget? u.near.collections (65536 * x.req.fn + bits w.2 12 16) with
    | some k => u.advance c k.bytes w.2
    | none => u) s

/-- The media mode forbids an advance (R89, R91): code and case. -/
def State.advanceBarred (s : State) : Option (Nat × Nat) :=
  if s.sanitizing then some (0x06, 16) else if s.fget glob_MEDIA_MODE 0 = 1 then some (0x05, 15) else none

/-- After a task the home stays loaded, unless a pre-emption is pending or a waiter needs it (R284, R291). -/
def State.afterTask (s : State) (c : Nat) (x : Ctx) (t : Task) : State :=
  let held := ¬ (s.heldOf c).isEmpty
  let waiter := s.cp.ctxs.any fun p => p.1 != c && p.2.waits && p.2.req.overlaps x.req
  let keep := ¬ held ∧ x.preempt = 0 ∧ ¬ waiter
  let s1 := if keep then s else s.releaseHome x.req
  s1.setCtx c { x with
    st := if keep then .idleLoaded else if held then .waiting else .idle
    task := none, saved := none, preempt := 0, abortWait := false, waitSince := s.tick, last := t.leaveDone }

/-- Every descriptor of a task has completed and nothing of it waits (R155). -/
def State.taskDone (s : State) (x : Ctx) (t : Task) : Bool :=
  (List.range 2).all (fun h => !x.req.uses h || (s.seqDone x t h && t.wait h == .none)) && t.inflight.isEmpty && t.signals.isEmpty

/-- TASK_END (R155): the advances take effect, the record is written, the completion is posted with the flags and
RESULT, and the home stays loaded until a waiter needs it. An advance that the media mode forbids by now faults the context (R89, R100). -/
def execTaskEnd (c : Nat) (s : State) : Res :=
  match s.runningTask c with
  | none => .next s
  | some (x, t) =>
    if ¬ s.taskDone x t then .next s
    else match t.advances, s.advanceBarred with
    | (i, w) :: _, some f => .next (s.faultCtx c
        { code := f.1, index := i, case := f.2, hob := if x.req.pairing = 2 then descHob w else x.req.pairing })
    | _, _ =>
      let res := if x.req.pairing = 2 then (t.regs t.lastRes).result else (t.regs x.req.pairing).result
      let s1 := ((s.advances c x t).yieldUnits c).dropWork c
      let s2 := (s1.postTask t 0 0 t.flagsOf res).missAborts t.exec.cmd
      .next ((s2.afterTask c ((s2.ctx? c).getD x) t).prune)

/-- Classes of Table 06-6. -/
def descClasses : List Nat := [0x01, 0x02, 0x03, 0x04, 0x05, 0x10, 0x11, 0x18, 0x19, 0x20, 0x21, 0x22, 0x23, 0x28]

/-- The descriptor that sequencer `h` stands at is of a class that Table 06-6 does not list: its index. -/
def State.badClass (s : State) (c h : Nat) : Option Nat :=
  match s.runningTask c with
  | some (x, t) =>
    if ¬ x.req.uses h ∨ t.wait h ≠ .none ∨ t.ended h then none
    else match s.seek x h (t.regs h) (s.descCount t.exec.slot - (t.regs h).issueIndex) (t.regs h).issueIndex with
      | some (i, w) => if descClasses.contains (descClass w) then none else some i
      | none => none
  | none => none

/-- TASK_FAULT (R159): the descriptor that sequencer `h` stands at has no class of Table 06-6 (BAD_DESCRIPTOR, R152);
else the fault that a unit reports for context `c`. A fault of a frozen context is counted (R162). -/
def execTaskFault (c h code idx case ucls uinst : Nat) (s : State) : Res :=
  match s.badClass c h with
  | some i => .next (s.faultCtx c { code := 0x01, index := i, hob := h })
  | none => .next (s.faultCtx c { code := code, index := idx, case := case, hob := h, ucls := ucls, uinst := uinst })

/-- TASK_TIMEOUT (R150): TIME_LIMIT in ms of device time, counted in ticks while the context is loaded. -/
def execTaskTimeout (c : Nat) (s : State) : Res :=
  match s.runningTask c with
  | none => .next s
  | some (x, t) =>
    if t.exec.timeLimit ≠ 0 ∧ ticksMs t.exec.timeLimit ≤ t.ranTicks + (s.tick - t.loadTick) then
      .next (s.faultCtx c { code := 0x07, index := 0xFFFF, hob := x.req.hobs.headD 0 })
    else .next s

end Sys2Proof.Machine
end

