-- ==== Sys2Proof/Machine/Contexts.lean ====
section
/-!
DEFINITION. The context manager: creation, policy, loading, pre-emption, save and restore
(11_contexts_and_scheduling.md).
-/

namespace Sys2Proof.Machine

/-! ### The CMD word (R278, R302) -/

/-- The host's write of CMD reaches the page; a GO while BUSY is ignored and sets CONFIG_REJECT. -/
def State.onCmd (s : State) (f : State → State) : Res :=
  if ¬ s.hostUp then .next s
  else if s.fget ctxm_BUSY 0 = 1 then .next (s.configReject 0x04 0)
  else .next (f s)

/-! ### The request block (Table 11-1) -/

/-- The 256 bytes at REQ_ADDR. -/
def State.requestBytes (s : State) : List Byte :=
  s.host.mem.readN (s.fget64 ctxm_REQ_ADDR_LO ctxm_REQ_ADDR_HI 0) 256

/-- A request block decoded. -/
def decodeRequest (b : List Byte) : Request :=
  { fn := fld b 2 1, pairing := fld b 3 1, prio := fld b 4 1, forceable := bit (fld b 5 1) 0, quantum := fld b 6 2
    forceAfter := fld b 8 2, shares := fld b 10 2, maxSb := fld b 12 4, maxAcc := fld b 16 4, seed := fld b 24 8
    griddles := (List.range 32).map fun k => fld b (32 + 64 * (k / 16) + k % 16) 1
    ladles := [fld b 48 8, fld b 112 8], sbs := [fld b 56 6, fld b 120 6], units := [fld b 62 1, fld b 126 1]
    semBase := [fld b 64 2, fld b 128 2], semCount := [fld b 66 2, fld b 130 2]
    work := (List.range 8).map fun k => fld b (160 + 8 * k) 4, window := (List.range 8).map fun k => fld b (164 + 8 * k) 4
    batchS := fld b 224 2, batchP := fld b 228 4, dirAddr := fld b 232 8, dirBytes := fld b 240 4 }

/-- Bits set in a number, up to `n` bits. -/
def popCount (v n : Nat) : Nat := ((List.range n).filter (bit v)).length

/-- GRIDDLE[g] byte within its range. -/
def griddleOk (g : Nat) : Bool :=
  g < 64 && bits g 0 2 != 3 && (bits g 0 2 != 0 || bits g 2 4 < 2) && (bits g 0 2 != 1 || bits g 2 4 < 4)

/-- Units of MAX_LIVE_ACC that the regions held on a Hob allow: two full tile shares of each (Table 11-2). -/
def accUnits (r : Request) (h : Nat) : Nat :=
  ((List.range 16).map fun g => popCount (r.gMask h g) 4 *
    (if r.gMode h g = 0 then 128 else if r.gMode h g = 1 then 64 else 32)).sum

/-- The section of one Hob: zeros where it is not used; else its ranges. -/
def hobSectionOk (b : List Byte) (r : Request) (h : Nat) : Bool :=
  if ¬ r.uses h then zeros b (32 + 64 * h) 64 && zeros b (160 + 32 * h) 32
  else
    (List.range 16).all (fun g => griddleOk (r.griddles.getD (16 * h + g) 0)) && r.units.getD h 0 < 64 &&
    zeros b (63 + 64 * h) 1 && zeros b (68 + 64 * h) 28 && r.semCount.getD h 0 ≤ 512 &&
    (r.semCount.getD h 0 == 0 || (512 * h ≤ r.semBase.getD h 0 && r.semBase.getD h 0 + r.semCount.getD h 0 ≤ 512 * h + 512)) &&
    r.maxSb ≤ 1024 * popCount (r.sbs.getD h 0) 48 && r.maxAcc ≤ accUnits r h

/-- S and P within R268. -/
def batchOk (r : Request) : Bool :=
  if r.batchS = 0 then r.batchP == 0
  else 1 ≤ r.batchP && r.batchP ≤ 8192 &&
    (if r.pairing = 2 then decide (2 ≤ r.batchS) && r.batchS ≤ 4096 && r.batchS % 2 == 0 else r.batchS ≤ 2048)

/-- Check 2 of Table 11-2. -/
def requestFieldsOk (b : List Byte) (r : Request) : Bool :=
  fld b 0 2 == 1 && r.fn ≤ 32 && r.pairing ≤ 2 && r.prio ≤ 3 && fld b 5 1 < 2 &&
  (if r.forceable then decide (1 ≤ r.forceAfter) && r.forceAfter ≤ 10000 else r.forceAfter == 0) &&
  (if r.pairing = 2 then r.shares != 0 else r.shares == 0) && zeros b 20 4 && zeros b 226 2 && zeros b 244 12 &&
  r.dirAddr % 8 == 0 && hobSectionOk b r 0 && hobSectionOk b r 1 && batchOk r &&
  (r.pairing != 2 || r.ladles.getD 0 0 == r.ladles.getD 1 0)

/-- Check 4: the function is enabled, and one context more is within its quota (R117). -/
def State.quotaOk (s : State) (fn : Nat) : Bool :=
  s.fnEnabled fn && (
    if fn = 0 then (s.ctxsOf 0).length + (s.host.quota.map Prod.snd).sum < 64
    else (s.ctxsOf fn).length < sget s.host.quota (fn - 1) 0)

/-- Check 5: every named unit is present, not retired or classified for it, and every named logical Griddle is served; check 6 judges the
shared buffers. -/
def State.unitsThere (s : State) (r : Request) : Bool :=
  !s.homeLost { r with sbs := [0, 0] } && !s.homeClassified r && r.hobs.all fun h => !r.unit h 5 || (Sys2Proof.Machine.present s.variant 0x18 h && s.fget (hdr_STATE 0x18) h == 2)

/-- A macro-group of a Hob is retired. -/
def State.groupRetired (s : State) (h g : Nat) : Bool :=
  bit (s.fget sb_RETIRED_MAP0 h + 2 ^ 32 * s.fget sb_RETIRED_MAP1 h) g

/-- The program macro-group of a new context on a Hob (R280); 48 where none is left. -/
def State.programGroup (s : State) (r : Request) (h : Nat) : Nat :=
  ((List.range 48).find? fun g => !s.groupRetired h g && !s.groupProgram h g && !r.sbGroup h g &&
    !s.cp.ctxs.any fun p => p.2.req.sbGroup h g).getD 48

/-- Check 6: SB_MASK names no retired or program macro-group, and each Hob has a macro-group for the program. -/
def State.groupsFree (s : State) (r : Request) : Bool :=
  r.hobs.all fun h => s.programGroup r h < 48 &&
    (List.range 48).all fun g => !r.sbGroup h g || (!s.groupRetired h g && !s.groupProgram h g)

/-- SAVE_PAGES (R280). -/
def savePages (r : Request) : Nat := ceilDiv (65536 + 4096 * (r.maxSb + r.maxAcc)) tierBytes

/-- The stack of a Hob with the most free pool pages, the lowest on a tie. -/
def State.saveStack (s : State) (h : Nat) : Nat :=
  (List.range 4).foldl (fun b k => if s.freeCountOf b < s.freeCountOf (4 * h + k) then 4 * h + k else b) (4 * h)

/-- The stacks of a context (Table 10-2). -/
def Request.stacks (r : Request) : List Nat := r.hobs.flatMap fun h => (List.range 4).map (4 * h + ·)

/-- Pages of a batch pool on the `k`-th of `n` stacks: spread evenly, the first stacks taking one more (DESIGN CHOICE, log
17). -/
def poolShare (p n k : Nat) : Nat := p / n + (if k < p % n then 1 else 0)

/-- What a request takes, in order: (use, stack, pages) (R280, R281; uses as in `Ctx.pages`). -/
def State.wants (s : State) (r : Request) : List (Nat × Nat × Nat) :=
  let bs := if r.pairing = 1 then 4 else 0
  (r.hobs.map fun h => (0, s.saveStack h, savePages r)) ++
  (r.stacks.flatMap fun k => [(1, k, r.work.getD k 0), (2, k, r.window.getD k 0)]) ++
  (if r.batchS = 0 then [] else
    [(3, bs, 1), (4, bs, 1)] ++ (r.stacks.zipIdx.map fun k => (5, k.1, poolShare r.batchP r.stacks.length k.2)))

/-- The pages of a request taken, as (use, page), beside those `held` already; none where a stack cannot cover it (R252). -/
def takeAll (held : List (Nat × Nat)) : List (Nat × Nat × Nat) → State → Option (List (Nat × Nat) × State)
  | [], s => some (held, s)
  | w :: ws, s => match s.takePages (held.map Prod.snd) w.2.1 w.2.2 with
    | none => none
    | some (ps, s1) => takeAll (held ++ ps.map fun t => (w.1, t)) ws s1

/-- Slots that contexts declare on a Hob, halves of paired contexts included (R268). -/
def State.slotsDeclared (s : State) (h : Nat) : Nat :=
  (s.cp.ctxs.map fun p => if ¬ p.2.req.uses h then 0 else if p.2.req.pairing = 2 then p.2.req.batchS / 2 else p.2.req.batchS).sum

/-- Check 8: slots on a Hob stay within 2,048. -/
def State.slotsOk (s : State) (r : Request) : Bool :=
  r.hobs.all fun h => s.slotsDeclared h + (if r.pairing = 2 then r.batchS / 2 else r.batchS) ≤ 2048

/-- Entries of the page directory (R281). -/
def dirEntries (ps : List (Nat × Nat)) : List Nat := (ps.filter fun p => p.1 ≠ 5).map Prod.snd

/-- The bytes of the page directory (Table 11-3). -/
def dirBytes (r : Request) (groups : List Nat) (ps : List (Nat × Nat)) : List Byte :=
  let gb (h : Nat) : Nat := if r.uses h then groups.getD h 0xFF else 0xFF
  let es := dirEntries ps
  natLE es.length 4 ++ natLE (savePages r) 2 ++ natLE (gb 0) 1 ++ natLE (gb 1) 1 ++ List.replicate 56 0 ++
    es.flatMap fun t => natLE (t1Form t) 8

/-- A context just created. -/
def newCtx (r : Request) (groups : List Nat) (ps : List (Nat × Nat)) (test : Bool) : Ctx :=
  { st := .idle, req := r, groups := groups, savePages := savePages r, pages := ps, sq := none, task := none, saved := none
    waitSince := 0, preempt := 0, preemptTick := 0, severity := 0, log := CtxLog.empty, logRead := false, test := test
    replays := 0, normals := 0, forceds := 0, resumed := false, staged := none, abortWait := false }

/-- Window marks of a new context's window pages and slot table page (R262, R268). -/
def State.markWindows (s : State) (ps : List (Nat × Nat)) : State :=
  (ps.filter fun p => p.1 = 2 ∨ p.1 = 4).foldl (fun t p => t.setMark p.2 { window := true, fillHobs := [], ready := false }) s

/-- PROGRAM_MAP and GROUP_OWNER show the program macro-group of a context. -/
def State.showProgram (s : State) (c h g : Nat) : State :=
  let s1 := s.fset (sb_GROUP_OWNER g) h c
  if g < 32 then s1.fsetBit sb_PROGRAM_MAP0 h g else s1.fsetBit sb_PROGRAM_MAP1 h (g - 32)

/-- The batch of a new context, and its slot table page. -/
def State.addBatch (s : State) (c : Nat) (r : Request) (ps : List (Nat × Nat)) : State :=
  if r.batchS = 0 then s
  else
    let at0 (u : Nat) : List Nat := (ps.filter fun p => p.1 = u).map Prod.snd
    let b : Batch := { s := r.batchS, p := r.batchP, step := 0, slots := [], queue := [], deferred := 0,
                       reqPage := (at0 3).headD 0, slotPage := (at0 4).headD 0, pool := at0 5, begun := none }
    ({ s with tiers := { s.tiers with batches := sput s.tiers.batches c b } }).writeTable b 0 0 []

/-- The lowest free context number, or the number asked for where it is free. -/
def State.pickNumber (s : State) (v : Nat) : Option Nat :=
  if v = 0x7F then (List.range 64).find? fun k => (s.ctx? k).isNone
  else if (s.ctx? v).isNone then some v else none

/-- A number is used again (R493): its old line reads KIND 0 and a line starts; work of the old context that no sample has seen counts for the
device only. -/
def Kettle.reuse (k : Kettle) (c : Nat) : Kettle :=
  let unseen := (List.range 18).filter fun i => decide (sget k.workSeen (256 * c + i) 0 < sget k.work (256 * c + i) 0)
  let w := unseen.foldl (fun (w : Store Nat) (i : Nat) =>
    let d := sget w (256 * c + i) 0 - sget k.workSeen (256 * c + i) 0
    sput (sput w (256 * 65 + i) (sget w (256 * 65 + i) 0 + d)) (256 * c + i) (sget k.workSeen (256 * c + i) 0)) k.work
  { k with fresh := c :: k.fresh, lines := serase k.lines (4 + c), work := w }

/-- Creation under the checks of Table 11-2: RESULT, CONTEXT_OUT and the state; a refusal changes nothing. -/
def State.createContext (s : State) (v : Nat) : Nat × Nat × State :=
  let b := s.requestBytes
  let r := decodeRequest b
  if ¬ s.globalOn then (1, 0, s)
  else if s.fget ctxm_REQ_ADDR_LO 0 % 64 ≠ 0 ∨ (64 ≤ v ∧ v ≠ 0x7F) ∨ ¬ requestFieldsOk b r then (2, 0, s)
  else match s.pickNumber v with
    | none => (3, 0, s)
    | some c =>
      if ¬ s.quotaOk r.fn then (4, 0, s)
      else if ¬ s.unitsThere r then (5, 0, s)
      else if ¬ s.groupsFree r then (6, 0, s)
      else
        let groups := (List.range 2).map fun h => if r.uses h then s.programGroup r h else 48
        match takeAll [] (s.wants r) s with
        | none => (7, 0, s)
        | some (ps, s1) =>
          if ¬ s.slotsOk r then (8, 0, s)
          else if r.dirBytes < 64 + 8 * (dirEntries ps).length then (9, 0, s)
          else
            let dir := dirBytes r groups ps
            let s2 := { s1 with
              kettle := s1.kettle.reuse c
              cp := { s1.cp with
                ctxs := sput s1.cp.ctxs c (newCtx r groups ps (s.fget glob_TEST_MODE 0 == 1))
                oldLogs := serase s1.cp.oldLogs c }
              host := { s1.host with mem := s1.host.mem.writeL r.dirAddr dir } }
            let s3 := r.hobs.foldl (fun t h => t.showProgram c h (groups.getD h 48)) s2
            (0, c, ((s3.markWindows ps).addBatch c r ps).pcie c (256 + dir.length))

/-- CREATE_CONTEXT (R278 to R281): `v` is CONTEXT of the CMD write. The fetch of a refused block is no context's. -/
def execCreateContext (v : Nat) (s : State) : Res :=
  s.onCmd fun s =>
    let q := s.createContext v
    (if q.1 = 0 then q.2.2 else s.pcie 64 256).cmdDone 1 0 v q.1 q.2.1

/-- CMD_TEAR_DOWN (R303): a context of any function. BUSY reads 1 until the teardown completes. -/
def execCmdTearDown (v : Nat) (s : State) : Res :=
  s.onCmd fun s =>
    if ¬ s.globalOn then s.cmdDone 2 0 v 1 v
    else match s.ctx? v with
      | none => s.cmdDone 2 0 v 10 v
      | some x =>
        if x.st = .tearingDown then s.cmdDone 2 0 v 13 v
        else
          let s1 := (s.startTear v).fset ctxm_BUSY 0 1
          let s2 := ((s1.fset ctxm_DONE 0 0).fset ctxm_OP 0 2).fset ctxm_CONTEXT 0 v
          match s2.ctx? v with
          | some y => s2.setCtx v { y with tearWord := true }
          | none => s2

/-- A pre-emption of a running context is decided at this tick. -/
def State.preemptCtx (s : State) (c : Nat) (x : Ctx) (kind : Nat) : State :=
  s.setCtx c { x with st := .preempting, preempt := kind, preemptTick := s.tick }

/-- A task of the context has passed a cheap point. -/
def Task.passedYield (t : Task) : Bool := t.checkpoint.isSome

/-- CMD_PREEMPT (R298): a running context is pre-empted at its next cheap point, or by force. -/
def execCmdPreempt (v : Nat) (force : Bool) (s : State) : Res :=
  s.onCmd fun s =>
    let f := b2n force
    if ¬ s.globalOn then s.cmdDone 3 f v 1 v
    else match s.ctx? v with
      | none => s.cmdDone 3 f v 10 v
      | some x => match x.task with
        | none => s.cmdDone 3 f v 11 v
        | some t =>
          if ¬ x.issuing then s.cmdDone 3 f v 11 v
          else if force ∧ (¬ x.req.forceable ∨ ¬ t.passedYield) then s.cmdDone 3 f v 12 v
          else (s.preemptCtx v x (if force then 2 else 3)).cmdDone 3 f v 0 v

/-- CMD_SET_POLICY (R297): bytes 4 to 9 of the request block. A change of FORCEABLE needs a context that is IDLE,
IDLE_LOADED, FROZEN or SUSPENDED. -/
def execCmdSetPolicy (v : Nat) (s : State) : Res :=
  s.onCmd fun s =>
    let r := decodeRequest s.requestBytes
    let ok := r.prio ≤ 3 ∧ fld s.requestBytes 5 1 < 2 ∧
      (if r.forceable then 1 ≤ r.forceAfter ∧ r.forceAfter ≤ 10000 else r.forceAfter = 0)
    if ¬ s.globalOn then s.cmdDone 4 0 v 1 v
    else if ¬ ok then s.cmdDone 4 0 v 2 v
    else match s.ctx? v with
      | none => s.cmdDone 4 0 v 10 v
      | some x =>
        let still := x.st = .idle ∨ x.st = .idleLoaded ∨ x.st = .frozen ∨ x.st = .suspended
        if r.forceable ≠ x.req.forceable ∧ ¬ still then s.cmdDone 4 0 v 2 v
        else
          let q := { x.req with prio := r.prio, forceable := r.forceable, quantum := r.quantum, forceAfter := r.forceAfter }
          ((s.setCtx v { x with req := q }).pcie v 256).cmdDone 4 0 v 0 v

/-! ### Loading and pre-emption decisions (R284 to R286) -/

/-- CONTEXT_LOAD (R284, R285): units have become free; the waiter `c` fits and is presented at crossing point 1 of each Hob
it uses; IDLE_LOADED contexts in its way become IDLE. -/
def execContextLoad (c : Nat) (s : State) : Res :=
  match s.ctx? c with
  | none => .next s
  | some x =>
    if ¬ x.waits ∨ ¬ s.homeFree c x.req ∨ ¬ s.firstInLine c x then .next s
    else .next ((s.displace c x.req).withLoads (s.loadable.filter (· ≠ c) ++ [c]))

/-- A waiter overlaps context `c` and satisfies `p`. -/
def State.waiterFor (s : State) (c : Nat) (x : Ctx) (p : Ctx → Bool) : Bool :=
  s.cp.ctxs.any fun k => k.1 != c && k.2.waits && k.2.req.overlaps x.req && p k.2

/-- The quantum of a task has run since its load or latest restore. -/
def State.quantumOver (s : State) (x : Ctx) (t : Task) : Bool :=
  x.req.quantum != 0 && decide (t.loadTick + ticksMs x.req.quantum ≤ s.tick)

/-- PREEMPT_DECISION (Table 11-5) for running context `c`: a waiter of higher priority, or one of equal priority once the
quantum has run, asks for a normal pre-emption; with neither, a pending decision is withdrawn. None while a LOCKSTEP
run is armed, and none new while a change to LOCKSTEP waits (R84). -/
def execPreemptDecision (c : Nat) (s : State) : Res :=
  match s.runningTask c with
  | none => .next s
  | some (x, t) =>
    let higher := s.waiterFor c x fun w => decide (x.req.prio < w.req.prio)
    let equal := s.quantumOver x t && s.waiterFor c x fun w => w.req.prio == x.req.prio
    let want := s.fget glob_ARMED 0 = 0 ∧ (higher ∨ equal)
    if want ∧ x.preempt = 0 ∧ ¬ s.lockstepPending then .next (s.preemptCtx c x 1)
    else if ¬ want ∧ x.preempt = 1 then .next (s.setCtx c { x with st := .running, preempt := 0 })
    else .next s

/-- FORCE_AFTER_EXPIRY (Table 11-5): a forceable context has passed no cheap point within FORCE_AFTER_MS of a decision
taken for a waiter of higher priority. -/
def execForceAfterExpiry (c : Nat) (s : State) : Res :=
  match s.runningTask c with
  | none => .next s
  | some (x, _) =>
    if x.preempt = 1 ∧ x.req.forceable ∧ x.preemptTick + ticksMs x.req.forceAfter ≤ s.tick ∧ s.fget glob_ARMED 0 = 0 ∧
        s.waiterFor c x (fun w => decide (x.req.prio < w.req.prio)) then
      .next (s.setCtx c { x with preempt := 2 })
    else .next s

/-! ### Save and restore (R288 to R296) -/

/-- A sequencer of a task drains at a YIELD. -/
def Task.atYield (t : Task) (r : Request) : Bool :=
  (List.range 2).any fun h => r.uses h && (match t.wait h with
    | .yielding .. => true
    | _ => false)

/-- The save of a forced pre-emption: the replay state and the checkpoint of the last YIELD, with the live SB range as it
stands (R292, R294). -/
def State.forcedSave (s : State) (x : Ctx) (t : Task) : Option Saved :=
  t.checkpoint.map fun k => { k with sb := s.liveSb x.req (4096 * t.liveSb), forced := true }

/-- FORCED_PREEMPT (Table 11-8): granted at crossing point 1. Under R293 it becomes a normal one; else issue stops, issued
work is dropped, the semaphores and Snilo Link credits are released and the save begins. -/
def execForcedPreempt (c : Nat) (s : State) : Res :=
  match s.runningTask c with
  | none => .next s
  | some (x, t) =>
    if x.preempt ≠ 2 then .next s
    else
      let s0 := (s.serveIntake c x).recEv 0x04 0 Config.preemptCode [] c
      let ended := (List.range 2).all fun h => !x.req.uses h || s.seqDone x t h
      match s.forcedSave x t with
      | none => .next (s0.setCtx c { x with preempt := 3 })
      | some k =>
        if t.atYield x.req ∨ t.pinned ∨ ended ∨ ¬ x.req.forceable then .next (s0.setCtx c { x with preempt := 3 })
        else
          let s1 := s0.dropWork c
          let s2 := (s1.snilo.reqs.filter fun r => s1.fget (hdr_OWNER_CONTEXT 0x12) r.ch == c).foldl (fun u r => u.endReq r) s1
          let slip : Bool := s.fget glob_DET_MODE_EFFECTIVE 0 == 1
          let t1 := { t with
            inflight := [], signals := [], wait0 := .none, wait1 := .none, ranTicks := t.ranTicks + (s.tick - t.loadTick)
            replayed := true, slipped := t.slipped || slip }
          let x1 := { x with task := some t1, saved := some k, preemptTick := s.tick, replays := satAdd x.replays 1 255 }
          let s3 := { s2 with cp := { s2.cp with
            semOwner := x.req.semsOf.foldl (fun m n => serase m n) s2.cp.semOwner
            semPre := (x.req.semsOf.map fun n => (c, n)) ++ s2.cp.semPre.filter fun (p : Nat × Nat) => p.1 ≠ c } }
          .next (s3.setCtx c x1)

/-- An injected or real error of the save area: SAVE_FAULT, and the context faults with SAVE_UNCORRECTABLE (R296). -/
def State.saveFault (s : State) (c : Nat) (x : Ctx) : State :=
  (s.err 0x04 0 [8] (c + 65536 * 0x5F) c).faultCtx c { code := 0x5F, index := 0xFFFF, hob := x.req.hobs.headD 0 }

/-- Microseconds of device time since a tick. -/
def State.usSince (s : State) (t : Nat) : Nat := (s.tick - t) * 1024 / 1000

/-- CONTEXT_SAVE_COMPLETE (R289, R291, R292): the home is released and the context is SUSPENDED and waits. -/
def execContextSaveComplete (c : Nat) (s : State) : Res :=
  match s.ctx? c with
  | none => .next s
  | some x => match x.saved with
    | none => .next s
    | some k =>
      if x.st ≠ .preempting then .next s
      else if s.saveLost x then .next (s.saveFault c x)
      else
        let x1 := { x with
          st := .suspended, preempt := 0, waitSince := s.tick
          normals := if k.forced then x.normals else satAdd x.normals 1 65535
          forceds := if k.forced then satAdd x.forceds 1 65535 else x.forceds }
        let s1 := ((s.clearSlots c).dropWork c).releaseHome x.req
        .next (((s1.setCtx c x1).count 0x04 0 (if k.forced then 2 else 1) 1).noteSwitch c (if k.forced then 2 else 1)
          (s.usSince x.preemptTick))

/-- Tile shares and accumulation settings back in the regions that serve their logical numbers (R290). -/
def State.restoreTiles (s : State) (k : Saved) : State :=
  let put (t : State) (n : Nat) (f : Region → Region) : State :=
    match t.physGriddle (n / 64) (n % 64 / 4) with
    | some i => t.setRegion i (n % 4) (f (t.region i (n % 4)))
    | none => t
  let s1 := k.tiles.foldl (fun t p => put t p.1 fun r => { r with
    tiles := p.2, issOpen := p.2.map fun q => if q.st = 1 then some q.fp else none }) s
  k.accs.foldl (fun t p => put t p.1 fun r => { r with acc := p.2 }) s1

/-- The live SB range back at its offsets. -/
def State.restoreSb (s : State) (r : Request) (t : Task) (k : Saved) : State :=
  r.hobs.foldl (fun u h => (liveRanges r h (4096 * t.liveSb)).foldl (fun v g =>
    { v with cp := { v.cp with sb := v.cp.sb.copyFrom (k.sb.getD h Mem.empty) (h * 2 ^ 28 + g.1 * 2 ^ 22) g.2 } }) u) s

/-- CONTEXT_RESTORE (R84, R290): crossing point 1 grants a suspended context its restore. A lost unit faults it with HOME_LOST
(R299). -/
def execContextRestore (c : Nat) (s : State) : Res :=
  match s.ctx? c with
  | none => .next s
  | some x => match x.saved, x.task with
    | some k, some t =>
      if ¬ s.mayRestore c x then .next s
      else match s.grantedLoad c x x.waitSince with
      | none => .next s
      | some g =>
        if g.homeLost x.req then
          .next ((g.err 0x04 0 [9] (c + 65536 * 0x4C) c).faultCtx c { code := 0x4C, index := 0xFFFF, hob := x.req.hobs.headD 0 })
        else
          let s1 := (((g.takeHome c x).restoreSb x.req t k).restoreTiles k).setSems k.sems
          let s2 := { s1 with cp := { s1.cp with semPre := s1.cp.semPre.filter fun (p : Nat × Nat) => p.1 ≠ c } }
          let x1 := (s2.ctx? c).getD x
          .next ((s2.countLoad x.req).setCtx c { x1 with st := .restoring, preemptTick := s.tick })
    | _, _ => .next s

/-- CONTEXT_RESTORE_COMPLETE (R291, R294): issue restarts at LAST_YIELD + 1, which is the cheap point of a later forced pre-emption too (R297). -/
def execContextRestoreComplete (c : Nat) (s : State) : Res :=
  match s.ctx? c with
  | none => .next s
  | some x => match x.saved, x.task with
    | some k, some t =>
      if x.st ≠ .restoring then .next s
      else if s.saveLost x then .next (s.saveFault c x)
      else
        let t1 := { t with
          regs0 := k.regs.getD 0 t.regs0, regs1 := k.regs.getD 1 t.regs1, wait0 := .none, wait1 := .none
          ended0 := k.ended.getD 0 false, ended1 := k.ended.getD 1 false, inflight := [], signals := []
          advances := k.advances, loadTick := s.tick, pinned := false, checkpoint := some { k with sb := [], forced := true } }
        .next ((s.setCtx c { x with st := .running, saved := none, task := some t1, preempt := 0 }).noteSwitch c 3
          (s.usSince x.preemptTick))
    | _, _ => .next s

end Sys2Proof.Machine
end

