-- ==== Sys2Proof/Machine/Modes.lean ====
section
/-!
DEFINITION. Operating point, ramps and limits; the determinism mode; the arbiters of the crossing points
(02_self_timed_logic.md, 04_modes_and_interactions.md).
-/

namespace Sys2Proof.Machine

/-! ### Operating point (R36 to R38, R81, R82, R491) -/

/-- The 1 s of R37 in ticks. -/
def op5Hold : Nat := ticksMs 1000

/-- OP5 may be entered: its conditions have held without a break for 1 s (R37). -/
def State.op5Ready (s : State) : Bool :=
  match s.power.op5Since with
  | some t => decide (t + op5Hold ≤ s.tick)
  | none => false

/-- The conditions of R37 hold now: BOOST_ALLOW, every Hob junction below 85 °C, and a mean of the last 1,526 input power
samples below 1,900 W. -/
def State.op5Holds (s : State) : Bool :=
  let l := s.power.inputMw.take 1526
  s.fget glob_BOOST_ALLOW 0 == 1 && s.power.hobCool && l.length == 1526 && decide (l.sum < 1900000 * 1526)

/-- The conditions are tracked whether or not OP5 is requested (R37). -/
def State.trackOp5 (s : State) : State :=
  { s with power := { s.power with
    op5Since := if s.op5Holds then (if s.power.op5Since.isSome then s.power.op5Since else some s.tick) else none } }

/-- Ceiling of the operational power state in force (Table 04-4). -/
def psCeiling (ps : Nat) : Nat := if ps = 1 then 3 else if ps = 2 then 1 else 5

/-- The limits that apply, highest precedence first, as (cause, ceiling): safety events, brown-out recovery, power state,
power cap, the conditions of OP5 (R36, R81, R82, R491). -/
def State.opLimits (s : State) : List (Nat × Nat) :=
  (if s.power.trip || s.power.brownOut then [(1, 0)] else []) ++
  (if s.power.opHoldUntil.isSome then [(5, 0)] else []) ++
  (if psCeiling s.host.psLast < s.fget glob_OP_REQUEST 0 then [(3, psCeiling s.host.psLast)] else []) ++
  (if s.fget kettle_POWER_CAP 0 ≠ 0 ∧ s.fget kettle_CAP_CEILING 0 < s.fget glob_OP_REQUEST 0 then
    [(2, s.fget kettle_CAP_CEILING 0)] else []) ++
  (if s.fget glob_OP_REQUEST 0 = 5 ∧ ¬ s.op5Ready then [(4, 4)] else [])

/-- The operating point that the request and its limits give. -/
def State.opTarget (s : State) : Nat := s.opLimits.foldl (fun m l => min m l.2) (s.fget glob_OP_REQUEST 0)

/-- LIMIT_CAUSE: the limit of highest precedence; a power cap is shown only where it is the lowest value (R491). -/
def State.opCause (s : State) : Nat :=
  match s.opLimits.filter fun l => l.1 ≠ 2 || l.2 == s.opTarget with
  | l :: _ => l.1
  | [] => 0

/-- The rails are driven towards the point that the request and its limits give. A ramp in progress runs to its end first;
a safety event pre-empts it (R38). While a thermal shutdown has cut the rails none moves (R488). -/
def State.driveOp (s : State) : State :=
  let c := s.opCause
  let s1 := s.fset glob_LIMIT_CAUSE 0 c
  let go : Bool := match s.power.rampTo with
    | none => s.opTarget != s.fget glob_OP_EFFECTIVE 0
    | some p => c == 1 && p != 0
  if go ∧ ¬ s.power.thermalOff then s1.startRamp s.opTarget else s1

/-- OP_REQUEST_WRITE (Table 02-8): 6 and 7 are ignored. -/
def execOpRequestWrite (v : Nat) (s : State) : Res :=
  if ¬ s.hostUp ∨ 6 ≤ v % 8 then .next s else .next (s.fset glob_OP_REQUEST 0 (v % 8)).driveOp

/-- BOOST_ALLOW_WRITE (R37). -/
def execBoostAllowWrite (v : Bool) (s : State) : Res :=
  if ¬ s.hostUp then .next s else .next ((s.fset glob_BOOST_ALLOW 0 (b2n v)).trackOp5).driveOp

/-- A power state in force changes (Table 18-7). -/
def State.setPs (s : State) (p : Nat) : State :=
  let old := s.fget glob_PS_EFFECTIVE 0
  if old = p then s else (s.fset glob_PS_EFFECTIVE 0 p).recEv 0x00 0 0x0306 [old, p]

/-- The point in force becomes `p` as a ramp settles: OP_EFFECTIVE updates and the change is recorded (R38). -/
def State.settleRamp (s : State) (p : Nat) : State :=
  let old := s.fget glob_OP_EFFECTIVE 0
  let s1 := (s.fset glob_OP_EFFECTIVE 0 p).stopRamp
  if old = p then s1 else s1.recEv 0x00 0 0x0300 [old, p, s1.fget glob_LIMIT_CAUSE 0]

/-- RAMP_COMPLETE (R38): both phases have slewed and the regulators report settled; OP_EFFECTIVE updates, a request that waited is taken up, and,
once no ramp is left, a change of operational power state takes effect (R87). PS_IN_TRANSITION stays set while a non-operational state waits. -/
def execRampComplete (s : State) : Res :=
  match s.power.rampTo with
  | none => .next s
  | some p =>
    if ¬ s.rampOver p then .next s
    else
      let s3 := (s.settleRamp p).driveOp
      if s3.power.rampTo.isSome ∨ 3 ≤ s3.fget glob_PS_EFFECTIVE 0 then .next s3
      else .next ((s3.setPs s3.host.psLast).fset glob_PS_IN_TRANSITION 0 (b2n s3.host.psTarget.isSome))

/-- OP5_CONDITION_FAIL (R37): a condition fails; the device moves to OP4 with LIMIT_CAUSE 4, and the event is recorded
as the change of the point in force. -/
def execOp5ConditionFail (s : State) : Res :=
  if s.op5Holds then .next s else .next (s.trackOp5).driveOp

/-- OP5_HOLD_EXPIRY (R37): every condition has held for 1 s; a requested OP5 is entered. -/
def execOp5HoldExpiry (s : State) : Res :=
  if s.op5Ready then .next s.driveOp else .next s

/-! ### Rate monitors (R39) -/

/-- Start of a monitor's present window: the end of its last one, or the tick at which its domain powered up; domain 0 is up from tick 0. None
while the domain is off. -/
def State.windowStart (s : State) (c i : Nat) : Option Nat :=
  match sget? s.reg.windowAt (pageNo c i) with
  | some t => some t
  | none => if domainOf c i = 0 then some 0 else sget? s.power.domUp (domainOf c i)

/-- Monitors of the domain of page (`c`, `i`), its own apart, that are not STALE. -/
def State.peers (s : State) (c i : Nat) : List (Nat × Nat) :=
  (List.range 50).flatMap fun d => ((List.range (instancesOf d)).filter fun j =>
    Sys2Proof.Machine.present s.variant d j && domainOf d j == domainOf c i && !(d == c && j == i) && s.fget (hdr_STALE d) j == 0).map fun j =>
      (d, j)

/-- The rate that the Kettle takes for a block (R39): its monitor's, or, while it is STALE, the mean of the other monitors of its domain. -/
def State.takenRate (s : State) (c i : Nat) : Nat :=
  if s.fget (hdr_STALE c) i = 0 then s.fget (hdr_RATE_MHS c) i
  else (((s.peers c i).map fun p => s.fget (hdr_RATE_MHS p.1) p.2).sum) / (s.peers c i).length

/-- RATE_WINDOW_END (R39): a window of 1,024 ticks, 1.048576 ms, has ended with `n` handshakes counted; an injection withholds
the count (R72). The next window follows it without a gap. The second empty window in succession marks the monitor STALE, and the Kettle takes the
block's rate from the others of its domain. -/
def execRateWindowEnd (c i n : Nat) (s : State) : Res :=
  match s.windowStart c i with
  | none => .next s
  | some t0 =>
    if ¬ Sys2Proof.Machine.present s.variant c i ∨ ¬ s.kettleOn ∨ s.tick < t0 + 1024 then .next s
    else
      let k := pageNo c i
      let m := if s.injectLeft c i 0 = 0 then n else 0
      let e := if m ≠ 0 then 0 else sget s.reg.emptyWindows k 0 + 1
      let s1 := (s.fset (hdr_RATE_MHS c) i (min 65535 (m * 1000 / 1048576))).fset (hdr_STALE c) i (b2n (decide (2 ≤ e)))
      let s2 : State := { s1 with reg := { s1.reg with
        windowAt := sput s1.reg.windowAt k (t0 + (s.tick - t0) / 1024 * 1024)
        emptyWindows := if e = 0 then serase s1.reg.emptyWindows k else sput s1.reg.emptyWindows k e } }
      let s3 : State := { s2 with kettle := { s2.kettle with rates := sput s2.kettle.rates k (s2.takenRate c i) } }
      if e = 2 then .next (s3.err c i [0]) else .next s3

/-! ### Determinism mode (R84) -/

/-- DET_MODE_REQUEST_WRITE (R84): a change becomes pending; the value in force cancels it. -/
def execDetModeRequestWrite (v : Bool) (s : State) : Res :=
  if ¬ s.hostUp then .next s
  else .next ((s.fset glob_DET_MODE_REQUEST 0 (b2n v)).fset glob_DET_CHANGE_PENDING 0
    (b2n (b2n v != s.fget glob_DET_MODE_EFFECTIVE 0)))

/-- No started task remains unfinished: none loaded and none saved (R84). -/
def State.noStartedTask (s : State) : Bool := s.cp.ctxs.all fun p => p.2.task.isNone && p.2.saved.isNone

/-- The mode in force changes at every crossing point together; an armed run ends (R84). -/
def State.switchDet (s : State) (m : Nat) : State :=
  let s1 := ((s.fset glob_DET_MODE_EFFECTIVE 0 m).fset glob_DET_CHANGE_PENDING 0 0).fset glob_ARMED 0 0
  ({ s1 with arb := { s1.arb with armAt := none } } : State).recEv 0x00 0 0x0301 [m]

/-- DET_MODE_TO_LOCKSTEP (R84): the first tick boundary with no started task unfinished. -/
def execDetModeToLockstep (s : State) : Res :=
  if s.fget glob_DET_MODE_EFFECTIVE 0 = 0 ∧ s.fget glob_DET_MODE_REQUEST 0 = 1 ∧ s.noStartedTask then .next (s.switchDet 1)
  else .next s

/-- DET_MODE_TO_FREE (R84): the next tick boundary after the request. -/
def execDetModeToFree (s : State) : Res :=
  if s.fget glob_DET_MODE_EFFECTIVE 0 = 1 ∧ s.fget glob_DET_MODE_REQUEST 0 = 0 then .next (s.switchDet 0) else .next s

/-- ARM (R48): in LOCKSTEP, the slip fields clear and a run is scheduled at the next tick count that is a multiple
of 32. -/
def execArm (s : State) : Res :=
  if ¬ s.hostUp ∨ s.fget glob_DET_MODE_EFFECTIVE 0 = 0 then .next s
  else
    let s1 := (s.fset glob_ARMED 0 0).fset64 glob_SLIP_COUNT_LO glob_SLIP_COUNT_HI 0 0
    let s2 := ((s1.fset glob_SLIP_CP 0 0).fset glob_SLIP_PARTY 0 0).fset glob_SLIP_INSTANCE 0 0
    .next { s2 with arb := { s2.arb with armAt := some ((s.tick / 32 + 1) * 32) } }

/-- LOCKSTEP_ARM_TICK (R48): the arm tick is reached. -/
def execLockstepArmTick (s : State) : Res :=
  match s.arb.armAt with
  | some a =>
    if s.tick < a then .next s
    else
      let s1 := (s.fset64 glob_ARM_TICK_LO glob_ARM_TICK_HI 0 (a % 2 ^ 64)).fset glob_ARMED 0 1
      .next { s1 with arb := { s1.arb with armAt := none } }
  | none => .next s

end Sys2Proof.Machine
end

