-- ==== Sys2Proof/Machine/Tiering.lean ====
section
/-!
DEFINITION. HBM errors, repairs and retirements, heat decay and placement (10_memory_tiers.md, R254 to R260).
-/

namespace Sys2Proof.Machine

/-- A row's tier page marked for repair in eFlash (R255). -/
def State.markRow (s : State) (t : Nat) : State :=
  if s.tiers.marked.contains t ∨ s.tiers.retired.contains t then s
  else ({ s with tiers := { s.tiers with marked := s.tiers.marked ++ [t] } }).writeConfig (0x1000000 + t) 1

/-- A corrected error of a row: a second one within 24 hours of device time marks it (R255). -/
def State.rowCorrected (s : State) (t : Nat) : State :=
  let s1 := { s with tiers := { s.tiers with corrected := sput s.tiers.corrected t s.tick } }
  match sget? s.tiers.corrected t with
  | some k => if s.tick ≤ k + ticksMs 86400000 then s1.markRow t else s1
  | none => s1

/-- A pseudo-channel of a stack, as units classified as permanently faulty are named. -/
def pcKey (k p : Nat) : Nat := 65536 * 0x16 + 64 * k + p

/-- An error that is still uncorrectable after the re-read, at offset `a` of stack `k`, counts towards the rules of its pseudo-channel (Table 17-1): four
distinct rows within 24 hours, 16 address-parity mismatches within 1 hour. The spec gives no address map of rows, so a row is told by its tier page
(PRESUMED, log 57). -/
def State.countHbm (s : State) (k a : Nat) (parity : Bool) : State :=
  let p := a / 64 % 64
  let t := 24576 * k + a / tierBytes
  let key := 65536 * 17 + 64 * k + p
  let near := (sget s.rel.events key []).filter fun e => decide (s.tick < e / 2 ^ 18 + dayTicks) && e % 2 ^ 18 != t
  let rows := (s.tick * 2 ^ 18 + t) :: near
  let s1 : State := { s with rel := { s.rel with events := sput s.rel.events key rows } }
  let e := if parity then s1.countEvent 18 (64 * k + p) hourTicks else (0, s1)
  if 4 ≤ rows.length ∨ 16 ≤ e.1 then e.2.classify (pcKey k p) else e.2

/-- The row of an uncorrectable sector is marked, and the error counts towards the permanent rules; an injected one does neither (R255, R463). -/
def State.hbmLost (s : State) (k a : Nat) (parity inj : Bool) : State :=
  if inj then s else (s.countHbm k a parity).markRow (24576 * k + a / tierBytes)

/-- HBM_READ_ERROR (Table 10-4) on byte offset `a` of stack `k`: outcome 0 a single-bit error, 1 a double-bit or parity
error whose re-read is clean or correctable, 2 uncorrectable. User 0 is the move running on Ladle page instance `n`, 1
the save, checkpoint or restore of context `n`, 2 the SLM command `cmd`, 3 FTL staging, 4 a placement copy. -/
def execHbmReadError (k a outcome : Nat) (parity : Bool) (user n : Nat) (cmd : CmdId) (s : State) : Res :=
  let t := 24576 * k + a / tierBytes
  let par := if parity then [8] else []
  if 8 ≤ k ∨ stackBytes ≤ a ∨ ¬ s.planesOn then .next s
  else if outcome < 2 then
    let s1 := s.err 0x16 k ([2] ++ if outcome = 1 then par else []) (hbmInfo a)
    .next (if s.injectLeft 0x16 k 2 = 0 then s1.rowCorrected t else s1)
  else
    let who := if user = 0 then s.fget (hdr_OWNER_CONTEXT 0x12) n else if user = 1 then n else 0xFF
    let s1 := (s.err 0x16 k ((if user = 3 then [10] else [3]) ++ par) (hbmInfo a) who).hbmLost k a parity (s.armed 0x16 k [3, 8]).isSome
    match user with
    | 0 => match (s1.chan n).run with
      | some m => .next (s1.haltChan n (k * 2 ^ 36 + a) 1 0x4A [9, 10] m)
      | none => .next s1
    | 1 => match s1.ctx? n with
      | some x => .next (s1.saveFault n x)
      | none => .next s1
    | 2 => .next (if s.takes cmd then s1.complete (plainId cmd) 2 0x81 else s1)
    | 3 => .next s1
    | _ => .next (s1.dropCopies fun tk => match sget? s1.tiers.copies tk with
      | some c => c.t1 == t
      | none => false)

/-- A T1 page has no user. -/
def State.pageFree (s : State) (t : Nat) : Bool := !(s.slmPages ++ s.ctxPages ++ s.copyPages).contains t

/-- HBM_ROW_REPAIR (R255): a marked page that its user has freed. With a repair left in its bank the row is repaired,
verified and returned to the pool; else the page is retired. -/
def execHbmRowRepair (t : Nat) (bankLeft : Bool) (s : State) : Res :=
  let k := t / 24576
  if ¬ s.tiers.marked.contains t ∨ ¬ s.pageFree t ∨ t % 24576 < 64 then .next s
  else
    let s1 := { s with tiers := { s.tiers with marked := s.tiers.marked.filter (· ≠ t), corrected := serase s.tiers.corrected t } }
    if bankLeft ∧ s1.fget hbm_PPR_USED k < s1.fget hbm_PPR_TOTAL k then
      let s2 := s1.fbump hbm_PPR_USED k 1
      let s3 := s2.fset (hdr_SUB_USED 0x16) k (min 255 (s2.fget hbm_PPR_USED k))
      .next ((s3.writeConfig (0x1000000 + t) 2).spareSwitched 0x16 k 0 (t % 24576) (s3.fget hbm_PPR_USED k))
    else
      let s2 := { s1 with
        tiers := { s1.tiers with retired := t :: s1.tiers.retired }
        eflash := { s1.eflash with retirements := s1.eflash.retirements ++ [(0x16, k, t % 24576)] } }
      .next ((s2.err 0x16 k [9] (t % 24576)).recEv 0x16 k 0x0608 ([0x16, k] ++ le (t % 24576) 2))

/-- A pseudo-channel is retired already. -/
def State.pcRetired (s : State) (k p : Nat) : Bool := bit (s.fget hbm_PC_RETIRED_LO k + 2 ^ 32 * s.fget hbm_PC_RETIRED_HI k) p

/-- HBM_PSEUDO_CHANNEL_RETIRE (R256, Table 17-1): a pseudo-channel classified as permanently faulty, or, `train`, one whose training fails while its
controller starts: the stack takes no new user and its placement copies are dropped. -/
def execHbmPseudoChannelRetire (k p : Nat) (s : State) (train : Bool := false) : Res :=
  if 8 ≤ k ∨ 64 ≤ p ∨ ¬ s.planesOn ∨ s.pcRetired k p ∨
      ¬ (s.units.retiring.contains (pcKey k p) ∨ (train ∧ s.fget (hdr_STATE 0x16) k = 1)) then .next s
  else
    let s1 := if p < 32 then s.fsetBit hbm_PC_RETIRED_LO k p else s.fsetBit hbm_PC_RETIRED_HI k (p - 32)
    .next (((s1.recordRetirement 0x16 k p).smartAdd 16 1).dropCopies fun tk => match sget? s1.tiers.copies tk with
      | some c => c.t1 / 24576 == k
      | none => false)

/-- A heat store halved; counters that reach 0 go. -/
def halve (m : Store Nat) : Store Nat := (m.map fun p => (p.1, p.2 / 2)).filter fun p => p.2 ≠ 0

/-- HEAT_DECAY (R257): the decay period has ended. -/
def execHeatDecay (s : State) : Res :=
  if ¬ s.planesOn ∨ s.tick < s.tiers.decayTick + ticksMs (max 1 (s.fget glob_HEAT_DECAY_MS 0)) then .next s
  else .next { s with tiers := { s.tiers with
    heat1 := halve s.tiers.heat1, heat2 := halve s.tiers.heat2, decayTick := s.tick } }

/-- T2 page `tk` exists: one for each 2 MiB of an NVM namespace (R250). -/
def State.t2Page (s : State) (tk : Nat) : Bool :=
  match sget? s.host.namespaces (tk / 2 ^ 32) with
  | some n => n.kind == .nvm && decide (tk % 2 ^ 32 < n.units)
  | none => false

/-- The T2 pages that may be promoted: heat at least PROMOTE_MIN and no copy, hottest first, then by namespace and page
(R258). -/
def State.candidates (s : State) : List (Nat × Nat) :=
  (s.tiers.heat2.filter fun p => s.t2Page p.1 && max 1 (s.fget glob_PROMOTE_MIN 0) ≤ p.2 && (sget? s.tiers.copies p.1).isNone).mergeSort fun a b =>
    decide (b.2 < a.2 ∨ (a.2 = b.2 ∧ a.1 ≤ b.1))

/-- The usable stack with the most free pages, the lowest on a tie. -/
def State.freestStack (s : State) : Nat :=
  (List.range 8).foldl (fun b k => if s.stackRetired b ∨ (s.freeCountOf b < s.freeCountOf k ∧ ¬ s.stackRetired k) then k else b) 0

/-- A copy of T2 page `tk` begins in T1 page `t`. -/
def State.beginCopy (s : State) (tk t : Nat) : State :=
  { s with tiers := { s.tiers with
    copies := sput s.tiers.copies tk { t1 := t, done := false, period := s.tiers.period }
    heat1 := serase s.tiers.heat1 t, hbm := s.tiers.hbm.fill (t1Addr t) tierBytes none } }

/-- One candidate of the placement policy: promoted, or passed over. -/
def State.promote (s : State) (p : Nat × Nat) : Bool × State :=
  let h := sget s.tiers.hint p.1 0
  let k := if h = 0 then s.freestStack else h - 1
  match s.freePages k with
  | t :: _ => (true, s.beginCopy p.1 t)
  | [] => match (s.copiesByHeat k).filter fun c => s.poolUsable c.2 with
    | [] => (false, s)
    | c :: _ => if p.2 ≤ sget s.tiers.heat1 c.2 0 then (false, s) else (true, (s.dropCopy c.1).beginCopy p.1 c.2)

/-- The loop of R258 over the candidates. -/
def promoteAll : List (Nat × Nat) → Nat → State → State
  | [], _, s => s
  | p :: ps, left, s => if left = 0 then s else
    let r := s.promote p
    promoteAll ps (if r.1 then left - 1 else left) r.2

/-- Placement is neither frozen nor paused: no LOCKSTEP run armed, not sanitizing, not in PS3 or PS4 (R259, Table 10-9). -/
def State.placing (s : State) : Bool :=
  s.planesOn && s.fget glob_ARMED 0 == 0 && !s.sanitizing && s.fget glob_PS_EFFECTIVE 0 < 3 && s.globalOn

/-- PLACEMENT_PERIOD (R258): every 100 ms. Copies that the period leaves unfinished are abandoned, then the policy promotes while it is enabled. -/
def execPlacementPeriod (s : State) : Res :=
  if ¬ s.planesOn ∨ s.tick < s.tiers.placeTick + ticksMs 100 then .next s
  else
    let old (tk : Nat) : Bool := match sget? s.tiers.copies tk with
      | some c => !c.done && c.period ≤ s.tiers.period
      | none => false
    let s0 := if s.placing then s.dropCopies old else s
    let s1 := { s0 with tiers := { s0.tiers with placeTick := s.tick, period := s.tiers.period + 1 } }
    .next (if s1.placing ∧ s1.fget glob_PLACE_ENABLE 0 = 1 then promoteAll s1.candidates (s1.fget glob_PROMOTE_MAX 0) s1 else s1)

/-- PLACEMENT_COPY_COMPLETE (R258): the copy of T2 page `tk` holds the page and serves reads. Its reads are background
work (R28). -/
def execPlacementCopyComplete (tk : Nat) (s : State) : Res :=
  match sget? s.tiers.copies tk with
  | none => .next s
  | some c =>
    if c.done ∨ ¬ s.placing then .next s
    else
      let ius := (List.range 128).map fun i => iuKey (tk / 2 ^ 32) (tk % 2 ^ 32 * 128 + i)
      let s1 := (s.countReads ius []).work 64 16 (s.flashBytes ius)
      let s2 := { s1 with tiers := { s1.tiers with copies := sput s1.tiers.copies tk { c with done := true } } }
      .next (s2.fset64 glob_PROMOTIONS_LO glob_PROMOTIONS_HI 0 (s2.fget64 glob_PROMOTIONS_LO glob_PROMOTIONS_HI 0 + 1))

end Sys2Proof.Machine
end

