-- ==== Sys2Proof/Machine/Puu.lean ====
section
/-!
DEFINITION. The Parameter Update Unit: tensor tables and their decode checks, the update rule, completion, faults and
the self-test (12_parameter_update.md, R306 to R332).
-/

namespace Sys2Proof.Machine

/-! ### Tensor tables (Tables 12-2, 12-3) -/

/-- Entry `e` of a table: its 64 bytes. -/
def tabEntry (t : List Byte) (e : Nat) : List Byte := (t.drop (64 * (e + 1))).take 64
/-- Entries of a table. -/
def tabCount (t : List Byte) : Nat := t.length / 64 - 1

def teKind (e : List Byte) : Nat := fld e 0 1
def teFrozen (e : List Byte) : Bool := bit (fld e 1 1) 0
def teNoDecay (e : List Byte) : Bool := bit (fld e 1 1) 1
def teThaw (e : List Byte) : Bool := bit (fld e 1 1) 2
def tePFmt (e : List Byte) : Nat := fld e 2 1
def teGFmt (e : List Byte) : Nat := fld e 3 1
def teState (e : List Byte) : Nat := fld e 4 1 % 16
def teGrad (e : List Byte) : Nat := fld e 4 1 / 16
def teExp (e : List Byte) : Nat := fld e 5 1
def teN (e : List Byte) : Nat := fld e 8 4
def teM (e : List Byte) : Nat := fld e 12 4
def teTouched (e : List Byte) : Nat := fld e 16 4
def teP (e : List Byte) : Nat := fld e 24 8
def teMom (e : List Byte) : Nat := fld e 32 8
def teV (e : List Byte) : Nat := fld e 40 8
def teG (e : List Byte) : Nat := fld e 48 8
def teAux (e : List Byte) : Nat := fld e 56 8

/-- Bytes of a parameter record: exponent bytes for EXP (R307, R311). -/
def tePRec (e : List Byte) : Nat := if teKind e = 3 then teM e else recordLen (tePFmt e) (teM e)
/-- Records of the gradient (R311). -/
def teGRecs (e : List Byte) : Nat := if teKind e = 2 then teTouched e else teN e
/-- The next 4-byte boundary. -/
def up4 (n : Nat) : Nat := ceilDiv n 4 * 4
/-- FP16 values ahead of the counts in the V region, and its bytes (R311). -/
def teVNum (e : List Byte) : Nat := if teKind e = 0 then teN e + teM e else if teKind e = 2 then teN e else teN e * teM e
def teVLen (e : List Byte) : Nat := up4 (2 * teVNum e) + (if teKind e = 2 then 4 * teN e else 4)
def teMLen (e : List Byte) : Nat := teN e * recordLen 4 (teM e)

/-- Bytes of a namespace address padded to whole logical blocks (R311). -/
def State.nvmPad (s : State) (a n : Nat) : Nat :=
  match sget? s.host.namespaces (a / 2 ^ 48 % 256) with
  | some x => ceilDiv n (lbaBytes x.lbaf) * lbaBytes x.lbaf
  | none => n

/-- A region of a tensor: kind, address, bytes; written, and held for the parameter or the state. -/
structure TRegion where
  kind : Nat
  addr : Nat
  len : Nat
  write : Bool

/-- The parameter region of an entry. -/
def teParam (e : List Byte) : TRegion := { kind := 1, addr := teP e, len := teN e * tePRec e, write := true }

/-- First-moment and second-moment regions. -/
def State.teStateRegions (s : State) (e : List Byte) : List TRegion :=
  let len (a n : Nat) : Nat := if teState e = 4 then s.nvmPad a n else n
  [{ kind := teState e, addr := teMom e, len := len (teMom e) (teMLen e), write := true },
   { kind := teState e, addr := teV e, len := len (teV e) (teVLen e), write := true }]

/-- Every region of an entry; a FROZEN entry uses its parameter region only (R324). -/
def State.teRegions (s : State) (e : List Byte) : List TRegion :=
  if teFrozen e then [teParam e]
  else (teParam e :: s.teStateRegions e) ++
    [{ kind := teGrad e, addr := teG e, len := teGRecs e * recordLen (teGFmt e) (teM e), write := false }] ++
    (if teKind e = 2 then [{ kind := teGrad e, addr := teAux e, len := 4 * teTouched e, write := false }]
     else if teKind e = 3 then [{ kind := 1, addr := teAux e, len := 2 * teN e * teM e, write := true }] else [])

def TRegion.span (r : TRegion) : Span := { kind := r.kind, lo := r.addr, hi := r.addr + r.len - 1, write := r.write }

/-! ### Decode checks (Table 12-7) -/

/-- A header FP32 field: finite and not negative. -/
def posF32 (x : Nat) : Bool := !(dec32 x).nonFinite && !Fv.lt (dec32 x) (.ofInt 0)

/-- Header values under R308. -/
def headerOk (t : List Byte) : Bool :=
  (List.range 7).all (fun k => posF32 (fld t (4 * k) 4)) && Fv.lt (dec32 (fld t 4 4)) (.ofInt 1) &&
  Fv.lt (dec32 (fld t 8 4)) (.ofInt 1) && fld t 28 1 < 2 && zeros t 29 35

/-- Codes, kinds, formats and ranges of one entry under Tables 12-1, 12-3 and 12-4; of a FROZEN entry only those that
its parameter region rests on. -/
def entryOk (e : List Byte) : Bool :=
  let k := teKind e
  let par : Bool := if k = 3 then tePFmt e == 0 else [0xC, 0xA, 1, 2, 3, 4].contains (tePFmt e)
  k ≤ 3 && fld e 1 1 < 8 && !(teFrozen e && teThaw e) && par &&
  1 ≤ teN e && teN e ≤ 65536 && 1 ≤ teM e && teM e ≤ 65536 &&
  (teFrozen e || ([3, 4, 5].contains (teGFmt e) && (teState e == 1 || teState e == 4) && teGrad e ≤ 1 &&
    (if k = 3 then teExp e ≤ 1 else teExp e == 0) && zeros e 6 2 && zeros e 20 4 &&
    (if k = 2 then teTouched e ≤ teN e else teTouched e == 0) && (k == 2 || k == 3 || teAux e == 0)))

/-- Alignment under R311 and R321, and stacks of Hob `h` only (R306). -/
def State.entryPlaced (s : State) (h : Nat) (e : List Byte) : Bool :=
  (s.teRegions e).all (fun r => r.kind != 1 || r.addr / 2 ^ 38 == h) &&
  (if teFrozen e then teP e % 65536 == 0 && (teParam e).len % 65536 == 0
   else teState e != 4 || [teMom e, teV e].all fun a => match sget? s.host.namespaces (a / 2 ^ 48 % 256) with
     | some x => a % 2 ^ 48 % lbaBytes x.lbaf == 0
     | none => true)

/-- Two regions share a byte. -/
def TRegion.meets (a b : TRegion) : Bool :=
  a.kind == b.kind && a.len != 0 && b.len != 0 && decide (a.addr < b.addr + b.len) && decide (b.addr < a.addr + a.len)

/-- The entries of a table. -/
def tabEntries (t : List Byte) : List (List Byte) := (List.range (tabCount t)).map (tabEntry t)

/-- Statistics entries that the MATRIX tensors of a table use (R324). -/
def statsOf (t : List Byte) : Nat := ((tabEntries t).map fun e => if teKind e = 0 ∧ ¬ teFrozen e then teN e + teM e else 0).sum

/-- Check 6: header, entries, places, overlaps, statistics. -/
def State.tableOk (s : State) (h : Nat) (t : List Byte) : Bool :=
  let es := tabEntries t
  headerOk t && es.all entryOk && es.all (s.entryPlaced h) && statsOf t ≤ 1048576 &&
  (List.range es.length).all fun i => (List.range i).all fun j =>
    !(s.teRegions (es.getD i [])).any fun a => (s.teRegions (es.getD j [])).any fun b => a.meets b

/-- Check 7: a region lies where the context may use it: working pages, data macro-groups, an attached namespace. -/
def State.tRegionOk (s : State) (d : Desc) (r : TRegion) : Bool :=
  r.len == 0 ||
  (if r.kind = 0 then s.holdsSb d.c d.h r.addr (r.addr + r.len - 1)
   else if r.kind = 1 then (pagesOfRange r.addr r.len).all fun t => d.x.pages.any fun q => q.1 == 1 && q.2 == t
   else s.spanRange d r.span)

/-- 64 KiB granules that a region meets (R321). -/
def TRegion.granules (r : TRegion) : List Nat :=
  if r.len = 0 then [] else (List.range ((r.addr + r.len - 1) / 65536 - r.addr / 65536 + 1)).map (r.addr / 65536 + ·)

/-- Granules that the FROZEN entries of a table mark. -/
def frozenBy (t : List Byte) : List Nat := ((tabEntries t).filter teFrozen).flatMap fun e => (teParam e).granules
/-- Granules that its THAW entries clear. -/
def thawedBy (t : List Byte) : List Nat := ((tabEntries t).filter fun e => teThaw e && !teFrozen e).flatMap fun e => (teParam e).granules

/-- Check 9: an updated entry without THAW meets a frozen granule. A FROZEN entry writes nothing and is not held to it
(DEDUCED, log 19). -/
def State.meetsFrozen (s : State) (t : List Byte) : Bool :=
  let marks := s.tiers.frozen ++ frozenBy t
  (tabEntries t).any fun e => !teFrozen e && !teThaw e && (teParam e :: s.teStateRegions e).any fun r =>
    r.kind == 1 && r.granules.any marks.contains

/-- The checks of Table 12-7 from 6 on: fault code and case. -/
def State.tensorCheck (s : State) (d : Desc) (t : List Byte) : Option (Nat × Nat) :=
  let rs := (tabEntries t).flatMap s.teRegions
  (if s.tableOk d.h t then none else some (0x4E, 0))
  |>.orElse (fun _ => if rs.all (s.tRegionOk d) then none else some (0x46, 0))
  |>.orElse (fun _ => (rs.filter fun r => r.kind == 4).findSome? fun r => s.spanMedia r.span)
  |>.orElse (fun _ => if s.meetsFrozen t then some (0x24, 0) else none)
  |>.orElse (fun _ => if (rs.filter fun r => r.kind == 4).any fun r => s.spanLocked r.span || (s.spanLocked { r.span with write := false })
      then some (0x54, 0) else none)
  |>.orElse (fun _ => ((rs.filter fun r => r.kind == 4).findSome? fun r => s.spanDomain d.c r.span).map fun k => (k, 0))
  |>.orElse (fun _ => if rs.any fun r => s.linkLost d r.span then some (0x4D, 0) else none)

/-! ### Issue -/

def puTabSel (w : Nat) : Nat := bits w 12 3
def puTabOff (w : Nat) : Nat := 64 * bits w 15 14
def puTensors (w : Nat) : Nat := bits w 29 7

/-- The steps of a Hob's PUU. -/
def State.puuSteps (s : State) (h : Nat) : List PuuStep := sget s.units.puu h []
def State.setPuu (s : State) (h : Nat) (q : List PuuStep) : State :=
  { s with units := { s.units with puu := sput s.units.puu h q } }

/-- The page follows the step that now runs (Table 12-10). -/
def State.showStep (s : State) (h : Nat) : State :=
  match s.puuSteps h with
  | [] => s
  | k :: _ =>
    ((((s.fset puu_GRAIN h (b2n k.layer)).fset puu_PASS h 0).fset puu_TENSOR h 0).fset puu_RECORD h 0).fset puu_DESC_INDEX h k.index

/-- The SB macro-groups that a step reads. -/
def State.puuGroups (s : State) (t : List Byte) : List Nat :=
  ((tabEntries t).flatMap s.teRegions).flatMap fun r => if r.kind = 0 ∧ r.len ≠ 0 then groupsOfHull r.addr (r.addr + r.len - 1) else []

/-- Frozen marks after the decode of a table (R321, R322). -/
def State.markFrozen (s : State) (t : List Byte) : State :=
  let f := s.tiers.frozen.filter fun g => !(thawedBy t).contains g
  { s with tiers := { s.tiers with frozen := f ++ ((frozenBy t).filter fun g => !f.contains g).eraseDups } }

/-- The regions of HBM that a step writes are noted (R160). -/
def State.noteStep (s : State) (c : Nat) (t : List Byte) : State :=
  ((tabEntries t).filter (!teFrozen ·)).foldl (fun u e =>
    ((u.teRegions e).filter fun r => r.write && r.kind == 1).foldl (fun v r => v.noteWrite c 1 r.addr r.len) u) s

/-- PUU_STEP (R323, R324): the tensor table is fetched, the checks of Table 12-7 are made in order, marks of FROZEN and
THAW entries take effect, and the step is queued at the grain of R93. -/
def execPuuStep (c h : Nat) (s : State) : Res :=
  s.onDesc c h 0x28 fun d =>
    let n := puTensors d.w
    if bits d.w 36 68 ≠ 0 ∨ n = 0 ∨ 64 < n then s.descFault d 0x01 0 0x18 h
    else match s.tableSource d (puTabSel d.w) (puTabOff d.w) (64 * (n + 1)) with
    | none => s.descFault d 0x01 0 0x18 h
    | some a =>
      if a % 64 ≠ 0 then s.descFault d 0x01 0 0x18 h
      else if s.variant ≠ .x then s.descFault d 0x03 12 0x18 h
      else if s.fget (hdr_STATE 0x18) h = 5 ∧ d.x.req.unit h 5 then s.descFault d 0x4C 0 0x18 h
      else if s.fget (hdr_STATE 0x18) h ≠ 2 then s.descFault d 0x20 0 0x18 h
      else if ¬ d.x.req.unit h 5 then s.descFault d 0x04 20 0x18 h
      else
        let t := s.sbRead h a (64 * (n + 1))
        match s.tensorCheck d t with
        | some (code, case) =>
          let s1 := if code = 0x4E then s.err 0x18 h [10] 0 c else s
          s1.descFault d code case 0x18 h
        | none =>
          if s.portBound h false (s.puuGroups t) then s.waitPorts d
          else if s.fget (hdr_DRAIN 0x18) h = 1 then s
          else
            let layer : Bool := s.grainForced || d.x.resumed
            let k : PuuStep := { ctx := c, index := d.i, ser := d.t.ser, table := t, layer := layer }
            let nvm : Bool := (tabEntries t).any fun e => !teFrozen e && teState e == 4
            let ws := ((tabEntries t).flatMap s.teRegions).map TRegion.span
            let s1 := ((s.markFrozen t).bind d false (s.puuGroups t)).takeWriter c ws
            let s2 := s1.setPuu h (s1.puuSteps h ++ [k])
            let s3 := (s2.issue d (if nvm then 4 else 15) true).noteStep c t
            let s4 := match s3.ctx? c with
              | some x => s3.setCtx c { x with resumed := false }
              | none => s3
            if s.puuSteps h = [] then s4.showStep h else s4

/-! ### The update rule (R312 to R316): every operation is one FP32 operation -/

/-- A value rounded to FP32, RNE, subnormal results flushed. -/
def f32v (v : Fv) : Fv := dec32 (enc32 v)
def vAdd (a b : Fv) : Fv := f32v (Fv.add a b)
def vSub (a b : Fv) : Fv := f32v (Fv.add a (Fv.neg b))
def vMul (a b : Fv) : Fv := f32v (Fv.mul a b)
def vDiv (a b : Fv) : Fv := f32v (Fv.div a b)
def vOne : Fv := .ofInt 1
def vNat (n : Nat) : Fv := .fin false n 1

/-- pow(β, t): the bits of `t` from bit `k - 1` downwards (R312). -/
def vPow (b : Fv) (t : Nat) : Nat → Fv → Fv
  | 0, a => a
  | k + 1, a =>
    let q := vMul a a
    vPow b t k (if bit t k then vMul q b else q)

/-- The header of a table. -/
structure Hyper where
  lr : Fv
  b1 : Fv
  b2 : Fv
  eps : Fv
  clip : Fv
  decay : Fv
  gs : Fv
  bias : Bool

def hyper (t : List Byte) : Hyper :=
  let f (k : Nat) : Fv := dec32 (fld t (4 * k) 4)
  { lr := f 0, b1 := f 1, b2 := f 2, eps := f 3, clip := f 4, decay := f 5, gs := f 6, bias := bit (fld t 28 1) 0 }

/-- 1 − β^t with bias correction, else 1. -/
def Hyper.corr (p : Hyper) (b : Fv) (t : Nat) : Fv := if p.bias then vSub vOne (vPow b t (Nat.log2 t + 1) vOne) else vOne

/-- β2 × old + (1 − β2) × mean, as FP16: the pattern and whether it saturated. -/
def Hyper.stat (p : Hyper) (old : Nat) (mean : Fv) : Nat × Bool :=
  enc16sat (vAdd (vMul p.b2 (dec16 old)) (vMul (vSub vOne p.b2) mean))

/-- min(max(u, −clip), clip). -/
def clipV (u c : Fv) : Fv :=
  let a := if Fv.lt u (Fv.neg c) then Fv.neg c else u
  if Fv.lt c a then c else a

/-- One element of pass B: the new first moment and parameter, before they are rounded to their formats. -/
def Hyper.element (p : Hyper) (b1 b2 : Fv) (noDecay : Bool) (g vv m w : Fv) : Fv × Fv :=
  let vh := vDiv vv b2
  let u0 := if vh.isZero then .ofInt 0 else vDiv g (f32v (Fv.sqrt vh))
  let u := if Fv.lt (.ofInt 0) p.clip then clipV u0 p.clip else u0
  let mm := vAdd (vMul p.b1 m) (vMul (vSub vOne p.b1) u)
  let d0 := vDiv mm b1
  let d := if noDecay then d0 else vAdd d0 (vMul p.decay w)
  (mm, vSub w (vMul p.lr d))

/-- An infinity replaced by the largest FP32 magnitude; the flag says so (R310). -/
def noInf (v : Fv) : Fv × Bool :=
  match v with
  | .inf neg => (dec32 ((if neg then 2 ^ 31 else 0) + 0x7F7FFFFF), true)
  | x => (x, false)

/-- A record written to a format with a rounding mode for each element: its bytes and the elements saturated (R310). -/
def putRecord (f : Nat) (xs : List (Fv × Rnd)) : List Byte × Nat :=
  let ys := xs.map fun x => (noInf x.1, x.2)
  let infs := ys.map fun y => y.1.2
  if f = 0xC then (packElems 32 (ys.map fun y => enc32 y.1.1), (infs.filter id).length)
  else if f = 0xA then
    let cs := ys.map fun y => match y.1.1 with
      | .nan => (fmtB16.qnan, false)
      | v => let r := fmtB16.encSat 0x7F7F y.2 v
             (flushB16 r.1, r.2)
    (packElems 16 (cs.map Prod.fst), ((cs.zip infs).filter fun c => c.1.2 || c.2).length)
  else
    let r := convertVector f 0 (ys.map fun y => (y.1.1, y.2))
    (r.1, ((r.2.zip infs).filter fun c => c.1.sat || c.2).length)

/-- An FP16 record (EXP master). -/
def put16 (xs : List (Fv × Rnd)) : List Nat × Nat :=
  let cs := xs.map fun x => enc16sat x.1 x.2
  (cs.map Prod.fst, (cs.filter Prod.snd).length)

/-- The byte of an EXP element: RNE of the master, clamped to the range of EXP_CODE. -/
def expByte (code : Nat) (m : Nat) : Byte :=
  let r := (dec16 m).round .rne
  if code = 0 then BitVec.ofNat 8 (unsigned (clampI (-128) 127 r) 8) else BitVec.ofNat 8 (clampI 0 254 r).toNat

/-- The seed of stream `k` of a tensor (R316): 0 parameter, 1 first moment, 2 EXP master. -/
def puuSeed (r : TaskRegs) (tensor h k : Nat) : Nat :=
  lfsrSeed r.seed (tensor % 64 + h * 2 ^ 6 + k * 2 ^ 8 + r.yieldSeed * 2 ^ 23 + 2 * 2 ^ 40)

/-- The 32-bit words of a byte list. -/
def words32 (bs : List Byte) : List Nat := unpack 32 (bs.length / 4) bs
def words16 (bs : List Byte) : List Nat := unpack 16 (bs.length / 2) bs

/-- A count raised with saturation (R310). -/
def sat32 (n : Nat) : Nat := min n (2 ^ 32 - 1)

/-- What a step reads of a tensor: gradient records, parameter records, first-moment records, second-moment patterns,
step counts, touched list, masters, each as the formats decode them. -/
structure TIn where
  g : List (List Fv)
  w : List (List Fv)
  m : List (List Fv)
  v : List Nat
  cnt : List Nat
  touched : List Nat
  aux : List (List Nat)

/-- Bytes of a region. -/
def State.tRead (s : State) (h kind a n : Nat) : List Byte :=
  if kind = 0 then s.sbRead h a n else if kind = 1 then s.tiers.hbm.readN a n
  else s.nvmRead (a / 2 ^ 48 % 256) (a % 2 ^ 48) n

/-- Records of a byte list, each of `len` bytes. -/
def records (n len : Nat) (bs : List Byte) : List (List Byte) := (List.range n).map fun i => (bs.drop (i * len)).take len

/-- The operands of a tensor as they lie in memory. -/
def State.tensorIn (s : State) (h : Nat) (e : List Byte) : TIn :=
  let n := teN e
  let m := teM e
  let vals (f k len : Nat) (bs : List Byte) : List (List Fv) := (records k len bs).map (recordValues f m 0)
  let vb := s.tRead h (teState e) (teV e) (teVLen e)
  let aux := if teKind e = 3 then (records n (2 * m) (s.tRead h 1 (teAux e) (2 * n * m))).map words16 else []
  { g := vals (teGFmt e) (teGRecs e) (recordLen (teGFmt e) m) (s.tRead h (teGrad e) (teG e) (teGRecs e * recordLen (teGFmt e) m))
    w := if teKind e = 3 then aux.map fun r => r.map dec16
         else vals (tePFmt e) n (tePRec e) (s.tRead h 1 (teP e) (n * tePRec e))
    m := vals 4 n (recordLen 4 m) (s.tRead h (teState e) (teMom e) (teMLen e))
    v := words16 (vb.take (2 * teVNum e))
    cnt := words32 (vb.drop (up4 (2 * teVNum e)))
    touched := if teKind e = 2 then words32 (s.tRead h (teGrad e) (teAux e) (4 * teTouched e)) else []
    aux := aux }

/-- Row and column statistics of pass A and the number that saturated (R313). -/
def passA (p : Hyper) (n m : Nat) (x : TIn) : List Nat × List Nat × Nat :=
  let gs : List (List Fv) := x.g.map fun r => r.map fun g => vMul g p.gs
  let sq : List (List Fv) := gs.map fun r => r.map fun g => vMul g g
  let s : List Fv := sq.map fun r => r.foldl vAdd (.ofInt 0)
  let q : List Fv := sq.foldl (fun a r => (a.zip r).map fun z => vAdd z.1 z.2) (List.replicate m (.ofInt 0))
  let rs := (s.zip (x.v.take n)).map fun z => p.stat z.2 (vAdd (vDiv z.1 (vNat m)) p.eps)
  let cs := (q.zip (x.v.drop n)).map fun z => p.stat z.2 (vAdd (vDiv z.1 (vNat n)) p.eps)
  (rs.map Prod.fst, cs.map Prod.fst, ((rs ++ cs).filter Prod.snd).length)

/-- The running state of pass B: seeds of the three streams, saturations, and the records written so far: parameter
bytes, first-moment bytes, second-moment patterns, masters, by record number. -/
structure PassB where
  seedP : Nat
  seedM : Nat
  seedX : Nat
  sat : Nat
  par : List (Nat × List Byte)
  mom : List (Nat × List Byte)
  v : List (Nat × List Nat)
  aux : List (Nat × List Nat)
  cnt : List (Nat × Nat)

/-- One record of pass B: record number, gradient values (scaled), second moments of its elements with the patterns
written for it, and the corrections. -/
def PassB.record (b : PassB) (p : Hyper) (e : List Byte) (x : TIn) (i : Nat) (g vv : List Fv) (b1 b2 : Fv) : PassB :=
  let m := teM e
  let es := ((g.zip vv).zip ((x.m.getD i []).zip (x.w.getD i []))).map fun z =>
    p.element b1 b2 (teNoDecay e) z.1.1 z.1.2 z.2.1 z.2.2
  let rm := rndRun true m b.seedM
  let mo := putRecord 4 ((es.map Prod.fst).zip rm.1)
  if teKind e = 3 then
    let rx := rndRun true m b.seedX
    let ma := put16 ((es.map Prod.snd).zip rx.1)
    { b with seedM := rm.2, seedX := rx.2, sat := b.sat + mo.2 + ma.2, mom := b.mom ++ [(i, mo.1)], aux := b.aux ++ [(i, ma.1)]
             par := b.par ++ [(i, ma.1.map (expByte (teExp e)))] }
  else
    let rp := rndRun true m b.seedP
    let pa := putRecord (tePFmt e) ((es.map Prod.snd).zip rp.1)
    { b with seedM := rm.2, seedP := rp.2, sat := b.sat + mo.2 + pa.2, mom := b.mom ++ [(i, mo.1)], par := b.par ++ [(i, pa.1)] }

/-- Pass B of a tensor (R313 to R315), from the statistics of pass A where it is MATRIX. -/
def passB (p : Hyper) (r : TaskRegs) (tensor h : Nat) (e : List Byte) (x : TIn) (rs cs : List Nat) : PassB :=
  let n := teN e
  let m := teM e
  let b0 : PassB := { seedP := puuSeed r tensor h 0, seedM := puuSeed r tensor h 1, seedX := puuSeed r tensor h 2, sat := 0,
                      par := [], mom := [], v := [], aux := [], cnt := [] }
  let gsc (k : Nat) : List Fv := (x.g.getD k []).map fun g => vMul g p.gs
  if teKind e = 2 then
    x.touched.zipIdx.foldl (fun b ik =>
      let i := ik.1
      let g := gsc ik.2
      let t := sat32 (x.cnt.getD i 0 + 1)
      let mean := vDiv ((g.map fun y => vMul y y).foldl vAdd (.ofInt 0)) (vNat m)
      let st := p.stat (x.v.getD i 0) (vAdd mean p.eps)
      let b1 := b.record p e x i g (List.replicate m (dec16 st.1)) (p.corr p.b1 t) (p.corr p.b2 t)
      { b1 with v := b1.v ++ [(i, [st.1])], cnt := b1.cnt ++ [(i, t)], sat := b1.sat + b2n st.2 }) b0
  else
    let t := sat32 (x.cnt.getD 0 0 + 1)
    let c1 := p.corr p.b1 t
    let c2 := p.corr p.b2 t
    let rbar := vDiv ((rs.map dec16).foldl vAdd (.ofInt 0)) (vNat n)
    let b := (List.range n).foldl (fun b i =>
      let g := gsc i
      if teKind e = 0 then
        -- vv = r × c ÷ rbar; rbar = 0 gives vh = 0
        let vv := cs.map fun c => if rbar.isZero then .ofInt 0 else vDiv (vMul (dec16 (rs.getD i 0)) (dec16 c)) rbar
        b.record p e x i g vv c1 c2
      else
        let st := (g.zip (x.v.drop (i * m))).map fun z => p.stat z.2 (vAdd (vMul z.1 z.1) p.eps)
        let b1 := b.record p e x i g (st.map fun q => dec16 q.1) c1 c2
        { b1 with v := b1.v ++ [(i, st.map Prod.fst)], sat := b1.sat + (st.filter Prod.snd).length }) b0
    { b with cnt := [(0, t)] }

/-- The writes of an updated tensor as (kind, address, bytes), and the elements that saturated. NVM state is written
whole, padded with zero bytes to whole logical blocks (R311). -/
def State.tensorOut (s : State) (p : Hyper) (r : TaskRegs) (tensor h : Nat) (e : List Byte) : List (Nat × Nat × List Byte) × Nat :=
  let x := s.tensorIn h e
  let a := if teKind e = 0 then passA p (teN e) (teM e) x else ([], [], 0)
  let b := passB p r tensor h e x a.1 a.2.1
  let pr := tePRec e
  let mr := recordLen 4 (teM e)
  let vs := if teKind e = 0 then a.1 ++ a.2.1
    else b.v.foldl (fun v k => v.take (k.1 * (teVNum e / teN e)) ++ k.2 ++ v.drop (k.1 * (teVNum e / teN e) + k.2.length)) x.v
  let cnt := b.cnt.foldl (fun c k => setAt c k.1 k.2) x.cnt
  let vb := packElems 16 vs ++ List.replicate (up4 (2 * teVNum e) - 2 * teVNum e) 0 ++ packElems 32 cnt
  let st := if teState e = 4 then
      let mb := b.mom.foldl (fun m k => m.take (k.1 * mr) ++ k.2 ++ m.drop (k.1 * mr + mr)) (s.tRead h 4 (teMom e) (teMLen e))
      let pad (a : Nat) (bs : List Byte) : List Byte := bs ++ List.replicate (s.nvmPad a bs.length - bs.length) 0
      [(4, teMom e, pad (teMom e) mb), (4, teV e, pad (teV e) vb)]
    else if teKind e = 2 then
      (b.mom.map fun k => (1, teMom e + k.1 * mr, k.2)) ++ (b.v.map fun k => (1, teV e + 2 * k.1, packElems 16 k.2)) ++
        (b.cnt.map fun k => (1, teV e + up4 (2 * teN e) + 4 * k.1, natLE k.2 4))
    else (b.mom.map fun k => (1, teMom e + k.1 * mr, k.2)) ++ [(1, teV e, packElems 16 vs), (1, teV e + up4 (2 * teVNum e), packElems 32 cnt)]
  (st ++ (b.par.map fun k => (1, teP e + k.1 * pr, k.2)) ++ (b.aux.map fun k => (1, teAux e + k.1 * 2 * teM e, packElems 16 k.2)), a.2.2 + b.sat)

/-- Bytes that a tensor moves (Table 12-5). -/
def teBytes (layer : Bool) (e : List Byte) : Nat :=
  let recs := teGRecs e
  let g := recs * recordLen (teGFmt e) (teM e)
  let two := 2 * (recs * recordLen 4 (teM e) + recs * tePRec e + (if teKind e = 3 then 2 * recs * teM e else 0) +
    2 * (if teKind e = 2 then recs else teVNum e) + 4 * (if teKind e = 2 then recs else 1))
  two + g * (if teKind e = 0 ∨ layer then 2 else 1) + 4 * teTouched e * (if layer then 2 else 1)

/-! ### Data faults (R318, R325) -/

/-- The first position at which the touched list is not strictly ascending or names a record of N or more. -/
def touchedBad (n : Nat) : Nat → Option Nat → List Nat → Option Nat
  | _, _, [] => none
  | k, prev, r :: rs =>
    if n ≤ r || (match prev with
      | some q => decide (r ≤ q)
      | none => false) then some k
    else touchedBad n (k + 1) (some r) rs

/-- The first record of a list with a value that is not finite. -/
def badRecord (rs : List (List Fv)) : Option Nat := rs.findIdx? fun r => r.any Fv.nonFinite

/-- What the check pass or pass A of a tensor finds: touched list, gradient, statistics. -/
def checkPass (e : List Byte) (x : TIn) : Option (Nat × Nat) :=
  (if teKind e = 2 then (touchedBad (teN e) 0 none x.touched).map fun k => (0x4E, k) else none)
  |>.orElse (fun _ => (badRecord x.g).map fun k => (0x4F, k))
  |>.orElse (fun _ => if teKind e = 0 ∧ x.v.any (fun v => (dec16 v).nonFinite) then some (0x4F, 0) else none)

/-- What pass B of a tensor finds: parameter, masters and state. -/
def passBCheck (e : List Byte) (x : TIn) : Option (Nat × Nat) :=
  let rs := if teKind e = 2 then x.touched else List.range (teN e)
  let per := teVNum e / teN e
  (rs.findIdx? fun i => (x.w.getD i []).any Fv.nonFinite || (x.m.getD i []).any Fv.nonFinite ||
    (teKind e != 0 && ((x.v.drop (i * per)).take per).any fun v => (dec16 v).nonFinite)).map fun k => (0x4F, k)

/-- The finding at the lower position; the first of two at one position. -/
def firstOf (a b : Option (Nat × Nat)) : Option (Nat × Nat) :=
  match a, b with
  | some x, some y => if y.2 < x.2 then some y else some x
  | some x, none => some x
  | none, y => y

/-- What pass B of a tensor other than MATRIX meets at BLOCK grain, record by record. -/
def blockCheck (e : List Byte) (x : TIn) : Option (Nat × Nat) :=
  firstOf (firstOf (if teKind e = 2 then (touchedBad (teN e) 0 none x.touched).map fun k => (0x4E, k) else none)
    ((badRecord x.g).map fun k => (0x4F, k))) (passBCheck e x)

/-- The first data fault of a step: code, entry, pass B, record or list position. An armed injection on bit 8 makes the
next gradient element non-finite (R329). -/
def State.stepFault (s : State) (h : Nat) (k : PuuStep) : Option (Nat × Nat × Bool × Nat) :=
  let es := (tabEntries k.table).zipIdx.filter fun e => !teFrozen e.1
  let armed : Bool := s.injectLeft 0x18 h 8 != 0
  let a (e : List Byte × Nat) : Option (Nat × Nat × Bool × Nat) :=
    (checkPass e.1 (s.tensorIn h e.1)).map fun f => (f.1, e.2, false, f.2)
  let b (e : List Byte × Nat) : Option (Nat × Nat × Bool × Nat) :=
    (passBCheck e.1 (s.tensorIn h e.1)).map fun f => (f.1, e.2, true, f.2)
  if armed then (es.find? fun e => teGRecs e.1 != 0).map fun e => (0x4F, e.2, !k.layer && teKind e.1 != 0, 0)
  else if k.layer then (es.findSome? a).orElse fun _ => es.findSome? b
  else es.findSome? fun e => if teKind e.1 = 0 then (a e).orElse fun _ => b e
    else (blockCheck e.1 (s.tensorIn h e.1)).map fun f => (f.1, e.2, true, f.2)

/-! ### Completion (R326) -/

/-- The writes of tensors `es` of a step, in table order; the elements saturated are counted. -/
def State.updateTensors (s : State) (h : Nat) (k : PuuStep) (r : TaskRegs) (es : List (List Byte × Nat)) : State :=
  es.foldl (fun t e =>
    let o := t.tensorOut (hyper k.table) r e.2 h e.1
    let t1 := o.1.foldl (fun u w => u.dstWrite k.ctx h w.1 0 [(w.2.1, w.2.2)]) t
    t1.fbump puu_SATURATED h o.2) s

/-- Staging slots that the NVM state of a step needs. -/
def State.stepRoom (s : State) (t : List Byte) : Bool :=
  s.stagingRoom 4 ((((tabEntries t).filter (!teFrozen ·)).flatMap s.teStateRegions).filterMap fun r =>
    if r.kind = 4 then some (r.addr, r.len) else none)

/-- IUs that a step reads: the NVM state of its tensors. -/
def State.stepReads (s : State) (t : List Byte) : List Nat :=
  ((tabEntries t).filter (!teFrozen ·)).flatMap fun e => (s.teStateRegions e).flatMap fun r =>
    if r.kind = 4 then iusOf (r.addr / 2 ^ 48 % 256) (r.addr % 2 ^ 48) r.len else []

/-- The step leaves its PUU; the next one runs. -/
def State.endStep (s : State) (h : Nat) : State := (s.setPuu h (s.puuSteps h).tail).showStep h

/-- A self-test begins (R328). -/
def State.beginSelfTest (s : State) (h : Nat) : State :=
  ((s.fset puu_SELF_TEST_BUSY h 1).fset puu_SELF_TEST_DONE h 0).fset puu_SELF_TEST_PASS h 0

/-- A step stops at entry `e`, in pass B or before it, at record `r` (Tables 12-8, 12-9): what it wrote of earlier tensors stays. A residue mismatch,
a buffer error or a stall reruns the self-test (R328); the second buffer error within 24 hours retires the unit (R469). `kind` as in
PUU_STEP_FAULT. -/
def State.failStep (s : State) (h : Nat) (k : PuuStep) (t : Task) (kind code e : Nat) (b : Bool) (r : Nat) : State :=
  let info := e % 64 + 64 * b2n b + 256 * (r % 2 ^ 24)
  let done := (tabEntries k.table).zipIdx.filter fun x => !teFrozen x.1 && x.2 < e
  let s1 := if b ∨ ¬ k.layer then s.updateTensors h k (t.regs h) done else s
  let s2 := ((s1.fset puu_TENSOR h e).fset puu_RECORD h r).fset puu_PASS h (b2n b)
  let s3 := if kind = 5 then s2.faultUnit 0x18 h 1 info k.ctx
    else s2.err 0x18 h (if code = 0x4E then [10] else if code = 0x4F then [8] else if kind = 3 then [9] else [3]) info k.ctx
  let s4 := s3.faultCtx k.ctx { code := code, index := k.index, hob := h, ucls := 0x18, uinst := h, info := info }
  let ev := s4.countEvent 15 h dayTicks
  let s5 := if kind ≠ 4 ∨ s.injectLeft 0x18 h 3 ≠ 0 then s4 else if 2 ≤ ev.1 then ev.2.condemnUnit 0x18 h 3 else ev.2
  if 3 ≤ kind then s5.beginSelfTest h else s5

/-- What stops a step that would complete: the media mode forbids what it still has to have accepted (R89 to R91, R100); it reads a retired
pseudo-channel (R256); or an armed injection corrupts it (R72). -/
def State.stepStopped (s : State) (h : Nat) (k : PuuStep) (t : Task) : Option State :=
  let es := (tabEntries k.table).zipIdx.filter fun e => !teFrozen e.1
  let media := (es.flatMap fun e => s.teRegions e.1).findSome? fun r => if r.kind = 4 then s.spanMedia r.span else none
  let lost := es.find? fun e => (s.teRegions e.1).any fun r => r.kind == 1 && r.len != 0 && s.hitsRetired r.addr r.len
  match media, lost, s.armed 0x18 h [3, 9] with
  | some f, _, _ => some (s.faultCtx k.ctx { code := f.1, index := k.index, case := f.2, hob := h, ucls := 0x18, uinst := h })
  | none, some e, _ => some (s.failStep h k t 1 0x4A e.2 true 0)
  | none, none, some b =>
    let (n, u) := s.draw
    some (u.failStep h k t (if b = 3 then 4 else 3) 0x50 ((es.map Prod.snd).headD 0) false (n % 2 ^ 24))
  | none, none, none => none

/-- What a step that completes leaves (R325 to R329): its tensors, its counters, RESULT with the tensors updated and skipped, and the flags of its
task. -/
def State.runStep (s : State) (h : Nat) (k : PuuStep) (t : Task) : State :=
  let es := (tabEntries k.table).zipIdx
  let up := es.filter fun e => !teFrozen e.1
  let skip := es.length - up.length
  let bytes := 64 * (1 + es.length) + (up.map fun e => teBytes k.layer e.1).sum
  let reads := s.stepReads k.table
  let s0 := if s.injectLeft 0x18 h 2 = 0 then s else s.err 0x18 h [2] 0 k.ctx
  let s1 := (s0.countReads reads []).work k.ctx 16 (s.flashBytes reads)
  let s2 := s1.updateTensors h k (t.regs h) up
  let s3 := (s2.fset64 puu_FREEZE_SKIP_LO puu_FREEZE_SKIP_HI h (s2.fget64 puu_FREEZE_SKIP_LO puu_FREEZE_SKIP_HI h + skip)).count 0x18 h 2 skip
  let s4 := (s3.fset64 puu_STEPS_LO puu_STEPS_HI h (s3.fget64 puu_STEPS_LO puu_STEPS_HI h + 1)).count 0x18 h 1 1
  let s5 := if k.layer then s4.fset64 puu_LAYER_STEPS_LO puu_LAYER_STEPS_HI h (s4.fget64 puu_LAYER_STEPS_LO puu_LAYER_STEPS_HI h + 1) else s4
  let s6 := ((s5.countUnits 0x18 h 0 bytes 64).fset puu_STATS_USED h (statsOf k.table)).setResult k.ctx h (up.length + 65536 * skip)
  let s7 := if skip ≠ 0 then s6.taskFlag k.ctx 1 else s6
  if k.layer then s7.taskFlag k.ctx 2 else s7

/-- PUU_STEP_COMPLETE (R326): the running step of Hob `h`'s PUU, which meets no data fault and can read its NVM state, has written its last byte.
RESULT counts tensors updated and skipped; SKIPS and LAYER_GRAIN mark the task. -/
def execPuuStepComplete (h : Nat) (s : State) : Res :=
  match s.puuSteps h with
  | [] => .next s
  | k :: _ =>
    match (s.ctx? k.ctx).bind Ctx.task with
    | none => .next s
    | some t =>
      if s.fget (hdr_STATE 0x18) h ≠ 2 ∨ s.ungranted k.ctx k.ser ∨ s.injectLeft 0x18 h 1 ≠ 0 ∨ (s.stepFault h k).isSome ∨
          ¬ s.stepRoom k.table ∨ (s.stepReads k.table).any s.iuFails then .next s
      else match s.stepStopped h k t with
      | some u => .next u
      | none => .next (((s.runStep h k t).endStep h).descDone k.ctx k.ser)

/-- PUU_STEP_FAULT (Tables 12-8, 12-9): kind 0 the data fault that the step's operands give; 1 an uncorrectable HBM read,
2 an unrecoverable NAND read of NVM state, 3 a residue mismatch, 4 an uncorrectable error in the statistics buffer, of which the
second within 24 hours retires the unit (R469), 5 a
handshake stall, at entry `e`, in pass B or before it, at record `rec`. Tensors before the fault that the step has written
stay written; what the step was writing in HBM becomes undefined with its context's fault. -/
def execPuuStepFault (h kind e : Nat) (inB : Bool) (pos : Nat) (s : State) : Res :=
  match s.puuSteps h with
  | [] => .next s
  | k :: _ =>
    let f : Option (Nat × Nat × Bool × Nat) :=
      if kind = 0 then s.stepFault h k
      else if tabCount k.table ≤ e ∨ teFrozen (tabEntry k.table e) ∨ (kind = 2 ∧ teState (tabEntry k.table e) ≠ 4) ∨ 5 < kind then none
      else some (if kind = 1 then 0x4A else if kind = 2 then 0x0C else if kind = 5 then 0x21 else 0x50, e, inB, pos)
    match f, (s.ctx? k.ctx).bind Ctx.task with
    | some (code, e, b, r), some t => .next (s.failStep h k t kind code e b r)
    | _, _ => .next s

/-! ### Self-test (R328) -/

/-- PUU_SELF_TEST_GO: host software starts the self-test, in test mode and with the unit unowned; else the write is
refused. -/
def execPuuSelfTestGo (h : Nat) (s : State) : Res :=
  if ¬ s.hostUp ∨ ¬ Sys2Proof.Machine.present s.variant 0x18 h then .next s
  else if s.fget glob_TEST_MODE 0 = 1 ∧ s.fget (hdr_OWNER_CONTEXT 0x18) h = 0xFF ∧ s.fget puu_SELF_TEST_BUSY h = 0 then
    .next (s.beginSelfTest h)
  else .next (s.configReject 0x18 h)

/-- PUU_SELF_TEST_DONE: the running self-test has matched its signature or not, after `us` µs. A pass returns a FAULTED
unit to ON, by way of OFF and STARTING, in which it does not dwell (R62; DEDUCED, log 43); in STARTING the unit's start then completes. A failure faults the unit; during start-up, or as the second
within 24 hours of device time, it retires it, and it has no spare. -/
def execPuuSelfTestDone (h us : Nat) (ok : Bool) (s : State) : Res :=
  if ¬ Sys2Proof.Machine.present s.variant 0x18 h ∨ s.fget puu_SELF_TEST_BUSY h = 0 then .next s
  else
    let s1 := ((s.fset puu_SELF_TEST_BUSY h 0).fset puu_SELF_TEST_DONE h 1).fset puu_SELF_TEST_PASS h (b2n ok)
    let s2 := (s1.fbump puu_SELF_TEST_RUNS h 1).fset puu_SELF_TEST_US h us
    let st := s2.fget (hdr_STATE 0x18) h
    if ok then .next (if st = 4 ∧ ¬ s2.units.retiring.contains (pageNo 0x18 h) then
      (((s2.fset (hdr_FAULT_CAUSE 0x18) h 0).toState 0x18 h 0).toState 0x18 h 1).toState 0x18 h 2 else s2)
    else
      let again : Bool := match sget? s2.units.puuFail h with
        | some t => decide (s2.tick < t + ticksMs 86400000)
        | none => false
      let s3 := { s2 with units := { s2.units with puuFail := sput s2.units.puuFail h s2.tick } }
      let s4 := if st = 4 then (s3.err 0x18 h [11]).fset (hdr_FAULT_CAUSE 0x18) h 11 else s3.faultUnit 0x18 h 11 0
      if st = 1 ∨ again then .next (((s4.err 0x18 h [5]).recordRetirement 0x18 h 0).toRetired 0x18 h) else .next s4

end Sys2Proof.Machine
end

