-- ==== Sys2Proof/Machine/Colander.lean ====
section
/-!
DEFINITION. FILTER and SKIM_SCAN: loads into the Colanders' slots, requests, outputs, completion and faults
(13_colander_near_flash.md, R348 to R360).
-/

namespace Sys2Proof.Machine

/-! ### Bodies (Tables 13-8, 13-10) and request records -/

def flMode (w : Nat) : Nat := bits w 12 2
def flSlot (w : Nat) : Nat := bits w 14 1
def flSel (w : Nat) : Nat := bits w 15 3
def flOff (w : Nat) : Nat := 64 * bits w 18 14
def flOut (w : Nat) : Nat := bits w 32 6

def skMode (w : Nat) : Nat := bits w 12 2
def skSlot (w : Nat) : Nat := bits w 14 6
def skQ (w : Nat) : Nat := bits w 20 7
def skSel (w : Nat) : Nat := bits w 27 3
def skOff (w : Nat) : Nat := 64 * bits w 30 14
def skM (w : Nat) : Nat := bits w 44 8
def skCode4 (w : Nat) : Bool := bit w 52
def skOut (w : Nat) : Nat := bits w 53 6

/-- Fields of a 64-byte request record (R349, R354). -/
def rqColl (r : List Byte) : Nat := fld r 0 2
def rqCol (r : List Byte) : Nat := fld r 2 1
def rqLimit (r : List Byte) : Nat := fld r 4 4
def rqK (r : List Byte) : Nat := fld r 4 2
def rqFilter (r : List Byte) : Bool := bit (fld r 3 1) 0
def rqSlot (r : List Byte) : Nat := b2n (bit (fld r 3 1) 1)
def rqFirst (r : List Byte) : Nat := fld r 8 8
def rqCount (r : List Byte) : Nat := fld r 16 8
def rqKind (r : List Byte) : Nat := fld r 24 1
def rqBase (r : List Byte) : Nat := fld r 25 1
def rqOff (r : List Byte) : Nat := fld r 32 8

/-- Destination fields of a request: SB, HBM, SLM or host kind; a base register; reserved bytes 0. -/
def rqDstOk (r : List Byte) : Bool := rqKind r ≤ 3 && rqBase r ≤ 7 && zeros r 26 6 && zeros r 40 24 && 1 ≤ rqCount r

/-- LIST_BYTES (R355). -/
def listBytes (k : Nat) : Nat := 64 * ceilDiv (16 + 10 * k) 64

/-- Bytes of the output of a FILTER (Table 13-9) with `n` Colanders and a gathered column of `w` bytes. -/
def filterLen (mode n w : Nat) (r : List Byte) : Nat :=
  if mode = 1 then 8 * n else if mode = 2 then ceilDiv (rqCount r) 8 else 16 + rqLimit r * (8 + w)

/-- The destination span of an output of `len` bytes. -/
def rqSpan (base : List Nat) (r : List Byte) (len : Nat) : Span :=
  let a := (base.getD (rqBase r) 0 + rqOff r) % 2 ^ 64
  { kind := rqKind r, lo := a, hi := a + len - 1, write := true }

/-! ### Records in reach -/

/-- The Colander that holds a record's group (R335, R341). -/
def State.recColander (s : State) (d : List Byte) (r : Nat) : Nat := s.packageOf (tierKey (clNsid d) (clFirst d + r / clG d))

/-- Records `[first, first + n)` that lie in the reach of Hob `h` (R350). -/
def State.reachRecords (s : State) (h : Nat) (d : List Byte) (first n : Nat) : List Nat :=
  ((List.range n).map (first + ·)).filter fun r => (s.reach h).contains (s.recColander d r)

/-! ### Decode (Table 13-11) -/

/-- Check 1 on a FILTER's body and, past LOAD, its request. -/
def filterBodyOk (w : Nat) : Bool := bits w 38 66 == 0 && (flMode w != 0 || flOut w == 0)
def filterReqOk (mode : Nat) (r : List Byte) : Bool :=
  rqDstOk r && zeros r 3 1 && (if mode = 3 then 1 ≤ rqLimit r && rqLimit r ≤ 16777216 else rqLimit r == 0 && rqCol r == 0)

/-- Check 1 on a SKIM_SCAN. -/
def scanBodyOk (w : Nat) : Bool :=
  bits w 59 45 == 0 && skMode w ≤ 1 && 1 ≤ skQ w && skSlot w + skQ w ≤ 64 &&
  (if skMode w = 0 then 8 ≤ skM w && skM w ≤ 128 && (!skCode4 w || skM w % 2 == 0) && skOut w == 0
   else skM w == 0 && !skCode4 w)
def scanReqOk (r : List Byte) : Bool := rqDstOk r && fld r 3 1 < 4 && 1 ≤ rqK r && rqK r ≤ 1024 && zeros r 6 2

/-- Bytes of a table in a slot (R351). -/
def tableLen (m : Nat) (code4 : Bool) : Nat := if code4 then 16 * m else 256 * m

/-- Table slots of a Hob's Colanders, as the first Colander of the reach holds them: every one holds the same. -/
def State.slotTables (s : State) (h t q : Nat) : List (Option (Nat × Nat × List Byte)) :=
  (List.range q).map fun k => sget? s.near.tslots (64 * ((s.reach h).headD 0) + t + k)

/-- The filter program of a slot of a context. -/
def State.slotProg (s : State) (h c slot : Nat) : Option (List Byte) := sget? s.near.fslots (fslotKey ((s.reach h).headD 0) c slot)

/-- Some of the tier pages that hold records `[first, first + n)` of a collection is read-locked (R458). -/
def State.recsLocked (s : State) (d : List Byte) (first n : Nat) : Bool :=
  n != 0 && (List.range ((first + n - 1) / clG d - first / clG d + 1)).any fun g =>
    s.lockedAt (clNsid d) ((clFirst d + first / clG d + g) * tierBytes) false

/-- Check 8 on a destination: the channel's reach, the context's ranges, the memory range set. -/
def State.outCheck (s : State) (d : Desc) (ch : Nat) (p : Span) : Option Nat :=
  let rs := s.mrsOf d.x.req.fn (d.t.regs d.h).mrs
  if ¬ spanReach d ch p then some 0x45
  else if p.kind = 2 ∧ ¬ s.slmReach d ch p.lo (p.hi + 1 - p.lo) then some 0x45
  else if ¬ s.spanRange d p ∨ ¬ s.spanHeld d ch p then some 0x46
  else if p.kind = 2 ∧ rangesLen rs ≤ p.hi then some 0x0B
  else none

/-- A unit that a near-flash descriptor names has left ON (R67, R299): code and case. -/
def State.outGone (s : State) (c i : Nat) : Option (Nat × Nat) := (s.unitGone c i).map fun f => (f.code, 0)

/-- The checks of Table 13-11 from 4 on, for a request: `prog` a named filter slot, `tabs` the table slots of a SCAN with the
M and code width they must have. -/
def State.nearCheck (s : State) (d : Desc) (r : List Byte) (out : Nat) (scan : Bool) (gather : Bool) (slot : Option Nat)
    (tabs : List (Option (Nat × Nat × List Byte))) (len : List Byte → Nat) : Option (Nat × Nat) :=
  match s.collection d.c d.x (rqColl r) with
  | none => some (0x51, 0)
  | some k =>
    let e := d.t.epochOf (clDomain k)
    let ty := colType k (rqCol r)
    let p := rqSpan (d.t.regs d.h).base r (len k)
    (if s.recordsOf k e < rqFirst r + rqCount r ∨ (scan ∧ (clColumns k ≤ rqCol r ∨ (ty ≠ 0xC ∧ ty ≠ 0xD))) ∨
        (gather ∧ (clColumns k ≤ rqCol r ∨ ty = 0)) then some (0x51, 0) else none)
    |>.orElse (fun _ => if ¬ s.holdsLadle d.c d.h out ∨ (scan ∧ s.fget (hdr_OWNER_CONTEXT 0x17) d.h ≠ d.c) then some (0x04, 20) else none)
    |>.orElse (fun _ => s.outGone 0x12 (64 * d.h + out))
    |>.orElse (fun _ => if scan then s.outGone 0x17 d.h else none)
    |>.orElse (fun _ => match slot with
      | none => none
      | some q => match s.slotProg d.h d.c q with
        | some pr => if filterFits k pr then none else some (0x52, 0)
        | none => some (0x52, 0))
    |>.orElse (fun _ => if tabs.all (fun t => match t with
        | some t => t.1 == colParam k (rqCol r) && t.2.1 == (if ty = 0xC then 8 else 4)
        | none => false) then none else some (0x53, 0))
    |>.orElse (fun _ => (s.outCheck d out p).map fun c => (c, 0))
    |>.orElse (fun _ => if s.sanitizing then some (0x06, 16) else none)
    |>.orElse (fun _ => if s.recsLocked k (rqFirst r) (rqCount r) then some (0x54, 0) else none)
    |>.orElse (fun _ => if s.spanFrozen p then some (0x24, 0) else if s.linkLost d p then some (0x4D, 0) else none)

/-- The bytes that an output will write are noted (R160). -/
def State.noteSpan (s : State) (d : Desc) (p : Span) : State :=
  let n := p.hi + 1 - p.lo
  if p.kind = 0 then s.noteWrite d.c 0 (d.h * 2 ^ 28 + p.lo) n
  else if p.kind = 1 then s.noteWrite d.c 1 p.lo n
  else if p.kind = 3 then s.noteWrite d.c 2 p.lo n
  else
    let rs := s.mrsOf d.x.req.fn (d.t.regs d.h).mrs
    (List.range n).foldl (fun u j => match u.mrsAddr rs (p.lo + j) with
      | some a => u.noteWrite d.c 1 a 1
      | none => u) s

/-- The entry of a channel that runs the output of a descriptor. -/
def Desc.outMove (d : Desc) (r : List Byte) (j : Job) : Move :=
  { hob := d.h, index := d.i, ctx := d.c, ser := d.t.ser, word := d.w, record := r, iters := [], base := (d.t.regs d.h).base,
    mrs := (d.t.regs d.h).mrs, out := [], due := d.due, job := some j, sent := 0, rx := [], filled := [] }

/-- The SB macro-groups that a span meets. -/
def Span.groups (p : Span) : List Nat := if p.kind = 0 then groupsOfHull p.lo p.hi else []

/-- The output descriptor takes a place in its channel (R357). -/
def State.queueOut (s : State) (d : Desc) (out : Nat) (r : List Byte) (j : Job) (p : Span) (dst : Nat) : State :=
  let i := 64 * d.h + out
  let q := s.chan i
  let gs := p.groups
  let m := d.outMove r j
  if s.portBound d.h true gs then s.waitPorts d
  else if 8 ≤ q.queue.length ∨ s.fget (hdr_DRAIN 0x12) i = 1 then s
  else
    let s1 := ((s.bind d true gs).setChan i { q with queue := q.queue ++ [m] }).noteColl d.c (rqColl r)
    (s1.issue d dst).noteSpan d p

/-- A next descriptor of class `k` whose MODE field, `n` bits from bit 12, is `mode`: a mode above `top` is reserved
(BAD_DESCRIPTOR); nothing happens where the sequencer stands at another. -/
def State.onMode (s : State) (c h k mode n top : Nat) (f : Desc → State) : Res :=
  s.onDesc c h k fun d => if bits d.w 12 n = mode then f d else if top < bits d.w 12 n then s.descFault d 0x01 else s

/-- FILTER_LOAD (R348): a valid program image enters the slot of the context on every Colander of the reach. -/
def execFilterLoad (c h : Nat) (s : State) : Res :=
  s.onMode c h 0x20 0 2 3 fun d =>
    if ¬ filterBodyOk d.w then s.descFault d 0x01
    else match s.tableSource d (flSel d.w) (flOff d.w) 2048 with
    | none => s.descFault d 0x01
    | some a =>
      let p := s.sbRead h a 2048
      let gs := if flSel d.w = 0 then [] else groupsOfHull a (a + 2047)
      if ¬ filterOk p then s.descFault d 0x52
      else if s.sanitizing then s.descFault d 0x06 16
      else if s.portBound h false gs then s.waitPorts d
      else
        let s1 := { s with near := { s.near with
          fslots := (s.reach h).foldl (fun m k => sput m (fslotKey k c (flSlot d.w)) p) s.near.fslots } }
        (s1.bind d false gs).issue d

/-- FILTER in a mode that writes an output: decode and issue. -/
def State.filterIssue (s : State) (c h mode : Nat) : Res :=
  s.onMode c h 0x20 mode 2 3 fun d =>
    if ¬ filterBodyOk d.w then s.descFault d 0x01
    else match s.tableSource d (flSel d.w) (flOff d.w) 64 with
    | none => s.descFault d 0x01
    | some a =>
      let r := s.sbRead h a 64
      let n := (s.reach h).length
      let len (k : List Byte) : Nat := filterLen mode n (colWidth k (rqCol r)) r
      if ¬ filterReqOk mode r then s.descFault d 0x01
      else match s.nearCheck d r (flOut d.w) false (decide (mode = 3)) (some (flSlot d.w)) [] len with
        | some f => s.descFault d f.1 f.2
        | none => match s.collection c d.x (rqColl r) with
          | none => s
          | some k =>
            let j : Job := { prog := (s.slotProg h c (flSlot d.w)).getD [], tables := [], epoch := d.t.epochOf (clDomain k) }
            s.queueOut d (flOut d.w) r j (rqSpan (d.t.regs h).base r (len k)) (rqKind r)

/-- FILTER_COUNT, FILTER_BITMAP and FILTER_GATHER at decode (R349, R350, R356). -/
def execFilterCount (c h : Nat) (s : State) : Res := s.filterIssue c h 1
def execFilterBitmap (c h : Nat) (s : State) : Res := s.filterIssue c h 2
def execFilterGather (c h : Nat) (s : State) : Res := s.filterIssue c h 3

/-- SKIM_SCAN_LOAD_TABLES (R351): Q tables enter slots TSLOT onwards on every Colander of the reach. -/
def execSkimScanLoadTables (c h : Nat) (s : State) : Res :=
  s.onMode c h 0x21 0 2 1 fun d =>
    let n := tableLen (skM d.w) (skCode4 d.w)
    if ¬ scanBodyOk d.w then s.descFault d 0x01
    else match s.tableSource d (skSel d.w) (skOff d.w) (skQ d.w * n) with
    | none => s.descFault d 0x01
    | some a =>
      let gs := if skSel d.w = 0 then [] else groupsOfHull a (a + skQ d.w * n - 1)
      if s.fget (hdr_OWNER_CONTEXT 0x17) h ≠ c then s.descFault d 0x04 20
      else match s.outGone 0x17 h with
      | some f => s.descFault d f.1 f.2
      | none =>
      if s.sanitizing then s.descFault d 0x06 16
      else if s.portBound h false gs then s.waitPorts d
      else
        let put (m : Store (Nat × Nat × List Byte)) (kq : Nat × Nat) : Store (Nat × Nat × List Byte) :=
          sput m (64 * kq.1 + skSlot d.w + kq.2) (skM d.w, if skCode4 d.w then 4 else 8, s.sbRead h (a + kq.2 * n) n)
        let s1 := { s with near := { s.near with
          tslots := ((s.reach h).flatMap fun k => (List.range (skQ d.w)).map fun q => (k, q)).foldl put s.near.tslots } }
        (s1.bind d false gs).issue d

/-- SKIM_SCAN_SCAN at decode (R354, R356). -/
def execSkimScanScan (c h : Nat) (s : State) : Res :=
  s.onMode c h 0x21 1 2 1 fun d =>
    if ¬ scanBodyOk d.w then s.descFault d 0x01
    else match s.tableSource d (skSel d.w) (skOff d.w) 64 with
    | none => s.descFault d 0x01
    | some a =>
      let r := s.sbRead h a 64
      let n := (s.reach h).length
      let ts := s.slotTables h (skSlot d.w) (skQ d.w)
      let len : Nat := skQ d.w * n * listBytes (rqK r)
      if ¬ scanReqOk r then s.descFault d 0x01
      else match s.nearCheck d r (skOut d.w) true false (if rqFilter r then some (rqSlot r) else none) ts (fun _ => len) with
        | some f => s.descFault d f.1 f.2
        | none => match s.collection c d.x (rqColl r) with
          | none => s
          | some k =>
            let j : Job := { prog := if rqFilter r then (s.slotProg h c (rqSlot r)).getD [] else [], tables := ts.filterMap id
                             epoch := d.t.epochOf (clDomain k) }
            s.queueOut d (skOut d.w) r j (rqSpan (d.t.regs h).base r len) (rqKind r)

/-! ### Outputs -/

/-- A record of a job's range is selected: not deleted, so that a scan never scores and a gather never delivers a deleted one, and its filter, if any, is
true (R343, R353). -/
def State.jobPasses (s : State) (j : Job) (k : List Byte) (r : Nat) : Bool :=
  if j.prog.isEmpty then !s.recDeleted k j.epoch r else s.passes k j.prog j.epoch r

/-- Output bytes of a FILTER (Table 13-9), with the number of records that match. -/
def State.filterOut (s : State) (h mode : Nat) (j : Job) (k r : List Byte) : List Byte × Nat :=
  let hits := (s.reachRecords h k (rqFirst r) (rqCount r)).filter (s.jobPasses j k)
  let bytes :=
    if mode = 1 then (s.reach h).flatMap fun c => natLE (hits.filter fun x => s.recColander k x == c).length 8
    else if mode = 2 then packElems 1 ((List.range (rqCount r)).map fun i => b2n (hits.contains (rqFirst r + i)))
    else
      let es := hits.take (rqLimit r)
      natLE es.length 8 ++ natLE hits.length 8 ++ es.flatMap fun x => natLE x 8 ++ (s.recValue k j.epoch (rqCol r) x).getD []
  (bytes, hits.length)

/-- Distance of a record's code under a table (R352). -/
def codeDistance (t : Nat × Nat × List Byte) (code : List Byte) : Nat :=
  ((List.range t.1).map fun m =>
    if t.2.1 = 8 then (t.2.2.getD (256 * m + (code.getD m 0).toNat) 0).toNat
    else (t.2.2.getD (16 * m + (code.getD (m / 2) 0).toNat / 16 ^ (m % 2) % 16) 0).toNat).sum

/-- Rank order of the triples (D, vector ID, record) (R353). -/
def rankLe (a b : Nat × Nat × Nat) : Bool :=
  decide (a.1 < b.1 ∨ (a.1 = b.1 ∧ (a.2.1 < b.2.1 ∨ (a.2.1 = b.2.1 ∧ a.2.2 ≤ b.2.2))))

/-- A list of R355. -/
def scanList (kk col scanned : Nat) (es : List (Nat × Nat × Nat)) : List Byte :=
  let b := natLE es.length 2 ++ [BitVec.ofNat 8 col, BitVec.ofNat 8 (b2n (es.length < kk))] ++ natLE scanned 8 ++ natLE 0 4 ++
    es.flatMap fun e => natLE e.2.1 8 ++ natLE e.1 2
  b ++ List.replicate (listBytes kk - b.length) 0

/-- Output bytes of a SCAN: one list for each query and each Colander of the reach (R355). -/
def State.scanOut (s : State) (h : Nat) (j : Job) (k r : List Byte) : List Byte :=
  let hits := (s.reachRecords h k (rqFirst r) (rqCount r)).filter (s.jobPasses j k)
  j.tables.flatMap fun t => (s.reach h).flatMap fun c =>
    let on := hits.filter fun x => s.recColander k x == c
    let es := (on.map fun x => (codeDistance t ((s.recValue k j.epoch (rqCol r) x).getD []), s.recId k j.epoch x, x)).mergeSort rankLe
    scanList (rqK r) c on.length (es.take (rqK r))

/-- The columns whose pages are read of every record of the range: those of the filter, and the deletion column. -/
def jobColumns (j : Job) (k : List Byte) : List Nat :=
  (if j.prog.isEmpty then [] else fpColumns j.prog) ++ (if clDelCol k = 0xFF then [] else [clDelCol k])

/-- The IUs that a job reads: filter and deletion pages of the range, then the output pages of the records that pass: the
gathered column of the entries written, or the ID and code pages (R353). -/
def State.jobIus (s : State) (h cls mode : Nat) (j : Job) (k r : List Byte) : List Nat :=
  let all := s.reachRecords h k (rqFirst r) (rqCount r)
  let hits := all.filter (s.jobPasses j k)
  let late := if cls = 0x21 then (rqCol r :: (if clIdCol k = 0xFF then [] else [clIdCol k])) else if mode = 3 then [rqCol r] else []
  let outs := if cls = 0x20 ∧ mode = 3 then hits.take (rqLimit r) else hits
  ((all.flatMap fun x => (jobColumns j k).map fun c => (recPlace k c x).1) ++
    (outs.flatMap fun x => late.map fun c => (recPlace k c x).1)).eraseDups

/-! ### Faults while running (Table 13-13) -/

/-- The fault that a read of a collection meets now: code and case, and its Colander: the collection invalid, a Sanitize, a
locked range, a Colander behind a faulted Hob-to-Hob link or not ON, a page that cannot be recovered, a compressed page that fails R337. -/
def State.readFault (s : State) (c h : Nat) (x : Ctx) (id epoch : Nat) (k : List Byte) (cols ius recs : List Nat) : Option (Nat × Nat × Nat) :=
  if s.collection c x id ≠ some k then some (0x51, 0, 0)
  else if s.sanitizing then some (0x06, 16, 0)
  else if recs.any fun r => s.recsLocked k r 1 then some (0x54, 0, 0)
  else if s.rel.hobFault ∧ recs.any fun r => s.recColander k r / 32 != h then some (0x4D, 0, 0)
  else
    ((recs.map (s.recColander k)).eraseDups.find? fun p => s.fget (hdr_STATE 0x21) p != 2).map (fun p => (0x56, 0, p))
    |>.orElse (fun _ => (ius.find? fun iu => 2 ≤ (s.collIu k epoch iu).1).map fun iu => (0x0C, 0, s.packageOf (iuTier iu)))
    |>.orElse (fun _ => ((cols.filter (colLz4 k)).findSome? fun q => recs.find? fun r => (s.recValue k epoch q r).isNone).map
      fun r => (0x55, 0, s.recColander k r))

/-- The fault that the running job of a channel meets now. -/
def State.jobFault (s : State) (m : Move) (j : Job) : Option (Nat × Nat × Nat) :=
  match s.ctx? m.ctx with
  | none => none
  | some x => match sget? s.near.collections (65536 * x.req.fn + rqColl m.record) with
    | none => some (0x51, 0, 0)
    | some k =>
      let cls := descClass m.word
      let cols := jobColumns j k.bytes ++ (if cls = 0x21 then [rqCol m.record] else if bits m.word 12 2 = 3 then [rqCol m.record] else [])
      s.readFault m.ctx m.hob x (rqColl m.record) j.epoch k.bytes cols (s.jobIus m.hob cls (bits m.word 12 2) j k.bytes m.record)
        (s.reachRecords m.hob k.bytes (rqFirst m.record) (rqCount m.record))

/-! ### Completion (R357) -/

/-- Counters of the Colanders that served a job (R361), and the flash bytes it read (R26). -/
def State.countJob (s : State) (c : Nat) (ius recs hits : List Nat) (k : List Byte) (filter : Bool) (queries : Nat) : State :=
  let s1 := (s.countReads ius []).work c 16 (s.flashBytes ius)
  let s3 := if filter then recs.foldl (fun t r => t.count 0x21 (s.recColander k r) 1 1) s1 else s1
  hits.foldl (fun t r => t.count 0x21 (s.recColander k r) 2 queries) s3

/-- The oldest issue of a descriptor of a context. -/
def State.issueOf (s : State) (c h i : Nat) : Option Issued :=
  ((s.ctx? c).bind Ctx.task).bind fun t => t.inflight.find? fun e => e.hob == h && e.index == i

/-- The output of a FILTER or SKIM_SCAN is accepted (R357): its bytes, its counters, and RESULT for a COUNT. -/
def State.endOutput (s : State) (c h : Nat) (e : Issued) (m : Move) (j : Job) (k : List Byte) : State :=
  let r := m.record
  let ch := 64 * h + (if e.cls = 0x20 then flOut e.word else skOut e.word)
  let mode := bits e.word 12 2
  let recs := s.reachRecords h k (rqFirst r) (rqCount r)
  let f := s.filterOut h mode j k r
  let bs := if e.cls = 0x20 then f.1 else s.scanOut h j k r
  let hits := if e.cls = 0x21 then recs.filter (s.jobPasses j k) else []
  let s1 := (s.colanderFlips ((recs.map (s.recColander k)).eraseDups) c).countJob c (s.jobIus h e.cls mode j k r) recs hits k (!j.prog.isEmpty)
    j.tables.length
  let s2 := s1.dstWrite c h (rqKind r) m.mrs [((rqSpan m.base r 1).lo, bs)]
  let s3 := (s2.countUnits 0x12 ch 0 bs.length 64).count 0x12 ch 1 1
  let s4 := if rqKind r = 0 then s3.countUnits 0x15 h 1 bs.length 4096 else s3
  if e.cls = 0x20 ∧ mode = 1 then s4.setResult c h (min f.2 (2 ^ 32 - 1)) else s4

/-- COLANDER_DESCRIPTOR_COMPLETE (R357): the oldest issue of descriptor `i` of Hob `h`. A LOAD is in place on every Colander, once those issued
before it run or have completed; of another mode, whose channel runs its output, every output byte has been accepted. -/
def execColanderDescriptorComplete (c h i : Nat) (s : State) : Res :=
  match s.issueOf c h i with
  | none => .next s
  | some e =>
    if e.cls ≠ 0x20 ∧ e.cls ≠ 0x21 then .next s
    else if bits e.word 12 2 = 0 then
      .next (if (s.earlier c h e.ser [0x20, 0x21]).all fun k => s.runsJob c k.ser then s.descDone c e.ser else s)
    else
      let out := if e.cls = 0x20 then flOut e.word else skOut e.word
      let ch := 64 * h + out
      match (s.chan ch).run, s.ctx? c with
      | some m, some x =>
        match m.job, sget? s.near.collections (65536 * x.req.fn + rqColl m.record) with
        | some j, some k =>
          if m.ctx ≠ c ∨ m.ser ≠ e.ser ∨ s.ungranted c e.ser ∨ (s.jobFault m j).isSome ∨ s.fget (hdr_STATE 0x12) ch ≠ 2 then .next s
          else
            let r := m.record
            let cs := ((s.reachRecords h k.bytes (rqFirst r) (rqCount r)).map (s.recColander k.bytes)).eraseDups
            match s.colanderArmed cs (e.cls == 0x21) with
            | some (kind, code, q) =>
              let (n, t) := s.draw
              .next ((t.colanderHit kind q (n % 2 ^ 32) c).faultCtx c
                { code := code, index := i, hob := h, ucls := 0x21, uinst := q, info := n % 2 ^ 32 })
            | none => .next ((s.endOutput c h e m j k.bytes).endMove ch m)
        | _, _ => .next s
      | _, _ => .next s

/-- The fault that the state shows of a move of a FILTER or SKIM_SCAN, or from a collection. -/
def State.moveFault (s : State) (x : Ctx) (m : Move) : Option (Nat × Nat × Nat) :=
  match m.job with
  | some j => s.jobFault m j
  | none => match s.moveColl m with
    | some k =>
      let q := m.baseOf true / 65536 % 256
      let recs := (List.range ((m.hull true (rcLen0 m.record)).2 / max 1 (colWidth k q) + 1)).map (m.baseOf true / 2 ^ 24 + ·)
      s.readFault m.ctx m.hob x (m.baseOf true % 65536) (s.moveEpoch m k) k [q] (s.moveIus m) (recs.filter (· < clRecords k))
    | none => some (0x51, 0, 0)

/-- COLANDER_RUN_FAULT (R359): the oldest issue of descriptor `i`, a FILTER, a SKIM_SCAN or a move from a collection, meets a
fault on Colander `col`. Kind 0 is the fault that the state shows; 1 a NAND page that cannot be recovered; 2 a Colander out of
reach; 3 a lane residue mismatch whose lane then passes its self-check, 6 one whose lane fails it; 4 an uncorrectable SRAM error; 5 a
handshake stall. -/
def execColanderRunFault (c h i kind col info : Nat) (s : State) : Res :=
  match s.issueOf c h i, s.ctx? c with
  | some e, some x =>
    let run := (s.moves.find? fun m => m.ctx == c && m.hob == h && m.index == i)
    let near : Bool := e.cls == 0x20 || e.cls == 0x21 || (e.cls == 0x18 && (match run with
      | some m => m.job.isNone && rcSrcKind m.record == 5
      | none => false))
    let shown := run.bind (s.moveFault x)
    let f : Option (Nat × Nat × Nat) :=
      if ¬ near ∨ ¬ colanderFitted s.variant col then none
      else if kind = 0 then shown
      else if kind = 1 then some (0x0C, 0, col) else if kind = 2 then some (0x56, 0, col)
      else if kind = 3 ∨ kind = 4 ∨ kind = 6 then some (0x57, 0, col) else if kind = 5 then some (0x21, 0, col) else none
    match f with
    | none => .next s
    | some (code, case, p) =>
      .next ((s.colanderHit (if code = 0x55 then 8 else kind) p info c).faultCtx c { code := code, index := i, case := case, hob := h, ucls := 0x21, uinst := p, info := info })
  | _, _ => .next s

end Sys2Proof.Machine
end

