-- ==== Sys2Proof/Machine/Skimmer.lean ====
section
/-!
DEFINITION. The Skimmer merge unit: SKIM_MERGE in its six modes, its completion, and the EPOCH_ADVANCE descriptor
(14_vector_search.md, R364 to R393).
-/

namespace Sys2Proof.Machine

/-! ### Body and request record (Tables 14-3, 14-4) -/

def smMode (w : Nat) : Nat := bits w 12 3
def smQ (w : Nat) : Nat := bits w 15 7
def smSel (w : Nat) : Nat := bits w 22 3
def smOff (w : Nat) : Nat := 64 * bits w 25 14
def smOut (w : Nat) : Nat := bits w 39 6

def mqColl (r : List Byte) : Nat := fld r 0 2
def mqColA (r : List Byte) : Nat := fld r 2 1
def mqColB (r : List Byte) : Nat := fld r 3 1
def mqMetric (r : List Byte) : Nat := fld r 4 1
def mqFlags (r : List Byte) : Nat := fld r 5 1
def mqFilter (r : List Byte) : Bool := bit (mqFlags r) 0
def mqFslot (r : List Byte) : Nat := b2n (bit (mqFlags r) 1)
def mqFinal (r : List Byte) : Bool := bit (mqFlags r) 2
def mqDescend (r : List Byte) : Bool := bit (mqFlags r) 3
def mqForm (r : List Byte) : Nat := bits (mqFlags r) 4 2
def mqK (r : List Byte) : Nat := fld r 6 2
def mqN (r : List Byte) : Nat := fld r 8 4
def mqStride (r : List Byte) : Nat := fld r 12 4
def mqSrcKind (r : List Byte) : Nat := fld r 16 1
def mqDstKind (r : List Byte) : Nat := fld r 18 1
def mqAuxKind (r : List Byte) : Nat := fld r 20 1
def mqTslot (r : List Byte) : Nat := fld r 22 1
def mqVbits (r : List Byte) : Nat := fld r 23 1
def mqFirst (r : List Byte) : Nat := fld r 48 8
def mqCount (r : List Byte) : Nat := fld r 56 8
/-- Start of an operand: 0 SRC, 1 DST, 2 AUX. -/
def mqAddr (base : List Nat) (r : List Byte) (k : Nat) : Nat := (base.getD (fld r (17 + 2 * k) 1) 0 + fld r (24 + 8 * k) 8) % 2 ^ 64

/-- RESULT_BYTES (R370). -/
def resultBytes (k : Nat) : Nat := 16 + 16 * k

/-- Codes per subspace of a PQ column. -/
def pqCodes (k : List Byte) (c : Nat) : Nat := if colType k c = 0xC then 256 else 16
/-- Bytes of a query of a VEC column (R365). -/
def queryLen (k : List Byte) (c : Nat) : Nat := recordLen (colVfmt k c) (colParam k c)

/-- Bytes of the SRC, DST and AUX operands of a descriptor (Table 14-5). -/
def smLens (w : Nat) (r k : List Byte) : Nat × Nat × Nat :=
  let q := smQ w
  let lists := q * resultBytes (mqK r)
  match smMode w with
  | 0 => (q * queryLen k (mqColB r), q * (tableLen (colParam k (mqColA r)) (colType k (mqColA r) == 0xD) + 16),
          2 * colParam k (mqColB r) * pqCodes k (mqColA r))
  | 1 => (if mqForm r = 2 then 4 * mqN r * q else q * mqN r * mqStride r, lists, 16 * q)
  | 2 => (q * mqStride r, lists, q * 8 * 2 ^ mqVbits r)
  | 3 => (q * mqStride r, lists, q * queryLen k (mqColA r))
  | 4 => (0, lists, q * queryLen k (mqColA r))
  | _ => (q * mqStride r, q * mqN r * colWidth k (mqColA r), 0)

/-- The spans of a descriptor: SRC, AUX, DST; EXPAND writes its visited tables too. -/
def smSpans (w : Nat) (base : List Nat) (r k : List Byte) : List Span :=
  let l := smLens w r k
  let sp (kind a n : Nat) (wr : Bool) : List Span :=
    if kind = 8 ∨ n = 0 then [] else [{ kind := kind, lo := a, hi := a + n - 1, write := wr }]
  sp (mqSrcKind r) (mqAddr base r 0) l.1 false ++ sp (mqAuxKind r) (mqAddr base r 2) l.2.2 (smMode w == 2) ++
    sp (mqDstKind r) (mqAddr base r 1) l.2.1 true

/-- Check 1 on the body and the record, overlap apart: reserved fields, allowed kinds, counts in range, fields that the
mode does not name 0 (Table 14-5). -/
def smFieldsOk (w : Nat) (r : List Byte) : Bool :=
  let m := smMode w
  let memKind (x : Nat) : Bool := x ≤ 2
  let zeroOp (k : Nat) : Bool := fld r (16 + 2 * k) 1 == 8 && fld r (17 + 2 * k) 1 == 0 && fld r (24 + 8 * k) 8 == 0
  let lists : Bool := 1 ≤ mqK r && mqK r ≤ 1024
  bits w 45 59 == 0 && m ≤ 5 && 1 ≤ smQ w && smQ w ≤ 64 && mqFlags r < 64 && zeros r 64 64 &&
  fld r 17 1 ≤ 7 && fld r 19 1 ≤ 7 && fld r 21 1 ≤ 7 && mqDstKind r ≤ 3 && mqMetric r ≤ 2 &&
  (if m = 4 then zeroOp 0 else memKind (mqSrcKind r)) &&
  (if m = 5 then zeroOp 2 else if m = 1 then memKind (mqAuxKind r) || zeroOp 2 else memKind (mqAuxKind r)) &&
  (if m = 0 ∨ m = 5 then mqK r == 0 else lists) &&
  (if m = 0 then mqN r == 0 else if m = 1 then 1 ≤ mqN r else if m = 2 then 1 ≤ mqN r && mqN r ≤ 64
   else if m = 3 then 1 ≤ mqN r && mqN r ≤ 1024 else if m = 4 then mqN r == 0 else 1 ≤ mqN r) &&
  (if m = 0 ∨ m = 4 ∨ (m = 1 ∧ mqForm r = 2) then mqStride r == 0
   else if m = 1 ∧ mqForm r = 0 then 26 ≤ mqStride r else if m = 2 then resultBytes (mqK r) ≤ mqStride r else 32 ≤ mqStride r) &&
  (if m = 1 then mqForm r ≤ 2 && (!mqDescend r || mqForm r == 2) else mqForm r == 0 && !mqDescend r) &&
  (m == 4 || (!mqFilter r && mqFslot r == 0)) && (m != 1 || (mqColA r == 0 && mqColB r == 0)) &&
  (m == 0 || m == 2 || mqColB r == 0) && (m != 5 || mqMetric r == 0) &&
  (if m = 2 then 10 ≤ mqVbits r && mqVbits r ≤ 24 && mqTslot r + smQ w ≤ 64 else mqVbits r == 0 && mqTslot r == 0) &&
  (if m = 4 then 1 ≤ mqCount r else mqFirst r == 0 && mqCount r == 0)

/-- Two spans share a byte. -/
def Span.meets (a b : Span) : Bool := a.kind == b.kind && decide (a.lo ≤ b.hi) && decide (b.lo ≤ a.hi)

/-- DST overlaps neither SRC nor AUX. -/
def smApart (ps : List Span) : Bool :=
  match ps.getLast? with
  | some d => ps.dropLast.all fun p => !d.meets p
  | none => true

/-- Check 5: column types match Table 14-5. -/
def smColumnsOk (w : Nat) (r k : List Byte) : Bool :=
  let a := mqColA r
  let b := mqColB r
  let n := clColumns k
  let pq (c : Nat) : Bool := c < n && (colType k c == 0xC || colType k c == 0xD)
  let vec (c : Nat) : Bool := c < n && colType k c == 0xE
  match smMode w with
  | 0 => pq a && vec b && colParam k b % colParam k a == 0
  | 1 => true
  | 2 => a < n && colType k a == 0xA && colWidth k a % 8 == 0 && 8 ≤ colWidth k a && colWidth k a ≤ 512 && pq b && clIdCol k == 0xFF
  | 3 => vec a && clIdCol k == 0xFF
  | 4 => vec a && clIdCol k == 0xFF && mqFirst r + mqCount r ≤ clRecords k
  | _ => a < n && colType k a != 0 && clIdCol k == 0xFF

/-- Modes that read records. -/
def smReads (w : Nat) : Bool := 2 ≤ smMode w && smMode w ≤ 5

/-- A read span is in reach: the Hob's stacks, or the peer's for a paired context (R374). -/
def State.mergeReach (s : State) (d : Desc) (p : Span) : Bool :=
  let ok (a : Nat) : Bool := d.x.req.pairing == 2 || a / 2 ^ 38 % 2 == d.h
  if p.kind = 1 then ok p.lo
  else if p.kind = 2 then
    let rs := s.mrsOf d.x.req.fn (d.t.regs d.h).mrs
    (List.range ((p.hi - p.lo) / 65536 + 1)).all fun k => match s.mrsAddr rs (p.lo + 65536 * k) with
      | some a => ok a
      | none => true
  else true

/-- Check 8 on one span. -/
def State.mergeSpan (s : State) (d : Desc) (p : Span) : Option Nat :=
  let rs := s.mrsOf d.x.req.fn (d.t.regs d.h).mrs
  if p.write ∧ p.kind ≠ 8 then s.outCheck d (smOut d.w) p
  else if ¬ s.mergeReach d p then some 0x45
  else if ¬ s.spanRange d p ∨ (p.kind = 0 ∧ ¬ s.holdsSb d.c d.h p.lo p.hi) ∨
      (p.kind = 1 ∧ ¬ (pagesOfRange p.lo (p.hi + 1 - p.lo)).all fun t => d.x.pages.any fun q => q.2 == t && q.1 != 0) then some 0x46
  else if p.kind = 2 ∧ rangesLen rs ≤ p.hi then some 0x0B
  else none

/-- The checks of Table 14-7 from the record on. -/
def State.mergeCheck (s : State) (d : Desc) (r : List Byte) : Option (Nat × Nat) :=
  let w := d.w
  let k? := s.collection d.c d.x (mqColl r)
  let k := k?.getD []
  let ps := smSpans w (d.t.regs d.h).base r k
  (if smFieldsOk w r && smApart ps then none else some (0x01, 0))
  |>.orElse (fun _ => s.outGone 0x17 d.h)
  |>.orElse (fun _ => if s.fget (hdr_OWNER_CONTEXT 0x17) d.h ≠ d.c ∨ ¬ s.holdsLadle d.c d.h (smOut w) then some (0x04, 20) else none)
  |>.orElse (fun _ => s.outGone 0x12 (64 * d.h + smOut w))
  |>.orElse (fun _ => if k?.isNone || !smColumnsOk w r k then some (0x51, 0) else none)
  |>.orElse (fun _ => if smMode w = 2 ∧ ¬ (s.slotTables d.h (mqTslot r) (smQ w)).all (fun t => match t with
      | some t => t.1 == colParam k (mqColB r) && t.2.1 == (if colType k (mqColB r) = 0xC then 8 else 4)
      | none => false) then some (0x53, 0) else none)
  |>.orElse (fun _ => if smMode w = 4 ∧ mqFilter r then (match s.slotProg d.h d.c (mqFslot r) with
      | some p => if filterFits k p then none else some (0x52, 0)
      | none => some (0x52, 0)) else none)
  |>.orElse (fun _ => (ps.findSome? (s.mergeSpan d)).map fun c => (c, 0))
  |>.orElse (fun _ => if (smReads w ∨ ps.any fun p => p.kind == 2) ∧ s.sanitizing then some (0x06, 16) else none)
  |>.orElse (fun _ => if smReads w ∧ (if smMode w = 4 then s.recsLocked k (mqFirst r) (mqCount r) else s.recsLocked k 0 (clRecords k)) then some (0x54, 0) else none)
  |>.orElse (fun _ => if ps.any fun p => s.spanFrozen p then some (0x24, 0) else if ps.any (s.linkLost d) then some (0x4D, 0) else none)

/-- A SKIM_MERGE in one mode at decode: the record is fetched, checked in the order of Table 14-7, and the descriptor takes
its place in OUT_LADLE with the tables or the filter that its slots hold. -/
def State.mergeIssue (s : State) (c h mode : Nat) : Res :=
  s.onDesc c h 0x22 fun d =>
    if smMode d.w ≠ mode ∧ smMode d.w ≤ 5 then s
    else match s.tableSource d (smSel d.w) (smOff d.w) 128 with
    | none => s.descFault d 0x01 0 0x17 h
    | some a =>
      let r := s.sbRead h a 128
      match s.mergeCheck d r with
      | some f => s.descFault d f.1 f.2 0x17 h
      | none =>
        let k := (s.collection c d.x (mqColl r)).getD []
        let ps := smSpans d.w (d.t.regs h).base r k
        let i := 64 * h + smOut d.w
        let q := s.chan i
        let j : Job :=
          { prog := if mode = 4 ∧ mqFilter r then (s.slotProg h c (mqFslot r)).getD [] else []
            tables := if mode = 2 then (s.slotTables h (mqTslot r) (smQ d.w)).filterMap id else []
            epoch := d.t.epochOf (clDomain k) }
        let m := d.outMove r j
        let rd := (ps.filter fun p => !p.write).flatMap Span.groups
        let wr := (ps.filter Span.write).flatMap Span.groups
        if s.portBound h false rd ∨ s.portBound h true wr then s.waitPorts d
        else if 8 ≤ q.queue.length ∨ s.fget (hdr_DRAIN 0x12) i = 1 ∨ s.fget (hdr_DRAIN 0x17) h = 1 then s
        else
          let s1 := (((s.bind d false rd).bind d true wr).setChan i { q with queue := q.queue ++ [m] }).noteColl c (mqColl r)
          (ps.filter (·.write)).foldl (fun t p => t.noteSpan d p) (s1.issue d (mqDstKind r))

/-- SKIM_MERGE in each mode at decode (R371 to R375). -/
def execSkimMergeTables (c h : Nat) (s : State) : Res := s.mergeIssue c h 0
def execSkimMergeMerge (c h : Nat) (s : State) : Res := s.mergeIssue c h 1
def execSkimMergeExpand (c h : Nat) (s : State) : Res := s.mergeIssue c h 2
def execSkimMergeRerank (c h : Nat) (s : State) : Res := s.mergeIssue c h 3
def execSkimMergeRescan (c h : Nat) (s : State) : Res := s.mergeIssue c h 4
def execSkimMergeFetch (c h : Nat) (s : State) : Res := s.mergeIssue c h 5

/-! ### Distances (R364, R366, R367): FP32 operations on exact values -/

/-- A sum in ascending order. -/
def vSum (xs : List Fv) : Fv := xs.foldl vAdd (.ofInt 0)
def vDot (a b : List Fv) : Fv := vSum ((a.zip b).map fun p => vMul p.1 p.2)

/-- ‖q‖, and q′ (R366). -/
def qNorm (q : List Fv) : Fv := f32v (Fv.sqrt (vDot q q))
def qUnit (q : List Fv) : List Fv := let n := qNorm q
                                      if n.isZero then q.map fun _ => .ofInt 0 else q.map fun x => vDiv x n

/-- Distance over the dimensions given: squared Euclidean, −Σ q c, −Σ q′ c (Table 14-1 without the 1 of cosine). -/
def partDist (metric : Nat) (q c : List Fv) : Fv :=
  if metric = 0 then vSum ((q.zip c).map fun p => let d := vSub p.1 p.2
                                                  vMul d d)
  else Fv.neg (vDot q c)

/-- The exact distance of a query and a vector (R378). -/
def exactDist (metric : Nat) (q x : List Fv) : Fv :=
  if metric = 2 then vSub vOne (vDot (qUnit q) x) else partDist metric q x

def fvMin (a b : Fv) : Fv := if Fv.lt b a then b else a
def fvMax (a b : Fv) : Fv := if Fv.lt a b then b else a

/-- The distances e(m, c) of a query over a codebook, as FP16 patterns (R366, step 2). -/
def tableE (metric m codes : Nat) (q : List Fv) (cb : List Byte) : List (List Nat) :=
  let sub := q.length / m
  let q1 := if metric = 2 then qUnit q else q
  (List.range m).map fun i => (List.range codes).map fun c =>
    let cen := (words16 ((cb.drop (2 * sub * (codes * i + c))).take (2 * sub))).map decB16
    (enc16sat (partDist metric ((q1.drop (i * sub)).take sub) cen)).1

/-- A query's table and its scale record (R366, R367). Where some e is a NaN the spec states no smallest or largest value, and
the table, Δ and OFFSET are the free bytes of draw `k`. -/
def tableOf (metric m codes : Nat) (q : List Fv) (cb : List Byte) (k : Nat) : List Byte × List Byte :=
  let es := (tableE metric m codes q cb).map fun r => r.map dec16
  let los := es.map fun r => r.foldl fvMin (r.headD (.ofInt 0))
  let spans := (es.zip los).map fun z => vSub (z.1.foldl fvMax (z.1.headD (.ofInt 0))) z.2
  let delta := vDiv (spans.foldl fvMax (.ofInt 0)) (vNat 255)
  let t := ((es.zip los).map fun z => z.1.map fun e =>
    if delta.isZero then 0 else min 255 ((vDiv (vSub e z.2) delta).round .rne).toNat).flatten
  let off0 := vSum los
  let off := if metric = 2 then vAdd off0 vOne else off0
  let tail := natLE m 2 ++ [BitVec.ofNat 8 (if codes = 16 then 1 else 0), BitVec.ofNat 8 metric] ++
    natLE (if metric = 2 then enc32 (qNorm q) else 0) 4
  if es.any fun r => r.any Fv.isNan then
    ((List.range (m * codes)).map (Config.openByte k), (List.range 8).map (fun i => Config.openByte k (m * codes + i)) ++ tail)
  else (t.map (BitVec.ofNat 8), natLE (enc32 delta) 4 ++ natLE (enc32 off) 4 ++ tail)

/-! ### Lists (R368 to R370) -/

/-- An entry of a list: vector ID, FP32 distance, D, flags. -/
structure LEnt where
  id : Nat
  dist : Nat
  dq : Nat
  flags : Nat
deriving DecidableEq, Repr

def LEnt.tomb (e : LEnt) : Bool := bit e.flags 1
def LEnt.expanded (e : LEnt) : Bool := bit e.flags 0

/-- FP32 patterns in exact-key order: a NaN after every number, −0 with +0. -/
def distLt (a b : Nat) : Bool :=
  let x := dec32 a
  let y := dec32 b
  if x.isNan then false else if y.isNan then true else Fv.lt x y

/-- Rank order: PQ key, or exact key, ascending or with larger scores first (R368, R377). -/
def entLe (exact descend : Bool) (a b : LEnt) : Bool :=
  if exact then
    let nan (e : LEnt) : Bool := (dec32 e.dist).isNan
    let lt (x y : LEnt) : Bool := if descend ∧ ¬ nan x ∧ ¬ nan y then distLt y.dist x.dist else distLt x.dist y.dist
    lt a b || (!lt b a && decide (a.id ≤ b.id))
  else decide (a.dq < b.dq ∨ (a.dq = b.dq ∧ a.id ≤ b.id))

/-- Of sorted entries the first of each ID. -/
def firstOfIds : List LEnt → List Nat → List LEnt
  | [], _ => []
  | e :: es, seen => if seen.contains e.id then firstOfIds es seen else e :: firstOfIds es (e.id :: seen)

/-- Ranked entries without duplicates. -/
def ranked (exact descend : Bool) (es : List LEnt) : List LEnt := firstOfIds (es.mergeSort (entLe exact descend)) []

/-- Header and entries of a result list (Table 14-2); the bytes after the last entry are not written. -/
def resultList (flags metric k cands : Nat) (es : List LEnt) : List Byte :=
  natLE es.length 2 ++ [BitVec.ofNat 8 (flags + b2n (es.length < k)), BitVec.ofNat 8 metric] ++ natLE k 2 ++ natLE 0 2 ++ natLE cands 8 ++
    es.flatMap fun e => natLE e.id 8 ++ natLE e.dist 4 ++ natLE e.dq 2 ++ [BitVec.ofNat 8 e.flags, 0]

/-- Entries of a result list as it lies in memory. -/
def listEntries (bs : List Byte) : List LEnt :=
  (List.range (fld bs 0 2)).map fun e =>
    { id := fld bs (16 + 16 * e) 8, dist := fld bs (24 + 16 * e) 4, dq := fld bs (28 + 16 * e) 2, flags := fld bs (30 + 16 * e) 1 }

/-- Entries of a Colander list, with distances under a scale record (R367). -/
def colEntries (bs scale : List Byte) : List LEnt :=
  (List.range (fld bs 0 2)).map fun e =>
    let d := fld bs (24 + 10 * e) 2
    let dist := if scale.isEmpty then vNat d else vAdd (dec32 (fld scale 4 4)) (vMul (dec32 (fld scale 0 4)) (vNat d))
    { id := fld bs (16 + 10 * e) 8, dist := enc32 dist, dq := d, flags := 0 }

/-! ### Operands -/

/-- `n` bytes of an operand of SB, HBM or SLM kind. -/
def State.opRead (s : State) (m : Move) (kind a n : Nat) : List Byte :=
  if kind = 0 then s.sbRead m.hob (a % 2 ^ 28) n
  else if kind = 1 then s.tiers.hbm.readN a n
  else if kind = 2 then
    let rs := match s.ctx? m.ctx with
      | some x => s.mrsOf x.req.fn m.mrs
      | none => []
    (List.range n).map fun j => match s.mrsAddr rs (a + j) with
      | some b => s.tiers.hbm.read b
      | none => 0
  else []

/-- Input list `i` of query `t` (R373); EXPAND, RERANK and FETCH take one list for each query (DEDUCED, log 20). -/
def State.inList (s : State) (m : Move) (t i : Nat) : List Byte :=
  let r := m.record
  let n := if smMode m.word = 1 then mqN r else 1
  s.opRead m (mqSrcKind r) (mqAddr m.base r 0 + (t * n + i) * mqStride r) (mqStride r)

/-- AUX bytes from offset `o`. -/
def State.auxRead (s : State) (m : Move) (o n : Nat) : List Byte := s.opRead m (mqAuxKind m.record) (mqAddr m.base m.record 2 + o) n

/-- The values of query `t` of an operand. -/
def queryOf (k : List Byte) (c : Nat) (bs : List Byte) : List Fv := recordValues (colVfmt k c) (colParam k c) 0 bs

/-- A record's vector. -/
def State.vecOf (s : State) (k : List Byte) (e c r : Nat) : List Fv := queryOf k c ((s.recValue k e c r).getD [])

/-- A record that a list may deliver: seen at the epoch and not deleted (R370). -/
def State.live? (s : State) (k : List Byte) (e r : Nat) : Bool := decide (r < s.recordsOf k e) && !s.recDeleted k e r

/-! ### EXPAND (R381, R382) -/

/-- Slot of a record in a visited table, where it stands or would stand; none where every slot is occupied by others. -/
def probe (tab : List Nat) (r : Nat) : Nat → Nat → Option (Nat × Bool)
  | 0, _ => none
  | f + 1, h =>
    let v := tab.getD (h % tab.length) 0
    if v = r + 1 then some (h % tab.length, true) else if v = 0 then some (h % tab.length, false) else probe tab r f (h + 1)

/-- A visited table: slots, occupied slots, VBITS. -/
structure Visited where
  tab : List Nat
  used : Nat
  vb : Nat

/-- A record entered: whether it was there; none where the table would pass its limit. -/
def Visited.enter (v : Visited) (r : Nat) : Option (Bool × Visited) :=
  match probe v.tab r v.tab.length ((r + 1) * lfsrMul % 2 ^ 64 / 2 ^ (64 - v.vb)) with
  | some (_, true) => some (true, v)
  | some (p, false) => if 7 * 2 ^ (v.vb - 3) ≤ v.used then none else some (false, { v with tab := setAt v.tab p (r + 1), used := v.used + 1 })
  | none => none

/-- Every ID of a list entered. -/
def Visited.enterAll (v : Visited) : List Nat → Option Visited
  | [] => some v
  | r :: rs => (v.enter r).bind fun x => x.2.enterAll rs

/-- The neighbours of an expansion, in order: those new to the visited table; none where it fills up. -/
def newNeighbours (seen : Nat) : List Nat → Visited → List Nat → Option (List Nat × Visited)
  | [], v, acc => some (acc, v)
  | r :: rs, v, acc =>
    if r = 2 ^ 64 - 1 ∨ seen ≤ r then newNeighbours seen rs v acc
    else match v.enter r with
      | none => none
      | some (true, v1) => newNeighbours seen rs v1 acc
      | some (false, v1) => newNeighbours seen rs v1 (acc ++ [r])

/-- The first `n` entries not expanded, marked. -/
def markExpanded : Nat → List LEnt → List LEnt × List LEnt
  | _, [] => ([], [])
  | n, e :: es =>
    if n = 0 ∨ e.expanded then
      let x := markExpanded n es
      (e :: x.1, x.2)
    else
      let e1 := { e with flags := setBit e.flags 0 }
      let x := markExpanded (n - 1) es
      (e1 :: x.1, e1 :: x.2)

/-- What one step of EXPAND gives for a query: output list, visited table after it, neighbours scored, entries expanded, SHORT. -/
structure Expansion where
  list : List Byte
  tab : Option (List Nat)
  scored : List Nat
  grown : List Nat
  short : Bool

/-- One step for query `t`; none where the table is full. -/
def State.expandQuery (s : State) (m : Move) (j : Job) (k : List Byte) (t : Nat) : Option Expansion :=
  let r := m.record
  let l := s.inList m t 0
  let es := listEntries l
  let kk := mqK r
  if bit (fld l 2 1) 3 then
    some { list := resultList (8 + 4 * b2n (bit (fld l 2 1) 2)) (mqMetric r) kk (fld l 8 8) (es.take kk), tab := none, scored := [], grown := []
           short := decide ((es.take kk).length < kk) }
  else
    let tb := words32 (s.auxRead m (t * 8 * 2 ^ mqVbits r) (8 * 2 ^ mqVbits r))
    let tab := (List.range (2 ^ mqVbits r)).map fun i => tb.getD (2 * i) 0 + 2 ^ 32 * tb.getD (2 * i + 1) 0
    let v0 : Visited := { tab := tab, used := (tab.filter (· ≠ 0)).length, vb := mqVbits r }
    match v0.enterAll (es.map (·.id)) with
    | none => none
    | some v1 =>
      let x := markExpanded (mqN r) es
      let seen := s.recordsOf k j.epoch
      let slots := x.2.flatMap fun e =>
        if e.id < seen then unpack 64 (colWidth k (mqColA r) / 8) ((s.recValue k j.epoch (mqColA r) e.id).getD []) else []
      match newNeighbours seen slots v1 [] with
      | none => none
      | some (ns, v2) =>
        let tabq := j.tables.getD t (0, 8, [])
        let new := ns.map fun n =>
          let d := codeDistance tabq ((s.recValue k j.epoch (mqColB r) n).getD [])
          { id := n, dist := enc32 (vNat d), dq := d, flags := 2 * b2n (s.recDeleted k j.epoch n) : LEnt }
        let out := (ranked false false (x.1 ++ new)).take kk
        let done : Bool := out.all LEnt.expanded
        some { list := resultList (8 * b2n done) (mqMetric r) kk (fld l 8 8 + ns.length) out, tab := some v2.tab, scored := ns
               grown := (x.2.filter fun e => e.id < seen).map (·.id), short := decide (out.length < kk) }

/-! ### What a descriptor writes -/

/-- The work of a running SKIM_MERGE: writes as (kind, address, bytes), results SHORT, input entries, exact distances,
neighbours scored, records read as (column, record), and whether a draw was taken. -/
structure MOut where
  ws : List (Nat × Nat × List Byte)
  shorts : Nat
  ents : Nat
  dists : Nat
  nbrs : Nat
  reads : List (Nat × Nat)
  drew : Bool

/-- The distinct candidates of RERANK for query `t`. -/
def State.rerankCands (s : State) (m : Move) (j : Job) (k : List Byte) (t : Nat) : List Nat :=
  (((listEntries (s.inList m t 0)).take (mqN m.record)).filter fun e => !e.tomb && s.live? k j.epoch e.id).map (·.id) |>.eraseDups

/-- The deletion column's read of a record. -/
def delReads (k : List Byte) (r : Nat) : List (Nat × Nat) := if clDelCol k = 0xFF then [] else [(clDelCol k, r)]

/-- The records of RESCAN's range in reach, of both Hobs for a paired context. -/
def State.rescanRange (s : State) (m : Move) (k : List Byte) : List Nat :=
  let hobs := match s.ctx? m.ctx with
    | some x => if x.req.pairing = 2 then [0, 1] else [m.hob]
    | none => [m.hob]
  ((List.range (mqCount m.record)).map (mqFirst m.record + ·)).filter fun r =>
    hobs.any fun h => (s.reach h).contains (s.recColander k r)

/-- The records of RESCAN's candidate set (R369). -/
def State.rescanCands (s : State) (m : Move) (j : Job) (k : List Byte) : List Nat :=
  (s.rescanRange m k).filter fun r => s.live? k j.epoch r && s.jobPasses j k r

/-- Ranked exact distances of a query over candidates, as result entries. -/
def State.exactEntries (s : State) (k : List Byte) (j : Job) (metric col : Nat) (q : List Fv) (rs : List Nat) : List LEnt :=
  ranked true false (rs.map fun r => { id := r, dist := enc32 (exactDist metric q (s.vecOf k j.epoch col r)), dq := 0, flags := 0 : LEnt })

/-- The inputs of a MERGE for query `t`: entries and key (R377). -/
def State.mergeInputs (s : State) (m : Move) (t : Nat) : List LEnt × Bool :=
  let r := m.record
  if mqForm r = 2 then
    let bs := s.opRead m (mqSrcKind r) (mqAddr m.base r 0 + 4 * mqN r * t) (4 * mqN r)
    ((words32 bs).zipIdx.map fun x => { id := x.2, dist := x.1, dq := 0, flags := 0 }, true)
  else if mqForm r = 1 then
    let ls := (List.range (mqN r)).map (s.inList m t)
    ((ls.flatMap listEntries).filter fun e => !e.tomb, bit (fld (ls.headD []) 2 1) 2)
  else
    let sc := if mqAuxKind r = 8 then [] else s.auxRead m (16 * t) 16
    (((List.range (mqN r)).map (s.inList m t)).flatMap fun l => colEntries l sc, false)

/-- What a descriptor writes; none where a visited table is full. -/
def State.mergeOut (s : State) (m : Move) (j : Job) (k : List Byte) : Option MOut :=
  let w := m.word
  let r := m.record
  let qs := List.range (smQ w)
  let dst := mqAddr m.base r 1
  let dk := mqDstKind r
  let kk := mqK r
  let a := mqColA r
  let none0 : MOut := { ws := [], shorts := 0, ents := 0, dists := 0, nbrs := 0, reads := [], drew := false }
  match smMode w with
  | 0 =>
    let mm := colParam k a
    let codes := pqCodes k a
    let ql := queryLen k (mqColB r)
    let cb := s.auxRead m 0 (2 * colParam k (mqColB r) * codes)
    let ts := qs.map fun t =>
      tableOf (mqMetric r) mm codes (queryOf k (mqColB r) (s.opRead m (mqSrcKind r) (mqAddr m.base r 0 + t * ql) ql)) cb (s.freeCount + t)
    some { none0 with ws := [(dk, dst, ts.flatMap Prod.fst ++ ts.flatMap Prod.snd)], drew := true }
  | 1 =>
    let os := qs.map fun t =>
      let x := s.mergeInputs m t
      let all := ranked x.2 (mqDescend r) x.1
      (resultList (4 * b2n x.2) (mqMetric r) kk all.length (all.take kk), decide (all.length < kk), x.1.length)
    some { none0 with ws := os.zipIdx.map (fun o => (dk, dst + o.2 * resultBytes kk, o.1.1)), shorts := (os.filter fun o => o.2.1).length
                      ents := (os.map fun o => o.2.2).sum }
  | 2 =>
    let os := qs.map (s.expandQuery m j k)
    if os.any Option.isNone then none
    else
      let xs := os.filterMap id
      some { none0 with
        ws := xs.zipIdx.flatMap fun o => (match o.1.tab with
          | some tab => [(mqAuxKind r, mqAddr m.base r 2 + o.2 * 8 * 2 ^ mqVbits r, packElems 64 tab)]
          | none => []) ++ [(dk, dst + o.2 * resultBytes kk, o.1.list)]
        shorts := (xs.filter (·.short)).length, nbrs := (xs.map fun o => o.scored.length).sum
        reads := xs.flatMap fun o => o.grown.map (fun e => (a, e)) ++ o.scored.flatMap fun n => (mqColB r, n) :: delReads k n }
  | 3 =>
    let ql := queryLen k a
    let os := qs.map fun t =>
      let cs := s.rerankCands m j k t
      (s.exactEntries k j (mqMetric r) a (queryOf k a (s.auxRead m (t * ql) ql)) cs, cs)
    some { none0 with
      ws := os.zipIdx.map fun o => (dk, dst + o.2 * resultBytes kk, resultList 4 (mqMetric r) kk o.1.2.length (o.1.1.take kk))
      shorts := (os.filter fun o => o.2.length < kk).length, dists := (os.map fun o => o.2.length).sum
      reads := os.flatMap fun o => o.2.map fun x => (a, x) }
  | 4 =>
    let ql := queryLen k a
    let cs := s.rescanCands m j k
    let os := qs.map fun t => s.exactEntries k j (mqMetric r) a (queryOf k a (s.auxRead m (t * ql) ql)) cs
    some { none0 with
      ws := os.zipIdx.map fun o => (dk, dst + o.2 * resultBytes kk, resultList 6 (mqMetric r) kk cs.length (o.1.take kk))
      shorts := (os.filter fun o => o.length < kk).length, dists := cs.length * smQ w
      reads := (s.rescanRange m k).flatMap (fun x => (jobColumns j k).map fun q => (q, x)) ++ cs.map fun x => (a, x) }
  | _ =>
    let wd := colWidth k a
    let val (t e : Nat) : List Byte × List (Nat × Nat) :=
      match (listEntries (s.inList m t 0))[e]? with
      | some x => if x.tomb || !s.live? k j.epoch x.id then (List.replicate wd 0, [])
        else ((s.recValue k j.epoch a x.id).getD [], [(a, x.id)])
      | none => (List.replicate wd 0, [])
    let vs := qs.flatMap fun t => (List.range (mqN r)).map (val t)
    some { none0 with ws := [(dk, dst, vs.flatMap Prod.fst)], reads := vs.flatMap Prod.snd }

/-- An input list whose ENTRIES exceeds its capacity, or lists whose keys differ (LIST_INVALID): the query and list. -/
def State.listFault (s : State) (m : Move) : Option Nat :=
  let r := m.record
  let mode := smMode m.word
  if mode = 0 ∨ mode = 4 ∨ (mode = 1 ∧ mqForm r = 2) then none
  else
    let n := if mode = 1 then mqN r else 1
    let ls := (List.range (smQ m.word)).flatMap fun t => (List.range n).map fun i => (t, s.inList m t i)
    let col : Bool := mode == 1 && mqForm r == 0
    let cap (l : List Byte) : Nat := if col then (mqStride r - 16) / 10 else min ((mqStride r - 16) / 16) (fld l 4 2)
    let key (l : List Byte) : Bool := bit (fld l 2 1) 2
    (ls.find? fun x => decide (cap x.2 < fld x.2 0 2) || (mode == 1 && !col && key x.2 != key (match ls with
      | y :: _ => y.2
      | [] => []))).map Prod.fst

/-- The output of a SKIM_MERGE is accepted (R376, R378): its bytes, its counters, and what FINAL gives. -/
def State.endMerge (s : State) (c h : Nat) (m : Move) (j : Job) (k : List Byte) (o : MOut) : State :=
  let r := m.record
  let ch := 64 * h + smOut m.word
  let ius := (o.reads.map fun p => (recPlace k p.1 p.2).1).eraseDups
  let s0 := if s.injectLeft 0x17 h 2 = 0 then s else s.err 0x17 h [2] 0 c
  let s1 := (s0.countReads ius []).work c 16 (s.flashBytes ius)
  let s2 := o.ws.foldl (fun t v => t.dstWrite c h v.1 m.mrs [(v.2.1, v.2.2)]) s1
  let s3 := (s2.countUnits 0x12 ch 0 (o.ws.map fun v => v.2.2.length).sum 64).count 0x12 ch 1 1
  let s4 := ((s3.count 0x17 h 0 o.ents).count 0x17 h 1 o.dists).count 0x17 h 2 o.nbrs
  let s5 := s4.fbump merge_SHORT_RESULTS h o.shorts
  let s6 := if mqFinal r then s5.setResult c h (j.epoch % 2 ^ 32) else s5
  let s7 := if mqFinal r ∧ o.shorts ≠ 0 then s6.taskFlag c 0 else s6
  if o.drew then { s7 with freeCount := s7.freeCount + smQ m.word } else s7

/-- The fault that the records which an output reads meet now: code, case and information. -/
def State.mergeReadFault (s : State) (c h : Nat) (x : Ctx) (m : Move) (j : Job) (k : List Byte) (o : MOut) : Option (Nat × Nat × Nat) :=
  if smReads m.word then
    s.readFault c h x (mqColl m.record) j.epoch k (o.reads.map Prod.fst).eraseDups ((o.reads.map fun p => (recPlace k p.1 p.2).1).eraseDups)
      (o.reads.map Prod.snd)
  else none

/-- SKIM_MERGE_COMPLETE (R376): the oldest issue of descriptor `i` of Hob `h`, whose output its channel runs, ends: its bytes
are accepted, or a fault that its operands show stops it (R377, R382, Table 13-13); or its unit detects an error: `check` 1 a residue mismatch, else
an uncorrectable word of its buffers, which within 24 hours of another retires the unit (MERGE_CHECK, R469); an armed injection makes the same
(R72). FINAL writes RESULT and carries SHORT. -/
def execSkimMergeComplete (c h i check : Nat) (s : State) : Res :=
  match s.issueOf c h i, s.ctx? c with
  | some e, some x =>
    let ch := 64 * h + smOut e.word
    match (s.chan ch).run with
    | none => .next s
    | some m =>
      match m.job, sget? s.near.collections (65536 * x.req.fn + mqColl m.record) with
      | some j, some kc =>
        let k := kc.bytes
        let r := m.record
        let flt (code case info : Nat) (bs : List Nat) : Res :=
          .next ((if bs.isEmpty then s else s.err 0x17 h bs info c).faultCtx c
            { code := code, index := i, case := case, hob := h, ucls := 0x17, uinst := h, info := info })
        if e.cls ≠ 0x22 ∨ m.ctx ≠ c ∨ m.ser ≠ e.ser ∨ s.ungranted c e.ser ∨ s.fget (hdr_STATE 0x12) ch ≠ 2 ∨ s.fget (hdr_STATE 0x17) h ≠ 2 then .next s
        else if s.injectLeft 0x17 h 1 ≠ 0 then .next s
        else if check ≠ 0 ∨ (s.armed 0x17 h [3, 8]).isSome then
          let check := if s.injectLeft 0x17 h 8 ≠ 0 then 1 else if s.injectLeft 0x17 h 3 ≠ 0 then 2 else check
          let inj : Bool := s.injectLeft 0x17 h (if check = 1 then 8 else 3) != 0
          let ev := s.countEvent 16 h dayTicks
          let s1 := if check = 1 ∨ inj then s else if 2 ≤ ev.1 then ev.2.condemnUnit 0x17 h 3 else ev.2
          .next ((s1.err 0x17 h [if check = 1 then 8 else 3] 0 c).faultCtx c
            { code := 0x5D, index := i, hob := h, ucls := 0x17, uinst := h })
        else match s.listFault m with
        | some q => flt 0x5C 0 q [9]
        | none => match s.mergeOut m j k with
          | none =>
            .next ((s.fbump merge_VISITED_FAULTS h 1).faultCtx c { code := 0x58, index := i, hob := h, ucls := 0x17, uinst := h })
          | some o =>
            match s.mergeReadFault c h x m j k o with
            | some f => flt f.1 f.2.1 f.2.2 []
            | none => .next ((s.endMerge c h m j k o).endMove ch m)
      | _, _ => .next s
  | _, _ => .next s

/-- The spans of the output that a channel runs or queues for a FILTER, SKIM_SCAN or SKIM_MERGE. -/
def State.jobSpans (s : State) (m : Move) : List Span :=
  let coll (id : Nat) : List Byte := match s.ctx? m.ctx with
    | some x => ((sget? s.near.collections (65536 * x.req.fn + id)).map fun k => k.bytes).getD []
    | none => []
  let r := m.record
  if descClass m.word = 0x22 then smSpans m.word m.base r (coll (mqColl r))
  else
    let n := (s.reach m.hob).length
    [rqSpan m.base r (if descClass m.word = 0x20 then filterLen (bits m.word 12 2) n (colWidth (coll (rqColl r)) (rqCol r)) r
      else skQ m.word * n * listBytes (rqK r))]

/-! ### EPOCH_ADVANCE (R387) -/

def eaColl (w : Nat) : Nat := bits w 12 16
def eaNeigh (w : Nat) : Nat := bits w 30 8
def eaVisible (w : Nat) : Nat := bits w 38 60

/-- EPOCH_ADVANCE at decode: the checks of R387 in order. The advance is noted, and takes effect at the successful end of the
task. Check 1 reads the collection where it is defined. -/
def execEpochAdvance (c h : Nat) (s : State) : Res :=
  s.onDesc c h 0x23 fun d =>
    let w := d.w
    let k? := s.collection c d.x (eaColl w)
    let bad : Bool := match k? with
      | none => false
      | some k => decide (clRecords k < eaVisible w) || (eaNeigh w != 0xFF && (decide (clColumns k ≤ eaNeigh w) ||
          colType k (eaNeigh w) != 0xA || colWidth k (eaNeigh w) % 8 != 0 || decide (512 < colWidth k (eaNeigh w))))
    if bits w 98 6 ≠ 0 ∨ (eaNeigh w = 0xFF ∧ bit w 29) ∨ bad then s.descFault d 0x01
    else match k? with
    | none => s.descFault d 0x51
    | some k =>
      if s.sanitizing then s.descFault d 0x06 16
      else if s.fget glob_MEDIA_MODE 0 = 1 then s.descFault d 0x05 15
      else if ¬ (s.ftl.domains.any fun p => p.1 == clDomain k && p.2.live) ∧ 4096 ≤ (s.ftl.domains.filter fun p => p.2.live).length then s.descFault d 0x5A
      else (s.pass d fun t => { t with advances := t.advances ++ [(d.i, w)] }).noteColl c (eaColl w)

end Sys2Proof.Machine
end

