-- ==== Sys2Proof/Machine/Read.lean ====
section
/-!
DEFINITION. What a read of the register pages returns: fields that report other state, BUSY, words, LO and HI pairs
(03_register_pages.md).
-/

namespace Sys2Proof.Machine

/-! ### Views of state that stands outside the register store -/

/-- The sum of `f n` × 2^(k n) over `n` below `m`. -/
def packed (m k : Nat) (f : Nat → Nat) : Nat := ((List.range m).map fun n => f n * 2 ^ (k * n)).sum

/-- Griddle page (Table 07-10): REGION_STATE with its BUSY bits, TILE_STATE, SHADOW_FULL and WEIGHTS_VALID. -/
def State.viewGrid (s : State) (i off lsb : Nat) : Option Nat :=
  let n := s.fget grid_REGIONS i
  if off = 0x108 then some (s.fget grid_REGION_STATE i + packed n 4 fun r =>
    let x := s.region i r
    8 * b2n x.busy)
  else if off = 0x10C then some (packed n 4 fun r => packed 2 2 fun t => (((s.region i r).tiles[t]?).map TileShare.st).getD 0)
  else if off = 0x110 then
    some (packed n 1 fun r => b2n (if lsb = 0 then (s.region i r).shadow.isSome else !(s.region i r).active.isEmpty))
  else none

/-- Drain page (Table 08-9): tables, queue, accumulation and drain settings of each region. -/
def State.viewDrain (s : State) (i off lsb : Nat) : Option Nat :=
  if off = 0x104 then some (packed 4 4 fun r =>
    let x := s.region i r
    packed 2 2 fun k => b2n ((x.act.getD k none).isSome) + 2 * b2n ((x.chan.getD k none).isSome))
  else if off = 0x108 then some (packed 4 2 fun r => (s.region i r).hands.length)
  else if 0x110 ≤ off ∧ off < 0x120 then
    let x := s.region i ((off - 0x110) / 4)
    let ac := x.acc.getD { exp := 0, zero := 0, pre := 0 }
    if lsb = 0 then some (unsigned ac.exp 9)
    else if lsb = 12 then some ac.pre
    else if lsb = 16 then some (unsigned ac.zero 8)
    else if lsb = 24 then some (b2n (((x.tiles[0]?).map TileShare.fp).getD false))
    else if lsb = 25 then some (b2n (((x.tiles[1]?).map TileShare.fp).getD false))
    else some (b2n x.acc.isSome)
  else if 0x120 ≤ off ∧ off < 0x130 then
    let x := s.region i ((off - 0x120) / 4)
    let w := x.cfg.getD 0
    let part (lo n : Nat) : Option Nat := some (bits w lo n)
    match lsb with
    | 0 => part 40 4
    | 4 => part 44 1
    | 5 => part 45 2
    | 7 => part 47 1
    | 8 => part 91 2
    | 10 => part 93 2
    | 12 => part 101 1
    | 13 => part 65 1
    | 15 => some (b2n x.cfg.isSome)
    | 16 => part 49 8
    | _ => part 57 8
  else none

/-- WAIT_CAUSE of a channel (Table 09-9): of its running move, 3 a crossing point, 1 its source, 2 its destination; of its oldest queued one, 5 its
LOCKSTEP due frame, 6 its Whisk, 1 its source; with nothing issued, 4 where the next move waits for SB ports. -/
def State.waitCause (s : State) (ch : Nat) : Nat :=
  let q := s.chan ch
  match q.run, q.queue with
  | some m, _ =>
    let room : Bool := s.stagingRoom (rcDstKind m.record) (m.records.map fun t => (t.2.2, m.dstLen (s.moveWhisk m.hob m.word)))
    if s.ungranted m.ctx m.ser then 3
    else if m.job.isSome then 1
    else if rcSrcPort m.record ∧ m.out.isEmpty then 1
    else if rcDstPort m.record then (if rcSrcKind m.record = 6 ∧ ¬ s.sourceOk m then 1 else 2)
    else if ¬ rcSrcPort m.record ∧ ¬ s.sourceOk m then 1
    else if ¬ room then 2 else 0
  | none, m :: _ =>
    if s.fget glob_DET_MODE_EFFECTIVE 0 = 1 ∧ s.tick < m.due then 5
    else if s.whiskHeld m then 6
    else if m.job.isSome ∨ ¬ (s.notReady m).isEmpty then 1 else 0
  | none, [] => s.fget ladle_WAIT_CAUSE ch

/-- Bytes of a move not yet accepted at its destination. -/
def State.bytesLeft (s : State) (m : Move) : Nat :=
  if m.job.isSome then ((s.jobSpans m).filter (·.write)).map (fun p => p.hi + 1 - p.lo) |>.sum
  else
    let n := m.dstLen (s.moveWhisk m.hob m.word)
    (m.records.map fun t => if m.filled.isEmpty then n else
      ((List.range n).filter fun j => !m.filled.contains (t1Of (t.2.2 + j))).length).sum

/-- Kinds of the source and the destination of a running entry, as the channel's page shows them: an output of a near-flash descriptor or of a merge
has a collection as its source (DESIGN CHOICE, log 44). -/
def Move.kinds (m : Move) : Nat × Nat :=
  if m.job.isNone then (rcSrcKind m.record, rcDstKind m.record)
  else (5, if descClass m.word = 0x22 then mqDstKind m.record else rqKind m.record)

/-- Ladle page (Table 09-9): its running and queued moves. -/
def State.viewLadle (s : State) (i off lsb : Nat) : Option Nat :=
  let q := s.chan i
  if off = 0x100 then
    if lsb = 0 then some (b2n q.run.isSome)
    else if lsb = 2 then some (s.waitCause i)
    else if lsb = 8 then some ((q.run.map fun m => m.kinds.1).getD 0)
    else if lsb = 12 then some ((q.run.map fun m => m.kinds.2).getD 0)
    else if lsb = 16 then some ((q.run.map (·.index)).getD 0)
    else none
  else if off = 0x104 then some q.queue.length
  else if off = 0x108 then some ((q.run.map s.bytesLeft).getD 0 % 2 ^ 32)
  else if off = 0x10C then some ((q.run.map s.bytesLeft).getD 0 / 2 ^ 32)
  else none

/-- Whisk page (Table 09-10): the WHISK descriptor in force. -/
def State.viewWhisk (s : State) (i off lsb : Nat) : Option Nat :=
  let u := s.whisk i
  let w := u.cfg.getD 0
  if off = 0x100 then
    match lsb with
    | 0 => some (whAttach w)
    | 2 => some (whRot w)
    | 5 => some (b2n (whSmooth w))
    | 6 => some (b2n (whSigns w))
    | 7 => some (b2n u.loaded)
    | 8 => some (whGriddle w)
    | 13 => some (whRegion w)
    | _ => some (whVlen w)
  else if off = 0x104 then
    match lsb with
    | 0 => some (whInFmt w)
    | 4 => some (whOutFmt w)
    | 8 => some (b2n (whRound w))
    | _ => some (unsigned (whZOut w) 8)
  else none

/-- SB page (Table 09-11): the ports bound now. -/
def State.viewSb (s : State) (h off : Nat) : Option Nat :=
  let bound (w : Bool) (lo n : Nat) : Option Nat :=
    some (packed n 1 fun g => b2n (s.units.bound.any fun b => b.hob == h && b.write == w && b.group == lo + g))
  if off = 0x114 then bound false 0 32
  else if off = 0x118 then bound false 32 16
  else if off = 0x11C then bound true 0 32
  else if off = 0x120 then bound true 32 16
  else none

/-- HBM controller page (Table 10-8): page counts of stack `k`, and the slots of its Hob's batch manager. -/
def State.viewHbm (s : State) (k off lsb : Nat) : Option Nat :=
  let on (l : List Nat) : Option Nat := some (l.filter fun t => t / 24576 == k).length
  let gone : Bool := s.tiers.lost.contains k
  if off = 0x104 ∧ lsb = 16 then some (if gone then 0 else 24512 - (s.tiers.retired.filter fun t => t / 24576 == k).length)
  else if off = 0x108 then
    if lsb = 0 then some ((if gone then 0 else 64) + (s.tiers.device.filter fun t => t / 24576 == k).length) else on s.slmPages
  else if off = 0x10C then
    if lsb = 0 then on s.ctxPages
    else on (s.cp.ctxs.flatMap fun p => (p.2.pages.filter fun g => g.1 == 2).map Prod.snd)
  else if off = 0x110 then if lsb = 0 then on s.copyPages else some (s.freeCountOf k)
  else if off = 0x120 then on (if lsb = 0 then s.tiers.retired else s.tiers.marked)
  else if off = 0x200 ∧ lsb = 16 then
    some ((s.tiers.batches.filter fun p => match s.ctx? p.1 with
      | some x => 4 * (if x.req.pairing = 1 then 1 else 0) == k
      | none => false).map fun p => p.2.slots.length).sum
  else if off = 0x204 then some (if k % 4 = 0 then s.slotsDeclared (k / 4) else 0)
  else none

/-- The descriptor that a Colander serves: kind (1 filter, 3 scan, 4 collection stream, 5 FTL work only), context and index. -/
def State.colWork (s : State) (i : Nat) : Nat × Nat × Nat :=
  let runs := s.units.chans.filterMap fun p => p.2.run
  match runs.find? fun m => m.job.isSome && m.hob == i / 32 && (m.word % 256 == 0x20 || m.word % 256 == 0x21) with
  | some m => (if m.word % 256 = 0x20 then 1 else 3, m.ctx, m.index)
  | none => match runs.find? fun m => m.job.isNone && rcSrcKind m.record == 5 && m.hob == i / 32 with
    | some m => (4, m.ctx, m.index)
    | none => (if s.nand.ops.any fun p => p.1 / 16 == i then 5 else 0, 0xFF, 0)

/-- Colander page (Table 13-14): lanes, slots and running work. -/
def State.viewCol (s : State) (i off lsb : Nat) : Option Nat :=
  let k := s.link i
  let ts := s.near.tslots.filter fun p => p.1 / 64 == i
  if off = 0x104 ∧ lsb = 16 then some (packed 3 1 fun n => b2n (k.lanes.getD n 2 == 0))
  else if off = 0x108 then some (packed 32 1 fun q => b2n (ts.any fun p => p.1 % 64 == q))
  else if off = 0x10C then some (packed 32 1 fun q => b2n (ts.any fun p => p.1 % 64 == 32 + q))
  else if off = 0x110 then
    if lsb = 0 then some (if ts.isEmpty then 0xFF else s.fget (hdr_OWNER_CONTEXT 0x17) (i / 32))
    else if lsb = 8 then some (s.near.fslots.filter fun p => p.1 / 128 == i).length
    else some (s.ftl.keysLoaded.filter fun q => q / 128 == i).length
  else if off = 0x114 then
    let w := s.colWork i
    some (if lsb = 0 then w.1 else if lsb = 8 then w.2.1 else w.2.2)
  else none

/-- FTL page (Table 16-10): capacity, collection, staging, map and sanitize. -/
def State.viewFtl (s : State) (off lsb : Nat) : Option Nat :=
  let free := s.inService.map fun c => (c, (s.freeSbs c).length)
  let least := free.foldl (fun (a : Option (Nat × Nat)) p => match a with
    | some b => if p.2 < b.2 then some p else some b
    | none => some p) none
  match off, lsb with
  | 0x104, _ => some (userPages s.variant)
  | 0x114, 7 => some (b2n !s.ftl.evacuating.isEmpty)
  | 0x114, 8 => some (s.ftl.evacuating.headD 0)
  | 0x114, 14 => some (b2n s.ftl.shedding.isSome)
  | 0x114, 16 => some (match least with | some p => min p.2 255 | none => 0)
  | 0x114, 24 => some (match least with | some p => p.1 | none => 0)
  | 0x128, 0 => some s.ftl.staging.length
  | 0x12C, _ => some (s.iusIn 2)
  | 0x130, _ => some (s.iusIn 3)
  | 0x134, _ => some (s.nand.grown.map Prod.snd).sum
  | 0x138, 0 => some (min s.eraseMax 65535)
  | 0x138, _ => some s.eraseAvg
  | 0x140, 0 => some (if s.sanitizing ∧ s.ftl.sanSteps < 256 then 256 * s.ftl.sanSteps else 0xFFFF)
  | 0x140, _ => some s.ftl.sanAction
  | 0x144, _ => some s.ftl.versions.length
  | _, _ => none

/-- Kettle page (Table 18-10): the sensor that SENSOR_SELECT names. -/
def State.viewKettle (s : State) (off lsb : Nat) : Option Nat :=
  let n := s.fget kettle_SENSOR_SELECT 0
  let there : Bool := sensorExists s.variant n
  if off ≠ 0x114 then none
  else if lsb = 0 then some (if there then unsigned (sget s.kettle.sensors n 0) 16 else 0)
  else if lsb = 16 then some (if there then (sensorClass n).getD 0 else 0)
  else if lsb = 24 then some (b2n (there && (sget? s.kettle.sensors n).isSome))
  else some (b2n (there && s.kettle.failed.contains n))

/-- A pantry link of Table 17-5 is up: its Colander is fitted and reachable, and a lane is active. -/
def State.pantryUp (s : State) (k : Nat) : Bool :=
  colanderFitted s.variant k && !s.ftl.unreach.contains k && (s.link k).lanes.contains 0 && s.fget (hdr_STATE 0x21) k != 0

/-! ### BUSY -/

/-- An entry of a channel has a side in HBM stack `k`. -/
def State.onStack (s : State) (m : Move) (k : Nat) : Bool :=
  (if m.job.isSome then s.jobSpans m else m.spans (s.moveWhisk m.hob m.word)).any fun p => p.kind == 1 && p.lo / 2 ^ 36 == k

/-- Contexts whose task registers are loaded on Hob `h` (R574). -/
def State.tasksLoaded (s : State) (h : Nat) : Nat :=
  (s.cp.ctxs.filter fun p => p.2.st.loaded && p.2.task.isSome && p.2.req.uses h).length

/-- BUSY of a unit: some stage of it holds work (Table 03-3, R62, R66). A unit without a queue of its own holds the work that is under way through it:
a Whisk the running moves that name it and the hand-overs of its region, the SB of a Hob its bound ports, an HBM stack, a hub, and a Colander the
running work and the requests that wait there (DESIGN CHOICE, log 42). -/
def State.unitBusy (s : State) (c i : Nat) : Bool :=
  let runs := s.units.chans.filterMap fun p => p.2.run
  if c = 0x10 then s.tasksLoaded i != 0
  else if c = 0x11 ∨ c = 0x14 then s.griddleBusy i
  else if c = 0x12 then let q := s.chan i
                        !q.queue.isEmpty || q.run.isSome
  else if c = 0x13 then
    runs.any (fun m => m.hob == i / 4 && m.names (i % 4)) || (match (s.whisk i).cfg with
      | some cfg => whAttach cfg == 2 && (match s.physGriddle (i / 4) (whGriddle cfg) with
        | some g => !(s.region g (whRegion cfg)).hands.isEmpty
        | none => false)
      | none => false)
  else if c = 0x15 then s.units.bound.any fun b => b.hob == i
  else if c = 0x16 then
    runs.any (fun m => s.onStack m i) || s.arb.waiting.any (fun (q : ArbReq) => q.cp == 3 && q.inst / 64 == i) ||
      !(s.puuSteps (i / 4)).isEmpty
  else if c = 0x17 then (s.mergeRun i).isSome || s.mergeQueued i != 0
  else if c = 0x18 then !(s.puuSteps i).isEmpty
  else if c = 0x20 then s.arb.waiting.any fun (q : ArbReq) => q.cp == 2 && q.inst / 32 == i
  else if c = 0x21 then (s.colWork i).1 != 0
  else if c = 0x30 then s.snilo.reqs.any fun r => r.port == i
  else false

/-- The value of a field that reports other state; none where the register store is its home. -/
def State.viewField (s : State) (c i off lsb : Nat) : Option Nat :=
  if off = 0x0C ∧ lsb = 11 then some (b2n (s.unitBusy c i))
  else if off = 0x10 ∧ lsb = 8 ∧ (c = 0x14 ∨ c = 0x15) then some (s.ownerShown c i)
  else if off = 0x30 ∧ lsb = 16 ∧ c = 0x20 then some (((List.range 32).filter fun n => colanderFitted s.variant (32 * i + n)).length)
  else match c with
  | 0x01 => s.viewKettle off lsb
  | 0x03 => s.viewFront off lsb
  | 0x11 => s.viewGrid i off lsb
  | 0x12 => s.viewLadle i off lsb
  | 0x13 => s.viewWhisk i off lsb
  | 0x15 => s.viewSb i off
  | 0x16 => s.viewHbm i off lsb
  | 0x21 => s.viewCol i off lsb
  | 0x22 => s.viewFtl off lsb
  | 0x02 =>
    if off = 0x118 then some (s.errorBound % 2 ^ 32) else if off = 0x11C then some (s.errorBound / 2 ^ 32) else none
  | 0x30 => if 0x100 ≤ off ∧ off < 0x124 ∧ i ≠ 0 then some 0 else none
  | 0x20 =>
    let k := s.link (32 * i + s.fget hub_LINK_SELECT i)
    if off = 0x100 then some (packed 32 1 fun n => b2n (s.pantryUp (32 * i + n)))
    else if off = 0x118 then some (k.lanes.getD 0 0 + 8 * k.lanes.getD 1 0 + 64 * k.lanes.getD 2 0)
    else if off = 0x11C then some (min k.replays 0xFFFFFFFF)
    else if off = 0x120 then some (min (if lsb = 0 then k.retrains else k.timeouts) 65535)
    else if off = 0x124 then some (min (if lsb = 0 then k.dropped else k.lastUs) 65535)
    else none
  | 0x00 =>
    if off = 0x224 then some (s.tick % 2 ^ 32) else if off = 0x228 then some (s.tick / 2 ^ 32 % 2 ^ 32)
    else if off = 0x280 ∧ lsb = 12 then some (b2n s.grainForced) else none
  | 0x04 => s.viewCtxm off lsb
  | 0x17 => s.viewMerge i off lsb
  | 0x10 =>
    if off = 0x104 then some (s.domainNow (4 + i))
    else if off = 0x108 then some (s.tasksLoaded i)
    else none
  | 0x18 =>
    if off = 0x100 ∧ lsb = 0 then some (b2n !(sget s.units.puu i []).isEmpty)
    else if off = 0x130 then some (s.tiers.frozen.filter fun g => g / 2 ^ 22 == i).length
    else none
  | 0x14 =>
    if off = 0x0C ∧ lsb = 0 then some (s.fget (hdr_STATE 0x11) i)
    else if off = 0x30 then
      (if lsb = 0 then some (s.fget (hdr_IS_SPARE 0x11) i)
       else if lsb = 1 then some (s.fget (hdr_IN_SERVICE 0x11) i)
       else if lsb = 8 then some (s.fget (hdr_LOGICAL_INDEX 0x11) i)
       else some 0)
    else s.viewDrain i off lsb
  | _ => none

/-- The value a read of a field returns (R9: a write-only field reads 0). -/
def State.readField (s : State) (f : Field) (i : Nat) : Nat :=
  if f.acc = .wo then 0
  else match s.viewField f.cls i f.off f.lsb with
    | some v => v % 2 ^ f.width
    | none => s.fget f i

/-- The word at an offset of a present page, assembled from its fields; RSVD bits read 0 (R9). -/
def State.pageWord (s : State) (c i off : Nat) : Nat :=
  if off = 0x000 then pageId c i
  else if off = 0x004 then cap0 s.variant c i
  else if off = 0x008 then cap1 s.variant c i
  else if off = 0x02C then domainOf c i + 65536 * s.domainNow (domainOf c i)
  else if c = 0 ∧ 0x100 ≤ off ∧ off < 0x200 then
    instancesOf ((off - 0x100) / 4) + 65536 * presentCount s.variant ((off - 0x100) / 4)
  else if c = 0 ∧ off = 0x240 then s.errSummary 0
  else if c = 0 ∧ off = 0x244 then s.errSummary 32
  else ((fieldsOf c).filter (fun f => f.off = off)).foldl (fun a f => a + s.readField f i * 2 ^ f.lsb) 0

/-- Page class, instance and offset of an aperture address (R54). -/
def addrClass (a : Nat) : Nat := a / 0x100000 % 256
def addrInst (a : Nat) : Nat := a / 0x1000 % 256
def addrOff (a : Nat) : Nat := a % 0x1000

/-- The LO words of 64-bit pairs: their offsets in each class (R8). The HI word follows. -/
def loOffsets (c : Nat) : List Nat :=
  [0x040, 0x048, 0x050, 0x058, 0x060, 0x068] ++
  (if c = 0x00 then [0x210, 0x218, 0x224, 0x240, 0x290, 0x2A8, 0x2B0, 0x2B8]
   else if c = 0x02 then [0x108, 0x118, 0x12C]
   else if c = 0x04 then [0x108, 0x110, 0x118, 0x120, 0x128]
   else if c = 0x05 then [0x108, 0x11C]
   else if c = 0x12 then [0x108, 0x110]
   else if c = 0x13 then [0x108]
   else if c = 0x14 then [0x130]
   else if c = 0x16 then [0x114, 0x208, 0x210]
   else if c = 0x17 then [0x114, 0x120, 0x128]
   else if c = 0x18 then [0x108, 0x110, 0x118]
   else if c = 0x21 then [0x108, 0x120]
   else if c = 0x22 then [0x118, 0x120]
   else if c = 0x30 then [0x110]
   else if c = 0x31 then [0x10C, 0x114]
   else [])

/-- A word's position, the key of the latches of R8 and R75. -/
def wordKey (c i off : Nat) : Nat := (256 * c + i) * 4096 + off

/-- What a read of a word returns: 0 in an absent or undefined page (R4, R56); HI of a pair as the last read of LO latched it (R8). DESIGN CHOICE
(log 49): HI of a pair whose LO has not been read since the reset returns its present value; the spec has host software read LO first. -/
def State.readWord (s : State) (c i off : Nat) : Nat :=
  if ¬ Sys2Proof.Machine.present s.variant c i then 0
  else if 4 ≤ off ∧ (loOffsets c).contains (off - 4) then
    (sget? s.reg.latch (wordKey c i (off - 4))).getD (s.pageWord c i off)
  else s.pageWord c i off

/-- An access the register function accepts (R56, R57): a naturally aligned 32-bit access; a naturally aligned 64-bit
access to a LO/HI pair, or to any offset of an absent or undefined page. -/
def accessOk (v : Variant) (a size : Nat) : Bool :=
  (size == 32 && a % 4 == 0) ||
  (size == 64 && a % 8 == 0 &&
    (!Sys2Proof.Machine.present v (addrClass a) (addrInst a) || (loOffsets (addrClass a)).contains (addrOff a)))

end Sys2Proof.Machine
end

