-- ==== Sys2Proof/Machine/Waits.lean ====
section
/-!
DEFINITION. What waits, and for how long: the handshake counters that the pages keep of waiting (R191, R221, R246 to R249, R267, R274, R301, R329, R361,
R390, R477), and when a stage that holds a token is stalled (R51, R217).

DESIGN CHOICE (log 45): a block's handshakes in one tick are those of its last measured rate, and the whole tick is charged to what waits when the tick
ends; the spec gives the counters in hs and the model's commands take no time of their own.
-/

namespace Sys2Proof.Machine

/-! ### Handshakes of a tick -/

/-- The handshakes of one tick added to a counter of a page: RATE_MHS × 1.024, the fraction carried. -/
def State.countHs (s : State) (c n i : Nat) : State := s.countUnits c i n (s.fget (hdr_RATE_MHS c) i * 1024) 1000

/-- The handshakes of one tick added to a counter of some instances of a class. -/
def State.countHsOf (s : State) (c n : Nat) (is : List Nat) : State := is.eraseDups.foldl (fun (t : State) i => t.countHs c n i) s

/-- Some of the handshakes of one tick, how many is free, added to a counter of some instances of a class. -/
def State.countSomeHs (s : State) (c n : Nat) (is : List Nat) : State :=
  is.eraseDups.foldl (fun (t : State) i =>
    let (v, u) := t.draw
    u.count c i n (v % (t.fget (hdr_RATE_MHS c) i * 1024 / 1000 + 1))) s

/-! ### Who waits -/

/-- Griddles with a region that is ON and whose front pass waits for its shadow load or its feed (R191). -/
def State.waitingGriddles (s : State) : List Nat :=
  (s.units.regions.filter fun p => !p.2.passes.isEmpty && p.2.passReady.isNone && s.regionState (p.1 / 4) (p.1 % 4) == 2).map fun p => p.1 / 4

/-- A channel that is ON and not HALTED has work of its own in hand (R217). -/
def State.chanBusy (s : State) (ch : Nat) : Bool :=
  let q := s.chan ch
  s.fget (hdr_STATE 0x12) ch == 2 && s.fget ladle_HALTED ch == 0 && (q.run.isSome || !q.queue.isEmpty)

/-- The drain that a region's Drain has begun holds its result because OUT_LADLE or AUX_LADLE does not accept it, and that channel is itself waiting
(R217, R221). -/
def State.drainHeld (s : State) (i r : Nat) : Bool :=
  match (s.region i r).hands with
  | [] => false
  | hd :: _ =>
    let base := 64 * (i / 17)
    hd.begun && !s.drainReady i r hd (s.drainOf i r hd).out.length &&
      (s.chanBusy (base + dcOutLadle hd.cfg) || (dcRowSum hd.cfg == 2 && s.chanBusy (base + dcAuxLadle hd.cfg)))

/-- Regions whose drain is held, as (Griddle, region). -/
def State.heldDrains (s : State) : List (Nat × Nat) :=
  (s.units.regions.filter fun p => s.drainHeld (p.1 / 4) (p.1 % 4)).map fun p => (p.1 / 4, p.1 % 4)

/-- Channels with a WAIT_CAUSE among those listed (Table 09-9). -/
def State.chansWaiting (s : State) (causes : List Nat) : List Nat :=
  let known := s.units.chans.map Prod.fst
  let idle := if s.units.portWait.isEmpty then [] else (List.range 128).filter fun ch => !known.contains ch
  (known ++ idle).filter fun ch => causes.contains (s.waitCause ch)

/-- Whisks held by their downstream side: of moves that wait for their destination, and of drains that are held (R247). -/
def State.heldWhisks (s : State) : List Nat :=
  ((s.chansWaiting [2]).filterMap fun ch => match (s.chan ch).run with
    | some m => (s.moveWhiskUnit m).map fun u => u.1
    | none => none) ++
  s.heldDrains.filterMap fun p =>
    (s.drainWhisk (s.regionOwner p.1 p.2) (p.1 / 17) (s.fget (hdr_LOGICAL_INDEX 0x11) p.1) p.2).map fun w => w.1

/-- Window pages that the oldest queued entries of idle channels wait for (R263, R267). -/
def State.latePages (s : State) : List Nat :=
  s.units.chans.filterMap fun p => match p.2.run, p.2.queue with
    | none, m :: _ => (s.notReady m).head?
    | _, _ => none

/-- PUUs whose oldest step waits at a crossing point (R329). -/
def State.waitingPuus (s : State) : List Nat :=
  (s.units.puu.filter fun p => match p.2 with
    | k :: _ => s.ungranted k.ctx k.ser
    | [] => false).map Prod.fst

/-- Colanders on which a FILTER or SKIM_SCAN runs. -/
def State.scanning (s : State) : List Nat :=
  let hobs := (s.units.chans.filterMap fun p => p.2.run).filter fun m => m.job.isSome && (descClass m.word == 0x20 || descClass m.word == 0x21)
  (hobs.map Move.hob).eraseDups.flatMap fun h => ((List.range 32).map (32 * h + ·)).filter (colanderFitted s.variant)

/-! ### One tick -/

/-- The wait for a window page charged to its cause, in the page of the controller that holds the page (R267, R274). -/
def State.chargeLate (s : State) (t : Nat) : State :=
  let (why, s1) := s.lateCause t
  s1.countHs 0x16 (if why = 1 then 0 else if why = 2 then 1 else if why = 3 then 2 else 3) (t / 24576)

/-- What the pages count of waiting in one tick. How long a running scan waits for pages, and a running merge for Colander records, is free. -/
def State.countWaits (s : State) : State :=
  let s1 := (s.countHsOf 0x11 3 s.waitingGriddles).countHsOf 0x14 3 (s.heldDrains.map Prod.fst)
  let s2 := ((s1.countHsOf 0x12 2 (s.chansWaiting [3])).countHsOf 0x12 3 (s.chansWaiting [2, 4])).countHsOf 0x13 3 s.heldWhisks
  let s3 := (s2.countHsOf 0x15 3 (s.units.portWait.map Prod.fst)).countHsOf 0x10 3 ((List.range 2).filter fun h => s.tasksLoaded h != 0)
  let s4 := (s3.countHsOf 0x18 3 s.waitingPuus).countHsOf 0x20 3 ((s.rel.links.filter fun p => p.2.lanes.contains 3).map fun p => p.1 / 32)
  let s5 := (s4.countSomeHs 0x21 3 s.scanning).countSomeHs 0x17 3 ((List.range 2).filter fun h => (s.mergeRun h).isSome)
  let s6 := s.latePages.foldl State.chargeLate s5
  if s.cp.ctxs.any fun p => p.2.shown == .waiting then s6.count 0x04 0 3 1 else s6

/-! ### Handshake stalls (R51, R217) -/

/-- The block waits for a grant of a crossing point, a rail ramps, or, for a Drain, its channel is itself waiting: no stall. -/
def State.mayWait (s : State) (c i r : Nat) : Bool :=
  s.power.rampTo.isSome ||
  (if c = 0x14 then s.drainHeld i r
   else if c = 0x12 then s.waitCause i == 3
   else if c = 0x13 then s.heldWhisks.contains i
   else if c = 0x18 then s.waitingPuus.contains i
   else if c = 0x17 then (match s.mergeRun i with
     | some m => s.ungranted m.ctx m.ser
     | none => false)
   else if c = 0x21 then s.arb.waiting.any fun (q : ArbReq) => q.cp == 2 && q.inst == i
   else false)

end Sys2Proof.Machine
end

