-- ==== Sys2Proof/Machine/Pages.lean ====
section
/-!
DEFINITION. Accesses of host software to the register pages: reads and writes, CONTROL and the unit states, error bits and
injection, snapshots, test mode, the directory's unreachable units (03_register_pages.md, 04_modes_and_interactions.md).
-/

namespace Sys2Proof.Machine

/-- Host software reaches a present page. -/
def State.pageOn (s : State) (c i : Nat) : Bool := s.hostUp && Sys2Proof.Machine.present s.variant c i

/-! ### Accesses (R56, R57, R8, R9, R75) -/

/-- What a read returned. -/
def State.answer (s : State) (l : List Nat) : State := { s with reg := { s.reg with readData := l } }

/-- The path of an access to a page: a mailbox message of the host at crossing point 4, or the proxied-register party on the Colander's pantry link;
direct and absent pages cross nothing (R57, Table 03-1). -/
def State.cross (s : State) (c i : Nat) : State :=
  if ¬ Sys2Proof.Machine.present s.variant c i then s
  else if c = 0x21 then s.serve 2 i 2
  else if c = 0x01 ∨ c = 0x02 ∨ c = 0x05 ∨ (0x10 ≤ c ∧ c ≤ 0x20) then s.serve 4 0 1
  else s

/-- The state in which an access of `n` bytes to page (`c`, `i`) acts: its data is counted as PCIe payload, and its path is crossed (R26). -/
def State.accessed (s : State) (n c i : Nat) : State := (({ s with reg := { s.reg with aborted := false } } : State).pcie 64 n).cross c i

/-- An access of `n` bytes to page (`c`, `i`) reaches the register function and has its effect. While the link is held below 32 GT/s it is answered with
completer abort (R102). -/
def State.access (s : State) (n c i : Nat) (f : State → State) : Res :=
  if s.hostUp then .next (f (s.accessed n c i))
  else if s.planesOn ∧ s.host.belowMin then .next { s with reg := { s.reg with aborted := true } }
  else .next s

/-- BAD_ACCESS (R57): `size` is the width in bits. A bad read returns ones; a bad write is dropped; each counts. -/
def execBadAccess (a size : Nat) (write : Bool) (s : State) : Res :=
  if accessOk s.variant a size then .next s
  else s.access (size / 8) 0 0 fun s =>
    let s1 := s.fbump glob_BAD_ACCESS_COUNT 0 1
    if write then s1 else s1.answer (if size = 64 then [0xFFFFFFFF, 0xFFFFFFFF] else [0xFFFFFFFF])

/-- LO words of the RW 64-bit pairs: REQ_ADDR, DOM_TIER and SRC_ADDR (R75). -/
def rwPair (c off : Nat) : Bool := (c == 0x04 && off == 0x108) || (c == 0x17 && off == 0x114) || (c == 0x30 && off == 0x110)

/-- A page whose registers at an offset act: Snilo Link's engine-wide ones in instance 0 only (R555). -/
def offsetActs (c i off : Nat) : Bool := !(c == 0x30 && i != 0 && decide (0x100 ≤ off) && decide (off < 0x124))

/-- The value that a RW field takes from the one written; none where the write is refused; where the spec bounds a field and
does not say what another value does, a free value within the bounds (log 21). -/
def State.fieldValue (s : State) (f : Field) (v : Nat) : Option Nat × State :=
  let bound (lo hi : Nat) : Option Nat × State :=
    if lo ≤ v ∧ v ≤ hi then (some v, s) else (some (lo + s.draw.1 % (hi + 1 - lo)), s.draw.2)
  if f.cls = 0x31 ∧ f.off = 0x104 ∧ f.lsb = 0 then (if 1518 ≤ v ∧ v ≤ 9216 then some v else none, s)
  else if f.cls = 0x31 ∧ f.off = 0x108 ∧ f.lsb = 1 then (if v = 3 then none else some v, s)
  else if f.cls = 0x31 ∧ f.off = 0x108 ∧ f.lsb = 16 then (if 2 ≤ v ∧ v ≤ 10 then some v else none, s)
  else if f.cls = 0x31 ∧ f.off = 0x108 ∧ f.lsb = 20 then
    (if v ≤ 3 ∨ 9 ≤ v then (some v, s) else (some ((s.draw.1 % 11 + 9) % 16), s.draw.2))
  else if f.cls = 0x02 ∧ f.off = 0x114 ∧ f.lsb = 8 then (some (if v = 3 then 2 else v), s)
  else if f.cls = 0x02 ∧ f.off = 0x114 ∧ f.lsb = 16 then (some (min 1000 (max 1 v)), s)
  else if f.cls = 0x30 ∧ f.off = 0x11C ∧ f.lsb = 0 then bound 20 3200
  else if f.cls = 0x30 ∧ f.off = 0x11C ∧ f.lsb = 16 then bound 10 10000
  else (some v, s)

/-- One field written from the word `w`: RW fields with no row of their own take their bits (R9); a refused value leaves
the field and sets CONFIG_REJECT (R554). -/
def State.writeField (s : State) (i w : Nat) (f : Field) : State :=
  if f.acc ≠ .rw ∨ f.own then s
  else match s.fieldValue f (bits w f.lsb f.width) with
    | (some v, t) => t.fset f i v
    | (none, t) => t.configReject f.cls i

/-- Writing PTP_PREF = 1 on one port clears it on the other; the preferred port stays preferred when 0 is written (R539, log 25). -/
def State.writePref (s : State) (i w : Nat) : State :=
  if bits w 4 1 = 1 then (s.fset eth_PTP_PREF i 1).fset eth_PTP_PREF (1 - i) 0 else s

/-- A 32-bit write: LO of a RW pair is kept for its commit (R75). DESIGN CHOICE (log 49): until HI is written, a read of LO returns the value last
committed, not the one kept; the spec does not say which. An ERR_MASK that uncovers a set bit sets the class's ERR_SUMMARY bit, which raises the
register-page event (R71). -/
def State.writeWord (s : State) (c i off w : Nat) : State :=
  if ¬ Sys2Proof.Machine.present s.variant c i ∨ ¬ offsetActs c i off then s
  else if rwPair c off then { s with reg := { s.reg with pairLo := sput s.reg.pairLo (wordKey c i off) (w % 2 ^ 32) } }
  else
    let plain := (fieldsOf c).filter fun f => f.off = off ∧ ¬ (c = 0x31 ∧ off = 0x108 ∧ f.lsb = 4)
    let t := plain.foldl (fun t f => t.writeField i w f) s
    let u := if c = 0x31 ∧ off = 0x108 then t.writePref i w else t
    if ¬ s.classErr c ∧ u.classErr c then u.aer 0 7 0 else u

/-- HI of a RW pair written: the value commits with the LO most recently written (R75). -/
def State.commitPair (s : State) (c i off v : Nat) : State :=
  let put (lo hi : Field) : State :=
    let l := (sget? s.reg.pairLo (wordKey c i off)).getD (s.fget lo i)
    (s.fset lo i l).fset hi i (v % 2 ^ 32)
  if ¬ Sys2Proof.Machine.present s.variant c i ∨ ¬ offsetActs c i off then s
  else if c = 0x04 ∧ off = 0x108 then put ctxm_REQ_ADDR_LO ctxm_REQ_ADDR_HI
  else if c = 0x17 ∧ off = 0x114 then put merge_DOM_TIER_LO merge_DOM_TIER_HI
  else if c = 0x30 ∧ off = 0x110 then put snilo_SRC_ADDR_LO snilo_SRC_ADDR_HI
  else s

/-- REGISTER_WRITE (R9, R56, R57, R75): a 32-bit write sets the RW fields of its word that have no row of their own; a 64-bit
write is a LO write followed by a HI write. Writes of absent or undefined pages have no effect. -/
def execRegisterWrite (a v : Nat) (wide : Bool) (s : State) : Res :=
  let c := addrClass a
  let i := addrInst a
  let off := addrOff a
  if ¬ accessOk s.variant a (if wide then 64 else 32) then .next s
  else s.access (if wide then 8 else 4) c i fun s =>
    let s1 := s.writeWord c i off (v % 2 ^ 32)
    if ¬ wide then s1
    else if rwPair c off then s1.commitPair c i off (v / 2 ^ 32)
    else s1.writeWord c i (off + 4) (v / 2 ^ 32 % 2 ^ 32)

/-- PAIR_HI_WRITE (R75): `a` is the address of HI. -/
def execPairHiWrite (a v : Nat) (s : State) : Res :=
  if a % 4 ≠ 0 ∨ addrOff a < 4 then .next s
  else s.access 4 (addrClass a) (addrInst a) fun s => s.commitPair (addrClass a) (addrInst a) (addrOff a - 4) v

/-- The coherent read of the Device Time Counter that a read of DTC_NS takes (Table 20-7): the other fields latch. -/
def State.latchDtc (s : State) : State :=
  let ns := s.time.dtc / 2 ^ 48
  let sec := ns / 1000000000
  let s1 := (s.fset time_DTC_NS 0 (ns % 1000000000)).fset time_DTC_FRAC 0 (s.time.dtc / 2 ^ 32 % 65536)
  let s2 := (s1.fset time_DTC_SEC_LO 0 (sec % 2 ^ 32)).fset time_DTC_SEC_HI 0 (sec / 2 ^ 32 % 65536)
  { s2 with reg := { s2.reg with latch := serase s2.reg.latch (wordKey 0x02 0 0x108) } }

/-- A read of one word, and what it does (R4, R8, R9, R56): it returns the word, 0 in an absent or undefined page; a read of LO latches HI, one of
DTC_NS the rest of the counter (Table 20-7), one of ERR_SUMMARY_LO re-arms the register-page event (R133); RC fields clear. -/
def State.readOnce (s : State) (c i off : Nat) : State :=
  if ¬ Sys2Proof.Machine.present s.variant c i then s.answer [0]
  else
    let s0 := if c = 0x02 ∧ off = 0x100 then (s.serve 5 0 5).latchDtc else s
    let s1 := s0.answer [s0.readWord c i off]
    let s2 : State := if (loOffsets c).contains off then
        { s1 with reg := { s1.reg with latch := sput s1.reg.latch (wordKey c i off) (s0.pageWord c i (off + 4)) } }
      else s1
    let s3 := if c = 0 ∧ off = 0x240 then s2.rearm 0 7 0 else s2
    ((fieldsOf c).filter fun f => f.off = off ∧ f.acc = .rc).foldl (fun t f => t.fset f i 0) s3

/-- A 64-bit read: a LO read followed by a HI read (R57). -/
def State.readTwice (s : State) (c i off : Nat) : State :=
  let s1 := s.readOnce c i off
  let s2 := s1.readOnce c i (off + 4)
  s2.answer (s1.reg.readData ++ s2.reg.readData)

/-- READ_LO_LATCH (R8, R56, R57): a read of the LO word of a pair, or of DTC_NS, or, `wide`, of both words of a pair. -/
def execReadLoLatch (a : Nat) (wide : Bool) (s : State) : Res :=
  let c := addrClass a
  let i := addrInst a
  let off := addrOff a
  if ¬ accessOk s.variant a (if wide then 64 else 32) ∨
      (Sys2Proof.Machine.present s.variant c i ∧ ¬ (loOffsets c).contains off ∧ ¬ (c = 0x02 ∧ off = 0x100)) then .next s
  else s.access (if wide then 8 else 4) c i fun s => if wide then s.readTwice c i off else s.readOnce c i off

/-- READ_CLEAR (R9, R56): a 32-bit read of any word; its RC fields clear. -/
def execReadClear (a : Nat) (s : State) : Res :=
  let c := addrClass a
  let i := addrInst a
  if ¬ accessOk s.variant a 32 then .next s
  else s.access 4 c i fun s => s.readOnce c i (addrOff a)

/-! ### Colanders out of reach (R77) -/

/-- `s` with a pantry link's record replaced. -/
def State.setLink (s : State) (k : Nat) (l : Link) : State := { s with rel := { s.rel with links := sput s.rel.links k l } }

/-- The hub's shadow of a Colander word: PAGE_ID, CAP0, CAP1, STATE and SPARE_MAP; 0 elsewhere (R77). -/
def State.shadowWord (s : State) (i off : Nat) : Nat :=
  if off = 0x00C then
    (if s.reg.shadowFaulted.contains i then s.pageWord 0x21 i off / 8 * 8 + 4 else s.pageWord 0x21 i off)
  else if off = 0 ∨ off = 4 ∨ off = 8 ∨ off = 0x030 then s.pageWord 0x21 i off
  else 0

/-- A Colander could not be reached: its hub page shows it. -/
def State.unreached (s : State) (i b : Nat) : State :=
  (s.fsetBit hub_UNREACHABLE (i / 32) (i % 32)).err 0x20 (i / 32) [b] (i % 32)

/-- PROXY_READ_TIMEOUT (R77): the read returns the shadow, whose STATE is then FAULTED; the hub counts and reports it. -/
def execProxyReadTimeout (i off : Nat) (s : State) : Res :=
  if ¬ s.pageOn 0x21 i ∨ off % 4 ≠ 0 ∨ 4096 ≤ off then .next s
  else
    let s1 : State := { s with reg := { s.reg with
      shadowFaulted := if s.reg.shadowFaulted.contains i then s.reg.shadowFaulted else i :: s.reg.shadowFaulted } }
    let l := s1.link i
    .next (((s1.answer [s1.shadowWord i off]).setLink i { l with timeouts := satAdd l.timeouts 1 65535 }).unreached i 10)

/-- PROXY_WRITE_DROPPED (R77): the write is dropped; the hub counts and reports it. -/
def execProxyWriteDropped (i : Nat) (s : State) : Res :=
  if ¬ s.pageOn 0x21 i then .next s
  else
    let l := s.link i
    .next ((s.setLink i { l with dropped := satAdd l.dropped 1 65535 }).unreached i 11)

/-! ### STATE and CONTROL (R62 to R68) -/

/-- What a page reset or a start clears of a unit beside its page (R193, R223, R249, R332, R363, R393): issued work, weights,
tiles, tables and slots. -/
def State.clearUnit (s : State) (c i : Nat) : State :=
  if c = 0x11 then { s with units := { s.units with regions := sdropRange s.units.regions (4 * i) (4 * i + 4) } }
  else if c = 0x12 then { s with units := { s.units with
    chans := serase s.units.chans i
    bound := s.units.bound.filter fun b => !(s.chan i).queue.any (fun m => m.ctx == b.ctx && m.ser == b.ser) &&
      !(s.chan i).run.any fun m => m.ctx == b.ctx && m.ser == b.ser } }
  else if c = 0x13 then { s with units := { s.units with whisks := serase s.units.whisks i } }
  else if c = 0x17 then { s with units := { s.units with chans := s.units.chans.map fun p =>
    let mine (m : Move) : Bool := m.job.isSome && m.hob == i && m.word % 256 == 0x22
    (p.1, { queue := p.2.queue.filter fun m => !mine m, run := p.2.run.filter fun m => !mine m }) } }
  else if c = 0x18 then { s with units := { s.units with puu := serase s.units.puu i } }
  else if c = 0x21 then
    { s with
      near := { s.near with
        fslots := s.near.fslots.filter fun p => p.1 / 128 ≠ i
        tslots := s.near.tslots.filter fun p => p.1 / 64 ≠ i }
      ftl := { s.ftl with keysLoaded := s.ftl.keysLoaded.filter fun k => k / 128 ≠ i } }
  else s

/-- A page reset takes effect: the page's fields return to their reset values, HW fields and work counters apart; the unit
is OFF. A reset of a Griddle page acts on its Drain page too (R65, R219). -/
def State.resetUnit (s : State) (c i : Nat) : State :=
  let s1 := ((s.toState c i 0).clearUnit c i).clearPage c i
  if c = 0x11 then s1.clearPage 0x14 i else s1

/-- A host write of CONTROL is refused: an owned unit, a Drain page, or a Griddle whose spare waits or whose self-check runs
(R67, R187, R219). -/
def State.controlHeld (s : State) (c i : Nat) : Bool :=
  c == 0x14 || s.ownerShown c i != 0xFF ||
  (c == 0x11 && (s.fget grid_SPARE_PENDING i == 1 || s.fget grid_SELF_CHECK_BUSY i == 1))

/-- ENABLE_WRITE (R62, R64, R67, R68): the unit starts or drains, or a pending flag is set or cleared; ENABLE = 1 on a
FAULTED unit is refused; RETIRED takes no write. -/
def execEnableWrite (c i : Nat) (v : Bool) (s : State) : Res :=
  let st := s.fget (hdr_STATE c) i
  if ¬ s.pageOn c i ∨ ¬ hasState c then .next s
  else if s.controlHeld c i then .next (if b2n v = s.fget (hdr_ENABLE c) i then s else s.configReject c i)
  else if st = 5 then .next s
  else if st = 4 then .next (if v then s.configReject c i else s.putControl hdr_ENABLE c i false)
  else
    let s1 := s.putControl hdr_ENABLE c i v
    if st = 0 then .next (if v then s1.toStarting c i else s1)
    else if st = 1 then .next (s1.fset (hdr_DISABLE_PENDING c) i (b2n (!v)))
    else if st = 2 then .next (if v then s1 else s1.toState c i 3)
    else .next (s1.fset (hdr_ENABLE_PENDING c) i (b2n v))

/-- DRAIN_WRITE (R66, R67): the unit's inputs close or reopen. -/
def execDrainWrite (c i : Nat) (v : Bool) (s : State) : Res :=
  if ¬ s.pageOn c i ∨ ¬ hasState c then .next s
  else if s.controlHeld c i then .next (if b2n v = s.fget (hdr_DRAIN c) i then s else s.configReject c i)
  else if s.fget (hdr_STATE c) i = 5 then .next s
  else .next (s.putControl hdr_DRAIN c i v)

/-- RESET of a page with HAS_STATE = 0: ERR_STATUS, ERR_FIRST, ERR_COUNT and the snapshot registers (R68). -/
def State.resetErrors (s : State) (c i : Nat) : State :=
  let s1 := ((s.fset (hdr_ERR_STATUS c) i 0).fset (hdr_ERR_COUNT c) i 0).fset (hdr_FIRST_BIT c) i 0
  let s2 := ((s1.fset (hdr_FIRST_INJECTED c) i 0).fset (hdr_FIRST_CONTEXT c) i 0xFF).fset (hdr_FIRST_VALID c) i 0
  let s3 := (s2.fset (hdr_ERR_FIRST_INFO c) i 0).fset64 (hdr_ERR_FIRST_TICK_LO c) (hdr_ERR_FIRST_TICK_HI c) i 0
  let s4 := (s3.fset64 (hdr_SNAP0_LO c) (hdr_SNAP0_HI c) i 0).fset64 (hdr_SNAP1_LO c) (hdr_SNAP1_HI c) i 0
  let s5 := (s4.fset64 (hdr_SNAP2_LO c) (hdr_SNAP2_HI c) i 0).fset64 (hdr_SNAP3_LO c) (hdr_SNAP3_HI c) i 0
  s5.fset64 (hdr_SNAP_TICK_LO c) (hdr_SNAP_TICK_HI c) i 0

/-- PAGE_RESET (R65, R67, R68): at once in OFF, ON and FAULTED; pending in STARTING and DRAINING; ignored in RETIRED and
while one is pending; refused on an owned unit. DESIGN CHOICE (log 49): on the Hob page, whose OWNER_CONTEXT reads 0xFE, R67 would refuse what R68
gives; RESET acts as R68 gives. -/
def execPageReset (c i : Nat) (s : State) : Res :=
  let st := s.fget (hdr_STATE c) i
  if ¬ s.pageOn c i then .next s
  else if ¬ hasState c then .next (s.resetErrors c i)
  else if s.controlHeld c i then .next (s.configReject c i)
  else if st = 5 ∨ s.fget (hdr_RESET_PENDING c) i = 1 then .next s
  else if st = 1 ∨ st = 3 then .next (s.fset (hdr_RESET_PENDING c) i 1)
  else .next (s.resetUnit c i)

/-- The pages and memories of a unit as its start leaves them (R193, R249, R275): an HBM controller zeroes its stack's pool and
device region; an SB every macro-group that is not retired; a Griddle is in P1 with its one region ON. -/
def State.startUnit (s : State) (c i : Nat) : State :=
  let s0 := if c = 0x11 then s else s.clearUnit c i
  if c = 0x11 then s0.fset grid_REGION_STATE i 2
  else if c = 0x12 then s0.fset ladle_HALTED i 0
  else if c = 0x15 then
    let good := (List.range 48).filter fun g => !bit (s.fget sb_RETIRED_MAP0 i + 2 ^ 32 * s.fget sb_RETIRED_MAP1 i) g
    { s0 with cp := { s0.cp with sb := good.foldl (fun (m : Mem) (g : Nat) => m.fill (i * 2 ^ 28 + g * 2 ^ 22) (2 ^ 22) none) s0.cp.sb } }
  else if c = 0x16 then
    { s0 with tiers := { s0.tiers with
      hbm := s0.tiers.hbm.fill (i * 2 ^ 36) 51539607552 none
      heat1 := sdropRange s0.tiers.heat1 (24576 * i) (24576 * i + 24576)
      marks := sdropRange s0.tiers.marks (24576 * i) (24576 * i + 24576)
      copies := s0.tiers.copies.filter fun p => p.2.t1 / 24576 ≠ i } }
  else if c = 0x21 then
    { s0.fclrBit hub_UNREACHABLE (i / 32) (i % 32) with
      reg := { s0.reg with shadowFaulted := s0.reg.shadowFaulted.filter (· ≠ i) } }
  else s0

/-- Start limit of a class in ms (Table 03-10). -/
def startLimitMs (c : Nat) : Nat := if c = 0x16 then 200 else if c = 0x18 then 40 else if c = 0x21 then 25000 else 10

/-- A unit in STARTING has not reached ON within its start limit (R63). -/
def State.startLate (s : State) (c i : Nat) : Bool :=
  s.fget (hdr_STATE c) i == 1 && (sget? s.reg.startTick (pageNo c i)).any fun t => decide (t + ticksMs (startLimitMs c) ≤ s.tick)

/-- The self-check of a Griddle in STARTING has passed: the one that GRIDDLE_SELF_CHECK_DONE ended, else the one that ends with the start (R193). -/
def State.startChecked (s : State) (i : Nat) (ok : Bool) : Bool := s.fget grid_SELF_CHECK_DONE i == 1 || ok

/-- UNIT_START_COMPLETE (R62, R64, R65, R193, R332): the unit enters ON, then OFF where a reset is pending, or DRAINING where a
disable is. A Griddle whose self-check fails enters FAULTED with cause 12; a PUU's self-test must have passed. -/
def execUnitStartComplete (c i : Nat) (ok : Bool) (s : State) : Res :=
  if ¬ Sys2Proof.Machine.present s.variant c i ∨ ¬ hasState c ∨ c = 0x14 ∨ s.fget (hdr_STATE c) i ≠ 1 then .next s
  else if s.startLate c i then .next (s.faultUnit c i 7 0)
  else if c = 0x18 ∧ (s.fget puu_SELF_TEST_PASS i ≠ 1 ∨ s.fget puu_SELF_TEST_BUSY i = 1) then .next s
  else if c = 0x11 ∧ ¬ s.startChecked i ok then .next (((s.showCheck i 0 false false 0x1FF).setRegionState i 0 4).moveFaulted 0x11 i 12)
  else
    let s0 := if c = 0x11 ∧ s.fget grid_SELF_CHECK_DONE i = 0 then s.showCheck i 0 true false 0x1FF else s
    let s1 := (s0.startUnit c i).toState c i 2
    let s2 : State := { s1 with reg := { s1.reg with startTick := serase s1.reg.startTick (pageNo c i) } }
    if s2.fget (hdr_RESET_PENDING c) i = 1 then .next (s2.resetUnit c i)
    else if s2.fget (hdr_DISABLE_PENDING c) i = 1 then .next ((s2.fset (hdr_DISABLE_PENDING c) i 0).toState c i 3)
    else .next s2

/-- START_LIMIT_EXPIRY (R63): the unit moves to FAULTED with UNIT_FAULT. -/
def execStartLimitExpiry (c i : Nat) (s : State) : Res :=
  if s.startLate c i then .next (s.faultUnit c i 7 0) else .next s

/-- DRAIN_COMPLETE (R62, R64, R65): BUSY has fallen in DRAINING; the unit enters OFF, then applies a pending reset, which
clears ENABLE_PENDING, or a pending enable. -/
def execDrainComplete (c i : Nat) (s : State) : Res :=
  if ¬ Sys2Proof.Machine.present s.variant c i ∨ c = 0x14 ∨ s.fget (hdr_STATE c) i ≠ 3 ∨ s.unitBusy c i then .next s
  else
    let s1 := s.toState c i 0
    if s1.fget (hdr_RESET_PENDING c) i = 1 then .next (s1.resetUnit c i)
    else if s1.fget (hdr_ENABLE_PENDING c) i = 1 then .next ((s1.fset (hdr_ENABLE_PENDING c) i 0).toStarting c i)
    else .next s1

/-! ### Errors (R69 to R72, R51) -/

/-- ERR_STATUS_CLEAR (R9, R70): bits written 1 clear; clearing FIRST_VALID re-arms the capture. -/
def execErrStatusClear (c i mask : Nat) (fv : Bool) (s : State) : Res :=
  if ¬ s.pageOn c i then .next s
  else
    let e := s.fget (hdr_ERR_STATUS c) i
    let s1 := s.fset (hdr_ERR_STATUS c) i (e - Nat.land e mask)
    .next (if fv then s1.fset (hdr_FIRST_VALID c) i 0 else s1)

/-- Pages whose unit corrects errors, or repeats transfers, of its own: all but the global, time and recorder pages (R69, Table 17-1; DEDUCED, log
50). -/
def corrects (c : Nat) : Bool := !(c == 0x00 || c == 0x02 || c == 0x05)

/-- ERROR_CAPTURE (R69 to R71): an error of a unit that no other row carries: 2 one that it corrected inside itself, 7 a cause that Table 03-6 does not
list, with which it enters FAULTED. The bit is set, captured and recorded. The other bits are raised by the rows of their errors; one that a
unit cannot raise is held at 0. -/
def execErrorCapture (c i b info ctx : Nat) (s : State) : Res :=
  if ¬ Sys2Proof.Machine.present s.variant c i then .next s
  else if b = 2 ∧ corrects c then .next (s.err c i [2] info ctx)
  else if b = 7 ∧ hasState c ∧ c ≠ 0x11 ∧ c ≠ 0x14 ∧ (s.fget (hdr_STATE c) i = 1 ∨ s.fget (hdr_STATE c) i = 2 ∨ s.fget (hdr_STATE c) i = 3) then
    .next (s.faultUnit c i 7 info ctx)
  else .next s

/-- Bits on which ERR_INJECT acts in each page, beside the rate monitor's (R72 and the block chapters). -/
def injectBits (c : Nat) : List Nat :=
  if c = 0x11 then [0, 1, 2, 3, 8, 9, 11] else if c = 0x14 ∨ c = 0x18 then [0, 1, 2, 3, 8, 9]
  else if c = 0x12 then [0, 1, 2, 3, 9] else if c = 0x13 ∨ c = 0x17 then [0, 1, 2, 3, 8]
  else if c = 0x16 then [0, 2, 3, 8] else if c = 0x04 then [0, 8] else if c = 0x21 then [0, 2, 3, 8, 9]
  else [0, 2, 3]

/-- INJECT_GO (R72): in test mode, on a page with INJECT = 1, the next INJECT_COUNT events of INJECT_BIT are injected; at any
other time the write is refused. A bit on which the page's injection does not act arms nothing. -/
def execInjectGo (c i : Nat) (s : State) : Res :=
  if ¬ s.pageOn c i then .next s
  else if s.fget glob_TEST_MODE 0 = 0 ∨ ¬ injectable c then .next (s.configReject c i)
  else
    let b := s.fget (hdr_INJECT_BIT c) i
    let n := max 1 (s.fget (hdr_INJECT_COUNT c) i)
    if ¬ (injectBits c).contains b then .next s
    else
      let s1 := s.fset (hdr_INJECT_PENDING c) i 1
      .next { s1 with reg := { s1.reg with
        inject := (s1.reg.inject.filter fun x => !(x.1 == pageNo c i && x.2.1 == b)) ++ [(pageNo c i, b, n)] } }

/-- A block is stalled (R51): it is ON, a stage of it holds a token, and it does not merely wait. An injected stall is simulated at the stage timer
(R72). -/
def State.stalled (s : State) (c i r : Nat) (whole : Bool) : Bool :=
  let tracked : Bool := c != 0x04 && c != 0x31
  (!hasState c || s.stateShown c i == 2) &&
    (if (c == 0x11 || c == 0x14) && !whole then (s.region i r).busy else !tracked || s.unitBusy c i) &&
    (s.injectLeft c i 1 != 0 || !s.mayWait c i r)

/-- HANDSHAKE_STALL (R51): a stage of an ON block has held a token for 1,024 ticks. The block moves to FAULTED, its owning
context, or the context of the token on a shared block, faults, and the stall counts as a permanent fault of the channel class,
an injected one apart (R72); a Colander's self-check and a PUU's self-test decide (R468, R328). On a Griddle or Drain it is confined to its region (R182), unless `whole`. A page without unit
states shows the error and faults the context (R574). -/
def execHandshakeStall (c i r info ctx : Nat) (whole : Bool) (s : State) : Res :=
  let inj : Bool := s.injectLeft c i 1 != 0
  if ¬ Sys2Proof.Machine.present s.variant c i ∨ ¬ s.stalled c i r whole then .next s
  else if c = 0x14 then .next (s.drainFault i r 1 0 whole)
  else if c = 0x11 then
    .next (if whole then s.griddleFault i [1] 1 0x21 info Region.frontIndex inj
      else s.regionFault i r [1] 1 0x21 (s.region i r).frontIndex info inj)
  else
    let who := if s.ownerShown c i < 64 then s.ownerShown c i else ctx
    let s1 := if hasState c then s.faultUnit c i 1 info who else s.err c i [1] info who
    let s2 := if inj ∨ ¬ hasState c ∨ c = 0x21 ∨ c = 0x18 then s1 else s1.classify (pageNo c i)
    .next (if who < 64 then s2.faultCtx who { code := 0x21, index := 0xFFFF, hob := if c = 0x21 then i / 32 else domainOf c i - 2, ucls := c, uinst := i, info := info }
      else s2)

/-! ### Snapshots (R73, R74) -/

/-- SNAPSHOT_TRIGGER (R73, R74): a capture is requested at the next tick boundary; it merges into one in progress and into a
device-wide one. -/
def execSnapshotTrigger (c i : Nat) (s : State) : Res :=
  let k := pageNo c i
  if ¬ s.pageOn c i ∨ c = 0 then .next s
  else
    let s1 := s.fset (hdr_SNAP_BUSY c) i 1
    if s.reg.snapAll.isSome ∨ (sget? s.reg.snapWait k).isSome then .next s1
    else .next { s1 with reg := { s1.reg with snapWait := sput s1.reg.snapWait k s.tick } }

/-- GLOBAL_SNAPSHOT_TRIGGER (R74): every present page captures at the first tick boundary at least 16 ticks later; captures
that wait merge into it. -/
def execGlobalSnapshotTrigger (s : State) : Res :=
  if ¬ s.hostUp ∨ s.reg.snapAll.isSome then .next s
  else
    let s1 := s.fset (hdr_SNAP_BUSY 0) 0 1
    .next { s1 with reg := { s1.reg with snapAll := some (s.tick + 16), snapWait := [] } }

/-- A page captures at tick `t`: live counters and tick, SEQ, SNAP_BUSY; the live counters restart where CLEAR_ON_SNAPSHOT
asks; the capture is recorded where SNAPSHOT_DONE asks, a Drain page's apart (R71, R73, R219). -/
def State.capturePage (s : State) (t c i : Nat) : State :=
  let s1 := (s.fset64 (hdr_SNAP0_LO c) (hdr_SNAP0_HI c) i (s.live c i 0)).fset64 (hdr_SNAP1_LO c) (hdr_SNAP1_HI c) i (s.live c i 1)
  let s2 := (s1.fset64 (hdr_SNAP2_LO c) (hdr_SNAP2_HI c) i (s.live c i 2)).fset64 (hdr_SNAP3_LO c) (hdr_SNAP3_HI c) i (s.live c i 3)
  let s3 := (s2.fset64 (hdr_SNAP_TICK_LO c) (hdr_SNAP_TICK_HI c) i (t % 2 ^ 64)).fset (hdr_SNAP_BUSY c) i 0
  let q := (s3.fget (hdr_SEQ c) i + 1) % 65536
  let s4 := s3.fset (hdr_SEQ c) i q
  let s5 : State := if s4.fget (hdr_CLEAR_ON_SNAPSHOT c) i = 0 then s4
    else { s4 with reg := { s4.reg with live := sdropRange s4.reg.live (4 * pageNo c i) (4 * pageNo c i + 4) } }
  if s5.fget (hdr_SNAPSHOT_DONE c) i = 1 ∧ c ≠ 0x14 then s5.recEv c i 0x0202 (le q 2) else s5

/-- Every present page, by class and instance. -/
def presentPages (v : Variant) : List (Nat × Nat) :=
  (List.range 0x32).flatMap fun c => ((List.range (instancesOf c)).filter fun i => Sys2Proof.Machine.present v c i).map fun i => (c, i)

/-- The captures of this tick boundary (R73, R74): pages triggered before it, or, where the device-wide boundary has come, all present pages
together. -/
def State.captureDue (s : State) : State :=
  match s.reg.snapAll with
  | some t =>
    if s.tick < t then s
    else
      let s1 : State := { s with reg := { s.reg with snapAll := none } }
      (presentPages s.variant).foldl (fun u p => u.capturePage t p.1 p.2) s1
  | none =>
    let due := s.reg.snapWait.filter fun p => p.2 < s.tick
    let s1 : State := { s with reg := { s.reg with snapWait := s.reg.snapWait.filter fun p => !decide (p.2 < s.tick) } }
    due.foldl (fun u p => u.capturePage s.tick (p.1 / 256) (p.1 % 256)) s1

/-- SNAPSHOT_CAPTURE (R73, R74): the captures of the present tick boundary; those that no command has taken when the tick ends are taken then. -/
def execSnapshotCapture (s : State) : Res := .next s.captureDue

/-! ### Test mode (R94, R95) -/

/-- A mode write is refused: its cause, the count and CONFIG_REJECT (R83). -/
def State.rejectMode (s : State) (cause : Nat) : State :=
  ((s.fset glob_REJECT_CAUSE 0 cause).fbump glob_REJECT_COUNT 0 1).configReject 0 0

/-- TEST_MODE_ENTER (R94): the first check that fails gives the cause. DESIGN CHOICE (log 49): a write while test mode is in force has no effect, and is
neither refused nor counted; the spec does not say. -/
def execTestModeEnter (key : Nat) (s : State) : Res :=
  if ¬ s.hostUp ∨ s.fget glob_TEST_MODE 0 = 1 then .next s
  else if key ≠ 0x7E57 then .next (s.rejectMode 2)
  else if s.cp.ctxs ≠ [] then .next (s.rejectMode 3)
  else if s.fget glob_MEDIA_MODE 0 = 2 then .next (s.rejectMode 4)
  else .next (((s.fset glob_TEST_MODE_REQUEST 0 1).fset glob_TEST_MODE 0 1).recEv 0 0 0x0305 [1])

/-- Test mode ends (R95): pending injections are cancelled and contexts with the test flag are torn down. -/
def State.endTest (s : State) : State :=
  if s.fget glob_TEST_MODE 0 = 0 then s.fset glob_TEST_MODE_REQUEST 0 0
  else
    let s1 := s.reg.inject.foldl (fun t x => t.fset (hdr_INJECT_PENDING (x.1 / 256)) (x.1 % 256) 0) s
    let s2 : State := { s1 with reg := { s1.reg with inject := [] } }
    let s3 := ((s2.cp.ctxs.filter fun p => p.2.test).map Prod.fst).foldl (fun t c => t.tearDown c) s2
    ((s3.fset glob_TEST_MODE_REQUEST 0 0).fset glob_TEST_MODE 0 0).recEv 0 0 0x0305 [0]

/-- TEST_MODE_LEAVE (R95). -/
def execTestModeLeave (s : State) : Res := if ¬ s.hostUp then .next s else .next s.endTest

end Sys2Proof.Machine
end

