-- ==== Sys2Proof/Machine/Time.lean ====
section
/-!
DEFINITION. Device time and the Ethernet ports: the servo, PTP, PTM, 1PPS, links and frames (20_time_and_fabric.md, R532 to R543).
Times and offsets are integers in units of 2^−16 ÷ 25 ns, in which the counter's resolution and the 1.28 ns of the PHY clock are whole.
-/

namespace Sys2Proof.Machine

/-- One ns in the unit of times. -/
def unitNs : Int := 1638400

/-- Whole ns next to a time: which of the two neighbours is taken is a free value, since the spec gives no rounding (log 26). -/
def State.roundNs (s : State) (x : Int) : Int × State :=
  (if x % unitNs = 0 then x / unitNs else x / unitNs + (s.draw.1 % 2 : Nat), if x % unitNs = 0 then s else s.draw.2)

/-- A signed ns value in a 32-bit field, saturating (Table 20-7). -/
def ns32 (x : Int) : Nat := unsigned (max (-2147483648) (min 2147483647 x)) 32

/-- The counter as a coherent read returns it. -/
def State.dtcRead (s : State) : Int := (s.time.dtc / 2 ^ 32 : Nat) * 25

/-- The timestamp of an event message `cyc` PHY cycles before the coherent read (R538): less the synchroniser's latency, 3 cycles in or 2 out,
and the PHY's, in 1/100 ns. -/
def State.stamp (s : State) (p cyc : Nat) (sent : Bool) : Int :=
  s.dtcRead - (cyc + (if sent then 2 else 3) : Nat) * 2097152 - (Config.phyLatency p (s.fget eth_SPEED p) : Nat) * 16384

/-- PTP of a port. -/
def State.ptp (s : State) (p : Nat) : PtpPort := sget s.time.ports p PtpPort.init

/-- `s` with the PTP state of a port replaced. -/
def State.setPtp (s : State) (p : Nat) (x : PtpPort) : State := { s with time := { s.time with ports := sput s.time.ports p x } }

/-- TIME_SOURCE: 0 PTP, 1 PTM, 2 HOLDOVER. -/
def State.source (s : State) : Nat := s.fget glob_TIME_SOURCE 0

/-- The port that steers; the port that is preferred (R539). -/
def State.activePort (s : State) : Nat := s.fget time_ACTIVE_PORT 0
def State.prefPort (s : State) : Nat := if s.fget eth_PTP_PREF 1 = 1 then 1 else 0

/-- A port carries frames: its link is up, and in PS4 it is the active one (R86, Table 20-10). -/
def State.portRuns (s : State) (p : Nat) : Bool :=
  Sys2Proof.Machine.present s.variant 0x31 p && s.kettleOn && s.portUp p && (s.fget glob_PS_EFFECTIVE 0 != 4 || p == s.activePort)

/-- PTP runs on a port. -/
def State.ptpRuns (s : State) (p : Nat) : Bool := s.portRuns p && s.fget eth_PTP_EN p == 1

/-- PTP_ROLE of both ports as their links, PTP_EN and the active port give. -/
def State.refreshRoles (s : State) : State :=
  (List.range 2).foldl (fun t p => if ¬ Sys2Proof.Machine.present s.variant 0x31 p then t else
    t.fset eth_PTP_ROLE p (if ¬ (t.portUp p ∧ t.fget eth_PTP_EN p = 1) then 0 else if p = t.activePort then 1 else 2)) s

/-! ### Measurements, lock and holdover (R534 to R536) -/

/-- A measurement taken. -/
def Measured.add (m : Measured) (off : Int) : Measured :=
  { offs := (off :: m.offs).take 16, beyond := if off.natAbs > 1000 * unitNs.toNat then m.beyond + 1 else 0 }

/-- Sixteen measurements in succession within ± `lim` ns (Table 20-1). -/
def Measured.meets (m : Measured) (lim : Nat) : Bool := m.offs.length == 16 && m.offs.all fun o => decide (o.natAbs ≤ lim * unitNs.toNat)

/-- No measurement since the last step. -/
def Measured.none : Measured := { offs := [], beyond := 0 }

/-- The largest offset of the last 16 measurements plus 40 ns, in whole ns, rounded up (R536). -/
def Measured.bound (m : Measured) : Nat := ceilDiv (m.offs.foldl (fun a o => max a o.natAbs) 0) unitNs.toNat + 40

/-- FREQ_ADJ takes a value; the servo's law is the implementation's, so the value is free within ±2,000,000 (R532, log 27). -/
def State.slew (s : State) : State :=
  let v : Int := (s.draw.1 % 4000001 : Nat) - 2000000
  let s1 := s.draw.2.fset time_FREQ_ADJ 0 (unsigned v 32)
  { s1 with time := { s1.time with freqs := ((s.tick, v) :: s1.time.freqs).take 7680 } }

/-- Sum of FREQ_ADJ × ticks over values newest first, from tick `lo` to `hi`. -/
def freqArea (l : List (Nat × Int)) (lo hi : Nat) : Int :=
  (l.foldl (fun (a : Int × Nat) x => (a.1 + x.2 * (a.2 - max lo (min x.1 a.2) : Nat), max lo (min x.1 a.2))) (0, hi)).1

/-- FREQ_ADJ on entry to HOLDOVER (R536): its mean over the last 60 s locked, or its last value after a shorter lock. Which whole value
next to the mean is taken is free (log 26). -/
def State.freezeFreq (s : State) : State :=
  let span := ticksMs 60000
  match s.time.freqs.getLast? with
  | some (t0, _) =>
    if s.tick < t0 + span then s
    else
      let a := freqArea s.time.freqs (s.tick - span) s.tick
      if a % (span : Nat) = 0 then s.fset time_FREQ_ADJ 0 (unsigned (a / (span : Nat)) 32)
      else s.draw.2.fset time_FREQ_ADJ 0 (unsigned (a / (span : Nat) + (s.draw.1 % 2 : Nat)) 32)
  | none => s

/-- The time source in force changes: a recorder entry of the global page (Table 18-7). -/
def State.toSource (s : State) (src : Nat) (locked : Bool) : State :=
  ((s.fset glob_TIME_SOURCE 0 src).fset time_LOCKED 0 (b2n locked)).recEv 0 0 0x0304 [src, b2n locked]

/-- HOLDOVER is entered (R536, R92). -/
def State.enterHoldover (s : State) : State :=
  if s.source = 2 then s
  else
    let s1 := (s.freezeFreq.fset64 time_HOLDOVER_TICK_LO time_HOLDOVER_TICK_HI 0 (s.tick % 2 ^ 64)).fset time_SERVO_STATE 0 3
    ({ s1 with time := { s1.time with freqs := [] } } : State).toSource 2 false

/-- The source in force is lost (Table 20-1): counted and reported with the offset last measured (R553). -/
def State.loseSource (s : State) : State :=
  if s.source = 2 then s else ((s.enterHoldover).fbump time_LOCK_LOSSES 0 1).err 0x02 0 [8] (s.fget time_LAST_OFFSET 0)

/-- The requested source locks (R92, R535). -/
def State.lockSource (s : State) (src : Nat) (m : Measured) : State :=
  let s1 : State := { s with time := { s.time with everLocked := true, freqs := [(s.tick, signed (s.fget time_FREQ_ADJ 0) 32)] } }
  let s2 := (s1.fset time_SERVO_STATE 0 2).fset64 time_ERROR_BOUND_LO time_ERROR_BOUND_HI 0 m.bound
  if s.source = src then s2 else s2.toSource src true

/-- A measurement of the requested source `src` steers the counter (R534): a step where it is the first since Kettle start-up, or beyond ±1,000 ns
while the source is not locked or for the fourth time; else, within ±1,000 ns, a slew. The source locks where `ok` says that it is
qualified and meets its criterion. A PTP source that four measurements beyond the limit have lost is the caller's to lose. -/
def State.steer (s : State) (src : Nat) (off : Int) (m : Measured) (lim : Nat) : State :=
  let r := s.roundNs off
  let s0 := r.2.fset time_LAST_OFFSET 0 (ns32 r.1)
  let far := decide (off.natAbs > 1000 * unitNs.toNat)
  if s.time.step.isSome then s0
  else if ¬ s.time.measured ∨ (far ∧ (s.source ≠ src ∨ src = 1 ∨ 4 ≤ m.beyond)) then
    let t : TimeState := { s0.time with measured := true, step := some (-r.1, r.1) }
    ({ s0 with time := t } : State).fset time_SERVO_STATE 0 (if s.source = src then 2 else 1)
  else if far then s0
  else
    let s1 := s0.slew
    let s2 := if s.source = src then s1.fset64 time_ERROR_BOUND_LO time_ERROR_BOUND_HI 0 m.bound else s1.fset time_SERVO_STATE 0 1
    if m.meets lim ∧ s.source ≠ src then s2.lockSource src m else s2

/-- The step that waits is applied at a tick boundary (R534): one change to the whole counter; every window of measurements starts again; a second
that it skips gets no 1PPS edge (R541). -/
def State.applyStep (s : State) : State :=
  match s.time.step with
  | none => s
  | some (d, off) =>
    let dtc := ((s.time.dtc : Int) + d * 281474976710656).toNat
    let sec := dtc / 2 ^ 48 / 1000000000
    let ports := s.time.ports.map fun p => (p.1, { p.2 with meas := Measured.none, meetsSince := none })
    let t : TimeState := { s.time with dtc := dtc, step := none, ports := ports, ptm := Measured.none, ppsSec := max s.time.ppsSec sec }
    let s1 := ({ s with time := t } : State).fset time_LAST_STEP 0 (ns32 d)
    let s2 := ((s1.fbump time_STEP_COUNT 0 1).count 0x02 0 2 1).err 0x02 0 [9] (ns32 off)
    let s3 := s2.recEv 0x02 0 0x0307 (le (unsigned d 64) 8)
    if Sys2Proof.Machine.present s.variant 0x31 0 then (s3.fset eth_PTP_QUALIFIED 0 0).fset eth_PTP_QUALIFIED 1 0 else s3

/-! ### PTP (R535, R537 to R539) -/

/-- The active port changes (R539). -/
def State.activatePort (s : State) (p : Nat) : State := (s.fset time_ACTIVE_PORT 0 p).refreshRoles

/-- A port's PTP_LOST entry: written at each change of active port, whether or not the bit was set before (R539). -/
def State.ptpLost (s : State) (p : Nat) (change : Bool) : State :=
  if change ∧ bit (s.fget (hdr_ERR_STATUS 0x31) p) 11 then
    s.recEv 0x31 p 0x010B (le 0 4 ++ [11, s.fget (hdr_STATE 0x31) p])
  else s.err 0x31 p [11] 0

/-- A port loses its source (R535, R539): the standby takes over where it meets the lock criterion, else the device enters HOLDOVER. -/
def State.losePort (s : State) (p : Nat) : State :=
  let x := s.ptp p
  let s1 := s.setPtp p { x with master := none, foreigns := [], meas := Measured.none, meetsSince := none, sync := none }
  let s2 := (s1.fset eth_PTP_QUALIFIED p 0).fset64 eth_GM_ID_LO eth_GM_ID_HI p 0
  let q := 1 - p
  if s.source ≠ 0 ∨ s.activePort ≠ p then (if x.master.isSome then s2.ptpLost p false else s2)
  else if s.ptpRuns q ∧ (s.ptp q).meetsSince.isSome then ((s2.fbump time_LOCK_LOSSES 0 1).ptpLost p true).activatePort q
  else (s2.ptpLost p false).loseSource

/-- The order of two foreign masters (R535): by data set, then by identity. -/
def Foreign.before (a b : Foreign) : Bool := decide (a.data ++ [a.sender] < b.data ++ [b.sender])

/-- A foreign master is qualified: two Announces within four of its intervals, and fewer than 255 steps away. -/
def Foreign.qualified (f : Foreign) : Bool :=
  match f.ticks with
  | a :: b :: _ => decide (a ≤ b + ticksUs (4 * (if 0 ≤ f.logAnn then 1000000 * 2 ^ f.logAnn.toNat else 1000000 / 2 ^ (-f.logAnn).toNat))) &&
      decide (f.data.getD 6 255 < 255)
  | _ => false

/-- Interval of 2^`l` seconds in ticks. -/
def logTicks (l : Int) (n : Nat) : Nat := ticksUs (n * (if 0 ≤ l then 1000000 * 2 ^ l.toNat else 1000000 / 2 ^ (-l).toNat))

/-- A frame sent; one discarded (R542). -/
def State.tx (s : State) (p kind : Nat) (t : Int) : State :=
  let s1 := s.count 0x31 p 1 1
  { s1 with time := { s1.time with out := s1.time.out ++ [(p, kind, t)] } }
def State.discard (s : State) (p : Nat) : State := s.fbump eth_FRAMES_DISCARDED p 1

/-- `n` bytes after the MAC header of a frame that is no PTP frame, as B_link of the background account (R26, R554). -/
def State.ethBytes (s : State) (p n : Nat) : State := (s.work 64 17 n).countUnits 0x31 p 2 n 4096

/-- The masters that a port has heard, with an Announce of `sender` at tick `now` (R535). -/
def PtpPort.hear (x : PtpPort) (sender : Nat) (logAnn : Int) (data : List Nat) (now : Nat) : List Foreign :=
  let old := match x.foreigns.find? fun f => f.sender == sender with
    | some f => f.ticks
    | none => []
  { sender := sender, data := data, logAnn := logAnn, ticks := (now :: old).take 4 } :: x.foreigns.filter fun g => g.sender != sender

/-- The best of the masters heard that are qualified, or selected already (R535). -/
def PtpPort.best (x : PtpPort) (fs : List Foreign) : Option Foreign :=
  (fs.filter fun g => g.qualified || x.master == some g.sender).foldl (fun a g => match a with
    | none => some g
    | some b => if g.before b then some g else some b) none

/-- A port's masters heard are `fs`; the best is selected, and its grandmaster shown. -/
def State.select (s : State) (p : Nat) (fs : List Foreign) : State :=
  let b := (s.ptp p).best fs
  let s1 := s.setPtp p { s.ptp p with foreigns := fs, master := b.map Foreign.sender }
  match b with
  | some g => s1.fset64 eth_GM_ID_LO eth_GM_ID_HI p (g.data.getD 5 0 % 2 ^ 64)
  | none => s1

/-- PTP_ANNOUNCE_RECEIVED (R535, R537): the master is heard; the best qualified one is selected. -/
def execPtpAnnounceReceived (p dom sender : Nat) (logAnn : Int) (data : List Nat) (s : State) : Res :=
  if ¬ s.ptpRuns p then .next s
  else if s.rxCorrupt p then .next (s.rxLost p 0)
  else if logAnn < -3 ∨ 3 < logAnn then .next ((s.rx p).discard p)
  else if dom ≠ s.fget eth_DOMAIN p then .next (s.rx p)
  else .next ((s.rx p).select p ((s.ptp p).hear sender logAnn data s.tick))

/-- A port is the one that steers: the active one, or, while no source is locked and the active one has no master, this one (log 28). -/
def State.steers (s : State) (p : Nat) : Bool :=
  s.fget glob_TIME_SOURCE_REQUEST 0 == 0 && (p == s.activePort || (s.source == 2 && (s.ptp s.activePort).master.isNone))

/-- The offset that a Sync sent at `t1` (2^−16 ns) and received `cyc` PHY cycles before the read gives. -/
def State.syncOffset (s : State) (p t1 cyc : Nat) : Int := s.stamp p cyc false - (t1 * 25 : Nat) - (s.ptp p).delay

/-- A Sync is measured (R534, R537): the port's offset, its window of measurements, and whether it meets the lock criterion. -/
def State.takeSync (s : State) (p : Nat) (logSync : Int) (t1 cyc : Nat) : State :=
  let off := s.syncOffset p t1 cyc
  let m := (s.ptp p).meas.add off
  let since := if m.meets 100 then (match (s.ptp p).meetsSince with | some t => some t | none => some s.tick) else none
  let x : PtpPort := { s.ptp p with logSync := logSync, syncTick := s.tick, meas := m, meetsSince := since,
                                    sync := some ((t1 * 25 : Nat), s.stamp p cyc false) }
  let r := (((s.serve 5 0 1).rx p).count 0x02 0 0 1).roundNs off
  ((r.2.setPtp p x).fset eth_PORT_OFFSET p (ns32 r.1)).fset eth_PTP_QUALIFIED p (b2n (m.meets 100))

/-- PTP_SYNC_RECEIVED (R534, R535, R538): a Sync and its follow-up, sent at `t1` (2^−16 ns) and received `cyc` PHY cycles before the read, give an
offset; the port that steers corrects the counter. The fourth offset in succession beyond ±1,000 ns of a locked source loses it. -/
def execPtpSyncReceived (p dom sender : Nat) (logSync : Int) (t1 cyc : Nat) (s : State) : Res :=
  if ¬ s.ptpRuns p then .next s
  else if s.rxCorrupt p then .next (s.rxLost p 0)
  else if logSync < -7 ∨ 0 < logSync then .next ((s.rx p).discard p)
  else if dom ≠ s.fget eth_DOMAIN p ∨ (s.ptp p).master ≠ some sender then .next (s.rx p)
  else
    let off := s.syncOffset p t1 cyc
    let m := (s.ptp p).meas.add off
    let s1 := s.takeSync p logSync t1 cyc
    if ¬ s.steers p then .next s1
    else if s.source = 0 ∧ 4 ≤ m.beyond then
      .next (if s.ptpRuns (1 - p) ∧ (s.ptp (1 - p)).meetsSince.isSome then s1.losePort p
        else ((s1.ptpLost p false).loseSource).steer 0 off m 100)
    else
      let s2 := s1.steer 0 off m 100
      .next (if s2.source = 0 ∧ s2.activePort ≠ p then s2.activatePort p else s2)

/-- PTP_DELAY_REQUEST_SEND (R537, R538): a Delay_Req at the master's logMinDelayReqInterval, or in P2P a Pdelay_Req at PDELAY_LOG. -/
def execPtpDelayRequestSend (p cyc : Nat) (s : State) : Res :=
  let x := s.ptp p
  let p2p := s.fget eth_DELAY_MECH p = 1
  let l := if p2p then signed (s.fget eth_PDELAY_LOG p) 4 else max (-7) x.logDelay
  if ¬ s.ptpRuns p ∨ (¬ p2p ∧ x.sync.isNone) ∨ (x.sent.isSome ∧ s.tick < x.sentTick + logTicks l 1) then .next s
  else
    let t := s.stamp p cyc true
    .next (((s.serve 5 0 1).setPtp p { x with sent := some t, sentTick := s.tick }).tx p (if p2p then 2 else 1) t)

/-- A port's path delay takes a value (R537). -/
def State.takeDelay (s : State) (p : Nat) (logDelay v : Int) : State :=
  let r := s.roundNs v
  (r.2.setPtp p { s.ptp p with delay := v, logDelay := logDelay }).fset eth_MEAN_PATH_DELAY p (ns32 r.1)

/-- PTP_DELAY_RESPONSE (R537): in E2E `a` is the request's receipt at the master; in P2P `a` and `b` are the peer's receipt and answer and `cyc` gives
the answer's receipt. The mean path delay follows. Times in 2^−16 ns. -/
def execPtpDelayResponse (p sender : Nat) (logDelay : Int) (a b cyc : Nat) (s : State) : Res :=
  let x := s.ptp p
  if ¬ s.ptpRuns p then .next s
  else if s.rxCorrupt p then .next (s.rxLost p 0)
  else if s.fget eth_DELAY_MECH p = 0 ∧ logDelay < -7 then .next ((s.rx p).discard p)
  else match x.sent with
    | none => .next (s.rx p)
    | some t3 =>
      let d : Option Int :=
        if s.fget eth_DELAY_MECH p = 1 then some ((s.stamp p cyc false - t3 - ((b * 25 : Nat) - (a * 25 : Nat) : Int)) / 2)
        else if x.master ≠ some sender then none
        else x.sync.map fun q => ((q.2 - q.1) + ((a * 25 : Nat) - t3)) / 2
      match d with
      | none => .next (s.rx p)
      | some v => .next (((if s.fget eth_DELAY_MECH p = 1 then s.serve 5 0 1 else s).rx p).takeDelay p logDelay v)

/-- PTP_PDELAY_REQUEST (R537): as a P2P peer the port answers with Pdelay_Resp, carrying the receipt, and Pdelay_Resp_Follow_Up, carrying the answer's
time. -/
def execPtpPdelayRequest (p dom cyc cycOut : Nat) (s : State) : Res :=
  if ¬ s.ptpRuns p then .next s
  else if s.rxCorrupt p then .next (s.rxLost p 0)
  else if dom ≠ s.fget eth_DOMAIN p ∨ s.fget eth_DELAY_MECH p ≠ 1 then .next (s.rx p)
  else .next ((((((s.serve 5 0 1).serve 5 0 1).rx p).tx p 3 (s.stamp p cyc false))).tx p 10 (s.stamp p cycOut true))

/-- The selected master of a port is timed out, or the port can hear it no more (Table 20-1). -/
def State.portSilent (s : State) (p : Nat) : Bool :=
  let x := s.ptp p
  match x.master with
  | none => false
  | some m =>
    !s.portUp p || s.fget eth_PTP_EN p == 0 ||
    (match x.foreigns.find? fun f => f.sender == m with
      | some f => decide (f.ticks.headD 0 + logTicks f.logAnn (s.fget eth_ANNOUNCE_TIMEOUT p) ≤ s.tick)
      | none => true) ||
    (x.sync.isSome && decide (x.syncTick + logTicks x.logSync 4 ≤ s.tick))

/-- PTP_SOURCE_LOSS (R535, R539). -/
def execPtpSourceLoss (p : Nat) (s : State) : Res :=
  if ¬ Sys2Proof.Machine.present s.variant 0x31 p ∨ ¬ s.kettleOn ∨ ¬ s.portSilent p then .next s else .next (s.losePort p).refreshRoles

/-- PTP_PREFERRED_RETURN (R539): the preferred port has met the lock criterion for 60 s. -/
def execPtpPreferredReturn (s : State) : Res :=
  let p := s.prefPort
  if s.source ≠ 0 ∨ s.activePort = p ∨ ¬ s.ptpRuns p then .next s
  else match (s.ptp p).meetsSince with
    | some t => if t + ticksMs 60000 ≤ s.tick then .next (s.activatePort p) else .next s
    | none => .next s

/-! ### PTM (R540) -/

/-- PTM is lost: five dialogs failed, the host cleared its enable, or the link went down (Table 20-1). -/
def State.losePtm (s : State) : State :=
  let s1 : State := { s with time := { s.time with ptm := Measured.none, ptmFails := 0 } }
  if s.source = 1 then s1.loseSource else s1

/-- PTM_DIALOG (R540): every PTM_INTERVAL_MS while PTM is requested and enabled. A dialog gives the root's time in ns, the link delay and how long ago
the answer came, both in 2^−16 ns. -/
def execPtmDialog (ok : Bool) (root delay ago : Nat) (s : State) : Res :=
  if ¬ s.planesOn ∨ s.fget front_PTM_ENABLED 0 = 0 ∨ s.fget front_RATE 0 = 0 ∨ s.fget glob_TIME_SOURCE_REQUEST 0 ≠ 1 ∨
      s.tick < s.time.ptmTick + ticksMs (s.fget time_PTM_INTERVAL_MS 0) then .next s
  else if ¬ ok then
    let s1 : State := { s with time := { s.time with ptmTick := s.tick, ptmFails := s.time.ptmFails + 1 } }
    .next (if 5 ≤ s1.time.ptmFails then s1.losePtm else s1)
  else
    let off := s.dtcRead - (ago * 25 : Nat) - ((root * 1638400 + delay * 25 : Nat) : Int)
    let m := s.time.ptm.add off
    let s1 : State := { s with time := { s.time with ptmTick := s.tick, ptmFails := 0, ptm := m } }
    .next ((s1.count 0x02 0 1 1).steer 1 off m 250)

/-- TIME_SOURCE_REQUEST_WRITE (R92): 0 PTP, 1 PTM, 2 HOLDOVER; 3 names no source and changes nothing. PTP is refused without Ethernet. The device is
in HOLDOVER until the requested source locks; a PTP port that already meets the criterion locks at once. -/
def execTimeSourceRequestWrite (v : Nat) (s : State) : Res :=
  if ¬ s.hostUp ∨ 2 < v then .next s
  else if v = 0 ∧ ¬ Sys2Proof.Machine.present s.variant 0x31 0 then .next (s.rejectMode 1)
  else
    let s1 := s.fset glob_TIME_SOURCE_REQUEST 0 v
    if v = s.source then .next s1
    else
      let s2 := s1.enterHoldover
      if v = 0 then match (List.range 2).find? fun k => s2.ptpRuns (if k = 0 then s2.activePort else 1 - s2.activePort) &&
            (s2.ptp (if k = 0 then s2.activePort else 1 - s2.activePort)).meetsSince.isSome with
        | some k =>
          let p := if k = 0 then s2.activePort else 1 - s2.activePort
          .next ((s2.lockSource 0 (s2.ptp p).meas).activatePort p)
        | none => .next s2
      else .next s2

/-! ### 1PPS (R541) -/

/-- PPS_OUT_EDGE: the counter has reached a second later than any before; an edge is driven as PPS_OUT_MODE gives. -/
def execPpsOutEdge (s : State) : Res :=
  let sec := s.time.dtc / 2 ^ 48 / 1000000000
  if ¬ s.kettleOn ∨ sec ≤ s.time.ppsSec then .next s
  else
    let mode := s.fget time_PPS_OUT_MODE 0
    let drive := decide (mode = 1) || (decide (2 ≤ mode) && s.time.everLocked)
    .next { s with time := { s.time with ppsSec := sec, ppsOut := if drive then some s.tick else s.time.ppsOut } }

/-- PPS_IN_EDGE: an edge `cyc` PHY cycles before the read; its offset from the nearest DTC second is reported. -/
def execPpsInEdge (cyc : Nat) (s : State) : Res :=
  if s.variant ≠ .x ∨ ¬ s.kettleOn then .next s
  else
    let sec := 1000000000 * unitNs
    let x := (s.dtcRead - (2097152 * cyc : Nat)) % sec
    let s0 := if 2 * x = sec then (s.serve 5 0 1).draw.2 else s.serve 5 0 1
    let near := if 2 * x < sec then x else if sec < 2 * x then x - sec else if s.draw.1 % 2 = 0 then x else x - sec
    let r := s0.roundNs near
    let s1 := (r.2.fset time_PPS_IN_OFFSET 0 (ns32 r.1)).fset time_PPS_IN_VALID 0 1
    .next { s1 with time := { s1.time with ppsIn := some s.tick } }

/-- PPS_IN_MISSING (R553): no edge for 2 s after one was seen. -/
def execPpsInMissing (s : State) : Res :=
  match s.time.ppsIn with
  | some t =>
    if s.tick < t + ticksMs 2000 then .next s
    else .next ((({ s with time := { s.time with ppsIn := none } } : State).fset time_PPS_IN_VALID 0 0).err 0x02 0 [11]
      (s.fget time_PPS_IN_OFFSET 0))
  | none => .next s

/-! ### The Ethernet ports (R542, R543) -/

/-- A port's link is down. -/
def State.dropPort (s : State) (p : Nat) : State :=
  let s1 := ((s.fset eth_LINK_UP p 0).fset eth_SPEED p 0).err 0x31 p [8] 0
  let s2 : State := { s1 with time := { s1.time with paused := s1.time.paused.filter (· ≠ p) } }
  (s2.losePort p).refreshRoles

/-- In PS4 only the active PTP port stays powered: the other is off (Table 20-10). -/
def State.powerPorts (s : State) : State :=
  let p := 1 - s.activePort
  if s.variant ≠ .x ∨ ¬ s.portUp p then s
  else
    let s1 := (s.fset eth_LINK_UP p 0).fset eth_SPEED p 0
    ((({ s1 with time := { s1.time with paused := s1.time.paused.filter (· ≠ p) } } : State).losePort p).refreshRoles)

/-- One hour in ticks. -/
def hourTicksE : Nat := 60 * ticksMs 60000

/-- ETHERNET_LINK_DOWN (R543, Table 17-1): a port's link goes down; where `lane` names one, it failed link training, and the third failure within an hour
retires the lane and its port. -/
def execEthernetLinkDown (p : Nat) (lane : Option Nat) (s : State) : Res :=
  if ¬ Sys2Proof.Machine.present s.variant 0x31 p ∨ ¬ s.kettleOn ∨ s.fget eth_PORT_RETIRED p = 1 then .next s
  else
    let s1 := if s.portUp p then s.dropPort p else s
    match lane with
    | none => .next s1
    | some n =>
      if 4 ≤ n then .next s1
      else
        let k := 65536 * 8 + 4 * p + n
        let l := s.tick :: (sget s.rel.events k []).filter fun t => decide (s.tick < t + hourTicksE)
        let s2 := ({ s1 with rel := { s1.rel with events := sput s1.rel.events k l } } : State).err 0x31 p [9] n
        if l.length < 3 then .next s2
        else .next (((s2.fsetBit eth_LANES_RETIRED p n).fset eth_PORT_RETIRED p 1).recordRetirement 0x31 p n)

/-- ETHERNET_LINK_UP (R542, R543): a port that is not retired comes up at 400G (1) or 800G (2) on KR4 (0) or CR4 (1); in
PS4 only the active one does (Table 20-10). -/
def execEthernetLinkUp (p speed medium : Nat) (s : State) : Res :=
  if ¬ Sys2Proof.Machine.present s.variant 0x31 p ∨ ¬ s.planesOn ∨ s.fget eth_PORT_RETIRED p = 1 ∨ s.portUp p ∨ ¬ (speed = 1 ∨ speed = 2) ∨
      (s.fget glob_PS_EFFECTIVE 0 = 4 ∧ p ≠ s.activePort) then .next s
  else .next ((((s.fset eth_LINK_UP p 1).fset eth_SPEED p speed).fset eth_MEDIUM p (medium % 2)).refreshRoles)

/-- ETHERNET_FRAME_DISCARD (R542, R546, R554): a frame that is not accepted (0), a Snilo Link frame whose CRC fails (1), or a frame lost to an FEC
codeword that could not be corrected (2). The frame has `n` bytes after its MAC header. -/
def execEthernetFrameDiscard (p kind lane n : Nat) (s : State) : Res :=
  if ¬ s.portRuns p then .next s
  else if s.rxCorrupt p then .next (s.rxLost p (lane % 4))
  else if kind = 0 then .next (((s.rx p).discard p).ethBytes p n)
  else if kind = 1 then .next (((s.rx p).ethBytes p n).err 0x31 p [2] (lane % 4))
  else .next (s.rxLost p (lane % 4))

/-- The own address of a port (R542, Table 20-4): the own peer entry's, IPv4 or IPv6. -/
def State.ownAddr (s : State) (p : Nat) (v6 : Bool) : Option Nat :=
  (s.peer s.sledId).map fun e => if v6 then fld e (if p = 0 then 20 else 48) 16 else fld e (if p = 0 then 16 else 44) 4

/-- ARP_NEIGHBOR_DISCOVERY (R542): a frame for the port's own address is answered; any other is discarded. The frame
has `n` bytes after its MAC header and the answer `m`. -/
def execArpNeighborDiscovery (p target : Nat) (v6 : Bool) (n m : Nat) (s : State) : Res :=
  if ¬ s.portRuns p then .next s
  else if s.rxCorrupt p then .next (s.rxLost p 0)
  else if s.ownAddr p v6 = some target then .next (((s.rx p).ethBytes p (n + m)).tx p 16 (target : Int))
  else .next (((s.rx p).ethBytes p n).discard p)

/-- PFC_FRAME (R542): with PFC_EN set, transmission on PFC_PRIO pauses or resumes; any other PFC frame is not accepted. A PFC frame is
64 bytes, 46 of them after the MAC header and before the FCS (R26). -/
def execPfcFrame (p prio : Nat) (pause : Bool) (s : State) : Res :=
  if ¬ s.portRuns p then .next s
  else if s.rxCorrupt p then .next (s.rxLost p 0)
  else if s.fget eth_PFC_EN p = 0 ∨ prio ≠ s.fget eth_PFC_PRIO p then .next (((s.rx p).discard p).ethBytes p 46)
  else
    let l := s.time.paused.filter (· ≠ p)
    let s1 := (s.rx p).ethBytes p 46
    .next { s1 with time := { s1.time with paused := if pause then p :: l else l } }

end Sys2Proof.Machine
end

