-- ==== Sys2Proof/Machine/Queues.lean ====
section
/-!
DEFINITION. Queues, intake and fetch arbitration, features, Abort, asynchronous events, the vendor context commands, the
compute commands' entry into intake, and the power states (05_host_interface.md, 06_compute_commands.md).
-/

namespace Sys2Proof.Machine

/-! ### Doorbells (R114, R128) -/

/-- A queue of a function. -/
def State.sq? (s : State) (fn q : Nat) : Option Sq := sget? s.host.sqs (qKey fn q)

/-- SQ_DOORBELL (R114, R128): the tail of a submission queue, the admin queue among them, moves; during an entry to a non-operational state the command is accepted and wakes the
device once the entry ends; in the state it starts the exit. -/
def execSqDoorbell (fn q tail : Nat) (s : State) : Res :=
  match s.sq? fn q with
  | none => .next s
  | some k =>
    if ¬ (s.ctrl fn).rdy ∨ ¬ s.linkUp ∨ k.size ≤ tail then .next s
    else
      let n := (tail + k.size - k.tail) % k.size
      let s1 := ({ s with host := { s.host with sqs := sput s.host.sqs (qKey fn q) { k with tail := tail } } } : State).pcie 64 4
      .next (if s.host.psEntering then s1.wake.fbump front_PS_WAKE_DURING_ENTRY 0 n else s1.wake)

/-- The completion queue of a completion. -/
def State.cqKeyOf (s : State) (c : Cpl) : Nat := s.cqOf c.cmd.fn c.cmd.sq

/-- The oldest `n` completions of queue `k` leave. -/
def dropCpls (s : State) (k : Nat) : Nat → List Cpl → List Cpl
  | 0, l => l
  | n + 1, l => dropCpls s k n (l.eraseP fun c => s.cqKeyOf c == k)

/-- CQ_DOORBELL (R114): host software has taken `n` completions of a queue; held completions take the room. -/
def execCqDoorbell (fn q n : Nat) (s : State) : Res :=
  match sget? s.host.cqs (qKey fn q) with
  | none => .next s
  | some k =>
    let m := min n k.used
    let s1 := ({ s with host := { s.host with
      cqs := sput s.host.cqs (qKey fn q) { k with used := k.used - m }
      cpls := dropCpls s (qKey fn q) m s.host.cpls
      held := [] } } : State).pcie 64 4
    .next (if s.linkUp then s.host.held.foldl (fun t c => t.place c) s1 else s)

/-! ### Fetch (R115, R118) -/

/-- Functions whose controllers exist. -/
def State.functions (s : State) : List Nat := (List.range (s.host.numVfs + 1))

/-- An NVM or SLM slot is free for a function: one of its 128, or a shared one (R115). -/
def State.poolFree (s : State) (fn : Nat) : Bool :=
  decide (s.poolOf fn < 128) ||
  decide ((s.functions.map fun f => s.poolOf f - 128).sum < 8192 - 128 * s.functions.length)

/-- A queue takes part in arbitration: it holds a command and its class has a free slot. -/
def State.eligible (s : State) (fn q : Nat) : Bool :=
  match s.sq? fn q with
  | none => false
  | some k => k.waits && (if q = 0 then decide (s.adminSlots fn < 64) else match k.ctx with
    | some c => c == 64 || decide (s.ctxSlots c < 256)
    | none => s.poolFree fn)

/-- Queue identifiers of a function, ascending. -/
def State.queuesOf (s : State) (fn : Nat) : List Nat :=
  (s.host.sqs.filter fun p => p.1 / 65536 == fn).map fun p => p.1 % 65536

/-- A function has a command to fetch. -/
def State.fnEligible (s : State) (fn : Nat) : Bool := s.ready fn && (s.queuesOf fn).any (s.eligible fn)

/-- Commands a turn may fetch: 2 to the Arbitration Burst; 7 is no limit (feature 0x01 [2:0]). -/
def State.burstOf (s : State) (fn : Nat) : Option Nat :=
  let ab := (s.ctrl fn).feature 0x01 % 8
  if ab = 7 then none else some (2 ^ ab)

/-- The next in round robin after `last` among those listed ascending. -/
def roundRobin (last : Nat) (l : List Nat) : Option Nat := (l.find? fun x => decide (last < x)).orElse fun _ => l.head?

/-- The function whose turn it is (R118, stage 1), and the fetches of its turn so far. -/
def State.turn (s : State) : Option (Nat × Nat) :=
  let l := s.functions.filter s.fnEligible
  let more : Bool := match s.burstOf s.host.lastFn with
    | none => true
    | some b => decide (s.host.burst < b)
  if l.contains s.host.lastFn ∧ more then some (s.host.lastFn, s.host.burst)
  else (roundRobin s.host.lastFn l).map fun f => (f, 0)

/-- Weight of class 1 high, 2 medium, 3 low: HPW + 1, MPW + 1, LPW + 1. -/
def State.weight (s : State) (fn cls : Nat) : Nat :=
  let f := (s.ctrl fn).feature 0x01
  (if cls = 1 then f / 2 ^ 24 % 256 else if cls = 2 then f / 2 ^ 16 % 256 else f / 256 % 256) + 1

/-- The queue of a function that is served next (R118, stage 2), with its class: 4 admin, 0 urgent, 1 to 3 weighted, 5 plain
round robin; and whether the weighted turns start afresh. Each class keeps its own place in its round robin. -/
def State.pickQueue (s : State) (fn : Nat) : Option (Nat × Nat × Bool) :=
  let io := (s.queuesOf fn).filter fun q => q ≠ 0 && s.eligible fn q
  let cls (n : Nat) : List Nat := io.filter fun q => match s.sq? fn q with
    | some k => k.prio == n
    | none => false
  let rr (c : Nat) (l : List Nat) : Option Nat := roundRobin (sget s.host.lastSq (8 * fn + c) 0) l
  let left (n : Nat) : Nat := sget s.host.credit (4 * fn + n) (s.weight fn n)
  if s.eligible fn 0 then some (0, 4, false)
  else if ¬ (s.ctrl fn).wrr then (rr 5 io).map fun q => (q, 5, false)
  else match rr 0 (cls 0) with
    | some q => some (q, 0, false)
    | none =>
      match [1, 2, 3].find? fun n => !(cls n).isEmpty && left n != 0 with
      | some n => (rr n (cls n)).map fun q => (q, n, false)
      | none => match [1, 2, 3].find? fun n => !(cls n).isEmpty with
        | some n => (rr n (cls n)).map fun q => (q, n, true)
        | none => none

/-- COMMAND_FETCH (R115, R118, R119): the command at the head of the queue that arbitration picks enters intake; one fetched
from a compute queue whose context is gone completes with Invalid Context (R145). -/
def execCommandFetch (cid : Nat) (slm : Bool) (s : State) : Res :=
  match s.turn with
  | none => .next s
  | some (fn, b) => match s.pickQueue fn with
    | none => .next s
    | some (q, cls, fresh) => match s.sq? fn q with
      | none => .next s
      | some k =>
        let credit := if fresh then (s.host.credit.filter fun p => p.1 / 4 ≠ fn) else s.host.credit
        let left := sget credit (4 * fn + cls) (s.weight fn cls)
        let cmd : CmdId := { fn := fn, sq := q, cid := cid }
        let kind : IntakeKind := if q = 0 then .admin else match k.ctx with
          | some c => .compute c
          | none => if slm then .slm else .nvm
        let s1 : State := { s with host := { s.host with
          sqs := sput s.host.sqs (qKey fn q) { k with head := (k.head + 1) % k.size }
          lastFn := fn, burst := b + 1
          lastSq := if q = 0 then s.host.lastSq else sput s.host.lastSq (8 * fn + cls) q
          credit := if 1 ≤ cls ∧ cls ≤ 3 then sput credit (4 * fn + cls) (left - 1) else credit
          intake := s.host.intake ++ [{ cmd := cmd, kind := kind, begun := false, exec := none, op := none, tick := s.tick }] } }
        let s2 := s1.pcie 64 64
        .next (if k.ctx = some 64 then s2.complete cmd 1 0xC0 else s2)

/-! ### Overload (R121) -/

/-- OVERLOAD_RAISE (R121): class `k` (64 the pool) has stayed saturated for 10 s. -/
def execOverloadRaise (k : Nat) (s : State) : Res :=
  match sget? s.host.satSince k with
  | none => .next s
  | some t =>
    if ¬ s.saturated k ∨ s.host.sustained.contains k ∨ s.tick < t + ticksMs 10000 then .next s
    else
      let s1 : State := { s with host := { s.host with sustained := k :: s.host.sustained } }
      let s2 := s1.err 0x03 0 [9] k
      .next ((s2.recEv 0x03 0 0x0401 [1, if k < 64 then k else 0xFF]).aer 0 7 2)

/-- OVERLOAD_CLEAR (R121): the class has been unsaturated for 1 s. -/
def execOverloadClear (k : Nat) (s : State) : Res :=
  match sget? s.host.unsatSince k with
  | none => .next s
  | some t =>
    if s.saturated k ∨ ¬ s.host.sustained.contains k ∨ s.tick < t + ticksMs 1000 then .next s
    else
      let s1 : State := { s with host := { s.host with sustained := s.host.sustained.filter (· ≠ k) } }
      .next ((s1.recEv 0x03 0 0x0401 [0, if k < 64 then k else 0xFF]).aer 0 7 2)

/-! ### Features (R116, R117) -/

/-- A feature stored in a function's controller. -/
def State.setFeature (s : State) (fn k v : Nat) : State :=
  let c := s.ctrl fn
  s.setCtrl fn { c with feat := sput c.feat k v }

/-- A feature as stored, with its own default. -/
def State.featureOr (s : State) (fn k d : Nat) : Nat := sget (s.ctrl fn).feat k d

/-- I/O queues that a function may hold (Table 05-5), 0's based; MSI-X vectors. -/
def maxQueues (fn : Nat) : Nat := if fn = 0 then 254 else 7
def maxVectors (fn : Nat) : Nat := if fn = 0 then 256 else 9

/-- The features of R116 that have a row of this one: all but Power Management and Context Quota. -/
def plainFeature (fid : Nat) : Bool :=
  [0x01, 0x04, 0x07, 0x08, 0x09, 0x0B, 0x0C, 0x0E].contains fid

/-- SET_FEATURES (R116): Timestamp may not be changed; a feature outside R116 completes with Invalid Field. Power Management and
Context Quota have rows of their own. The APST table is the 256 bytes of `data`. -/
def execSetFeatures (cmd : CmdId) (fid cdw11 : Nat) (data : List Byte) (s : State) : Res :=
  let fn := cmd.fn
  if ¬ s.takes cmd ∨ fid = 0x02 ∨ fid = 0xC0 then .next s
  else if s.turnedAway cmd true then .next (s.turnAway cmd)
  else if fid = 0x0E then .next (s.complete cmd 1 0x0E)
  else if ¬ plainFeature fid then .next (s.complete cmd 0 0x02)
  else if fid = 0x07 then
    let v := min (cdw11 % 65536) (maxQueues fn) + 65536 * min (cdw11 / 65536 % 65536) (maxQueues fn)
    .next ((s.setFeature fn 0x07 v).succeed cmd v)
  else if fid = 0x04 then .next ((s.setFeature fn (0x400 + bits cdw11 16 6) (cdw11 % 65536)).succeed cmd)
  else if fid = 0x09 then
    (if maxVectors fn ≤ cdw11 % 65536 then .next (s.complete cmd 0 0x02)
     else .next ((s.setFeature fn (0x900 + cdw11 % 65536) (bits cdw11 16 1)).succeed cmd))
  else if fid = 0x0C then
    let s1 := (List.range 32).foldl (fun t k => t.setFeature fn (0xC00 + k) (leNat ((data.drop (8 * k)).take 8))) s
    .next ((s1.setFeature fn 0x0C (cdw11 % 2)).succeed cmd)
  else .next ((s.setFeature fn fid cdw11).succeed cmd)

/-- Device time in ms, as Timestamp returns it (R116). -/
def State.timestampMs (s : State) : Nat := s.time.dtc / 2 ^ 48 / 1000000

/-- Dword 0 and data of a feature; none for one outside R116 (R116). DESIGN CHOICE (log 47): Number of Queues reads 0, one pair of queues, until
it is set; the spec gives no value. -/
def State.readFeature (s : State) (fn fid cdw11 : Nat) : Option (Nat × List Byte) :=
  if fid = 0x02 then some (s.fget glob_PS_EFFECTIVE 0, [])
  else if fid = 0x04 then
    let k := bits cdw11 16 6
    some (s.featureOr fn (0x400 + k) (if 16 ≤ k then 0 else if k = 0 then 358 else 0xFFFF), [])
  else if fid = 0x09 then some (cdw11 % 65536 + 65536 * s.featureOr fn (0x900 + cdw11 % 65536) 0, [])
  else if fid = 0x0C then some (s.featureOr fn 0x0C 0, (List.range 32).flatMap fun k => natLE (s.featureOr fn (0xC00 + k) 0) 8)
  else if fid = 0x0E then some (0, natLE (s.timestampMs % 2 ^ 48) 8)
  else if fid = 0xC0 then (if fn ≠ 0 ∨ 32 ≤ cdw11 % 64 then none else some (sget s.host.quota (cdw11 % 64) 0, []))
  else if plainFeature fid then some (s.featureOr fn fid 0, [])
  else none

/-- GET_FEATURES (R116): Power Management reports the state in force (R80); Timestamp device time; Context Quota the quota of
the virtual function named, on the physical function only. The composite's over threshold is WCTEMP until it is set. -/
def execGetFeatures (cmd : CmdId) (fid cdw11 : Nat) (s : State) : Res :=
  if ¬ s.takes cmd then .next s
  else if s.turnedAway cmd false then .next (s.turnAway cmd)
  else match s.readFeature cmd.fn fid cdw11 with
    | some (d, bs) => .next (s.succeed cmd d bs)
    | none => .next (s.complete cmd 0 0x02)

/-- SET_FEATURES_CONTEXT_QUOTA (R117): on the physical function only; the sum stays at most 64 and no quota falls below the
contexts that its function holds. -/
def execSetFeaturesContextQuota (cmd : CmdId) (vf quota : Nat) (s : State) : Res :=
  if ¬ s.takes cmd then .next s
  else if s.turnedAway cmd true then .next (s.turnAway cmd)
  else
    let others := ((s.host.quota.filter fun p => p.1 ≠ vf).map Prod.snd).sum
    if cmd.fn ≠ 0 ∨ 32 ≤ vf ∨ 64 < quota ∨ 64 < others + quota ∨ quota < (s.ctxsOf (vf + 1)).length then
      .next (s.complete cmd 0 0x02)
    else .next (({ s with host := { s.host with quota := sput s.host.quota vf quota } } : State).succeed cmd)

/-! ### Queues (R114, R143, R145) -/

/-- The function has requested queues, and identifier `q` lies within what it was given (R114); statuses of the public command
set that this spec does not restate are those of its base (log 22). -/
def State.queueId (s : State) (fn q : Nat) (cq : Bool) : Bool :=
  match sget? (s.ctrl fn).feat 0x07 with
  | some v => decide (1 ≤ q) && decide (q ≤ (if cq then v / 65536 else v % 65536) + 1)
  | none => false

/-- CREATE_IO_CQ (R114). -/
def execCreateIoCq (cmd : CmdId) (q size : Nat) (ien : Bool) (iv : Nat) (s : State) : Res :=
  let k := qKey cmd.fn q
  if ¬ s.takes cmd then .next s
  else if s.turnedAway cmd true then .next (s.turnAway cmd)
  else if ¬ s.queueId cmd.fn q true ∨ (sget? s.host.cqs k).isSome then .next (s.complete cmd 1 0x01)
  else if size < 2 ∨ 65536 < size then .next (s.complete cmd 1 0x02)
  else if ien ∧ maxVectors cmd.fn ≤ iv then .next (s.complete cmd 1 0x08)
  else
    let c : Cq := { size := size, ien := ien, iv := iv, used := 0 }
    .next (({ s with host := { s.host with cqs := sput s.host.cqs k c } } : State).succeed cmd)

/-- CREATE_IO_SQ (R114, R143): with COMPUTE = 1 the queue binds to a context of the issuing function that has no queue. `low`
is CDW12[15:0]. -/
def execCreateIoSq (cmd : CmdId) (q size cq prio : Nat) (compute : Bool) (ctx low : Nat) (s : State) : Res :=
  let fn := cmd.fn
  let k := qKey fn q
  let mk (c : Option Nat) (t : State) : State :=
    let n : Sq := { size := size, cq := cq, prio := prio % 4, ctx := c, tail := 0, head := 0 }
    ({ t with host := { t.host with sqs := sput t.host.sqs k n } } : State).succeed cmd
  if ¬ s.takes cmd then .next s
  else if s.turnedAway cmd true then .next (s.turnAway cmd)
  else if ¬ s.queueId fn q false ∨ (sget? s.host.sqs k).isSome then .next (s.complete cmd 1 0x01)
  else if (sget? s.host.cqs (qKey fn cq)).isNone ∨ cq = 0 then .next (s.complete cmd 1 0x00)
  else if size < 2 ∨ 65536 < size then .next (s.complete cmd 1 0x02)
  else if low ≠ 0 then .next (s.complete cmd 0 0x02)
  else if ¬ compute then .next (mk none s)
  else match s.ctx? ctx with
    | none => .next (s.complete cmd 1 0xC0)
    | some x =>
      if x.req.fn ≠ fn then .next (s.complete cmd 1 0xC0)
      else if x.sq.isSome then .next (s.complete cmd 1 0xC8)
      else .next (mk (some ctx) (s.setCtx ctx { x with sq := some k }))

/-- DELETE_IO_SQ (R145): refused for a compute queue whose context exists; commands fetched from the queue complete as aborted by
its deletion (log 22). -/
def execDeleteIoSq (cmd : CmdId) (q : Nat) (s : State) : Res :=
  let fn := cmd.fn
  if ¬ s.takes cmd then .next s
  else if s.turnedAway cmd true then .next (s.turnAway cmd)
  else match (if q = 0 then none else s.sq? fn q) with
    | none => .next (s.complete cmd 1 0x01)
    | some k =>
      if k.ctx.any (· < 64) then .next (s.complete cmd 1 0xD6)
      else
        let mine := s.host.intake.filter fun e => e.cmd.fn == fn && e.cmd.sq == q
        let s1 := mine.foldl (fun t e => t.complete e.cmd 0 0x08) s
        .next (({ s1 with host := { s1.host with sqs := serase s1.host.sqs (qKey fn q) } } : State).succeed cmd)

/-- DELETE_IO_CQ (R114): refused while a submission queue names it (log 22). -/
def execDeleteIoCq (cmd : CmdId) (q : Nat) (s : State) : Res :=
  let fn := cmd.fn
  if ¬ s.takes cmd then .next s
  else if s.turnedAway cmd true then .next (s.turnAway cmd)
  else if q = 0 ∨ (sget? s.host.cqs (qKey fn q)).isNone then .next (s.complete cmd 1 0x01)
  else if s.host.sqs.any fun p => p.1 / 65536 == fn && p.1 % 65536 != 0 && p.2.cq == q then .next (s.complete cmd 1 0x0C)
  else
    .next (({ s with host := { s.host with
      cqs := serase s.host.cqs (qKey fn q)
      cpls := s.host.cpls.filter fun c => s.cqKeyOf c ≠ qKey fn q
      held := s.host.held.filter fun c => s.cqKeyOf c ≠ qKey fn q } } : State).succeed cmd)

/-! ### Abort (R122, R123) -/

/-- An Abort that does not catch its target completes at once. -/
def State.abortMissed (s : State) (cmd : CmdId) : State := (s.fbump front_ABORT_MISSED 0 1).complete cmd 0 0 1

/-- A held command leaves its context's queue: HELD_LIST loses it, and a context with nothing left to start is idle. -/
def State.afterCatch (s : State) (c : Nat) (target : CmdId) : State :=
  match s.ctx? c with
  | none => s
  | some x =>
    let x1 : Ctx := { x with log := { x.log with held := x.log.held.filter fun h => h.1 ≠ target.cid } }
    s.setCtx c (if x.st = .waiting ∧ (s.heldOf c).isEmpty then { x1 with st := .idle } else x1)

/-- ABORT (Table 05-6, R123). DESIGN CHOICE (log 47): one refused with 0x03 is not counted in ABORT_MISSED; the spec does not say. -/
def execAbort (cmd : CmdId) (sqid cid : Nat) (s : State) : Res :=
  let fn := cmd.fn
  let target : CmdId := { fn := fn, sq := sqid, cid := cid }
  if ¬ s.takes cmd then .next s
  else if s.turnedAway cmd true then .next (s.turnAway cmd)
  else if 4 ≤ (s.ctrl fn).aborts.length then .next (s.complete cmd 1 0x03)
  else match s.host.intake.find? fun e => e.cmd == target && !e.done with
    | none => .next (s.abortMissed cmd)
    | some e => match e.kind, e.begun with
      | .admin, _ => .next (s.abortMissed cmd)
      | .compute c, true =>
        match s.ctx? c with
        | none => .next (s.abortMissed cmd)
        | some x =>
          let k := s.ctrl fn
          .next ((s.setCtrl fn { k with aborts := k.aborts ++ [(cmd, target, s.tick)] }).setCtx c { x with abortWait := true })
      | .compute c, false => .next (((s.complete target 0 0x07).afterCatch c target).fbump front_ABORT_CAUGHT 0 1 |>.complete cmd 0 0 0)
      | _, true => .next (s.abortMissed cmd)
      | _, false => .next (((s.complete target 0 0x07).fbump front_ABORT_CAUGHT 0 1).complete cmd 0 0 0)

/-- ABORT_TIMEOUT (R122): 2 ms after the Abort was fetched its task has reached no cheap point and runs on. -/
def execAbortTimeout (cmd : CmdId) (s : State) : Res :=
  let k := s.ctrl cmd.fn
  match k.aborts.find? fun a => a.1 == cmd with
  | none => .next s
  | some a =>
    if s.tick < a.2.2 + ticksMs 2 then .next s
    else
      let rest := k.aborts.filter (· ≠ a)
      let s1 := s.setCtrl cmd.fn { k with aborts := rest }
      let s2 : State := if rest.any fun b => b.2.1 == a.2.1 then s1 else
        { s1 with cp := { s1.cp with ctxs := s1.cp.ctxs.map fun p =>
          (p.1, if p.2.task.any fun t => t.exec.cmd == a.2.1 then { p.2 with abortWait := false } else p.2) } }
      .next (s2.abortMissed cmd)

/-! ### Asynchronous events (R133) -/

/-- ASYNC_EVENT_REQUEST (R133): a kept event is posted at once; else the request waits. Eight may be outstanding. -/
def execAsyncEventRequest (cmd : CmdId) (s : State) : Res :=
  let c := s.ctrl cmd.fn
  if ¬ s.takes cmd then .next s
  else if s.turnedAway cmd false then .next (s.turnAway cmd)
  else if 8 ≤ c.aerReqs.length then .next (s.complete cmd 1 0x05)
  else match c.aerKept with
    | e :: es =>
      let s1 := s.setCtrl cmd.fn { c with aerKept := es, aerSent := e :: c.aerSent }
      .next (s1.complete cmd 0 0 (e.1 + 256 * e.2.1 + 65536 * aerLid e.1 e.2.1) 0)
    | [] => .next ((s.setCtrl cmd.fn { c with aerReqs := c.aerReqs ++ [cmd] }).freeIntake cmd)

/-- ASYNC_EVENT_POST (R133): an event of the standard types arises (1h for a bit of Critical Warning, 2h a notice); the vendor events
arise in the rows that cause them. -/
def execAsyncEventPost (fn type info : Nat) (s : State) : Res :=
  if ¬ s.fnEnabled fn then .next s
  else if type = 1 ∧ info < 8 then .next (s.aerWarn fn info)
  else if type = 2 ∧ info < 3 then .next (s.aer fn 2 info) else .next s

/-! ### Vendor context commands (R129, R130, R164, R165) -/

/-- An admin command that does not complete at once holds its intake slot (R115). -/
def State.holdAdmin (s : State) (cmd : CmdId) : State :=
  if s.host.intake.any fun e => e.cmd == cmd then s
  else { s with host := { s.host with
    intake := s.host.intake ++ [{ cmd := cmd, kind := .admin, begun := true, exec := none, op := none, tick := s.tick }] } }

/-- RESUME_CONTEXT (R164, R166): its request at crossing point 1 is served; one that finds a teardown of the context in progress completes with
Invalid Context. -/
def execResumeContext (cmd : CmdId) (c : Nat) (discard : Bool) (s : State) : Res :=
  if ¬ s.takes cmd then .next s
  else if s.turnedAway cmd true then .next (s.turnAway cmd)
  else match s.ctx? c with
    | none => .next (s.complete cmd 1 0xC0)
    | some x =>
      if 64 ≤ c ∨ x.req.fn ≠ cmd.fn ∨ x.st = .tearingDown then .next (s.complete cmd 1 0xC0)
      else if x.st ≠ .frozen then .next (s.complete cmd 1 0xC1)
      else if ¬ x.logRead then .next (s.complete cmd 1 0xC3)
      else if x.severity = 2 then .next (s.complete cmd 1 0xC7)
      else
        let s0 := s.serveIntake c x
        let s1 := if discard then (s0.heldOf c).foldl (fun t e => t.complete e.cmd 0 0x07) s0 else s0
        let x1 : Ctx := { x with
          st := if (s1.heldOf c).isEmpty then .idle else .waiting
          waitSince := s.tick, severity := 0, resumed := true, log := { x.log with state := 0 } }
        .next ((s1.setCtx c x1).succeed cmd)

/-- TEAR_DOWN_CONTEXT (R129, R165): the teardown begins; it ends, and the command completes, at the next tick. A second one meanwhile completes with
Context Busy. -/
def execTearDownContext (cmd : CmdId) (c : Nat) (s : State) : Res :=
  if ¬ s.takes cmd then .next s
  else if s.turnedAway cmd true then .next (s.turnAway cmd)
  else match s.ctx? c with
    | none => .next (s.complete cmd 1 0xC0)
    | some x =>
      if 64 ≤ c ∨ x.req.fn ≠ cmd.fn then .next (s.complete cmd 1 0xC0)
      else if x.st = .tearingDown then .next (s.complete cmd 1 0xC2)
      else
        let s1 := (s.holdAdmin cmd).startTear c
        match s1.ctx? c with
        | some y => .next (s1.setCtx c { y with tearCmds := y.tearCmds ++ [cmd] })
        | none => .next s1

/-- TIME_QUERY (R130, Table 05-11): one coherent read at crossing point 5, as its host Time Query party. -/
def execTimeQuery (cmd : CmdId) (s : State) : Res :=
  if ¬ s.takes cmd then .next s
  else if s.turnedAway cmd false then .next (s.turnAway cmd)
  else
    let d := dtcBytes s.time.dtc ++ natLE s.tick 8 ++ natLE (s.fget glob_TIME_SOURCE 0) 1 ++ natLE (s.fget time_LOCKED 0) 1 ++
      natLE 0 2 ++ natLE s.errorBound 8
    .next ((s.serve 5 0 5).succeed cmd 0 d)

/-- ADMIN_UNSUPPORTED (R112): an opcode outside Table 05-4, or not allowed on the function. -/
def execAdminUnsupported (cmd : CmdId) (s : State) : Res :=
  if ¬ s.takes cmd then .next s else .next (s.complete cmd 0 0x01)

/-! ### Compute commands (R144 to R146) -/

/-- A command of a compute queue enters, or is already in, its context's intake, with what it carries. -/
def State.holdCompute (s : State) (cmd : CmdId) (c : Nat) (e : Option ExecCmd) (o : Option QueueOp) : State :=
  let i : Intake := { cmd := cmd, kind := .compute c, begun := false, exec := e, op := o, tick := s.tick }
  let l := if s.host.intake.any fun k => k.cmd == cmd then
      s.host.intake.map fun (k : Intake) => if k.cmd = cmd then { i with tick := k.tick } else k
    else s.host.intake ++ [i]
  { s with host := { s.host with intake := l } }

/-- A context with a command to start waits for its load; a home that was kept loaded is given up (R284). -/
def State.nowWaits (s : State) (c : Nat) (x : Ctx) : State :=
  if x.st = .idle ∨ x.st = .idleLoaded then
    (if x.st = .idleLoaded then s.releaseHome x.req else s).setCtx c { x with st := .waiting, waitSince := s.tick }
  else s

/-- A compute command that runs no descriptors: at once where nothing is ahead of it, else it is held (R144). -/
def State.queueOp (s : State) (cmd : CmdId) (c : Nat) (x : Ctx) (o : QueueOp) : State :=
  let s1 := s.holdCompute cmd c none (some o)
  let ahead := (s1.heldOf c).takeWhile fun e => e.cmd ≠ cmd
  if (x.st = .idle ∨ x.st = .idleLoaded) ∧ ahead.isEmpty then
    match s1.host.intake.find? fun e => e.cmd == cmd with
    | some i => s1.runHeld c x i o
    | none => s1
  else s1.nowWaits c x

/-- The checks on every command of a compute queue (R115, R144, R145): a queue that is bound, its context, and a free slot. A command that the
queue does not take (`bad`: another command set's opcode, a reserved field, or an NSID other than 1) is held like the others, and completes
with its status in its turn. -/
def State.onCompute (s : State) (cmd : CmdId) (nsid : Nat) (bad : Option (Nat × Nat)) (f : Nat → Ctx → State) : Res :=
  let plain := plainId cmd
  match (if s.takes cmd then s.sq? cmd.fn cmd.sq else none) with
  | none => .next s
  | some q => match q.ctx with
    | none => .next (s.complete plain 0 0x01)
    | some c => match s.ctx? c with
      | none => .next (s.complete plain 1 0xC0)
      | some x =>
        if 256 ≤ s.ctxSlots c ∧ ¬ s.host.intake.any (fun k => k.cmd == plain) then .next s
        else match (if bad.isSome then bad else if cmd.rsvd then some (0, 0x02) else if nsid ≠ 1 then some (0, 0x0B) else none) with
          | some e => .next (s.queueOp plain c x (.invalid e.1 e.2))
          | none => .next (f c x)

/-- EXECUTE_PROGRAM (R146): the command enters intake and waits for its context's task-register load. CDW10 holds the slot in [7:0] and the range set
in [31:16], CDW11 the argument length in [12:0], CDW12 TIME_LIMIT; `cdw13` is CDW13 to CDW15, reserved; `dptr` lists the segments of host memory that the data pointer names, as
(address, bytes). A reserved bit that is set is Invalid Field (R134). -/
def execExecuteProgram (cmd : CmdId) (nsid cdw10 cdw11 limit cdw13 : Nat) (dptr : List (Nat × Nat)) (s : State) : Res :=
  let bad := if bits cdw10 8 8 ≠ 0 ∨ cdw11 / 8192 ≠ 0 ∨ cdw13 ≠ 0 then some (0, 0x02) else none
  s.onCompute cmd nsid bad fun c x =>
    let e : ExecCmd := { cmd := cmd, slot := cdw10 % 256, timeLimit := limit, argLen := cdw11 % 8192, dptr := dptr, mrs := cdw10 / 65536 % 65536,
                         arg := [] }
    (s.holdCompute cmd c (some e) none).nowWaits c x

/-- LOAD_PROGRAM (R140). -/
def execLoadProgram (cmd : CmdId) (nsid slot off : Nat) (data : List Byte) (s : State) : Res :=
  s.onCompute cmd nsid none fun c x => s.queueOp cmd c x (.load (slot % 256) off data)

/-- PROGRAM_ACTIVATION_MANAGEMENT (R141). -/
def execProgramActivationManagement (cmd : CmdId) (nsid slot : Nat) (on : Bool) (s : State) : Res :=
  s.onCompute cmd nsid none fun c x => s.queueOp cmd c x (.activation (slot % 256) on)

/-- MEMORY_RANGE_SET_MANAGEMENT (R142). -/
def execMemoryRangeSetManagement (cmd : CmdId) (nsid set : Nat) (rs : List (Nat × Nat × Nat)) (s : State) : Res :=
  s.onCompute cmd nsid none fun c x => s.queueOp cmd c x (.ranges set rs)

/-! ### Power states (R86, R87, R127, R128) -/

/-- A power state is requested. An operational one takes effect through the ramp to its ceiling; a non-operational one once
nothing is outstanding. -/
def State.requestPs (s : State) (ps : Nat) : State :=
  if ps < 3 then
    let s1 : State := ({ s with host := { s.host with psLast := ps, psTarget := none } } : State).driveOp
    if s1.power.rampTo.isSome then s1.fset glob_PS_IN_TRANSITION 0 1
    else (s1.setPs ps).fset glob_PS_IN_TRANSITION 0 0
  else ({ s with host := { s.host with psTarget := some ps } } : State).fset glob_PS_IN_TRANSITION 0 1

/-- SET_FEATURES_POWER_MANAGEMENT (R128). -/
def execSetFeaturesPowerManagement (cmd : CmdId) (ps : Nat) (s : State) : Res :=
  if ¬ s.takes cmd then .next s
  else if s.turnedAway cmd true then .next (s.turnAway cmd)
  else if 4 < ps then .next (s.complete cmd 0 0x02)
  else .next ((s.requestPs ps).succeed cmd)

/-- No command is outstanding on any queue and no task runs (R87); requests for events stay outstanding. -/
def State.nothingOutstanding (s : State) : Bool :=
  s.host.intake.isEmpty && s.host.sqs.all (fun p => !p.2.waits) && s.host.ctrls.all (fun p => p.2.aborts.isEmpty) &&
  s.cp.ctxs.all fun p => p.2.task.isNone

/-- APST_IDLE_EXPIRY (R128): with APST enabled the idle time of the state in force has passed since the last completion; PS4 follows from an
operational state or from PS3. An entry of the table holds the state in [7:3] and the time in ms in [31:8]. DESIGN CHOICE (log 47): the enable and
the table are function 0's; the spec does not say whose count when several functions set them. -/
def execApstIdleExpiry (s : State) : Res :=
  let now := s.fget glob_PS_EFFECTIVE 0
  let e := s.featureOr 0 (0xC00 + now) 0
  let ps := e / 8 % 32
  let ms := e / 256 % 2 ^ 24
  let rests : Bool := (s.operational && s.host.psTarget.isNone) || (now == 3 && !s.host.psEntering && !s.host.psExiting)
  if s.featureOr 0 0x0C 0 = 1 ∧ ms ≠ 0 ∧ (ps = 3 ∨ ps = 4) ∧ now < ps ∧ rests ∧ s.nothingOutstanding ∧
      s.host.idleSince + ticksMs ms ≤ s.tick then .next (s.requestPs ps)
  else .next s

/-- PS_ENTRY_START (R87): entry begins, from an operational state or from PS3 to PS4; an armed LOCKSTEP run ends (Table 04-4). -/
def execPsEntryStart (s : State) : Res :=
  match s.host.psTarget with
  | none => .next s
  | some p =>
    if s.host.psEntering ∨ s.host.psExiting ∨ p ≤ s.fget glob_PS_EFFECTIVE 0 ∨ ¬ s.nothingOutstanding then .next s
    else
      let s1 := (s.fset glob_PS_IN_TRANSITION 0 1).fset glob_ARMED 0 0
      .next { s1 with host := { s1.host with psEntering := true }, arb := { s1.arb with armAt := none } }

/-- HBM self-refresh shown by every controller page. -/
def State.selfRefresh (s : State) (on : Bool) : State := (List.range 8).foldl (fun t i => t.fset hbm_SELF_REFRESH i (b2n on)) s

/-- What PS4 loses: T1 heat, Whisk tables, the Colanders' key, table and filter slots, and what the Griddles and Drains hold; the Hob array, SRAM and
Colander domains, and the Ethernet port that is not active, are off (R193, R223, R336, Tables 04-4, 09-12, 10-9, 13-15, 20-10). Shared buffers are copied to HBM and restored. -/
def State.enterPs4 (s : State) : State :=
  let s1 : State := { s with
    tiers := { s.tiers with heat1 := [] }
    units := { s.units with whisks := [], regions := [] }
    ftl := { s.ftl with keysLoaded := [] }
    near := { s.near with fslots := [], tslots := [] } }
  (s1.powerDown [2, 3, 4, 5, 6]).powerPorts

/-- PS_ENTRY_COMPLETE (R86): not while a sanitize runs (R82). The journal is flushed; a command accepted during the entry starts
the exit. -/
def execPsEntryComplete (s : State) : Res :=
  match s.host.psTarget with
  | none => .next s
  | some p =>
    if ¬ s.host.psEntering ∨ (s.fget glob_MEDIA_MODE 0 = 2 ∧ s.fget glob_MEDIA_CAUSE 0 = 4) then .next s
    else
      let s1 := (((s.flush).setPs p).fbump front_PS_ENTRY_COUNT 0 1).selfRefresh true
      let s2 := if p = 4 then s1.enterPs4 else s1
      let s3 : State := { s2.fset glob_PS_IN_TRANSITION 0 0 with host := { s2.host with psEntering := false, psWake := false } }
      .next (if s2.host.psWake then s3.beginExit else s3)

/-- PS_EXIT_COMPLETE (R127, R128): the last operational state is in force again, and APST counts afresh. The Griddles' self-checks have ended. -/
def execPsExitComplete (s : State) : Res :=
  if ¬ s.host.psExiting ∨ (List.range 34).any (fun i => s.fget (hdr_STATE 0x11) i == 1) then .next s
  else
    let s2 := ((s.setPs s.host.psLast).fset glob_PS_IN_TRANSITION 0 0).selfRefresh false
    .next ({ s2 with host := { s2.host with psExiting := false, psTarget := none, idleSince := s2.tick } } : State).driveOp

end Sys2Proof.Machine
end

