-- ==== Sys2Proof/Machine/Nvm.lean ====
section
/-!
DEFINITION. NVM and SLM commands, namespaces, Format and Sanitize, Opal locking, collection descriptors
(05_host_interface.md, R104 to R126; 13_colander_near_flash.md, R338; 16_flash_translation.md, R436 to R458).
-/

namespace Sys2Proof.Machine

/-! ### Checks (R106, R109, R134) -/

/-- The status of a command that SANITIZING refuses (R91, R126). -/
def State.sanitizeStatus (s : State) : Nat := if s.fget glob_MEDIA_CAUSE 0 = 5 then 0x1C else 0x1D

/-- A namespace of a kind, attached to a function. -/
def State.attachedNs (s : State) (fn ns : Nat) (k : NsKind) : Option Namespace :=
  (sget? s.host.namespaces ns).filter fun n => n.kind == k && n.attached.contains fn

/-- Bytes of a namespace. -/
def Namespace.bytes (n : Namespace) : Nat := n.units * 2 ^ 21

/-- A namespace of another kind is attached to a function under an identifier, the compute namespace among them: the opcode is not one that it takes
(R113, R134). -/
def State.otherKind (s : State) (fn ns : Nat) (k : NsKind) : Bool :=
  ns == 1 || (sget? s.host.namespaces ns).any fun n => n.kind != k && n.attached.contains fn

/-- The status with which a command to a namespace is refused before it touches data. -/
def State.nsRefuse (s : State) (fn ns : Nat) (k : NsKind) : Option (Nat × Nat) :=
  if s.otherKind fn ns k then some (0, 0x01)
  else if s.sanitizing then some (0, s.sanitizeStatus)
  else if ¬ s.ftl.ready then some (0, 0x82)
  else if (s.attachedNs fn ns k).isNone then some (0, 0x0B)
  else none

/-- The bytes of a block range: offset and length; none beyond the namespace (status of the base command set, log 22). -/
def State.blockRange (s : State) (ns slba n : Nat) : Option (Nat × Nat) :=
  match sget? s.host.namespaces ns with
  | some x =>
    let b := lbaBytes x.lbaf
    if (slba + n) * b ≤ x.bytes then some (slba * b, n * b) else none
  | none => none

/-- The newest Error Information entry names a block (R445). -/
def State.nameLba (s : State) (fn ns iu : Nat) : State :=
  let b := match sget? s.host.namespaces ns with
    | some x => lbaBytes x.lbaf
    | none => 4096
  let c := s.ctrl fn
  match c.errors with
  | e :: es => s.setCtrl fn { c with errors := { e with lba := iuNum iu * 16384 / b, ns := ns } :: es }
  | [] => s

/-- A host command meets an IU that cannot be read: Unrecovered Read Error, with the IU's first block (R413, R445, R476). -/
def State.readFails (s : State) (cmd : CmdId) (ns iu : Nat) : State :=
  ((s.complete cmd 2 0x81).nameLba cmd.fn ns iu).smartAdd 0 1

/-- A host command enters intake, where it is not there already (R115). -/
def State.holdHost (s : State) (cmd : CmdId) (kind : IntakeKind) : State :=
  if s.host.intake.any fun e => e.cmd == cmd then s
  else { s with host := { s.host with
    intake := s.host.intake ++ [{ cmd := cmd, kind := kind, begun := false, exec := none, op := none }] } }

/-- A write waits for staging slots, without error (R436); it is counted once. -/
def State.waitSlots (s : State) (cmd : CmdId) : State :=
  let s1 := s.holdHost cmd .nvm
  if s1.host.intake.any fun e => e.cmd == cmd && e.waited then s1
  else ({ s1 with host := { s1.host with
    intake := s1.host.intake.map fun (e : Intake) => if e.cmd = cmd then { e with waited := true } else e } } : State).fbump
      ftl_STAGING_WAITS 0 1

/-- Staging takes `k` more IUs of a range: slots are free, and no package it lands on has 4 free superblocks or fewer (R436,
R448). -/
def State.canStage (s : State) (ns off n k : Nat) : Bool :=
  k == 0 || (s.slotsFree k && s.aboveFloor (iusOf ns off n))

/-! ### NVM commands (R113, R124, R125, R436 to R445) -/

/-- The gate of every NVM and SLM command: on a compute queue it is a command of another command set, Invalid Command Opcode in its turn (R144). -/
def State.onNs (s : State) (cmd : CmdId) (r : Res) : Res :=
  if s.computeQueue cmd then s.onCompute cmd 1 (some (0, 0x01)) fun _ _ => s
  else if ¬ s.takes cmd then .next s
  else if s.turnedAway cmd false then .next (s.turnAway cmd)
  else r

/-- The checks of an NVM command on a block range, then its work at the bytes. -/
def State.onRange (s : State) (cmd : CmdId) (ns slba nlb : Nat) (write : Bool) (limit : Bool) (f : Nat → Nat → State) : Res :=
  s.onNs cmd <|
  match s.nsRefuse cmd.fn ns .nvm with
    | some k => .next (s.complete cmd k.1 k.2)
    | none => match s.blockRange ns slba nlb with
      | none => .next (s.complete cmd 0 0x80)
      | some (off, n) =>
        if limit ∧ 2 ^ 21 < n then .next (s.complete cmd 0 0x02)
        else if write ∧ s.fget glob_MEDIA_MODE 0 = 1 then .next (s.complete cmd 0 0x20)
        else if s.rangeLocked ns off n write then .next (s.complete cmd 2 0x86)
        else .next (f off n)

/-- Flash reads of a host command: page reads, copies and B_nand, all background work (R26, R28, R259). -/
def State.hostReads (s : State) (ns off n : Nat) : State :=
  let ius := iusOf ns off n
  (s.countReads ius (List.range 8)).work 64 16 (s.flashBytes ius)

/-- The first IU of a range whose read fails. -/
def State.badIu (s : State) (ns off n : Nat) : Option Nat := (iusOf ns off n).find? fun iu => s.iuFails iu

/-- NVM_READ (R113, R444, R445): `lr` is Limited Retry, `hard` says that some page decodes only past step 4 of the ladder (R412). -/
def execNvmRead (cmd : CmdId) (ns slba nlb : Nat) (lr hard : Bool) (s : State) : Res :=
  s.onRange cmd ns slba nlb false true fun off n =>
    match s.badIu ns off n with
    | some iu => s.readFails cmd ns iu
    | none =>
      if lr ∧ hard then s.readFails cmd ns (iuKey ns (off / 16384))
      else
        let s1 := ((s.hostReads ns off n).heatT2 ns off n 0).smartAdd 1 n
        (s1.smartAdd 3 1).succeed cmd 0 (s.nvmRead ns off n)

/-- IUs that a range covers only in part. -/
def State.badPart (s : State) (ns off n : Nat) : Option Nat := (partialIus ns off n).find? fun iu => s.iuFails iu

/-- NVM_WRITE (R436 to R438): staging slots for the whole write, then the data, then the acknowledgement. A partial IU that
cannot be read is not merged: the command fails and leaves no trace (log 23). -/
def execNvmWrite (cmd : CmdId) (ns slba : Nat) (data : List Byte) (s : State) : Res :=
  let b := match sget? s.host.namespaces ns with
    | some x => lbaBytes x.lbaf
    | none => 4096
  s.onRange cmd ns slba (ceilDiv data.length b) true true fun off n =>
    match s.badPart ns off n with
    | some iu => s.readFails cmd ns iu
    | none =>
      if ¬ s.canStage ns off n (iusOf ns off n).length then s.waitSlots cmd
      else
        let bs := data ++ List.replicate (n - data.length) 0
        let s1 := ((s.copiesOnWrite (iusOf ns off n)).nvmWrite ns off bs false).pcie 64 n
        ((s1.smartAdd 2 n).smartAdd 4 1).succeed cmd

/-- NVM_FLUSH (R125): every completed write is power-loss safe. -/
def execNvmFlush (cmd : CmdId) (ns : Nat) (s : State) : Res :=
  s.onNs cmd <|
  match s.nsRefuse cmd.fn ns .nvm with
    | some k => .next (s.complete cmd k.1 k.2)
    | none => .next (s.succeed cmd)

/-- A range deallocated, with its forced flush (R440, R444). -/
def State.clearRange (s : State) (ns off n : Nat) : State := ((s.dropCopiesOf (iusOf ns off n)).deallocate ns off n).flush

/-- NVM_WRITE_ZEROES (R444): as Deallocate. -/
def execNvmWriteZeroes (cmd : CmdId) (ns slba nlb : Nat) (s : State) : Res :=
  s.onRange cmd ns slba nlb true false fun off n =>
    match s.badPart ns off n with
    | some iu => s.readFails cmd ns iu
    | none =>
      if ¬ s.canStage ns off n (partialIus ns off n).length then s.waitSlots cmd
      else (s.clearRange ns off n).succeed cmd

/-- DATASET_MANAGEMENT_DEALLOCATE (R113, R444): `ad` is the Deallocate attribute; the ranges as (first block, blocks). -/
def execDatasetManagementDeallocate (cmd : CmdId) (ns : Nat) (ad : Bool) (rs : List (Nat × Nat)) (s : State) : Res :=
  s.onNs cmd <|
  match s.nsRefuse cmd.fn ns .nvm with
    | some k => .next (s.complete cmd k.1 k.2)
    | none =>
      let l := rs.filterMap fun r => s.blockRange ns r.1 r.2
      let s0 := s.pcie 64 (16 * rs.length)
      if ¬ ad then .next (s0.succeed cmd)
      else if l.length ≠ rs.length then .next (s.complete cmd 0 0x80)
      else if s.fget glob_MEDIA_MODE 0 = 1 then .next (s.complete cmd 0 0x20)
      else if l.any fun r => s.rangeLocked ns r.1 r.2 true then .next (s.complete cmd 2 0x86)
      else match l.findSome? fun r => s.badPart ns r.1 r.2 with
        | some iu => .next (s.readFails cmd ns iu)
        | none =>
          if l.any fun r => !s.canStage ns r.1 r.2 (l.map fun q => (partialIus ns q.1 q.2).length).sum then .next (s.waitSlots cmd)
          else .next ((l.foldl (fun t r => t.clearRange ns r.1 r.2) s0).succeed cmd)

/-- NVM_COMPARE (R113): the range against the host's data; Compare Failure (2h, 0x85) where they differ (log 22). -/
def execNvmCompare (cmd : CmdId) (ns slba : Nat) (data : List Byte) (lr hard : Bool) (s : State) : Res :=
  let b := match sget? s.host.namespaces ns with
    | some x => lbaBytes x.lbaf
    | none => 4096
  s.onRange cmd ns slba (ceilDiv data.length b) false true fun off n =>
    match s.badIu ns off n with
    | some iu => s.readFails cmd ns iu
    | none =>
      if lr ∧ hard then s.readFails cmd ns (iuKey ns (off / 16384))
      else
        let s1 := ((s.hostReads ns off n).pcie 64 n).smartAdd 3 1
        if s.nvmRead ns off n = data ++ List.replicate (n - data.length) 0 then s1.succeed cmd else s1.complete cmd 2 0x85

/-- NVM_VERIFY (R113): the range is read and not returned; Limited Retry as for a read. -/
def execNvmVerify (cmd : CmdId) (ns slba nlb : Nat) (s : State) (lr hard : Bool := false) : Res :=
  s.onRange cmd ns slba nlb false false fun off n =>
    match s.badIu ns off n with
    | some iu => s.readFails cmd ns iu
    | none => if lr ∧ hard then s.readFails cmd ns (iuKey ns (off / 16384)) else (s.hostReads ns off n).succeed cmd

/-! ### SLM commands (R110, R113) -/

/-- The checks of an SLM command, then its work; a range beyond the namespace is Invalid Field (log 22). -/
def State.onSlm (s : State) (cmd : CmdId) (ns off n : Nat) (f : State) : Res :=
  s.onNs cmd <|
  match s.nsRefuse cmd.fn ns .slm with
    | some k => .next (s.complete cmd k.1 k.2)
    | none =>
      match sget? s.host.namespaces ns with
      | some x => if x.bytes < off + n ∨ 2 ^ 21 < n then .next (s.complete cmd 0 0x02) else .next f
      | none => .next s

/-- The pieces of an SLM range, one for each tier page, as (HBM address, bytes). -/
def State.slmPieces (s : State) (ns off n : Nat) : List (Nat × Nat) :=
  if n = 0 then [] else (List.range ((off + n - 1) / tierBytes - off / tierBytes + 1)).filterMap fun k =>
    let lo := max off ((off / tierBytes + k) * tierBytes)
    let hi := min (off + n) ((off / tierBytes + k + 1) * tierBytes)
    (s.slmAddr ns lo).map fun a => (a, hi - lo)

/-- Pieces of HBM that a host read or save area reaches and cannot read: a retired pseudo-channel, or an injected error (R72, R256); the error as the
controller reports it. A sector whose one bit is injected is corrected. -/
def State.piecesRead (s : State) (ps : List (Nat × Nat)) : Bool × State :=
  ps.foldl (fun (a : Bool × State) p =>
    let k := p.1 / 2 ^ 36
    let info := hbmInfo (p.1 % 2 ^ 36)
    match a.2.armed 0x16 k [3, 8] with
    | some b => (false, a.2.err 0x16 k (if b = 3 then [3] else [3, 8]) info 0xFF true)
    | none =>
      if a.2.hitsRetired p.1 p.2 then (false, a.2.err 0x16 k [3] info)
      else (a.1, if a.2.injectLeft 0x16 k 2 = 0 then a.2 else a.2.err 0x16 k [2] info)) (true, s)

/-- SLM_READ (R113); a range that cannot be read completes with Unrecovered Read Error (Table 10-4). -/
def execSlmRead (cmd : CmdId) (ns off n : Nat) (s : State) : Res :=
  let ps := s.slmPieces ns off n
  let r := s.piecesRead ps
  let s1 := ps.foldl (fun t p => t.heatT1 p.1 p.2) r.2
  s.onSlm cmd ns off n (if r.1 then s1.succeed cmd 0 (ps.flatMap fun p => s.tiers.hbm.readN p.1 p.2) else s1.complete cmd 2 0x81)

/-- Bytes written to consecutive pieces. -/
def State.writePieces (s : State) : List (Nat × Nat) → List Byte → State
  | [], _ => s
  | p :: ps, bs => (((s.hbmWrite p.1 (bs.take p.2)).heatT1 p.1 p.2).writePieces ps (bs.drop p.2))

/-- SLM_WRITE (R113). -/
def execSlmWrite (cmd : CmdId) (ns off : Nat) (data : List Byte) (s : State) : Res :=
  s.onSlm cmd ns off data.length (((s.writePieces (s.slmPieces ns off data.length) data).pcie 64 data.length).succeed cmd)

/-! ### Running work on a namespace (R91, R100, R456) -/

/-- An address of the NVM kind lies in namespace `ns`. -/
def inNs (ns a : Nat) : Bool := a / 2 ^ 48 % 256 == ns

/-- A move of NVM kind reads or writes a namespace. -/
def Move.usesNs (ns : Nat) (m : Move) : Bool :=
  m.job.isNone && ((rcSrcKind m.record == 4 && m.records.any fun r => inNs ns r.2.1) ||
    (rcDstKind m.record == 4 && m.records.any fun r => inNs ns r.2.2))

/-- An issued entry of a channel that reads or writes T2 or SLM. -/
def Move.usesMedia (m : Move) : Bool :=
  if m.job.isSome then
    rqKind m.record == 2 || rqKind m.record == 4 || descClass m.word != 0x22 || smReads m.word
  else [2, 4, 5].contains (rcSrcKind m.record) || [2, 4].contains (rcDstKind m.record)

/-- A step of a PUU with state in an NVM namespace. -/
def PuuStep.usesMedia (k : PuuStep) : Bool := (tabEntries k.table).any fun e => teState e == 4

/-- The first issued entry of each context that satisfies `p` faults it. -/
def State.faultMoves (s : State) (run : Bool) (p : Move → Bool) (code case : Nat) : State :=
  let l := if run then s.units.chans.flatMap fun c => c.2.run.toList else s.moves
  (List.range 64).foldl (fun t c => match l.find? fun m => m.ctx == c && p m with
    | some m => t.faultCtx c { code := code, index := m.index, case := case, hob := m.hob, ucls := 0x12, uinst := 64 * m.hob + mvChan m.word }
    | none => t) s

/-- Steps of the PUUs that satisfy `p` fault their contexts. -/
def State.faultSteps (s : State) (p : PuuStep → Bool) (code case : Nat) : State :=
  s.units.puu.foldl (fun t u => match u.2.find? p with
    | some k => t.faultCtx k.ctx { code := code, index := k.index, case := case, hob := u.1, ucls := 0x18, uinst := u.1 }
    | none => t) s

/-! ### Namespaces (R108 to R111, R431) -/

/-- Tier pages of `n` units under placement set `p` whose home lies in the half of Hob `h`. -/
def halfPages (v : Variant) (p n h : Nat) : Nat :=
  let l := placementSet v p
  let k := (l.filter fun c => c / 32 == h).length
  n / l.length * k + ((l.take (n % l.length)).filter fun c => c / 32 == h).length

/-- The capacity limits of R109 and R431 hold with one more NVM namespace. -/
def State.roomFor (s : State) (p n : Nat) : Bool :=
  let l := s.host.namespaces.filter fun x => x.2.kind == .nvm
  let u := userPages s.variant
  decide ((l.map fun x => x.2.units).sum + n ≤ u) &&
  (List.range 2).all fun h => decide ((l.map fun x => halfPages s.variant x.2.pset x.2.units h).sum + halfPages s.variant p n h ≤ u / 2)

/-- The stack of each page of an SLM namespace of `n` pages: they are striped over the usable stacks (R252). -/
def State.stripe (s : State) (n : Nat) : List Nat :=
  let l := (List.range 8).filter fun k => !s.stackRetired k
  (List.range n).map fun i => l.getD (i % l.length) 8

/-- A namespace attribute notice to the functions it concerns, and their changed lists (R131, R133). -/
def State.nsChanged (s : State) (fns : List Nat) (ns : Nat) : State :=
  fns.foldl (fun t f =>
    let c := t.ctrl f
    (t.setCtrl f { c with changed := if c.changed.contains ns then c.changed else c.changed ++ [ns] }).aer f 2 0) s

/-- The lowest unused identifier of a kind. -/
def State.freeNsid (s : State) (k : NsKind) : Option Nat :=
  ((if k = .nvm then (List.range 64).map (· + 2) else (List.range 16).map (· + 66)).find? fun n => (sget? s.host.namespaces n).isNone)

/-- `s` with a namespace. -/
def State.putNs (s : State) (ns : Nat) (n : Namespace) : State := { s with host := { s.host with namespaces := sput s.host.namespaces ns n } }

/-- A namespace created: `kind` 0 NVM, 1 SLM; size in bytes; LBA format; byte 3,840. A namespace of no bytes is Invalid Field and one beyond
the identifiers is Namespace Identifier Unavailable (log 22). -/
def State.createNs (s : State) (cmd : CmdId) (slm : Bool) (size lbaf pset : Nat) : State :=
  let n := size / 2 ^ 21
  let mk (ns : Nat) (ps : List Nat) (t : State) : State :=
    let x : Namespace := { kind := if slm then .slm else .nvm, units := n, lbaf := lbaf, pset := pset, attached := [], pages := ps,
                           rdLocked := false, wrLocked := false }
    ((t.putNs ns x).flush).succeed cmd ns
  if size = 0 then s.complete cmd 0 0x02
  else match s.freeNsid (if slm then .slm else .nvm) with
    | none => s.complete cmd 1 0x16
    | some ns =>
      if slm then
        if s.cp.ctxs ≠ [] then s.complete cmd 0 0x0C
        else if size % 2 ^ 21 ≠ 0 ∨ 49152 < s.slmPages.length + n then s.complete cmd 1 0x15
        else match takeAll [] ((s.stripe n).map fun k => (0, k, 1)) s with
          | none => s.complete cmd 1 0x15
          | some (ps, t) => mk ns (ps.map Prod.snd) t
      else if 1 < lbaf then s.complete cmd 0 0x0B
      else if 2 < pset then s.complete cmd 0 0x02
      else if size % 2 ^ 21 ≠ 0 ∨ ¬ s.roomFor pset n then s.complete cmd 1 0x15
      else mk ns [] s

/-- Collections on a namespace become invalid (R338, R456). -/
def State.spoilColls (s : State) (ns : Nat) : State :=
  { s with near := { s.near with collections := s.near.collections.map fun p =>
    (p.1, if clNsid p.2.bytes = ns then { p.2 with valid := false } else p.2) } }

/-- Placement copies of a namespace dropped (R260). -/
def State.dropNsCopies (s : State) (ns : Nat) : State := s.dropCopies fun tk => tk / 2 ^ 32 == ns

/-- A key slot cleared in every Colander (R336). -/
def State.clearKey (s : State) (slot : Nat) : State :=
  { s with ftl := { s.ftl with keysLoaded := s.ftl.keysLoaded.filter fun k => k % 128 ≠ slot } }

/-- A new media key: its generation rises, and the old one is gone from eFlash and from every Colander (R454, R457). -/
def State.newKey (s : State) (slot : Nat) : State :=
  let s1 := s.clearKey slot
  { s1 with ftl := { s1.ftl with keyGen := sput s1.ftl.keyGen slot (sget s1.ftl.keyGen slot 0 + 1) } }

/-- Key slots of a namespace: its Global Range and its non-global ranges (R457). -/
def State.keySlots (s : State) (ns : Nat) : List Nat :=
  (ns - 2) :: ((s.ftl.ranges.filter fun p => p.2.ns == ns).map fun p => 64 + p.1)

/-- An NVM namespace deleted: unmapped, its domains and ranges ended, its copies dropped, work on it stopped. -/
def State.deleteNs (s : State) (ns : Nat) : State :=
  match sget? s.host.namespaces ns with
  | none => s
  | some n =>
    let gone (t : State) : State := ({ t with host := { t.host with namespaces := serase t.host.namespaces ns } } : State).nsChanged n.attached ns
    if n.kind = .slm then gone s
    else
      let s1 := (s.keySlots ns).foldl (fun t k => t.clearKey k) (((s.faultMoves false (Move.usesNs ns) 0x46 0).dropNsCopies ns).unmapNs ns)
      let s2 : State := { s1 with
        ftl := { s1.ftl with
          ranges := s1.ftl.ranges.filter fun p => p.2.ns ≠ ns
          moved := sdropRange s1.ftl.moved (ns * 2 ^ 32) ((ns + 1) * 2 ^ 32) }
        tiers := { s1.tiers with
          heat2 := sdropRange s1.tiers.heat2 (ns * 2 ^ 32) ((ns + 1) * 2 ^ 32)
          hint := sdropRange s1.tiers.hint (ns * 2 ^ 32) ((ns + 1) * 2 ^ 32) } }
      gone (s2.spoilColls ns)

/-- The gate of an admin command that changes namespaces: the physical function, and no sanitize (R91, R112); before the map is rebuilt it is served
(R106). -/
def State.onAdmin (s : State) (cmd : CmdId) (f : State) : Res :=
  if ¬ s.takes cmd then .next s
  else if cmd.fn ≠ 0 then .next (s.complete cmd 0 0x01)
  else if s.turnedAway cmd false then .next (s.turnAway cmd)
  else if s.sanitizing then .next (s.complete cmd 0 s.sanitizeStatus)
  else .next f

/-- NAMESPACE_MANAGEMENT (R109, R110, R431): a create, or a delete of one namespace or (0xFFFFFFFF) of all. The compute namespace
cannot be deleted. -/
def execNamespaceManagement (cmd : CmdId) (create slm : Bool) (nsid size lbaf pset : Nat) (s : State) : Res :=
  s.onAdmin cmd (
    if create then (s.pcie 64 4096).createNs cmd slm size lbaf pset
    else
      let l := if nsid = 0xFFFFFFFF then s.host.namespaces.map Prod.fst else [nsid]
      if nsid ≠ 0xFFFFFFFF ∧ (sget? s.host.namespaces nsid).isNone then s.complete cmd 0 0x0B
      else if s.cp.ctxs ≠ [] ∧ l.any (66 ≤ ·) then s.complete cmd 0 0x0C
      else ((l.foldl (fun t n => t.deleteNs n) s).flush).succeed cmd)

/-- NAMESPACE_ATTACHMENT (R111): attaches or detaches a namespace at the functions listed. A namespace with no controller left loses
its copies (R260). Statuses of the controller list are those of the base command set (log 22). -/
def execNamespaceAttachment (cmd : CmdId) (nsid : Nat) (attach : Bool) (fns : List Nat) (s : State) : Res :=
  s.onAdmin cmd (
    match sget? s.host.namespaces nsid with
    | none => if nsid = 1 then s.complete cmd 1 (if attach then 0x18 else 0x19) else s.complete cmd 0 0x0B
    | some n =>
      if fns.isEmpty ∨ fns.any (fun f => !s.fnEnabled f) then s.complete cmd 1 0x1C
      else if attach ∧ fns.any n.attached.contains then s.complete cmd 1 0x18
      else if ¬ attach ∧ fns.any (fun f => !n.attached.contains f) then s.complete cmd 1 0x1A
      else
        let l := if attach then n.attached ++ fns.eraseDups else n.attached.filter fun f => !fns.contains f
        let s1 := (s.pcie 64 4096).putNs nsid { n with attached := l }
        let s2 := if l.isEmpty then s1.dropNsCopies nsid else s1
        ((s2.nsChanged (fns.eraseDups.filter (· ≠ 0)) nsid).flush).succeed cmd)

/-- One namespace formatted (R456). -/
def State.formatNs (s : State) (lbaf ses ns : Nat) : State :=
  match sget? s.host.namespaces ns with
  | none => s
  | some n =>
    let s1 := s.faultMoves true (Move.usesNs ns) 0x46 0
    let s2 := if ses = 0 then s1 else (s1.keySlots ns).foldl (fun t k => t.newKey k) s1
    (((s2.dropNsCopies ns).unmapNs ns).spoilColls ns).putNs ns { n with lbaf := lbaf }

/-- FORMAT_NVM (R126, R456): one NVM namespace, or all with 0xFFFFFFFF. -/
def execFormatNvm (cmd : CmdId) (nsid lbaf ses : Nat) (s : State) : Res :=
  s.onAdmin cmd (
    let nvm := (s.host.namespaces.filter fun p => p.2.kind == .nvm).map Prod.fst
    if s.fget glob_MEDIA_MODE 0 = 1 then s.complete cmd 0 0x20
    else if 2 < ses then s.complete cmd 0 0x02
    else if 1 < lbaf ∨ (nsid ≠ 0xFFFFFFFF ∧ ¬ nvm.contains nsid) then s.complete cmd 0 0x0B
    else (((if nsid = 0xFFFFFFFF then nvm else [nsid]).foldl (fun t n => t.formatNs lbaf ses n) s).flush).succeed cmd)

/-! ### Media mode (R88, R452) -/

/-- The READ_ONLY cause that holds now: 1 or 2 once it has applied, or as the margin and the retirements give it; 3 while the last
test of the hold-up bank failed; 0 none (R88, R451, R452). -/
def State.roCauseNow (s : State) : Nat :=
  if s.ftl.roCause ≠ 0 then s.ftl.roCause
  else if 3 < (s.packages.filter s.packageRetired).length then 2
  else if s.margin ≤ 0 then 1
  else if s.power.bankFailed then 3
  else 0

/-- READ_ONLY entered (R452): permanent for causes 1 and 2; READ_ONLY_ENTERED in the FTL page. -/
def State.enterReadOnly (s : State) (cause : Nat) : State :=
  let s1 : State := if cause = 3 then s else { s with ftl := { s.ftl with roCause := cause } }
  if s.fget glob_MEDIA_MODE 0 = 0 then (s1.setMedia 1 cause).err 0x22 0 [12] else s1

/-- MEDIA_READ_ONLY_ENTRY (R452): the margin is 0 or below in NORMAL. -/
def execMediaReadOnlyEntry (s : State) : Res :=
  if s.fget glob_MEDIA_MODE 0 = 0 ∧ s.margin ≤ 0 then .next ((s.refreshMargin).enterReadOnly 1) else .next s

/-! ### Sanitize (R91, R454, R455) -/

/-- SANITIZE (R126, R454): action 1 Crypto Erase, 2 Block Erase, 3 Overwrite. -/
def execSanitize (cmd : CmdId) (action pattern : Nat) (noDealloc : Bool) (s : State) : Res :=
  if ¬ s.takes cmd then .next s
  else if cmd.fn ≠ 0 then .next (s.complete cmd 0 0x01)
  else if s.turnedAway cmd false then .next (s.turnAway cmd)
  else if action = 0 ∨ 3 < action ∨ noDealloc then .next (s.complete cmd 0 0x02)
  else if s.sanitizing ∧ s.fget glob_MEDIA_CAUSE 0 ≠ 5 then .next (s.complete cmd 0 0x1D)
  else if s.fget glob_MEDIA_MODE 0 = 1 ∧ action ≠ 1 then .next (s.complete cmd 0 0x20)
  else
    let s1 := ((s.faultMoves false Move.usesMedia 0x06 16).faultSteps PuuStep.usesMedia 0x06 16).dropCopies fun _ => true
    let s2 : State := { s1 with
      tiers := { s1.tiers with hbm := s1.slmPages.foldl (fun m t => m.fill (t1Addr t) tierBytes none) s1.tiers.hbm }
      ftl := { s1.ftl with sanAction := action, sanPattern := pattern % 2 ^ 32, sanSteps := 0, collecting := [], shedding := none,
                           refresh := [] } }
    .next (((s2.fset ftl_REBUILD_STATE 0 4).setMedia 2 4).succeed cmd)

/-- A sanitize runs. -/
def State.sanRuns (s : State) : Bool := s.sanitizing && s.fget glob_MEDIA_CAUSE 0 == 4 && s.ftl.ready

/-- SANITIZE_PROGRESS (R455): one more of the 256 parts of the work is done, and journalled. -/
def execSanitizeProgress (s : State) : Res :=
  if ¬ s.sanRuns ∨ 255 ≤ s.ftl.sanSteps then .next s
  else .next ({ s with ftl := { s.ftl with sanSteps := s.ftl.sanSteps + 1 } } : State).flush

/-- Blocks that a Block Erase or an Overwrite leaves erased: every non-BAD block of every in-service die (R454). An overwritten block
is erased again before its next use; no read returns the pattern (log 24). -/
def State.eraseAll (s : State) : State :=
  { s with
    nand := { s.nand with
      blocks := s.nand.blocks.map fun p =>
        if p.2.st = 4 ∨ s.dieRetired (locCol (p.1 * 2048)) (locDie (p.1 * 2048)) then p
        else (p.1, { st := 0, next := 0, reads := 0, erases := p.2.erases + 1, oldest := 0 })
      pages := []
      stripes := [] }
    ftl := { s.ftl with openSb := [], closed := [], stale := [], sbErase := s.packages.foldl (fun m c => (List.range 2208).foldl (fun m b =>
      sput m (sbKey c b) (sget m (sbKey c b) 0 + 1)) m) s.ftl.sbErase } }

/-- Every page that a Crypto Erase leaves holds bytes whose key is gone: free bytes. -/
def State.scrambleAll (s : State) : State :=
  let k := s.freeCount
  { s with
    freeCount := k + 1
    nand := { s.nand with pages := s.nand.pages.map fun p => (p.1, { p.2 with data := p.2.data.fill 0 16384 (some k) }) } }

/-- SANITIZE_COMPLETE (R454): the last part is done. Everything is unmapped, every domain has ended, every range is unlocked with a new key,
and media mode leaves SANITIZING (R88). -/
def execSanitizeComplete (s : State) : Res :=
  if ¬ s.sanRuns ∨ s.ftl.sanSteps < 255 then .next s
  else
    let nvm := (s.host.namespaces.filter fun p => p.2.kind == .nvm).map Prod.fst
    let s1 := nvm.foldl (fun t n => t.unmapNs n) s
    let s2 := (nvm.flatMap s.keySlots).foldl (fun t k => t.newKey k) s1
    let s3 := (if s.ftl.sanAction = 1 then s2.scrambleAll else s2.eraseAll).dropCopies fun _ => true
    let s4 : State := { s3 with
      host := { s3.host with namespaces := s3.host.namespaces.map fun p => (p.1, { p.2 with rdLocked := false, wrLocked := false }) }
      ftl := { s3.ftl with ranges := s3.ftl.ranges.map fun p => (p.1, { p.2 with rdLocked := false, wrLocked := false })
                           sanAction := 0, sanSteps := 256, sanDone := true } }
    let c := s4.roCauseNow
    .next (((((s4.flush).refreshMargin).fset ftl_REBUILD_STATE 0 0).setMedia (if c = 0 then 0 else 1) c).aer 0 2 2)

/-- SANITIZE_FAIL (R455): a block can be neither erased nor marked BAD, or a key cannot be made or recorded. -/
def execSanitizeFail (info : Nat) (s : State) : Res :=
  if ¬ s.sanRuns then .next s
  else .next (((s.setMedia 2 5).err 0x22 0 [13] info).fset ftl_REBUILD_STATE 0 0)

/-! ### Opal (R457, R458) -/

/-- The bytes of a range named by its key slot: namespace, first byte, bytes. -/
def State.rangeOf (s : State) (slot : Nat) : Option (Nat × Nat × Nat) :=
  if slot < 64 then ((sget? s.host.namespaces (slot + 2)).filter fun n => n.kind == .nvm).map fun n => (slot + 2, 0, n.bytes)
  else (sget? s.ftl.ranges (slot - 64)).map fun r => (r.ns, r.first, r.len)

/-- Range `slot` governs byte `off` of its namespace: a Global Range does so where no non-global range does. -/
def State.governs (s : State) (slot ns off : Nat) : Bool :=
  match s.ftl.ranges.find? fun p => p.2.ns == ns && decide (p.2.first ≤ off) && decide (off < p.2.first + p.2.len) with
  | some p => slot == 64 + p.1
  | none => slot + 2 == ns

/-- Copies of the tier pages that a range governs dropped (R458). -/
def State.dropRangeCopies (s : State) (slot : Nat) : State :=
  s.dropCopies fun tk => s.governs slot (tk / 2 ^ 32) (tk % 2 ^ 32 * 2 ^ 21)

/-- Locking of a range set (R458): locking clears its key slots and drops its copies. -/
def State.lockRange (s : State) (slot : Nat) (rd wr : Bool) : State :=
  let s1 : State := if slot < 64 then (match sget? s.host.namespaces (slot + 2) with
      | some n => if n.kind = .nvm then s.putNs (slot + 2) { n with rdLocked := rd, wrLocked := wr } else s
      | none => s)
    else match sget? s.ftl.ranges (slot - 64) with
      | some r => { s with ftl := { s.ftl with ranges := sput s.ftl.ranges (slot - 64) { r with rdLocked := rd, wrLocked := wr } } }
      | none => s
  if rd ∨ wr then (s1.clearKey slot).dropRangeCopies slot else s1

/-- A non-global range placed: aligned to 2 MiB, within its namespace, apart from the others; 0 bytes free it (Table 16-8). -/
def State.defineRange (s : State) (r ns first len : Nat) : State :=
  let others := s.ftl.ranges.filter fun p => p.1 ≠ r && p.2.ns == ns
  let room : Bool := match sget? s.host.namespaces ns with
    | some n => n.kind == .nvm && decide (first + len ≤ n.bytes)
    | none => false
  if 8 ≤ r then s
  else if len = 0 then ({ s with ftl := { s.ftl with ranges := serase s.ftl.ranges r } } : State).clearKey (64 + r)
  else if ¬ room ∨ first % 2 ^ 21 ≠ 0 ∨ len % 2 ^ 21 ≠ 0 ∨ others.any (fun p => decide (first < p.2.first + p.2.len) && decide (p.2.first < first + len)) then s
  else
    let x : OpalRange := { ns := ns, first := first, len := len, rdLocked := false, wrLocked := false }
    { s with ftl := { s.ftl with ranges := sput s.ftl.ranges r x } }

/-- GenKey (R458): a crypto erase of a range: its IUs become UNMAPPED and its epoch domains end. -/
def State.genKey (s : State) (slot : Nat) : State :=
  match s.rangeOf slot with
  | none => s
  | some (ns, _, _) =>
    let tier (t : Nat) : Bool := s.governs slot ns (t * 2 ^ 21)
    let mine (iu : Nat) : Bool := iuNs iu == ns && tier (iuNum iu / 128)
    let dead (k : Nat) (d : Domain) : Bool := k / 2 ^ 32 == ns && (List.range d.pages).any fun i => tier (k % 2 ^ 32 + i)
    let s1 := (s.newKey slot).dropRangeCopies slot
    let ended := (s1.ftl.domains.filter fun p => dead p.1 p.2).map Prod.fst
    { s1 with ftl := { s1.ftl with
      map := s1.ftl.map.filter fun p => !mine p.1
      staging := s1.ftl.staging.filter fun x => !mine x.iu
      versions := s1.ftl.versions.filter fun v => !(mine v.iu || ended.contains v.dom)
      domains := s1.ftl.domains.filter fun p => !dead p.1 p.2 } }

/-- SECURITY_SEND (R457, R458): a method over security protocol 0, 1 or 2; `auth` says that the session's authority admits it. A change of a key
or a range is followed by a forced flush. The response waits for Security Receive; its bytes are TCG's (log 3). -/
def execSecuritySend (cmd : CmdId) (proto : Nat) (m : OpalMethod) (auth : Bool) (data : List Byte) (s : State) : Res :=
  s.onAdmin cmd (
    let s0 := s.pcie 64 data.length
    let s1 := if ¬ auth then s0 else match m with
      | .other => s0
      | .lock k rd wr => (s0.lockRange k rd wr).flush
      | .define r ns first len => (s0.defineRange r ns first len).flush
      | .genKey k => (s0.genKey k).flush
    if 2 < proto then s.complete cmd 0 0x02
    else ({ s1 with ftl := { s1.ftl with opalOut := s1.ftl.opalOut ++ [Config.opalResponse data] } } : State).succeed cmd)

/-- SECURITY_RECEIVE (R457): the list of protocols for protocol 0, else the oldest response that waits. -/
def execSecurityReceive (cmd : CmdId) (proto : Nat) (s : State) : Res :=
  if ¬ s.takes cmd then .next s
  else if cmd.fn ≠ 0 then .next (s.complete cmd 0 0x01)
  else if s.turnedAway cmd false then .next (s.turnAway cmd)
  else if 2 < proto then .next (s.complete cmd 0 0x02)
  else if proto = 0 then .next (s.succeed cmd 0 [0, 0, 0, 0, 0, 0, 0, 3, 0, 1, 2])
  else match s.ftl.opalOut with
    | [] => .next (s.succeed cmd)
    | r :: rs => .next (({ s with ftl := { s.ftl with opalOut := rs } } : State).succeed cmd 0 r)

/-! ### Collections (R129, R338) -/

/-- A task of the function reads the collection (R338). -/
def State.collInUse (s : State) (fn id : Nat) : Bool :=
  s.cp.ctxs.any fun p => p.2.req.fn == fn && (match p.2.task with
    | some t => t.colls.contains id
    | none => false)

/-- A descriptor is valid for a context of a function: R339 and R340, an attached namespace that holds every group, and a placement set within
the context's reach. -/
def State.collValid (s : State) (fn : Nat) (x : Ctx) (d : List Byte) : Bool :=
  collOk d && (match s.attachedNs fn (clNsid d) .nvm with
    | some n => decide (clFirst d + clGroups d ≤ n.units) && (x.req.pairing == 2 || n.pset == x.req.pairing + 1)
    | none => false)

/-- COLLECTION_DESCRIPTOR_SET (R338): defines, replaces or, with COLUMNS = 0, deletes a collection. -/
def execCollectionDescriptorSet (cmd : CmdId) (id c : Nat) (data : List Byte) (s : State) : Res :=
  let k := 65536 * cmd.fn + id % 65536
  let d := (data ++ List.replicate 4096 0).take 4096
  if ¬ s.takes cmd then .next s
  else if s.turnedAway cmd true then .next (s.turnAway cmd)
  else match s.ctx? c with
    | none => .next (s.complete cmd 1 0xC0)
    | some x =>
      if 64 ≤ c ∨ x.req.fn ≠ cmd.fn then .next (s.complete cmd 1 0xC0)
      else if s.collInUse cmd.fn (id % 65536) then .next (s.complete cmd 1 0xC4)
      else
        let s0 := s.pcie 64 4096
        if clColumns d = 0 then
          .next (({ s0 with near := { s0.near with collections := serase s0.near.collections k } } : State).succeed cmd)
        else if ¬ s.collValid cmd.fn x d ∨ ((sget? s.near.collections k).isNone ∧ 4096 ≤ s.near.collections.length) then
          .next (s.complete cmd 1 0xC5)
        else
          let n : Collection := { bytes := d, ctx := c, valid := true }
          let grow (p : Nat × Domain) : Nat × Domain := if p.1 = clDomain d then (p.1, { p.2 with pages := max p.2.pages (clGroups d) }) else p
          .next (({ s0 with
            near := { s0.near with collections := sput s0.near.collections k n }
            ftl := { s0.ftl with domains := s0.ftl.domains.map grow } } : State).succeed cmd)

/-- COLLECTION_DESCRIPTOR_GET (R338). -/
def execCollectionDescriptorGet (cmd : CmdId) (id : Nat) (s : State) : Res :=
  if ¬ s.takes cmd then .next s
  else if s.turnedAway cmd false then .next (s.turnAway cmd)
  else match sget? s.near.collections (65536 * cmd.fn + id % 65536) with
    | some k => .next (s.succeed cmd 0 k.bytes)
    | none => .next (s.complete cmd 1 0xC6)

end Sys2Proof.Machine
end

