-- ==== Sys2Proof/Machine/Nand.lean ====
section
/-!
DEFINITION. The NAND media and the flash command path, the journal, garbage collection and relocation, retirement of dies
and packages (15_nand_media.md, R394 to R426; 16_flash_translation.md, R429, R440, R444 to R453).
-/

namespace Sys2Proof.Machine

/-! ### Statuses (R402) -/

/-- A flash command ends with a status (Table 15-6): every status but OK and READ_OK is recorded with the location, READ_RECOVERED and
READ_ERASED where CORRECTED_RECORD asks. `l` is the location. -/
def State.flashStatus (s : State) (l st : Nat) (inj : Bool := false) : State :=
  let c := locCol l
  let b := s.block (l / 2048)
  if st = 0 ∨ st = 1 ∨ ((st = 2 ∨ st = 3) ∧ s.fget (hdr_CORRECTED_RECORD 0x21) c = 0) then s
  else s.recEv 0x21 c (0x0500 + st)
    ([c, locDie l, locPlane l] ++ le (locBlock l) 2 ++ le (locPage l) 2 ++ le b.next 2 ++ [b.st]) 0xFF inj

/-- Rate step of the channel of a die. -/
def State.channelStep (s : State) (c d : Nat) : Nat := sget s.nand.rateStep (8 * c + d / 2) 0

/-- The operation in progress on a die. -/
def State.dieOp (s : State) (c d : Nat) : Option DieOp := sget? s.nand.ops (16 * c + d)
def State.setDieOp (s : State) (c d : Nat) (o : Option DieOp) : State :=
  { s with nand := { s.nand with ops := match o with
    | some o => sput s.nand.ops (16 * c + d) o
    | none => serase s.nand.ops (16 * c + d) } }

/-- A die is classified as permanently faulty (Table 15-9). -/
def State.condemn (s : State) (c d : Nat) : State :=
  if s.nand.condemned.contains (16 * c + d) then s
  else { s with nand := { s.nand with condemned := s.nand.condemned ++ [16 * c + d] } }

/-- Why a die takes no operation: retired, or its channel down. -/
def State.dieRefuses (s : State) (c d : Nat) : Option Nat :=
  if s.channelDead c d then some 0x22
  else if s.dieRetired c d then some 0x21
  else if s.channelStep c d = 3 then some 0x22
  else none

/-! ### Bad blocks (R406) -/

/-- Locations that hold valid data: of the map, of versions and of staged IUs that have programmed. -/
def State.validLocs (s : State) : List Nat :=
  (s.ftl.map.filterMap fun p => if p.2.st = 1 ∨ p.2.st = 2 then some p.2.loc else none) ++
  (s.ftl.versions.filterMap fun v => v.loc) ++ (s.ftl.staging.filterMap fun x => x.loc)

/-- A block becomes BAD: a grown bad block, with a forced flush. More than 132 of them condemn their die (Table 15-9). -/
def State.markBad (s : State) (k : Nat) : State :=
  let l := k * 2048
  let die := 16 * locCol l + locDie l
  let n := sget s.nand.grown die 0 + 1
  let s1 := (s.setBlock k { s.block k with st := 4 }).flush
  let s2 : State := { s1 with
    nand := { s1.nand with grown := sput s1.nand.grown die n, pages := sdropRange s1.nand.pages l (l + 2048) }
    ftl := { s1.ftl with failed := s1.ftl.failed.filter (· ≠ k), refresh := s1.ftl.refresh.filter (· ≠ k) } }
  (if 132 < n then s2.condemn (locCol l) (locDie l) else s2).refreshMargin

/-- Failed blocks with no valid page left are marked BAD. -/
def State.settleBad (s : State) : State :=
  (s.ftl.failed.filter fun k => s.validLocs.all fun l => l / 2048 ≠ k).foldl (fun t k => t.markBad k) s

/-- A stream of a package leaves its superblock, which is closed (R450); the stripes it leaves open take their parity over the members written so far
(R417). -/
def State.closeSb (s : State) (c stream b : Nat) : State :=
  let ls := (s.ftl.staging.filterMap fun x => x.loc).filter fun l => locCol l == c && locBlock l == b
  let s1 := ls.foldl (fun t l => t.closeStripe l true) s
  { s1 with ftl := { s1.ftl with
    openSb := serase s1.ftl.openSb (4 * c + stream)
    closed := if s1.ftl.closed.contains (sbKey c b) then s1.ftl.closed else s1.ftl.closed ++ [sbKey c b] } }

/-! ### Programs (R403 to R405, R434, R435) -/

/-- A key slot that governs an IU is not loaded in the package (R336, Table 15-6). -/
def State.keyMissing (s : State) (c iu : Nat) : Bool :=
  (List.range 72).any fun k => s.governs k (iuNs iu) (iuNum iu * 16384) && !s.ftl.keysLoaded.contains (128 * c + k)

/-- Every key slot that the staged IUs of a program need is loaded in the package. -/
def State.keysHere (s : State) (c : Nat) (xs : List Staged) : Bool := xs.all fun x => !s.keyMissing c x.iu

/-- A stream of the package has superblock `b` open. -/
def State.isOpen (s : State) (c b : Nat) : Bool :=
  (List.range 3).any fun k => (sget? s.ftl.openSb (4 * c + k)).map Prod.fst == some b

/-- An operation of a die that begins now. -/
def State.newOp (s : State) (kind : Nat) (blocks : List Nat) : DieOp :=
  { kind := kind, blocks := blocks, since := s.tick, suspends := 0, suspendedAt := none }

/-- The tracked offsets of a block: the set that the next read of it starts from (R415). -/
def State.setOffset (s : State) (c d b v : Nat) : State :=
  { s with nand := { s.nand with offsets := sput s.nand.offsets (2208 * (16 * c + d) + b) v } }

/-- FLASH_PROGRAM (R403, R405, R435): the next wordline of a package's USER stream, on up to `np` planes of one die, takes the staged IUs that
wait for the package. A target whose die takes no operation, or that the tracker does not accept, is refused before anything is pulsed and the stream moves to another superblock; an
injected failure answers without issuing (R460). `done`: the die has reported OK; else the program is in progress. -/
def execFlashProgram (c np : Nat) (done : Bool) (s : State) : Res :=
  let xs := s.toProgram c
  if ¬ colanderFitted s.variant c ∨ np = 0 ∨ 6 < np ∨ xs.isEmpty ∨ s.packageRetired c ∨ ¬ s.ftl.ready then .next s
  else match s.openNext c 0 true with
  | none => .next s
  | some ((b, pos), s0) =>
    match s0.wordlines c b pos (min np (ceilDiv xs.length 3)) with
    | [] => .next s
    | l :: ls =>
      let all := l :: ls
      let d := locDie l
      if ¬ s0.keysHere c (xs.take (3 * all.length)) then .next ((s0.flashStatus l 0x30).err 0x21 c [11] (d / 2 * 256))
      else match s0.dieRefuses c d with
      | some st => .next ((s0.flashStatus l st).closeSb c 0 b)
      | none =>
        if (s0.dieOp c d).isSome then .next s
        else if s0.injectLeft 0x22 0 3 ≠ 0 then .next ((((s0.err 0x22 0 [3] c).flashStatus l 0x11 true)).closeSb c 0 b)
        else if all.any fun m => (s0.block (m / 2048)).st = 4 then .next ((s0.flashStatus l 0x15).closeSb c 0 b)
        else if all.any fun m => (s0.block (m / 2048)).st ≥ 2 ∨ (s0.block (m / 2048)).next ≠ locPage m then
          .next ((s0.flashStatus l 0x10).closeSb c 0 b)
        else
          let s2 := (s0.programWls all xs).setPos c 0 b (pos + 3 * all.length)
          .next (if done then s2 else s2.setDieOp c d (some (s.newOp 1 (all.map (· / 2048)))))

/-- The last program of a block failed at the wordline that begins with page `l` (R406, R450): the block is closed FULL at the failed wordline, its
data goes back to staging, the superblock is closed, and the block is BAD once its earlier pages have moved. -/
def State.failProgram (s : State) (c d key l : Nat) (mine : Nat → Bool) : State :=
  let s1 := ((s.flashStatus l 0x11).setBlock key { s.block key with st := 2, next := locPage l }).setDieOp c d none
  let s2 : State := { s1 with
    nand := { s1.nand with pages := sdropRange s1.nand.pages l (l + 3) }
    ftl := { s1.ftl with
      failed := s1.ftl.failed ++ [key]
      staging := s1.ftl.staging.map fun (y : Staged) => if y.loc.any mine then { y with loc := none } else y } }
  (s2.closeSb c 0 (locBlock l)).settleBad

/-- FLASH_PROGRAM_FAIL (R406, R450): the die reports that its last program of a block failed. -/
def execFlashProgramFail (c d k b : Nat) (s : State) : Res :=
  let key := blockKey c d k b
  let x := s.block key
  if ¬ colanderFitted s.variant c ∨ 16 ≤ d ∨ 6 ≤ k ∨ 2208 ≤ b ∨ x.st = 0 ∨ x.st = 4 ∨ x.next < 3 ∨ s.ftl.failed.contains key then .next s
  else
    let l := key * 2048 + (x.next - 3)
    let mine (m : Nat) : Bool := decide (l ≤ m) && decide (m < l + 3)
    if s.ftl.staging.all fun y => !(y.loc.any mine) then .next s
    else .next (s.failProgram c d key l mine)

/-- STAGING_SLOT_COMMIT (R436, R417): the wordline of a staged IU and that wordline's stripe parity have programmed with OK. -/
def execStagingSlotCommit (seq : Nat) (s : State) : Res :=
  match s.stagedSeq seq with
  | none => .next s
  | some x => match x.loc with
    | none => .next s
    | some l =>
      let s1 := s.setDieOp (locCol l) (locDie l) (match s.dieOp (locCol l) (locDie l) with
        | some o => if o.kind = 1 ∧ o.suspendedAt.isNone then none else some o
        | none => none)
      if ¬ s.stripeDone l then .next s else .next ((s1.commitStaged x l).settleBad)

/-! ### Erases (R404, R406, R407, R448) -/

/-- A superblock whose last member that can be erased has been counts one more erase, and its record of members ends (R433). It may be the least worn now,
which no flush has named as successor. -/
def State.countErase (s : State) (c b : Nat) : State :=
  let gone (m : Nat × Nat) : Bool := s.dieRetired c m.1 || (s.block (blockKey c m.1 m.2 b)).st == 0 || (s.block (blockKey c m.1 m.2 b)).st == 4
  if (s.members c b).all gone then
    { s with
      nand := { s.nand with stripes := serase s.nand.stripes (sbKey c b) }
      ftl := { s.ftl with
        sbErase := sput s.ftl.sbErase (sbKey c b) (sget s.ftl.sbErase (sbKey c b) 0 + 1)
        closed := s.ftl.closed.filter (· ≠ sbKey c b)
        stale := ((List.range 3).map (4 * c + ·)).foldl (fun m k => if m.contains k then m else m ++ [k]) s.ftl.stale } }
  else s

/-- A block is ERASED. -/
def State.eraseBlock (s : State) (k : Nat) : State :=
  let s1 := s.setBlock k { st := 0, next := 0, reads := 0, erases := (s.block k).erases + 1, oldest := 0 }
  { s1 with
    nand := { s1.nand with pages := sdropRange s1.nand.pages (k * 2048) (k * 2048 + 2048) }
    ftl := { s1.ftl with refresh := s1.ftl.refresh.filter (· ≠ k) } }

/-- FLASH_ERASE (R404, R406, R407): block `b` on the planes listed of one die. It is refused on a BAD block, on one with an operation in
flight or suspended, and in a brown-out; it waits behind another operation of the die (R399), and is never issued while a block holds valid data (R448). `outcome` 0: the erase begins; 1: it has ended; the blocks of the planes in `bad` have failed and are
BAD. -/
def execFlashErase (c d b : Nat) (planes : List Nat) (outcome : Nat) (bad : List Nat) (s : State) : Res :=
  let ks := (planes.filter (· < 6)).eraseDups.map fun k => blockKey c d k b
  let l := ks.headD 0 * 2048
  if ¬ colanderFitted s.variant c ∨ 16 ≤ d ∨ 2208 ≤ b ∨ ks.isEmpty ∨ s.validLocs.any (fun m => ks.contains (m / 2048)) ∨ s.isOpen c b then .next s
  else match s.dieRefuses c d with
  | some st => .next (s.flashStatus l st)
  | none =>
    let own : Bool := match s.dieOp c d with
      | some o => o.kind == 2 && o.blocks == ks && o.suspendedAt.isNone
      | none => false
    if ks.any fun k => (s.block k).st = 4 then .next (s.flashStatus l 0x15)
    else if s.power.brownOut then .next (s.flashStatus l 0x14)
    else if (s.dieOp c d).isSome ∧ ¬ (own ∧ outcome ≠ 0) then
      .next (if (s.dieOp c d).any fun o => o.blocks.any ks.contains then s.flashStatus l 0x13 else s)
    else if outcome = 0 then
      .next (s.setDieOp c d (some (s.newOp 2 ks)))
    else
      let s1 := s.setDieOp c d none
      let s2 := ks.foldl (fun t k => if bad.contains (locPlane (k * 2048)) then ((t.flashStatus (k * 2048) 0x12).markBad k) else t.eraseBlock k) s1
      .next (s2.countErase c b)

/-! ### Reads (R399, R400, R409 to R415) -/

/-- A read reaches a die that an operation holds (R400): none where it must wait. -/
def State.suspendFor (s : State) (c d : Nat) : Option State :=
  match s.dieOp c d with
  | none => some s
  | some o =>
    if o.suspendedAt.isSome then some s
    else if o.since + ticksUs 200 ≤ s.tick ∧ o.suspends < (if o.kind = 1 then 2 else 8) then
      some (s.setDieOp c d (some { o with suspends := o.suspends + 1, suspendedAt := some s.tick }))
    else none

/-- A block reported for refresh (R414). -/
def State.report (s : State) (k : Nat) : State :=
  if s.ftl.refresh.contains k then s else { s with ftl := { s.ftl with refresh := s.ftl.refresh ++ [k] } }

/-- A read of a block counts; at 200,000 the block is reported. -/
def State.countRead (s : State) (k : Nat) : State :=
  let b := s.block k
  let s1 := s.setBlock k { b with reads := b.reads + 1 }
  if b.reads + 1 = 200000 then s1.report k else s1

/-- A page of a block reads as erased (Table 15-7). -/
def State.readsErased (s : State) (l : Nat) : Bool :=
  let b := s.block (l / 2048)
  b.st == 0 || (b.st == 1 && decide (b.next ≤ locPage l)) || (b.st == 3 && (sget? s.nand.pages l).isNone)

/-- The die of a page had a read that needed step 6: 32 distinct wordlines within 24 hours condemn it (Table 15-9). -/
def State.countStep6 (s : State) (l : Nat) : State :=
  let die := 16 * locCol l + locDie l
  let wl := l / 2048 * 384 + locPage l / 3
  let old := (sget s.nand.step6 die []).filter fun p => decide (s.tick < p.2 + dayTicks) && p.1 != wl
  let s1 : State := { s with nand := { s.nand with step6 := sput s.nand.step6 die ((wl, s.tick) :: old) } }
  if 32 ≤ old.length + 1 then s1.condemn (locCol l) (locDie l) else s1

/-- The map entry of the IU in a page turns SUSPECT where it is MAPPED there, or back (R445). -/
def State.suspect (s : State) (l : Nat) (bad : Bool) : State :=
  match sget? s.nand.pages l with
  | none => s
  | some p =>
    let e := s.mapEntry p.iu
    if e.loc ≠ l then
      { s with ftl := { s.ftl with versions := s.ftl.versions.map fun v => if v.loc = some l then { v with st := if bad then 2 else 1 } else v } }
    else if bad ∧ e.st = 1 then s.setMap p.iu 2 l
    else if ¬ bad ∧ e.st = 2 then (s.setMap p.iu 1 l).report (l / 2048)
    else s

/-- A page that the FTL reads for itself is counted: B_nand, pages read, background work (R26, R28). -/
def State.countOwn (s : State) (c : Nat) : State :=
  ((s.fset64 col_NAND_READ_LO col_NAND_READ_HI c (s.fget64 col_NAND_READ_LO col_NAND_READ_HI c + 4)).count 0x21 c 0 1).work 64 16 16384

/-- The step of the ladder at which the page of a location decodes, 7 where none does, from the first step `step` that its bits allow: an injection fails
step 0, or all up to 5 (R425); a page that only a rebuild reads goes to step 6, which needs the other members (R418, R421). -/
def State.ladderStep (s : State) (l step : Nat) : Nat :=
  let c := locCol l
  let lo := if s.rebuildOnly l ∨ s.injectLeft 0x21 c 3 ≠ 0 then 6 else if s.injectLeft 0x21 c 2 ≠ 0 then 1 else 0
  if max step lo = 6 ∧ ¬ s.rebuilds l then 7 else max step lo

/-- FLASH_READ (R399 to R415, R418): the page of a location is read; `step` is the first step of the ladder that decodes it, 7 none, `member` a
die whose page of the stripe could not be read in a rebuild (16 none). `own` says that the FTL reads for itself: the reads of a host command or a
descriptor are counted where it completes. The page of a retired die, or of a dead channel, goes straight to step 6, and fails where its stripe has another
member that cannot be read (R421, R423). -/
def execFlashRead (c d k b p step member : Nat) (own : Bool) (s : State) : Res :=
  let l := mkLoc c d k b p
  let key := blockKey c d k b
  if ¬ colanderFitted s.variant c ∨ 16 ≤ d ∨ 6 ≤ k ∨ 2208 ≤ b ∨ 1152 ≤ p ∨ s.fget (hdr_STATE 0x21) c ≠ 2 then .next s
  else if s.dieRetired c d ∧ s.nand.relocated.contains (16 * c + d) then .next (s.flashStatus l 0x21)
  else if s.channelStep c d = 3 ∧ ¬ (own ∧ s.ftl.evacuating.contains c) then .next (s.flashStatus l 0x22)
  else if (s.block key).st = 4 then .next (s.flashStatus l 0x15)
  else match sget? s.nand.pages l with
  | some x =>
    if s.keyMissing c x.iu then
      .next ((s.flashStatus l 0x30).err 0x21 c [11] (d / 2 * 256))
    else match s.suspendFor c d with
    | none => .next s
    | some s0 =>
      let inj : Bool := s.injectLeft 0x21 c 3 != 0 || s.injectLeft 0x21 c 2 != 0
      let st := s.ladderStep l step
      let s1 := s0.countRead key
      if 7 ≤ st then
        let s2 := ((s1.err 0x21 c [3] (d / 2 * 256 + p * 4096)).flashStatus l 0x04 inj).suspect l true
        .next (if member < 16 ∧ member ≠ d ∧ ¬ inj then s2.condemn c member else s2)
      else
        let s2 := (if own then s1.countOwn c else s1).suspect l false
        if st = 0 then .next s2
        else
          let s3 := (s2.err 0x21 c [2] (d / 2 * 256 + p * 4096)).flashStatus l 0x02 inj
          let s4 := if st ≤ 5 then s3.setOffset c d b st else s3
          let s5 := if 5 ≤ st then s4.report key else s4
          .next (if st = 6 ∧ ¬ inj ∧ ¬ s.rebuildOnly l then s5.countStep6 l else s5)
  | none => match s.suspendFor c d with
    | none => .next s
    | some s0 => .next (if s.readsErased l then (s0.countRead key).flashStatus l 0x03 else (s0.countRead key).flashStatus l 0x04)

/-- FLASH_KEY_LOAD (R336): the key slot of a readable range is loaded into a Colander. -/
def execFlashKeyLoad (c slot : Nat) (s : State) : Res :=
  match s.rangeOf slot with
  | none => .next s
  | some (ns, first, _) =>
    if ¬ colanderFitted s.variant c ∨ 72 ≤ slot ∨ s.fget (hdr_STATE 0x21) c ≠ 2 ∨ s.ftl.keysLoaded.contains (128 * c + slot) ∨
        (if slot < 64 then (match sget? s.host.namespaces ns with
          | some n => n.rdLocked
          | none => true) else s.lockedAt ns first false) then .next s
    else .next { s with ftl := { s.ftl with keysLoaded := s.ftl.keysLoaded ++ [128 * c + slot] } }

/-- PROGRAM_ERASE_RESUME (R400): a suspended operation goes on; an erase does not while a brown-out lasts (R407). -/
def execProgramEraseResume (c d : Nat) (s : State) : Res :=
  match s.dieOp c d with
  | none => .next s
  | some o =>
    if o.suspendedAt.isNone ∨ (o.kind = 2 ∧ s.power.brownOut) then .next s
    else .next (s.setDieOp c d (some { o with since := s.tick, suspendedAt := none }))

/-! ### Dies and channels (R397, R401, R415, R419 to R421) -/

/-- DIE_TIMEOUT (R401, Table 15-9): a first timeout is cured by reset and reissue; a second within 1 s condemns the die and the operation ends
with DIE_TIMEOUT. -/
def execDieTimeout (c d : Nat) (s : State) : Res :=
  if ¬ colanderFitted s.variant c ∨ 16 ≤ d ∨ s.dieRetired c d then .next s
  else
    let k := 16 * c + d
    let again : Bool := match sget? s.nand.timeouts k with
      | some t => decide (s.tick < t + secTicks)
      | none => false
    let s1 : State := { s with nand := { s.nand with timeouts := sput s.nand.timeouts k s.tick } }
    if again then .next (((s1.setDieOp c d none).flashStatus (mkLoc c d 0 0 0) 0x20).condemn c d)
    else .next (s1.err 0x21 c [2] (d / 2 * 256))

/-- Reading of the NAND sensor of a package, in 1/16 °C (Table 18-1). -/
def State.nandTemp (s : State) (c : Nat) : Int := sget s.kettle.sensors (112 + c) 0

/-- ZQ_CALIBRATION (R397): on an idle die, each second or after a move of more than 10 °C. -/
def execZqCalibration (c d : Nat) (s : State) : Res :=
  let k := 16 * c + d
  let due : Bool := match sget? s.nand.zq k with
    | none => true
    | some (t, x) => decide (t + secTicks ≤ s.tick) || decide (160 < (s.nandTemp c - x).natAbs)
  if ¬ colanderFitted s.variant c ∨ 16 ≤ d ∨ s.dieRetired c d ∨ s.channelDead c d ∨ (s.dieOp c d).isSome ∨ ¬ due then .next s
  else .next { s with nand := { s.nand with zq := sput s.nand.zq k (s.tick, s.nandTemp c) } }

/-- THRESHOLD_TEMPERATURE_UPDATE (R415): every second the term that the die's sensor and the factory coefficients give is added. -/
def execThresholdTemperatureUpdate (c d : Nat) (term : Int) (s : State) : Res :=
  let k := 16 * c + d
  let due : Bool := match sget? s.nand.tempTick k with
    | none => true
    | some t => decide (t + secTicks ≤ s.tick)
  if ¬ colanderFitted s.variant c ∨ 16 ≤ d ∨ ¬ due then .next s
  else .next { s with nand := { s.nand with tempTerm := sput s.nand.tempTerm k term, tempTick := sput s.nand.tempTick k s.tick } }

/-- ONFI_CHANNEL_STEP_DOWN (R398, R419, R420): a channel has to be retrained; the fourth retraining within an hour at one rate step moves it one step
down, and step 3 retires it. A channel that fails training at step 3 is dead, and its two dies are unreachable. -/
def execOnfiChannelStepDown (c ch : Nat) (ok : Bool) (s : State) : Res :=
  let k := 8 * c + ch
  if ¬ colanderFitted s.variant c ∨ 8 ≤ ch ∨ s.nand.dead.contains k then .next s
  else
    let st := sget s.nand.rateStep k 0
    if st = 3 then
      if ok then .next (s.err 0x21 c [2] (ch * 256))
      else
        let s1 : State := { s with nand := { s.nand with dead := s.nand.dead ++ [k] } }
        let s2 := ((s1.fclrBit col_CH_ON c ch).fsetBit col_DIE_RETIRED c (2 * ch)).fsetBit col_DIE_RETIRED c (2 * ch + 1)
        .next s2.refreshMargin
    else
      let l := s.tick :: ((sget s.nand.retrains k []).filter fun t => decide (s.tick < t + hourTicks))
      if l.length < 4 then .next ((({ s with nand := { s.nand with retrains := sput s.nand.retrains k l } } : State)).err 0x21 c [2] (ch * 256))
      else
        let s1 : State := { s with nand := { s.nand with retrains := serase s.nand.retrains k, rateStep := sput s.nand.rateStep k (st + 1) } }
        if st + 1 = 3 then .next ((s1.fsetBit col_CH_RETIRED c ch).recordRetirement 0x21 c (16 + ch))
        else .next { s1 with eflash := { s1.eflash with retirements := s1.eflash.retirements ++ [(0x21, c, 16 + ch)] } }

/-- Dies of a package that are retired or unreachable. -/
def State.deadDies (s : State) (c : Nat) : List Nat := (List.range 16).filter (s.dieRetired c)

/-- A staged IU at a location was lost with its die, or its stripe is open and the die was to hold the parity (R417). -/
def State.lostWith (s : State) (c d m : Nat) : Bool :=
  locCol m == c && (locDie m == d || (s.parityDie c (locBlock m) (locPlane m) == some d && !s.stripeDone m))

/-- Staged IUs at the locations of `p` are to be written again. -/
def State.unplace (s : State) (p : Nat → Bool) : State :=
  { s with ftl := { s.ftl with staging := s.ftl.staging.map fun (y : Staged) => if y.loc.any p then { y with loc := none } else y } }

/-- Every stream of a package leaves its superblock. -/
def State.closeAll (s : State) (c : Nat) : State :=
  (List.range 3).foldl (fun (t : State) (k : Nat) => match sget? t.ftl.openSb (4 * c + k) with
    | some (b, _) => t.closeSb c k b
    | none => t) s

/-- DIE_RETIRE (R421, R417): a condemned die is recorded, shown and excluded. Staged IUs on it, and those of open stripes whose parity it was to hold, are
written again from staging; the open superblocks of the package are closed, since their stripes have the die as a member (log 59). -/
def execDieRetire (c d : Nat) (s : State) : Res :=
  if ¬ s.nand.condemned.contains (16 * c + d) ∨ 16 ≤ d ∨ s.dieRetired c d ∨ ¬ colanderFitted s.variant c then .next s
  else .next (((((s.fsetBit col_DIE_RETIRED c d).recordRetirement 0x21 c d).unplace (s.lostWith c d)).closeAll c).refreshMargin)

/-- DIE_RELOCATION_COMPLETE (R421): no valid page is left on a retired die. -/
def execDieRelocationComplete (c d : Nat) (s : State) : Res :=
  let k := 16 * c + d
  if ¬ s.dieRetired c d ∨ s.nand.relocated.contains k ∨ s.validLocs.any (fun m => locCol m == c && locDie m == d) then .next s
  else .next { s with nand := { s.nand with relocated := s.nand.relocated ++ [k] } }

/-! ### Relocation (R445 to R450) -/

/-- The valid copy of a page moves to the RELOCATE stream of package `dest`, as META of Table 16-5 says; it counts as relocated where the map or a
version still holds the source, and is dropped otherwise (R449). A page that no read reaches stays, SUSPECT (R413, R423). None where the package has no
room. -/
def State.copyPage (s : State) (iu src dest : Nat) : Option State :=
  if s.unreadable src then some (s.suspect src true)
  else match sget? s.nand.pages src, s.allocLoc dest 1 with
  | some p, some (l, s1) =>
    let q : Page := { p with stream := 2, source := src + 2 ^ 38 * (s.mapEntry iu).st + 2 ^ 37 * b2n (s.ftl.versions.any fun v => v.iu == iu), tick := s.tick, iu := iu }
    let s2 := s1.countOwn (locCol src)
    let s3 : State := { s2 with
      nand := { s2.nand with pages := sput s2.nand.pages l q }
      ftl := { s2.ftl with sinceFlush := s2.ftl.sinceFlush + 16384 } }
    let s4 := ((s3.advanceBlock (l / 2048) (locPage l)).closeStripe l false).count 0x22 0 1 4
    let e := s.mapEntry iu
    let inMap : Bool := e.loc == src && (e.st == 1 || e.st == 2)
    let inVer : Bool := s.ftl.versions.any fun v => v.iu == iu && v.loc == some src
    let s5 := if inMap then s4.setMap iu 1 l else s4
    let vs := s5.ftl.versions.map fun v => if v.iu = iu ∧ v.loc = some src then { v with loc := some l } else v
    let s6 : State := { s5 with ftl := { s5.ftl with versions := vs } }
    some (if inMap || inVer then s6.count 0x22 0 2 1 else s6)
  | _, _ => none

/-- Valid IUs of a superblock, with their locations. -/
def State.validIn (s : State) (c b : Nat) : List (Nat × Nat) :=
  (s.validLocs.filter fun l => locCol l == c && locBlock l == b).filterMap fun l => (sget? s.nand.pages l).map fun p => (p.iu, l)

/-- The victim of a package: the FULL or closed superblock with the fewest valid IUs, then the lower erase count, then the lower number
(R448). -/
def State.victim (s : State) (c : Nat) : Option Nat :=
  let shut (b : Nat) : Bool := !s.isOpen c b && !s.sbFree c b && !(s.members c b).isEmpty
  let key (b : Nat) : Nat × Nat := ((s.validIn c b).length, sget s.ftl.sbErase (sbKey c b) 0)
  ((List.range 2208).filter shut).foldl (fun a b => match a with
    | none => some b
    | some x => if (key b).1 < (key x).1 ∨ ((key b).1 = (key x).1 ∧ (key b).2 < (key x).2) then some b else some x) none

/-- Garbage collection, refresh and relocation run: outside PS3 and PS4 and not while a sanitize runs (Table 16-11, R459). -/
def State.collects (s : State) : Bool := s.ftl.ready && !s.sanitizing && decide (s.fget glob_PS_EFFECTIVE 0 < 3)

/-- GC_START (R448): a package has fewer than 8 free superblocks. -/
def execGcStart (c : Nat) (s : State) : Res :=
  if ¬ colanderFitted s.variant c ∨ ¬ s.collects ∨ s.ftl.collecting.contains c ∨ s.packageRetired c ∨ 8 ≤ (s.freeSbs c).length then .next s
  else .next { s with ftl := { s.ftl with collecting := s.ftl.collecting ++ [c] } }

/-- GC_STOP (R448): the package has 12. -/
def execGcStop (c : Nat) (s : State) : Res :=
  if ¬ s.ftl.collecting.contains c ∨ (s.freeSbs c).length < 12 then .next s
  else .next { s with ftl := { s.ftl with collecting := s.ftl.collecting.filter (· ≠ c) } }

/-- A location is one that the FTL relocates inside its package: of the victim of a package that collects, of a failed block, or of a retired
die. -/
def State.moving (s : State) (l : Nat) : Bool :=
  (s.ftl.collecting.contains (locCol l) && s.victim (locCol l) == some (locBlock l)) || s.ftl.failed.contains (l / 2048) ||
  s.dieRetired (locCol l) (locDie l)

/-- GC_COPY_COMMIT (R449): the copy of an IU read at location `src` and its stripe parity have programmed. The map moves only if it still holds the
source; else the page it took counts as invalid. -/
def execGcCopyCommit (iu src : Nat) (s : State) : Res :=
  let suspect : Bool := (s.mapEntry iu).st == 2 && (s.mapEntry iu).loc == src
  if ¬ s.collects ∨ ¬ s.moving src ∨ suspect ∨ (sget? s.nand.pages src).all (fun p => p.iu ≠ iu) then .next s
  else match s.copyPage iu src (locCol src) with
    | some s1 => .next s1.settleBad
    | none => .next s

/-- SUSPECT_IU_RELOCATE (R445): a SUSPECT IU that has to move is read once more; it moves if the read decodes, and is LOST otherwise. -/
def execSuspectIuRelocate (iu : Nat) (ok : Bool) (s : State) : Res :=
  let e := s.mapEntry iu
  if ¬ s.collects ∨ e.st ≠ 2 ∨ ¬ (s.moving e.loc ∨ s.ftl.evacuating.contains (locCol e.loc) ∨ s.ftl.refresh.contains (e.loc / 2048)) then .next s
  else if ok then match s.copyPage iu e.loc (if s.packageRetired (locCol e.loc) then s.packageOf (iuTier iu) else locCol e.loc) with
    | some s1 => .next s1.settleBad
    | none => .next s
  else .next ((s.setMap iu 3 0).err 0x22 0 [11] (locCol e.loc + 64 * locBlock e.loc)).settleBad

/-- 180 days in ticks. -/
def refreshTicks : Nat := 180 * dayTicks

/-- A superblock is due for refresh (R447): a block of it is reported, or its oldest program is 180 days old. -/
def State.refreshDue (s : State) (c b : Nat) : Bool :=
  (s.members c b).any fun m =>
    let k := blockKey c m.1 m.2 b
    s.ftl.refresh.contains k || ((s.block k).st != 0 && (s.block k).st != 4 && decide ((s.block k).oldest + refreshTicks ≤ s.nand.age + s.tick))

/-- RETENTION_REFRESH (R447): every valid IU of a superblock that can be read is relocated; its blocks leave the refresh list. -/
def execRetentionRefresh (c b : Nat) (s : State) : Res :=
  if ¬ colanderFitted s.variant c ∨ ¬ s.collects ∨ s.isOpen c b ∨ s.packageRetired c ∨ ¬ s.refreshDue c b then .next s
  else
    let s1 := (s.validIn c b).foldl (fun t p => if (t.mapEntry p.1).st = 2 ∧ (t.mapEntry p.1).loc = p.2 then t else (t.copyPage p.1 p.2 c).getD t) s
    .next ({ s1 with ftl := { s1.ftl with
      refresh := s1.ftl.refresh.filter fun k => !(locCol (k * 2048) == c && locBlock (k * 2048) == b) } } : State).settleBad

/-! ### The spare pool (R451 to R453, R422) -/

def mib : Nat := 2 ^ 20

/-- Tier pages of the NVM namespaces placed on a package, in the order in which they leave it: lowest T2 heat, then namespace, then page. -/
def State.leaving (s : State) (c : Nat) : List Nat :=
  ((s.host.namespaces.flatMap fun p => if p.2.kind = .nvm then
      ((List.range p.2.units).map (tierKey p.1)).filter fun t => s.packageOf t == c else []).mergeSort fun a b =>
    let ha := sget s.tiers.heat2 a 0
    let hb := sget s.tiers.heat2 b 0
    decide (ha < hb ∨ (ha = hb ∧ a ≤ b)))

/-- The package that takes a tier page: of its placement set, in service, with the largest SPARE, the lowest number on a tie. -/
def State.takerOf (s : State) (tk : Nat) : Option Nat :=
  let p := match sget? s.host.namespaces (tk / 2 ^ 32) with
    | some n => n.pset
    | none => 0
  ((placementSet s.variant p).filter fun c => !s.packageRetired c && c != s.packageOf tk).foldl (fun a c => match a with
    | none => some c
    | some x => if s.spareOf x < s.spareOf c then some c else some x) none

/-- Valid pages of a tier page: those of the map and of its versions. -/
def State.tierLocs (s : State) (tk : Nat) : List (Nat × Nat) :=
  (s.ftl.map.filterMap fun p => if iuTier p.1 = tk ∧ (p.2.st = 1 ∨ p.2.st = 2) then some (p.1, p.2.loc) else none) ++
  (s.ftl.versions.filterMap fun v => if iuTier v.iu = tk then v.loc.map fun l => (v.iu, l) else none)

/-- A tier page moves whole to package `dest`: its readable IUs are copied there, the relocation table records it, and the move is durable. A SUSPECT
IU keeps its place. -/
def State.moveTier (s : State) (tk dest : Nat) : Option State :=
  let ps := (s.tierLocs tk).filter fun p => !((s.mapEntry p.1).st == 2 && (s.mapEntry p.1).loc == p.2)
  (ps.foldl (fun (t : Option State) p => t.bind fun u => u.copyPage p.1 p.2 dest) (some s)).map fun t =>
    ({ t with ftl := { t.ftl with moved := sput t.ftl.moved tk dest } } : State).flush

/-- A package is shed (R453): its SPARE, once below 6,480 MiB, is below 12,960 MiB. -/
def State.sheds (s : State) (c : Nat) : Bool := decide (0 < s.margin) && !s.packageRetired c &&
  (decide (s.spareOf c < (6480 * mib : Nat)) || (s.ftl.shedding == some c && decide (s.spareOf c < (12960 * mib : Nat))))

/-- PACKAGE_SHED (R453, R422): the next tier page of a package that is shed, or evacuated, moves; where no package of the set can take a page and keep
12,960 MiB, media mode becomes READ_ONLY with cause 1. -/
def execPackageShed (c : Nat) (s : State) : Res :=
  let evac := s.ftl.evacuating.contains c
  if ¬ colanderFitted s.variant c ∨ ¬ s.ftl.ready ∨ s.sanitizing then .next s
  else if ¬ evac ∧ ¬ s.sheds c then
    .next (if s.ftl.shedding = some c then { s with ftl := { s.ftl with shedding := none } } else s)
  else
    let s0 : State := if evac then s else { s with ftl := { s.ftl with shedding := some c } }
    match s0.leaving c with
    | [] => .next s0
    | tk :: _ => match s0.takerOf tk with
      | none => .next (if evac then s0 else ({ s0 with ftl := { s0.ftl with shedding := none } } : State).enterReadOnly 1)
      | some dest =>
        if ¬ evac ∧ s0.spareOf dest < (12960 * mib + 2 ^ 21 : Nat) then
          .next (({ s0 with ftl := { s0.ftl with shedding := none } } : State).enterReadOnly 1)
        else .next ((s0.moveTier tk dest).getD s0)

/-- A package is to be retired (R422): three dies retired or unreachable, a channel at step 3 or dead, a second die while an earlier one relocates,
or its Colander or link classified. -/
def State.packageFails (s : State) (c : Nat) : Bool :=
  decide (3 ≤ (s.deadDies c).length) ||
  (List.range 8).any (fun ch => s.nand.dead.contains (8 * c + ch) || sget s.nand.rateStep (8 * c + ch) 0 == 3) ||
  (decide (2 ≤ (s.deadDies c).length) && (s.deadDies c).any fun d => !s.nand.relocated.contains (16 * c + d)) ||
  s.units.retiring.contains (pageNo 0x21 c) || s.ftl.unreach.contains c

/-- Tier pages of a package out of reach go to other packages for later writes; the IUs it holds are SUSPECT (R423). -/
def State.abandon (s : State) (c : Nat) : State :=
  let s1 := (s.leaving c).foldl (fun t tk => match t.takerOf tk with
    | some dest => { t with ftl := { t.ftl with moved := sput t.ftl.moved tk dest } }
    | none => t) s
  { s1 with ftl := { s1.ftl with map := s1.ftl.map.map fun p => if p.2.st = 1 ∧ locCol p.2.loc = c then (p.1, { p.2 with st := 2 }) else p } }

/-- A package takes no more programs, is recorded in eFlash and is to be evacuated (R422); its map moves elsewhere at once where nothing reaches it. -/
def State.dropPackage (s : State) (c : Nat) : State :=
  let s1 := s.recordRetirement 0x21 c 0xFFFF
  let s2 : State := { s1 with ftl := { s1.ftl with
    evacuating := s1.ftl.evacuating ++ [c], collecting := s1.ftl.collecting.filter (· ≠ c)
    openSb := (List.range 3).foldl (fun m k => serase m (4 * c + k)) s1.ftl.openSb } }
  (((if s.ftl.unreach.contains c then s2.abandon c else s2).smartAdd 16 1).refreshMargin).flush

/-- PACKAGE_RETIRE (R422): a package that fails is retired. A fourth retirement moves media mode to READ_ONLY with cause 2. -/
def execPackageRetire (c : Nat) (s : State) : Res :=
  if ¬ colanderFitted s.variant c ∨ s.packageRetired c ∨ ¬ s.packageFails c then .next s
  else
    let s1 := s.dropPackage c
    .next (if 3 < (s1.packages.filter s1.packageRetired).length then s1.enterReadOnly 2 else s1)

/-- PACKAGE_EVACUATION_COMPLETE (R422): no tier page is left on a retired package; its Colander page reaches RETIRED. -/
def execPackageEvacuationComplete (c : Nat) (s : State) : Res :=
  if ¬ s.ftl.evacuating.contains c ∨ (s.leaving c) ≠ [] ∨ (s.validLocs.any fun l => locCol l == c && !s.ftl.unreach.contains c &&
      (sget? s.nand.pages l).any fun p => (s.mapEntry p.iu).st != 2) then .next s
  else
    let s1 : State := { s with ftl := { s.ftl with evacuating := s.ftl.evacuating.filter (· ≠ c) } }
    .next ((s1.toRetired 0x21 c).refreshMargin).flush

/-! ### The journal (R429, R440) -/

/-- JOURNAL_FLUSH (R440): records wait, and 64 MiB has been programmed or 50 ms passed since the last flush. -/
def execJournalFlush (s : State) : Res :=
  if s.ftl.ready ∧ s.ftl.records ≠ 0 ∧ (64 * mib ≤ s.ftl.sinceFlush ∨
      s.fget64 ftl_FLUSH_TICK_LO ftl_FLUSH_TICK_HI 0 + ticksMs 50 ≤ s.tick) then .next s.flush else .next s

/-- JOURNAL_FORCED_FLUSH (R434, R440): a change that needs one is about to take effect. -/
def execJournalForcedFlush (s : State) : Res := if s.ftl.ready then .next s.flush else .next s

/-- MAP_ECC_RELOAD (R429): segment `seg` is reloaded from its checkpoint and the journal; no entry changes. -/
def execMapEccReload (seg : Nat) (s : State) : Res :=
  if s.ftl.ready ∧ seg < mapSegments s.variant then .next (s.err 0x22 0 [8] (64 * seg)) else .next s

end Sys2Proof.Machine
end

