-- ==== Sys2Proof/Machine/Eflash.lean ====
section
/-!
DEFINITION. The ROM routine of the embedded flash, the sector-state table and the configuration store (19_embedded_flash_and_boot.md, R505 to
R515).
-/

namespace Sys2Proof.Machine

/-- Region of a sector (Table 19-2): 0 factory, 1 bit-clear, 2 and 3 firmware slots, 4 record area, 5 configuration store. -/
def regionOfSector (x : Nat) : Nat :=
  if x < 16 then 0 else if x < 80 then 1 else if x < 848 then 2 else if x < 1616 then 3 else if x < 1766 then 4 else 5

/-- The reading of an erased word. -/
def erasedWord : Nat := 2 ^ 64 - 1

/-- A word of the factory region as manufacture leaves it (R509, Table 19-3): the factory-calibration row in sectors 0 and 1, with the variant and the
floor constants that the spec gives, its reserved words erased; the factory tables in sectors 2 to 15. -/
def factoryWord (v : Variant) (a : Nat) : Nat :=
  if 1024 ≤ a then Config.factoryWord a % 2 ^ 64
  else match a % 512 with
    | 3 => (match v with
      | .x => 0
      | .s => 1
      | .c => 2)
    | 4 => 45
    | 5 => 24
    | 6 => 1900
    | 7 => 900
    | w => if w < 18 ∨ w = 255 then Config.factoryWord w % 2 ^ 64 else erasedWord

/-- A word as stored: the factory region, which nothing writes, holds what manufacture left. -/
def State.eword (s : State) (a : Nat) : Nat := if a < 8192 then factoryWord s.variant a else sget s.eflash.words a erasedWord

/-- `s` with a word of the eFlash set; an erased word is not listed. -/
def State.setEword (s : State) (a v : Nat) : State :=
  let v := v % 2 ^ 64
  { s with eflash := { s.eflash with
    words := if v = erasedWord then serase s.eflash.words a else sput s.eflash.words a v } }

/-- The bitwise majority of three words (R508). -/
def majority (a b c : Nat) : Nat := Nat.lor (Nat.lor (Nat.land a b) (Nat.land b c)) (Nat.land a c)

/-- First copy of the `k`-th value from a value's address on in the bit-clear region: 170 values to a sector (R508). -/
def valueAddr (a k : Nat) : Nat :=
  let v := a % 512 / 3 + k
  (a / 512 + v / 170) * 512 + 3 * (v % 170)

/-- Word addresses that a request names: words of an ECC region, first copies of values in the bit-clear region. -/
def requestWords (a n : Nat) : List Nat :=
  if regionOfSector (a / 512) = 1 then (List.range n).map (valueAddr a) else (List.range n).map (a + ·)

/-- The value at a requested address, and whether its copies disagree. -/
def State.evalue (s : State) (a : Nat) : Nat × Bool :=
  if regionOfSector (a / 512) = 1 then
    let x := s.eword a
    let y := s.eword (a + 1)
    let z := s.eword (a + 2)
    (majority x y z, x != y || y != z)
  else (s.eword a, false)

/-- A request names a range that the routine accepts: in one region, within 8 consecutive sectors, the first copy of a value in the bit-clear
region (Table 19-4). -/
def rangeOk (a n : Nat) : Bool :=
  match (requestWords a n).getLast? with
  | none => false
  | some l => decide (l < 1048576) && regionOfSector (a / 512) == regionOfSector (l / 512) && decide (l / 512 < a / 512 + 8) &&
      (regionOfSector (a / 512) != 1 || (a % 512 % 3 == 0 && decide (a % 512 < 510)))

/-- The sectors of a list of words. -/
def sectorsOf (ws : List Nat) : List Nat := (ws.map (· / 512)).eraseDups

/-- A sector's last erase is incomplete (R512). -/
def State.incomplete (s : State) (x : Nat) : Bool := decide (sget s.eflash.ended x 0 < sget s.eflash.begun x 0)

/-- A sector is tracked without the table: compaction has stopped and its value has no clear bit left (R512). -/
def State.untracked (s : State) (x : Nat) : Bool := s.eflash.worn && sget s.eflash.begun x 0 == 32

/-- The answer of a request. -/
def State.romAnswer (s : State) (status pulses flags failWord : Nat) (data : List Nat := []) : State :=
  { s with eflash := { s.eflash with status := status, pulses := pulses, outFlags := flags, failWord := failWord, data := data } }

def noWord : Nat := 0xFFFFFFFF

/-- EFLASH_READ (R507, R508, R510): `n` words, or values of the bit-clear region, from `a` on, at margin thresholds or not. `errs` names words with
one (corrected) or two (uncorrectable) wrong bits. The words of a sector whose last erase is incomplete are undefined. -/
def execEflashRead (a n : Nat) (errs : List (Nat × Nat)) (s : State) : Res :=
  if ¬ s.kettleOn then .next s
  else if ¬ rangeOk a n then .next (s.romAnswer 5 0 0 noWord)
  else
    let ws := requestWords a n
    let ecc := regionOfSector (a / 512) != 1
    let bad (w : Nat) : Bool := ecc && errs.any fun e => e.1 == w && decide (2 ≤ e.2)
    let fixed := ws.any fun w => (s.evalue w).2 || (ecc && errs.any fun e => e.1 == w && e.2 == 1)
    let flags := b2n fixed + 2 * b2n ((sectorsOf ws).any s.incomplete)
    let s1 := if fixed then s.fbump glob_EFLASH_CORRECTED 0 1 else s
    if (sectorsOf ws).any s.eflash.bad.contains then .next (s.romAnswer 8 0 0 noWord)
    else match ws.find? bad with
      | some w => .next (s1.romAnswer 6 0 flags w)
      | none =>
        let data := ws.zipIdx.map fun p => if s.incomplete (p.1 / 512) then Config.freeValue (s.freeCount + p.2) % 2 ^ 64 else (s.evalue p.1).1
        .next (({ s1 with freeCount := s1.freeCount + n } : State).romAnswer 0 0 flags noWord data)

/-- Pulses that an operation may use (R511): one with margin-read; with pulse-verify MAX_PULSES, 0 taken as 8. -/
def pulseLimit (pulseVerify : Bool) (maxPulses : Nat) : Nat :=
  if pulseVerify then (if maxPulses % 16 = 0 then 8 else maxPulses % 16) else 1

/-- A sector's verify succeeded, or failed after every pulse: the second failure in succession marks it bad (R513). -/
def State.verified (s : State) (x : Nat) (ok : Bool) : State :=
  if ok then { s with eflash := { s.eflash with verifyFails := serase s.eflash.verifyFails x } }
  else
    let n := sget s.eflash.verifyFails x 0 + 1
    let s1 := { s with eflash := { s.eflash with verifyFails := sput s.eflash.verifyFails x n } }
    if n < 2 ∨ s.eflash.bad.contains x then s1
    else
      let s2 := { s1 with eflash := { s1.eflash with bad := s1.eflash.bad ++ [x] } }
      s2.fset glob_BAD_SECTORS 0 s2.eflash.bad.length

/-- A request that would start a pulse is refused: reserved values, protected sectors, bad sectors, brown-out (Table 19-5). -/
def State.pulseRefused (s : State) (sectors : List Nat) (record handler rangeGood : Bool) : Option Nat :=
  if ¬ rangeGood ∨ (record ∧ ¬ handler) then some 5
  else if sectors.any (· < 16) then some 4
  else if sectors.any s.eflash.bad.contains then some 8
  else if s.power.brownOut ∧ ¬ record then some 3
  else none

/-- A word is programmed: in the bit-clear region, the three copies of a value (R508). -/
def State.programWord (s : State) (clear : Bool) (w v : Nat) : State :=
  if clear then ((s.setEword w v).setEword (w + 1) v).setEword (w + 2) v else s.setEword w v

/-- A program that a brown-out or a watchdog expiry ended at word `failAt` (R515): what stands before it is programmed. There, an ECC word and those after it
are undefined, and a value of the bit-clear region reads as before or as programmed (R508); values after it are as before. -/
def State.cutProgram (s : State) (clear : Bool) (failAt : Nat) (p : Nat × Nat) : State :=
  let d := s.draw
  if clear then
    (if p.1 < failAt ∨ (p.1 = failAt ∧ d.1 % 2 = 1) then (if p.1 = failAt then d.2 else s).programWord true p.1 p.2
     else if p.1 = failAt then d.2 else s)
  else if p.1 < failAt then s.setEword p.1 p.2 else d.2.setEword p.1 d.1

/-- EFLASH_PROGRAM (R507, R508, R510 to R515): `need` is the largest number of pulses that a row needs and `failAt` the first word that does not
verify where that is more than the limit; from it on the words are undefined. `cut`: a brown-out or a watchdog expiry ends it at `failAt`. -/
def execEflashProgram (a : Nat) (data : List Nat) (pulseVerify : Bool) (maxPulses : Nat) (record handler : Bool) (need failAt : Nat) (s : State)
    (cut : Bool := false) : Res :=
  let ws := requestWords a data.length
  if ¬ s.kettleOn then .next s
  else match s.pulseRefused (sectorsOf ws) record handler (rangeOk a data.length) with
    | some k => .next (s.romAnswer k 0 0 noWord)
    | none =>
      let clear := regionOfSector (a / 512) == 1
      let short := fun (x : Nat) => s.incomplete x || (s.untracked x && ws.any fun w => w / 512 == x && s.eword w != erasedWord)
      match (sectorsOf ws).find? short with
      | some x => .next (s.romAnswer 7 0 0 (x * 512))
      | none =>
        let raises (p : Nat × Nat) : Bool :=
          if clear then Nat.land (p.2 % 2 ^ 64) (s.evalue p.1).1 != p.2 % 2 ^ 64 else s.eword p.1 != erasedWord
        match (ws.zip data).find? raises with
        | some p => .next (s.romAnswer 1 0 0 p.1)
        | none =>
          if cut then .next (((ws.zip data).foldl (fun (t : State) p => t.cutProgram clear failAt p) s).romAnswer 3 1 0 failAt)
          else
          let n := pulseLimit pulseVerify maxPulses
          let ok := decide (need ≤ n)
          let put (t : State) (p : Nat × Nat) : State :=
            let v := if ok ∨ p.1 < failAt then p.2 else t.draw.1
            (if ok ∨ p.1 < failAt then t else t.draw.2).programWord clear p.1 v
          let s1 := (ws.zip data).foldl put s
          let s2 := (sectorsOf ws).foldl (fun t x => t.verified x (ok || x != failAt / 512)) s1
          .next (s2.romAnswer (if ok then 0 else 2) (min need n) 0 (if ok then noWord else failAt))

/-- Bad sectors of the bit-clear region other than its spares, in the order in which they went bad, and the spares that are good. Sectors 16 to 41 are the
table's two banks and 47 to 79 the spares: the region's order in Table 19-2 (PRESUMED, log 61). -/
def State.bitBad (s : State) : List Nat := s.eflash.bad.filter fun x => decide (16 ≤ x) && decide (x < 47)
def State.bitSpares (s : State) : Nat := 33 - (s.eflash.bad.filter fun x => decide (47 ≤ x) && decide (x < 80)).length

/-- Spares of the bit-clear region that bad sectors, and past its first 10,816 bits the bank-select chain, leave free. -/
def State.bitFree (s : State) : Nat := s.bitSpares - s.bitBad.length - b2n (10816 < s.eflash.compactions)

/-- A sector of the idle bank is bad with no spare in its place: the live bank is bank c mod 2. -/
def State.idleBad (s : State) : Bool :=
  let lo := if s.eflash.compactions % 2 = 0 then 29 else 16
  (s.bitBad.drop s.bitSpares).any fun x => decide (lo ≤ x) && decide (x < lo + 13)

/-- SECTOR_TABLE_COMPACTION (R512): every sector's state becomes zero erases, or one unmatched begin; the bank select advances. Past the end of the
chain, with no spare left for it or for a bad sector of the idle bank, compaction stops for good and EFLASH_WORN is set. -/
def State.compactTable (s : State) : State :=
  let n := s.eflash.compactions
  if s.eflash.worn then s
  else if 21632 ≤ n ∨ (n = 10816 ∧ s.bitFree = 0) ∨ s.idleBad then
    ({ s with eflash := { s.eflash with worn := true } } : State).err 0x01 0 [12]
  else
    let open1 := (s.eflash.begun.map Prod.fst).filter s.incomplete
    { s with eflash := { s.eflash with
      compactions := n + 1, begun := open1.foldl (fun m x => sput m x 1) [], ended := [] } }

/-- An erase of a sector begins: its 33rd since the last compaction compacts the table first. -/
def State.beginErase (s : State) (x : Nat) : State :=
  let s1 := if sget s.eflash.begun x 0 = 32 then s.compactTable else s
  if sget s1.eflash.begun x 0 = 32 then s1
  else { s1 with eflash := { s1.eflash with begun := sput s1.eflash.begun x (sget s1.eflash.begun x 0 + 1) } }

/-- The words of a sector read erased. -/
def State.wipeSector (s : State) (x : Nat) : State :=
  { s with eflash := { s.eflash with words := sdropRange s.eflash.words (512 * x) (512 * x + 512) } }

/-- An erase of a sector has verified: its count of ends meets its count of begins. -/
def State.endErase (s : State) (x : Nat) : State :=
  let s1 := s.wipeSector x
  { s1 with eflash := { s1.eflash with ended := sput s1.eflash.ended x (sget s1.eflash.begun x 0) } }

/-- EFLASH_ERASE (R510 to R515): `n` sectors from `x` on; `need` is the largest number of pulses that one needs and `failing` the sector that does not
verify where that is more than the limit. `cut`: a brown-out or a watchdog expiry ends it, and its sectors are incomplete (R512, R515, R527). -/
def execEflashErase (x n : Nat) (pulseVerify : Bool) (maxPulses : Nat) (record handler : Bool) (need failing : Nat) (s : State) (cut : Bool := false) : Res :=
  let xs := (List.range n).map (x + ·)
  let good := decide (1 ≤ n) && decide (n ≤ 8) && decide (x + n ≤ 2048) && regionOfSector x == regionOfSector (x + n - 1)
  if ¬ s.kettleOn then .next s
  else match s.pulseRefused xs record handler good with
    | some k => .next (s.romAnswer k 0 0 noWord)
    | none =>
      if cut then .next ((xs.foldl (fun (t : State) y => t.beginErase y) s).romAnswer 3 1 0 (512 * x))
      else
      let lim := pulseLimit pulseVerify maxPulses
      let ok := decide (need ≤ lim)
      let one (t : State) (y : Nat) : State :=
        let t1 := t.beginErase y
        if ok ∨ y ≠ failing then (t1.endErase y).verified y true else t1.verified y false
      .next ((xs.foldl one s).romAnswer (if ok then 0 else 2) (min need lim) 0 (if ok then noWord else 512 * failing))

/-- A word as a blank check reads it: the words of a sector whose last erase is incomplete are undefined. -/
def State.blankWord (s : State) (x w : Nat) : Nat :=
  if s.incomplete (w / 512) then Config.freeValue (s.freeCount + (w - 512 * x)) % 2 ^ 64 else s.eword w

/-- EFLASH_BLANK_CHECK (R510): whether `n` sectors from `x` on read erased. -/
def execEflashBlankCheck (x n : Nat) (s : State) : Res :=
  if ¬ s.kettleOn then .next s
  else if n = 0 ∨ 8 < n ∨ 2048 < x + n ∨ regionOfSector x ≠ regionOfSector (x + n - 1) then .next (s.romAnswer 5 0 0 noWord)
  else if ((List.range n).map (x + ·)).any s.eflash.bad.contains then .next (s.romAnswer 8 0 0 noWord)
  else
    let s1 : State := if ((List.range n).map (x + ·)).any s.incomplete then { s with freeCount := s.freeCount + 512 * n } else s
    match ((List.range (512 * n)).map (512 * x + ·)).find? fun w => s.blankWord x w != erasedWord with
    | some w => .next (s1.romAnswer 2 0 0 w)
    | none => .next (s1.romAnswer 0 0 0 noWord)

/-- Words of one half of the configuration store: 141 sectors. -/
def configHalfWords : Nat := 141 * 512

/-- CONFIG_STORE_COMPACTION (R514): three-quarters of the active half are used; the live records go to the other half, and the old one is erased. -/
def execConfigStoreCompaction (s : State) : Res :=
  if ¬ s.kettleOn ∨ s.power.brownOut ∨ 4 * s.eflash.configUsed < 3 * configHalfWords then .next s
  else .next { s with eflash := { s.eflash with
    configHalf := 1 - s.eflash.configHalf
    configUsed := 16 * (s.eflash.config.length + s.eflash.retirements.length) } }

end Sys2Proof.Machine
end

