-- ==== Sys2Proof/Machine/Recorder.lean ====
section
/-!
DEFINITION. The last-events recorder: acceptance of entries, freezes, the persisted records and their log (18_management_plane.md, R495 to R504,
R528).
-/

namespace Sys2Proof.Machine

/-! ### The ring (R495 to R497) -/

/-- An entry written into the ring: it takes SEQ_NEXT, and the oldest entry is overwritten first. -/
def State.ringWrite (s : State) (e : RecEntry) : State :=
  let q := s.fget rec_SEQ_NEXT 0
  let i := s.fget rec_NEXT_INDEX 0
  let s1 : State := { s with kettle := { s.kettle with ring := sput s.kettle.ring i { e with seq := q } } }
  (((s1.fset rec_NEXT_INDEX 0 ((i + 1) % 8192)).fset rec_SEQ_NEXT 0 ((q + 1) % 2 ^ 32)).count 0x05 0 0 1)

/-- An entry reaches the ring: stored, or counted while the ring is frozen (R498). -/
def State.ringTake (s : State) (e : RecEntry) : State :=
  if s.fget rec_FROZEN 0 = 1 then s.fbump rec_POST_FREEZE 0 1 else s.ringWrite e

/-- An entry that the Kettle writes of itself at the present tick. -/
def State.ringNow (s : State) (c code : Nat) (payload : List Nat) (safety : Bool) : State :=
  s.ringTake { tick := s.tick, cls := c, inst := 0, code := code, payload := payload, ctx := 0xFF, seq := 0, injected := false,
               safety := safety, late := false }

/-- The order in which waiting entries are accepted (R497): oldest tick, class, instance; the order of detection within a page. -/
def RecEntry.before (a b : RecEntry) : Bool :=
  decide (a.tick < b.tick) || (a.tick == b.tick && (decide (a.cls < b.cls) || (a.cls == b.cls && decide (a.inst < b.inst))))

/-- The waiting entry that the Kettle accepts next. -/
def nextEntry : List RecEntry → Option RecEntry
  | [] => none
  | e :: l => match nextEntry l with
    | none => some e
    | some f => if f.before e then some f else some e

/-- An entry put among those that wait, in its place by detection tick. -/
def insertByTick (e : RecEntry) : List RecEntry → List RecEntry
  | [] => [e]
  | x :: l => if e.cls = x.cls ∧ e.inst = x.inst ∧ e.tick < x.tick then e :: x :: l else x :: insertByTick e l

/-- The CORRECTED_DROPPED entry of a page enters its queue where there is room, and its count restarts (R497). -/
def State.enterDropped (s : State) (c i : Nat) : State :=
  let p := pageNo c i
  let n := sget s.kettle.drops p 0
  if n = 0 ∨ 8 ≤ (s.kettle.waiting.filter (RecEntry.ofPage c i)).length then s
  else
    let e : RecEntry := { tick := sget s.kettle.dropTick p 0, cls := c, inst := i, code := 0x0203, payload := le n 4, ctx := 0xFF, seq := 0,
                          injected := false, safety := false, late := false }
    let s1 : State := { s with kettle := { s.kettle with
      waiting := insertByTick e s.kettle.waiting, drops := serase s.kettle.drops p, dropTick := serase s.kettle.dropTick p } }
    s1.err 0x05 0 [10]

/-- RECORDER_ENTRY_ACCEPT (R497): one waiting entry enters the ring, and a drop count of its page its queue. -/
def execRecorderEntryAccept (s : State) : Res :=
  match nextEntry s.kettle.waiting with
  | none => .next s
  | some e =>
    if ¬ s.kettleOn then .next s
    else
      let s1 : State := { s with kettle := { s.kettle with waiting := s.kettle.waiting.eraseP fun x => x == e } }
      .next ((s1.ringTake e).enterDropped e.cls e.inst)

/-! ### Freezes and records (R498, R499) -/

/-- The ring freezes: the 0x0606 entry is its last. -/
def State.freezeRing (s : State) (cause : Nat) : State :=
  let s1 := s.ringNow 0x05 0x0606 [cause] (cause < 6)
  let s2 := ((s1.fset rec_FROZEN 0 1).fset rec_FREEZE_CAUSE 0 cause).fset rec_POST_FREEZE 0 0
  let s3 := (s2.fset64 rec_FREEZE_TICK_LO rec_FREEZE_TICK_HI 0 (s.tick % 2 ^ 64)).count 0x05 0 2 1
  { s3 with kettle := { s3.kettle with freezeDtc := s.time.dtc, persistWait := decide (cause < 6) } }

/-- A freeze cause arises (R498): the first fatal cause during a fatal freeze is kept beside it; a fatal cause during a cause-6 freeze makes the
freeze fatal. -/
def State.freeze (s : State) (cause : Nat) : State :=
  let now := s.fget rec_FREEZE_CAUSE 0
  if s.fget rec_FROZEN 0 = 0 then s.freezeRing cause
  else if now = 6 ∧ cause < 6 then
    let s1 := (s.fset rec_FREEZE_CAUSE 0 cause).fset rec_SECOND_CAUSE 0 6
    { s1 with kettle := { s1.kettle with persistWait := true } }
  else if cause < 6 ∧ s.fget rec_SECOND_CAUSE 0 = 0 then s.fset rec_SECOND_CAUSE 0 cause
  else s

/-- The ring runs again (Table 18-8). -/
def State.unfreeze (s : State) : State :=
  ((s.fset rec_FROZEN 0 0).fset rec_FREEZE_CAUSE 0 0).fset rec_SECOND_CAUSE 0 0

/-- SLOT and RECORD_SEQ fields of a record slot. -/
def rec_SLOT (k : Nat) : Field := if k = 0 then rec_SLOT_A else rec_SLOT_B
def rec_SEQ (k : Nat) : Field := if k = 0 then rec_RECORD_SEQ_A else rec_RECORD_SEQ_B

/-- First sector of a record slot, its sectors, and the first of the record area's 20 spares (Table 19-2). -/
def recSector (k : Nat) : Nat := 1616 + 65 * k

/-- A record slot can be used (R513, R528): the record area's spares replace its bad sectors in the order in which they went bad. -/
def State.slotUsable (s : State) (k : Nat) : Bool :=
  let spares := 20 - (s.eflash.bad.filter fun x => decide (1746 ≤ x) && decide (x < 1766)).length
  let bads := s.eflash.bad.filter fun x => decide (1616 ≤ x) && decide (x < 1746)
  (bads.drop spares).all fun x => !(decide (recSector k ≤ x) && decide (x < recSector k + 65))

/-- The slot that is READY. -/
def State.readySlot (s : State) : Option Nat := (List.range 2).find? fun k => s.fget (rec_SLOT k) 0 == 0 && s.slotUsable k

/-- The values of a Last Events header, in the order of Table 18-9 from ENTRIES to KETTLE_STARTS. -/
def State.recHeader (s : State) (recordSeq : Nat) : List Nat :=
  let q := s.fget rec_SEQ_NEXT 0
  [s.kettle.ring.length, q, s.fget rec_FREEZE_CAUSE 0, s.fget rec_SECOND_CAUSE 0, recordSeq, s.fget64 rec_FREEZE_TICK_LO rec_FREEZE_TICK_HI 0,
   s.kettle.freezeDtc, s.tick, s.time.dtc, s.fget64 rec_DROPPED_LO rec_DROPPED_HI 0, s.fget rec_POST_FREEZE 0, s.kettle.starts]

/-- A persisted freeze's record is written into the READY slot, header last (R499); where the write is cut short the record is PARTIAL; with no slot
READY it is not persisted. -/
def State.persist (s : State) (whole : Bool) : State :=
  if ¬ s.kettle.persistWait then s
  else
    let s0 : State := { s with kettle := { s.kettle with persistWait := false } }
    match s0.readySlot with
    | none => { s0 with kettle := { s0.kettle with notPersisted := true } }
    | some k =>
      if ¬ whole then s0.fset (rec_SLOT k) 0 2
      else
        let q := max (s0.fget (rec_SEQ 0) 0) (s0.fget (rec_SEQ 1) 0) + 1
        let s1 := (s0.fset (rec_SLOT k) 0 1).fset (rec_SEQ k) 0 q
        { s1 with kettle := { s1.kettle with
          records := sput s1.kettle.records k s1.kettle.ring, recordHdr := sput s1.kettle.recordHdr k (s1.recHeader q) } }

/-- Preparation at start-up (R499): the empty or partial slot, or the one with the older record, is erased and READY. -/
def State.prepareSlot (s : State) : State :=
  let st (k : Nat) : Nat := s.fget (rec_SLOT k) 0
  if (s.readySlot).isSome then s
  else
    let useful := (List.range 2).filter s.slotUsable
    let pick := match useful.find? fun k => st k != 1 with
      | some k => some k
      | none => if useful.length = 2 then some (if s.fget (rec_SEQ 0) 0 ≤ s.fget (rec_SEQ 1) 0 then 0 else 1) else none
    match pick with
    | none => s
    | some k =>
      let s1 := (s.fset (rec_SLOT k) 0 0).fset (rec_SEQ k) 0 0
      { s1 with kettle := { s1.kettle with records := serase s1.kettle.records k, recordHdr := serase s1.kettle.recordHdr k } }

/-- The recorder as a Kettle start-up leaves it (R502, R504): what the last freeze left is reported, a slot is prepared, and the ring starts empty. -/
def State.startRecorder (s : State) : State :=
  let partialRec := s.fget (rec_SLOT 0) 0 == 2 || s.fget (rec_SLOT 1) 0 == 2
  let lost := s.kettle.notPersisted || s.kettle.persistWait
  let s1 : State := { s with kettle := { s.kettle with
    ring := [], waiting := [], drops := [], dropTick := [], persistWait := false, notPersisted := false, starts := s.kettle.starts + 1 } }
  let s2 := s1.prepareSlot
  let s3 := if partialRec then s2.err 0x05 0 [8] else s2
  if lost then s3.err 0x05 0 [9] else s3

/-- RECORDER_FREEZE (R498): a cause of Table 18-8 that no other row carries: 4 a start-up that failed, 5 a Kettle self-check that failed. -/
def execRecorderFreeze (cause : Nat) (s : State) : Res :=
  if ¬ s.kettleOn ∨ ¬ (cause = 4 ∨ cause = 5) ∨ (cause = 4 ∧ s.fget (hdr_STATE 0) 0 ≠ 4) then .next s else .next (s.freeze cause)

/-- HOST_FREEZE (R502): the ring freezes with cause 6; ignored while it is frozen. A write that sets UNFREEZE too is ignored as a whole, with
CONFIG_REJECT. -/
def execHostFreeze (both : Bool) (s : State) : Res :=
  if ¬ s.hostUp then .next s
  else if both then .next (s.configReject 0x05 0)
  else if s.fget rec_FROZEN 0 = 1 then .next s
  else .next (s.freeze 6)

/-- UNFREEZE (R502): a cause-6 freeze ends; any other cause ignores it. -/
def execUnfreeze (both : Bool) (s : State) : Res :=
  if ¬ s.hostUp then .next s
  else if both then .next (s.configReject 0x05 0)
  else if s.fget rec_FROZEN 0 = 1 ∧ s.fget rec_FREEZE_CAUSE 0 = 6 then .next s.unfreeze
  else .next s

/-- RECORD_PERSIST (R499, R528): the record of a persisted freeze is written; PARTIAL where power ends first. -/
def execRecordPersist (whole : Bool) (s : State) : Res := .next (s.persist whole)

/-! ### The Last Events log (R500) -/

/-- The bytes of an entry (Table 18-6). -/
def RecEntry.bytes (e : RecEntry) : List Byte :=
  natLE e.tick 8 ++ natLE e.cls 1 ++ natLE e.inst 1 ++ natLE e.code 2 ++ natLE e.seq 4 ++
  ((e.payload ++ List.replicate 12 0).take 12).map (BitVec.ofNat 8) ++ natLE e.ctx 1 ++
  natLE (b2n e.injected + 2 * b2n e.safety + 4 * b2n e.late) 1 ++ natLE 0 2

/-- The entries in ring index order, zeros where none was written. -/
def ringBytes (r : Store RecEntry) : List Byte :=
  (List.range 8192).flatMap fun k => match sget? r k with
    | some e => e.bytes
    | none => List.replicate 32 0

end Sys2Proof.Machine
end

