-- ==== Sys2Proof/Machine/Reset.lean ====
section
/-!
DEFINITION. What each reset leaves of the control and data planes (R20, R49, R78, R95, R135, R275, R393, R464): shared by PERST#, brown-out,
thermal shutdown, watchdog expiry and the Kettle's restarts.
-/

namespace Sys2Proof.Machine

/-! ### Pages (R78, Table 03-8) -/

/-- Pages of some classes at their reset values; HW fields, work counters and the RETIRED state stay (R78). -/
def State.resetPages (s : State) (cs : List Nat) : State :=
  let gone := cs.flatMap fun c => ((List.range (instancesOf c)).filter fun i => s.fget (hdr_STATE c) i == 5).map fun i => (c, i)
  gone.foldl (fun t p => t.fset (hdr_STATE p.1) p.2 5) (cs.foldl (fun t c => t.clearClass c) s)

/-- Classes of the pages outside the management plane. -/
def planeClasses : List Nat :=
  [0x03, 0x04, 0x10, 0x11, 0x12, 0x13, 0x14, 0x15, 0x16, 0x17, 0x18, 0x20, 0x21, 0x22, 0x30, 0x31]

/-- The RW fields whose reset value is loaded, not kept: the preferred PTP port, the sled number from the straps (R539, R544). -/
def State.loadStraps (s : State) : State :=
  ((s.fset eth_PTP_PREF 0 1).fset eth_PTP_PREF 1 0).fset snilo_SLED_ID 0 s.power.straps

/-- The global page's registers of Table 02-8 that a PERST# or a controller reset returns to their reset values (R49): the point and the mode in
force report the device as it stands. -/
def State.resetModes (s : State) : State :=
  let s1 := ((s.fset glob_OP_REQUEST 0 4).fset glob_BOOST_ALLOW 0 1).fset glob_DET_MODE_REQUEST 0 0
  let s2 := (s1.fset glob_ARMED 0 0).fset64 glob_ARM_TICK_LO glob_ARM_TICK_HI 0 0
  let s3 := ((s2.fset64 glob_SLIP_COUNT_LO glob_SLIP_COUNT_HI 0 0).fset glob_SLIP_CP 0 0).fset glob_SLIP_PARTY 0 0
  let s4 := (s3.fset glob_SLIP_INSTANCE 0 0).fset glob_DET_CHANGE_PENDING 0 (s3.fget glob_DET_MODE_EFFECTIVE 0)
  { s4 with arb := { s4.arb with armAt := none } }

/-- The global page at its reset values, the status fields of R49 apart; the time-source request is loaded by variant (R83). -/
def State.resetGlobal (s : State) : State :=
  let keep := [glob_OP_EFFECTIVE, glob_LIMIT_CAUSE, glob_IN_TRANSITION, glob_DET_MODE_EFFECTIVE]
  let s1 := keep.foldl (fun t f => t.fset f 0 (s.fget f 0)) (s.clearPage 0 0)
  let s2 := (s1.fset glob_TIME_SOURCE_REQUEST 0 (if s.variant = .x then 0 else 1)).fset glob_DET_CHANGE_PENDING 0 (s1.fget glob_DET_MODE_EFFECTIVE 0)
  { s2 with arb := { s2.arb with armAt := none } }

/-! ### State outside the pages -/

/-- The host front end with no controller enabled; NVM namespaces and host memory stay (Table 05-3). -/
def State.resetFront (s : State) : State :=
  { s with host := { s.host with
    ctrls := [], sqs := [], cqs := [], intake := [], cpls := [], held := [], irqs := [], aggr := [], aggrTick := []
    namespaces := s.host.namespaces.filter fun p => p.2.kind == .nvm
    numVfs := 0, pci := [], cfgStatus := 0, quota := [], lastFn := 0, lastSq := [], credit := [], burst := 0
    satSince := [], unsatSince := [], sustained := [], lowTries := 0, belowMin := false, linkUp := false, trained := false, width := 0
    psLast := 0, psTarget := none, psEntering := false, psExiting := false, psWake := false, idleSince := s.tick } }

/-- Classes of the management plane's pages (Table 01-3). -/
def manages (c : Nat) : Bool := c == 0x01 || c == 0x02 || c == 0x05

/-- The captures of the management plane's pages that wait, which a reset of the other planes leaves (R20, R73, R74). -/
def State.waitingCaptures (s : State) : Store Nat :=
  match s.reg.snapAll with
  | some t => [(0x0100, t - 1), (0x0200, t - 1), (0x0500, t - 1)]
  | none => s.reg.snapWait.filter fun p => manages (p.1 / 256)

/-- The units and memories of the Hobs and Colanders with nothing in them; rate monitors, remaps, classifications, windows and the remainders of the work counters stay
(R26, R78, R464). -/
def State.resetUnits (s : State) : State :=
  let us := s.units
  { s with
    units := { Units.init with
      lineMap := us.lineMap, lastClean := us.lastClean, sbCorrected := us.sbCorrected, sbDue := us.sbDue, tileRemap := us.tileRemap, rem := us.rem, retiring := us.retiring, classTick := us.classTick
      puuFail := us.puuFail }
    tiers := { s.tiers with
      hbm := Mem.empty, marks := [], heat1 := [], copies := [], period := 0, batches := [], frozen := [] }
    cp := { slots := [], mrs := [], ctxs := [], sems := [], semOwner := [], semPre := [], oldLogs := [], sb := Mem.empty }
    near := Near.init
    snilo := { SniloState.init with gens := s.snilo.gens }
    arb := { waiting := [], lastGrant := [], armAt := none, batches := 0, done := [] }
    reg := { s.reg with
      readData := [], aborted := false, latch := s.reg.latch.filter fun p => manages (p.1 / 2 ^ 20) || p.1 == wordKey 0 0 0x224
      pairLo := [], snapWait := s.waitingCaptures, snapAll := none, inject := [], startTick := [], shadowFaulted := [] } }

/-- The FTL's memory is gone until its next rebuild: domains keep what is published; erases that run leave their blocks DIRTY, and programs run to
their ends (R393, R407, R408). -/
def State.resetFtl (s : State) : State :=
  let erasing := (s.nand.ops.filter fun p => p.2.kind == 2).flatMap fun p => p.2.blocks
  let s1 := erasing.foldl (fun t k => t.setBlock k { t.block k with st := 3 }) s
  { s1 with
    ftl := { s1.ftl with
      ready := false, keysLoaded := [], collecting := [], shedding := none, opalOut := []
      domains := (s1.ftl.domains.filter fun p => p.2.live).map fun p => (p.1, { p.2 with writer := none, hist := [], since := none })
      versions := s1.ftl.versions.filter fun v => v.upto.isNone }
    nand := { s1.nand with ops := [] } }

/-- The staged firmware image and a Host update end with the control plane (R521). -/
def State.dropImage (s : State) : State :=
  let s1 : State := if s.fget glob_UPDATE_OWNER 0 = 2 then s else { s with boot := { s.boot with pieces := [], image := Mem.empty } }
  if s.fget glob_UPDATE_OWNER 0 = 1 then
    ((s1.fset glob_UPDATE_STATE 0 0).fset glob_UPDATE_OWNER 0 0).fset glob_UPDATE_PROGRESS 0 0
  else s1

/-- The fields of a PLDM update, which goes on while the control plane is down (R524), kept over a reset of the global page. -/
def State.keepUpdate (s t : State) : State :=
  [glob_UPDATE_STATE, glob_UPDATE_OWNER, glob_UPDATE_PROGRESS].foldl (fun u f => u.fset f 0 (s.fget f 0)) t

/-- The pages without STATE of their own: they read STARTING until they are usable (R68). -/
def notStarted : List Nat := [0x00, 0x01, 0x02, 0x03, 0x04, 0x05, 0x10, 0x22]

/-- The control and data planes reset (R20): contexts and tasks are gone with their queues, test mode ends (R95), the link and the ports are down, PTM and
PTP are lost, every page outside the management plane is at its reset values (Table 03-8). The staging flush has run before. -/
def State.planeReset (s : State) : State :=
  let s1 := s.dropCtxs.endTest.dropImage
  let s2 := if Sys2Proof.Machine.present s1.variant 0x31 0 then ((s1.losePtm).losePort 0).losePort 1 else s1.losePtm
  let s3 := (s2.resetFront.resetFtl.resetUnits).resetPages planeClasses
  let s4 := (notStarted.filter fun c => !manages c).foldl (fun (t : State) (c : Nat) => (List.range (instancesOf c)).foldl (fun t i => t.fset (hdr_STATE c) i 1) t)
    (s3.keepUpdate s3.resetGlobal).loadStraps
  { s4 with
    power := { s4.power with controlUp := false }
    kettle := { s4.kettle with floorWait := [] }
    time := { s4.time with paused := [] } }

/-- The Kettle's own state as a restart finds it (R20, R464, R490, R504, R532): device time and the tick count start again, the management pages are at
their reset values, and the windows of Table 17-1 count from zero. Ticks that other state holds lie in the past of the new count. -/
def State.kettleReset (s : State) : State :=
  let s1 := notStarted.foldl (fun (t : State) c => (List.range (instancesOf c)).foldl (fun t i => t.fset (hdr_STATE c) i 1) t)
    (((s.resetPages [0x01, 0x02, 0x05]).clearPage 0 0).fset glob_TIME_SOURCE_REQUEST 0 (if s.variant = .x then 0 else 1))
  { s1 with
    tick := 0
    reg := { s1.reg with
      latch := [], emptyWindows := [], windowAt := [] }
    time := TimeState.init
    kettle := { s1.kettle with
      waiting := [], drops := [], dropTick := [], ring := [], sensors := [], failed := [], recal := [], capSum := 0, capCount := 0, capSince := 0
      capChanged := 0, eid := 0, workSeen := s1.kettle.work, lines := [], consts := [], window := [], fresh := [], floorWait := [], sampleTick := 0, sampleDtc := 0, miOut := [], tid := 0, smbusKhz := 100, mtu := 64 }
    power := { s1.power with
      inputMw := [], hobCool := false, op5Since := none, trip := false, clearSince := none, rampTo := none, domUp := [], opHoldUntil := none
      thermalOff := false, ledSince := 0 }
    units := { s1.units with
      sbCorrected := [], puuFail := [], regions := [] }
    tiers := { s1.tiers with corrected := [], decayTick := 0, placeTick := 0 }
    nand := { s1.nand with
      timeouts := [], step6 := [], retrains := [], zq := [], tempTick := [], age := s1.nand.age + s.tick }
    rel := { s1.rel with events := [] }
    host := { s1.host with idleSince := 0 }
    boot := { s1.boot with
      startTick := 0, wdtAt := 1953125, beats := [], pldmSlot := none, pldmBytes := 0, restart := 0, romFault := false, romRecovery := false } }

/-! ### Controllers (R20, R106, R107, R135, R137) -/

/-- A function's queues, commands and controller are gone (R20, R114). -/
def State.resetFn (s : State) (fn : Nat) : State :=
  let mine (k : Nat) : Bool := k / 65536 == fn
  { s with
    host := { s.host with
      ctrls := serase s.host.ctrls fn
      sqs := s.host.sqs.filter fun p => !mine p.1
      cqs := s.host.cqs.filter fun p => !mine p.1
      intake := s.host.intake.filter fun e => e.cmd.fn != fn
      cpls := s.host.cpls.filter fun c => c.cmd.fn != fn
      held := s.host.held.filter fun c => c.cmd.fn != fn
      irqs := s.host.irqs.filter fun p => p.1 != fn
      aggr := s.host.aggr.filter fun p => !mine p.1
      aggrTick := s.host.aggrTick.filter fun p => !mine p.1
      lastSq := s.host.lastSq.filter fun p => p.1 / 8 != fn
      credit := s.host.credit.filter fun p => p.1 / 4 != fn }
    kettle := { s.kettle with floorWait := s.kettle.floorWait.filter fun p => p.1.fn != fn } }

/-- The contexts of a function go with its queues (R20). -/
def State.dropFnCtxs (s : State) (fn : Nat) : State := (s.ctxsOf fn).foldl (fun t c => t.dropCtx c) s

/-- The collections of a function are lost (R338). -/
def State.dropCollections (s : State) (p : Nat → Bool) : State :=
  { s with near := { s.near with collections := s.near.collections.filter fun q => !p (q.1 / 65536) } }

/-- Classes whose units a start-up brings to ON; a Drain follows its Griddle (R219). -/
def startClasses : List Nat := [0x11, 0x12, 0x13, 0x15, 0x16, 0x17, 0x18, 0x20, 0x21, 0x30, 0x31]

/-- A unit that a start-up returns to ON: present and in service, OFF, or FAULTED and not classified as permanently faulty (R78, R465). -/
def State.restarts (s : State) (c i : Nat) : Bool :=
  let st := s.fget (hdr_STATE c) i
  Sys2Proof.Machine.present s.variant c i && s.fget (hdr_IN_SERVICE c) i == 1 &&
  (st == 0 || (st == 4 && !s.units.retiring.contains (if c = 0x11 then i else pageNo c i)))

/-- The units that restart enter STARTING, a FAULTED one from OFF; spares stay OFF (R78). -/
def State.startUnits (s : State) : State :=
  startClasses.foldl (fun (t : State) (c : Nat) => ((List.range (instancesOf c)).filter (s.restarts c)).foldl (fun (t : State) (i : Nat) =>
    ((if t.fget (hdr_STATE c) i = 4 then t.resetUnit c i else t).putControl hdr_ENABLE c i true).toStarting c i) t) s

/-- NVMe controller reset of function 0 (R20, R49, R78, R135, R338, R521): every queue and context, the overload fields and Abort counters, the context
manager's page, the registers of R49, the collections and the staged image; units in service that are OFF or FAULTED start again. DESIGN CHOICE (log
49): OWNER_CONTEXT of the Hob and Colander pages, which contexts share, stays 0xFE, where Table 03-8 read by the letter gives 0xFF. -/
def State.controllerReset (s : State) : State :=
  let fns := (s.host.ctrls.map Prod.fst ++ s.host.sqs.map fun (p : Nat × Sq) => p.1 / 65536).eraseDups
  let s1 := (fns.foldl (fun (t : State) (fn : Nat) => t.resetFn fn) s.dropCtxs).dropCollections fun _ => true
  let s2 : State := { s1 with host := { s1.host with intake := [], satSince := [], unsatSince := [], sustained := [] } }
  let s3 := ((s2.fset front_OVERLOAD_CONTEXT 0 0xFF).fset front_ABORT_CAUGHT 0 0).fset front_ABORT_MISSED 0 0
  let s4 := (s3.clearPage 0x04 0).fset (hdr_STATE 0x04) 0 (s3.fget (hdr_STATE 0x04) 0)
  s4.resetModes.dropImage.startUnits.driveOp

/-- Function-level reset of a function (R20, R78, R137, R338): its queues, contexts, collections and program slots; units in service that are OFF or
FAULTED start again. -/
def State.fnReset (s : State) (fn : Nat) : State :=
  let s1 := (((s.dropFnCtxs fn).resetFn fn).dropCollections fun f => f == fn).startUnits
  { s1 with cp := { s1.cp with
    slots := s1.cp.slots.filter fun p => p.2.owner != fn
    mrs := s1.cp.mrs.filter fun p => p.1 / 65536 != fn } }

end Sys2Proof.Machine
end

