-- ==== Sys2Proof/Machine/Kettle.lean ====
section
/-!
DEFINITION. The Kettle's sensors, thermal limits, power cap and Floor Ratio (18_management_plane.md, R484 to R494; R24 to R29).
-/

namespace Sys2Proof.Machine

/-! ### Sensors (Table 18-2, Table 18-3) -/

/-- Sensor numbers of the variant. -/
def sensorsOf (v : Variant) : List Nat := (List.range 232).filter (sensorExists v)

/-- Trip limit of a class in °C (Table 18-3). -/
def tripLimit (c : Nat) : Option Nat :=
  if c = 0 ∨ c = 1 ∨ c = 4 then some 105 else if c = 3 ∨ c = 6 then some 95 else if c = 5 then some 85 else if c = 7 then some 125 else none

/-- Critical limit of a class in °C (Table 18-3). -/
def criticalLimit (c : Nat) : Option Nat := if c = 2 then some 120 else (tripLimit c).map (· + 10)

/-- The sensors of the same class on the same die or part (R485). -/
def partOf (n : Nat) : List Nat :=
  if n < 16 then List.range 16
  else if n < 32 then (List.range 16).map (16 + ·)
  else if n < 36 then [32, 33, 34, 35]
  else [n]

/-- A sensor has a sample and is not FAILED. -/
def State.sensorGood (s : State) (n : Nat) : Bool := (sget? s.kettle.sensors n).isSome && !s.kettle.failed.contains n

/-- Reading of a sensor. -/
def State.reading (s : State) (n : Nat) : Int := sget s.kettle.sensors n 0

/-- The temperature that the thermal rules take of a sensor, in 1/16 °C: a FAILED one leaves the rules to the others of its part, and where all of
them have failed the part is at its trip limit (R485). -/
def State.thermal (s : State) (n : Nat) : Option Int :=
  if s.sensorGood n then some (s.reading n)
  else if s.kettle.failed.contains n ∧ (partOf n).all s.kettle.failed.contains then
    ((sensorClass n).bind tripLimit).map fun t => (16 * t : Nat)
  else none

/-- The first sensor whose temperature is at or above the limit of its class. -/
def State.sensorAt (s : State) (lim : Nat → Option Nat) : Option Nat :=
  (sensorsOf s.variant).find? fun n => match (sensorClass n).bind lim, s.thermal n with
    | some l, some t => decide (((16 * l : Nat) : Int) ≤ t)
    | _, _ => false

/-- Every sensor reads at least 10 °C below its trip limit (R487, R488). -/
def State.allCool (s : State) : Bool :=
  (sensorsOf s.variant).all fun n => match (sensorClass n).bind tripLimit, s.thermal n with
    | some l, some t => decide (t ≤ ((16 * (l - 10) : Nat) : Int))
    | _, _ => true

/-- Composite Temperature in K, rounded down (R489): the greatest of reading − trip limit + 105 °C over the valid sensors; 0 with none. -/
def State.compositeK (s : State) : Nat :=
  let xs : List Int := (sensorsOf s.variant).filterMap fun n => match (sensorClass n).bind tripLimit with
    | some l => if s.sensorGood n then some (s.reading n - ((16 * l : Nat) : Int) + 1680) else none
    | none => none
  match xs with
  | [] => 0
  | x :: l => ((25 * l.foldl max x + 109260) / 400).toNat

/-- Hottest valid sensor of those listed, in K rounded down; 0 with none (R489). -/
def State.hottestK (s : State) (ns : List Nat) : Nat :=
  match (ns.filter s.sensorGood).map s.reading with
  | [] => 0
  | x :: l => ((25 * l.foldl max x + 109260) / 400).toNat

/-- Temperature Sensor 1 to 8 (R489). -/
def State.sensorK (s : State) (k : Nat) : Nat :=
  let r (a n : Nat) : List Nat := ((List.range n).map (a + ·)).filter (sensorExists s.variant)
  s.hottestK ([r 0 16, r 16 16, r 40 8, r 112 64, r 48 64, r 32 4, [196], [197]].getD (k - 1) [])

/-- Critical Warning bit 1: a temperature is at or beyond a threshold of the function (R489): composite and sensors 1 to 8, over and under. -/
def State.tempWarning (s : State) (fn : Nat) : Bool :=
  (List.range 9).any fun k =>
    let t := if k = 0 then s.compositeK else s.sensorK k
    let upper := s.featureOr fn (0x400 + k) (if k = 0 then 358 else 0xFFFF)
    let under := s.featureOr fn (0x400 + 16 + k) 0
    t != 0 && (decide (upper ≤ t) || decide (t ≤ under))

/-- One sample taken of a sensor (R485): a reading out of range, or a failed self-check, marks it FAILED. DESIGN CHOICE (log 60): a later sample that is in range
and passes ends FAILED; the spec does not say what does. -/
def State.sampleOne (s : State) (x : Nat × Int × Bool) : State :=
  let n := x.1
  if ¬ sensorExists s.variant n then s
  else if x.2.2 then
    { s with kettle := { s.kettle with sensors := sput s.kettle.sensors n x.2.1, failed := s.kettle.failed.filter (· ≠ n) } }
  else if s.kettle.failed.contains n then s
  else
    let s1 : State := { s with kettle := { s.kettle with failed := n :: s.kettle.failed } }
    ((s1.err 0x01 0 [8] n).recEv 0x01 0 0x0603 [n]).pldmEvent [4, n]

/-! ### Energy and the Floor Ratio (R24 to R29, R493) -/

/-- Sums added. -/
def FloorSums.add (a b : FloorSums) : FloorSums :=
  { mac8 := a.mac8 + b.mac8, mac4 := a.mac4 + b.mac4, macB := a.macB + b.macB, nand := a.nand + b.nand, link := a.link + b.link
    measured := a.measured + b.measured, input := a.input + b.input, invalid := a.invalid || b.invalid }

/-- E_floor in fJ from the constants 8×8, 4×8, NAND byte and link byte; that of BF16 is four times the 8×8 constant (R24, Table 01-9). -/
def FloorSums.floor (k : List Nat) (x : FloorSums) : Nat :=
  k.getD 0 0 * x.mac8 + k.getD 1 0 * x.mac4 + 4 * k.getD 0 0 * x.macB + k.getD 2 0 * x.nand + k.getD 3 0 * x.link

/-- Work counted for account `c` since the last sample. -/
def State.newWork (s : State) (c item : Nat) : Nat := sget s.kettle.work (256 * c + item) 0 - sget s.kettle.workSeen (256 * c + item) 0

/-- Floor class of a format code (Table 01-9): 0 8×8, 1 4×8, 2 BF16. -/
def floorClass (f : Nat) : Nat := if f = 8 ∨ f = 9 then 1 else if f = 10 then 2 else 0

/-- Work of an account since the last sample, as sums. -/
def State.workSums (s : State) (c : Nat) : FloorSums :=
  let macs (k : Nat) : Nat := (((List.range 16).filter fun f => floorClass f == k).map fun f => s.newWork c f).sum
  { FloorSums.zero with mac8 := macs 0, mac4 := macs 1, macB := macs 2, nand := s.newWork c 16, link := s.newWork c 17 }

/-- The data-plane rail monitors (Table 18-2). -/
def rails : List Nat := (List.range 24).map (208 + ·)

/-- Some rail monitor is failed or recalibrates (R485). -/
def State.railInvalid (s : State) : Bool := rails.any fun n => s.kettle.failed.contains n || (sget? s.kettle.recal n).isSome

/-- Energy of a rail over the sample period in fJ (R27): 100 mW over 65.536 µs is 6,553,600,000 fJ; less the static energy, clamped at zero. -/
def State.railEnergy (s : State) (n : Nat) : Nat :=
  if ¬ s.sensorGood n then 0
  else (s.reading n).toNat * 6553600000 - Config.staticEnergy n (s.fget glob_OP_EFFECTIVE 0) ((List.range 198).map s.reading) (sget s.kettle.railIdle n 0)

/-- Share of account `c` in the rails' energy by the handshakes it made on each in this period; what division leaves, and all of a rail with no
handshake, is the background's (R28). -/
def State.energyOf (s : State) (hs : List (Nat × Nat × Nat)) (c : Nat) : Nat :=
  (rails.map fun n =>
    let here := hs.filter fun h => h.1 == n
    let all := (here.map fun h => h.2.2).sum
    let mine := ((here.filter fun h => h.2.1 == c).map fun h => h.2.2).sum
    if all = 0 then 0 else s.railEnergy n * mine / all).sum

/-- A line takes the sums of a period that ends now. -/
def FloorLine.take (l : FloorLine) (x : FloorSums) (now : Nat) : FloorLine := { l with sums := l.sums.add x, stop := now }

/-- A line that starts. -/
def FloorLine.new (kind start : Nat) (test : Bool) (owner : Nat := 0) : FloorLine :=
  { kind := kind, owner := owner, isOpen := true, torn := false, test := test, start := start, stop := start, sums := FloorSums.zero }

/-- The line of context `c` at a sample boundary (R29, R493): started with the period in which the context was created, frozen once it is torn
down. -/
def State.contextLine (s : State) (prev : Nat) (x : FloorSums) (c : Nat) (lines : Store FloorLine) : Store FloorLine :=
  let born : Bool × Nat := match s.ctx? c with
    | some y => (y.test, y.req.fn)
    | none => (false, ((sget? s.cp.oldLogs c).map (·.owner)).getD 0)
  let l0 := if s.kettle.fresh.contains c then some (FloorLine.new 5 prev born.1 born.2)
    else sget? lines (4 + c)
  match l0 with
  | none => lines
  | some l =>
    if l.torn then lines
    else sput lines (4 + c) { l.take x s.tick with torn := (s.ctx? c).isNone, isOpen := (s.ctx? c).isSome }

/-- The lines take the work and the energy of the period that ends at this boundary (R493); `inv`, a rail monitor was failed or recalibrated in it. -/
def State.sampleLines (s : State) (hs : List (Nat × Nat × Nat)) (inv : Bool) : State :=
  let k := s.kettle
  let ctxs := List.range 64
  let own (c : Nat) : FloorSums := { s.workSums c with measured := s.energyOf hs c, invalid := inv }
  let total := (rails.map s.railEnergy).sum
  let shared := (ctxs.map fun c => s.energyOf hs c).sum
  let back : FloorSums := { s.workSums 64 with measured := total - shared, invalid := inv }
  let input := (sget k.sensors 202 0).toNat * 65536
  let work := (ctxs.foldl (fun (a : FloorSums) (c : Nat) => a.add (s.workSums c)) (s.workSums 64)).add (s.workSums 65)
  let dev : FloorSums := { work with measured := total, input := input, invalid := inv }
  let now := s.tick
  let device := (sget k.lines 0 (FloorLine.new 1 k.sampleTick false)).take dev now
  let host := (sget? k.lines 2).map fun (l : FloorLine) => if l.isOpen then l.take dev now else l
  let bg := (sget k.lines 3 (FloorLine.new 4 k.sampleTick false)).take back now
  let l1 := sput (sput k.lines 0 device) 3 bg
  let l2 := match host with
    | some h => sput l1 2 h
    | none => l1
  let lines := ctxs.foldl (fun (ls : Store FloorLine) (c : Nat) => s.contextLine k.sampleTick (own c) c ls) l2
  { s with kettle := { k with
    lines := lines, window := (dev :: k.window).take 15259, workSeen := k.work, fresh := [], sampleTick := now, sampleDtc := s.time.dtc } }

/-- The sliding window as a line (R493). -/
def Kettle.windowLine (k : Kettle) : FloorLine :=
  { FloorLine.new 2 (k.sampleTick - 64 * k.window.length) false with
    stop := k.sampleTick, sums := k.window.foldl FloorSums.add FloorSums.zero }

/-- RATIO (R493): one rounding of the exact quotient. -/
def FloorSums.ratio (k : List Nat) (x : FloorSums) : Nat :=
  if x.floor k = 0 then 0 else enc32 (.fin false x.measured (x.floor k))

/-- A line's 128 bytes (Table 18-5). -/
def FloorLine.bytes (l : FloorLine) (k : List Nat) (ctx : Nat) (device : Bool) : List Byte :=
  let x := l.sums
  natLE l.kind 1 ++ natLE ctx 1 ++
  natLE (b2n (x.floor k == 0) + 2 * b2n x.invalid + 4 * b2n l.isOpen + 8 * b2n l.torn + 16 * b2n l.test) 2 ++
  natLE (x.ratio k) 4 ++ natLE l.start 8 ++ natLE l.stop 8 ++ natLE (x.mac8 / 2 ^ 20) 8 ++ natLE (x.mac4 / 2 ^ 20) 8 ++ natLE (x.macB / 2 ^ 20) 8 ++
  natLE (x.nand / 4096) 8 ++ natLE (x.link / 4096) 8 ++ natLE (x.floor k / 1000000000) 8 ++ natLE (x.measured / 1000000000) 8 ++
  natLE (if device then x.input / 10000 else 0) 8 ++ List.replicate 40 0

/-- A line of the log: zeros where it is unused, or where the function may not read it: a virtual function reads the lines of its own contexts, torn down
or not (R29, R132). -/
def State.floorLine (s : State) (fn n : Nat) : List Byte :=
  let l := if n = 1 then (if s.kettle.window = [] then none else some s.kettle.windowLine) else sget? s.kettle.lines n
  match l with
  | some x => if fn = 0 ∨ (4 ≤ n ∧ x.owner = fn) then x.bytes s.kettle.consts (if 4 ≤ n then n - 4 else 0xFF) (decide (n < 3)) else List.replicate 128 0
  | none => List.replicate 128 0

/-- The Floor Ratio log (R492, Table 18-4), as a function may read it. -/
def State.floorLog (s : State) (fn : Nat) : List Byte :=
  let hostOpen := match sget? s.kettle.lines 2 with
    | some l => l.isOpen
    | none => false
  natLE 1 2 ++ natLE 68 1 ++ natLE (b2n hostOpen) 1 ++ natLE 65536 4 ++ natLE s.kettle.sampleTick 8 ++
  dtcBytes s.kettle.sampleDtc ++ List.replicate 4 0 ++ (List.range 4).flatMap (fun i => natLE (s.kettle.consts.getD i 0) 4) ++ List.replicate 208 0 ++
  (List.range 68).flatMap (s.floorLine fn) ++ List.replicate 7424 0

/-- `n` bytes of a log from an offset: zeros beyond its end (R131). -/
def logSlice (log : List Byte) (off n : Nat) : List Byte :=
  let d := (log.drop off).take n
  d ++ List.replicate (n - d.length) 0

/-- A Get Log Page that waited for this boundary opens or closes the host interval and completes (R494). -/
def State.floorAnswer (s : State) (w : CmdId × Bool × Nat × Nat) : State :=
  let lines := if w.2.1 then sput s.kettle.lines 2 (FloorLine.new 3 s.tick false)
    else match sget? s.kettle.lines 2 with
      | some l => sput s.kettle.lines 2 { l with isOpen := false }
      | none => s.kettle.lines
  let s1 : State := { s with kettle := { s.kettle with lines := lines } }
  s1.succeed w.1 0 (logSlice (s1.floorLog w.1.fn) w.2.2.1 w.2.2.2)

/-! ### Thermal trip and shutdown (R487, R488) -/

/-- A thermal trip (R487): towards OP0, pre-empting a ramp. -/
def State.thermalTrip (s : State) (n : Nat) : State :=
  let s1 : State := { s with power := { s.power with trip := true } }
  let s2 := ((s1.fset kettle_THERMAL_CEILING 0 0).fset kettle_TRIP_SENSOR 0 n).fbump kettle_TRIP_COUNT 0 1
  (((s2.err 0x01 0 [9] n).recEv 0x01 0 0x0600 ([n, 1] ++ le (unsigned ((s.thermal n).getD 0) 16) 2) 0xFF false true).pldmEvent [5, n, 1]).driveOp

/-- A thermal shutdown (R488): the compute rails, those of the Hobs' arrays and SRAM, are cut, staging is flushed, the recorder freezes and is persisted,
and the planes are held in reset. -/
def State.thermalShutdown (s : State) (n : Nat) : State :=
  let s1 := ((s.stopRamp.powerDown [2, 3, 4, 5]).fbump kettle_SHUTDOWN_COUNT 0 1).err 0x01 0 [10] n
  let s2 := (s1.ringNow 0x01 0x0601 ([n, 0] ++ le (unsigned ((s.thermal n).getD 0) 16) 2) true).pldmEvent [5, n, 2]
  let s3 := ((if s2.planesOn then s2.stagingFlush else s2).freeze 3).persist true
  let s4 := s3.planeReset
  { s4.fset glob_OP_EFFECTIVE 0 0 with power := { s4.power with thermalOff := true } }

/-- Functions with a controller that serves commands. -/
def State.liveFns (s : State) : List Nat := (s.host.ctrls.filter fun p => p.2.rdy).map Prod.fst

/-- What a boundary finds of the temperatures: the composite, the conditions of OP5, the trip and the critical limits (R37, R485 to R489). -/
def State.checkThermal (s : State) : State :=
  let k := s.compositeK
  let cool := (List.range 32).all fun n => match s.thermal n with
    | some t => decide (t < 1360)
    | none => s.kettle.failed.contains n
  let s1 : State := { s.fset kettle_COMPOSITE_K 0 k with power := { s.power with
    hobCool := cool, clearSince := if s.allCool then (if s.power.clearSince.isSome then s.power.clearSince else some s.tick) else none } }
  let s2 := match s1.sensorAt tripLimit with
    | some n => if s1.power.trip then s1 else s1.thermalTrip n
    | none => s1
  let s3 := s2.fset kettle_THERMAL_STATE 0 (if s2.power.trip then 2 else if 358 ≤ k then 1 else 0)
  let s4 := (s3.trackOp5).driveOp
  let s5 := s4.liveFns.foldl (fun (t : State) (fn : Nat) => if t.tempWarning fn then t.aerWarn fn 1 else t) s4
  match s5.sensorAt criticalLimit with
  | some n => if s5.power.thermalOff then s5 else s5.thermalShutdown n
  | none => s5

/-- The samples of one boundary, the energy at the input and the rails' idle measurements (R27, R485, R501). -/
def State.takeSamples (s : State) (vals : List (Nat × Int × Bool)) (idle : List Nat) : State :=
  let s1 := vals.foldl State.sampleOne s
  let mw := (s1.reading 202).toNat * 100
  let s2 := (s1.fset kettle_INPUT_MV 0 (s1.reading 200).toNat).fset kettle_INPUT_10MA 0 (s1.reading 201).toNat
  let hot : Nat := 64
  { s2 with
    power := { s2.power with inputMw := (mw :: s2.power.inputMw).take 15259 }
    kettle := { s2.kettle with
      capSum := s2.kettle.capSum + mw, capCount := s2.kettle.capCount + 1
      recal := s2.kettle.recal.filter fun p => decide (s2.tick < p.2)
      railIdle := (idle.filter fun n => rails.contains n && s2.sensorGood n).foldl (fun (m : Store Nat) (n : Nat) => sput m n (s2.reading n).toNat)
        s2.kettle.railIdle
      smart :=
        let c := s2.compositeK
        let m := if 358 ≤ c ∧ c < 378 then sput s2.kettle.smart 7 (sget s2.kettle.smart 7 0 + hot) else s2.kettle.smart
        if 378 ≤ c then sput m 8 (sget m 8 0 + hot) else m } }

/-- SENSOR_SAMPLE (R485): at the end of each 64 ticks every sensor is sampled (number, reading in the unit of R484, whether it is in range
and passes its self-check; a sensor not listed reads as before), the energy of the period is integrated and divided by the
handshakes made (rail, context or 64, count), rails idle for 1 ms are measured, and the limits act. -/
def execSensorSample (vals : List (Nat × Int × Bool)) (hs : List (Nat × Nat × Nat)) (idle : List Nat) (s : State) : Res :=
  if ¬ s.kettleOn ∨ s.tick < s.kettle.sampleTick + 64 then .next s
  else
    let s1 := s.takeSamples vals idle
    let s2 := (s1.countUnits 0x01 0 0 ((s1.reading 202).toNat * 65536) 10000000).countUnits 0x01 0 1 ((rails.map s1.railEnergy).sum) 1000000000000
    let s3 := s2.sampleLines hs (s.railInvalid || s1.railInvalid)
    let s4 := s3.kettle.floorWait.foldl State.floorAnswer s3
    .next ({ s4 with kettle := { s4.kettle with floorWait := [] } } : State).checkThermal

/-- RAIL_MONITOR_RECALIBRATE (R485): a rail monitor recalibrates for two sample periods. -/
def execRailMonitorRecalibrate (n : Nat) (s : State) : Res :=
  if ¬ s.kettleOn ∨ ¬ rails.contains n then .next s
  else .next { s with kettle := { s.kettle with recal := sput s.kettle.recal n (s.tick + 128) } }

/-- THERMAL_TRIP_CLEAR (R487): every sensor has read 10 °C below its trip limit for 1 s; the operating point returns to the request under the
limits that remain. -/
def execThermalTripClear (s : State) : Res :=
  match s.power.clearSince with
  | none => .next s
  | some t =>
    if ¬ s.power.trip ∨ s.tick < t + ticksMs 1000 then .next s
    else
      let n := s.fget kettle_TRIP_SENSOR 0
      let s1 : State := { s with power := { s.power with trip := false } }
      let s2 := (s1.fset kettle_THERMAL_CEILING 0 5).fset kettle_THERMAL_STATE 0 (if 358 ≤ s.fget kettle_COMPOSITE_K 0 then 1 else 0)
      .next ((s2.recEv 0x01 0 0x0600 ([n, 0] ++ le (unsigned ((s.thermal n).getD 0) 16) 2) 0xFF false true).pldmEvent [5, n, 0]).driveOp

/-! ### The power cap (R490, R491) -/

/-- Input power of W1 at each operating point in W (R491). -/
def capTable : List Nat := [620, 765, 920, 1100, 1310, 1850]

/-- POWER_CAP takes a value (R490, R491): 0 removes the ceiling at once; a cap set where none was starts at ceiling 5 with a new window. -/
def State.setCap (s : State) (v : Nat) : State :=
  let s1 := s.fset kettle_POWER_CAP 0 v
  if v = 0 then ((s1.fset kettle_CAP_CEILING 0 5).fset kettle_CAP_UNMET 0 0).driveOp
  else if s.fget kettle_POWER_CAP 0 = 0 then
    let s2 := (s1.fset kettle_CAP_CEILING 0 5).fset kettle_CAP_UNMET 0 0
    ({ s2 with kettle := { s2.kettle with capSum := 0, capCount := 0, capSince := s.tick, capChanged := s.tick } } : State).driveOp
  else s1

/-- A value that POWER_CAP admits (R490). -/
def capOk (v : Nat) : Bool := v == 0 || (decide (400 ≤ v) && decide (v ≤ 2000))

/-- POWER_CAP_WRITE (R490): through the Kettle page, or as the PLDM effecter (`pldm`), whose refusal is the completion code
ERROR_INVALID_DATA and sets no CONFIG_REJECT. -/
def execPowerCapWrite (v : Nat) (pldm : Bool) (s : State) : Res :=
  if ¬ s.kettleOn ∨ (¬ pldm ∧ ¬ s.hostUp) then .next s
  else if capOk v then
    (if pldm then
      let t := s.setCap v
      .next { t with kettle := { t.kettle with mctpOut := t.kettle.mctpOut ++ [[0]] } }
    else .next (s.setCap v))
  else if pldm then .next { s with kettle := { s.kettle with mctpOut := s.kettle.mctpOut ++ [[2]] } }
  else .next (s.configReject 0x01 0)

/-- The cap ceiling takes a value: a recorder entry where it changes (Table 18-7). -/
def State.setCeiling (s : State) (p unmet : Nat) : State :=
  let s1 := (s.fset kettle_CAP_CEILING 0 p).fset kettle_CAP_UNMET 0 unmet
  let s2 := s1.recEv 0x01 0 0x0602 ([p, unmet] ++ le (s.fget kettle_POWER_CAP 0) 2)
  { s2 with kettle := { s2.kettle with capChanged := if p = s.fget kettle_CAP_CEILING 0 then s2.kettle.capChanged else s.tick } }

/-- POWER_CAP_WINDOW (R491): a window of 100 ms of device time ends. -/
def execPowerCapWindow (s : State) : Res :=
  if ¬ s.kettleOn ∨ s.kettle.capCount = 0 ∨ s.tick < s.kettle.capSince + ticksMs 100 then .next s
  else
    let a100 := s.kettle.capSum / s.kettle.capCount
    let l := s.power.inputMw
    let s1 : State := { s.fset kettle_INPUT_MW 0 a100 with kettle := { s.kettle with capSum := 0, capCount := 0, capSince := s.tick } }
    let cap := s.fget kettle_POWER_CAP 0
    let p := s.fget kettle_CAP_CEILING 0
    if cap = 0 then .next s1
    else if cap * 1000 * s.kettle.capCount < s.kettle.capSum then
      (if 0 < p then .next (s1.setCeiling (p - 1) (s.fget kettle_CAP_UNMET 0)).driveOp
       else if s.fget kettle_CAP_UNMET 0 = 1 then .next s1
       else .next ((s1.setCeiling 0 1).err 0x01 0 [11]))
    else if s.kettle.capChanged + ticksMs 1000 ≤ s.tick ∧ p < 5 ∧ l ≠ [] ∧
        l.sum * capTable.getD (p + 1) 0 * 100 ≤ 95 * cap * 1000 * l.length * capTable.getD p 1 then
      .next (s1.setCeiling (p + 1) 0).driveOp
    else .next s1

end Sys2Proof.Machine
end

