-- ==== Sys2Proof/Machine/Start.lean ====
section
/-!
DEFINITION. Power, start-up, brown-out, PERST# and the watchdog (19_embedded_flash_and_boot.md R518 to R529; 21_physical_and_electrical.md R562 to
R572; R20, R52, R82, R480, R488, R504).
-/

namespace Sys2Proof.Machine

/-! ### Firmware slots (R516, R518, R523) -/

/-- A firmware slot: 1 A, 2 B. -/
def State.fwSlot (s : State) (k : Nat) : FwSlot := if k = 1 then s.boot.slotA else s.boot.slotB

/-- `s` with a firmware slot replaced. -/
def State.setFwSlot (s : State) (k : Nat) (x : FwSlot) : State :=
  if k = 1 then { s with boot := { s.boot with slotA := x } } else { s with boot := { s.boot with slotB := x } }

/-- A slot's event happens (R518). -/
def State.slotEvent (s : State) (k b : Nat) : State := s.setFwSlot k { s.fwSlot k with events := setBit (s.fwSlot k).events b }

/-- Events of R518. -/
def FwSlot.committed (x : FwSlot) : Bool := bit x.events 1
def FwSlot.active (x : FwSlot) : Bool := bit x.events 2
def FwSlot.confirmed (x : FwSlot) : Bool := bit x.events 6
def FwSlot.failed (x : FwSlot) : Bool := bit x.events 7

/-- A candidate: complete, committed, neither failed nor superseded (R518). -/
def FwSlot.candidate (x : FwSlot) : Bool := x.stateComplete && x.committed && !x.failed && !bit x.events 8

/-- The highest generation among slots. -/
def State.newestSlot (s : State) (ks : List Nat) : Option Nat :=
  ks.foldl (fun (o : Option Nat) (k : Nat) => match o with
    | some j => if (s.fwSlot j).gen < (s.fwSlot k).gen then some k else some j
    | none => some k) none

/-- The slot that R518 picks. -/
def State.pickSlot (s : State) : Option Nat :=
  let cand := [1, 2].filter fun k => (s.fwSlot k).candidate
  let act := cand.filter fun k => (s.fwSlot k).active
  s.newestSlot (if act = [] then cand else act)

/-- A package may run: its digests and signature hold, its root key is not revoked, its SVN is not below the counter (R516, R518). -/
def State.slotRuns (s : State) (k : Nat) : Bool :=
  (s.fwSlot k).valid && !bit s.boot.rootRevoked (s.fwSlot k).root && decide (s.boot.svn ≤ (s.fwSlot k).svn)

/-- The selection of R518: each turn that starts over has marked a slot FAILED. -/
def State.selectSlot (s : State) : Nat → Option Nat × State
  | 0 => (none, s)
  | n + 1 =>
    match s.pickSlot with
    | none => (none, s)
    | some k =>
      let x := s.fwSlot k
      if ¬ x.confirmed ∧ bit x.events 5 then (s.slotEvent k 7).selectSlot n
      else
        let s1 := if x.confirmed then s else s.slotEvent k (if ¬ bit x.events 3 then 3 else if ¬ bit x.events 4 then 4 else 5)
        if s1.slotRuns k then (some k, s1) else (s1.slotEvent k 7).selectSlot n

/-- The slot that is pending: ACTIVATE set, CONFIRMED clear, and a candidate that does not run (R523). -/
def State.pendingSlot (s : State) : Option Nat :=
  s.newestSlot ([1, 2].filter fun k => (s.fwSlot k).candidate && (s.fwSlot k).active && !(s.fwSlot k).confirmed && k != s.boot.runSlot)

/-- The boot and firmware registers of the global page as the state stands (Table 19-9). -/
def State.showBoot (s : State) : State :=
  let usable := ((List.range 4).filter fun i => match sget? s.boot.keys i with
    | some k => !bit (sget s.boot.keyRevoked i 0) k.1
    | none => false).foldl (fun (a i : Nat) => a + 2 ^ i) 0
  let s1 := ((s.fset glob_RUN_SLOT 0 s.boot.runSlot).fset glob_PENDING_SLOT 0 (s.pendingSlot.getD 0)).fset glob_FALLBACK 0 (b2n s.boot.fallback)
  let s2 := ((s1.fset glob_WDT_EXPIRIES 0 (min s.boot.wdtExpiries 65535)).fset glob_SVN 0 s.boot.svn).fset glob_KEY_VALID 0 usable
  let s3 := (s2.fset glob_ROOT_KEY 0 (if s.boot.runSlot = 0 then 0 else (s.fwSlot s.boot.runSlot).root)).fset glob_ROOT_REVOKED 0 s.boot.rootRevoked
  s3.fset glob_BAD_SECTORS 0 s.eflash.bad.length

/-- The slot that this start-up runs is selected (R518). -/
def State.chooseSlot (s : State) : State :=
  let first := s.pickSlot
  let r := s.selectSlot 3
  let s1 := r.2
  { s1 with boot := { s1.boot with
    runSlot := r.1.getD 0, fallback := r.1.isSome && r.1 != first, romRecovery := r.1.isNone } }

/-! ### Start-up (R52, R425, R480, R504, R519, R568) -/

/-- A retirement that the recorder held during a brown-out takes effect, its entry marked PERSISTED_LATE (Table 17-8). -/
def State.applyHeld (s : State) (h : Nat × Nat × Nat × Nat) : State :=
  let s1 : State := { s with eflash := { s.eflash with
    retirements := s.eflash.retirements ++ [(h.1, h.2.1, h.2.2.1)], configUsed := s.eflash.configUsed + 16, configSeq := s.eflash.configSeq + 1 } }
  (s1.err h.1 h.2.1 [4]).recPush
    { tick := h.2.2.2, cls := h.1, inst := h.2.1, code := 0x0608, payload := [h.1, h.2.1] ++ le h.2.2.1 2, ctx := 0xFF, seq := 0, injected := false,
      safety := false, late := true }

/-- The hold-up bank is tested (R568, R88). -/
def State.testBank (s : State) (uf : Nat) (charged : Bool) : State :=
  let bad := decide (uf < 7400) || !charged
  let s1 : State := { s with power := { s.power with bankFailed := bad } }
  if bad ∧ s.fget glob_MEDIA_MODE 0 = 0 then s1.setMedia 1 3
  else if ¬ bad ∧ s.fget glob_MEDIA_MODE 0 = 1 ∧ s.fget glob_MEDIA_CAUSE 0 = 3 then s1.setMedia 0 0
  else s1

/-- Steps 1 to 5 of Table 19-7: the Kettle starts, and the floor constants are read from the factory row (R25). A ROM fault stops it, and with no candidate
slot it stays in ROM recovery (R520). A dip of the input during inrush (1) stops the start-up, which runs again from step 1; a brown-out during the hold-up test
stops the test alone (R572). -/
def State.startKettle (s : State) (inp : StartInput) : State :=
  let s0 := s.kettleReset
  let s1 := ({ s0 with power := { s0.power with straps := inp.straps % 32768 } } : State).loadStraps
  if inp.romFault then
    let s2 := (s1.freeze 5).persist true
    { s2 with power := { s2.power with kettleUp := false }, boot := { s2.boot with romFault := true } }
  else
    let s2 := s1.chooseSlot
    if s2.boot.romRecovery ∨ inp.dip = 1 then { s2 with power := { s2.power with kettleUp := false } }
    else
      let s3 : State := { s2 with
        power := { s2.power with kettleUp := true }
        boot := { s2.boot with beats := [(0, 0)] }
        kettle := { s2.kettle with
          recal := rails.map fun n => (n, 128)
          consts := [4, 5, 6, 7].map s2.eword } }
      let s4 := ((s3.startRecorder).takeSamples inp.vals []).checkThermal
      let s5 := s4.eflash.held.foldl State.applyHeld s4
      let s6 := ((s5.fset (hdr_STATE 0x01) 0 2).fset (hdr_STATE 0x02) 0 2).fset (hdr_STATE 0x05) 0 2
      let s7 : State := { s6 with eflash := { s6.eflash with held := [] } }
      if 2 ≤ inp.dip then s7 else s7.testBank inp.bankUf inp.charged

/-- The control plane is released: steps 6 to 9 of Table 19-7, and step 10 follows as MEDIA_READY. A component that fails its digest fails the slot and
asks for a planned restart; a plane that cannot be brought up leaves global STATE FAULTED, which the register function shows (R68, R520): the front end is
taken to answer (DESIGN CHOICE, log 32). Freezes that end here end (Table 18-8). -/
def State.startControl (s : State) (cause : Nat) (bad fails : Bool) : State :=
  let fc := s.fget rec_FREEZE_CAUSE 0
  let s0 := if fc = 2 ∨ fc = 3 ∨ fc = 4 then s.unfreeze else s
  let s1 := (({ s0 with boot := { s0.boot with startTick := s0.tick } } : State).fset glob_RESET_CAUSE 0 cause).showBoot
  if bad then
    let s2 := s1.slotEvent s1.boot.runSlot 7
    ({ s2 with boot := { s2.boot with restart := 5 } } : State).fset glob_BOOT_STAGE 0 0x0020
  else if fails then
    let s2 := (((s1.powerUp (if (sget? s1.power.domUp 1).isSome then [] else [1])).fset (hdr_STATE 0) 0 4).fset (hdr_STATE 0x03) 0 2)
    { s2.fset glob_BOOT_STAGE 0 0x0021 with power := { s2.power with controlUp := true } }
  else
    let s2 : State := { s1 with
      power := { s1.power with controlUp := true }
      boot := { s1.boot with beats := (List.range 17).foldl (fun (m : Store Nat) (k : Nat) => sput m (k + 1) s1.tick) s1.boot.beats } }
    let s3 := [0x03, 0x04, 0x10].foldl (fun (t : State) (c : Nat) =>
      (List.range (instancesOf c)).foldl (fun (t : State) (i : Nat) => t.fset (hdr_STATE c) i 2) t) s2
    let s4 := (((s3.fset (hdr_STATE 0) 0 1).fset (hdr_STATE 0x22) 0 1).fset glob_BOOT_STAGE 0 0x0040).fset ftl_REBUILD_STATE 0 1
    s4.bringUp.rebuildDevice.startUnits.driveOp

/-- The brown-out sequence of R567, whose record write runs to its end where `whole`. An unsafe shutdown is counted where no shutdown
notification had completed (R131). -/
def State.brownOutSeq (s : State) (mv : Nat) (whole : Bool) : State :=
  if ¬ s.power.kettleUp ∨ s.power.brownOut then s
  else
    let c := s.ctrl 0
    let s1 := if c.en ∧ c.shst ≠ 2 then s.smartAdd 6 1 else s
    let s0 := s1.stopRamp.powerDown [2, 3, 4, 5]
    let s2 : State := { s0 with power := { s0.power with brownOut := true } }
    let s3 := s2.ringNow 0x01 0x0604 ([1] ++ le (mv / 10) 2) true
    let s4 := ((if s3.power.controlUp then s3.stagingFlush else s3).freeze 2).persist whole
    ((s4.planeReset).fset glob_OP_EFFECTIVE 0 0).fset glob_LIMIT_CAUSE 0 1

/-- A whole start-up of the module (R519): the control plane is released unless the Kettle did not start, its first samples shut it down, or a
brown-out came (R572) or lasts. -/
def State.startUp (s : State) (cause : Nat) (inp : StartInput) : State :=
  let s0 := s.startKettle inp
  let s1 := if 2 ≤ inp.dip then s0.brownOutSeq inp.dip true else s0
  if s1.power.kettleUp ∧ ¬ s1.power.thermalOff ∧ ¬ s1.power.brownOut then s1.startControl cause inp.badComponent inp.startFails
  else s1.fset glob_RESET_CAUSE 0 cause

/-- POWER_ON_START (R519, R566): the input is in its operating range behind a closed switch; the start-up runs from step 1. -/
def execPowerOnStart (inp : StartInput) (s : State) : Res :=
  if ¬ s.power.switchClosed ∨ s.power.kettleUp ∨ s.boot.romRecovery then .next s
  else .next (s.startUp 0 inp |>.smartAdd 5 1)

/-- INPUT_SWITCH_CLOSE (R562): PRSNT_B# has read low for 100 ms. -/
def execInputSwitchClose (s : State) : Res :=
  .next { s with power := { s.power with seated := true, switchClosed := true } }

/-! ### Brown-out (R82, R442, R562, R565, R567) -/

/-- BROWN_OUT (R567): the input, in mV, is below 44.0 V for more than 20 µs. -/
def execBrownOut (mv : Nat) (whole : Bool) (s : State) : Res :=
  if 44000 ≤ mv then .next s else .next (s.brownOutSeq mv whole)

/-- PRSNT_B_OPEN (R562): PRSNT_B# reads high while the input switch is closed. -/
def execPrsntBOpen (mv : Nat) (whole : Bool) (s : State) : Res :=
  let s1 : State := { s with power := { s.power with seated := false } }
  if s.power.switchClosed then .next (s1.brownOutSeq mv whole) else .next s1

/-- INPUT_OVER_VOLTAGE (R565): above 60.0 V for more than 20 µs, the switch opens. -/
def execInputOverVoltage (mv : Nat) (whole : Bool) (s : State) : Res :=
  if mv ≤ 60000 ∨ ¬ s.power.switchClosed then .next s
  else .next (({ s with power := { s.power with switchClosed := false } } : State).brownOutSeq mv whole)

/-- INPUT_OVER_CURRENT (R565): more than 50 A for more than 100 µs, the switch opens. -/
def execInputOverCurrent (ma mv : Nat) (whole : Bool) (s : State) : Res :=
  if ma ≤ 50000 ∨ ¬ s.power.switchClosed then .next s
  else .next (({ s with power := { s.power with switchClosed := false } } : State).brownOutSeq mv whole)

/-- BROWN_OUT_RECOVERY (R567, R82): the input has been in range for 10 ms with PRSNT_B# low and the bank above its minimum; the control plane is
released, and OP0 is held for 100 ms of device time. A thermal shutdown that lasts keeps the planes in reset. -/
def execBrownOutRecovery (mv : Nat) (bad fails : Bool) (s : State) : Res :=
  if ¬ s.power.brownOut ∨ ¬ s.power.kettleUp ∨ ¬ s.power.seated ∨ mv < 46000 ∨ 58000 < mv then .next s
  else
    let s1 : State := { s with power := { s.power with
      brownOut := false, switchClosed := true, opHoldUntil := some (s.tick + ticksMs 100) } }
    if s.power.thermalOff then .next (s1.recEv 0x01 0 0x0604 ([0] ++ le (mv / 10) 2) 0xFF false true)
    else .next ((s1.startControl 2 bad fails).recEv 0x01 0 0x0604 ([0] ++ le (mv / 10) 2) 0xFF false true)

/-- HOLD_UP_BANK_EXHAUSTED (R567): the Kettle stops with what its memory holds; a record write that has not ended leaves PARTIAL (R503). -/
def execHoldUpBankExhausted (s : State) : Res :=
  if ¬ s.power.brownOut then .next s
  else
    let s1 := s.persist false
    .next { s1 with
      power := { s1.power with kettleUp := false, brownOut := false, thermalOff := false, switchClosed := false, opHoldUntil := none, led := 0 }
      tiers := { s1.tiers with heat2 := [] } }

/-- BROWN_OUT_OP_HOLD_EXPIRY (R82): the operating point returns to the request. -/
def execBrownOutOpHoldExpiry (s : State) : Res :=
  match s.power.opHoldUntil with
  | some t => if s.tick < t then .next s else .next ({ s with power := { s.power with opHoldUntil := none } } : State).driveOp
  | none => .next s

/-- THERMAL_SHUTDOWN_RELEASE (R488): every sensor has read 10 °C below its trip limit for 60 s; the control plane is released as after
PERST#. -/
def execThermalShutdownRelease (bad fails : Bool) (s : State) : Res :=
  match s.power.clearSince with
  | none => .next s
  | some t =>
    if ¬ s.power.thermalOff ∨ s.power.brownOut ∨ s.tick < t + ticksMs 60000 then .next s
    else .next (({ s with power := { s.power with thermalOff := false } } : State).startControl 3 bad fails)

/-! ### PERST# (R20, R49, R442, R523) -/

/-- PERST_ASSERT (R20, R101, R442), or, `hot`, a hot reset, which comes over the link and acts as PERST#: staging is flushed, the FTL writes a flush marked clean, and the planes reset; the rails ramp to the point that the
request of 4 gives (R49). -/
def execPerstAssert (s : State) (hot : Bool := false) : Res :=
  let s0 : State := { s with power := { s.power with perst := true } }
  if hot ∧ ¬ s.host.linkUp then .next s
  else if s.power.perst ∨ ¬ s.power.controlUp then .next s0
  else
    let s1 := (s0.stagingFlush.flush).setPs 0
    .next ({ s1 with ftl := { s1.ftl with clean := true } } : State).planeReset.driveOp

/-- PERST_DEASSERT (R102, R519, R523): link training begins; a control plane that is not up is released, after a handover to a pending slot. -/
def execPerstDeassert (bad fails : Bool) (s : State) : Res :=
  let s0 : State := { s with power := { s.power with perst := false } }
  if ¬ s.power.perst ∨ ¬ s.power.kettleUp ∨ s.power.controlUp ∨ s.power.brownOut ∨ s.power.thermalOff ∨ s.boot.restart ≠ 0 then .next s0
  else
    let s1 := if s0.pendingSlot.isSome then s0.chooseSlot else s0
    .next (s1.startControl 4 bad fails)

/-! ### The watchdog (R526, R527) and planned restarts (R520, R524) -/

/-- The first silent heartbeat source: of those that have not reported within 1 s, the one silent longest; 0xFF none (Table 19-8). -/
def State.silentSource (s : State) : Nat :=
  let late := s.boot.beats.filter fun p => decide (p.2 + ticksMs 1000 < s.tick)
  match late with
  | [] => 0xFF
  | p :: l => (l.foldl (fun (a b : Nat × Nat) => if b.2 < a.2 then b else a) p).1

/-- STAGE of the watchdog payload: the update's stage while one runs, else BOOT_STAGE (Table 19-8). -/
def State.wdtStage (s : State) : Nat :=
  match s.fget glob_UPDATE_STATE 0 with
  | 4 => 0x60
  | 2 => 0x61
  | 3 => 0x62
  | 5 => 0x63
  | _ => s.fget glob_BOOT_STAGE 0

/-- WATCHDOG_EXPIRY (R527): no kick for 2 s. `op` is the eFlash operation cut off; `whole`, that the handler ends within 50 ms. In ROM fault and ROM
recovery the reset follows at once. -/
def execWatchdogExpiry (op : Nat) (whole : Bool) (inp : StartInput) (s : State) : Res :=
  if s.tick < s.boot.wdtAt ∨ ¬ (s.power.kettleUp ∨ s.boot.romFault ∨ s.boot.romRecovery) then .next s
  else
    let s0 : State := { s with boot := { s.boot with wdtExpiries := s.boot.wdtExpiries + 1 } }
    if ¬ s.power.kettleUp then .next (s0.startUp 1 inp)
    else
      let s1 := if s0.power.controlUp then s0.stagingFlush else s0
      let s2 := s1.ringNow 0x01 0x0605 (le (s.wdtStage + 65536 * s.silentSource + 16777216 * (op % 4)) 4) true
      .next (((s2.freeze 1).persist whole).planeReset.startUp 1 inp)

/-- WATCHDOG_KICK (R526): the Kettle's firmware reloads the counter if every source has reported within the last 1 s. -/
def execWatchdogKick (s : State) : Res :=
  if s.kettleOn ∧ s.boot.beats.all (fun p => decide (s.tick ≤ p.2 + ticksMs 1000)) then
    .next { s with boot := { s.boot with wdtAt := s.tick + 1953125 } }
  else .next s

/-- HEARTBEAT_REPORT (R526): a source that has been released reports: 0 Kettle firmware, 1 Control die, 2 to 17 the FTL cores. -/
def execHeartbeatReport (src : Nat) (s : State) : Res :=
  if (sget? s.boot.beats src).isNone then .next s
  else .next { s with boot := { s.boot with beats := sput s.boot.beats src s.tick } }

/-- PLANNED_KETTLE_RESTART (R520, R524): with the scope of watchdog expiry and no freeze of the recorder. -/
def execPlannedKettleRestart (inp : StartInput) (s : State) : Res :=
  if s.boot.restart = 0 then .next s
  else
    let s1 := if s.power.controlUp then s.stagingFlush else s
    .next (s1.planeReset.startUp s.boot.restart inp)

end Sys2Proof.Machine
end

