-- ==== Sys2Proof/Machine/Link.lean ====
section
/-!
DEFINITION. The PCIe link, controllers and functions, and the end of start-up (05_host_interface.md R101 to R107, R116, R135; 16_flash_translation.md
R443).
-/

namespace Sys2Proof.Machine

/-! ### The link (R101 to R103, R135) -/

/-- Widest link that avoids the retired lanes, from lane 0 up or, reversed, from lane 15 down; 0 where none can form (R103). That a reversed link
may use the upper lanes is PRESUMED (log 29). -/
def widthAvoiding (ret : List Nat) : Nat :=
  let free (lo n : Nat) : Bool := ret.all fun l => decide (l < lo) || decide (lo + n ≤ l)
  if free 0 16 then 16 else if free 0 8 || free 8 8 then 8 else if free 0 4 || free 12 4 then 4 else 0

/-- The link is down: it carries nothing, and PTM over it is lost (R103, R540). -/
def State.linkDown (s : State) : State :=
  let s1 := ((s.fset front_WIDTH 0 0).fset front_RATE 0 0).fset front_FLIT 0 0
  ({ s1 with host := { s1.host with linkUp := false, width := 0 } } : State).losePtm

/-- The link is up at a width and a rate, in FLIT mode from 32 GT/s on (R101, R102). -/
def State.linkAt (s : State) (w rate : Nat) : State :=
  let s1 := ((s.fset front_WIDTH 0 w).fset front_RATE 0 rate).fset front_FLIT 0 (b2n (decide (rate ≠ 4)))
  let s2 := s1.fset front_NARROWED 0 (b2n (decide (widthAvoiding s1.host.lanesRetired < 16)))
  { s2 with host := { s2.host with linkUp := true, trained := true, width := w } }

/-- PCIE_LINK_TRAINED (R102): training settles at a width (4, 8, 16) and a rate (1 32, 2 64, 3 128 GT/s, 4 below 32 GT/s). After three retrains below
32 GT/s the link stays for configuration requests only, until PERST#. -/
def execPcieLinkTrained (width rate : Nat) (s : State) : Res :=
  let w := min width (widthAvoiding s.host.lanesRetired)
  if ¬ s.planesOn ∨ s.host.belowMin ∨ ¬ (width = 4 ∨ width = 8 ∨ width = 16) ∨ rate = 0 ∨ 4 < rate ∨ w = 0 then .next s
  else
    let s1 := if s.host.trained then s.fbump front_RETRAIN_COUNT 0 1 else s
    if rate ≠ 4 then .next (s1.linkAt w rate)
    else
      let n := s.host.lowTries + 1
      let s2 : State := { s with host := { s.host with lowTries := n } }
      if n ≤ 3 then .next (s2.linkDown.fbump front_RETRAIN_COUNT 0 1)
      else .next ((({ s2 with host := { s2.host with belowMin := true } } : State).linkAt w 4).err 0x03 0 [8])

/-- PCIE_LINK_REPLAY (R135, R463): an LCRC or FEC event on a lane is replayed. -/
def execPcieLinkReplay (lane : Nat) (s : State) : Res :=
  if ¬ s.planesOn ∨ 16 ≤ lane then .next s
  else .next ((s.err 0x03 0 [2] lane).countEvent 9 lane secTicks).2

/-- Lane `l` is part of the link at the width in force: the lowest lanes that avoid those retired, from either end (R103). -/
def State.laneUsed (s : State) (l : Nat) : Bool :=
  let w := s.host.width
  decide (w ≠ 0) &&
  (if s.host.lanesRetired.all fun r => decide (w ≤ r) then decide (l < w) else decide (16 - w ≤ l))

/-- PCIE_LANE_RETIRE (R103, Table 17-1): a lane that failed equalisation in three consecutive retrains (`eq`), or to which more than 64 replays within
1 s are attributed, is permanent. A link that uses it retrains to the next lower width that avoids it, with the TLPs in flight replayed, or goes down
until PERST#; a lane outside the width in force is only recorded. -/
def execPcieLaneRetire (lane : Nat) (eq : Bool) (s : State) : Res :=
  let n := ((sget s.rel.events (65536 * 9 + lane) []).filter fun t => decide (s.tick < t + secTicks)).length
  if ¬ s.planesOn ∨ 16 ≤ lane ∨ s.host.lanesRetired.contains lane ∨ ¬ (eq ∨ 64 < n) then .next s
  else
    let s1 := ({ s with host := { s.host with lanesRetired := lane :: s.host.lanesRetired } } : State).recordRetirement 0x03 0 lane
    let w := min (widthAvoiding s1.host.lanesRetired) s.host.width
    if ¬ s.laneUsed lane then .next s1
    else if w = 0 then .next s1.linkDown
    else .next ((s1.fbump front_RETRAIN_COUNT 0 1).linkAt w (s.fget front_RATE 0))

/-- PCIE_UNCORRECTABLE_TLP (R135): reported through AER; a compute DMA faults its context, and an NVM or SLM command completes with Data Transfer
Error. -/
def execPcieUncorrectableTlp (ctx : Option (Nat × Nat × Nat)) (cmd : Option CmdId) (s : State) : Res :=
  if ¬ s.planesOn then .next s
  else
    let s1 := s.err 0x03 0 [10] 0 (match ctx with
      | some c => c.1
      | none => 0xFF)
    let s2 := match ctx with
      | some c => s1.faultCtx c.1 { code := 0x0E, index := c.2.2, hob := c.2.1, ucls := 0x03, uinst := 0 }
      | none => s1
    match cmd with
    | some c => .next (if s2.host.intake.any fun e => e.cmd == c then s2.complete c 0 0x04 else s2)
    | none => .next s2

/-- Virtual functions up to `n` are enabled; one that is disabled is reset (R104). -/
def State.enableVfs (s : State) (n : Nat) : State :=
  let gone := (List.range 33).filter fun f => decide (n < f) && decide (f ≤ s.host.numVfs)
  let s1 := gone.foldl (fun (t : State) (f : Nat) => (t.fnReset f).setPci f PciFn.init) s
  { s1 with host := { s1.host with numVfs := n } }

/-- A configuration write that the endpoint takes (R101, R104, R540): what 0 PTM enable, 1 virtual functions, 2 Command (bit 1 Memory Space Enable, bit 2
Bus Master Enable), 3 ASPM control, of which only bit 1, L1, is supported, 4 Max Payload Size, 5 Max Read Request Size, 6 BAR0, of which the register
function's is a 256 MiB window, 7 the width that L0p asks for. A value that Table 05-1 does not support changes nothing. -/
def State.configure (s : State) (fn what v : Nat) : State :=
  let p := s.pciOf fn
  match what with
  | 0 => if fn ≠ 0 then s else
    let s1 := s.fset front_PTM_ENABLED 0 (v % 2)
    if v % 2 = 0 then s1.losePtm else s1
  | 1 => if fn ≠ 0 ∨ 32 < v then s else s.enableVfs v
  | 2 => s.setPci fn { p with memory := bit v 1, master := bit v 2 }
  | 3 => s.setPci fn { p with l1 := bit v 1 }
  | 4 => if v ≤ 2 then s.setPci fn { p with payload := v } else s
  | 5 => if v ≤ 5 then s.setPci fn { p with readReq := v } else s
  | 6 => s.setPci fn { p with bar0 := if fn = 33 then v / 2 ^ 28 * 2 ^ 28 % 2 ^ 64 else v % 2 ^ 64 }
  | 7 => if fn = 0 ∧ (v = 4 ∨ v = 8 ∨ v = 16) ∧ s.fget front_RATE 0 ≠ 4 then s.fset front_WIDTH 0 (min v s.host.width) else s
  | _ => s

/-- PCIE_CONFIGURATION_WRITE (R101, R102): a configuration request of a function that exists; Request Retry Status until training has settled, and none
comes over a link that is down. -/
def execPcieConfigurationWrite (what v : Nat) (s : State) (fn : Nat := 0) : Res :=
  if s.power.perst ∨ ¬ (s.fnEnabled fn ∨ fn = 33) then .next s
  else if ¬ s.planesOn ∨ ¬ s.host.trained then .next { s with host := { s.host with cfgStatus := 1 } }
  else if ¬ s.host.linkUp then .next s
  else .next (({ s with host := { s.host with cfgStatus := 0 } } : State).configure fn what v)

/-- INTERRUPT_COALESCING_TIMEOUT (R116): the aggregation time, in units of 100 µs from the first completion, has run out. -/
def execInterruptCoalescingTimeout (fn iv : Nat) (s : State) : Res :=
  let k := qKey fn iv
  let t := (s.ctrl fn).feature 0x08 / 256 % 256
  if sget s.host.aggr k 0 = 0 ∨ s.tick < sget s.host.aggrTick k 0 + ticksUs (100 * t) then .next s
  else
    .next (({ s with host := { s.host with
      irqs := s.host.irqs ++ [(fn, iv)], aggr := serase s.host.aggr k, aggrTick := serase s.host.aggrTick k } } : State).pcie 64 4)

/-! ### Controllers and functions (R20, R104, R106, R107, R137) -/

/-- The admin queues of a function: SQ 0 and CQ 0 on vector 0, with 2 to 4,096 entries given 0's based (R114). -/
def State.adminQueues (s : State) (fn asqs acqs : Nat) : State :=
  { s with host := { s.host with
    sqs := sput s.host.sqs (qKey fn 0) { size := asqs % 4096 + 1, cq := 0, prio := 0, ctx := none, tail := 0, head := 0 }
    cqs := sput s.host.cqs (qKey fn 0) { size := acqs % 4096 + 1, ien := true, iv := 0, used := 0 } } }

/-- CONTROLLER_ENABLE (R104, R106): CC.EN is written 1, and the function has its own admin queue. With CRIME = 1 the controller is ready at once, else when
the map is rebuilt; function 0 never while the link is held below 32 GT/s (R102), whose state lets no write of CC through. `wrr` is CC.AMS. -/
def execControllerEnable (fn : Nat) (crime wrr : Bool) (s : State) (asqs acqs : Nat := 0) : Res :=
  if ¬ s.hostUp ∨ ¬ s.fnEnabled fn ∨ (s.ctrl fn).en then .next s
  else .next ((s.setCtrl fn { Ctrl.init with en := true, crime := crime, wrr := wrr, rdy := crime || s.ftl.ready }).adminQueues fn asqs acqs)

/-- CONTROLLER_RESET (R20): CC.EN goes from 1 to 0. A virtual function's controller resets its own queues and contexts. -/
def execControllerReset (fn : Nat) (s : State) : Res :=
  if ¬ s.hostUp ∨ ¬ (s.ctrl fn).en then .next s
  else if fn = 0 then .next s.controllerReset
  else .next (((s.dropFnCtxs fn).resetFn fn).dropCollections fun f => f == fn)

/-- Contexts that a function's shutdown reaches: every one for function 0, else its own. DESIGN CHOICE (log 47): that a virtual function's reaches no
other function's contexts; R107 says "every context" of the device, and does not name a virtual function. -/
def State.shutCtxs (s : State) (fn : Nat) : List Nat := if fn = 0 then s.cp.ctxs.map Prod.fst else s.ctxsOf fn

/-- A shutdown ends (R107): its contexts are torn down, the journal is flushed, CSTS.SHST reads 2. -/
def State.finishShutdown (s : State) (fn : Nat) : State :=
  let s1 := ((s.shutCtxs fn).foldl (fun (t : State) (c : Nat) => t.tearDown c) s).flush
  s1.setCtrl fn { s1.ctrl fn with shst := 2 }

/-- Every context that a function's shutdown reaches holds no running task, a saved one being stopped, or 100 ms have passed since the notification. -/
def State.shutDue (s : State) (fn : Nat) : Bool :=
  decide ((s.ctrl fn).shutTick + ticksMs 100 ≤ s.tick) ||
  (s.shutCtxs fn).all fun c => match s.ctx? c with
    | some x => x.task.isNone || !x.issuing
    | none => true

/-- SHUTDOWN_NOTIFICATION (R107): fetching stops; running tasks are pre-empted at their next cheap point; with none running the shutdown ends at
once, else at the tick at which the last one has been saved or has ended. -/
def execShutdownNotification (fn : Nat) (s : State) : Res :=
  let c := s.ctrl fn
  if ¬ s.hostUp ∨ ¬ c.en ∨ c.shst ≠ 0 then .next s
  else
    let s1 := s.setCtrl fn { c with shst := 1, shutTick := s.tick }
    let s2 := (s1.shutCtxs fn).foldl (fun (t : State) (k : Nat) => match t.ctx? k with
      | some x => if x.issuing && x.task.isSome then t.preemptCtx k x 3 else t
      | none => t) s1
    .next (if s2.shutDue fn then s2.finishShutdown fn else s2)

/-- FUNCTION_LEVEL_RESET (R20, R53, R137): a function's queues, contexts, program slots and PCIe configuration state. Function 0's reaches its virtual
functions; the register function (33) has configuration state only. -/
def execFunctionLevelReset (fn : Nat) (s : State) : Res :=
  if ¬ s.hostUp ∨ ¬ (s.fnEnabled fn ∨ fn = 33) then .next s
  else if fn = 33 then .next (s.setPci 33 PciFn.init)
  else if fn = 0 then
    let s1 := (List.range (s.host.numVfs + 1)).foldl (fun (t : State) (f : Nat) => t.fnReset f) s
    .next { s1 with host := { s1.host with numVfs := 0, pci := s1.host.pci.filter fun p => p.1 == 33 } }
  else .next ((s.fnReset fn).setPci fn PciFn.init)

/-! ### Media ready (R106, R443, R518) -/

/-- The next sequence number: past every one in use. -/
def State.seqAfterRebuild (s : State) : Nat :=
  let a := s.nand.pages.foldl (fun (m : Nat) p => max m (p.2.seq + 1)) 0
  s.ftl.versions.foldl (fun (m : Nat) v => max m (v.seq + 1)) a

/-- The first time global STATE reads ON from a slot not confirmed (R518): CONFIRMED is set, SUPERSEDED on the other slot where that one is activated,
and the security-version counter rises to the package's SVN. -/
def State.confirmSlot (s : State) : State :=
  let k := s.boot.runSlot
  if k = 0 ∨ (s.fwSlot k).confirmed then s
  else
    let o := 3 - k
    let s1 := s.slotEvent k 6
    let s2 := if (s1.fwSlot o).active then s1.slotEvent o 8 else s1
    { s2 with boot := { s2.boot with svn := max s2.boot.svn (s2.fwSlot k).svn } }

/-- The map as the rebuild leaves it (R441, R443): the next sequence number, the deallocations of a last flush that was lost taken back, and a flush. -/
def State.rebuilt (s : State) (journal : Nat) : State :=
  let s0 := s.fset64 ftl_SEQ_LO ftl_SEQ_HI 0 s.seqAfterRebuild
  let s1 := if journal = 0 then s0 else s0.err 0x22 0 [if journal = 1 then 9 else 10]
  let s2 := if journal < 2 then s1 else
    s1.ftl.undoLast.foldl (fun (t : State) (e : Nat × MapEntry) => if (t.mapEntry e.1).st = 0 then t.setMap e.1 e.2.st e.2.loc else t) s1
  let s3 := if s.ftl.clean then s2 else s2.err 0x22 0 [14]
  ((s3.fset ftl_CLEAN_LAST 0 (b2n s.ftl.clean)).refreshMargin).flush

/-- The FTL, the device and the enabled controllers are ready (R106, R518), and a slot not confirmed is confirmed. -/
def State.mediaUp (s : State) : State :=
  let ms := (s.tick - s.boot.startTick) * 1024 / 1000000
  let s1 := ((s.fset ftl_REBUILD_MS 0 ms).fset glob_BOOT_MS 0 ms).fset ftl_REBUILD_STATE 0 (if s.fget glob_MEDIA_MODE 0 = 2 then 4 else 0)
  let s2 : State := { s1 with
    ftl := { s1.ftl with ready := true, undoLast := [] }
    host := { s1.host with ctrls := s1.host.ctrls.map fun p => (p.1, { p.2 with rdy := p.2.rdy || (p.2.en && !(p.1 == 0 && s1.host.belowMin)) }) } }
  ((((s2.fset (hdr_STATE 0x22) 0 2).fset (hdr_STATE 0) 0 2).fset glob_BOOT_STAGE 0 0x0050).confirmSlot).showBoot

/-- MEDIA_READY (R106, R443, R441, R519): the rebuild is finished. `journal`: 0 both copies of every flush agree, 1 one copy was unreadable, 2 the last
flush was lost and the deallocations it held return their blocks to their earlier data. -/
def execMediaReady (journal : Nat) (s : State) : Res :=
  if ¬ s.power.controlUp ∨ s.power.brownOut ∨ s.ftl.ready ∨ s.fget (hdr_STATE 0) 0 = 4 ∨ s.packages.any (fun c => s.fget (hdr_STATE 0x21) c = 1) then .next s
  else .next (s.rebuilt journal).mediaUp

end Sys2Proof.Machine
end

