-- ==== Sys2Proof/Machine/Boot.lean ====
section
/-!
DEFINITION. Firmware packages, commits and updates (19_embedded_flash_and_boot.md R516, R517, R521 to R525).
-/

namespace Sys2Proof.Machine

/-! ### Packages (R516, R517) -/

/-- The greatest package: 704 sectors. -/
def packageMax : Nat := 2883584

/-- A number held in bytes of a package, little-endian. -/
def pkNat (b : List Byte) (off n : Nat) : Nat := leNat ((b.drop off).take n)

def pkRoot (b : List Byte) : Nat := pkNat b 6 1
def pkCount (b : List Byte) : Nat := pkNat b 7 1
def pkLength (b : List Byte) : Nat := pkNat b 8 4
def pkSvn (b : List Byte) : Nat := pkNat b 12 4
def pkRevision (b : List Byte) : Nat := pkNat b 16 8
def pkType (b : List Byte) (i : Nat) : Nat := pkNat b (32 + 64 * i) 2

/-- Bytes of component `i`. -/
def pkPart (b : List Byte) (i : Nat) : List Byte := (b.drop (pkNat b (36 + 64 * i) 4)).take (pkNat b (40 + 64 * i) 4)

/-- The package is a key package: its only components are of types 6 and 7 (R517). -/
def keyPackage (b : List Byte) : Bool := (List.range (pkCount b)).all fun i => pkType b i == 6 || pkType b i == 7

/-- Exactly one component of each of types 1 to 5 (R517). -/
def firmwarePackage (b : List Byte) : Bool :=
  pkCount b == 5 && [1, 2, 3, 4, 5].all fun t => (List.range 5).any fun i => pkType b i == t

/-- A component lies in the package and its digest holds (Table 19-6). -/
def partOk (b : List Byte) (i : Nat) : Bool :=
  decide (pkNat b (36 + 64 * i) 4 + pkNat b (40 + 64 * i) 4 ≤ pkLength b) &&
  decide (Config.sha384 (pkPart b i) = leNat ((b.drop (48 + 64 * i)).take 48).reverse)

/-- A package passes R516 and R517. -/
def State.packageOk (s : State) (b : List Byte) : Bool :=
  pkNat b 0 4 == 0x5746464D && pkNat b 4 2 == 1 && decide (pkRoot b < 4) && decide (1 ≤ pkCount b) && decide (pkCount b ≤ 8) &&
  decide (1024 ≤ pkLength b) && decide (pkLength b ≤ packageMax) && decide (pkSvn b ≤ 6399) && decide (s.boot.svn ≤ pkSvn b) && !bit s.boot.rootRevoked (pkRoot b) &&
  (keyPackage b || firmwarePackage b) && (List.range (pkCount b)).all (partOk b) &&
  decide (Config.sha384 (b.take 544) = leNat ((b.drop 544).take 48).reverse) &&
  Config.ecdsaVerifies ((b.drop 544).take 48) ((b.drop 592).take 96) (Config.rootKey (pkRoot b))

/-- The pieces received cover the bytes from 0 to `n`. -/
def covered (pieces : List (Nat × Nat)) (n : Nat) : Bool :=
  decide (n ≤ (pieces.map fun p => min (p.1 + p.2) n - min p.1 n).sum)

/-- The staged image as far as it may be a package, where its header has come. -/
def State.stagedImage (s : State) : List Byte :=
  let n := leNat (s.boot.image.readN 8 4)
  s.boot.image.readN 0 (min n packageMax)

/-- The staged image is whole from byte 0 to LENGTH and passes the checks (R521). -/
def State.stagedOk (s : State) : Bool :=
  covered s.boot.pieces 12 && covered s.boot.pieces (pkLength s.stagedImage) && s.packageOk s.stagedImage

/-- The slot that is not running: slot A in ROM recovery (R520, R521). -/
def State.otherSlot (s : State) : Nat := if s.boot.runSlot = 1 then 2 else 1

/-- The update lock is released and what was staged is gone (R522). -/
def State.endUpdate (s : State) : State :=
  ((({ s with boot := { s.boot with pieces := [], image := Mem.empty } } : State).fset glob_UPDATE_STATE 0 0).fset glob_UPDATE_OWNER 0 0).fset
    glob_UPDATE_PROGRESS 0 0

/-- A slot written with a package in the order of R521: committed, and activated where `act`; a write that does not reach its end leaves it
uncommitted. -/
def State.writeSlot (s : State) (k : Nat) (b : List Byte) (act whole : Bool) : State :=
  let x : FwSlot := { events := if ¬ whole then 1 else if act then 7 else 3, gen := (s.fwSlot (3 - k)).gen + 1, svn := pkSvn b, root := pkRoot b,
                      revision := pkRevision b, valid := whole, stateComplete := true }
  (s.setFwSlot k x).showBoot

/-! ### Key packages (R525) -/

/-- A slot keeps an unrevoked root key, where it matters: it runs, or is a candidate. -/
def State.rootKept (s : State) (root : Nat) : Bool :=
  [1, 2].all fun k => !((k == s.boot.runSlot || (s.fwSlot k).candidate) && (s.fwSlot k).root == root)

/-- A KEYS record may be stored: index 0 to 3, generation 0 to 63, above the last one revoked. -/
def State.keyOk (s : State) (r : Nat × Nat × Nat) : Bool :=
  decide (r.1 < 4) && decide (r.2.1 < 64) && decide (sget s.boot.keyRevoked r.1 0 < 2 ^ r.2.1)

/-- A REVOKE record may take effect. -/
def State.revokeOk (s : State) (r : Bool × Nat × Nat) : Bool :=
  if r.1 then decide (r.2.1 < 4) && s.rootKept r.2.1 else decide (r.2.1 < 4) && decide (r.2.2 < 64)

/-- Configuration keys of the program-signing keys. -/
def cfgKey (i : Nat) : Nat := 0x100 + i

/-- A KEYS record stored in the configuration store. -/
def State.storeKey (s : State) (r : Nat × Nat × Nat) : State :=
  let s1 := s.writeConfig (cfgKey r.1) (r.2.1 + 64 * r.2.2)
  { s1 with boot := { s1.boot with keys := sput s1.boot.keys r.1 (r.2.1, r.2.2) } }

/-- A REVOKE record takes effect; images accepted under the key are inactive from now on. -/
def State.revoke (s : State) (r : Bool × Nat × Nat) : State :=
  if r.1 then { s with boot := { s.boot with rootRevoked := setBit s.boot.rootRevoked r.2.1 } }
  else
    let s1 : State := { s with boot := { s.boot with
      keyRevoked := sput s.boot.keyRevoked r.2.1 (setBit (sget s.boot.keyRevoked r.2.1 0) r.2.2) } }
    { s1 with cp := { s1.cp with slots := s1.cp.slots.map fun p => (p.1, if s1.slotRevoked p.2 then { p.2 with active := false } else p.2) } }

/-- A key package's records (R525). -/
def pkRecords {α : Type} (b : List Byte) (t : Nat) (f : List Byte → List α) : List α :=
  ((List.range (pkCount b)).filter fun i => pkType b i == t).flatMap fun i => f (pkPart b i)

/-- A key package takes effect; none of its records does where one may not. -/
def State.applyKeys (s : State) (b : List Byte) : Option State :=
  let ks := pkRecords b 6 Config.keyRecords
  let rs := pkRecords b 7 Config.revokeRecords
  if ks.all s.keyOk ∧ rs.all s.revokeOk then some ((rs.foldl State.revoke (ks.foldl State.storeKey s)).sweepSlots.showBoot) else none

/-! ### NVMe updates (R521, R522) -/

/-- FIRMWARE_IMAGE_DOWNLOAD (R521, R522): one piece of a package, staged in tier pages 60 and 61 of stack 0. -/
def execFirmwareImageDownload (cmd : CmdId) (off : Nat) (data : List Byte) (s : State) : Res :=
  let n := data.length
  if ¬ s.takes cmd then .next s
  else if cmd.fn ≠ 0 then .next (s.complete cmd 0 0x01)
  else if s.turnedAway cmd true then .next (s.turnAway cmd)
  else if s.fget glob_UPDATE_OWNER 0 = 2 then .next (s.complete cmd 0 0x0C)
  else if packageMax < off + n then .next (s.complete cmd 0 0x02)
  else if s.boot.pieces.any fun p => decide (off < p.1 + p.2) && decide (p.1 < off + n) then .next (s.complete cmd 1 0x14)
  else
    let s1 := ((s.pcie 64 n).fset glob_UPDATE_OWNER 0 1).fset glob_UPDATE_STATE 0 1
    .next (({ s1 with boot := { s1.boot with
      pieces := (off, n) :: s1.boot.pieces, image := s1.boot.image.writeL off data } } : State).succeed cmd)

/-- Firmware Commit with CA 0 or CA 1 (R521): the lock, the slot named, the image, then the write. A key package changes keys and ignores FS
(R525). -/
def State.commitImage (s : State) (cmd : CmdId) (fs : Nat) (act whole : Bool) : State :=
  let k := if fs = 0 then s.otherSlot else fs
  let b := s.stagedImage
  if cmd.fn ≠ 0 then s.complete cmd 0 0x01
  else if s.fget glob_UPDATE_OWNER 0 = 2 then s.complete cmd 1 0x13
  else if s.stagedOk ∧ keyPackage b then
    match s.applyKeys b with
    | some t => t.endUpdate.succeed cmd
    | none => s.endUpdate.complete cmd 1 0x07
  else if 2 < fs ∨ k = s.boot.runSlot then s.complete cmd 1 0x06
  else if ¬ s.stagedOk then s.endUpdate.complete cmd 1 0x07
  else if whole then ((s.writeSlot k b act true).endUpdate).succeed cmd
  else ((s.writeSlot k b act false).endUpdate).complete cmd 0 0x06

/-- FIRMWARE_COMMIT_WRITE (R521): CA 0. `whole`: the write reaches its end (Table 19-10). -/
def execFirmwareCommitWrite (cmd : CmdId) (fs : Nat) (whole : Bool) (s : State) : Res :=
  if ¬ s.takes cmd then .next s
  else if s.turnedAway cmd true then .next (s.turnAway cmd)
  else .next (s.commitImage cmd fs false whole)

/-- FIRMWARE_COMMIT_WRITE_ACTIVATE (R521): CA 1. -/
def execFirmwareCommitWriteActivate (cmd : CmdId) (fs : Nat) (whole : Bool) (s : State) : Res :=
  if ¬ s.takes cmd then .next s
  else if s.turnedAway cmd true then .next (s.turnAway cmd)
  else .next (s.commitImage cmd fs true whole)

/-- FIRMWARE_COMMIT_ACTIVATE (R521, R522, R525): CA 2. -/
def execFirmwareCommitActivate (cmd : CmdId) (fs : Nat) (s : State) : Res :=
  let k := if fs = 0 then s.otherSlot else fs
  if ¬ s.takes cmd then .next s
  else if cmd.fn ≠ 0 then .next (s.complete cmd 0 0x01)
  else if s.turnedAway cmd true then .next (s.turnAway cmd)
  else if s.fget glob_UPDATE_OWNER 0 = 2 then .next (s.complete cmd 1 0x13)
  else if s.stagedOk ∧ keyPackage s.stagedImage then .next (s.complete cmd 0 0x02)
  else if 2 < fs then .next (s.complete cmd 1 0x06)
  else if k = s.boot.runSlot then .next (if s.pendingSlot.isSome then s.complete cmd 1 0x13 else s.succeed cmd)
  else if ¬ (s.fwSlot k).committed ∨ (s.fwSlot k).failed then .next (s.complete cmd 1 0x07)
  else .next ((s.slotEvent k 2).showBoot.succeed cmd)

/-- KEY_PACKAGE_COMMIT (R525): Firmware Commit with CA `ca` where a key package is staged; CA 2 and CA 3 complete with Invalid Field. -/
def execKeyPackageCommit (cmd : CmdId) (ca : Nat) (s : State) : Res :=
  if ¬ s.takes cmd then .next s
  else if cmd.fn ≠ 0 then .next (s.complete cmd 0 0x01)
  else if s.turnedAway cmd true then .next (s.turnAway cmd)
  else if 3 ≤ ca then .next (s.complete cmd 0 0x02)
  else if ¬ (s.stagedOk ∧ keyPackage s.stagedImage) then .next s
  else if ca = 2 then .next (s.complete cmd 0 0x02)
  else .next (s.commitImage cmd 0 false true)

/-! ### PLDM updates (R522, R524); completion codes PRESUMED from DSP0267 (log 30) -/

/-- The Kettle's MCTP endpoint is up: the Kettle runs, or the ROM in ROM recovery (R520). -/
def State.mctpUp (s : State) : Bool := s.power.kettleUp || s.boot.romRecovery

/-- An answer sent over MCTP. -/
def State.mctpAnswer (s : State) (l : List Nat) : State :=
  { s with kettle := { s.kettle with mctpOut := s.kettle.mctpOut ++ [l.map (BitVec.ofNat 8)] } }

/-- PLDM_REQUEST_UPDATE (R522, R524): the lock is taken, or RETRY_REQUEST_UPDATE answered while it is held by the other path. -/
def execPldmRequestUpdate (s : State) : Res :=
  if ¬ s.mctpUp then .next s
  else if s.fget glob_UPDATE_OWNER 0 = 1 then .next (s.mctpAnswer [0x8E])
  else if s.fget glob_UPDATE_OWNER 0 = 2 then .next (s.mctpAnswer [0x81])
  else .next (((s.fset glob_UPDATE_OWNER 0 2).fset glob_UPDATE_STATE 0 1).mctpAnswer [0])

/-- The slot that is not running is erased, and WRITING (R524). -/
def State.beginPldm (s : State) : State :=
  let k := s.otherSlot
  let s1 := s.setFwSlot k { FwSlot.empty with events := 1, gen := (s.fwSlot (3 - k)).gen + 1 }
  let s2 : State := { s1 with boot := { s1.boot with pldmSlot := some k, pldmBytes := 0, pieces := [], image := Mem.empty } }
  s2.showBoot.fset glob_UPDATE_STATE 0 3

/-- PLDM_UPDATE_COMPONENT (R524): component 0x3072; the slot that is not running is erased and WRITING. -/
def execPldmUpdateComponent (comp : Nat) (s : State) : Res :=
  if ¬ s.mctpUp then .next s
  else if s.fget glob_UPDATE_OWNER 0 ≠ 2 then .next (s.mctpAnswer [0x80])
  else if comp ≠ 0x3072 then .next (s.mctpAnswer [0x82])
  else .next (s.beginPldm.mctpAnswer [0])

/-- Bytes of a package are written to the slot at an offset; the progress shows the part that has come. -/
def State.pldmPut (s : State) (off : Nat) (data : List Byte) : State :=
  let n := data.length
  let s1 : State := { s with boot := { s.boot with
    pldmBytes := s.boot.pldmBytes + n
    pieces := (off, n) :: s.boot.pieces.filter fun p => !(decide (off < p.1 + p.2) && decide (p.1 < off + n))
    image := s.boot.image.writeL off data } }
  s1.fset glob_UPDATE_PROGRESS 0 (min 65535 (s1.boot.pldmBytes * 65536 / max 1 (pkLength s1.stagedImage)))

/-- Every byte of the package has come. -/
def State.pldmWhole (s : State) : Bool := covered s.boot.pieces 12 && covered s.boot.pieces (pkLength s.stagedImage)

/-- PLDM_FIRMWARE_DATA (R524): a RequestFirmwareData answer of 256 to 1,024 bytes is written to the slot. With the package whole the digests are
recomputed and COMMIT is set, which ends the update's hold of the lock; in ROM recovery a restart follows (R520). -/
def execPldmFirmwareData (off : Nat) (data : List Byte) (whole : Bool) (s : State) : Res :=
  match s.boot.pldmSlot with
  | none => .next s
  | some k =>
    let n := data.length
    if ¬ s.mctpUp ∨ s.fget glob_UPDATE_OWNER 0 ≠ 2 ∨ n < 256 ∨ 1024 < n ∨ packageMax < off + n then .next s
    else
      let s1 := s.pldmPut off data
      if ¬ s1.pldmWhole then .next s1
      else if s1.packageOk s1.stagedImage ∧ firmwarePackage s1.stagedImage then
        let s2 := ((s1.writeSlot k s1.stagedImage false whole).endUpdate)
        .next (if whole ∧ s.boot.romRecovery then { s2 with boot := { s2.boot with restart := 6 } } else s2)
      else .next ({ s1 with boot := { s1.boot with pldmSlot := none } } : State).endUpdate

/-- PLDM_ACTIVATE_FIRMWARE (R524): ACTIVATE is set on the slot that the update committed; with SelfContainedActivationRequest a planned restart
follows at once. -/
def execPldmActivateFirmware (now : Bool) (s : State) : Res :=
  if ¬ s.mctpUp then .next s
  else match s.boot.pldmSlot with
  | none => .next (s.mctpAnswer [0x84])
  | some k =>
    if ¬ (s.fwSlot k).committed ∨ (s.fwSlot k).failed then .next (s.mctpAnswer [0x85])
    else
      let s1 := (s.slotEvent k 2).showBoot
      let s2 : State := { s1 with boot := { s1.boot with pldmSlot := none, restart := if now then 5 else s1.boot.restart } }
      .next (s2.mctpAnswer [0])

/-- PLDM_CANCEL_UPDATE (R522, R524): the update ends with the slot uncommitted, and the lock is released. -/
def execPldmCancelUpdate (s : State) : Res :=
  if ¬ s.mctpUp then .next s
  else if s.fget glob_UPDATE_OWNER 0 ≠ 2 then .next (s.mctpAnswer [0x80])
  else .next (({ s with boot := { s.boot with pldmSlot := none } } : State).endUpdate.mctpAnswer [0])

/-- MCTP_SET_ENDPOINT_ID (R481): the bus owner assigns the EID; 0 and 0xFF are no endpoint's. -/
def execMctpSetEndpointId (eid : Nat) (s : State) : Res :=
  if ¬ s.mctpUp then .next s
  else if eid = 0 ∨ 0xFF ≤ eid then .next (s.mctpAnswer [2])
  else .next (({ s with kettle := { s.kettle with eid := eid } } : State).mctpAnswer [0, eid])

end Sys2Proof.Machine
end

