-- ==== Sys2Proof/Machine/Logs.lean ====
section
/-!
DEFINITION. What the host and the management controller read of the device: Identify, the log pages, the Floor Ratio intervals, NVMe-MI and
PLDM (05_host_interface.md, R105, R112, R131, R132; 18_management_plane.md, R476, R481 to R494, R500). Fields of public data structures
stand at the places of NVMe 2.x, NVMe-MI and PLDM (PRESUMED, log 22, log 30); what the spec does not state there is free.
-/

namespace Sys2Proof.Machine

/-- A data structure of `n` bytes with fields written over bytes that the spec does not state. -/
def patched (kind n : Nat) (fs : List (Nat × List Byte)) : List Byte :=
  fs.foldl (fun (b : List Byte) (f : Nat × List Byte) => b.take f.1 ++ f.2 ++ b.drop (f.1 + f.2.length)) ((List.range n).map (Config.infoByte kind))

/-- The characters of a string as bytes, padded with spaces to `n`. -/
def ascii (t : String) (n : Nat) : List Byte :=
  (t.toList.map (fun (c : Char) => BitVec.ofNat 8 c.toNat) ++ List.replicate n 0x20).take n

/-! ### Identify (R6, R104, R105, R127, R430, R432) -/

/-- The part number (R6). -/
def partNumber (v : Variant) : List Byte :=
  ascii (match v with
    | .x => "VIDRAKO MORFEN MF-3072-X"
    | .s => "VIDRAKO MORFEN MF-3072-S"
    | .c => "VIDRAKO MORFEN MF-3072-C") 40

/-- User capacity and what no namespace takes of it, in bytes (R430). -/
def State.capacity (s : State) : Nat := userPages s.variant * 2 ^ 21
def State.unallocated (s : State) : Nat :=
  s.capacity - (s.host.namespaces.map fun p => if p.2.kind = .nvm then p.2.bytes else 0).sum

/-- A power state descriptor: MP in 0.01 W, non-operational, ENLAT and EXLAT in µs, relative ranks (Table 05-9). -/
def psDescriptor (mp : Nat) (nop : Bool) (enlat exlat rank : Nat) : List Byte :=
  natLE mp 2 ++ natLE 0 1 ++ natLE (2 * b2n nop) 1 ++ natLE enlat 4 ++ natLE exlat 4 ++ List.replicate 4 (BitVec.ofNat 8 rank)

/-- The five power states (Table 05-9); EXLAT is ENLAT plus the exit proper. -/
def psDescriptors : List Byte :=
  [(0xFFFF, false, 0, 0, 0), (0xFFFF, false, 0, 0, 1), (0xFFFF, false, 0, 0, 2), (18000, true, 3000, 4000, 3), (9500, true, 25000, 40000, 4)].flatMap
    fun p => psDescriptor p.1 p.2.1 p.2.2.1 p.2.2.2.1 p.2.2.2.2 ++ List.replicate 16 0

/-- The maximum input power of PS0 to PS4 in mW, at bytes 3,072 to 3,091 (R127). -/
def psMilliwatts : List Byte := [2000000, 1400000, 1000000, 180000, 95000].flatMap fun p => natLE p 4

/-- REVISION of the running firmware. -/
def State.revision (s : State) : List Byte := natLE (if s.boot.runSlot = 0 then 0 else (s.fwSlot s.boot.runSlot).revision) 8

/-- Identify Controller of a function (Table 05-2). -/
def State.idController (s : State) (fn : Nat) : List Byte :=
  patched 0x101 4096 [(24, partNumber s.variant), (64, s.revision), (77, natLE 9 1), (84, natLE 30000000 4 ++ natLE 100000 4), (258, natLE 3 1 ++ natLE 7 1),
    (260, natLE 0x04 1), (262, natLE 63 1 ++ natLE 4 1), (265, natLE 1 1 ++ natLE 358 2 ++ natLE 378 2 ++ natLE 0 2),
    (280, natLE s.capacity 16 ++ natLE s.unallocated 16), (319, natLE 1 1), (328, natLE (if fn = 0 then 7 else 0) 4), (512, natLE 0x66 1 ++ natLE 0x44 1),
    (516, natLE 81 4), (525, natLE 0 1 ++ natLE 63 2 ++ natLE 63 2), (532, natLE 0 2), (2048, psDescriptors), (3072, psMilliwatts)]

/-- CAP, and CRTO, of every controller (Table 05-2). -/
def capRegister : Nat := 0xFFFF + 2 ^ 16 + 2 ^ 17 + 60 * 2 ^ 24 + 2 ^ 37 + 2 ^ 43 + 4 * 2 ^ 52 + 3 * 2 ^ 59
def crtoRegister : Nat := 300 + 20 * 2 ^ 16

/-- Identify Namespace of an NVM namespace (Tables 05-7 and 16-4). -/
def State.idNamespace (s : State) (ns : Nat) (n : Namespace) : List Byte :=
  let sz := n.bytes / lbaBytes n.lbaf
  let used := (s.ftl.map.filter fun p => iuNs p.1 == ns && p.2.st != 0).length * (16384 / lbaBytes n.lbaf)
  let big : Bool := n.lbaf == 0
  patched 0x100 4096 [(0, natLE sz 8 ++ natLE sz 8 ++ natLE used 8 ++ natLE 0x12 1 ++ natLE 1 1 ++ natLE n.lbaf 1 ++ natLE 0 3), (33, natLE 9 1),
    (34, natLE (if big then 63 else 15) 2 ++ natLE (if big then 63 else 15) 2), (40, natLE (if big then 63 else 15) 2 ++ natLE 0 2 ++
      natLE (if big then 63 else 15) 2), (48, natLE n.bytes 16), (64, (List.range 4).flatMap fun _ => natLE (if big then 3 else 0) 2),
    (72, natLE (if big then 63 else 15) 2), (128, natLE (12 * 65536) 4 ++ natLE (14 * 65536) 4), (3840, natLE n.pset 1)]

/-- Namespaces in ascending order that satisfy a condition, above an identifier, as a list of 1,024 identifiers. -/
def State.nsList (s : State) (after : Nat) (p : Nat → Namespace → Bool) : List Byte :=
  let ids := (List.range 82).filter fun k => decide (after < k) && (k == 1 || match sget? s.host.namespaces k with
    | some n => p k n
    | none => false)
  ((ids.flatMap fun k => natLE k 4) ++ List.replicate 4096 0).take 4096

/-- The data of an Identify (R105, R432): CNS 0x00 and 0x11 a namespace, attached or existing; 0x01 the controller; 0x02 and 0x10 the lists of
attached and of existing namespaces. What another CNS returns is free. None where the namespace identifier is not one that the device
offers. -/
def State.idData (s : State) (fn cns nsid : Nat) : Option (List Byte) :=
  if cns = 0x01 then some (s.idController fn)
  else if cns = 0x02 then some (s.nsList nsid fun _ n => n.attached.contains fn)
  else if cns = 0x10 ∧ fn = 0 then some (s.nsList nsid fun _ _ => true)
  else if cns = 0x00 ∨ (cns = 0x11 ∧ fn = 0) then
    if nsid = 0 ∨ 81 < nsid then none
    else match sget? s.host.namespaces nsid with
      | some n =>
        if cns = 0x00 ∧ ¬ n.attached.contains fn then some (List.replicate 4096 0)
        else if n.kind = .nvm then some (s.idNamespace nsid n) else some (patched (0x1000 + nsid) 4096 [])
      | none => if nsid = 1 then some (patched 0x1001 4096 []) else some (List.replicate 4096 0)
  else some (patched (0x100 + cns) 4096 [])

/-- IDENTIFY (R105, R112). -/
def execIdentify (cmd : CmdId) (cns nsid : Nat) (s : State) : Res :=
  if ¬ s.takes cmd then .next s
  else if s.turnedAway cmd false then .next (s.turnAway cmd)
  else match s.idData cmd.fn cns nsid with
    | some d => .next (s.succeed cmd 0 d)
    | none => .next (s.complete cmd 0 0x0B)

/-! ### Log pages (R131, R132) -/

/-- Critical Warning of a function (R89, R476, R489). -/
def State.criticalWarning (s : State) (fn : Nat) : Nat :=
  b2n (decide (s.availableSpare < 10)) + 2 * b2n (s.tempWarning fn) +
  4 * b2n (sget s.kettle.smart 16 0 != 0 || s.iusIn 3 != 0) + 8 * b2n (s.fget glob_MEDIA_MODE 0 == 1)

/-- A SMART counter. -/
def State.smart (s : State) (k : Nat) : Nat := sget s.kettle.smart k 0

/-- Ticks in units of `ms` milliseconds. -/
def ticksIn (t ms : Nat) : Nat := t * 1024 / (ms * 1000000)

/-- SMART / Health Information (R476, R489). -/
def State.smartLog (s : State) (fn : Nat) : List Byte :=
  patched 0x202 512 [(0, natLE (s.criticalWarning fn) 1 ++ natLE s.compositeK 2 ++ natLE s.availableSpare 1 ++ natLE 10 1 ++ natLE s.percentageUsed 1),
    (32, natLE (ceilDiv (s.smart 1) 512000) 16 ++ natLE (ceilDiv (s.smart 2) 512000) 16 ++ natLE (s.smart 3) 16 ++ natLE (s.smart 4) 16),
    (112, natLE (s.smart 5) 16 ++ natLE (ticksIn (s.smart 9) 3600000) 16 ++ natLE (s.smart 6) 16 ++ natLE (s.smart 0) 16 ++
      natLE (((s.ctrl fn).errors.map ErrEntry.count).headD 0) 16 ++ natLE (ticksIn (s.smart 7) 60000) 4 ++ natLE (ticksIn (s.smart 8) 60000) 4 ++
      (List.range 8).flatMap fun k => natLE (s.sensorK (k + 1)) 2)]

/-- Error Information: 64 entries, newest first. -/
def State.errorLog (s : State) (fn : Nat) : List Byte :=
  let es := (s.ctrl fn).errors.flatMap fun (e : ErrEntry) =>
    natLE e.count 8 ++ natLE e.sq 2 ++ natLE e.cid 2 ++ natLE (2 * e.status) 2 ++ natLE 0xFFFF 2 ++ natLE e.lba 8 ++ natLE e.ns 4 ++ List.replicate 36 (0 : Byte)
  (es ++ List.replicate 4096 (0 : Byte)).take 4096

/-- Firmware Slot Information: AFI, and the revisions of the committed slots. -/
def State.fwLog (s : State) : List Byte :=
  let rev (k : Nat) : Nat := if (s.fwSlot k).committed then (s.fwSlot k).revision else 0
  natLE (s.boot.runSlot + 16 * s.pendingSlot.getD 0) 1 ++ List.replicate 7 0 ++ natLE (rev 1) 8 ++ natLE (rev 2) 8 ++ List.replicate 488 0

/-- Sanitize Status (R454): SPROG in 65,536ths, status (0 never, 1 completed, 2 in progress, 3 failed), and the estimates of Table 16-7 in seconds. -/
def State.sanitizeLog (s : State) : List Byte :=
  let failed : Bool := s.sanitizing && s.fget glob_MEDIA_CAUSE 0 == 5
  patched 0x281 512 [(0, natLE (if s.sanitizing ∧ ¬ failed then 256 * s.ftl.sanSteps else 0xFFFF) 2 ++
    natLE (if failed then 3 else if s.sanitizing then 2 else if s.ftl.sanDone then 1 else 0) 1), (8, natLE 1500 4 ++ natLE 30 4 ++ natLE 5 4)]

/-- The log pages a function may read (R131, R132). -/
def logsOf (fn : Nat) : List Nat := [0x00, 0x01, 0x02, 0x03, 0x04, 0x05, 0x81, 0xC0] ++ (if fn = 0 then [0xC1] else []) ++ [0xC2]

/-- Supported Log Pages: bit 0 of a page's entry says that it is supported. -/
def supportedLogs (fn : Nat) : List Byte := (List.range 256).flatMap fun l => natLE (b2n ((logsOf fn).contains l)) 4

/-- Admin and I/O opcodes that a function takes (Tables 05-4 and 05-10, R113). The opcodes of the standard commands are NVMe's. -/
def adminOpcodes (fn : Nat) : List Nat :=
  [0x00, 0x01, 0x02, 0x04, 0x05, 0x06, 0x08, 0x09, 0x0A, 0x0C] ++ (if fn = 0 then [0x0D, 0x10, 0x11, 0x15, 0x1D, 0x1E, 0x80, 0x81, 0x82, 0x84] else []) ++
  [0xC4, 0xC8, 0xCD, 0xCE, 0xD2]
def nvmOpcodes : List Nat := [0x00, 0x01, 0x02, 0x05, 0x08, 0x09, 0x0C]

/-- Commands Supported and Effects: CSUPP is bit 0 of an entry; the effects of a supported command are free. -/
def effectsLog (fn : Nat) : List Byte :=
  let entry (l : List Nat) (kind k : Nat) : List Byte :=
    if l.contains k then
      let e := leNat ((List.range 4).map fun i => Config.infoByte kind (4 * k + i))
      natLE (e / 2 * 2 + 1) 4
    else natLE 0 4
  (List.range 256).flatMap (entry (adminOpcodes fn) 0x205) ++ (List.range 256).flatMap (entry nvmOpcodes 0x206) ++ List.replicate 2048 0

/-- Task registers 0x00 to 0x8F (Table 06-4). -/
def TaskRegs.bytes (r : TaskRegs) : List Byte :=
  natLE r.slot 4 ++ natLE r.progBase 4 ++ natLE r.issueIndex 4 ++ natLE r.lastYield 4 ++
  ((List.range 4).flatMap fun k => natLE (r.loops.getD k 0 + 2 ^ 31 * b2n (r.loopActive.getD k false)) 4) ++ natLE r.heldSem 4 ++ natLE r.result 4 ++
  natLE r.flags 4 ++ natLE 0 4 ++ natLE r.startTick 8 ++ natLE r.paceOffset 8 ++ ((List.range 8).flatMap fun k => natLE (r.base.getD k 0) 8) ++
  natLE r.argBase 4 ++ natLE r.timeLimit 4 ++ natLE r.mrs 4 ++ natLE 0 4

/-- The Context Error log (Table 06-10); `frozen` says that the context's queue is frozen now. -/
def CtxLog.bytes (l : CtxLog) (c : Nat) (frozen : Bool) : List Byte :=
  let regs (h : Nat) : List Byte := match l.regs[h]? with
    | some r => r.bytes
    | none => List.replicate 144 0
  let head := natLE 1 2 ++ natLE c 1 ++ natLE (if l.state = 3 ∨ frozen then l.state else 0) 1 ++ natLE l.sqid 2 ++ natLE l.cid 2 ++ natLE l.code 2 ++
    natLE l.index 2 ++ natLE l.case 1 ++ natLE l.hob 1 ++ natLE l.ucls 1 ++ natLE l.uinst 1 ++ natLE l.tick 8 ++ dtcBytes l.dtc ++ natLE l.info 8 ++
    natLE l.later 2 ++ natLE l.held.length 2 ++ natLE l.freezes 4 ++ natLE l.slot 1 ++ List.replicate 11 0
  let held := (l.held.take 256).flatMap fun h => natLE h.1 2 ++ natLE h.2.1 1 ++ natLE h.2.2 1
  let sems := (l.sems.take 512).flatMap fun v => natLE v 2
  head ++ regs 0 ++ regs 1 ++ List.replicate 672 0 ++ (held ++ List.replicate 1024 0).take 1024 ++ (sems ++ List.replicate 1024 0).take 1024 ++
    List.replicate 1024 0

/-- The Context Error log of a context as a function may read it (R132, R165): zeros where none has been recorded; none where the context, or the log
kept of it, is another function's. -/
def State.contextLog (s : State) (fn c : Nat) : Option (List Byte) :=
  match s.ctx? c with
  | some x => if fn ≠ 0 ∧ x.req.fn ≠ fn then none
    else if x.log.freezes = 0 then some (List.replicate 4096 0) else some (x.log.bytes c (x.st = .frozen))
  | none => match sget? s.cp.oldLogs c with
    | some l => if fn ≠ 0 ∧ l.owner ≠ fn then none else some (l.bytes c false)
    | none => if fn = 0 then some (List.replicate 4096 0) else none

/-- A Last Events header from the values of `recHeader` (Table 18-9). -/
def eventsHead (source status : Nat) (h : List Nat) : List Byte :=
  let g (k : Nat) : Nat := h.getD k 0
  natLE 1 2 ++ natLE source 1 ++ natLE status 1 ++ natLE (g 0) 4 ++ natLE (g 1) 4 ++ natLE (g 2) 1 ++ natLE (g 3) 1 ++ natLE 0 2 ++ natLE (g 4) 8 ++
  natLE (g 5) 8 ++ dtcBytes (g 6) ++ natLE (g 7) 8 ++ dtcBytes (g 8) ++ natLE (g 9) 8 ++ natLE (g 10) 4 ++ natLE (g 11) 4

/-- Last Events (R500): 0 the live ring; 1 and 2 the eFlash record slots. -/
def State.eventsLog (s : State) (lsp : Nat) : List Byte :=
  let tail := List.replicate 4012 (0 : Byte)
  if lsp = 0 then
    eventsHead 0 (if s.fget rec_FROZEN 0 = 1 then 4 else 3) (s.recHeader 0) ++ natLE 0 4 ++ tail ++ ringBytes s.kettle.ring
  else
    let k := lsp - 1
    let st := s.fget (rec_SLOT k) 0
    if st = 1 then
      let head := eventsHead lsp 0 (sget s.kettle.recordHdr k [])
      let ring := ringBytes (sget s.kettle.records k [])
      head ++ natLE (Config.crc32c (head ++ ring)) 4 ++ tail ++ ring
    else eventsHead lsp (if st = 2 then 2 else 1) [] ++ natLE 0 4 ++ tail ++ List.replicate 262144 0

/-- The bytes of a log page as a function may read it, or the status that refuses it (R131, R132). DESIGN CHOICE (log 47): a Context Error request whose LSI
names no context number, 64 or more, completes with Invalid Field in Command; the spec gives no status for it. -/
def State.logPage (s : State) (fn lid lsi lsp : Nat) : Except (Nat × Nat) (List Byte) :=
  if ¬ (logsOf fn).contains lid then .error (1, 0x09)
  else if lid = 0x00 then .ok (supportedLogs fn)
  else if lid = 0x01 then .ok (s.errorLog fn)
  else if lid = 0x02 then .ok (s.smartLog fn)
  else if lid = 0x03 then .ok s.fwLog
  else if lid = 0x04 then .ok ((((s.ctrl fn).changed.flatMap fun n => natLE n 4) ++ List.replicate 4096 0).take 4096)
  else if lid = 0x05 then .ok (effectsLog fn)
  else if lid = 0x81 then .ok s.sanitizeLog
  else if lid = 0xC0 then
    if 64 ≤ lsi then .error (0, 0x02) else match s.contextLog fn lsi with
      | some d => .ok d
      | none => .error (1, 0x09)
  else if lid = 0xC1 then (if 2 < lsp then .error (0, 0x02) else .ok (s.eventsLog lsp))
  else if lsp = 0 then .ok (s.floorLog fn) else .error (0, 0x02)

/-- A log read with RAE = 0 re-arms its events, a Context Error log that of its context (Table 05-13), and empties the Changed Namespace List. -/
def State.rearmLog (s : State) (fn lid lsi : Nat) : State :=
  let s1 := if lid = 0x02 then (List.range 3).foldl (fun (t : State) (k : Nat) => t.rearm fn 1 k) s
    else if lid = 0x03 then s.rearm fn 2 1 else if lid = 0x04 then s.rearm fn 2 0 else if lid = 0x81 then s.rearm fn 2 2
    else if lid = 0xC0 then s.rearm fn 7 1 lsi else if lid = 0xC1 then (s.rearm fn 7 2).rearm fn 7 3 else s
  if lid = 0x04 then s1.setCtrl fn { s1.ctrl fn with changed := [] } else s1

/-- A Context Error log of a frozen context, read by its owner from byte 0 to 63 at least, allows a Resume (R164). -/
def State.noteLogRead (s : State) (fn lid lsi off n : Nat) : State :=
  if lid ≠ 0xC0 ∨ off ≠ 0 ∨ n < 64 then s
  else match s.ctx? lsi with
    | some x => if x.req.fn = fn ∧ x.st = .frozen then s.setCtx lsi { x with logRead := true } else s
    | none => s

/-- The reference pair of the live ring's log is read by the recorder party at crossing point 5 (Table 18-9). -/
def State.readPair (s : State) (lid lsp : Nat) : State := if lid = 0xC1 ∧ lsp = 0 then s.serve 5 0 2 else s

/-- GET_LOG_PAGE (R131, R132): `n` bytes from an offset that is a multiple of 4; zeros beyond the page. An interval of LID 0xC2 is opened and closed by
rows of their own. -/
def execGetLogPage (cmd : CmdId) (lid lsi lsp off n : Nat) (rae : Bool) (s : State) : Res :=
  if ¬ s.takes cmd ∨ (lid = 0xC2 ∧ (lsp = 1 ∨ lsp = 2)) then .next s
  else if s.turnedAway cmd false then .next (s.turnAway cmd)
  else if off % 4 ≠ 0 ∨ n % 4 ≠ 0 ∨ n = 0 ∨ 2 ^ 21 < n then .next (s.complete cmd 0 0x02)
  else match s.logPage cmd.fn lid lsi lsp with
    | .error e => .next (s.complete cmd e.1 e.2)
    | .ok d =>
      let s1 := ((s.readPair lid lsp).noteLogRead cmd.fn lid lsi off n).succeed cmd 0 (logSlice d off n)
      .next (if rae then s1 else s1.rearmLog cmd.fn lid lsi)

/-- A Get Log Page of LID 0xC2 that opens or closes the host interval waits for the next sample boundary (R494). -/
def State.floorCommand (s : State) (cmd : CmdId) (opens : Bool) (off n : Nat) : State :=
  if cmd.fn ≠ 0 ∨ off % 4 ≠ 0 ∨ n % 4 ≠ 0 ∨ n = 0 ∨ 2 ^ 21 < n then s.complete cmd 0 0x02
  else { s with kettle := { s.kettle with floorWait := s.kettle.floorWait ++ [(cmd, opens, off, n)] } }

/-- FLOOR_RATIO_OPEN_INTERVAL (R494). -/
def execFloorRatioOpenInterval (cmd : CmdId) (off n : Nat) (s : State) : Res :=
  if ¬ s.takes cmd then .next s
  else if s.turnedAway cmd false then .next (s.turnAway cmd)
  else .next (s.floorCommand cmd true off n)

/-- FLOOR_RATIO_CLOSE_INTERVAL (R494). -/
def execFloorRatioCloseInterval (cmd : CmdId) (off n : Nat) (s : State) : Res :=
  if ¬ s.takes cmd then .next s
  else if s.turnedAway cmd false then .next (s.turnAway cmd)
  else .next (s.floorCommand cmd false off n)

/-! ### NVMe-MI (R112, R481 to R483) -/

/-- The answer to an NVMe-MI request: from Kettle state, or through crossing point 4 as the Kettle party (R482); while the control plane is held in reset, a request that needs it
is answered Controller Not Ready. -/
def State.miServe (s : State) (r : MiRequest) : List Byte × State :=
  let notReady : List Byte := natLE Config.miNotReady 1
  let k := s.kettle
  match r with
  | .dataStructure d => (natLE 0 1 ++ mgmt (0x100 + d) [], s)
  | .subsystemHealth =>
    (natLE 0 1 ++ mgmt 0x201 [s.criticalWarning 0, s.compositeK, s.percentageUsed, s.availableSpare, s.fget (hdr_STATE 0) 0], s)
  | .controllerHealth fn =>
    if ¬ s.planesOn then (notReady, s)
    else (natLE 0 1 ++ mgmt 0x202 [fn, b2n (s.ctrl fn).rdy, (s.ctrl fn).shst, s.criticalWarning fn, s.compositeK, s.percentageUsed, s.availableSpare],
      s.serve 4 0 0)
  | .configGet id =>
    if id = 1 then (natLE 0 1 ++ natLE (if k.smbusKhz = 400 then 2 else 1) 2, s)
    else if id = 3 then (natLE 0 1 ++ natLE k.mtu 2, s) else (natLE 4 1, s)
  | .configSet id v =>
    if id = 1 ∧ (v = 1 ∨ v = 2) then (natLE 0 1, { s with kettle := { k with smbusKhz := if v = 2 then 400 else 100 } })
    else if id = 3 ∧ 64 ≤ v ∧ v ≤ 256 then (natLE 0 1, { s with kettle := { k with mtu := v } }) else (natLE 4 1, s)
  | .vpdRead off n => (natLE 0 1 ++ mgmt 0x205 [off, n], s)
  | .identify fn cns nsid =>
    if ¬ s.planesOn then (notReady, s)
    else match s.idData fn cns nsid with
      | some d => (natLE 0 1 ++ d, s.serve 4 0 0)
      | none => (natLE 4 1, s.serve 4 0 0)
  | .getLog fn lid lsi lsp off n =>
    if ¬ s.planesOn ∧ lid ≠ 0xC1 then (notReady, s)
    else
      let t := if lid = 0xC1 then s.readPair lid lsp else s.serve 4 0 0
      match s.logPage fn lid lsi lsp with
      | .ok d => (natLE 0 1 ++ logSlice d off n, t)
      | .error _ => (natLE 4 1, t)
  | .getFeatures fn fid cdw11 =>
    if ¬ s.planesOn then (notReady, s)
    else match s.readFeature fn fid cdw11 with
      | some (d, bs) => (natLE 0 1 ++ natLE d 4 ++ bs, s)
      | none => (natLE 4 1, s)
  | .other _ => (natLE 3 1, s)

/-- A transport reaches the Kettle's endpoint: PCIe VDM only while the link is up and function 0 has Bus Master Enable (Table 18-1). -/
def State.reaches (s : State) (t : Transport) : Bool :=
  s.mctpUp && (match t with
    | .vdm => s.planesOn && s.host.linkUp && (s.pciOf 0).master
    | _ => true)

/-- An answer sent over MCTP, as bytes. -/
def State.mctpSend (s : State) (l : List Byte) : State := { s with kettle := { s.kettle with mctpOut := s.kettle.mctpOut ++ [l] } }

/-- NVME_MI_REQUEST (R481 to R483): an NVMe-MI request over MCTP. -/
def execNvmeMiRequest (t : Transport) (r : MiRequest) (s : State) : Res :=
  if ¬ s.reaches t ∨ ¬ s.kettleOn then .next s
  else
    let x := s.miServe r
    .next (x.2.mctpSend x.1)

/-- NVME_MI_SEND (R112): a management request in band; its response waits for an NVMe-MI Receive. -/
def execNvmeMiSend (cmd : CmdId) (r : MiRequest) (s : State) : Res :=
  if ¬ s.takes cmd then .next s
  else if cmd.fn ≠ 0 then .next (s.complete cmd 0 0x01)
  else if s.turnedAway cmd true then .next (s.turnAway cmd)
  else
    let x := s.miServe r
    .next (({ x.2 with kettle := { x.2.kettle with miOut := x.2.kettle.miOut ++ [x.1] } } : State).succeed cmd)

/-- NVME_MI_RECEIVE (R112): the oldest response not yet fetched; none is no data. -/
def execNvmeMiReceive (cmd : CmdId) (n : Nat) (s : State) : Res :=
  if ¬ s.takes cmd then .next s
  else if cmd.fn ≠ 0 then .next (s.complete cmd 0 0x01)
  else if s.turnedAway cmd false then .next (s.turnAway cmd)
  else match s.kettle.miOut with
    | [] => .next (s.succeed cmd)
    | r :: rs => .next (({ s with kettle := { s.kettle with miOut := rs } } : State).succeed cmd 0 (r.take n))

/-! ### PLDM (R481, R484, R490) -/

/-- The answer to a PLDM base, platform or FRU request: completion code, then data; completion codes and layouts are PLDM's (log 30). -/
def State.pldmServe (s : State) (r : PldmRequest) : List Byte × State :=
  match r with
  | .getTid => (natLE 0 1 ++ natLE s.kettle.tid 1, s)
  | .setTid v => if v = 0 ∨ 0xFF ≤ v then (natLE 2 1, s) else (natLE 0 1, { s with kettle := { s.kettle with tid := v } })
  | .getTypes => (natLE 0 1 ++ natLE 0x35 8, s)
  | .getVersion t => (if t = 0 ∨ t = 2 ∨ t = 4 ∨ t = 5 then natLE 0 1 ++ mgmt 0x300 [t] else natLE 0x83 1, s)
  | .getCommands t => (if t = 0 ∨ t = 2 ∨ t = 4 ∨ t = 5 then natLE 0 1 ++ mgmt 0x301 [t] else natLE 0x83 1, s)
  | .sensor n =>
    if ¬ sensorExists s.variant n then (natLE 0x80 1, s)
    else (natLE 0 1 ++ natLE 5 1 ++ natLE (if s.kettle.failed.contains n then 3 else if (sget? s.kettle.sensors n).isNone then 2 else 0) 1 ++
      natLE 0 4 ++ natLE (unsigned (s.reading n) 32) 4, s)
  | .powerCap => (natLE 0 1 ++ natLE 3 1 ++ natLE 0 1 ++ natLE (s.fget kettle_POWER_CAP 0) 2 ++ natLE (s.fget kettle_POWER_CAP 0) 2, s)
  | .pdr h => (natLE 0 1 ++ mgmt 0x302 (h :: sensorsOf s.variant), s)
  | .fru => (natLE 0 1 ++ partNumber s.variant ++ mgmt 0x303 [s.boot.slotA.revision, s.boot.slotB.revision], s)
  | .other _ => (natLE 5 1, s)

/-- PLDM_PLATFORM_REQUEST (R481, R484): answered from Kettle state, whether or not the control plane is up. -/
def execPldmPlatformRequest (t : Transport) (r : PldmRequest) (s : State) : Res :=
  if ¬ s.reaches t ∨ ¬ s.kettleOn then .next s
  else
    let x := s.pldmServe r
    .next (x.2.mctpSend x.1)

end Sys2Proof.Machine
end

