-- ==== Sys2Proof/Machine/Reliab.lean ====
section
/-!
DEFINITION. Pantry links and their spare lanes, Colander self-checks, the Hob-to-Hob link, retirement of owned units, and the passes of
the Scourer (17_reliability_and_spares.md, R463 to R480; R383).
-/

namespace Sys2Proof.Machine

/-! ### Pantry links (R463, R466, R467, R477) -/

/-- ERR_FIRST_INFO of the hub page. -/
def hubInfo (k lane : Nat) : Nat := k % 32 + 32 * lane

/-- A link is populated and its lane exists. -/
def State.laneThere (s : State) (k lane : Nat) : Bool := colanderFitted s.variant k && decide (lane < 3)

/-- RETRAINING as the lanes of the link show it. -/
def State.showRetraining (s : State) (k : Nat) : State :=
  if (s.link k).lanes.any (· == 3) then s.fsetBit hub_RETRAINING (k / 32) (k % 32) else s.fclrBit hub_RETRAINING (k / 32) (k % 32)

/-- Retrains attributed to a lane within the last hour. -/
def State.laneRetrains (s : State) (k lane : Nat) : Nat :=
  ((sget s.rel.events (65536 * 10 + 3 * k + lane) []).filter fun t => decide (s.tick < t + hourTicks)).length

/-- A lane is permanently faulty (Table 17-1): two retrains failed in succession, 4 retrains attributed to it within 1 hour, or a unit that exhausted
its 16 replays. -/
def State.lanePermanent (s : State) (k lane : Nat) : Bool :=
  decide (2 ≤ (s.link k).failed.getD lane 0) || decide (4 ≤ s.laneRetrains k lane)

/-- A retrain of a link: counted, with its duration. -/
def State.retrained (s : State) (k us : Nat) (l : Link) : State :=
  (s.setLink k { l with retrains := satAdd l.retrains 1 65535, lastUs := min us 65535 }).fbump col_LINK_RETRAINS k 1

/-- PANTRY_LANE_REPLAY (R463, R477): a 64-byte unit of a lane, or of two lanes, fails its CRC and is replayed; one that exhausts its 16 replays
makes the lane permanent, an injected one apart. -/
def execPantryLaneReplay (k lane tries : Nat) (two : Bool) (s : State) : Res :=
  if ¬ s.laneThere k lane ∨ (s.link k).lanes.getD lane 2 ≠ 0 then .next s
  else
    let h := k / 32
    let b := if two then 3 else 2
    let inj : Bool := s.injectLeft 0x20 h b != 0
    let l := s.link k
    let s1 := ((s.setLink k { l with replays := satAdd l.replays 1 0xFFFFFFFF }).count 0x20 h 2 1).err 0x20 h [b] (hubInfo k lane)
    .next (if inj ∨ tries ≤ 16 then s1 else s1.setLink k { s1.link k with failed := setAt (s1.link k).failed lane 2 })

/-- PANTRY_LANE_LOSS_OF_LOCK (R463): a lane loses lock and the link retrains in `us` µs. One that succeeds is a transient that counts towards the
lane's limits; while none has, the lane stays in training. -/
def execPantryLaneLossOfLock (k lane us : Nat) (ok : Bool) (s : State) : Res :=
  let l := s.link k
  let st := l.lanes.getD lane 2
  if ¬ s.laneThere k lane ∨ (st ≠ 0 ∧ st ≠ 3) then .next s
  else
    let s1 := s.retrained k us { l with
      lanes := setAt l.lanes lane (if ok then 0 else 3), failed := setAt l.failed lane (if ok then 0 else l.failed.getD lane 0 + 1) }
    let s2 := if ok then ((s1.err 0x20 (k / 32) [2] (hubInfo k lane)).countEvent 10 (3 * k + lane) hourTicks).2 else s1
    .next (s2.showRetraining k)

/-- The idle spare lane of a link. -/
def Link.idle (l : Link) : Option Nat := (List.range 3).find? fun n => l.lanes.getD n 2 == 1

/-- A lane of a link is retired within a retrain of `us` µs (R466, R467); `sp` is the spare that takes its place. -/
def State.retireLane (s : State) (k lane us : Nat) (sp : Option Nat) : State :=
  let l := s.link k
  let off := setAt l.lanes lane 2
  ((s.retrained k us { l with
    lanes := match sp with
      | some n => setAt off n 0
      | none => off
    failed := setAt l.failed lane 0 }).showRetraining k).recordRetirement 0x20 (k / 32) (3 * (k % 32) + lane)

/-- The pages show the spare lane `sp` in the place of `lane` (R466). -/
def State.showSpareLane (s : State) (k lane sp : Nat) : State :=
  let h := k / 32
  let s1 := ((s.fsetBit hub_SPARE_USED h (k % 32)).fset (hdr_SUB_USED 0x20) h (s.fget (hdr_SUB_USED 0x20) h + 1)).err 0x20 h [8] (hubInfo k lane)
  let s2 := (s1.fset col_SPARE_LANE_USED k 1).fset (hdr_SUB_USED 0x21) k (s1.fget (hdr_SUB_USED 0x21) k + 1)
  s2.spareSwitched 0x20 h 3 (3 * (k % 32) + lane) (3 * (k % 32) + sp)

/-- PANTRY_LANE_SPARE (R466): a permanent lane is retired and the link's idle spare takes its place within a retrain of `us` µs. -/
def execPantryLaneSpare (k lane us : Nat) (s : State) : Res :=
  match (s.link k).idle with
  | none => .next s
  | some sp =>
    if ¬ s.laneThere k lane ∨ (s.link k).lanes.getD lane 2 = 2 ∨ lane = sp ∨ ¬ s.lanePermanent k lane then .next s
    else .next ((s.retireLane k lane us (some sp)).showSpareLane k lane sp)

/-- A package that no read reaches (R423): its link's bit and, where the package is retired already, its tier pages. -/
def State.packageLost (s : State) (k : Nat) : State :=
  let s1 : State := if s.ftl.unreach.contains k then s else { s with ftl := { s.ftl with unreach := s.ftl.unreach ++ [k] } }
  let s2 := s1.unreached k 10
  if s2.packageRetired k then s2.abandon k else s2

/-- PANTRY_LINK_DEGRADE (R467): a permanent lane of a link with no idle spare is retired. On its one good lane the link goes on, and its package is to
be retired; with none left the Colander is out of reach. -/
def execPantryLinkDegrade (k lane us : Nat) (s : State) : Res :=
  let l := s.link k
  if ¬ s.laneThere k lane ∨ l.lanes.getD lane 2 = 2 ∨ l.lanes.getD lane 2 = 4 ∨ l.idle.isSome ∨ ¬ s.lanePermanent k lane then .next s
  else
    let h := k / 32
    let s1 := (s.retireLane k lane us none).classify (pageNo 0x21 k)
    if (setAt l.lanes lane 2).any (fun x => x == 0 || x == 3) then
      .next ((s1.fsetBit hub_DEGRADED h (k % 32)).err 0x20 h [5, 9] (hubInfo k lane))
    else .next ((s1.err 0x20 h [5] (hubInfo k lane)).packageLost k)

/-! ### Colanders (R468) -/

/-- The work that runs on a FAULTED or lost Colander ends: each context whose move needs it faults with COLANDER_UNREACHABLE (R363). -/
def State.dropColander (s : State) (k : Nat) : State :=
  s.moves.foldl (fun (t : State) (m : Move) => match t.ctx? m.ctx with
    | some x => match t.moveFault x m with
      | some (0x56, case, p) =>
        if p = k then t.faultCtx m.ctx { code := 0x56, index := m.index, case := case, hob := m.hob, ucls := 0x21, uinst := k } else t
      | _ => t
    | none => t) s

/-- A Colander starts again after its self-check. -/
def State.restartColander (s : State) (k : Nat) : State :=
  ((s.resetUnit 0x21 k).putControl hdr_ENABLE 0x21 k true).toStarting 0x21 k

/-- The read path of a Colander has failed: it is retired, and its package is out of reach. -/
def State.retireReadPath (s : State) (k : Nat) : State :=
  ((((s.clearUnit 0x21 k).recordRetirement 0x21 k 0x301).toRetired 0x21 k).classify (pageNo 0x21 k)).packageLost k

/-- COLANDER_SELF_CHECK (R468): a Colander that is FAULTED, or that shows a datapath residue mismatch (`residue`), loses its work and checks its read path
and its engines. A pass is a transient; a second one within 24 hours counts as a failure of the part that the first event concerned. `read` says
which part this event concerns. -/
def execColanderSelfCheck (k : Nat) (residue read readOk engOk : Bool) (s : State) : Res :=
  let st := s.fget (hdr_STATE 0x21) k
  if ¬ colanderFitted s.variant k ∨ ¬ (st = 4 ∨ (residue ∧ st = 2)) ∨ s.ftl.unreach.contains k then .next s
  else
    let inj : Bool := s.injectLeft 0x21 k 3 != 0 || s.fget (hdr_FIRST_INJECTED 0x21) k == 1
    let s1 := (if residue then s.faultUnit 0x21 k 3 0 else s).dropColander k
    if inj then .next (s1.restartColander k)
    else if ¬ readOk then .next (s1.retireReadPath k)
    else if ¬ engOk then .next ((s1.retireEngines k).restartColander k)
    else
      let recent (c : Nat) : Bool := (sget s1.rel.events (65536 * 11 + c) []).any fun t => decide (s1.tick < t + dayTicks)
      if recent (2 * k + 1) then .next (s1.retireReadPath k)
      else if recent (2 * k) then .next ((s1.retireEngines k).restartColander k)
      else .next ((s1.countEvent 11 (2 * k + b2n read) dayTicks).2.restartColander k)

/-! ### The Hob-to-Hob link (R463, R470) -/

/-- HOB_LINK_FAULT (R470): the link is down until the module is replaced; of the paired contexts, those in `cs` had transfers in flight and
fault. -/
def execHobLinkFault (cs : List Nat) (s : State) : Res :=
  if s.rel.hobFault then .next s
  else
    let s1 : State := { s with rel := { s.rel with hobFault := true } }
    let s2 := ((s1.recordRetirement 0x10 0 0).recordRetirement 0x10 1 0).smartAdd 16 1
    .next (cs.foldl (fun (t : State) (c : Nat) => match t.ctx? c with
      | some x => if x.req.pairing = 2 ∧ x.st.loaded then t.faultCtx c { code := 0x4D, index := 0xFFFF, ucls := 0x10 } else t
      | none => t) s2)

/-- HOB_LINK_LANE_REPAIR (R463): a lane fault that UCIe lane repair cures: counted, and nothing else. -/
def execHobLinkLaneRepair (h : Nat) (s : State) : Res :=
  if 2 ≤ h ∨ s.rel.hobFault then .next s else .next (s.err 0x10 h [2])

/-! ### Owned units (R465, R469) -/

/-- A unit has no owner and no work. -/
def State.unitFree (s : State) (c i : Nat) : Bool := s.fget (hdr_OWNER_CONTEXT c) i ≥ 64 && !s.unitBusy c i

/-- UNIT_RETIREMENT (R465): a unit classified for retirement, unowned and drained, reaches RETIRED; a Griddle's spare takes its place where it can
(R189). Of class 0x15, `g` is the macro-group. A package is retired by PACKAGE_RETIRE. -/
def execUnitRetirement (c i g : Nat) (s : State) : Res :=
  if c = 0x11 then
    if s.units.retiring.contains i ∧ i < 34 ∧ (List.range 4).all (fun r => s.regionOwner i r = 0xFF) ∧ s.fget (hdr_STATE 0x11) i ≠ 5 then
      .next (s.retireGriddle i)
    else .next s
  else if c = 0x15 then
    if 2 ≤ i ∨ 48 ≤ g ∨ ¬ s.units.retiring.contains (groupKey i g) ∨ s.fget (sb_GROUP_OWNER g) i ≠ 0xFF ∨ s.groupProgram i g then .next s
    else
      let s1 : State := { s with units := { s.units with retiring := s.units.retiring.filter (· ≠ groupKey i g) } }
      .next (s1.sbRetire i g)
  else if c = 0x21 ∨ ¬ s.units.retiring.contains (pageNo c i) ∨ ¬ s.unitFree c i ∨ s.fget (hdr_STATE c) i = 5 then .next s
  else
    let s1 : State := { s with units := { s.units with retiring := s.units.retiring.filter (· ≠ pageNo c i) } }
    .next (((s1.recordRetirement c i 0).toRetired c i).err c i [5])

/-! ### The Scourer (R473, R480) -/

/-- The Scourer makes a pass: the FTL runs, in PS0 to PS2; while a sanitize runs, only the scrubs and the spare checks (`scrub`). -/
def State.scours (s : State) (scrub : Bool) : Bool :=
  s.planesOn && s.ftl.ready && decide (s.fget glob_PS_EFFECTIVE 0 < 3) && (scrub || !s.sanitizing)

/-- A pass visits an item: a period that it has missed is recorded (R472, R473). `hours` is the period. -/
def State.visit (s : State) (pass item hours : Nat) : State :=
  let k := 2 ^ 64 * pass + item
  let s1 := if sget s.rel.visited k 0 + hours * hourTicks < s.rel.scourTime then s.recEv 0x22 0 0x0607 [pass] else s
  { s1 with rel := { s1.rel with visited := sput s1.rel.visited k s1.rel.scourTime } }

/-- A page that the FTL may read for itself now: its package in reach, and its die free or suspendable. -/
def State.ownRead (s : State) (l : Nat) : Option State :=
  let c := locCol l
  let d := locDie l
  if ¬ colanderFitted s.variant c ∨ s.fget (hdr_STATE 0x21) c ≠ 2 ∨ s.ftl.unreach.contains c then none else s.suspendFor c d

/-- NAND_PATROL (R415, R473): one wordline of a written block is read; where a codeword needed more than half of the hard-decode capability, a
valley search stores the offset set `offs` that it found. -/
def execNandPatrol (c d k b wl : Nat) (weak : Bool) (offs : Nat) (s : State) : Res :=
  let key := blockKey c d k b
  let l := key * 2048 + 3 * wl
  let x := s.block key
  if ¬ s.scours false ∨ 16 ≤ d ∨ 6 ≤ k ∨ 2208 ≤ b ∨ x.st = 0 ∨ x.st = 4 ∨ x.next < 3 * wl + 3 ∨ s.dieRetired c d then .next s
  else match s.ownRead l with
  | none => .next s
  | some s1 =>
    let s2 := (List.range 3).foldl (fun (t : State) _ => (t.countOwn c).countRead key) s1
    let s3 := if weak then s2.setOffset c d b offs else s2
    .next (s3.visit 0 key (7 * 24))

/-- MEDIA_SCAN (R445, R473): the page of a MAPPED or SUSPECT IU is read; `step` as in FLASH_READ. A page that needs a step of the ladder reports its
block; a SUSPECT IU that decodes is MAPPED, a MAPPED one that does not is SUSPECT. -/
def execMediaScan (iu step : Nat) (s : State) : Res :=
  let e := s.mapEntry iu
  if ¬ s.scours false ∨ (e.st ≠ 1 ∧ e.st ≠ 2) then .next s
  else match s.ownRead e.loc with
  | none => .next s
  | some s0 =>
    let c := locCol e.loc
    let key := e.loc / 2048
    let inj : Bool := s.injectLeft 0x21 c 3 != 0 || s.injectLeft 0x21 c 2 != 0
    let st := s.ladderStep e.loc step
    let info := locDie e.loc / 2 * 256 + locPage e.loc * 4096
    let s1 := ((s0.countOwn c).countRead key).visit 1 iu (90 * 24)
    if 7 ≤ st then .next (((s1.err 0x21 c [3] info).flashStatus e.loc 0x04 inj).suspect e.loc true)
    else
      let s2 := s1.suspect e.loc false
      if st = 0 then .next s2
      else
        let s3 := (((s2.err 0x21 c [2] info).flashStatus e.loc 0x02 inj).report key)
        let s4 := if st ≤ 5 then s3.setOffset c (locDie e.loc) (locBlock e.loc) st else s3
        .next (if st = 6 ∧ ¬ inj ∧ ¬ s.rebuildOnly e.loc then s4.countStep6 e.loc else s4)

/-- HBM_SCRUB (R254, R255, R473): a pool or device-region page of a stack in service is read. Outcome 0 clean; 1 a sector at byte `a` of the page corrected
and written back; 2 a sector there uncorrectable. -/
def execHbmScrub (t a outcome : Nat) (s : State) : Res :=
  let k := t / 24576
  if ¬ s.scours true ∨ 8 ≤ k ∨ s.stackRetired k ∨ s.tiers.retired.contains t ∨ tierBytes ≤ a then .next s
  else
    let s1 := s.visit 3 t 24
    let info := hbmInfo (t % 24576 * tierBytes + a)
    if outcome = 0 then .next s1
    else if outcome = 1 then .next (if s.injectLeft 0x16 k 2 = 0 then (s1.err 0x16 k [2] info).rowCorrected t else s1.err 0x16 k [2] info)
    else .next ((s1.err 0x16 k [3] info).hbmLost k (t % 24576 * tierBytes + a) false (s.armed 0x16 k [3, 8]).isSome)

/-- SRAM_SCRUB (R239, R473): an unowned SB macro-group (`col` false: Hob `i`, macro-group `g`) or a Colander's SRAM outside its loaded slots (Colander `i`).
Lines that waited for the macro-group to be free are remapped first. Outcome 0 clean; 1 a word at `a` corrected; 2 a word at `a` uncorrectable. -/
def execSramScrub (col : Bool) (i g a outcome : Nat) (s : State) : Res :=
  if ¬ s.scours true then .next s
  else if col then
    if ¬ colanderFitted s.variant i ∨ s.fget (hdr_STATE 0x21) i ≠ 2 ∨ 2 ^ 25 ≤ a then .next s
    else
      let s1 := s.visit 4 (4096 + i) 24
      if outcome = 0 then .next s1
      else if outcome = 1 then
        let inj : Bool := s.injectLeft 0x21 i 2 != 0
        let key := 2 ^ 32 + i * 2 ^ 25 + a / 128 * 128
        let again : Bool := match sget? s.units.sbCorrected key with
          | some t => decide (s.tick < t + dayTicks)
          | none => false
        let s2 := s1.err 0x21 i [2] (a / 128 * 4096)
        let s3 : State := { s2 with units := { s2.units with sbCorrected := sput s2.units.sbCorrected key s.tick } }
        .next (if again ∧ ¬ inj ∧ s3.fget col_REMAP_USED i < 64 then s3.colRemap i (a / 128) else s3)
      else .next (s1.colSram i (a / 128 * 4096) 0xFF)
  else if 2 ≤ i ∨ 48 ≤ g ∨ s.fget (sb_GROUP_OWNER g) i ≠ 0xFF ∨ s.groupProgram i g ∨ s.groupRetired i g ∨ 2 ^ 22 ≤ a then .next s
  else
    let s1 := (s.visit 4 (64 * i + g) 24).sbRemapDue i g
    .next (if outcome = 0 then s1 else if outcome = 1 then s1.sbCorrect i (g * 2 ^ 22 + a) else s1.sbFail i (g * 2 ^ 22 + a) [3])

/-- LPDDR5X_SCRUB (R429, R473): the FTL's array. Outcome 0 clean; 1 a word corrected and written back; 2 an uncorrectable word of map segment `seg`,
which is reloaded. -/
def execLpddr5xScrub (seg outcome : Nat) (s : State) : Res :=
  if ¬ s.scours true ∨ mapSegments s.variant ≤ seg then .next s
  else
    let s1 := s.visit 5 seg 24
    .next (if outcome = 0 then s1 else if outcome = 1 then s1.err 0x22 0 [2] (64 * seg) else s1.err 0x22 0 [8] (64 * seg))

/-- SPARE_GRIDDLE_CHECK (R473): the self-check of R185 on a Hob's spare Griddle while it is not in service. A failing spare is retired. -/
def execSpareGriddleCheck (h : Nat) (ok : Bool) (s : State) : Res :=
  let i := 17 * h + 16
  if ¬ s.scours true ∨ 2 ≤ h ∨ s.fget (hdr_IN_SERVICE 0x11) i = 1 ∨ s.fget (hdr_STATE 0x11) i ≠ 0 then .next s
  else
    let s1 := s.visit 6 h 24
    let s2 := s1.showCheck i 0 ok false 0x1FF
    .next (if ok then s2 else (s2.recordRetirement 0x11 i 0xFFFF).toRetired 0x11 i)

/-- SPARE_LANE_CHECK (R473): the idle spare lane of a link is trained alone. A failing lane is retired; the active lanes go on. -/
def execSpareLaneCheck (k : Nat) (ok : Bool) (s : State) : Res :=
  let l := s.link k
  match l.idle with
  | none => .next s
  | some sp =>
    if ¬ s.scours true ∨ ¬ colanderFitted s.variant k then .next s
    else
      let s1 := s.visit 7 k 24
      if ok then .next s1
      else
        let s2 := (s1.setLink k { l with lanes := setAt l.lanes sp 4 }).recordRetirement 0x20 (k / 32) (3 * (k % 32) + sp)
        .next (s2.err 0x20 (k / 32) [12] (hubInfo k sp))

/-! ### Edge repair (R383, R385, R474) -/

/-- A neighbour list as record numbers: 8 bytes a slot. -/
def neighbours (v : List Byte) : List Nat := (List.range (v.length / 8)).map fun j => fld v (8 * j) 8

/-- A record is live at an epoch: visible, and not deleted. -/
def State.recLive (s : State) (d : List Byte) (epoch r : Nat) : Bool := decide (r < s.recordsOf d epoch) && !s.recDeleted d epoch r

/-- The neighbour list of record `u` with each slot that names a deleted record written again: the first neighbour of that record, in its slot order,
that is live, is not `u` and is not in the list already; else empty (R383). -/
def State.repairList (s : State) (d : List Byte) (epoch col u : Nat) (slots : List Nat) : List Nat :=
  (List.range slots.length).foldl (fun (l : List Nat) (j : Nat) =>
    let x := l.getD j (2 ^ 64 - 1)
    if x < s.recordsOf d epoch ∧ s.recDeleted d epoch x then
      let heirs := neighbours ((s.recValue d epoch col x).getD [])
      setAt l j ((heirs.find? fun y => y != u && !l.contains y && s.recLive d epoch y).getD (2 ^ 64 - 1))
    else l) slots

/-- A page with the value of one slot of column `col` replaced; a compressed page is decoded and written again. -/
def withValue (d : List Byte) (col slot : Nat) (page v : List Byte) : List Byte :=
  let vals := (pageValues d col page).getD []
  let w := colWidth d col
  let new := vals.take (slot * w) ++ v ++ vals.drop (slot * w + w)
  if colLz4 d col then Config.lz4Encode new else new

/-- The first live record from `r` on. -/
def State.liveFrom (s : State) (d : List Byte) (epoch r : Nat) : Option Nat :=
  (List.range (s.recordsOf d epoch)).find? fun u => decide (r ≤ u) && s.recLive d epoch u

/-- The record that the edge repair pass of a domain visits next (R474): live records in ascending number, at the epoch published when the pass starts; an
advance, or the end of a pass, starts again from record 0. -/
def State.repairNext (s : State) (d : List Byte) (m : Domain) : Option Nat :=
  (s.liveFrom d m.epoch (if m.cursor.1 = m.epoch then m.cursor.2 else 0)).orElse fun _ => s.liveFrom d m.epoch 0

/-- The edge repair pass of a domain goes on past record `u`. -/
def State.repaired (s : State) (dom : Nat) (m : Domain) (u : Nat) : State :=
  { s with ftl := { s.ftl with domains := sput s.ftl.domains dom { m with cursor := (m.epoch, u + 1) } } }

/-- The pass is at record `u` now: a pass that starts again is a visit of the domain. -/
def State.repairVisit (s : State) (dom : Nat) (d : List Byte) (m : Domain) (u : Nat) : State :=
  (if s.liveFrom d m.epoch 0 = some u then s.visit 8 dom 24 else s).repaired dom m u

/-- The neighbour list of record `u` is written as a pending version of the device (R383); `mine` is the version that the unit holds already. -/
def State.writeList (s : State) (dom : Nat) (d : List Byte) (m : Domain) (u : Nat) (mine : Option Version) (new : List Nat) : State :=
  let p := recPlace d m.neighCol u
  let page := withValue d m.neighCol p.2 (((s.newest p.1).2).readN 0 16384) (new.flatMap fun y => natLE y 8)
  let lists := ((mine.map fun v => v.lists).getD [] ++ [u]).eraseDups
  (s.stageIu p.1 1 (Mem.empty.writeL 0 page) false s.nextSeq 1 (some dom) true lists).work 64 16 (s.flashBytes [p.1])

/-- EDGE_REPAIR_PASS (R383, R385, R474): the Scourer visits record `u`, the next of its pass over a domain with REPAIR = 1, through collection `id` of a function,
and writes its neighbour list as a pending version where it names deleted records. A unit that holds a context's pending version is left alone, and so is
a page that cannot be read. READ_ONLY and SANITIZING stop the pass. -/
def execEdgeRepairPass (fn id u : Nat) (s : State) : Res :=
  match sget? s.near.collections (65536 * fn + id) with
  | none => .next s
  | some k =>
    let d := k.bytes
    let dom := clDomain d
    match sget? s.ftl.domains dom with
    | none => .next s
    | some m =>
      let p := recPlace d m.neighCol u
      let mine := s.pendingOf p.1
      if ¬ s.scours false ∨ s.fget glob_MEDIA_MODE 0 ≠ 0 ∨ ¬ k.valid ∨ ¬ m.live ∨ ¬ m.repair ∨ clColumns d ≤ m.neighCol ∨
          s.repairNext d m ≠ some u ∨ ¬ s.slotsFree 1 then .next s
      else if mine.any (fun v => !v.repair) ∨ s.iuFails p.1 then .next (s.repaired dom m u)
      else
        let old := neighbours ((s.recValue d m.epoch m.neighCol u).getD [])
        let new := s.repairList d m.epoch m.neighCol u old
        let s1 := s.repairVisit dom d m u
        .next (if new = old then s1 else s1.writeList dom d m u mine new)


end Sys2Proof.Machine
end

