-- ==== Sys2Proof/Machine/Dispatch.lean ====
section
/-!
DEFINITION. One arm per command: a direct call of its meaning.
-/

namespace Sys2Proof.Machine

/-- The effect of a command on the state. -/
def exec (i : Instr) (s : State) : Host.Outcome State Fault Refusal :=
  match i with
  | .powerOnStart inp => Sys2Proof.Machine.execPowerOnStart inp s
  | .inputSwitchClose => Sys2Proof.Machine.execInputSwitchClose s
  | .prsntBOpen mv whole => Sys2Proof.Machine.execPrsntBOpen mv whole s
  | .brownOut mv whole => Sys2Proof.Machine.execBrownOut mv whole s
  | .inputOverVoltage mv whole => Sys2Proof.Machine.execInputOverVoltage mv whole s
  | .inputOverCurrent ma mv whole => Sys2Proof.Machine.execInputOverCurrent ma mv whole s
  | .brownOutRecovery mv bad fails => Sys2Proof.Machine.execBrownOutRecovery mv bad fails s
  | .holdUpBankExhausted => Sys2Proof.Machine.execHoldUpBankExhausted s
  | .brownOutOpHoldExpiry => Sys2Proof.Machine.execBrownOutOpHoldExpiry s
  | .perstAssert hot => Sys2Proof.Machine.execPerstAssert s hot
  | .perstDeassert bad fails => Sys2Proof.Machine.execPerstDeassert bad fails s
  | .pcieLinkTrained width rate => Sys2Proof.Machine.execPcieLinkTrained width rate s
  | .pcieLaneRetire lane eq => Sys2Proof.Machine.execPcieLaneRetire lane eq s
  | .pcieUncorrectableTlp ctx cmd => Sys2Proof.Machine.execPcieUncorrectableTlp ctx cmd s
  | .controllerEnable fn crime wrr asqs acqs => Sys2Proof.Machine.execControllerEnable fn crime wrr s asqs acqs
  | .controllerReset fn => Sys2Proof.Machine.execControllerReset fn s
  | .shutdownNotification fn => Sys2Proof.Machine.execShutdownNotification fn s
  | .functionLevelReset fn => Sys2Proof.Machine.execFunctionLevelReset fn s
  | .mediaReady journal => Sys2Proof.Machine.execMediaReady journal s
  | .watchdogExpiry op whole inp => Sys2Proof.Machine.execWatchdogExpiry op whole inp s
  | .watchdogKick => Sys2Proof.Machine.execWatchdogKick s
  | .heartbeatReport src => Sys2Proof.Machine.execHeartbeatReport src s
  | .opRequestWrite v => Sys2Proof.Machine.execOpRequestWrite v s
  | .boostAllowWrite v => Sys2Proof.Machine.execBoostAllowWrite v s
  | .rampComplete => Sys2Proof.Machine.execRampComplete s
  | .op5ConditionFail => Sys2Proof.Machine.execOp5ConditionFail s
  | .op5HoldExpiry => Sys2Proof.Machine.execOp5HoldExpiry s
  | .rateWindowEnd c inst n => Sys2Proof.Machine.execRateWindowEnd c inst n s
  | .handshakeStall c inst r info ctx whole => Sys2Proof.Machine.execHandshakeStall c inst r info ctx whole s
  | .arbiterGrant cp inst new together => Sys2Proof.Machine.execArbiterGrant cp inst new s together
  | .lockstepSlot cp inst sl new => Sys2Proof.Machine.execLockstepSlot cp inst sl new s
  | .detModeRequestWrite v => Sys2Proof.Machine.execDetModeRequestWrite v s
  | .detModeToLockstep => Sys2Proof.Machine.execDetModeToLockstep s
  | .detModeToFree => Sys2Proof.Machine.execDetModeToFree s
  | .arm => Sys2Proof.Machine.execArm s
  | .lockstepArmTick => Sys2Proof.Machine.execLockstepArmTick s
  | .badAccess a size write => Sys2Proof.Machine.execBadAccess a size write s
  | .registerWrite a v wide => Sys2Proof.Machine.execRegisterWrite a v wide s
  | .readLoLatch a wide => Sys2Proof.Machine.execReadLoLatch a wide s
  | .readClear a => Sys2Proof.Machine.execReadClear a s
  | .pairHiWrite a v => Sys2Proof.Machine.execPairHiWrite a v s
  | .proxyReadTimeout inst off => Sys2Proof.Machine.execProxyReadTimeout inst off s
  | .proxyWriteDropped inst => Sys2Proof.Machine.execProxyWriteDropped inst s
  | .enableWrite c inst v => Sys2Proof.Machine.execEnableWrite c inst v s
  | .drainWrite c inst v => Sys2Proof.Machine.execDrainWrite c inst v s
  | .pageReset c inst => Sys2Proof.Machine.execPageReset c inst s
  | .unitStartComplete c inst ok => Sys2Proof.Machine.execUnitStartComplete c inst ok s
  | .startLimitExpiry c inst => Sys2Proof.Machine.execStartLimitExpiry c inst s
  | .drainComplete c inst => Sys2Proof.Machine.execDrainComplete c inst s
  | .errStatusClear c inst mask fv => Sys2Proof.Machine.execErrStatusClear c inst mask fv s
  | .errorCapture c inst b info ctx => Sys2Proof.Machine.execErrorCapture c inst b info ctx s
  | .injectGo c inst => Sys2Proof.Machine.execInjectGo c inst s
  | .snapshotTrigger c inst => Sys2Proof.Machine.execSnapshotTrigger c inst s
  | .globalSnapshotTrigger => Sys2Proof.Machine.execGlobalSnapshotTrigger s
  | .snapshotCapture => Sys2Proof.Machine.execSnapshotCapture s
  | .timeSourceRequestWrite v => Sys2Proof.Machine.execTimeSourceRequestWrite v s
  | .testModeEnter key => Sys2Proof.Machine.execTestModeEnter key s
  | .testModeLeave => Sys2Proof.Machine.execTestModeLeave s
  | .mediaReadOnlyEntry => Sys2Proof.Machine.execMediaReadOnlyEntry s
  | .sqDoorbell fn q tail => Sys2Proof.Machine.execSqDoorbell fn q tail s
  | .cqDoorbell fn q n => Sys2Proof.Machine.execCqDoorbell fn q n s
  | .commandFetch cid slm => Sys2Proof.Machine.execCommandFetch cid slm s
  | .overloadRaise k => Sys2Proof.Machine.execOverloadRaise k s
  | .overloadClear k => Sys2Proof.Machine.execOverloadClear k s
  | .identify cmd cns nsid => Sys2Proof.Machine.execIdentify cmd cns nsid s
  | .getLogPage cmd lid lsi lsp off n rae => Sys2Proof.Machine.execGetLogPage cmd lid lsi lsp off n rae s
  | .floorRatioOpenInterval cmd off n => Sys2Proof.Machine.execFloorRatioOpenInterval cmd off n s
  | .floorRatioCloseInterval cmd off n => Sys2Proof.Machine.execFloorRatioCloseInterval cmd off n s
  | .getFeatures cmd fid cdw11 => Sys2Proof.Machine.execGetFeatures cmd fid cdw11 s
  | .setFeatures cmd fid cdw11 data => Sys2Proof.Machine.execSetFeatures cmd fid cdw11 data s
  | .setFeaturesPowerManagement cmd ps => Sys2Proof.Machine.execSetFeaturesPowerManagement cmd ps s
  | .setFeaturesContextQuota cmd vf quota => Sys2Proof.Machine.execSetFeaturesContextQuota cmd vf quota s
  | .createIoSq cmd q size cq prio compute ctx low => Sys2Proof.Machine.execCreateIoSq cmd q size cq prio compute ctx low s
  | .createIoCq cmd q size ien iv => Sys2Proof.Machine.execCreateIoCq cmd q size ien iv s
  | .deleteIoSq cmd q => Sys2Proof.Machine.execDeleteIoSq cmd q s
  | .deleteIoCq cmd q => Sys2Proof.Machine.execDeleteIoCq cmd q s
  | .abort cmd sqid cid => Sys2Proof.Machine.execAbort cmd sqid cid s
  | .abortTimeout cmd => Sys2Proof.Machine.execAbortTimeout cmd s
  | .asyncEventRequest cmd => Sys2Proof.Machine.execAsyncEventRequest cmd s
  | .asyncEventPost fn type info => Sys2Proof.Machine.execAsyncEventPost fn type info s
  | .namespaceManagement cmd create slm nsid size lbaf pset => Sys2Proof.Machine.execNamespaceManagement cmd create slm nsid size lbaf pset s
  | .namespaceAttachment cmd nsid attach fns => Sys2Proof.Machine.execNamespaceAttachment cmd nsid attach fns s
  | .formatNvm cmd nsid lbaf ses => Sys2Proof.Machine.execFormatNvm cmd nsid lbaf ses s
  | .sanitize cmd action pattern noDealloc => Sys2Proof.Machine.execSanitize cmd action pattern noDealloc s
  | .sanitizeProgress => Sys2Proof.Machine.execSanitizeProgress s
  | .sanitizeComplete => Sys2Proof.Machine.execSanitizeComplete s
  | .sanitizeFail info => Sys2Proof.Machine.execSanitizeFail info s
  | .firmwareImageDownload cmd off data => Sys2Proof.Machine.execFirmwareImageDownload cmd off data s
  | .firmwareCommitWrite cmd fs whole => Sys2Proof.Machine.execFirmwareCommitWrite cmd fs whole s
  | .firmwareCommitWriteActivate cmd fs whole => Sys2Proof.Machine.execFirmwareCommitWriteActivate cmd fs whole s
  | .firmwareCommitActivate cmd fs => Sys2Proof.Machine.execFirmwareCommitActivate cmd fs s
  | .keyPackageCommit cmd ca => Sys2Proof.Machine.execKeyPackageCommit cmd ca s
  | .securitySend cmd proto m auth data => Sys2Proof.Machine.execSecuritySend cmd proto m auth data s
  | .securityReceive cmd proto => Sys2Proof.Machine.execSecurityReceive cmd proto s
  | .nvmeMiSend cmd r => Sys2Proof.Machine.execNvmeMiSend cmd r s
  | .nvmeMiReceive cmd n => Sys2Proof.Machine.execNvmeMiReceive cmd n s
  | .resumeContext cmd c discard => Sys2Proof.Machine.execResumeContext cmd c discard s
  | .tearDownContext cmd c => Sys2Proof.Machine.execTearDownContext cmd c s
  | .collectionDescriptorSet cmd id c data => Sys2Proof.Machine.execCollectionDescriptorSet cmd id c data s
  | .collectionDescriptorGet cmd id => Sys2Proof.Machine.execCollectionDescriptorGet cmd id s
  | .timeQuery cmd => Sys2Proof.Machine.execTimeQuery cmd s
  | .adminUnsupported cmd => Sys2Proof.Machine.execAdminUnsupported cmd s
  | .nvmRead cmd ns slba nlb lr hard => Sys2Proof.Machine.execNvmRead cmd ns slba nlb lr hard s
  | .nvmWrite cmd ns slba data => Sys2Proof.Machine.execNvmWrite cmd ns slba data s
  | .nvmFlush cmd ns => Sys2Proof.Machine.execNvmFlush cmd ns s
  | .nvmWriteZeroes cmd ns slba nlb => Sys2Proof.Machine.execNvmWriteZeroes cmd ns slba nlb s
  | .datasetManagementDeallocate cmd ns ad rs => Sys2Proof.Machine.execDatasetManagementDeallocate cmd ns ad rs s
  | .nvmCompare cmd ns slba data lr hard => Sys2Proof.Machine.execNvmCompare cmd ns slba data lr hard s
  | .nvmVerify cmd ns slba nlb lr hard => Sys2Proof.Machine.execNvmVerify cmd ns slba nlb s lr hard
  | .slmRead cmd ns off n => Sys2Proof.Machine.execSlmRead cmd ns off n s
  | .slmWrite cmd ns off data => Sys2Proof.Machine.execSlmWrite cmd ns off data s
  | .executeProgram cmd nsid cdw10 cdw11 limit cdw13 dptr => Sys2Proof.Machine.execExecuteProgram cmd nsid cdw10 cdw11 limit cdw13 dptr s
  | .loadProgram cmd nsid slot off data => Sys2Proof.Machine.execLoadProgram cmd nsid slot off data s
  | .programActivationManagement cmd nsid slot on => Sys2Proof.Machine.execProgramActivationManagement cmd nsid slot on s
  | .memoryRangeSetManagement cmd nsid set rs => Sys2Proof.Machine.execMemoryRangeSetManagement cmd nsid set rs s
  | .apstIdleExpiry => Sys2Proof.Machine.execApstIdleExpiry s
  | .psEntryStart => Sys2Proof.Machine.execPsEntryStart s
  | .psEntryComplete => Sys2Proof.Machine.execPsEntryComplete s
  | .psExitComplete => Sys2Proof.Machine.execPsExitComplete s
  | .taskStart c => Sys2Proof.Machine.execTaskStart c s
  | .taskEnd c => Sys2Proof.Machine.execTaskEnd c s
  | .taskFault c h code idx case ucls uinst => Sys2Proof.Machine.execTaskFault c h code idx case ucls uinst s
  | .taskTimeout c => Sys2Proof.Machine.execTaskTimeout c s
  | .barrier c h => Sys2Proof.Machine.execBarrier c h s
  | .barrierRelease c h => Sys2Proof.Machine.execBarrierRelease c h s
  | .semWait c h => Sys2Proof.Machine.execSemWait c h s
  | .semWaitSatisfied c h => Sys2Proof.Machine.execSemWaitSatisfied c h s
  | .semSignal c h => Sys2Proof.Machine.execSemSignal c h s
  | .semSignalEffect c h inst => Sys2Proof.Machine.execSemSignalEffect c h inst s
  | .yield c h => Sys2Proof.Machine.execYield c h s
  | .yieldDrained c => Sys2Proof.Machine.execYieldDrained c s
  | .repeat c h => Sys2Proof.Machine.execRepeat c h s
  | .griddleMm c h => Sys2Proof.Machine.execGriddleMm c h s
  | .griddlePassComplete inst r => Sys2Proof.Machine.execGriddlePassComplete inst r s
  | .griddleCheckError inst r kind info whole => Sys2Proof.Machine.execGriddleCheckError inst r kind info whole s
  | .streamMismatch inst r port => Sys2Proof.Machine.execStreamMismatch inst r port s
  | .griddleSelfCheck inst r => Sys2Proof.Machine.execGriddleSelfCheck inst r s
  | .griddleSelfCheckDone inst outcome row col => Sys2Proof.Machine.execGriddleSelfCheckDone inst outcome row col s
  | .selfCheckGo inst => Sys2Proof.Machine.execSelfCheckGo inst s
  | .spareRowCommit inst => Sys2Proof.Machine.execSpareRowCommit inst s
  | .griddleRetire inst => Sys2Proof.Machine.execGriddleRetire inst s
  | .drainCfg c h => Sys2Proof.Machine.execDrainCfg c h s
  | .drainTableLoadDone inst r => Sys2Proof.Machine.execDrainTableLoadDone inst r s
  | .drainTileStart inst r => Sys2Proof.Machine.execDrainTileStart inst r s
  | .drainTileComplete inst r => Sys2Proof.Machine.execDrainTileComplete inst r s
  | .drainError inst r kind pos whole => Sys2Proof.Machine.execDrainError inst r kind pos whole s
  | .ladleMove c h => Sys2Proof.Machine.execLadleMove c h s
  | .ladleMoveStart ch => Sys2Proof.Machine.execLadleMoveStart ch s
  | .ladleMoveComplete ch => Sys2Proof.Machine.execLadleMoveComplete ch s
  | .ladleHalt ch addr staging => Sys2Proof.Machine.execLadleHalt ch addr staging s
  | .sbReadError h a double user ch => Sys2Proof.Machine.execSbReadError h a double user ch s
  | .whisk c h => Sys2Proof.Machine.execWhisk c h s
  | .whiskCheckError inst kind info => Sys2Proof.Machine.execWhiskCheckError inst kind info s
  | .hbmReadError k a outcome parity user n cmd => Sys2Proof.Machine.execHbmReadError k a outcome parity user n cmd s
  | .hbmRowRepair t bankLeft => Sys2Proof.Machine.execHbmRowRepair t bankLeft s
  | .hbmPseudoChannelRetire k p train => Sys2Proof.Machine.execHbmPseudoChannelRetire k p s train
  | .heatDecay => Sys2Proof.Machine.execHeatDecay s
  | .placementPeriod => Sys2Proof.Machine.execPlacementPeriod s
  | .placementCopyComplete tk => Sys2Proof.Machine.execPlacementCopyComplete tk s
  | .windowPageReady ch page => Sys2Proof.Machine.execWindowPageReady ch page s
  | .batchStep c => Sys2Proof.Machine.execBatchStep c s
  | .createContext v => Sys2Proof.Machine.execCreateContext v s
  | .cmdTearDown v => Sys2Proof.Machine.execCmdTearDown v s
  | .cmdPreempt v force => Sys2Proof.Machine.execCmdPreempt v force s
  | .cmdSetPolicy v => Sys2Proof.Machine.execCmdSetPolicy v s
  | .contextLoad c => Sys2Proof.Machine.execContextLoad c s
  | .preemptDecision c => Sys2Proof.Machine.execPreemptDecision c s
  | .forceAfterExpiry c => Sys2Proof.Machine.execForceAfterExpiry c s
  | .forcedPreempt c => Sys2Proof.Machine.execForcedPreempt c s
  | .contextSaveComplete c => Sys2Proof.Machine.execContextSaveComplete c s
  | .contextRestore c => Sys2Proof.Machine.execContextRestore c s
  | .contextRestoreComplete c => Sys2Proof.Machine.execContextRestoreComplete c s
  | .puuStep c h => Sys2Proof.Machine.execPuuStep c h s
  | .puuStepComplete h => Sys2Proof.Machine.execPuuStepComplete h s
  | .puuStepFault h kind e inB pos => Sys2Proof.Machine.execPuuStepFault h kind e inB pos s
  | .puuSelfTestGo h => Sys2Proof.Machine.execPuuSelfTestGo h s
  | .puuSelfTestDone h us ok => Sys2Proof.Machine.execPuuSelfTestDone h us ok s
  | .filterLoad c h => Sys2Proof.Machine.execFilterLoad c h s
  | .filterCount c h => Sys2Proof.Machine.execFilterCount c h s
  | .filterBitmap c h => Sys2Proof.Machine.execFilterBitmap c h s
  | .filterGather c h => Sys2Proof.Machine.execFilterGather c h s
  | .skimScanLoadTables c h => Sys2Proof.Machine.execSkimScanLoadTables c h s
  | .skimScanScan c h => Sys2Proof.Machine.execSkimScanScan c h s
  | .colanderDescriptorComplete c h inst => Sys2Proof.Machine.execColanderDescriptorComplete c h inst s
  | .colanderRunFault c h inst kind col info => Sys2Proof.Machine.execColanderRunFault c h inst kind col info s
  | .skimMergeTables c h => Sys2Proof.Machine.execSkimMergeTables c h s
  | .skimMergeMerge c h => Sys2Proof.Machine.execSkimMergeMerge c h s
  | .skimMergeExpand c h => Sys2Proof.Machine.execSkimMergeExpand c h s
  | .skimMergeRerank c h => Sys2Proof.Machine.execSkimMergeRerank c h s
  | .skimMergeRescan c h => Sys2Proof.Machine.execSkimMergeRescan c h s
  | .skimMergeFetch c h => Sys2Proof.Machine.execSkimMergeFetch c h s
  | .skimMergeComplete c h inst check => Sys2Proof.Machine.execSkimMergeComplete c h inst check s
  | .epochAdvance c h => Sys2Proof.Machine.execEpochAdvance c h s
  | .flashProgram c np done => Sys2Proof.Machine.execFlashProgram c np done s
  | .flashProgramFail c d k b => Sys2Proof.Machine.execFlashProgramFail c d k b s
  | .flashErase c d b planes outcome bad => Sys2Proof.Machine.execFlashErase c d b planes outcome bad s
  | .flashRead c d k b p step member own => Sys2Proof.Machine.execFlashRead c d k b p step member own s
  | .flashKeyLoad c slot => Sys2Proof.Machine.execFlashKeyLoad c slot s
  | .programEraseResume c d => Sys2Proof.Machine.execProgramEraseResume c d s
  | .dieTimeout c d => Sys2Proof.Machine.execDieTimeout c d s
  | .zqCalibration c d => Sys2Proof.Machine.execZqCalibration c d s
  | .thresholdTemperatureUpdate c d term => Sys2Proof.Machine.execThresholdTemperatureUpdate c d term s
  | .onfiChannelStepDown c ch ok => Sys2Proof.Machine.execOnfiChannelStepDown c ch ok s
  | .dieRetire c d => Sys2Proof.Machine.execDieRetire c d s
  | .dieRelocationComplete c d => Sys2Proof.Machine.execDieRelocationComplete c d s
  | .packageRetire c => Sys2Proof.Machine.execPackageRetire c s
  | .packageEvacuationComplete c => Sys2Proof.Machine.execPackageEvacuationComplete c s
  | .stagingSlotCommit seq => Sys2Proof.Machine.execStagingSlotCommit seq s
  | .journalFlush => Sys2Proof.Machine.execJournalFlush s
  | .journalForcedFlush => Sys2Proof.Machine.execJournalForcedFlush s
  | .mapEccReload seg => Sys2Proof.Machine.execMapEccReload seg s
  | .gcCopyCommit iu src => Sys2Proof.Machine.execGcCopyCommit iu src s
  | .gcStart c => Sys2Proof.Machine.execGcStart c s
  | .gcStop c => Sys2Proof.Machine.execGcStop c s
  | .retentionRefresh c b => Sys2Proof.Machine.execRetentionRefresh c b s
  | .packageShed c => Sys2Proof.Machine.execPackageShed c s
  | .suspectIuRelocate iu ok => Sys2Proof.Machine.execSuspectIuRelocate iu ok s
  | .pantryLaneReplay k lane tries two => Sys2Proof.Machine.execPantryLaneReplay k lane tries two s
  | .pantryLaneSpare k lane us => Sys2Proof.Machine.execPantryLaneSpare k lane us s
  | .pantryLinkDegrade k lane us => Sys2Proof.Machine.execPantryLinkDegrade k lane us s
  | .colanderSelfCheck k residue read readOk engOk => Sys2Proof.Machine.execColanderSelfCheck k residue read readOk engOk s
  | .hobLinkFault cs => Sys2Proof.Machine.execHobLinkFault cs s
  | .hobLinkLaneRepair h => Sys2Proof.Machine.execHobLinkLaneRepair h s
  | .unitRetirement c inst g => Sys2Proof.Machine.execUnitRetirement c inst g s
  | .nandPatrol c d k b wl weak offs => Sys2Proof.Machine.execNandPatrol c d k b wl weak offs s
  | .mediaScan iu step => Sys2Proof.Machine.execMediaScan iu step s
  | .hbmScrub t a outcome => Sys2Proof.Machine.execHbmScrub t a outcome s
  | .sramScrub col inst g a outcome => Sys2Proof.Machine.execSramScrub col inst g a outcome s
  | .lpddr5xScrub seg outcome => Sys2Proof.Machine.execLpddr5xScrub seg outcome s
  | .spareGriddleCheck h ok => Sys2Proof.Machine.execSpareGriddleCheck h ok s
  | .spareLaneCheck k ok => Sys2Proof.Machine.execSpareLaneCheck k ok s
  | .edgeRepairPass fn id u => Sys2Proof.Machine.execEdgeRepairPass fn id u s
  | .sensorSample vals hs idle => Sys2Proof.Machine.execSensorSample vals hs idle s
  | .railMonitorRecalibrate n => Sys2Proof.Machine.execRailMonitorRecalibrate n s
  | .thermalTripClear => Sys2Proof.Machine.execThermalTripClear s
  | .thermalShutdownRelease bad fails => Sys2Proof.Machine.execThermalShutdownRelease bad fails s
  | .powerCapWrite v pldm => Sys2Proof.Machine.execPowerCapWrite v pldm s
  | .powerCapWindow => Sys2Proof.Machine.execPowerCapWindow s
  | .recorderEntryAccept => Sys2Proof.Machine.execRecorderEntryAccept s
  | .recorderFreeze cause => Sys2Proof.Machine.execRecorderFreeze cause s
  | .hostFreeze both => Sys2Proof.Machine.execHostFreeze both s
  | .unfreeze both => Sys2Proof.Machine.execUnfreeze both s
  | .recordPersist whole => Sys2Proof.Machine.execRecordPersist whole s
  | .mctpSetEndpointId eid => Sys2Proof.Machine.execMctpSetEndpointId eid s
  | .nvmeMiRequest t r => Sys2Proof.Machine.execNvmeMiRequest t r s
  | .pldmPlatformRequest t r => Sys2Proof.Machine.execPldmPlatformRequest t r s
  | .pldmRequestUpdate => Sys2Proof.Machine.execPldmRequestUpdate s
  | .pldmUpdateComponent comp => Sys2Proof.Machine.execPldmUpdateComponent comp s
  | .pldmFirmwareData off data whole => Sys2Proof.Machine.execPldmFirmwareData off data whole s
  | .pldmActivateFirmware now => Sys2Proof.Machine.execPldmActivateFirmware now s
  | .pldmCancelUpdate => Sys2Proof.Machine.execPldmCancelUpdate s
  | .plannedKettleRestart inp => Sys2Proof.Machine.execPlannedKettleRestart inp s
  | .eflashRead a n errs => Sys2Proof.Machine.execEflashRead a n errs s
  | .eflashProgram a data pulseVerify maxPulses record handler need failAt cut => Sys2Proof.Machine.execEflashProgram a data pulseVerify maxPulses record handler need failAt s cut
  | .eflashErase x n pulseVerify maxPulses record handler need failing cut => Sys2Proof.Machine.execEflashErase x n pulseVerify maxPulses record handler need failing s cut
  | .eflashBlankCheck x n => Sys2Proof.Machine.execEflashBlankCheck x n s
  | .configStoreCompaction => Sys2Proof.Machine.execConfigStoreCompaction s
  | .ptpSyncReceived p dom sender logSync t1 cyc => Sys2Proof.Machine.execPtpSyncReceived p dom sender logSync t1 cyc s
  | .ptpAnnounceReceived p dom sender logAnn data => Sys2Proof.Machine.execPtpAnnounceReceived p dom sender logAnn data s
  | .ptpDelayResponse p sender logDelay a b cyc => Sys2Proof.Machine.execPtpDelayResponse p sender logDelay a b cyc s
  | .ptpPdelayRequest p dom cyc cycOut => Sys2Proof.Machine.execPtpPdelayRequest p dom cyc cycOut s
  | .ptpSourceLoss p => Sys2Proof.Machine.execPtpSourceLoss p s
  | .ptpPreferredReturn => Sys2Proof.Machine.execPtpPreferredReturn s
  | .ptmDialog ok root delay ago => Sys2Proof.Machine.execPtmDialog ok root delay ago s
  | .ppsOutEdge => Sys2Proof.Machine.execPpsOutEdge s
  | .ppsInEdge cyc => Sys2Proof.Machine.execPpsInEdge cyc s
  | .ppsInMissing => Sys2Proof.Machine.execPpsInMissing s
  | .ethernetLinkDown p lane => Sys2Proof.Machine.execEthernetLinkDown p lane s
  | .ethernetLinkUp p speed medium => Sys2Proof.Machine.execEthernetLinkUp p speed medium s
  | .ethernetFrameDiscard p kind lane n => Sys2Proof.Machine.execEthernetFrameDiscard p kind lane n s
  | .sniloReadReq port src a n full => Sys2Proof.Machine.execSniloReadReq port src a n full s
  | .sniloReadRsp tag data port src => Sys2Proof.Machine.execSniloReadRsp tag data s port src
  | .sniloNak tag reason port src => Sys2Proof.Machine.execSniloNak tag reason s port src
  | .sniloRetransmit ch port credit via => Sys2Proof.Machine.execSniloRetransmit ch port credit via s
  | .sniloRemoteTimeout ch port credit => Sys2Proof.Machine.execSniloRemoteTimeout ch port credit s
  | .sniloCreditsEnd ch => Sys2Proof.Machine.execSniloCreditsEnd ch s
  | .loadPeers => Sys2Proof.Machine.execLoadPeers s
  | .loadExports => Sys2Proof.Machine.execLoadExports s
  | .clearExports => Sys2Proof.Machine.execClearExports s
  | .sledIdWrite v => Sys2Proof.Machine.execSledIdWrite v s
  | .pantryLaneLossOfLock k lane us ok => Sys2Proof.Machine.execPantryLaneLossOfLock k lane us ok s
  | .pcieLinkReplay lane => Sys2Proof.Machine.execPcieLinkReplay lane s
  | .ptpDelayRequestSend p cyc => Sys2Proof.Machine.execPtpDelayRequestSend p cyc s
  | .arpNeighborDiscovery p target v6 n m => Sys2Proof.Machine.execArpNeighborDiscovery p target v6 n m s
  | .pfcFrame p prio pause => Sys2Proof.Machine.execPfcFrame p prio pause s
  | .pcieConfigurationWrite what v fn => Sys2Proof.Machine.execPcieConfigurationWrite what v s fn
  | .interruptCoalescingTimeout fn iv => Sys2Proof.Machine.execInterruptCoalescingTimeout fn iv s

end Sys2Proof.Machine
end

