-- ==== Sys2Proof/Machine/Tick.lean ====
section
/-!
DEFINITION. The passing of one tick with no command waiting (02_self_timed_logic.md, R50; log 4): the tick count and the Device Time Counter
advance, what counts ticks counts, and what waits for a tick boundary takes effect.
-/

namespace Sys2Proof.Machine

/-! ### STATUS_LED (R570) -/

/-- The row of Table 21-7 that applies; 0 off. -/
def State.ledRow (s : State) : Nat :=
  if s.boot.romFault then 1
  else if s.boot.romRecovery then 2
  else if ¬ s.kettleOn then 0
  else if s.power.thermalOff ∨ s.power.brownOut then 3
  else if s.fget (hdr_STATE 0) 0 = 4 then 4
  else if s.criticalWarning 0 ≠ 0 then 5
  else if s.power.perst ∨ ¬ s.globalOn then 6
  else 7

/-- The pattern follows the condition from this tick boundary on, and keeps its phase while the condition holds. -/
def State.updateLed (s : State) : State :=
  let r := s.ledRow
  if r = s.power.led then s else { s with power := { s.power with led := r, ledSince := s.tick } }

/-- STATUS_LED is lit: the patterns of Table 21-7 in units of 62.5 ms of device time from the start of the pattern. -/
def State.ledLit (s : State) : Bool :=
  let u := (s.tick - s.power.ledSince) * 1024 / 62500000
  match s.power.led with
  | 1 => decide (u % 44 < 24) && decide (u % 44 / 4 % 2 = 0)
  | 2 => u % 2 == 0
  | 3 => decide (u % 8 < 4)
  | 4 => decide (u % 32 < 28)
  | 5 => decide (u % 32 < 8) && decide (u % 32 / 2 % 2 = 0)
  | 6 => decide (u % 32 < 16)
  | 7 => true
  | _ => false

/-! ### What counts ticks -/

/-- Classes of intake (R121): since when each is saturated, or, in sustained overload, unsaturated; SNAP3 of the front end page. -/
def State.trackOverload (s : State) : State :=
  let ks := 64 :: s.cp.ctxs.map Prod.fst
  let hot := ks.filter s.saturated
  let h := s.host
  let since := hot.map fun k => (k, sget h.satSince k s.tick)
  let cool := (h.sustained.filter fun k => !hot.contains k).map fun k => (k, sget h.unsatSince k s.tick)
  let s1 : State := { s with host := { h with
    satSince := since.foldl (fun (m : Store Nat) (p : Nat × Nat) => sput m p.1 p.2) []
    unsatSince := cool.foldl (fun (m : Store Nat) (p : Nat × Nat) => sput m p.1 p.2) [] } }
  if hot.isEmpty then s1 else s1.count 0x03 0 3 1

/-- Counters of ticks: under a thermal or a cap ceiling, in holdover, powered, and in PS0 to PS2 (R473, R476, R501, R556). -/
def State.countTicks (s : State) : State :=
  let s1 := if s.fget kettle_THERMAL_CEILING 0 = 0 then s.count 0x01 0 2 1 else s
  let s2 := if s.fget kettle_CAP_CEILING 0 < 5 then s1.count 0x01 0 3 1 else s1
  let s3 := (if s.fget glob_TIME_SOURCE 0 = 2 then s2.count 0x02 0 3 1 else s2).smartAdd 9 1
  if s.planesOn ∧ s.fget glob_PS_EFFECTIVE 0 < 3 then { s3 with rel := { s3.rel with scourTime := s3.rel.scourTime + 1 } } else s3

/-- A bit 0 or 2 of Critical Warning that has become set posts its event to every controller (R133, R476); entry 17 of the counters keeps the bits
last seen. -/
def State.warn (s : State) : State :=
  let now := Nat.land (s.criticalWarning 0) 5
  let old := sget s.kettle.smart 17 0
  if now = old then s
  else
    let s1 : State := { s with kettle := { s.kettle with smart := sput s.kettle.smart 17 now } }
    s1.liveFns.foldl (fun (t : State) (fn : Nat) => [0, 2].foldl (fun (t : State) (b : Nat) =>
      if bit now b ∧ ¬ bit old b then t.aerWarn fn b else t) t) s1

/-- Contexts in TEARING_DOWN. -/
def State.tearing (s : State) : List Nat := (s.cp.ctxs.filter fun p => p.2.st == .tearingDown).map Prod.fst

/-- Teardowns that began before this tick boundary end, with the commands that asked for them (R165); so do shutdowns whose contexts have stopped (R107);
images under revoked keys leave their slots (R525). -/
def State.settle (s : State) : State :=
  let s0 := s.tearing.foldl (fun (t : State) (c : Nat) => t.finishTear c) s
  let s1 := ((s0.host.ctrls.filter fun p => p.2.shst == 1).map Prod.fst).foldl (fun (t : State) (fn : Nat) =>
    if t.shutDue fn then t.finishShutdown fn else t) s0
  s1.sweepSlots

/-- Versions that only tasks starting at the last tick could have read go (R386). -/
def State.letGo (s : State) : State :=
  if s.ftl.domains.any fun p => p.2.since.any fun t => t.1 + 1 == s.tick then s.prune else s

/-- The time base advances by one tick, 1,024 ns of device time (R50, R532). -/
def State.advanceTime (s : State) : State :=
  ({ s with tick := s.tick + 1, time := { s.time with dtc := s.time.dtc + 1024 * 2 ^ 48 } } : State).applyStep

/-- One tick passes (log 4): the captures due at the present boundary that no command has taken are taken (R73), what waits is charged, and time moves on.
With the Kettle stopped the block idles; in a ROM fault or ROM recovery only the tick count runs, for STATUS_LED. -/
def State.passTick (s : State) : State :=
  if s.boot.romFault ∨ s.boot.romRecovery then ({ s with tick := s.tick + 1 } : State).updateLed
  else if ¬ s.kettleOn then s.updateLed
  else
    let s0 := if s.planesOn then s.captureDue.countWaits else s.captureDue
    let s1 := s0.advanceTime.countTicks.warn
    (if s1.planesOn then s1.trackOverload.settle.letGo else s1).updateLed

end Sys2Proof.Machine
end

