-- ==== Sys2Proof/Machine/Step.lean ====
section
/-!
DEFINITION. One step of the block: the command at the front of the queue, or, on an empty queue, the passing of one
tick.
-/

namespace Sys2Proof.Machine

/-- One step: the command at the front is taken and run on the state with the queue's rest. On an empty queue one
tick passes. DESIGN CHOICE (log 4): the table has no row for a tick. -/
def step (s : State) : Host.Outcome State Fault Refusal :=
  match s.pending with
  | [] => .next s.passTick
  | c :: rest => exec c { s with pending := rest }

/-- The state with the command a table word spells put at the front of its queue. The table gives no row any bits, so
no word spells a command and the state is unchanged (log 5). -/
def State.withFetchWord (s : State) (nbits w : Nat) : State :=
  match decodeTableWord nbits w with
  | some c => { s with pending := c :: s.pending }
  | none => s

end Sys2Proof.Machine
end

