-- ==== Sys2Proof/Safety.lean ====
section
/-!
DEFINITION. What claims are stated in: the canonical form of the state's memories and stores, completion of a
command, and the states that runs reach.
-/

namespace Sys2Proof.Machine

/-- Every byte memory of the machine, and the register store, is in canonical form. -/
def State.Canon (s : State) : Prop :=
  swf s.regs = true ∧ Memory.wf s.tiers.hbm = true ∧ Memory.wf s.cp.sb = true ∧ Memory.wf s.host.mem = true ∧
    Memory.wf s.boot.image = true

/-- The parts of the state: one per field of `State`, and one per memory in them, HBM, the shared buffers, host memory, the staged firmware image
and the pages of the NAND. -/
inductive Part where
  | pending | variant | regs | tick | freeCount | reg | power | arb | kettle | boot | eflash | host | cp | units | tiers | time | ftl | nand | near
  | snilo | rel | hbm | sb | hostMem | image | pages
deriving DecidableEq, Repr

/-- A part is the same in two states. -/
def Part.Same (s t : State) : Part → Prop
  | .pending => t.pending = s.pending
  | .variant => t.variant = s.variant
  | .regs => t.regs = s.regs
  | .tick => t.tick = s.tick
  | .freeCount => t.freeCount = s.freeCount
  | .reg => t.reg = s.reg
  | .power => t.power = s.power
  | .arb => t.arb = s.arb
  | .kettle => t.kettle = s.kettle
  | .boot => t.boot = s.boot
  | .eflash => t.eflash = s.eflash
  | .host => t.host = s.host
  | .cp => t.cp = s.cp
  | .units => t.units = s.units
  | .tiers => t.tiers = s.tiers
  | .time => t.time = s.time
  | .ftl => t.ftl = s.ftl
  | .nand => t.nand = s.nand
  | .near => t.near = s.near
  | .snilo => t.snilo = s.snilo
  | .rel => t.rel = s.rel
  | .hbm => t.tiers.hbm = s.tiers.hbm
  | .sb => t.cp.sb = s.cp.sb
  | .hostMem => t.host.mem = s.host.mem
  | .image => t.boot.image = s.boot.image
  | .pages => t.nand.pages = s.nand.pages

/-- From `s` to `t` only the parts listed may change, and canonical form is kept. -/
def Frame (ps : List Part) (s t : State) : Prop := (∀ p : Part, p ∉ ps → p.Same s t) ∧ (s.Canon → t.Canon)

/-- A command answers a next state, reached from `s` within the parts listed. -/
def Runs (ps : List Part) (s : State) (r : Res) : Prop := ∃ t, r = .next t ∧ Frame ps s t

/-- A command completes: it answers a next state. -/
def Completes (c : Instr) (s : State) : Prop := ∃ t, exec c s = .next t

/-- The states that runs from `s` reach. -/
inductive Reaches (s : State) : State → Prop where
  | refl : Reaches s s
  | step {t u : State} : Reaches s t → step t = .next u → Reaches s u
  | command {t u : State} (c : Instr) : Reaches s t → step { t with pending := t.pending ++ [c] } = .next u → Reaches s u

end Sys2Proof.Machine
end

