-- ==== Sys2Proof/Certificates/Slice0/Obligations.lean ====
section
/-!
DEFINITION. What the provers are asked to prove: the statements about the block, from the numbered rules of the spec.
-/

open Sys2Proof Sys2Proof.Machine

/-- The commands of the input and its switch complete. POWER_ON_START behind a closed switch, with the Kettle down and no ROM recovery, runs the
start-up with RESET_CAUSE 0 and counts a power cycle; INPUT_SWITCH_CLOSE closes the switch and changes nothing else; PRSNT_B_OPEN unseats the
module and, with the switch closed, starts the brown-out sequence; BROWN_OUT below 44.0 V starts it; over-voltage above 60.0 V and over-current
above 50 A open the switch first; BROWN_OUT_RECOVERY in the operating range, seated, ends the brown-out, holds OP0 for 100 ms and releases the control
plane unless a thermal shutdown lasts; HOLD_UP_BANK_EXHAUSTED stops the Kettle; BROWN_OUT_OP_HOLD_EXPIRY at its tick lets the operating point follow
the request again. -/
def Obligations.PowerInputCommandsComplete : Prop :=
  (∀ (inp : StartInput) (s : State), s.power.switchClosed = true → s.power.kettleUp = false → s.boot.romRecovery = false →
    exec (.powerOnStart inp) s = .next ((s.startUp 0 inp).smartAdd 5 1)) ∧
  (∀ s : State, exec .inputSwitchClose s = .next { s with power := { s.power with seated := true, switchClosed := true } }) ∧
  (∀ (mv : Nat) (w : Bool) (s : State), s.power.switchClosed = true →
    exec (.prsntBOpen mv w) s = .next (({ s with power := { s.power with seated := false } } : State).brownOutSeq mv w)) ∧
  (∀ (mv : Nat) (w : Bool) (s : State), s.power.switchClosed = false →
    exec (.prsntBOpen mv w) s = .next { s with power := { s.power with seated := false } }) ∧
  (∀ (mv : Nat) (w : Bool) (s : State), mv < 44000 → exec (.brownOut mv w) s = .next (s.brownOutSeq mv w)) ∧
  (∀ (mv : Nat) (w : Bool) (s : State), 60000 < mv → s.power.switchClosed = true →
    exec (.inputOverVoltage mv w) s = .next (({ s with power := { s.power with switchClosed := false } } : State).brownOutSeq mv w)) ∧
  (∀ (ma mv : Nat) (w : Bool) (s : State), 50000 < ma → s.power.switchClosed = true →
    exec (.inputOverCurrent ma mv w) s = .next (({ s with power := { s.power with switchClosed := false } } : State).brownOutSeq mv w)) ∧
  (∀ (mv : Nat) (bad fails : Bool) (s : State), s.power.brownOut = true → s.power.kettleUp = true → s.power.seated = true →
    46000 ≤ mv → mv ≤ 58000 → ∃ t, exec (.brownOutRecovery mv bad fails) s = .next t ∧
      (s.power.thermalOff = true → t = (({ s with power := { s.power with
        brownOut := false, switchClosed := true, opHoldUntil := some (s.tick + ticksMs 100) } } : State).recEv 0x01 0 0x0604
          ([0] ++ le (mv / 10) 2) 0xFF false true)) ∧
      (s.power.thermalOff = false → t = ((({ s with power := { s.power with
        brownOut := false, switchClosed := true, opHoldUntil := some (s.tick + ticksMs 100) } } : State).startControl 2 bad fails).recEv
          0x01 0 0x0604 ([0] ++ le (mv / 10) 2) 0xFF false true))) ∧
  (∀ s : State, s.power.brownOut = true → ∃ t, exec .holdUpBankExhausted s = .next t ∧ t.power.kettleUp = false ∧
    t.power.brownOut = false ∧ t.power.switchClosed = false ∧ t.tiers.heat2 = []) ∧
  (∀ (n : Nat) (s : State), s.power.opHoldUntil = some n → n ≤ s.tick →
    exec .brownOutOpHoldExpiry s = .next (({ s with power := { s.power with opHoldUntil := none } } : State).driveOp))

/-- The commands of PERST#, of the watchdog and of the restarts complete. PERST_ASSERT with the control plane up, and for a hot
reset the link up, flushes staging, ends the power state, marks
the flush clean, resets the planes and drives the operating point; PERST_DEASSERT with the Kettle running and nothing holding the planes
releases the control plane with RESET_CAUSE 4, after a handover to a pending slot; WATCHDOG_EXPIRY at its tick counts the expiry and starts
up with RESET_CAUSE 1, from a running Kettle after staging flush, recorder freeze 1 and the reset of the planes; WATCHDOG_KICK, with every
heartbeat within 1 s, reloads the counter with 2 s; HEARTBEAT_REPORT notes the tick of a released source; PLANNED_KETTLE_RESTART, when one is due,
starts up with its cause; THERMAL_SHUTDOWN_RELEASE after 60 s releases the control plane with RESET_CAUSE 3. -/
def Obligations.ResetAndWatchdogCommandsComplete : Prop :=
  (∀ (hot : Bool) (s : State), s.power.perst = false → s.power.controlUp = true → (hot = true → s.host.linkUp = true) → ∃ u : State,
    u = ((({ s with power := { s.power with perst := true } } : State).stagingFlush.flush).setPs 0) ∧
    exec (.perstAssert hot) s = .next (({ u with ftl := { u.ftl with clean := true } } : State).planeReset.driveOp)) ∧
  (∀ (bad fails : Bool) (s : State), s.power.perst = true → s.power.kettleUp = true → s.power.controlUp = false →
    s.power.brownOut = false → s.power.thermalOff = false → s.boot.restart = 0 → ∃ u : State,
    u = ({ s with power := { s.power with perst := false } } : State) ∧
    exec (.perstDeassert bad fails) s =
      .next ((if u.pendingSlot.isSome then u.chooseSlot else u).startControl 4 bad fails)) ∧
  (∀ (op : Nat) (w : Bool) (inp : StartInput) (s : State), s.boot.wdtAt ≤ s.tick →
    (s.power.kettleUp = false → (s.boot.romFault = true ∨ s.boot.romRecovery = true) →
      exec (.watchdogExpiry op w inp) s =
        .next (({ s with boot := { s.boot with wdtExpiries := s.boot.wdtExpiries + 1 } } : State).startUp 1 inp)) ∧
    (s.power.kettleUp = true → ∃ u v : State, u = ({ s with boot := { s.boot with wdtExpiries := s.boot.wdtExpiries + 1 } } : State) ∧
      v = (if u.power.controlUp then u.stagingFlush else u).ringNow 0x01 0x0605
        (le (s.wdtStage + 65536 * s.silentSource + 16777216 * (op % 4)) 4) true ∧
      exec (.watchdogExpiry op w inp) s = .next (((v.freeze 1).persist w).planeReset.startUp 1 inp))) ∧
  (∀ s : State, s.power.kettleUp = true → (∀ p ∈ s.boot.beats, s.tick ≤ p.2 + ticksMs 1000) →
    exec .watchdogKick s = .next { s with boot := { s.boot with wdtAt := s.tick + 1953125 } }) ∧
  (∀ (src v : Nat) (s : State), sget? s.boot.beats src = some v →
    exec (.heartbeatReport src) s = .next { s with boot := { s.boot with beats := sput s.boot.beats src s.tick } }) ∧
  (∀ (inp : StartInput) (s : State), s.boot.restart ≠ 0 →
    exec (.plannedKettleRestart inp) s =
      .next ((if s.power.controlUp then s.stagingFlush else s).planeReset.startUp s.boot.restart inp)) ∧
  (∀ (bad fails : Bool) (n : Nat) (s : State), s.power.clearSince = some n → s.power.thermalOff = true → s.power.brownOut = false →
    n + ticksMs 60000 ≤ s.tick →
    exec (.thermalShutdownRelease bad fails) s =
      .next (({ s with power := { s.power with thermalOff := false } } : State).startControl 3 bad fails))

/-- The commands of 02_self_timed_logic.md that change the operating point, the determinism mode and the rate monitors complete. OP_REQUEST takes a legal value and
the rails are driven; BOOST_ALLOW likewise; RAMP_COMPLETE, once both phases have settled, takes the point the ramp headed for, takes up a request
that waited, and, where no ramp is left, puts the operational power state in force; OP5_CONDITION_FAIL and OP5_HOLD_EXPIRY drive the rails
when the conditions fail or have held for 1 s; a determinism request becomes pending exactly where it differs from the mode in force; the two
mode switches change the mode in force; ARM schedules a run at the next multiple of 32 ticks; LOCKSTEP_ARM_TICK arms it; a rate window of 1,024 ticks with
handshakes shows their rate in MHs, clears STALE, and is followed by the next without a gap. -/
def Obligations.OperatingPointAndModeCommandsComplete : Prop :=
  (∀ (v : Nat) (s : State), s.hostUp = true → v < 6 → exec (.opRequestWrite v) s = .next (s.fset glob_OP_REQUEST 0 v).driveOp) ∧
  (∀ (v : Bool) (s : State), s.hostUp = true →
    exec (.boostAllowWrite v) s = .next ((s.fset glob_BOOST_ALLOW 0 (b2n v)).trackOp5).driveOp) ∧
  (∀ (p : Nat) (s : State), s.power.rampTo = some p → s.rampOver p = true → ∃ u : State, u = (s.settleRamp p).driveOp ∧
    (s.settleRamp p).fget glob_OP_EFFECTIVE 0 = p % 8 ∧ (s.settleRamp p).power.rampTo = none ∧
    exec .rampComplete s = .next (if u.power.rampTo.isSome ∨ 3 ≤ u.fget glob_PS_EFFECTIVE 0 then u
      else (u.setPs u.host.psLast).fset glob_PS_IN_TRANSITION 0 (b2n u.host.psTarget.isSome))) ∧
  (∀ s : State, s.op5Holds = false → exec .op5ConditionFail s = .next (s.trackOp5).driveOp) ∧
  (∀ s : State, s.op5Ready = true → exec .op5HoldExpiry s = .next s.driveOp) ∧
  (∀ (v : Bool) (s : State), s.hostUp = true → exec (.detModeRequestWrite v) s =
    .next ((s.fset glob_DET_MODE_REQUEST 0 (b2n v)).fset glob_DET_CHANGE_PENDING 0 (if b2n v = s.fget glob_DET_MODE_EFFECTIVE 0 then 0 else 1))) ∧
  (∀ s : State, s.fget glob_DET_MODE_EFFECTIVE 0 = 0 → s.fget glob_DET_MODE_REQUEST 0 = 1 → s.noStartedTask = true →
    exec .detModeToLockstep s = .next (s.switchDet 1)) ∧
  (∀ s : State, s.fget glob_DET_MODE_EFFECTIVE 0 = 1 → s.fget glob_DET_MODE_REQUEST 0 = 0 →
    exec .detModeToFree s = .next (s.switchDet 0)) ∧
  (∀ s : State, s.hostUp = true → s.fget glob_DET_MODE_EFFECTIVE 0 = 1 → ∃ t, exec .arm s = .next t ∧
    t.arb.armAt = some ((s.tick / 32 + 1) * 32) ∧ t.fget glob_ARMED 0 = 0 ∧ t.fget64 glob_SLIP_COUNT_LO glob_SLIP_COUNT_HI 0 = 0 ∧
    t.arb.waiting = s.arb.waiting ∧ t.power = s.power ∧ t.host = s.host ∧ t.cp = s.cp) ∧
  (∀ (a : Nat) (s : State), s.arb.armAt = some a → a ≤ s.tick → ∃ t, exec .lockstepArmTick s = .next t ∧ t.fget glob_ARMED 0 = 1 ∧
    t.fget64 glob_ARM_TICK_LO glob_ARM_TICK_HI 0 = a % 2 ^ 64 ∧ t.arb.armAt = none) ∧
  (∀ (c inst n t0 : Nat) (s : State), Sys2Proof.Machine.present s.variant c inst = true → s.power.kettleUp = true → s.injectLeft c inst 0 = 0 →
    n ≠ 0 → s.windowStart c inst = some t0 → t0 + 1024 ≤ s.tick → c < 256 → inst < 256 →
    ∃ t, exec (.rateWindowEnd c inst n) s = .next t ∧ t.fget (hdr_RATE_MHS c) inst = min 65535 (n * 1000 / 1048576) ∧
      t.fget (hdr_STALE c) inst = 0 ∧ sget? t.reg.emptyWindows (pageNo c inst) = none ∧
      sget? t.reg.windowAt (pageNo c inst) = some (t0 + (s.tick - t0) / 1024 * 1024))

/-- In FREE mode a grant at a crossing-point instance serves one of the requests that R44 and R45 admit, whichever the free value picks: the party granted is
shown with the present tick, no party was already granted while another party's request waited, and where a request lost to one presented at the same
instant, such a one is served. In LOCKSTEP a slot whose owner (Table 02-7) has a request whose due frame has come grants that owner one request, at
crossing point 3 one or two. -/
def Obligations.ArbitersGrantOneRequest : Prop :=
  (∀ (cp inst : Nat) (new : List (Nat × Nat × Nat)) (together : Bool) (s : State), s.fget glob_DET_MODE_EFFECTIVE 0 = 0 →
    freeChoices ((s.present cp inst new together).filter (ArbReq.at cp inst)) ≠ [] →
    ∃ r t, exec (.arbiterGrant cp inst new together) s = .next t ∧ r ∈ s.present cp inst new together ∧ r.cp = cp ∧ r.inst = inst ∧
      (∀ q ∈ s.present cp inst new together, q.cp = cp → q.inst = inst → q.party = r.party ∨ r.party ∉ q.passed) ∧
      ((∃ q ∈ freeChoices ((s.present cp inst new together).filter (ArbReq.at cp inst)), q.owed = true) → r.owed = true) ∧
      sget? t.arb.lastGrant (4096 * cp + inst) = some (r.party, s.tick) ∧
      t.arb.waiting.length + 1 = (s.present cp inst new together).length ∧ (cp ≠ 2 → t.regs = s.regs) ∧ t.tick = s.tick) ∧
  (∀ (cp inst sl : Nat) (new : List (Nat × Nat × Nat)) (s : State) (r : ArbReq), s.fget glob_DET_MODE_EFFECTIVE 0 = 1 → sl < cpSlots cp →
    inst < cpInstances cp → s.tick / cpFrame cp * cpFrame cp + sl * cpSlotNs cp / 1024 = s.tick →
    ((s.present cp inst new false).find? fun q => q.at cp inst &&
      q.party == slotOwner cp (s.frameNo cp (s.tick / cpFrame cp * cpFrame cp)) sl &&
      decide (q.due / cpFrame cp * cpFrame cp ≤ s.tick / cpFrame cp * cpFrame cp)) = some r →
    ∃ (t : State) (k : Nat), exec (.lockstepSlot cp inst sl new) s = .next t ∧ t.tick = s.tick ∧
      sget? t.arb.lastGrant (4096 * cp + inst) = some (r.party, s.tick) ∧
      r.party = slotOwner cp (s.frameNo cp (s.tick / cpFrame cp * cpFrame cp)) sl ∧
      1 ≤ k ∧ k ≤ cpPerSlot cp ∧ t.arb.waiting.length + k = (s.present cp inst new false).length)

/-- The register-function accesses complete, each on the state in which its payload is counted and its path crossed. A bad access counts, and a bad read returns
ones; a 32-bit write is the write of its word, a 64-bit write that of LO then HI, or the commit of a RW pair; PAIR_HI_WRITE commits HI with the LO last
written; a read of a LO word returns it and latches HI, and, 64 bits wide, returns both words; a 32-bit read returns its word and leaves the word's RC fields
0; a read of an absent page returns 0, in both halves where it is of 64 bits; a proxied read that times out returns the
shadow, shows it FAULTED and is counted; a proxied write is dropped and counted. -/
def Obligations.RegisterAccessCommandsComplete : Prop :=
  (∀ (a size : Nat) (s : State), s.hostUp = true → accessOk s.variant a size = false →
    exec (.badAccess a size true) s = .next ((s.accessed (size / 8) 0 0).fbump glob_BAD_ACCESS_COUNT 0 1) ∧
    exec (.badAccess a size false) s = .next (((s.accessed (size / 8) 0 0).fbump glob_BAD_ACCESS_COUNT 0 1).answer
      (if size = 64 then [0xFFFFFFFF, 0xFFFFFFFF] else [0xFFFFFFFF]))) ∧
  (∀ (a v : Nat) (s : State), s.hostUp = true → a % 4 = 0 →
    exec (.registerWrite a v false) s = .next ((s.accessed 4 (addrClass a) (addrInst a)).writeWord (addrClass a) (addrInst a) (addrOff a) (v % 2 ^ 32))) ∧
  (∀ (a v : Nat) (s u : State), s.hostUp = true → accessOk s.variant a 64 = true → u = s.accessed 8 (addrClass a) (addrInst a) →
    exec (.registerWrite a v true) s = .next (if rwPair (addrClass a) (addrOff a) then
        (u.writeWord (addrClass a) (addrInst a) (addrOff a) (v % 2 ^ 32)).commitPair (addrClass a) (addrInst a) (addrOff a) (v / 2 ^ 32)
      else (u.writeWord (addrClass a) (addrInst a) (addrOff a) (v % 2 ^ 32)).writeWord (addrClass a) (addrInst a) (addrOff a + 4) (v / 2 ^ 32 % 2 ^ 32))) ∧
  (∀ (a v : Nat) (s : State), s.hostUp = true → a % 4 = 0 → 4 ≤ addrOff a →
    exec (.pairHiWrite a v) s = .next ((s.accessed 4 (addrClass a) (addrInst a)).commitPair (addrClass a) (addrInst a) (addrOff a - 4) v)) ∧
  (∀ (a : Nat) (s u : State), s.pageOn (addrClass a) (addrInst a) = true → a % 4 = 0 → ¬ (addrClass a = 0x02 ∧ addrOff a = 0x100) →
    (loOffsets (addrClass a)).contains (addrOff a) = true → u = s.accessed 4 (addrClass a) (addrInst a) →
    ∃ t, exec (.readLoLatch a false) s = .next t ∧ t.reg.readData = [u.readWord (addrClass a) (addrInst a) (addrOff a)] ∧
      sget? t.reg.latch (wordKey (addrClass a) (addrInst a) (addrOff a)) = some (u.pageWord (addrClass a) (addrInst a) (addrOff a + 4))) ∧
  (∀ (a : Nat) (s : State), s.pageOn (addrClass a) (addrInst a) = true → accessOk s.variant a 64 = true →
    exec (.readLoLatch a true) s = .next ((s.accessed 8 (addrClass a) (addrInst a)).readTwice (addrClass a) (addrInst a) (addrOff a))) ∧
  (∀ (a : Nat) (s u : State), s.pageOn (addrClass a) (addrInst a) = true → a % 4 = 0 → ¬ (addrClass a = 0x02 ∧ addrOff a = 0x100) →
    u = s.accessed 4 (addrClass a) (addrInst a) → ∃ t, exec (.readClear a) s = .next t ∧
    t.reg.readData = [u.readWord (addrClass a) (addrInst a) (addrOff a)] ∧
    (∀ f ∈ fieldsOf (addrClass a), f.off = addrOff a → f.acc = .rc → t.fget f (addrInst a) = 0) ∧ t.tick = s.tick) ∧
  (∀ (a : Nat) (s : State), s.hostUp = true → Sys2Proof.Machine.present s.variant (addrClass a) (addrInst a) = false →
    (a % 4 = 0 → exec (.readClear a) s = .next ((s.accessed 4 (addrClass a) (addrInst a)).answer [0])) ∧
    (a % 8 = 0 → exec (.readLoLatch a true) s = .next ((s.accessed 8 (addrClass a) (addrInst a)).answer [0, 0]))) ∧
  (∀ (k off : Nat) (s : State), s.pageOn 0x21 k = true → off % 4 = 0 → off < 4096 → ∃ u : State,
    u = { s with reg := { s.reg with shadowFaulted := if s.reg.shadowFaulted.contains k then s.reg.shadowFaulted else k :: s.reg.shadowFaulted } } ∧
    exec (.proxyReadTimeout k off) s = .next (((u.answer [u.shadowWord k off]).setLink k
      { s.link k with timeouts := satAdd (s.link k).timeouts 1 65535 }).unreached k 10)) ∧
  (∀ (k : Nat) (s : State), s.pageOn 0x21 k = true → exec (.proxyWriteDropped k) s =
    .next ((s.setLink k { s.link k with dropped := satAdd (s.link k).dropped 1 65535 }).unreached k 11))

/-- The commands of STATE and CONTROL complete as Table 03-4 gives, on an unowned unit: ENABLE = 1 starts an OFF unit and ENABLE = 0 drains an ON one; ENABLE = 1 on a
FAULTED unit is refused with CONFIG_REJECT; DRAIN is set as written; RESET acts at once in OFF, ON and FAULTED and is kept pending in STARTING and
DRAINING; a start completed within its limit reaches ON with the unit as its start leaves it, then takes a
reset or a disable that was pending; a Griddle whose self-check fails in STARTING is FAULTED with cause 12; a start past its limit is a UNIT_FAULT; a drained
unit is OFF, then takes a reset or an enable that was pending. -/
def Obligations.UnitStateCommandsComplete : Prop :=
  (∀ (c inst : Nat) (s : State), s.pageOn c inst = true → hasState c = true → s.controlHeld c inst = false → s.fget (hdr_STATE c) inst = 0 →
    exec (.enableWrite c inst true) s = .next ((s.putControl hdr_ENABLE c inst true).toStarting c inst)) ∧
  (∀ (c inst : Nat) (s : State), s.pageOn c inst = true → hasState c = true → s.controlHeld c inst = false → s.fget (hdr_STATE c) inst = 2 →
    exec (.enableWrite c inst false) s = .next ((s.putControl hdr_ENABLE c inst false).toState c inst 3)) ∧
  (∀ (c inst : Nat) (s : State), s.pageOn c inst = true → hasState c = true → s.controlHeld c inst = false → s.fget (hdr_STATE c) inst = 4 →
    exec (.enableWrite c inst true) s = .next (s.configReject c inst)) ∧
  (∀ (c inst : Nat) (v : Bool) (s : State), s.pageOn c inst = true → hasState c = true → s.controlHeld c inst = false →
    s.fget (hdr_STATE c) inst ≠ 5 → ∃ t, exec (.drainWrite c inst v) s = .next t ∧ t.fget (hdr_DRAIN c) inst = b2n v ∧
      t.fget (hdr_STATE c) inst = s.fget (hdr_STATE c) inst ∧ t.units = s.units) ∧
  (∀ (c inst : Nat) (s : State), s.pageOn c inst = true → hasState c = true → s.controlHeld c inst = false →
    s.fget (hdr_RESET_PENDING c) inst ≠ 1 →
    (s.fget (hdr_STATE c) inst = 0 ∨ s.fget (hdr_STATE c) inst = 2 ∨ s.fget (hdr_STATE c) inst = 4 →
      exec (.pageReset c inst) s = .next (s.resetUnit c inst)) ∧
    (s.fget (hdr_STATE c) inst = 1 ∨ s.fget (hdr_STATE c) inst = 3 →
      exec (.pageReset c inst) s = .next (s.fset (hdr_RESET_PENDING c) inst 1))) ∧
  (∀ (c inst : Nat) (s : State), Sys2Proof.Machine.present s.variant c inst = true → hasState c = true → c ≠ 0x14 → c ≠ 0x18 → c ≠ 0x11 →
    s.fget (hdr_STATE c) inst = 1 → s.startLate c inst = false →
    ∃ u v : State, u = (s.startUnit c inst).toState c inst 2 ∧ v = { u with reg := { u.reg with startTick := serase u.reg.startTick (pageNo c inst) } } ∧
      exec (.unitStartComplete c inst true) s = .next (if v.fget (hdr_RESET_PENDING c) inst = 1 then v.resetUnit c inst
        else if v.fget (hdr_DISABLE_PENDING c) inst = 1 then (v.fset (hdr_DISABLE_PENDING c) inst 0).toState c inst 3 else v)) ∧
  (∀ (inst : Nat) (s : State), Sys2Proof.Machine.present s.variant 0x11 inst = true → s.fget (hdr_STATE 0x11) inst = 1 → s.startLate 0x11 inst = false →
    s.startChecked inst false = false →
    exec (.unitStartComplete 0x11 inst false) s = .next (((s.showCheck inst 0 false false 0x1FF).setRegionState inst 0 4).moveFaulted 0x11 inst 12)) ∧
  (∀ (c inst n : Nat) (s : State), sget? s.reg.startTick (pageNo c inst) = some n → s.fget (hdr_STATE c) inst = 1 →
    n + ticksMs (startLimitMs c) ≤ s.tick → exec (.startLimitExpiry c inst) s = .next (s.faultUnit c inst 7 0)) ∧
  (∀ (c inst : Nat) (s : State), Sys2Proof.Machine.present s.variant c inst = true → c ≠ 0x14 → s.fget (hdr_STATE c) inst = 3 → s.unitBusy c inst = false →
    ∃ u : State, u = s.toState c inst 0 ∧ exec (.drainComplete c inst) s = .next (if u.fget (hdr_RESET_PENDING c) inst = 1 then u.resetUnit c inst
      else if u.fget (hdr_ENABLE_PENDING c) inst = 1 then (u.fset (hdr_ENABLE_PENDING c) inst 0).toStarting c inst else u))

/-- The commands of error capture, injection, snapshots and test mode complete: bits written 1 clear ERR_STATUS; a corrected error is captured and recorded, and
a cause that Table 03-6 does not list faults its unit; INJECT_GO in test mode arms the bit for INJECT_COUNT events; a stalled unit that no context owns,
outside the Griddles, Drains, Colanders and PUUs, is faulted and classified where no injection caused it; a page's snapshot waits with the tick of its
trigger, a device-wide one for 16 ticks; at a boundary the captures of earlier triggers are taken; test mode is entered with its key, no context and normal
media, and left. -/
def Obligations.ErrorInjectionSnapshotTestCommandsComplete : Prop :=
  (∀ (c inst mask : Nat) (fv : Bool) (s : State), s.pageOn c inst = true → ∃ t, exec (.errStatusClear c inst mask fv) s = .next t ∧
    t.fget (hdr_ERR_STATUS c) inst = (s.fget (hdr_ERR_STATUS c) inst - Nat.land (s.fget (hdr_ERR_STATUS c) inst) mask) % 2 ^ 32 ∧
    t.fget (hdr_FIRST_VALID c) inst = (if fv then 0 else s.fget (hdr_FIRST_VALID c) inst) ∧ t.reg = s.reg ∧ t.kettle = s.kettle) ∧
  (∀ (c inst info ctx : Nat) (s : State), Sys2Proof.Machine.present s.variant c inst = true → corrects c = true →
    exec (.errorCapture c inst 2 info ctx) s = .next (s.err c inst [2] info ctx)) ∧
  (∀ (c inst info ctx : Nat) (s : State), Sys2Proof.Machine.present s.variant c inst = true → hasState c = true → c ≠ 0x11 → c ≠ 0x14 →
    s.fget (hdr_STATE c) inst = 2 → exec (.errorCapture c inst 7 info ctx) s = .next (s.faultUnit c inst 7 info ctx)) ∧
  (∀ (c inst : Nat) (s : State), s.pageOn c inst = true → s.fget glob_TEST_MODE 0 = 1 → injectable c = true →
    (injectBits c).contains (s.fget (hdr_INJECT_BIT c) inst) = true → ∃ t, exec (.injectGo c inst) s = .next t ∧
    (pageNo c inst, s.fget (hdr_INJECT_BIT c) inst, max 1 (s.fget (hdr_INJECT_COUNT c) inst)) ∈ t.reg.inject ∧
    t.fget (hdr_INJECT_PENDING c) inst = 1 ∧ t.kettle = s.kettle) ∧
  (∀ (c inst r info ctx : Nat) (whole : Bool) (s : State), Sys2Proof.Machine.present s.variant c inst = true → s.stalled c inst r whole = true →
    hasState c = true → c ≠ 0x11 → c ≠ 0x14 → c ≠ 0x18 → c ≠ 0x21 → s.injectLeft c inst 1 = 0 → 64 ≤ s.ownerShown c inst → 64 ≤ ctx →
    exec (.handshakeStall c inst r info ctx whole) s = .next ((s.faultUnit c inst 1 info ctx).classify (pageNo c inst))) ∧
  (∀ (c inst : Nat) (s : State), s.pageOn c inst = true → c ≠ 0 → s.reg.snapAll = none → sget? s.reg.snapWait (pageNo c inst) = none →
    ∃ t, exec (.snapshotTrigger c inst) s = .next t ∧ t.reg.snapWait = sput s.reg.snapWait (pageNo c inst) s.tick ∧
      t.fget (hdr_SNAP_BUSY c) inst = 1 ∧ t.reg.live = s.reg.live) ∧
  (∀ s : State, s.hostUp = true → s.reg.snapAll = none → ∃ t, exec .globalSnapshotTrigger s = .next t ∧ t.reg.snapAll = some (s.tick + 16) ∧
    t.fget (hdr_SNAP_BUSY 0) 0 = 1) ∧
  (∀ s : State, s.reg.snapAll = none → (∀ p ∈ s.reg.snapWait, p.2 < s.tick) → exec .snapshotCapture s = .next (s.reg.snapWait.foldl
    (fun (u : State) (p : Nat × Nat) => u.capturePage s.tick (p.1 / 256) (p.1 % 256)) { s with reg := { s.reg with snapWait := [] } })) ∧
  (∀ (n : Nat) (s : State), s.reg.snapAll = some n → n ≤ s.tick → exec .snapshotCapture s = .next ((presentPages s.variant).foldl
    (fun (u : State) (p : Nat × Nat) => u.capturePage n p.1 p.2) { s with reg := { s.reg with snapAll := none } })) ∧
  (∀ s : State, s.hostUp = true → s.fget glob_TEST_MODE 0 = 0 → s.cp.ctxs = [] → s.fget glob_MEDIA_MODE 0 ≠ 2 →
    ∃ t, exec (.testModeEnter 0x7E57) s = .next t ∧ t.fget glob_TEST_MODE 0 = 1 ∧ t.fget glob_TEST_MODE_REQUEST 0 = 1 ∧ t.units = s.units) ∧
  (∀ s : State, s.hostUp = true → s.fget glob_TEST_MODE 0 = 1 → ∃ t, exec .testModeLeave s = .next t ∧ t = s.endTest)

/-- The commands of the queues complete, for a controller that takes them and legal operands. A submission doorbell in an operational state moves the tail; a completion
doorbell frees its entries and places the completions that were held; COMMAND_FETCH takes the command at the head of the queue that arbitration picks
into intake; the queue commands create and delete queues and complete with success. An Abort whose target waits in intake catches it: the target completes
with Command Abort Requested, ABORT_CAUGHT counts, and the Abort completes with 0; one whose target is a compute command that runs stays outstanding,
and the context waits for its cheap point; one whose target is not held, or is an admin command or a command that has begun on an NVM or SLM queue, misses.
An outstanding Abort 2 ms old completes as missed and is outstanding no more. Saturation sustained for 10 s raises the overload of its class, and 1 s
without it clears it. -/
def Obligations.QueueAndFetchCommandsComplete : Prop :=
  (∀ (fn q tail : Nat) (k : Sq) (s : State), s.sq? fn q = some k → (s.ctrl fn).rdy = true → s.linkUp = true → tail < k.size →
    s.host.psEntering = false → s.fget glob_PS_EFFECTIVE 0 < 3 → ∃ t : State, exec (.sqDoorbell fn q tail) s = .next t ∧
    t.sq? fn q = some { k with tail := tail } ∧
    t.host = { s.host with sqs := sput s.host.sqs (qKey fn q) { k with tail := tail } }) ∧
  (∀ (fn q n : Nat) (k : Cq) (s : State), sget? s.host.cqs (qKey fn q) = some k → s.linkUp = true → n ≤ k.used → ∃ u : State,
    u = ({ s with host := { s.host with cqs := sput s.host.cqs (qKey fn q) { k with used := k.used - n }
                                        cpls := dropCpls s (qKey fn q) n s.host.cpls
                                        held := [] } } : State).pcie 64 4 ∧
    exec (.cqDoorbell fn q n) s = .next (s.host.held.foldl (fun (t : State) (c : Cpl) => t.place c) u)) ∧
  (∀ (cid : Nat) (slm : Bool) (fn b q cls : Nat) (fresh : Bool) (k : Sq) (s : State), s.turn = some (fn, b) → s.pickQueue fn = some (q, cls, fresh) →
    s.sq? fn q = some k → k.ctx ≠ some 64 → ∃ t, exec (.commandFetch cid slm) s = .next t ∧
    t.host.intake.map Intake.cmd = s.host.intake.map Intake.cmd ++ [{ fn := fn, sq := q, cid := cid }] ∧
    sget? t.host.sqs (qKey fn q) = some { k with head := (k.head + 1) % k.size } ∧ t.host.lastFn = fn ∧ t.host.burst = b + 1) ∧
  (∀ (cmd : CmdId) (q size iv : Nat) (ien : Bool) (s : State), s.takes cmd = true → s.turnedAway cmd true = false →
    s.queueId cmd.fn q true = true → sget? s.host.cqs (qKey cmd.fn q) = none → 2 ≤ size → size ≤ 65536 → (ien = true → iv < maxVectors cmd.fn) →
    exec (.createIoCq cmd q size ien iv) s = .next (({ s with host := { s.host with
      cqs := sput s.host.cqs (qKey cmd.fn q) { size := size, ien := ien, iv := iv, used := 0 } } } : State).succeed cmd)) ∧
  (∀ (cmd : CmdId) (q size cq prio ctx : Nat) (s : State), s.takes cmd = true → s.turnedAway cmd true = false →
    s.queueId cmd.fn q false = true → sget? s.host.sqs (qKey cmd.fn q) = none → (sget? s.host.cqs (qKey cmd.fn cq)).isSome = true → cq ≠ 0 →
    2 ≤ size → size ≤ 65536 →
    exec (.createIoSq cmd q size cq prio false ctx 0) s = .next (({ s with host := { s.host with
      sqs := sput s.host.sqs (qKey cmd.fn q)
        { size := size, cq := cq, prio := prio % 4, ctx := none, tail := 0, head := 0 } } } : State).succeed cmd) ∧
    ∀ x : Ctx, s.ctx? ctx = some x → x.req.fn = cmd.fn → x.sq = none →
      ∃ u : State, u = s.setCtx ctx { x with sq := some (qKey cmd.fn q) } ∧
      exec (.createIoSq cmd q size cq prio true ctx 0) s = .next (({ u with host := { u.host with
        sqs := sput u.host.sqs (qKey cmd.fn q)
          { size := size, cq := cq, prio := prio % 4, ctx := some ctx, tail := 0, head := 0 } } } : State).succeed cmd)) ∧
  (∀ (cmd : CmdId) (q : Nat) (k : Sq) (s : State), s.takes cmd = true → s.turnedAway cmd true = false → q ≠ 0 → s.sq? cmd.fn q = some k →
    (k.ctx = none ∨ k.ctx = some 64) → ∃ u : State,
    u = (s.host.intake.filter fun e => e.cmd.fn == cmd.fn && e.cmd.sq == q).foldl (fun (t : State) (e : Intake) => t.complete e.cmd 0 0x08) s ∧
    exec (.deleteIoSq cmd q) s =
      .next (({ u with host := { u.host with sqs := serase u.host.sqs (qKey cmd.fn q) } } : State).succeed cmd)) ∧
  (∀ (cmd : CmdId) (q : Nat) (s : State), s.takes cmd = true → s.turnedAway cmd true = false → q ≠ 0 →
    (sget? s.host.cqs (qKey cmd.fn q)).isSome = true →
    (s.host.sqs.any fun p => p.1 / 65536 == cmd.fn && p.1 % 65536 != 0 && p.2.cq == q) = false →
    exec (.deleteIoCq cmd q) s = .next (({ s with host := { s.host with
      cqs := serase s.host.cqs (qKey cmd.fn q)
      cpls := s.host.cpls.filter fun c => s.cqKeyOf c ≠ qKey cmd.fn q
      held := s.host.held.filter fun c => s.cqKeyOf c ≠ qKey cmd.fn q } } : State).succeed cmd)) ∧
  (∀ (cmd target : CmdId) (sqid cid : Nat) (f : Option Intake) (s : State), s.takes cmd = true → s.turnedAway cmd true = false →
    (s.ctrl cmd.fn).aborts.length < 4 → target = { fn := cmd.fn, sq := sqid, cid := cid } →
    (s.host.intake.find? fun e => e.cmd == target && !e.done) = f →
    (∀ (e : Intake) (c : Nat), f = some e → e.begun = false → e.kind = .compute c →
      exec (.abort cmd sqid cid) s =
        .next ((((s.complete target 0 0x07).afterCatch c target).fbump front_ABORT_CAUGHT 0 1).complete cmd 0 0 0)) ∧
    (∀ e : Intake, f = some e → e.begun = false → e.kind = .nvm ∨ e.kind = .slm →
      exec (.abort cmd sqid cid) s = .next (((s.complete target 0 0x07).fbump front_ABORT_CAUGHT 0 1).complete cmd 0 0 0)) ∧
    (∀ (e : Intake) (c : Nat) (x : Ctx), f = some e → e.begun = true → e.kind = .compute c → s.ctx? c = some x →
      exec (.abort cmd sqid cid) s =
        .next ((s.setCtrl cmd.fn { s.ctrl cmd.fn with aborts := (s.ctrl cmd.fn).aborts ++ [(cmd, target, s.tick)] }).setCtx c
          { x with abortWait := true })) ∧
    ((f = none ∨ ∃ e : Intake, f = some e ∧ (e.kind = .admin ∨ e.begun = true ∧ (e.kind = .nvm ∨ e.kind = .slm))) →
      exec (.abort cmd sqid cid) s = .next ((s.fbump front_ABORT_MISSED 0 1).complete cmd 0 0 1))) ∧
  (∀ (cmd : CmdId) (a : CmdId × CmdId × Nat) (s : State), (s.ctrl cmd.fn).aborts = [a] → a.1 = cmd → a.2.2 + ticksMs 2 ≤ s.tick →
    ∃ u : State, u.host = (s.setCtrl cmd.fn { s.ctrl cmd.fn with aborts := [] }).host ∧ u.regs = s.regs ∧
      exec (.abortTimeout cmd) s = .next (u.abortMissed cmd)) ∧
  (∀ (k n : Nat) (s : State), sget? s.host.satSince k = some n → s.saturated k = true → s.host.sustained.contains k = false →
    n + ticksMs 10000 ≤ s.tick → exec (.overloadRaise k) s =
      .next (((({ s with host := { s.host with sustained := k :: s.host.sustained } } : State).err 0x03 0 [9] k).recEv 0x03 0 0x0401
        [1, if k < 64 then k else 0xFF]).aer 0 7 2)) ∧
  (∀ (k n : Nat) (s : State), sget? s.host.unsatSince k = some n → s.saturated k = false → s.host.sustained.contains k = true →
    n + ticksMs 1000 ≤ s.tick → exec (.overloadClear k) s =
      .next ((({ s with host := { s.host with sustained := s.host.sustained.filter (· ≠ k) } } : State).recEv 0x03 0 0x0401
        [0, if k < 64 then k else 0xFF]).aer 0 7 2))

/-- The admin commands of features, events and contexts complete for a controller that takes them. A feature of R116 that a controller keeps whole is
stored; a read returns the feature; a Context Quota within its bounds is set; a power state is requested; an event request is outstanding or, with an
event kept, answered at once; an event that arises is posted or kept; a frozen context whose log was read and whose fault was a task's is resumed at
crossing point 1 and completes with success; a context is put into TEARING_DOWN with the command held until the teardown ends; Time Query answers from
crossing point 5; an unsupported opcode completes with Invalid Opcode. -/
def Obligations.FeatureEventAndContextCommandsComplete : Prop :=
  (∀ (cmd : CmdId) (fid v : Nat) (data : List Byte) (s : State), s.takes cmd = true → s.turnedAway cmd true = false →
    fid = 0x01 ∨ fid = 0x08 ∨ fid = 0x0B →
    exec (.setFeatures cmd fid v data) s = .next ((s.setFeature cmd.fn fid v).succeed cmd)) ∧
  (∀ (cmd : CmdId) (fid v d : Nat) (bs : List Byte) (s : State), s.takes cmd = true → s.turnedAway cmd false = false →
    s.readFeature cmd.fn fid v = some (d, bs) → exec (.getFeatures cmd fid v) s = .next (s.succeed cmd d bs)) ∧
  (∀ (cmd : CmdId) (vf quota : Nat) (s : State), s.takes cmd = true → s.turnedAway cmd true = false → cmd.fn = 0 → vf < 32 →
    ((s.host.quota.filter fun p => p.1 ≠ vf).map Prod.snd).sum + quota ≤ 64 → (s.ctxsOf (vf + 1)).length ≤ quota →
    exec (.setFeaturesContextQuota cmd vf quota) s =
      .next (({ s with host := { s.host with quota := sput s.host.quota vf quota } } : State).succeed cmd)) ∧
  (∀ (cmd : CmdId) (ps : Nat) (s : State), s.takes cmd = true → s.turnedAway cmd true = false → ps ≤ 4 →
    exec (.setFeaturesPowerManagement cmd ps) s = .next ((s.requestPs ps).succeed cmd)) ∧
  (∀ (cmd : CmdId) (s : State), s.takes cmd = true → s.turnedAway cmd false = false → (s.ctrl cmd.fn).aerReqs.length < 8 →
    ((s.ctrl cmd.fn).aerKept = [] → exec (.asyncEventRequest cmd) s =
      .next ((s.setCtrl cmd.fn { s.ctrl cmd.fn with aerReqs := (s.ctrl cmd.fn).aerReqs ++ [cmd] }).freeIntake cmd)) ∧
    ∀ (e : Nat × Nat × Nat) (es : List (Nat × Nat × Nat)), (s.ctrl cmd.fn).aerKept = e :: es → exec (.asyncEventRequest cmd) s =
      .next ((s.setCtrl cmd.fn { s.ctrl cmd.fn with aerKept := es, aerSent := e :: (s.ctrl cmd.fn).aerSent }).complete cmd 0 0
        (e.1 + 256 * e.2.1 + 65536 * aerLid e.1 e.2.1) 0)) ∧
  (∀ (fn info : Nat) (s : State), s.fnEnabled fn = true → (info < 8 → exec (.asyncEventPost fn 1 info) s = .next (s.aerWarn fn info)) ∧
    (info < 3 → exec (.asyncEventPost fn 2 info) s = .next (s.aer fn 2 info))) ∧
  (∀ (cmd : CmdId) (c : Nat) (x : Ctx) (s u : State), s.takes cmd = true → s.turnedAway cmd true = false → s.ctx? c = some x → c < 64 →
    x.req.fn = cmd.fn → x.st = .frozen → x.logRead = true → x.severity = 1 → u = s.serveIntake c x → ∃ y : Ctx,
    y = { x with st := (if (u.heldOf c).isEmpty then .idle else .waiting)
                 waitSince := s.tick
                 severity := 0
                 resumed := true
                 log := { x.log with state := 0 } } ∧
    exec (.resumeContext cmd c false) s = .next ((u.setCtx c y).succeed cmd)) ∧
  (∀ (cmd : CmdId) (c : Nat) (x : Ctx) (s : State), s.takes cmd = true → s.turnedAway cmd true = false → s.ctx? c = some x → c < 64 →
    x.req.fn = cmd.fn → x.st ≠ .tearingDown → ∃ (y : Ctx) (t : State), exec (.tearDownContext cmd c) s = .next t ∧ t.ctx? c = some y ∧
    y.st = .tearingDown ∧ y.tearCmds = x.tearCmds ++ [cmd]) ∧
  (∀ (cmd : CmdId) (s : State), s.takes cmd = true → s.turnedAway cmd false = false → exec (.timeQuery cmd) s = .next ((s.serve 5 0 5).succeed cmd 0
    (dtcBytes s.time.dtc ++ natLE s.tick 8 ++ natLE (s.fget glob_TIME_SOURCE 0) 1 ++ natLE (s.fget time_LOCKED 0) 1 ++
      natLE 0 2 ++ natLE s.errorBound 8))) ∧
  (∀ (cmd : CmdId) (s : State), s.takes cmd = true → exec (.adminUnsupported cmd) s = .next (s.complete cmd 0 0x01))

/-- The commands of a compute queue bound to an existing context, with NSID 1 and a free slot, are held in intake: EXECUTE_PROGRAM carries its fields and the context waits
for its load; LOAD_PROGRAM, PROGRAM_ACTIVATION_MANAGEMENT and MEMORY_RANGE_SET_MANAGEMENT run where nothing is ahead of them. The power-state commands
complete: an idle time that passed requests its state; an entry starts once nothing is outstanding; its completion puts the state in force with
HBM in self-refresh; an exit, once no Griddle starts, brings the last operational state back. -/
def Obligations.ComputeQueueAndPowerStateCommandsComplete : Prop :=
  (∀ (cmd : CmdId) (cdw10 cdw11 limit c : Nat) (dptr : List (Nat × Nat)) (q : Sq) (x : Ctx) (s : State), s.takes cmd = true → cmd.rsvd = false →
    s.sq? cmd.fn cmd.sq = some q → q.ctx = some c → s.ctx? c = some x → s.ctxSlots c < 256 → bits cdw10 8 8 = 0 → cdw11 < 8192 →
    exec (.executeProgram cmd 1 cdw10 cdw11 limit 0 dptr) s = .next ((s.holdCompute cmd c (some
      { cmd := cmd, slot := cdw10 % 256, timeLimit := limit, argLen := cdw11, dptr := dptr, mrs := cdw10 / 65536 % 65536, arg := [] })
      none).nowWaits c x)) ∧
  (∀ (cmd : CmdId) (slot off c : Nat) (data : List Byte) (q : Sq) (x : Ctx) (s : State), s.takes cmd = true → cmd.rsvd = false →
    s.sq? cmd.fn cmd.sq = some q → q.ctx = some c → s.ctx? c = some x → s.ctxSlots c < 256 →
    exec (.loadProgram cmd 1 slot off data) s = .next (s.queueOp cmd c x (.load (slot % 256) off data))) ∧
  (∀ (cmd : CmdId) (slot c : Nat) (on : Bool) (q : Sq) (x : Ctx) (s : State), s.takes cmd = true → cmd.rsvd = false →
    s.sq? cmd.fn cmd.sq = some q → q.ctx = some c → s.ctx? c = some x → s.ctxSlots c < 256 →
    exec (.programActivationManagement cmd 1 slot on) s = .next (s.queueOp cmd c x (.activation (slot % 256) on))) ∧
  (∀ (cmd : CmdId) (set c : Nat) (rs : List (Nat × Nat × Nat)) (q : Sq) (x : Ctx) (s : State), s.takes cmd = true → cmd.rsvd = false →
    s.sq? cmd.fn cmd.sq = some q → q.ctx = some c → s.ctx? c = some x → s.ctxSlots c < 256 →
    exec (.memoryRangeSetManagement cmd 1 set rs) s = .next (s.queueOp cmd c x (.ranges set rs))) ∧
  (∀ (now e : Nat) (s : State), now = s.fget glob_PS_EFFECTIVE 0 → e = s.featureOr 0 (0xC00 + now) 0 → s.featureOr 0 0x0C 0 = 1 →
    e / 256 % 2 ^ 24 ≠ 0 → (e / 8 % 32 = 3 ∨ e / 8 % 32 = 4) → now < e / 8 % 32 →
    (s.operational = true ∧ s.host.psTarget = none ∨ now = 3 ∧ s.host.psEntering = false ∧ s.host.psExiting = false) →
    s.nothingOutstanding = true → s.host.idleSince + ticksMs (e / 256 % 2 ^ 24) ≤ s.tick →
    exec .apstIdleExpiry s = .next (s.requestPs (e / 8 % 32))) ∧
  (∀ (p : Nat) (s : State), s.host.psTarget = some p → s.host.psEntering = false → s.host.psExiting = false → s.fget glob_PS_EFFECTIVE 0 < p →
    s.nothingOutstanding = true → ∃ t, exec .psEntryStart s = .next t ∧
    t.host = { s.host with psEntering := true } ∧ t.fget glob_PS_IN_TRANSITION 0 = 1 ∧ t.fget glob_ARMED 0 = 0 ∧ t.arb.armAt = none ∧ t.cp = s.cp) ∧
  (∀ (p : Nat) (s : State), s.host.psTarget = some p → s.host.psEntering = true →
    (s.fget glob_MEDIA_MODE 0 = 2 → s.fget glob_MEDIA_CAUSE 0 ≠ 4) → s.host.psWake = false →
    ∃ u t : State, u = (((s.flush).setPs p).fbump front_PS_ENTRY_COUNT 0 1).selfRefresh true ∧ exec .psEntryComplete s = .next t ∧
      t.host.psEntering = false ∧ t.host.psWake = false ∧
      t.regs = ((if p = 4 then u.enterPs4 else u).fset glob_PS_IN_TRANSITION 0 0).regs) ∧
  (∀ s : State, s.host.psExiting = true → ((List.range 34).any fun i => s.fget (hdr_STATE 0x11) i == 1) = false → ∃ v : State,
    v = ((s.setPs s.host.psLast).fset glob_PS_IN_TRANSITION 0 0).selfRefresh false ∧
    exec .psExitComplete s =
      .next (({ v with host := { v.host with psExiting := false, psTarget := none, idleSince := v.tick } } : State).driveOp))

/-- The data commands of an NVM or SLM queue complete on a range inside an attached namespace that no sanitize, lock, READ_ONLY mode or unreadable
unit stops: a read returns the newest bytes of the range; a write with free staging slots is accepted and acknowledged; a flush completes; Write
Zeroes and Deallocate clear the range; Compare answers whether the bytes are equal; Verify reads and returns nothing; SLM reads and writes move the
bytes of the namespace's HBM pages. -/
def Obligations.NvmCommandsComplete : Prop :=
  (∀ (cmd : CmdId) (ns slba nlb off n : Nat) (s : State), s.takes cmd = true → s.turnedAway cmd false = false → s.computeQueue cmd = false → s.nsRefuse cmd.fn ns .nvm = none →
    s.blockRange ns slba nlb = some (off, n) → s.rangeLocked ns off n false = false → s.badIu ns off n = none →
    (n ≤ 2 ^ 21 → exec (.nvmRead cmd ns slba nlb false false) s =
      .next (((((s.hostReads ns off n).heatT2 ns off n 0).smartAdd 1 n).smartAdd 3 1).succeed cmd 0 (s.nvmRead ns off n))) ∧
    exec (.nvmVerify cmd ns slba nlb false false) s = .next ((s.hostReads ns off n).succeed cmd)) ∧
  (∀ (cmd : CmdId) (ns slba off n : Nat) (data : List Byte) (x : Namespace) (s : State), s.takes cmd = true → s.turnedAway cmd false = false → s.computeQueue cmd = false → s.nsRefuse cmd.fn ns .nvm = none →
    sget? s.host.namespaces ns = some x → s.blockRange ns slba (ceilDiv data.length (lbaBytes x.lbaf)) = some (off, n) → n ≤ 2 ^ 21 →
    (s.fget glob_MEDIA_MODE 0 ≠ 1 → s.rangeLocked ns off n true = false → s.badPart ns off n = none →
      s.canStage ns off n (iusOf ns off n).length = true →
      exec (.nvmWrite cmd ns slba data) s = .next (((((s.copiesOnWrite (iusOf ns off n)).nvmWrite ns off
        (data ++ List.replicate (n - data.length) 0) false).pcie 64 n).smartAdd 2 n).smartAdd 4 1 |>.succeed cmd)) ∧
    (s.rangeLocked ns off n false = false → s.badIu ns off n = none → exec (.nvmCompare cmd ns slba data false false) s =
      .next (if s.nvmRead ns off n = data ++ List.replicate (n - data.length) 0
        then (((s.hostReads ns off n).pcie 64 n).smartAdd 3 1).succeed cmd
        else (((s.hostReads ns off n).pcie 64 n).smartAdd 3 1).complete cmd 2 0x85))) ∧
  (∀ (cmd : CmdId) (ns : Nat) (s : State), s.takes cmd = true → s.turnedAway cmd false = false → s.computeQueue cmd = false → s.nsRefuse cmd.fn ns .nvm = none →
    exec (.nvmFlush cmd ns) s = .next (s.succeed cmd)) ∧
  (∀ (cmd : CmdId) (ns slba nlb off n : Nat) (s : State), s.takes cmd = true → s.turnedAway cmd false = false → s.computeQueue cmd = false → s.nsRefuse cmd.fn ns .nvm = none →
    s.blockRange ns slba nlb = some (off, n) → s.fget glob_MEDIA_MODE 0 ≠ 1 → s.rangeLocked ns off n true = false → s.badPart ns off n = none →
    s.canStage ns off n (partialIus ns off n).length = true →
    exec (.nvmWriteZeroes cmd ns slba nlb) s = .next ((s.clearRange ns off n).succeed cmd) ∧
    exec (.datasetManagementDeallocate cmd ns true [(slba, nlb)]) s = .next (((s.pcie 64 16).clearRange ns off n).succeed cmd)) ∧
  (∀ (cmd : CmdId) (ns off n : Nat) (x : Namespace) (s : State), s.takes cmd = true → s.turnedAway cmd false = false → s.computeQueue cmd = false → s.nsRefuse cmd.fn ns .slm = none →
    sget? s.host.namespaces ns = some x → off + n ≤ x.bytes → n ≤ 2 ^ 21 →
    (s.piecesRead (s.slmPieces ns off n)).1 = true → ∃ u : State,
    u = (s.slmPieces ns off n).foldl (fun (t : State) (p : Nat × Nat) => t.heatT1 p.1 p.2) (s.piecesRead (s.slmPieces ns off n)).2 ∧
    exec (.slmRead cmd ns off n) s =
      .next (u.succeed cmd 0 ((s.slmPieces ns off n).flatMap fun p => s.tiers.hbm.readN p.1 p.2))) ∧
  (∀ (cmd : CmdId) (ns off : Nat) (data : List Byte) (x : Namespace) (s : State), s.takes cmd = true → s.turnedAway cmd false = false → s.computeQueue cmd = false → s.nsRefuse cmd.fn ns .slm = none →
    sget? s.host.namespaces ns = some x → off + data.length ≤ x.bytes → data.length ≤ 2 ^ 21 →
    exec (.slmWrite cmd ns off data) s =
      .next (((s.writePieces (s.slmPieces ns off data.length) data).pcie 64 data.length).succeed cmd))

/-- The admin commands of namespaces and media complete on the physical function with no sanitize: Namespace Management creates an NVM namespace that
fits and deletes a namespace; Namespace Attachment attaches at a function that does not hold the namespace yet; Format formats a namespace; Sanitize
starts, progresses, completes and fails; READ_ONLY is entered where the margin is gone; Security Send sets a range's locks and Security Receive returns
the oldest response; a valid collection is set, and got back. -/
def Obligations.NamespaceSecurityAndCollectionCommandsComplete : Prop :=
  (∀ (cmd : CmdId) (nsid size lbaf pset ns : Nat) (s : State), s.takes cmd = true → cmd.fn = 0 → s.turnedAway cmd false = false →
    s.sanitizing = false → size ≠ 0 → size % 2 ^ 21 = 0 → lbaf ≤ 1 → pset ≤ 2 → (s.pcie 64 4096).freeNsid .nvm = some ns →
    (s.pcie 64 4096).roomFor pset (size / 2 ^ 21) = true → ∃ x : Namespace,
    x = { kind := .nvm, units := size / 2 ^ 21, lbaf := lbaf, pset := pset, attached := [], pages := [], rdLocked := false, wrLocked := false } ∧
    exec (.namespaceManagement cmd true false nsid size lbaf pset) s = .next ((((s.pcie 64 4096).putNs ns x).flush).succeed cmd ns)) ∧
  (∀ (cmd : CmdId) (slm : Bool) (nsid size lbaf pset : Nat) (s : State), s.takes cmd = true → cmd.fn = 0 →
    s.turnedAway cmd false = false → s.sanitizing = false →
    (nsid < 66 ∨ s.cp.ctxs = []) → nsid ≠ 0xFFFFFFFF → (sget? s.host.namespaces nsid).isSome = true →
    exec (.namespaceManagement cmd false slm nsid size lbaf pset) s = .next (((s.deleteNs nsid).flush).succeed cmd)) ∧
  (∀ (cmd : CmdId) (nsid f : Nat) (n : Namespace) (s : State), s.takes cmd = true → cmd.fn = 0 →
    s.turnedAway cmd false = false → s.sanitizing = false →
    sget? s.host.namespaces nsid = some n → s.fnEnabled f = true → n.attached.contains f = false →
    exec (.namespaceAttachment cmd nsid true [f]) s = .next (((((s.pcie 64 4096).putNs nsid { n with attached := n.attached ++ [f] }).nsChanged
      ([f].filter (· ≠ 0)) nsid).flush).succeed cmd)) ∧
  (∀ (cmd : CmdId) (nsid lbaf ses : Nat) (n : Namespace) (s : State), s.takes cmd = true → cmd.fn = 0 →
    s.turnedAway cmd false = false → s.sanitizing = false → s.fget glob_MEDIA_MODE 0 ≠ 1 → ses ≤ 2 → lbaf ≤ 1 → nsid ≠ 0xFFFFFFFF →
    ((s.host.namespaces.filter fun p => p.2.kind == .nvm).map Prod.fst).contains nsid = true →
    exec (.formatNvm cmd nsid lbaf ses) s = .next (((s.formatNs lbaf ses nsid).flush).succeed cmd)) ∧
  (∀ s : State, s.fget glob_MEDIA_MODE 0 = 0 → s.margin ≤ 0 → exec .mediaReadOnlyEntry s = .next ((s.refreshMargin).enterReadOnly 1)) ∧
  (∀ (cmd : CmdId) (action pattern : Nat) (s : State), s.takes cmd = true → cmd.fn = 0 →
    s.turnedAway cmd false = false → 1 ≤ action → action ≤ 3 → s.sanitizing = false → s.fget glob_MEDIA_MODE 0 ≠ 1 → ∃ u v : State,
    u = ((s.faultMoves false Move.usesMedia 0x06 16).faultSteps PuuStep.usesMedia 0x06 16).dropCopies (fun _ => true) ∧
    v = { u with tiers := { u.tiers with hbm := u.slmPages.foldl (fun (m : Mem) (k : Nat) => m.fill (t1Addr k) tierBytes none) u.tiers.hbm }
                 ftl := { u.ftl with sanAction := action
                                     sanPattern := pattern % 2 ^ 32
                                     sanSteps := 0
                                     collecting := []
                                     shedding := none
                                     refresh := [] } } ∧
    exec (.sanitize cmd action pattern false) s = .next (((v.fset ftl_REBUILD_STATE 0 4).setMedia 2 4).succeed cmd)) ∧
  (∀ s : State, s.sanRuns = true → s.ftl.sanSteps < 255 →
    exec .sanitizeProgress s = .next (({ s with ftl := { s.ftl with sanSteps := s.ftl.sanSteps + 1 } } : State).flush)) ∧
  (∀ s : State, s.sanRuns = true → 255 ≤ s.ftl.sanSteps → ∃ u : State, u.ftl.sanAction = 0 ∧ u.ftl.sanSteps = 256 ∧ u.ftl.sanDone = true ∧
    (∀ p ∈ u.host.namespaces, p.2.rdLocked = false ∧ p.2.wrLocked = false) ∧
    exec .sanitizeComplete s = .next (((((u.flush).refreshMargin).fset ftl_REBUILD_STATE 0 0).setMedia (if u.roCauseNow = 0 then 0 else 1)
      u.roCauseNow).aer 0 2 2)) ∧
  (∀ (info : Nat) (s : State), s.sanRuns = true →
    exec (.sanitizeFail info) s = .next (((s.setMedia 2 5).err 0x22 0 [13] info).fset ftl_REBUILD_STATE 0 0)) ∧
  (∀ (cmd : CmdId) (proto k : Nat) (rd wr : Bool) (data : List Byte) (s : State), s.takes cmd = true → cmd.fn = 0 →
    s.turnedAway cmd false = false → s.sanitizing = false → proto ≤ 2 → ∃ u : State, u = ((s.pcie 64 data.length).lockRange k rd wr).flush ∧
    exec (.securitySend cmd proto (.lock k rd wr) true data) s =
      .next (({ u with ftl := { u.ftl with opalOut := u.ftl.opalOut ++ [Config.opalResponse data] } } : State).succeed cmd)) ∧
  (∀ (cmd : CmdId) (r : List Byte) (rs : List (List Byte)) (s : State), s.takes cmd = true → cmd.fn = 0 →
    s.turnedAway cmd false = false → s.ftl.opalOut = r :: rs →
    exec (.securityReceive cmd 1) s = .next (({ s with ftl := { s.ftl with opalOut := rs } } : State).succeed cmd 0 r)) ∧
  (∀ (cmd : CmdId) (id c : Nat) (data : List Byte) (x : Ctx) (s : State), s.takes cmd = true → s.turnedAway cmd true = false → s.ctx? c = some x → c < 64 → x.req.fn = cmd.fn →
    s.collInUse cmd.fn (id % 65536) = false → clColumns ((data ++ List.replicate 4096 0).take 4096) ≠ 0 →
    s.collValid cmd.fn x ((data ++ List.replicate 4096 0).take 4096) = true → s.near.collections.length < 4096 → ∃ u t : State,
    u.near.collections = sput s.near.collections (65536 * cmd.fn + id % 65536)
      { bytes := (data ++ List.replicate 4096 0).take 4096, ctx := c, valid := true } ∧
    t = u.succeed cmd ∧ exec (.collectionDescriptorSet cmd id c data) s = .next t) ∧
  (∀ (cmd : CmdId) (id : Nat) (k : Collection) (s : State), s.takes cmd = true → s.turnedAway cmd false = false →
    sget? s.near.collections (65536 * cmd.fn + id % 65536) = some k →
    exec (.collectionDescriptorGet cmd id) s = .next (s.succeed cmd 0 k.bytes))

/-- The commands of the context manager complete, with CMD not BUSY and the host up. CREATE_CONTEXT under the checks of Table 11-2 leaves an IDLE context
with no task, and a refusal leaves every context as it was; CMD_TEAR_DOWN puts a context into TEARING_DOWN with its task gone; CMD_PREEMPT decides a
pre-emption of a running task, by force where the context is forceable and has passed a cheap point; CMD_SET_POLICY replaces the policy; CONTEXT_LOAD
presents the first waiter at crossing point 1 of each Hob it uses; PREEMPT_DECISION decides for a waiter of higher priority and is withdrawn where none asks;
an expired FORCE_AFTER_MS forces; a forced pre-emption of a task past a cheap point stops its work and saves the checkpoint; a completed save leaves the
context SUSPENDED; a restore that crossing point 1 grants brings it to RESTORING, and its completion to RUNNING with the saved registers. -/
def Obligations.ContextCommandsComplete : Prop :=
  (∀ (v : Nat) (s : State), s.hostUp = true → s.fget ctxm_BUSY 0 ≠ 1 →
    exec (.createContext v) s = .next ((if (s.createContext v).1 = 0 then (s.createContext v).2.2 else s.pcie 64 256).cmdDone 1 0 v
      (s.createContext v).1 (s.createContext v).2.1) ∧
    ((s.createContext v).1 = 0 → ∃ x t, exec (.createContext v) s = .next t ∧
      sget? t.cp.ctxs (s.createContext v).2.1 = some x ∧ x.st = .idle ∧ x.task = none) ∧
    ((s.createContext v).1 ≠ 0 → ∃ t, exec (.createContext v) s = .next t ∧ t.cp = s.cp ∧ t.tiers = s.tiers ∧ t.host = s.host)) ∧
  (∀ (v : Nat) (x : Ctx) (s : State), s.hostUp = true → s.fget ctxm_BUSY 0 ≠ 1 → s.globalOn = true → s.ctx? v = some x → x.st ≠ .tearingDown →
    ∃ (y : Ctx) (t : State), exec (.cmdTearDown v) s = .next t ∧ t.ctx? v = some y ∧ y.st = .tearingDown ∧ y.task = none ∧ y.tearWord = true) ∧
  (∀ (v : Nat) (force : Bool) (x : Ctx) (t : Task) (s : State), s.hostUp = true → s.fget ctxm_BUSY 0 ≠ 1 → s.globalOn = true → s.ctx? v = some x →
    x.task = some t → x.issuing = true → (force = true → x.req.forceable = true ∧ t.checkpoint.isSome = true) →
    exec (.cmdPreempt v force) s =
      .next ((s.setCtx v { x with st := .preempting, preempt := (if force then 2 else 3), preemptTick := s.tick }).cmdDone 3 (b2n force) v 0 v)) ∧
  (∀ (v : Nat) (x : Ctx) (r : Request) (s : State), s.hostUp = true → s.fget ctxm_BUSY 0 ≠ 1 → s.globalOn = true → s.ctx? v = some x →
    r = decodeRequest s.requestBytes → r.prio ≤ 3 → fld s.requestBytes 5 1 < 2 →
    (r.forceable = true → 1 ≤ r.forceAfter ∧ r.forceAfter ≤ 10000) → (r.forceable = false → r.forceAfter = 0) →
    (r.forceable ≠ x.req.forceable → x.st = .idle ∨ x.st = .idleLoaded ∨ x.st = .frozen ∨ x.st = .suspended) →
    exec (.cmdSetPolicy v) s = .next (((s.setCtx v { x with req := { x.req with
      prio := r.prio, forceable := r.forceable, quantum := r.quantum, forceAfter := r.forceAfter } }).pcie v 256).cmdDone 4 0 v 0 v)) ∧
  (∀ (c : Nat) (x : Ctx) (s : State), s.ctx? c = some x → x.waits = true → s.homeFree c x.req = true → s.firstInLine c x = true →
    ∃ t, exec (.contextLoad c) s = .next t ∧ t.cp = (s.displace c x.req).cp ∧
      ∀ h ∈ x.req.hobs, ∃ w ∈ t.arb.waiting, w.cp = 1 ∧ w.inst = h ∧ w.party = c) ∧
  (∀ (c : Nat) (x : Ctx) (t : Task) (s : State), s.runningTask c = some (x, t) → x.preempt = 0 → s.fget glob_ARMED 0 = 0 →
    s.lockstepPending = false → s.waiterFor c x (fun w => decide (x.req.prio < w.req.prio)) = true →
    exec (.preemptDecision c) s = .next (s.setCtx c { x with st := .preempting, preempt := 1, preemptTick := s.tick })) ∧
  (∀ (c : Nat) (x : Ctx) (t : Task) (s : State), s.runningTask c = some (x, t) → x.preempt = 1 →
    s.waiterFor c x (fun w => decide (x.req.prio < w.req.prio)) = false → s.quantumOver x t = false →
    exec (.preemptDecision c) s = .next (s.setCtx c { x with st := .running, preempt := 0 })) ∧
  (∀ (c : Nat) (x : Ctx) (t : Task) (s : State), s.runningTask c = some (x, t) → x.preempt = 1 → x.req.forceable = true →
    x.preemptTick + ticksMs x.req.forceAfter ≤ s.tick → s.fget glob_ARMED 0 = 0 →
    s.waiterFor c x (fun w => decide (x.req.prio < w.req.prio)) = true →
    exec (.forceAfterExpiry c) s = .next (s.setCtx c { x with preempt := 2 })) ∧
  (∀ (c : Nat) (x : Ctx) (t : Task) (k : Saved) (s : State), s.runningTask c = some (x, t) → x.preempt = 2 → s.forcedSave x t = some k →
    t.atYield x.req = false → t.pinned = false → x.req.forceable = true →
    ((List.range 2).all fun h => !x.req.uses h || s.seqDone x t h) = false → ∃ u y t1, exec (.forcedPreempt c) s = .next u ∧
      sget? u.cp.ctxs c = some y ∧ y.saved = some k ∧ y.task = some t1 ∧ t1.inflight = [] ∧ t1.signals = [] ∧ t1.replayed = true ∧
      y.replays = satAdd x.replays 1 255) ∧
  (∀ (c : Nat) (x : Ctx) (k : Saved) (s : State), s.ctx? c = some x → x.saved = some k → x.st = .preempting → s.saveLost x = false →
    ∃ t y, exec (.contextSaveComplete c) s = .next t ∧ sget? t.cp.ctxs c = some y ∧ y.st = .suspended ∧ y.preempt = 0 ∧ y.saved = some k ∧
      y.waitSince = s.tick) ∧
  (∀ (c : Nat) (x : Ctx) (k : Saved) (t : Task) (g s : State), s.ctx? c = some x → x.saved = some k → x.task = some t →
    s.mayRestore c x = true → s.grantedLoad c x x.waitSince = some g → g.homeLost x.req = false →
    ∃ u y, exec (.contextRestore c) s = .next u ∧ u.ctx? c = some y ∧ y.st = .restoring ∧ y.preemptTick = s.tick) ∧
  (∀ (c : Nat) (x : Ctx) (k : Saved) (t : Task) (s : State), s.ctx? c = some x → x.saved = some k → x.task = some t → x.st = .restoring →
    s.saveLost x = false → ∃ u y t1, exec (.contextRestoreComplete c) s = .next u ∧ sget? u.cp.ctxs c = some y ∧ y.st = .running ∧
      y.saved = none ∧ y.task = some t1 ∧ t1.regs0 = k.regs.getD 0 t.regs0 ∧ t1.regs1 = k.regs.getD 1 t.regs1 ∧ t1.loadTick = s.tick)

/-- The commands of a task complete. TASK_START of a context whose load crossing point 1 grants runs the oldest command its intake holds: one without descriptors
takes effect and completes; an Execute Program with an active image of its function that passes the checks of R148 leaves the context RUNNING, with the task
registers loaded, at descriptor 0 with its semaphores zero. BARRIER and YIELD with fields in range stop their sequencer; SEM_WAIT passes where its value is
there and else stops it; a release, a satisfied wait and a drained YIELD let it go on, and a drained YIELD stops and saves a task whose pre-emption is pending; SEM_SIGNAL is passed
to the semaphore block, where it takes effect at once with its watched work complete, and a deferred one adds its value later; REPEAT jumps back while its
count lasts and then passes. TASK_END posts the completion of a task with nothing in flight, with success, its flags and RESULT; TASK_FAULT and a
TIME_LIMIT that has run fault the context, which is what they are. -/
def Obligations.TaskAndControlDescriptorsComplete : Prop :=
  (∀ (c : Nat) (x y : Ctx) (i : Intake) (is : List Intake) (g u s : State), s.ctx? c = some x → s.heldOf c = i :: is → s.mayGrant c x i = true →
    s.grantedLoad c x i.tick = some g → u = g.count 0x04 0 0 1 → y = (u.ctx? c).getD x →
    (∀ op : QueueOp, i.op = some op → exec (.taskStart c) s = .next (u.runHeld c y i op)) ∧
    (∀ (e : ExecCmd) (v : State), i.op = none → i.exec = some e → v = u.beginTask c y i (u.withArg e) (s.lateLoad c x i.tick) →
      v.imageActive e.slot y.req.fn = true → v.loadCheck y (u.withArg e) = none → ∃ (t : State) (z : Ctx) (k : Task),
      exec (.taskStart c) s = .next t ∧ t.ctx? c = some z ∧ z.st = .running ∧ z.task = some k ∧ k.exec = u.withArg e ∧
      k.regs 0 = loadRegs y (u.withArg e) u.tick 0 ∧ k.regs 1 = loadRegs y (u.withArg e) u.tick 1 ∧ (k.regs 0).issueIndex = 0 ∧
      (k.regs 1).issueIndex = 0 ∧ ∀ n ∈ y.req.semsOf, t.sem n = 0)) ∧
  (∀ (c h : Nat) (d : Desc) (s : State), s.nextDesc c h 0x01 = .go d → bits d.w 20 84 = 0 →
    exec (.barrier c h) s = .next (s.pass d fun t => t.setWait h (.barrier (bits d.w 12 8)))) ∧
  (∀ (c h m : Nat) (x : Ctx) (t : Task) (s : State), s.runningTask c = some (x, t) → t.wait h = .barrier m → t.watchDone h m t.ser = true →
    exec (.barrierRelease c h) s = .next (s.setCtx c { x with task := some (t.setWait h .none) })) ∧
  (∀ (c h : Nat) (d : Desc) (s : State), s.nextDesc c h 0x02 = .go d → bits d.w 39 65 = 0 → bits d.w 12 10 / 512 = h →
    d.x.req.holdsSem (bits d.w 12 10) = true →
    (bits d.w 22 16 ≤ s.sem (bits d.w 12 10) → bit d.w 38 = true → exec (.semWait c h) s =
      .next ((s.setSems [(bits d.w 12 10, s.sem (bits d.w 12 10) - bits d.w 22 16)]).pass d fun t => t.waitPassed h true)) ∧
    (bits d.w 22 16 ≤ s.sem (bits d.w 12 10) → bit d.w 38 = false → exec (.semWait c h) s = .next (s.pass d fun t => t.waitPassed h false)) ∧
    (s.sem (bits d.w 12 10) < bits d.w 22 16 → exec (.semWait c h) s =
      .next (s.pass d fun t => t.setWait h (.sem (bits d.w 12 10) (bits d.w 22 16) (bit d.w 38))))) ∧
  (∀ (c h n v : Nat) (acq : Bool) (x : Ctx) (t : Task) (s : State), s.runningTask c = some (x, t) → t.wait h = .sem n v acq → v ≤ s.sem n →
    exec (.semWaitSatisfied c h) s =
      .next ((if acq then s.setSems [(n, s.sem n - v)] else s).setCtx c { x with task := some (t.waitPassed h acq) })) ∧
  (∀ (c h : Nat) (d : Desc) (g : Signal) (s : State), s.nextDesc c h 0x03 = .go d → bit d.w 39 = false → bits d.w 48 56 = 0 →
    d.x.req.holdsSem (bits d.w 12 10) = true → (bit d.w 38 = true → (d.t.regs h).heldSem ≠ 0) →
    g = { hob := h, index := d.i, sem := bits d.w 12 10, value := bits d.w 22 16, release := bit d.w 38, mask := bits d.w 40 8, ser := d.t.ser } →
    ∃ u : State, u = (s.pass d fun t => { t with signals := t.signals ++ [g] }) ∧
      exec (.semSignal c h) s = .next (if d.t.watchDone h g.mask g.ser then u.signalEffect c g else u)) ∧
  (∀ (c h i : Nat) (x : Ctx) (t : Task) (g : Signal) (s : State), s.runningTask c = some (x, t) →
    (s.rel.hobFault = true → g.sem / 512 = g.hob) → (t.signals.find? fun k => k.hob == h && k.index == i && t.watchDone h k.mask k.ser) = some g →
    s.sem g.sem + g.value ≤ 65535 → (g.release = true → (t.regs g.hob).heldSem ≠ 0) →
    ∃ u y t1, exec (.semSignalEffect c h i) s = .next u ∧ u.sem g.sem = s.sem g.sem + g.value ∧ sget? u.cp.ctxs c = some y ∧
      y.task = some t1 ∧ t1.signals = t.signals.erase g) ∧
  (∀ (c h : Nat) (d : Desc) (s : State), s.nextDesc c h 0x04 = .go d → bits d.w 44 60 = 0 →
    bits d.w 12 16 ≤ pgLiveSb (s.imageOf d.t.exec.slot) → bits d.w 28 16 ≤ pgLiveAcc (s.imageOf d.t.exec.slot) →
    exec (.yield c h) s = .next (s.pass d fun t => t.setWait h (.yielding (bits d.w 12 16) (bits d.w 28 16)))) ∧
  (∀ (c h : Nat) (x : Ctx) (t t2 : Task) (sb acc : Nat) (u s : State), s.runningTask c = some (x, t) → (List.range 2).all (t.drained x.req) = true →
    h < 2 → x.req.uses h = true → t.wait h = .yielding sb acc → (t.regs 0).heldSem = 0 → (t.regs 1).heldSem = 0 → s.creditsHeld c = false →
    t2 = { t.passYield x.req with checkpoint := some ((s.yieldUnits c).checkpointOf c x (t.passYield x.req)) } →
    u = (s.yieldUnits c).setCtx c { x with task := some t2 } →
    (x.abortWait = false → x.preempt = 0 → (x.req.forceable = true → u.saveLost x = false) → exec (.yieldDrained c) s = .next u) ∧
    (x.abortWait = false → x.preempt ≠ 0 → ∃ (y : Ctx) (v : State), exec (.yieldDrained c) s = .next v ∧ v.ctx? c = some y ∧
      y.saved.isSome = true ∧ y.preemptTick = s.tick)) ∧
  (∀ (c h n left it : Nat) (active : Bool) (d : Desc) (r : TaskRegs) (s : State), s.nextDesc c h 0x05 = .go d → bits d.w 50 6 = 0 → bits d.w 80 24 = 0 →
    bits d.w 12 16 < d.i → r = d.t.regs h → n = bits d.w 48 2 → active = r.loopActive.getD n false →
    (active = true → r.loopFrom.getD n 0 = d.i) → left = (if active then r.loops.getD n 0 else bits d.w 28 20) →
    it = (if active then r.iters.getD n 0 else 0) →
    (0 < left → exec (.repeat c h) s = .next ((s.pass d).setTask c (d.t.setRegs h { r with
      loops := setAt r.loops n (left - 1)
      loopActive := setAt r.loopActive n true
      loopFrom := setAt r.loopFrom n d.i
      iters := setAt r.iters n (it + 1)
      paceOffset := (r.paceOffset + bits d.w 56 24) % 2 ^ 40
      issueIndex := bits d.w 12 16 }))) ∧
    (left = 0 → exec (.repeat c h) s = .next (s.pass d fun t => t.setRegs h { t.regs h with
      loops := setAt r.loops n 0
      loopActive := setAt r.loopActive n false
      iters := setAt r.iters n 0 }))) ∧
  (∀ (c res : Nat) (x : Ctx) (t : Task) (u s : State), s.runningTask c = some (x, t) → s.taskDone x t = true →
    (t.advances ≠ [] → s.advanceBarred = none) →
    res = (if x.req.pairing = 2 then (t.regs t.lastRes).result else (t.regs x.req.pairing).result) →
    u = ((((s.advances c x t).yieldUnits c).dropWork c).postTask t 0 0 t.flagsOf res).missAborts t.exec.cmd →
    exec (.taskEnd c) s = .next ((u.afterTask c ((u.ctx? c).getD x) t).prune)) ∧
  (∀ (c h code idx case ucls uinst : Nat) (s : State), s.badClass c h = none → exec (.taskFault c h code idx case ucls uinst) s =
    .next (s.faultCtx c { code := code, index := idx, case := case, hob := h, ucls := ucls, uinst := uinst })) ∧
  (∀ (c : Nat) (x : Ctx) (t : Task) (s : State), s.runningTask c = some (x, t) → t.exec.timeLimit ≠ 0 →
    ticksMs t.exec.timeLimit ≤ t.ranTicks + (s.tick - t.loadTick) → exec (.taskTimeout c) s =
      .next (s.faultCtx c { code := 0x07, index := 0xFFFF, hob := x.req.hobs.headD 0 }))

/-- The commands of the Griddles complete. A GRIDDLE_MM that meets every check of Table 07-7 and meets no Whisk is issued to its region; the front pass of a
region with its streams and weights in place, and no injection armed, enters its share, which it leaves OPEN with its descriptor complete, or DRAINING and handed over with DRAIN = 1; a
corrected tile-buffer error sets bit 2; a parity or residue error faults its region; a mismatched stream discards the front pass, empties its share and faults the
context; a self-check starts on an unowned FAULTED region, and in test mode on any unowned one, and one that a host started ends with its result shown; a
self-check that does not complete calls for retirement; with a spare pending and the drained page not busy, the line maps are committed and their check starts; a Griddle
classified for retirement retires once unowned. -/
def Obligations.GriddleCommandsComplete : Prop :=
  (∀ (c h i : Nat) (d : Desc) (r : Region) (s : State), s.nextDesc c h 0x10 = .go d →
    mmFieldsOk (s.descMode d.x h (mmGriddle d.w)) d.w = true → s.checkGriddle c d.x h (mmGriddle d.w) (mmRegion d.w) = .ok i →
    r = s.region i (mmRegion d.w) → s.holdsLadle c h (mmALadle d.w) = true → (mmAccum d.w = 2 → s.holdsLadle c h (mmPreLadle d.w) = true) →
    mmFormatCase d.w = 0 → mmSettingsOk r d.w = true → mmWeightFmt r d.w = some (mmWFmt d.w) → mmAccumOk r d.w = true →
    s.fget (hdr_DRAIN 0x11) i ≠ 1 → (mmDrain d.w = true → s.drainWhisk c h (mmGriddle d.w) (mmRegion d.w) = none) →
    exec (.griddleMm c h) s = .next ((s.setRegion i (mmRegion d.w) (r.issuePass d.i d.t.ser d.w)).issue d)) ∧
  (∀ (i r : Nat) (p : Pass) (f : Feed) (pre : Option Feed) (s : State), (s.region i r).passReady = some (p, f, pre) →
    s.fget (hdr_STATE 0x11) i = 2 → s.injectLeft 0x11 i 1 = 0 → s.armed 0x11 i [3, 8, 9, 11] = none → s.injectLeft 0x11 i 2 = 0 →
    (s.region i r).tiles.length = 2 → mmTile p.word < 2 → ∃ u : State,
    (u.region i r).passes = (s.region i r).passes.tail ∧
    ((u.region i r).tiles.getD (mmTile p.word) { st := 0, fp := false, entries := [] }).st = (if mmDrain p.word then 2 else 1) ∧
    (u.region i r).hands.length = (s.region i r).hands.length + (if mmDrain p.word then 1 else 0) ∧
    exec (.griddlePassComplete i r) s = .next (if mmDrain p.word then u else u.descDone (s.regionOwner i r) p.ser)) ∧
  (∀ (i r info : Nat) (whole : Bool) (s : State), Sys2Proof.Machine.present s.variant 0x11 i = true →
    exec (.griddleCheckError i r 2 info whole) s = .next (s.err 0x11 i [2] info (s.regionOwner i r)) ∧
    (∀ kind, kind = 8 ∨ kind = 9 → exec (.griddleCheckError i r kind info false) s =
      .next (s.regionFault i r [kind] kind 0x40 (s.region i r).frontIndex info))) ∧
  (∀ (i r port index tile ch : Nat) (s : State), s.mismatchAt i r port = some (index, tile, ch) → port < 2 → ∃ u : State,
    u = ((s.setRegion i r { s.region i r with
      passes := (s.region i r).passes.tail
      tiles := setAt (s.region i r).tiles tile { st := 0, fp := false, entries := [] } }).err 0x11 i [11] (gridInfo 0 0 r tile 0)
        (s.regionOwner i r)).err 0x12 (64 * (i / 17) + ch) [11] 0 (s.regionOwner i r) ∧
    exec (.streamMismatch i r port) s = .next (u.faultCtx (s.regionOwner i r)
      { code := 0x41, index := index, hob := i / 17, ucls := 0x11, uinst := i, info := gridInfo 0 0 r tile 0 })) ∧
  (∀ (i r : Nat) (s : State), Sys2Proof.Machine.present s.variant 0x11 i = true → s.regionState i r = 4 → s.regionOwner i r = 0xFF →
    s.fget grid_SELF_CHECK_BUSY i ≠ 1 → s.fget (hdr_STATE 0x11) i ≠ 5 → s.fget (hdr_STATE 0x11) i ≠ 1 → ∃ t, exec (.griddleSelfCheck i r) s = .next t ∧
    t.fget grid_SELF_CHECK_BUSY i = 1 ∧ t.fget grid_SELF_CHECK_DONE i = 0 ∧ sget? t.units.checking i = some (.region r)) ∧
  (∀ (i r : Nat) (s : State), Sys2Proof.Machine.present s.variant 0x11 i = true → r = s.fget grid_SELF_CHECK_REGION i → s.fget glob_TEST_MODE 0 = 1 →
    r < s.fget grid_REGIONS i → s.regionOwner i r = 0xFF → s.fget grid_SELF_CHECK_BUSY i = 0 → ∃ t, exec (.selfCheckGo i) s = .next t ∧
    t.fget grid_SELF_CHECK_BUSY i = 1 ∧ t.fget grid_SELF_CHECK_DONE i = 0 ∧ sget? t.units.checking i = some (.host r)) ∧
  (∀ (i r row col : Nat) (s : State), s.fget grid_SELF_CHECK_BUSY i ≠ 0 →
    (sget? s.units.checking i = some (.host r) → ∃ t, exec (.griddleSelfCheckDone i 0 row col) s = .next t ∧
      t.fget grid_SELF_CHECK_BUSY i = 0 ∧ t.fget grid_SELF_CHECK_DONE i = 1 ∧ t.fget grid_SELF_CHECK_PASS i = 1) ∧
    (sget? s.units.checking i = some (.region r) → ∃ t, exec (.griddleSelfCheckDone i 4 row col) s = .next t ∧
      t.fget grid_SELF_CHECK_BUSY i = 0 ∧ t.units.retiring.contains i = true)) ∧
  (∀ (i used : Nat) (marked : List Field → List Nat) (u s : State), s.fget grid_SPARE_PENDING i = 1 → (∀ r < 4, s.regionOwner i r = 0xFF) →
    s.fget (hdr_STATE 0x11) i ≠ 5 → s.fget grid_SELF_CHECK_BUSY i = 0 → u = s.putControl hdr_DRAIN 0x11 i true →
    marked = (fun fs => (fs.map fun f => u.fget f i).filter (· ≠ 0x1FF)) → used = (marked badRows).length + (marked badCols).length →
    (u.griddleBusy i = true → exec (.spareRowCommit i) s = .next u) ∧
    (u.griddleBusy i = false → ∃ v : State,
      v = { u with units := { u.units with lineMap := sput u.units.lineMap i (marked badRows, marked badCols) } } ∧
      exec (.spareRowCommit i) s = .next ((((v.fset (hdr_SUB_USED 0x11) i used).recordRetirement 0x11 i used).spareSwitched 0x11 i 0 used
        used).startCheck i .commit))) ∧
  (∀ (i : Nat) (s : State), s.units.retiring.contains i = true → (∀ r < 4, s.regionOwner i r = 0xFF) → s.fget (hdr_STATE 0x11) i ≠ 5 →
    exec (.griddleRetire i) s = .next (s.retireGriddle i))

/-- The commands of the Drains and the Whisks complete. A DRAIN_CFG that meets the checks of Table 08-7 and loads no table puts its settings in force and passes; a table
load that no earlier drain blocks fills its slots; the oldest hand-over begins, its seed registers taking the seed with ROUND = 1; a begun drain whose
channels take its results, with no marked entry to stop it, no Whisk attached and no injection armed, empties its share, its results going to OUT_LADLE; a
corrected table error sets its bit, and an uncorrectable table word or a residue faults the region; a WHISK without a load that meets the checks takes its settings; a
Whisk check error sets its bit, and a residue faults the owner. -/
def Obligations.DrainAndWhiskCommandsComplete : Prop :=
  (∀ (c h i : Nat) (d : Desc) (r : Region) (s : State), s.nextDesc c h 0x11 = .go d →
    dcFieldsOk (s.descMode d.x h (dcGriddle d.w)) d.w = true → s.checkGriddle c d.x h (dcGriddle d.w) (dcRegion d.w) = .ok i →
    r = s.region i (dcRegion d.w) → s.cfgBarred h d.w = false → s.holdsLadle c h (dcOutLadle d.w) = true →
    dcRowSum d.w = 0 → dcRowScale d.w = 0 → dcLoadAct d.w = false → dcLoadCh d.w = false →
    s.drainWhisk c h (dcGriddle d.w) (dcRegion d.w) = none →
    exec (.drainCfg c h) s = .next ((s.setRegion i (dcRegion d.w)
      { r with cfg := some d.w, acc := if dcAccSet d.w then some (dcAcc d.w) else r.acc }).pass d)) ∧
  (∀ (i r : Nat) (x y : Region) (l : TableLoad) (ls : List TableLoad) (s : State), x = s.region i r → x.loads = l :: ls → x.loadBlocked l = false →
    (dcLoadAct l.word = true → actTableOk (s.loadAct l) = true) →
    y = { x with loads := ls,
                 act := (if dcLoadAct l.word then setAt x.act (cfgSlot l.word) (some (s.loadAct l)) else x.act),
                 chan := (if dcLoadCh l.word then setAt x.chan (cfgSlot l.word) (some (s.loadChan l)) else x.chan) } →
    exec (.drainTableLoadDone i r) s = .next ((s.setRegion i r y).descDone (s.regionOwner i r) l.ser)) ∧
  (∀ (i r : Nat) (x : Region) (hd : Handover) (hs : List Handover) (s : State), x = s.region i r → x.hands = hd :: hs → hd.begun = false →
    s.fget (hdr_STATE 0x11) i = 2 → (x.loads.any fun l => l.ser < hd.ser && cfgSlot l.word == cfgSlot hd.cfg) = false → ∃ t,
    exec (.drainTileStart i r) s = .next t ∧ (t.region i r).hands = { hd with begun := true } :: hs ∧
    (dcRound hd.cfg = true → t.fget64 drain_SR_SEED_LO drain_SR_SEED_HI i = s.drainSeed i r hd % 2 ^ 64) ∧
    (dcRound hd.cfg = false → t.regs = s.regs)) ∧
  (∀ (i r : Nat) (x : Region) (hd : Handover) (hs : List Handover) (s : State), x = s.region i r → x.hands = hd :: hs →
    s.drainReady i r hd (s.drainOf i r hd).out.length = true → (dcNfFault hd.cfg = true → (s.drainOf i r hd).nfs.contains true = false) →
    s.injectLeft 0x14 i 1 = 0 → s.armed 0x14 i [3, 9] = none → s.injectLeft 0x14 i 2 = 0 →
    s.drainWhisk (s.regionOwner i r) (i / 17) (s.fget (hdr_LOGICAL_INDEX 0x11) i) r = none → hd.tile < 2 → x.tiles.length = 2 → ∃ u : State,
    (u.region i r).hands = hs ∧ ((u.region i r).tiles.getD hd.tile { st := 7, fp := false, entries := [] }).st = 0 ∧
    exec (.drainTileComplete i r) s = .next (u.descDone (s.regionOwner i r) hd.ser)) ∧
  (∀ (i r pos : Nat) (whole : Bool) (s : State), Sys2Proof.Machine.present s.variant 0x14 i = true →
    exec (.drainError i r 2 pos whole) s = .next (s.err 0x14 i [2] ((s.region i r).drainPlace r pos) (s.regionOwner i r))) ∧
  (∀ (i r pos kind : Nat) (x : Region) (u s : State), Sys2Proof.Machine.present s.variant 0x14 i = true → kind = 3 ∨ kind = 9 → x = s.region i r →
    u = (s.err 0x14 i [kind, 11] (x.drainPlace r pos) (s.regionOwner i r)).blockEvent 0x14 i 0 (x.drainPlace r pos) false (s.regionOwner i r) →
    exec (.drainError i r kind pos false) s = .next ((u.regionFault i r [] 13 0x42 x.drainIndex (x.drainPlace r pos)
      (s.injectLeft 0x14 i kind != 0)).mirrorFault s i kind)) ∧
  (∀ (c h : Nat) (d : Desc) (s : State), s.nextDesc c h 0x19 = .go d → whFieldsOk d.w = true → s.whiskBusy h (whUnit d.w) = false →
    whLoad d.w = false → ((whSmooth d.w = true ∨ whSigns d.w = true) → (s.whisk (4 * h + whUnit d.w)).loaded = true) →
    s.fget (hdr_STATE 0x13) (4 * h + whUnit d.w) = 2 → whAttach d.w ≠ 2 → (whAttach d.w = 1 → isMx (whOutFmt d.w) = false) →
    (whAttach d.w = 1 → whVlen d.w % rotLen (whRot d.w) = 0) → s.fget (hdr_OWNER_CONTEXT 0x13) (4 * h + whUnit d.w) = c →
    exec (.whisk c h) s = .next ((s.setWhisk (4 * h + whUnit d.w) { s.whisk (4 * h + whUnit d.w) with
      cfg := if whAttach d.w = 0 then none else some d.w }).pass d)) ∧
  (∀ (i info : Nat) (s : State), Sys2Proof.Machine.present s.variant 0x13 i = true →
    exec (.whiskCheckError i 2 info) s = .next (s.err 0x13 i [2] info (s.fget (hdr_OWNER_CONTEXT 0x13) i)) ∧
    exec (.whiskCheckError i 8 info) s = .next ((s.err 0x13 i [8] info (s.fget (hdr_OWNER_CONTEXT 0x13) i)).faultCtx
      (s.fget (hdr_OWNER_CONTEXT 0x13) i) { code := 0x48, index := 0xFFFF, hob := i / 4, ucls := 0x13, uinst := i, info := info }))

/-- The commands of the Ladles and the shared buffer complete. A LADLE_MOVE that passes the checks of Table 09-6 and finds its ports, its window pages and
its channel's queue free is queued; the oldest queued move of an idle ON channel starts where nothing holds it, and one to a port puts its stream there; a running move to
memory that may transfer, whose source can be read, with no injection armed, writes its bytes in walking order and leaves the channel; a fill marks a finished
window page READY; an uncorrectable source error halts the channel and faults its context; a corrected SB error, and an uncorrectable one that no channel or
fetch met, are recorded and remapped as R239 gives. -/
def Obligations.LadleAndSharedBufferCommandsComplete : Prop :=
  (∀ (c h a i : Nat) (d : Desc) (m : Move) (s : State), s.nextDesc c h 0x18 = .go d → s.tableSource d (mvSel d.w) (mvRecOff d.w) 128 = some a →
    i = 64 * h + mvChan d.w →
    m = { hob := h, index := d.i, ctx := c, ser := d.t.ser, word := d.w, record := s.sbRead h a 128, iters := (d.t.regs h).moveIters, base := (d.t.regs h).base,
          mrs := (d.t.regs h).mrs, out := [], due := d.due, job := none, sent := 0, rx := [], filled := [] } →
    moveFieldsOk d.w m.record = true → s.moveCheck d m = none → rcSrcKind m.record ≠ 5 →
    s.portBound h false (sbGroups (m.spans (s.moveWhisk h d.w)) false) = false →
    s.portBound h true (sbGroups (m.spans (s.moveWhisk h d.w)) true) = false →
    ((((m.spans (s.moveWhisk h d.w)).filter Span.write).flatMap s.windowsOf).any s.fillPending) = false → s.fget (hdr_DRAIN 0x12) i ≠ 1 → (s.chan i).queue.length < 8 →
    ∃ u v : State, u = ((s.fset ladle_WAIT_CAUSE i 0).bind d false (sbGroups (m.spans (s.moveWhisk h d.w)) false)).bind d true (sbGroups (m.spans (s.moveWhisk h d.w)) true) ∧
      v = ((u.markFill h (((m.spans (s.moveWhisk h d.w)).filter Span.write).flatMap s.windowsOf)).takeWriter c
        (m.spans (s.moveWhisk h d.w))).issueShadow d m (s.moveWhisk h d.w) ∧
      exec (.ladleMove c h) s = .next ((v.setChan i { s.chan i with queue := (s.chan i).queue ++ [m] }).issue d (rcDstKind m.record)
        (s.batchOf c (m.spans (s.moveWhisk h d.w))))) ∧
  (∀ (ch : Nat) (m : Move) (ms : List Move) (s : State), (s.chan ch).queue = m :: ms → (s.chan ch).run = none → s.fget (hdr_STATE 0x12) ch = 2 →
    s.fget ladle_HALTED ch ≠ 1 → s.whiskHeld m = false → s.moveDrained m = false → (s.fget glob_DET_MODE_EFFECTIVE 0 = 1 → m.due ≤ s.tick) →
    (m.job.isSome = true → s.jobTurn m = true →
      exec (.ladleMoveStart ch) s = .next (s.setChan ch { queue := ms, run := some m })) ∧
    (m.job = none → rcDstPort m.record = false → rcSrcKind m.record ≠ 6 → mvWhisk m.word = 0 → exec (.ladleMoveStart ch) s =
      .next (((s.noteLate m).setChan ch { queue := ms, run := some m }).noteMove m)) ∧
    (m.job = none → rcDstPort m.record = true → rcSrcKind m.record ≠ 6 → mvWhisk m.word = 0 → s.sourceOk m = true →
      exec (.ladleMoveStart ch) s = .next ((((s.noteLate m).setChan ch { queue := ms, run := some m }).noteMove m).feedPort m))) ∧
  (∀ (ch : Nat) (m : Move) (cs : List Nat) (s : State), (s.chan ch).run = some m → s.moveGoes ch m = true → s.moveStopped ch m = none →
    cs = (if rcSrcKind m.record = 5 then ((s.moveIus m).map fun iu => s.packageOf (iuTier iu)).eraseDups else []) →
    s.colanderArmed cs false = none → (s.colanderFlips cs m.ctx).moveInjected ch m = (s, false) → rcDstPort m.record = false →
    s.sourceOk m = true → (rcSrcPort m.record = true → m.out ≠ []) →
    s.stagingRoom (rcDstKind m.record) ((m.records.zip (s.moveOut m).1).map fun p => (p.1.2.2, p.2.length)) = true →
    ∃ u v w : State,
      u = s.dstWrite m.ctx m.hob (rcDstKind m.record) m.mrs
        (((m.records.zip (s.moveOut m).1).map fun p => (p.1.2.2, p.2)).flatMap (unfilled m.filled)) ∧
      v = (((m.spans (s.moveWhisk m.hob m.word)).filter Span.write).flatMap u.windowsOf).foldl
        (fun (t : State) (p : Nat) => t.setMark p { t.mark p with ready := true }) u ∧
      w = (if v.batchOf m.ctx (m.spans (s.moveWhisk m.hob m.word)) then v.beginBatch m.ctx else v) ∧
      exec (.ladleMoveComplete ch) s =
        .next (((w.countSat m (s.moveOut m).2).countMove ch m ((s.moveOut m).1.map List.length).sum).endMove ch m)) ∧
  (∀ (ch page : Nat) (m : Move) (s : State), (s.chan ch).run = some m → s.moveGoes ch m = true → s.moveStopped ch m = none →
    rcDstKind m.record = 1 → (s.mark page).window = true → m.filled.contains page = false → s.sourceOk m = true →
    (rcSrcPort m.record = true → m.out ≠ []) →
    (pagesOfRange (m.hull false (m.dstLen (s.moveWhisk m.hob m.word))).1 ((m.hull false (m.dstLen (s.moveWhisk m.hob m.word))).2 + 1 -
      (m.hull false (m.dstLen (s.moveWhisk m.hob m.word))).1)).contains page = true →
    ∃ t, exec (.windowPageReady ch page) s = .next t ∧ (t.mark page).ready = true ∧
      (t.chan ch).run = some { m with filled := page :: m.filled }) ∧
  (∀ (ch addr : Nat) (m : Move) (s : State), (s.chan ch).run = some m → m.job = none → s.fget ladle_HALTED ch ≠ 1 →
    (rcSrcKind m.record < 7 → rcSrcKind m.record ≠ 0 → exec (.ladleHalt ch addr false) s =
      .next (s.haltChan ch addr (rcSrcKind m.record) (sourceCode (rcSrcKind m.record)) [9, 10] m)) ∧
    (rcSrcKind m.record = 0 → exec (.ladleHalt ch addr false) s = .next (s.haltChan ch addr 0 0x22 [9] m)) ∧
    (s.injectLeft 0x12 ch 3 ≠ 0 → exec (.ladleHalt ch addr true) s = .next (s.haltChan ch addr (rcSrcKind m.record) 0x22 [3, 9] m))) ∧
  (∀ (h a user ch : Nat) (s : State), h < 2 → a < 0x0C000000 →
    exec (.sbReadError h a false user ch) s = .next (s.sbCorrect h a) ∧
    exec (.sbReadError h a true 2 ch) s = .next (s.sbFail h a [3]))

/-- The commands of the Snilo Link ports complete on the X variant, for a frame that reaches an up port whole. A request that its table entries allow is served and counted, one that finds the queue full is
dropped; the answer to an outstanding request ends it, goes to its move and is timed; a NAK of reason 1 to 4 ends the request and its move, one of reason 5 leaves it outstanding; a passed wait sends the request again and doubles the
wait up to 3.2 ms; a passed REMOTE_TIMEOUT_MS ends it with REMOTE_UNREACHABLE; a channel that runs no T3 move returns its credits; the tables
load, the exports clear, and SLED_ID is taken while no request is outstanding. -/
def Obligations.SniloCommandsComplete : Prop :=
  (∀ (port src a n : Nat) (u v s : State), s.variant = .x → s.fget (hdr_STATE 0x30) port = 2 → s.portUp port = true → n ≠ 0 → a % 4096 + n ≤ 4096 →
    s.rxCorrupt port = false → u = s.frame port 64 src 0 false → v = u.wake.serve 5 0 3 →
    exec (.sniloReadReq port src a n true) s = .next (u.fbump snilo_REQ_DROPPED port 1) ∧
    (∀ bs : List Byte, v.t3Serve src a n = .ok bs → exec (.sniloReadReq port src a n false) s =
      .next ((((v.t3Served a n).count 0x30 port 2 1).countUnits 0x30 port 3 bs.length 4096).frame port 64 src bs.length true)) ∧
    (∀ reason : Nat, v.t3Serve src a n = .error reason → exec (.sniloReadReq port src a n false) s = .next (v.frame port 64 src 0 true))) ∧
  (∀ (port src tag : Nat) (data : List Byte) (r : SReq) (s : State), s.variant = .x → s.portUp port = true → s.rxCorrupt port = false →
    s.match? (tagOf tag) = some r → data.length = r.len → exec (.sniloReadRsp tag data port src) s =
      .next (((((s.endReq r).count 0x30 r.port 1 1).setPiece r.ch r.piece data).noteRtt r.port ((s.tick - r.first) * 1024 / 1000)).frame port
        (s.chCtx r.ch) src data.length false)) ∧
  (∀ (port src tag reason : Nat) (r : SReq) (s : State), s.variant = .x → s.portUp port = true → s.rxCorrupt port = false →
    s.match? (tagOf tag) = some r → ∃ u : State,
    u = ((((s.frame port (s.chCtx r.ch) src 0 false).fbump snilo_NAKS_RECEIVED r.port 1).fset snilo_LAST_NAK_SLED r.port r.sled).fset
      snilo_LAST_NAK_REASON r.port reason).err 0x30 r.port [9] r.sled ∧
    (1 ≤ reason → reason ≤ 4 →
      exec (.sniloNak tag reason port src) s = .next ((u.endReq r).t3Halt r.ch r.addr 0x5E (reason + 65536 * r.sled))) ∧
    (reason = 5 → exec (.sniloNak tag reason port src) s = .next u)) ∧
  (∀ (ch port credit via : Nat) (r : SReq) (s : State), s.reqAt ch port credit = some r → r.last + r.wait ≤ s.tick → via < 2 → s.portUp via = true →
    s.time.paused.contains via = false → ∃ t, exec (.sniloRetransmit ch port credit via) s = .next t ∧
    t.snilo.reqs = s.snilo.reqs.map fun x => if x = r then { r with last := s.tick, wait := min (2 * r.wait) (ticksUs 3200) } else x) ∧
  (∀ (ch port credit : Nat) (r : SReq) (s : State), s.reqAt ch port credit = some r → r.first + ticksMs (s.fget snilo_REMOTE_TIMEOUT_MS 0) ≤ s.tick →
    exec (.sniloRemoteTimeout ch port credit) s = .next (((s.endReq r).err 0x30 r.port [8] r.sled).t3Halt r.ch r.addr 0x0D r.sled)) ∧
  (∀ (ch : Nat) (s : State), s.runsT3 ch = false →
    exec (.sniloCreditsEnd ch) s = .next ((s.snilo.reqs.filter fun r => r.ch == ch).foldl (fun (t : State) (r : SReq) => t.endReq r) s)) ∧
  (∀ (f n : Nat) (s : State), s.variant = .x → s.planesOn = true → f = s.fget snilo_FIRST_ENTRY 0 → n = s.fget snilo_ENTRY_COUNT 0 → n ≠ 0 →
    s.fget64 snilo_SRC_ADDR_LO snilo_SRC_ADDR_HI 0 % 64 = 0 →
    (f + n ≤ 32768 → (s.loadEntries n 64).all peerOk = true → ∃ t, exec .loadPeers s = .next t ∧
      t.snilo.peers = putEntries f (s.loadEntries n 64) s.snilo.peers ∧ t.fget snilo_RESULT 0 = 0 ∧ t.fget snilo_DONE 0 = 1) ∧
    (f + n ≤ 256 → (s.loadEntries n 32).all windowOk = true → windowsOverlap (putEntries f (s.loadEntries n 32) s.snilo.exports) = false →
      ∃ t, exec .loadExports s = .next t ∧ t.snilo.exports = putEntries f (s.loadEntries n 32) s.snilo.exports ∧
        t.fget snilo_RESULT 0 = 0 ∧ t.fget snilo_DONE 0 = 1)) ∧
  (∀ s : State, s.variant = .x → s.planesOn = true → ∃ t, exec .clearExports s = .next t ∧ t.snilo.exports = [] ∧
    t.fget snilo_EXPORTS_VALID 0 = 0 ∧ t.fget snilo_RESULT 0 = 0 ∧ t.fget snilo_DONE 0 = 1) ∧
  (∀ (v : Nat) (s : State), s.variant = .x → s.planesOn = true → s.snilo.reqs = [] →
    exec (.sledIdWrite v) s = .next ((s.fset snilo_SLED_ID 0 v).refreshReady))

/-- The descriptors of the Colanders complete. FILTER LOAD with a valid image fills the context's slot on every Colander of the reach and is issued; COUNT, BITMAP, GATHER
and SCAN, with a request that passes every check of Table 13-11, ports free and room in OUT_LADLE, take their place at the end of the channel's queue and are in flight; LOAD_TABLES
fills the table slots and is issued; a LOAD in flight with nothing before it completes; an output whose job meets no fault and no injection is accepted and leaves its channel; a run
fault sets its error bit and faults the context. -/
def Obligations.ColanderDescriptorsComplete : Prop :=
  (∀ (c h a : Nat) (d : Desc) (s : State), s.nextDesc c h 0x20 = .go d → bits d.w 12 2 = 0 → filterBodyOk d.w = true →
    s.tableSource d (flSel d.w) (flOff d.w) 2048 = some a → filterOk (s.sbRead h a 2048) = true → s.sanitizing = false →
    s.portBound h false (if flSel d.w = 0 then [] else groupsOfHull a (a + 2047)) = false → ∃ u : State,
    u.near.fslots = (s.reach h).foldl (fun m k => sput m (fslotKey k c (flSlot d.w)) (s.sbRead h a 2048)) s.near.fslots ∧
    u = { s with near := u.near } ∧ u.near.tslots = s.near.tslots ∧ u.near.collections = s.near.collections ∧
    exec (.filterLoad c h) s =
      .next ((u.bind d false (if flSel d.w = 0 then [] else groupsOfHull a (a + 2047))).issue d)) ∧
  (∀ (c h a mode : Nat) (d : Desc) (r k : List Byte) (j : Job) (p : Span) (s : State), s.nextDesc c h 0x20 = .go d → bits d.w 12 2 = mode →
    filterBodyOk d.w = true → s.tableSource d (flSel d.w) (flOff d.w) 64 = some a → r = s.sbRead h a 64 → filterReqOk mode r = true →
    s.nearCheck d r (flOut d.w) false (decide (mode = 3)) (some (flSlot d.w)) []
      (fun q => filterLen mode (s.reach h).length (colWidth q (rqCol r)) r) = none →
    s.collection c d.x (rqColl r) = some k → j = { prog := (s.slotProg h c (flSlot d.w)).getD [], tables := [], epoch := d.t.epochOf (clDomain k) } →
    p = rqSpan (d.t.regs h).base r (filterLen mode (s.reach h).length (colWidth k (rqCol r)) r) →
    s.portBound h true p.groups = false → (s.chan (64 * h + flOut d.w)).queue.length < 8 → s.fget (hdr_DRAIN 0x12) (64 * h + flOut d.w) ≠ 1 →
    ∃ (q : Channel) (u : State), q = { s.chan (64 * h + flOut d.w) with queue := (s.chan (64 * h + flOut d.w)).queue ++ [d.outMove r j] } ∧
    u = (((((s.bind d true p.groups).setChan (64 * h + flOut d.w) q).noteColl c (rqColl r)).issue d (rqKind r)).noteSpan d p) ∧
    (mode = 1 → exec (.filterCount c h) s = .next u) ∧ (mode = 2 → exec (.filterBitmap c h) s = .next u) ∧
    (mode = 3 → exec (.filterGather c h) s = .next u)) ∧
  (∀ (c h a n : Nat) (gs : List Nat) (d : Desc) (u s : State), s.nextDesc c h 0x21 = .go d → bits d.w 12 2 = 0 → scanBodyOk d.w = true →
    n = tableLen (skM d.w) (skCode4 d.w) → s.tableSource d (skSel d.w) (skOff d.w) (skQ d.w * n) = some a →
    gs = (if skSel d.w = 0 then [] else groupsOfHull a (a + skQ d.w * n - 1)) → s.fget (hdr_OWNER_CONTEXT 0x17) h = c →
    s.outGone 0x17 h = none → s.sanitizing = false → s.portBound h false gs = false →
    u = { s with near := { s.near with tslots := ((s.reach h).flatMap fun k => (List.range (skQ d.w)).map fun q => (k, q)).foldl (fun m kq =>
      sput m (64 * kq.1 + skSlot d.w + kq.2) (skM d.w, if skCode4 d.w then 4 else 8, s.sbRead h (a + kq.2 * n) n)) s.near.tslots } } →
    exec (.skimScanLoadTables c h) s = .next ((u.bind d false gs).issue d)) ∧
  (∀ (c h a : Nat) (d : Desc) (r k : List Byte) (j : Job) (p : Span) (s : State), s.nextDesc c h 0x21 = .go d → bits d.w 12 2 = 1 →
    scanBodyOk d.w = true → s.tableSource d (skSel d.w) (skOff d.w) 64 = some a → r = s.sbRead h a 64 → scanReqOk r = true →
    s.nearCheck d r (skOut d.w) true false (if rqFilter r then some (rqSlot r) else none) (s.slotTables h (skSlot d.w) (skQ d.w))
      (fun _ => skQ d.w * (s.reach h).length * listBytes (rqK r)) = none →
    s.collection c d.x (rqColl r) = some k →
    j = { prog := if rqFilter r then (s.slotProg h c (rqSlot r)).getD [] else [],
          tables := (s.slotTables h (skSlot d.w) (skQ d.w)).filterMap id,
          epoch := d.t.epochOf (clDomain k) } →
    p = rqSpan (d.t.regs h).base r (skQ d.w * (s.reach h).length * listBytes (rqK r)) → s.portBound h true p.groups = false →
    (s.chan (64 * h + skOut d.w)).queue.length < 8 → s.fget (hdr_DRAIN 0x12) (64 * h + skOut d.w) ≠ 1 → ∃ q : Channel,
    q = { s.chan (64 * h + skOut d.w) with queue := (s.chan (64 * h + skOut d.w)).queue ++ [d.outMove r j] } ∧
    exec (.skimScanScan c h) s =
      .next (((((s.bind d true p.groups).setChan (64 * h + skOut d.w) q).noteColl c (rqColl r)).issue d (rqKind r)).noteSpan d p)) ∧
  (∀ (c h i : Nat) (e : Issued) (s : State), s.issueOf c h i = some e → e.cls = 0x20 ∨ e.cls = 0x21 → bits e.word 12 2 = 0 →
    (s.earlier c h e.ser [0x20, 0x21]).all (fun k => s.runsJob c k.ser) = true →
    exec (.colanderDescriptorComplete c h i) s = .next (s.descDone c e.ser)) ∧
  (∀ (c h i ch : Nat) (e : Issued) (m : Move) (x : Ctx) (j : Job) (k : Collection) (s : State), s.issueOf c h i = some e →
    e.cls = 0x20 ∨ e.cls = 0x21 → bits e.word 12 2 ≠ 0 → ch = 64 * h + (if e.cls = 0x20 then flOut e.word else skOut e.word) →
    (s.chan ch).run = some m → s.ctx? c = some x → m.job = some j → sget? s.near.collections (65536 * x.req.fn + rqColl m.record) = some k →
    m.ctx = c → m.ser = e.ser → s.ungranted c e.ser = false → s.jobFault m j = none → s.fget (hdr_STATE 0x12) ch = 2 →
    s.colanderArmed (((s.reachRecords h k.bytes (rqFirst m.record) (rqCount m.record)).map (s.recColander k.bytes)).eraseDups) (e.cls == 0x21) =
      none → exec (.colanderDescriptorComplete c h i) s = .next ((s.endOutput c h e m j k.bytes).endMove ch m)) ∧
  (∀ (c h i kind col info code : Nat) (e : Issued) (x : Ctx) (s : State), s.issueOf c h i = some e → s.ctx? c = some x →
    e.cls = 0x20 ∨ e.cls = 0x21 → colanderFitted s.variant col = true → 1 ≤ kind → kind ≤ 6 →
    code = (if kind = 1 then 0x0C else if kind = 2 then 0x56 else if kind = 5 then 0x21 else 0x57) →
    exec (.colanderRunFault c h i kind col info) s = .next ((s.colanderHit kind col info c).faultCtx c
      { code := code, index := i, case := 0, hob := h, ucls := 0x21, uinst := col, info := info }))

/-- The descriptors of 14_vector_search.md complete. A SKIM_MERGE of each mode whose record passes every check of Table 14-7, with its ports free and room in OUT_LADLE, takes its
place at the end of the channel's queue and is in flight; one whose operands and records show no fault, with no injection armed, is accepted and leaves the channel; a residue error that
its unit detects is MERGE_CHECK; an EPOCH_ADVANCE that passes the checks of R387 is noted for the end of the task. -/
def Obligations.VectorSearchDescriptorsComplete : Prop :=
  (∀ (c h a mode : Nat) (d : Desc) (r k : List Byte) (ps : List Span) (j : Job) (s : State), s.nextDesc c h 0x22 = .go d → smMode d.w = mode →
    s.tableSource d (smSel d.w) (smOff d.w) 128 = some a → r = s.sbRead h a 128 → s.mergeCheck d r = none →
    k = (s.collection c d.x (mqColl r)).getD [] → ps = smSpans d.w (d.t.regs h).base r k →
    j = { prog := if mode = 4 ∧ mqFilter r then (s.slotProg h c (mqFslot r)).getD [] else [],
          tables := if mode = 2 then (s.slotTables h (mqTslot r) (smQ d.w)).filterMap id else [],
          epoch := d.t.epochOf (clDomain k) } →
    s.portBound h false ((ps.filter fun p => !p.write).flatMap Span.groups) = false →
    s.portBound h true ((ps.filter Span.write).flatMap Span.groups) = false →
    (s.chan (64 * h + smOut d.w)).queue.length < 8 → s.fget (hdr_DRAIN 0x12) (64 * h + smOut d.w) ≠ 1 → s.fget (hdr_DRAIN 0x17) h ≠ 1 →
    ∃ (q : Channel) (u v : State), q = { s.chan (64 * h + smOut d.w) with queue := (s.chan (64 * h + smOut d.w)).queue ++ [d.outMove r j] } ∧
    u = (((s.bind d false ((ps.filter fun p => !p.write).flatMap Span.groups)).bind d true ((ps.filter Span.write).flatMap Span.groups)).setChan
      (64 * h + smOut d.w) q).noteColl c (mqColl r) ∧
    v = (ps.filter Span.write).foldl (fun (t : State) (p : Span) => t.noteSpan d p) (u.issue d (mqDstKind r)) ∧
    (mode = 0 → exec (.skimMergeTables c h) s = .next v) ∧ (mode = 1 → exec (.skimMergeMerge c h) s = .next v) ∧
    (mode = 2 → exec (.skimMergeExpand c h) s = .next v) ∧ (mode = 3 → exec (.skimMergeRerank c h) s = .next v) ∧
    (mode = 4 → exec (.skimMergeRescan c h) s = .next v) ∧ (mode = 5 → exec (.skimMergeFetch c h) s = .next v)) ∧
  (∀ (c h i : Nat) (e : Issued) (m : Move) (x : Ctx) (j : Job) (k : Collection) (s : State), s.issueOf c h i = some e → e.cls = 0x22 →
    (s.chan (64 * h + smOut e.word)).run = some m → s.ctx? c = some x → m.job = some j →
    sget? s.near.collections (65536 * x.req.fn + mqColl m.record) = some k → m.ctx = c → m.ser = e.ser → s.ungranted c e.ser = false →
    s.fget (hdr_STATE 0x12) (64 * h + smOut e.word) = 2 → s.fget (hdr_STATE 0x17) h = 2 → s.injectLeft 0x17 h 1 = 0 →
    s.injectLeft 0x17 h 3 = 0 → s.injectLeft 0x17 h 8 = 0 →
    (∀ o : MOut, s.listFault m = none → s.mergeOut m j k.bytes = some o → s.mergeReadFault c h x m j k.bytes o = none →
      exec (.skimMergeComplete c h i 0) s = .next ((s.endMerge c h m j k.bytes o).endMove (64 * h + smOut e.word) m)) ∧
    exec (.skimMergeComplete c h i 1) s = .next ((s.err 0x17 h [8] 0 c).faultCtx c
      { code := 0x5D, index := i, hob := h, ucls := 0x17, uinst := h })) ∧
  (∀ (c h : Nat) (d : Desc) (k : List Byte) (s : State), s.nextDesc c h 0x23 = .go d → s.collection c d.x (eaColl d.w) = some k → bits d.w 98 6 = 0 →
    eaNeigh d.w = 0xFF → bit d.w 29 = false → eaVisible d.w ≤ clRecords k → s.sanitizing = false → s.fget glob_MEDIA_MODE 0 ≠ 1 →
    (s.ftl.domains.filter fun p => p.2.live).length < 4096 →
    exec (.epochAdvance c h) s = .next ((s.pass d fun t => { t with advances := t.advances ++ [(d.i, d.w)] }).noteColl c (eaColl d.w)))

/-- The commands of 10_memory_tiers.md complete, with the planes up. A corrected HBM error sets CORRECTED and counts for its row; an uncorrectable one of an SLM command marks the row and fails the
command; a marked row that its user has freed is repaired, or its page retired; a pseudo-channel classified for retirement is retired and its stack's copies dropped; the heat halves at each decay
period; a placement period of 100 ms ends, and a copy that is complete counts as a promotion; a replayed batch step sets READY and changes nothing else, and a step whose number follows and whose
request is in order writes its number. -/
def Obligations.TierAndBatchCommandsComplete : Prop :=
  (∀ (k a user n : Nat) (parity : Bool) (cmd : CmdId) (s : State), k < 8 → a < stackBytes → s.planesOn = true →
    s.injectLeft 0x16 k 2 = 0 → s.armed 0x16 k [3, 8] = none → exec (.hbmReadError k a 0 parity user n cmd) s =
      .next ((s.err 0x16 k [2] (hbmInfo a)).rowCorrected (24576 * k + a / tierBytes)) ∧
    (s.takes cmd = true → exec (.hbmReadError k a 2 false 2 n cmd) s =
      .next ((((s.err 0x16 k [3] (hbmInfo a)).countHbm k a false).markRow (24576 * k + a / tierBytes)).complete (plainId cmd) 2 0x81))) ∧
  (∀ (t : Nat) (s : State), s.tiers.marked.contains t = true → s.pageFree t = true → 64 ≤ t % 24576 →
    (s.fget hbm_PPR_USED (t / 24576) < s.fget hbm_PPR_TOTAL (t / 24576) → s.fget hbm_PPR_USED (t / 24576) < 255 → ∃ u,
      exec (.hbmRowRepair t true) s = .next u ∧ u.tiers.marked = s.tiers.marked.filter (· ≠ t) ∧ u.tiers.retired = s.tiers.retired ∧
      u.fget hbm_PPR_USED (t / 24576) = s.fget hbm_PPR_USED (t / 24576) + 1) ∧
    ∃ u, exec (.hbmRowRepair t false) s = .next u ∧ u.tiers.marked = s.tiers.marked.filter (· ≠ t) ∧ u.tiers.retired = t :: s.tiers.retired) ∧
  (∀ (k p : Nat) (s : State), k < 8 → p < 64 → s.planesOn = true → s.pcRetired k p = false → s.units.retiring.contains (pcKey k p) = true → ∃ u : State,
    u = (if p < 32 then s.fsetBit hbm_PC_RETIRED_LO k p else s.fsetBit hbm_PC_RETIRED_HI k (p - 32)) ∧
    exec (.hbmPseudoChannelRetire k p false) s = .next (((u.recordRetirement 0x16 k p).smartAdd 16 1).dropCopies fun tk =>
      match sget? u.tiers.copies tk with
      | some c => c.t1 / 24576 == k
      | none => false)) ∧
  (∀ s : State, s.planesOn = true → s.tiers.decayTick + ticksMs (max 1 (s.fget glob_HEAT_DECAY_MS 0)) ≤ s.tick → exec .heatDecay s = .next { s with tiers := { s.tiers with
    heat1 := halve s.tiers.heat1, heat2 := halve s.tiers.heat2, decayTick := s.tick } }) ∧
  (∀ s : State, s.planesOn = true → s.tiers.placeTick + ticksMs 100 ≤ s.tick → ∃ t, exec .placementPeriod s = .next t ∧ t.tiers.placeTick = s.tick ∧
    t.tiers.period = s.tiers.period + 1 ∧ t.regs = s.regs) ∧
  (∀ (tk : Nat) (c : PlacedCopy) (s : State), sget? s.tiers.copies tk = some c → c.done = false → s.placing = true → ∃ t,
    exec (.placementCopyComplete tk) s = .next t ∧ t.tiers.copies = sput s.tiers.copies tk { c with done := true } ∧
    t.fget64 glob_PROMOTIONS_LO glob_PROMOTIONS_HI 0 = (s.fget64 glob_PROMOTIONS_LO glob_PROMOTIONS_HI 0 + 1) % 2 ^ 64) ∧
  (∀ (c : Nat) (x : Ctx) (b : Batch) (m : Mem) (s : State), s.ctx? c = some x → sget? s.tiers.batches c = some b → b.begun = some m →
    (reqFld m (t1Addr b.reqPage) 8 = b.step → exec (.batchStep c) s = .next (({ s with tiers := { s.tiers with
      batches := sput s.tiers.batches c { b with begun := none } } } : State).tableReady b true)) ∧
    (reqFld m (t1Addr b.reqPage) 8 = b.step + 1 → requestOk b m (t1Addr b.reqPage) = true → ∃ t b1, exec (.batchStep c) s = .next t ∧
      sget? t.tiers.batches c = some b1 ∧ b1.step = b.step + 1 ∧ b1.begun = none ∧ (t.mark b.slotPage).ready = true))

/-- The commands of the PUUs complete. A PUU_STEP whose table passes the checks of Table 12-7, with its SB ports free, on a PUU that is ON and held by the context, is queued and writes its frozen
marks; a running step that meets no data fault, with no injection armed, writes its tensors, sets RESULT to the tensors updated and skipped, and leaves its unit; a residue mismatch faults the
context and begins a self-test; a self-test begins in test mode on an unowned unit, and a passed one returns a FAULTED unit that is not to be retired to ON. -/
def Obligations.PuuCommandsComplete : Prop :=
  (∀ (c h a : Nat) (d : Desc) (s : State), s.nextDesc c h 0x28 = .go d → bits d.w 36 68 = 0 → puTensors d.w ≠ 0 → puTensors d.w ≤ 64 →
    s.tableSource d (puTabSel d.w) (puTabOff d.w) (64 * (puTensors d.w + 1)) = some a → a % 64 = 0 → s.variant = .x → s.fget (hdr_STATE 0x18) h = 2 →
    d.x.req.unit h 5 = true → s.tensorCheck d (s.sbRead h a (64 * (puTensors d.w + 1))) = none →
    s.portBound h false (s.puuGroups (s.sbRead h a (64 * (puTensors d.w + 1)))) = false → s.fget (hdr_DRAIN 0x18) h ≠ 1 → ∃ t, exec (.puuStep c h) s = .next t ∧
    (∃ k : PuuStep, k.ctx = c ∧ k.index = d.i ∧ k.ser = d.t.ser ∧ k.table = s.sbRead h a (64 * (puTensors d.w + 1)) ∧
      k.layer = (s.grainForced || d.x.resumed) ∧ t.puuSteps h = s.puuSteps h ++ [k]) ∧ t.tiers.frozen = (s.markFrozen (s.sbRead h a (64 * (puTensors d.w + 1)))).tiers.frozen) ∧
  (∀ (h : Nat) (k : PuuStep) (ks : List PuuStep) (t : Task) (s : State), s.puuSteps h = k :: ks → (s.ctx? k.ctx).bind Ctx.task = some t →
    s.fget (hdr_STATE 0x18) h = 2 → s.ungranted k.ctx k.ser = false → s.injectLeft 0x18 h 1 = 0 → s.stepFault h k = none →
    s.stepRoom k.table = true → (s.stepReads k.table).any s.iuFails = false → s.stepStopped h k t = none →
    exec (.puuStepComplete h) s = .next (((s.runStep h k t).endStep h).descDone k.ctx k.ser)) ∧
  (∀ (h e pos info : Nat) (inB : Bool) (k : PuuStep) (ks : List PuuStep) (t : Task) (s : State), s.puuSteps h = k :: ks →
    (s.ctx? k.ctx).bind Ctx.task = some t → e < tabCount k.table → teFrozen (tabEntry k.table e) = false →
    info = e % 64 + 64 * b2n inB + 256 * (pos % 2 ^ 24) → ∃ u v : State,
    u = (if inB ∨ ¬ k.layer then s.updateTensors h k (t.regs h) ((tabEntries k.table).zipIdx.filter fun x => !teFrozen x.1 && x.2 < e) else s) ∧
    v = (((u.fset puu_TENSOR h e).fset puu_RECORD h pos).fset puu_PASS h (b2n inB)).err 0x18 h [9] info k.ctx ∧
    exec (.puuStepFault h 3 e inB pos) s = .next ((v.faultCtx k.ctx
      { code := 0x50, index := k.index, hob := h, ucls := 0x18, uinst := h, info := info }).beginSelfTest h)) ∧
  (∀ (h : Nat) (s : State), s.hostUp = true → Sys2Proof.Machine.present s.variant 0x18 h = true → s.fget glob_TEST_MODE 0 = 1 → s.fget (hdr_OWNER_CONTEXT 0x18) h = 0xFF →
    s.fget puu_SELF_TEST_BUSY h = 0 → ∃ t, exec (.puuSelfTestGo h) s = .next t ∧ t.fget puu_SELF_TEST_BUSY h = 1 ∧
    t.fget puu_SELF_TEST_DONE h = 0 ∧ t.fget puu_SELF_TEST_PASS h = 0) ∧
  (∀ (h us : Nat) (s : State), Sys2Proof.Machine.present s.variant 0x18 h = true → s.fget puu_SELF_TEST_BUSY h ≠ 0 → s.fget (hdr_STATE 0x18) h = 4 →
    s.units.retiring.contains (pageNo 0x18 h) = false → ∃ t, exec (.puuSelfTestDone h us true) s = .next t ∧ t.fget (hdr_STATE 0x18) h = 2 ∧
    t.fget puu_SELF_TEST_BUSY h = 0 ∧ t.fget puu_SELF_TEST_PASS h = 1)

/-- The commands of the flash path complete on a fitted package and a die in service. A program of the next wordline of the USER stream, accepted by the tracker, takes the staged
IUs that wait, and is an operation of its die until the die reports; a failed one closes its block; a staged IU whose wordline and stripe have programmed is committed; an erase of an unused block begins, and ends with
it ERASED or, where it fails, BAD; a read of a programmed page that the die can take and that decodes at step 0 counts, and one of an erased page says so; a key slot of 64 to 71 is loaded; a suspended operation goes on; a first timeout is cured and a
second within 1 s condemns the die; a calibration and a temperature term are noted. -/
def Obligations.FlashCommandsComplete : Prop :=
  (∀ (c np b pos l : Nat) (ls : List Nat) (s0 s : State), colanderFitted s.variant c = true → np ≠ 0 → np ≤ 6 → s.toProgram c ≠ [] →
    s.packageRetired c = false → s.ftl.ready = true → s.openNext c 0 true = some ((b, pos), s0) →
    s0.wordlines c b pos (min np (ceilDiv (s.toProgram c).length 3)) = l :: ls →
    s0.keysHere c ((s.toProgram c).take (3 * (l :: ls).length)) = true → s0.dieRefuses c (locDie l) = none → s0.dieOp c (locDie l) = none →
    s0.injectLeft 0x22 0 3 = 0 → (∀ m ∈ l :: ls, (s0.block (m / 2048)).st < 2 ∧ (s0.block (m / 2048)).next = locPage m) → ∃ u : State,
    u = (s0.programWls (l :: ls) (s.toProgram c)).setPos c 0 b (pos + 3 * (l :: ls).length) ∧
    exec (.flashProgram c np true) s = .next u ∧
    exec (.flashProgram c np false) s = .next (u.setDieOp c (locDie l) (some (s.newOp 1 ((l :: ls).map (· / 2048)))))) ∧
  (∀ (c d k b key l : Nat) (mine : Nat → Bool) (s : State), colanderFitted s.variant c = true → d < 16 → k < 6 → b < 2208 → key = blockKey c d k b →
    (s.block key).st ≠ 0 → (s.block key).st ≠ 4 → 3 ≤ (s.block key).next → s.ftl.failed.contains key = false →
    l = key * 2048 + ((s.block key).next - 3) → (∀ m, mine m = (decide (l ≤ m) && decide (m < l + 3))) → (∃ y ∈ s.ftl.staging, y.loc.any mine = true) →
    exec (.flashProgramFail c d k b) s = .next (s.failProgram c d key l mine)) ∧
  (∀ (seq l : Nat) (x : Staged) (s : State), s.stagedSeq seq = some x → x.loc = some l → s.stripeDone l = true → s.dieOp (locCol l) (locDie l) = none →
    exec (.stagingSlotCommit seq) s = .next (((s.setDieOp (locCol l) (locDie l) none).commitStaged x l).settleBad)) ∧
  (∀ (c d b k key : Nat) (s : State), colanderFitted s.variant c = true → d < 16 → b < 2208 → k < 6 → key = blockKey c d k b →
    (∀ m ∈ s.validLocs, m / 2048 ≠ key) → s.isOpen c b = false → s.dieRefuses c d = none → (s.block key).st ≠ 4 → s.power.brownOut = false →
    (s.dieOp c d = none → exec (.flashErase c d b [k] 0 []) s = .next (s.setDieOp c d (some (s.newOp 2 [key])))) ∧
    (∀ o : DieOp, s.dieOp c d = some o → o.kind = 2 → o.blocks = [key] → o.suspendedAt = none →
      exec (.flashErase c d b [k] 1 []) s = .next (((s.setDieOp c d none).eraseBlock key).countErase c b) ∧
      exec (.flashErase c d b [k] 1 [locPlane (key * 2048)]) s =
        .next ((((s.setDieOp c d none).flashStatus (key * 2048) 0x12).markBad key).countErase c b))) ∧
  (∀ (c d k b p member l : Nat) (own : Bool) (s0 s : State), colanderFitted s.variant c = true → d < 16 → k < 6 → b < 2208 → p < 1152 →
    s.fget (hdr_STATE 0x21) c = 2 → (s.dieRetired c d && s.nand.relocated.contains (16 * c + d)) = false → s.channelStep c d ≠ 3 →
    (s.block (blockKey c d k b)).st ≠ 4 → s.suspendFor c d = some s0 → l = mkLoc c d k b p → ∃ u : State, u = s0.countRead (blockKey c d k b) ∧
    (∀ x : Page, sget? s.nand.pages l = some x → s.keyMissing c x.iu = false → s.ladderStep l 0 = 0 →
      exec (.flashRead c d k b p 0 member own) s = .next ((if own then u.countOwn c else u).suspect l false)) ∧
    (sget? s.nand.pages l = none → s.readsErased l = true → exec (.flashRead c d k b p 0 member own) s = .next (u.flashStatus l 0x03))) ∧
  (∀ (c slot first n ns : Nat) (s : State), s.rangeOf slot = some (ns, first, n) → colanderFitted s.variant c = true → 64 ≤ slot → slot < 72 →
    s.fget (hdr_STATE 0x21) c = 2 → s.ftl.keysLoaded.contains (128 * c + slot) = false → s.lockedAt ns first false = false →
    exec (.flashKeyLoad c slot) s = .next { s with ftl := { s.ftl with keysLoaded := s.ftl.keysLoaded ++ [128 * c + slot] } }) ∧
  (∀ (c d t : Nat) (o : DieOp) (s : State), s.dieOp c d = some o → o.suspendedAt = some t → (o.kind = 2 → s.power.brownOut = false) →
    exec (.programEraseResume c d) s = .next (s.setDieOp c d (some { o with since := s.tick, suspendedAt := none }))) ∧
  (∀ (c d : Nat) (s : State), colanderFitted s.variant c = true → d < 16 → s.dieRetired c d = false → ∃ u : State,
    u = { s with nand := { s.nand with timeouts := sput s.nand.timeouts (16 * c + d) s.tick } } ∧
    (sget? s.nand.timeouts (16 * c + d) = none → exec (.dieTimeout c d) s = .next (u.err 0x21 c [2] (d / 2 * 256))) ∧
    (∀ t, sget? s.nand.timeouts (16 * c + d) = some t → s.tick < t + secTicks → exec (.dieTimeout c d) s =
      .next (((u.setDieOp c d none).flashStatus (mkLoc c d 0 0 0) 0x20).condemn c d))) ∧
  (∀ (c d : Nat) (s : State), colanderFitted s.variant c = true → d < 16 → s.dieRetired c d = false → s.channelDead c d = false → s.dieOp c d = none →
    (∀ (t : Nat) (x : Int), sget? s.nand.zq (16 * c + d) = some (t, x) → t + secTicks ≤ s.tick ∨ 160 < (s.nandTemp c - x).natAbs) →
    exec (.zqCalibration c d) s = .next { s with nand := { s.nand with zq := sput s.nand.zq (16 * c + d) (s.tick, s.nandTemp c) } }) ∧
  (∀ (c d : Nat) (term : Int) (s : State), colanderFitted s.variant c = true → d < 16 → (∀ t, sget? s.nand.tempTick (16 * c + d) = some t →
    t + secTicks ≤ s.tick) → exec (.thresholdTemperatureUpdate c d term) s = .next { s with nand := { s.nand with
      tempTerm := sput s.nand.tempTerm (16 * c + d) term, tempTick := sput s.nand.tempTick (16 * c + d) s.tick } })

/-- The commands of the translation layer complete with the FTL ready. The journal flushes when records wait and 64 MiB or 50 ms have passed, and when forced; a map segment is reloaded; collection starts
below 8 free superblocks and stops at 12; a copy of a moving IU that is not SUSPECT commits where its package has room; a SUSPECT IU that has to move is LOST where it does not decode, and moves where it does; a superblock that is due and holds no valid IU leaves the
refresh list; the next tier page of an evacuated package moves; the fourth retraining of a channel in an hour steps it down, and at step 3 it is retired; a condemned die is retired, and a failing package; a die and a
package with nothing left end their relocation. -/
def Obligations.TranslationAndRetirementCommandsComplete : Prop :=
  (∀ s : State, s.ftl.ready = true → s.ftl.records ≠ 0 →
    64 * mib ≤ s.ftl.sinceFlush ∨ s.fget64 ftl_FLUSH_TICK_LO ftl_FLUSH_TICK_HI 0 + ticksMs 50 ≤ s.tick → exec .journalFlush s = .next s.flush) ∧
  (∀ s : State, s.ftl.ready = true → exec .journalForcedFlush s = .next s.flush) ∧
  (∀ (seg : Nat) (s : State), s.ftl.ready = true → seg < mapSegments s.variant → exec (.mapEccReload seg) s = .next (s.err 0x22 0 [8] (64 * seg))) ∧
  (∀ (c : Nat) (s : State), colanderFitted s.variant c = true → s.collects = true → s.ftl.collecting.contains c = false → s.packageRetired c = false →
    (s.freeSbs c).length < 8 → exec (.gcStart c) s = .next { s with ftl := { s.ftl with collecting := s.ftl.collecting ++ [c] } }) ∧
  (∀ (c : Nat) (s : State), s.ftl.collecting.contains c = true → 12 ≤ (s.freeSbs c).length →
    exec (.gcStop c) s = .next { s with ftl := { s.ftl with collecting := s.ftl.collecting.filter (· ≠ c) } }) ∧
  (∀ (iu src : Nat) (p : Page) (u : State) (s : State), s.collects = true → s.moving src = true → ((s.mapEntry iu).st = 2 → (s.mapEntry iu).loc ≠ src) →
    sget? s.nand.pages src = some p → p.iu = iu → s.copyPage iu src (locCol src) = some u → exec (.gcCopyCommit iu src) s = .next u.settleBad) ∧
  (∀ (iu l : Nat) (s : State), s.collects = true → (s.mapEntry iu).st = 2 → (s.mapEntry iu).loc = l →
    s.moving l = true ∨ l / 2048 ∈ s.ftl.refresh ∨ locCol l ∈ s.ftl.evacuating →
    exec (.suspectIuRelocate iu false) s = .next ((s.setMap iu 3 0).err 0x22 0 [11] (locCol l + 64 * locBlock l)).settleBad ∧
    ∀ u : State, s.copyPage iu l (if s.packageRetired (locCol l) then s.packageOf (iuTier iu) else locCol l) = some u →
      exec (.suspectIuRelocate iu true) s = .next u.settleBad) ∧
  (∀ (c b : Nat) (s : State), colanderFitted s.variant c = true → s.collects = true → s.packageRetired c = false → s.refreshDue c b = true →
    s.isOpen c b = false → s.validIn c b = [] →
    exec (.retentionRefresh c b) s = .next ({ s with ftl := { s.ftl with
      refresh := s.ftl.refresh.filter fun k => !(locCol (k * 2048) == c && locBlock (k * 2048) == b) } } : State).settleBad) ∧
  (∀ (c dest tk : Nat) (tks : List Nat) (u : State) (s : State), colanderFitted s.variant c = true → s.ftl.ready = true → s.sanitizing = false →
    s.ftl.evacuating.contains c = true → s.leaving c = tk :: tks → s.takerOf tk = some dest → s.moveTier tk dest = some u →
    exec (.packageShed c) s = .next u) ∧
  (∀ (c ch : Nat) (ok : Bool) (s : State), colanderFitted s.variant c = true → ch < 8 → s.nand.dead.contains (8 * c + ch) = false →
    sget s.nand.rateStep (8 * c + ch) 0 < 3 →
    3 ≤ ((sget s.nand.retrains (8 * c + ch) []).filter fun t => decide (s.tick < t + hourTicks)).length → ∃ u : State,
    u = { s with nand := { s.nand with
      retrains := serase s.nand.retrains (8 * c + ch), rateStep := sput s.nand.rateStep (8 * c + ch) (sget s.nand.rateStep (8 * c + ch) 0 + 1) } } ∧
    (sget s.nand.rateStep (8 * c + ch) 0 < 2 → exec (.onfiChannelStepDown c ch ok) s =
      .next { u with eflash := { u.eflash with retirements := u.eflash.retirements ++ [(0x21, c, 16 + ch)] } }) ∧
    (sget s.nand.rateStep (8 * c + ch) 0 = 2 → exec (.onfiChannelStepDown c ch ok) s =
      .next ((u.fsetBit col_CH_RETIRED c ch).recordRetirement 0x21 c (16 + ch)))) ∧
  (∀ (c d : Nat) (s : State), s.nand.condemned.contains (16 * c + d) = true → d < 16 → s.dieRetired c d = false → colanderFitted s.variant c = true →
    exec (.dieRetire c d) s = .next (((((s.fsetBit col_DIE_RETIRED c d).recordRetirement 0x21 c d).unplace (s.lostWith c d)).closeAll c).refreshMargin)) ∧
  (∀ (c d : Nat) (s : State), s.dieRetired c d = true → s.nand.relocated.contains (16 * c + d) = false →
    (∀ m ∈ s.validLocs, locCol m = c → locDie m ≠ d) →
    exec (.dieRelocationComplete c d) s = .next { s with nand := { s.nand with relocated := s.nand.relocated ++ [16 * c + d] } }) ∧
  (∀ (c : Nat) (s : State), colanderFitted s.variant c = true → s.packageRetired c = false → s.packageFails c = true → ∃ u : State,
    u = s.dropPackage c ∧ exec (.packageRetire c) s = .next (if 3 < (u.packages.filter u.packageRetired).length then u.enterReadOnly 2 else u)) ∧
  (∀ (c : Nat) (s : State), s.ftl.evacuating.contains c = true → s.leaving c = [] →
    (∀ l ∈ s.validLocs, locCol l = c → c ∈ s.ftl.unreach ∨ ∀ p, sget? s.nand.pages l = some p → (s.mapEntry p.iu).st = 2) → ∃ u : State,
    u = { s with ftl := { s.ftl with evacuating := s.ftl.evacuating.filter (· ≠ c) } } ∧
    exec (.packageEvacuationComplete c) s = .next ((u.toRetired 0x21 c).refreshMargin).flush)

/-- The events of 17_reliability_and_spares.md complete. A replayed unit of an active lane is counted; a cured loss of lock leaves the lane active; a permanent lane gives way to the idle spare, and without
one the link degrades or is lost, and its package is to be retired; a FAULTED Colander that passes its self-check with no other such event in 24 hours starts again; the Hob-to-Hob link faults once, and a lane repair counts; a unit classified, unowned and
drained is RETIRED, with its own operation for a Griddle and for a macro-group of a Shared Buffer. -/
def Obligations.LinkAndRetirementEventsComplete : Prop :=
  (∀ (k lane tries : Nat) (two : Bool) (s : State), s.laneThere k lane = true → (s.link k).lanes.getD lane 2 = 0 → tries ≤ 16 → ∃ u : State,
    u = (s.setLink k { s.link k with replays := satAdd (s.link k).replays 1 0xFFFFFFFF }).count 0x20 (k / 32) 2 1 ∧
    exec (.pantryLaneReplay k lane tries two) s = .next (u.err 0x20 (k / 32) [if two then 3 else 2] (hubInfo k lane))) ∧
  (∀ (k lane us : Nat) (s : State), s.laneThere k lane = true → (s.link k).lanes.getD lane 2 = 0 → ∃ u : State,
    u = s.retrained k us { s.link k with
      lanes := setAt (s.link k).lanes lane 3
      failed := setAt (s.link k).failed lane ((s.link k).failed.getD lane 0 + 1) } ∧
    exec (.pantryLaneLossOfLock k lane us false) s = .next (u.showRetraining k)) ∧
  (∀ (k lane us sp : Nat) (s : State), s.laneThere k lane = true → (s.link k).idle = some sp → (s.link k).lanes.getD lane 2 ≠ 2 → lane ≠ sp →
    s.lanePermanent k lane = true → exec (.pantryLaneSpare k lane us) s = .next ((s.retireLane k lane us (some sp)).showSpareLane k lane sp)) ∧
  (∀ (k lane us : Nat) (s : State), s.laneThere k lane = true → (s.link k).lanes.getD lane 2 = 0 → (s.link k).idle = none →
    s.lanePermanent k lane = true → ∃ u : State, u = (s.retireLane k lane us none).classify (pageNo 0x21 k) ∧
    exec (.pantryLinkDegrade k lane us) s = .next (if (setAt (s.link k).lanes lane 2).any (fun x => x == 0 || x == 3)
      then (u.fsetBit hub_DEGRADED (k / 32) (k % 32)).err 0x20 (k / 32) [5, 9] (hubInfo k lane)
      else (u.err 0x20 (k / 32) [5] (hubInfo k lane)).packageLost k)) ∧
  (∀ (k : Nat) (read : Bool) (s : State), colanderFitted s.variant k = true → s.fget (hdr_STATE 0x21) k = 4 → s.ftl.unreach.contains k = false →
    s.injectLeft 0x21 k 3 = 0 → s.fget (hdr_FIRST_INJECTED 0x21) k = 0 →
    (∀ b < 2, ∀ x ∈ sget (s.dropColander k).rel.events (65536 * 11 + (2 * k + b)) [], x + dayTicks ≤ (s.dropColander k).tick) →
    exec (.colanderSelfCheck k false read true true) s =
      .next (((s.dropColander k).countEvent 11 (2 * k + b2n read) dayTicks).2.restartColander k)) ∧
  (∀ s : State, s.rel.hobFault = false → ∃ u : State, u = { s with rel := { s.rel with hobFault := true } } ∧
    exec (.hobLinkFault []) s = .next (((u.recordRetirement 0x10 0 0).recordRetirement 0x10 1 0).smartAdd 16 1)) ∧
  (∀ (h : Nat) (s : State), h < 2 → s.rel.hobFault = false → exec (.hobLinkLaneRepair h) s = .next (s.err 0x10 h [2])) ∧
  (∀ (i g : Nat) (s : State), s.units.retiring.contains i = true → i < 34 → (∀ r < 4, s.regionOwner i r = 0xFF) → s.fget (hdr_STATE 0x11) i ≠ 5 →
    exec (.unitRetirement 0x11 i g) s = .next (s.retireGriddle i)) ∧
  (∀ (i g : Nat) (s : State), i < 2 → g < 48 → s.units.retiring.contains (groupKey i g) = true → s.fget (sb_GROUP_OWNER g) i = 0xFF →
    s.groupProgram i g = false → exec (.unitRetirement 0x15 i g) s = .next (({ s with units := { s.units with
      retiring := s.units.retiring.filter (· ≠ groupKey i g) } } : State).sbRetire i g)) ∧
  (∀ (c i g : Nat) (s : State), s.units.retiring.contains (pageNo c i) = true → c ≠ 0x11 → c ≠ 0x15 → c ≠ 0x21 → s.unitFree c i = true →
    s.fget (hdr_STATE c) i ≠ 5 → ∃ u : State,
    u = { s with units := { s.units with retiring := s.units.retiring.filter (· ≠ pageNo c i) } } ∧
    exec (.unitRetirement c i g) s = .next (((u.recordRetirement c i 0).toRetired c i).err c i [5]))

/-- The Scourer's passes complete while it runs. A patrol read of a written wordline counts three reads of its block; a media scan of a readable IU whose page decodes at step 0 clears its suspicion; a clean HBM, SRAM or LPDDR5X
visit is noted, lines of a free macro-group that wait are remapped, and a corrected word sets CORRECTED; a spare Griddle that passes its check is noted, and a spare lane, and one that fails is retired; an edge repair goes on past its record, and writes the list where a repaired one differs. -/
def Obligations.ScourerPassesComplete : Prop :=
  (∀ (c d k b wl offs : Nat) (s u : State), s.scours false = true → d < 16 → k < 6 → b < 2208 → (s.block (blockKey c d k b)).st ≠ 0 →
    (s.block (blockKey c d k b)).st ≠ 4 → 3 * wl + 3 ≤ (s.block (blockKey c d k b)).next → s.dieRetired c d = false →
    s.ownRead (blockKey c d k b * 2048 + 3 * wl) = some u → exec (.nandPatrol c d k b wl false offs) s =
      .next (((List.range 3).foldl (fun (t : State) _ => (t.countOwn c).countRead (blockKey c d k b)) u).visit 0 (blockKey c d k b) (7 * 24))) ∧
  (∀ (iu l : Nat) (s u : State), s.scours false = true → (s.mapEntry iu).st = 1 ∨ (s.mapEntry iu).st = 2 → (s.mapEntry iu).loc = l →
    s.ownRead l = some u → s.ladderStep l 0 = 0 → exec (.mediaScan iu 0) s =
      .next ((((u.countOwn (locCol l)).countRead (l / 2048)).visit 1 iu (90 * 24)).suspect l false)) ∧
  (∀ (t a : Nat) (s : State), s.scours true = true → t < 8 * 24576 → s.stackRetired (t / 24576) = false → s.tiers.retired.contains t = false →
    a < tierBytes → exec (.hbmScrub t a 0) s = .next (s.visit 3 t 24) ∧
    (s.injectLeft 0x16 (t / 24576) 2 = 0 → exec (.hbmScrub t a 1) s = .next (((s.visit 3 t 24).err 0x16 (t / 24576) [2] (hbmInfo (t % 24576 * tierBytes + a))).rowCorrected t))) ∧
  (∀ (i g a : Nat) (s : State), s.scours true = true → i < 2 → g < 48 → s.fget (sb_GROUP_OWNER g) i = 0xFF → s.groupProgram i g = false →
    s.groupRetired i g = false → a < 2 ^ 22 → exec (.sramScrub false i g a 0) s = .next ((s.visit 4 (64 * i + g) 24).sbRemapDue i g) ∧
    exec (.sramScrub false i g a 1) s = .next (((s.visit 4 (64 * i + g) 24).sbRemapDue i g).sbCorrect i (g * 2 ^ 22 + a))) ∧
  (∀ (seg : Nat) (s : State), s.scours true = true → seg < mapSegments s.variant → exec (.lpddr5xScrub seg 0) s = .next (s.visit 5 seg 24) ∧
    exec (.lpddr5xScrub seg 1) s = .next ((s.visit 5 seg 24).err 0x22 0 [2] (64 * seg))) ∧
  (∀ (h i : Nat) (s : State), i = 17 * h + 16 → s.scours true = true → h < 2 → s.fget (hdr_IN_SERVICE 0x11) i ≠ 1 → s.fget (hdr_STATE 0x11) i = 0 →
    exec (.spareGriddleCheck h true) s =
      .next ((s.visit 6 h 24).showCheck i 0 true false 0x1FF)) ∧
  (∀ (k sp : Nat) (s : State), (s.link k).idle = some sp → s.scours true = true →
    colanderFitted s.variant k = true → exec (.spareLaneCheck k true) s = .next (s.visit 7 k 24) ∧
    exec (.spareLaneCheck k false) s = .next ((((s.visit 7 k 24).setLink k { s.link k with lanes := setAt (s.link k).lanes sp 4 }).recordRetirement
      0x20 (k / 32) (3 * (k % 32) + sp)).err 0x20 (k / 32) [12] (hubInfo k sp))) ∧
  (∀ (fn id u : Nat) (k : Collection) (m : Domain) (old new : List Nat) (s : State), sget? s.near.collections (65536 * fn + id) = some k →
    sget? s.ftl.domains (clDomain k.bytes) = some m → s.scours false = true → s.fget glob_MEDIA_MODE 0 = 0 → k.valid = true → m.live = true → m.repair = true →
    m.neighCol < clColumns k.bytes → s.repairNext k.bytes m = some u → s.slotsFree 1 = true →
    old = neighbours ((s.recValue k.bytes m.epoch m.neighCol u).getD []) → new = s.repairList k.bytes m.epoch m.neighCol u old → ∃ v : State,
    v = s.repairVisit (clDomain k.bytes) k.bytes m u ∧
    (((∃ x, s.pendingOf (recPlace k.bytes m.neighCol u).1 = some x ∧ x.repair = false) ∨ s.iuFails (recPlace k.bytes m.neighCol u).1 = true) →
      exec (.edgeRepairPass fn id u) s = .next (s.repaired (clDomain k.bytes) m u)) ∧
    ((∀ x, s.pendingOf (recPlace k.bytes m.neighCol u).1 = some x → x.repair = true) → s.iuFails (recPlace k.bytes m.neighCol u).1 = false →
      (new = old → exec (.edgeRepairPass fn id u) s = .next v) ∧
      (new ≠ old → exec (.edgeRepairPass fn id u) s =
        .next (v.writeList (clDomain k.bytes) k.bytes m u (s.pendingOf (recPlace k.bytes m.neighCol u).1) new))))

/-- The commands of the management plane complete with the Kettle running. A sample that is due takes the readings, integrates energy and lets the limits act; a rail monitor recalibrates; a trip that has been clear
for 1 s ends; a legal power cap is taken; the end of a window with no cap shows the mean input power; the recorder accepts the next waiting entry into its ring; it freezes with the cause given, or for the host with
cause 6, which UNFREEZE ends; a persisted freeze is written; an endpoint identifier is taken. -/
def Obligations.KettleAndRecorderCommandsComplete : Prop :=
  (∀ (vals : List (Nat × Int × Bool)) (hs : List (Nat × Nat × Nat)) (idle : List Nat) (s : State), s.kettleOn = true →
    s.kettle.sampleTick + 64 ≤ s.tick → ∃ r u v : State, r = s.takeSamples vals idle ∧
    u = ((r.countUnits 0x01 0 0 ((r.reading 202).toNat * 65536) 10000000).countUnits 0x01 0 1
      ((rails.map r.railEnergy).sum) 1000000000000).sampleLines hs (s.railInvalid || r.railInvalid) ∧
    v = u.kettle.floorWait.foldl State.floorAnswer u ∧
    exec (.sensorSample vals hs idle) s = .next ({ v with kettle := { v.kettle with floorWait := [] } } : State).checkThermal) ∧
  (∀ (n : Nat) (s : State), s.kettleOn = true → rails.contains n = true → exec (.railMonitorRecalibrate n) s =
    .next { s with kettle := { s.kettle with recal := sput s.kettle.recal n (s.tick + 128) } }) ∧
  (∀ (t : Nat) (s : State), s.power.clearSince = some t → s.power.trip = true → t + ticksMs 1000 ≤ s.tick → ∃ u v : State,
    u = { s with power := { s.power with trip := false } } ∧
    v = (u.fset kettle_THERMAL_CEILING 0 5).fset kettle_THERMAL_STATE 0 (if 358 ≤ s.fget kettle_COMPOSITE_K 0 then 1 else 0) ∧
    exec .thermalTripClear s = .next ((v.recEv 0x01 0 0x0600 ([s.fget kettle_TRIP_SENSOR 0, 0] ++
      le (unsigned ((s.thermal (s.fget kettle_TRIP_SENSOR 0)).getD 0) 16) 2) 0xFF false true).pldmEvent [5, s.fget kettle_TRIP_SENSOR 0, 0]).driveOp) ∧
  (∀ (v : Nat) (s : State), s.kettleOn = true → s.hostUp = true → v = 0 ∨ (400 ≤ v ∧ v ≤ 2000) →
    exec (.powerCapWrite v false) s = .next (s.setCap v) ∧
    exec (.powerCapWrite v true) s = .next ((s.setCap v).mctpAnswer [0])) ∧
  (∀ s : State, s.kettleOn = true → s.kettle.capCount ≠ 0 → s.kettle.capSince + ticksMs 100 ≤ s.tick → s.fget kettle_POWER_CAP 0 = 0 →
    exec .powerCapWindow s = .next { s.fset kettle_INPUT_MW 0 (s.kettle.capSum / s.kettle.capCount) with
      kettle := { s.kettle with capSum := 0, capCount := 0, capSince := s.tick } }) ∧
  (∀ (e : RecEntry) (s : State), nextEntry s.kettle.waiting = some e → s.kettleOn = true → ∃ u : State,
    u = { s with kettle := { s.kettle with waiting := s.kettle.waiting.eraseP fun x => x == e } } ∧
    exec .recorderEntryAccept s = .next ((u.ringTake e).enterDropped e.cls e.inst)) ∧
  (∀ s : State, s.kettleOn = true → s.fget rec_FROZEN 0 = 0 → exec (.recorderFreeze 5) s = .next (s.freezeRing 5)) ∧
  (∀ s : State, s.hostUp = true → s.fget rec_FROZEN 0 = 0 → exec (.hostFreeze false) s = .next (s.freezeRing 6)) ∧
  (∀ s : State, s.hostUp = true → s.fget rec_FROZEN 0 = 1 → s.fget rec_FREEZE_CAUSE 0 = 6 → exec (.unfreeze false) s =
    .next (((s.fset rec_FROZEN 0 0).fset rec_FREEZE_CAUSE 0 0).fset rec_SECOND_CAUSE 0 0)) ∧
  (∀ (k : Nat) (s : State), s.kettle.persistWait = true → s.readySlot = some k → ∃ u : State,
    u = { s with kettle := { s.kettle with persistWait := false } } ∧ exec (.recordPersist false) s = .next (u.fset (rec_SLOT k) 0 2) ∧
    ∃ t, exec (.recordPersist true) s = .next t ∧ t.fget (rec_SLOT k) 0 = 1 ∧ sget? t.kettle.records k = some s.kettle.ring) ∧
  (∀ (eid : Nat) (s : State), s.mctpUp = true → eid ≠ 0 → eid < 0xFF → exec (.mctpSetEndpointId eid) s =
    .next (({ s with kettle := { s.kettle with eid := eid } } : State).mctpAnswer [0, eid]))

/-- The requests of the ROM routine complete with the Kettle running, on sectors that are not bad. A read of a word of an error-corrected region whose sector is complete answers status 0 with the word as it stands; a program of an erased word that verifies
with its pulse stores it, outside the factory and bit-clear regions and with no brown-out; an erase of a sector that is not of the factory region begins, wipes and ends it; a blank check of complete sectors answers status 0 where every word of them is erased, and the first word that is not where there is one; the configuration store is compacted once three-quarters of its half are used. -/
def Obligations.EflashCommandsComplete : Prop :=
  (∀ (a : Nat) (s : State), s.kettleOn = true → rangeOk a 1 = true → regionOfSector (a / 512) ≠ 1 → a / 512 ∉ s.eflash.bad → s.incomplete (a / 512) = false →
    exec (.eflashRead a 1 []) s = .next (({ s with freeCount := s.freeCount + 1 } : State).romAnswer 0 0 0 noWord [s.eword a])) ∧
  (∀ (a v need : Nat) (s : State), s.kettleOn = true → rangeOk a 1 = true → 2 ≤ regionOfSector (a / 512) → a / 512 ∉ s.eflash.bad → s.power.brownOut = false →
    s.incomplete (a / 512) = false → s.untracked (a / 512) = false → s.eword a = erasedWord → need ≤ 1 →
    exec (.eflashProgram a [v] false 0 false false need 0 false) s = .next (((s.setEword a v).verified (a / 512) true).romAnswer 0 need 0 noWord)) ∧
  (∀ (x need : Nat) (s : State), s.kettleOn = true → 16 ≤ x → x < 2048 → x ∉ s.eflash.bad → s.power.brownOut = false → need ≤ 1 →
    exec (.eflashErase x 1 false 0 false false need 0 false) s =
      .next ((((s.beginErase x).endErase x).verified x true).romAnswer 0 need 0 noWord)) ∧
  (∀ (x n : Nat) (s : State), s.kettleOn = true → 1 ≤ n → n ≤ 8 → x + n ≤ 2048 → regionOfSector x = regionOfSector (x + n - 1) →
    (∀ y, x ≤ y → y < x + n → y ∉ s.eflash.bad ∧ s.incomplete y = false) →
    ((∀ w, 512 * x ≤ w → w < 512 * (x + n) → s.eword w = erasedWord) → exec (.eflashBlankCheck x n) s = .next (s.romAnswer 0 0 0 noWord)) ∧
    (∀ w, 512 * x ≤ w → w < 512 * (x + n) → s.eword w ≠ erasedWord → (∀ v, 512 * x ≤ v → v < w → s.eword v = erasedWord) →
      exec (.eflashBlankCheck x n) s = .next (s.romAnswer 2 0 0 w))) ∧
  (∀ s : State, s.kettleOn = true → s.power.brownOut = false → 3 * configHalfWords ≤ 4 * s.eflash.configUsed →
    exec .configStoreCompaction s = .next { s with eflash := { s.eflash with
      configHalf := 1 - s.eflash.configHalf
      configUsed := 16 * (s.eflash.config.length + s.eflash.retirements.length) } })

/-- The admin and management requests that return data complete, with the command taken and no reserved field set. Identify returns the structure that CNS names; Get Log Page returns the bytes asked of a log that the function may read; the host interval of the Floor Ratio log waits for the
next sample boundary; an NVMe-MI request is answered over MCTP, or queued in band for NVMe-MI Receive, which returns the oldest answer; a PLDM platform request is answered from Kettle state. -/
def Obligations.ManagementRequestsComplete : Prop :=
  (∀ (cmd : CmdId) (cns nsid : Nat) (d : List Byte) (s : State), s.takes cmd = true → cmd.rsvd = false → s.idData cmd.fn cns nsid = some d →
    exec (.identify cmd cns nsid) s = .next (s.succeed cmd 0 d)) ∧
  (∀ (cmd : CmdId) (lid lsi lsp off n : Nat) (d : List Byte) (s : State), s.takes cmd = true → cmd.rsvd = false →
    (lid = 0xC2 → lsp ≠ 1 ∧ lsp ≠ 2) → off % 4 = 0 → n % 4 = 0 → n ≠ 0 → n ≤ 2 ^ 21 →
    s.logPage cmd.fn lid lsi lsp = .ok d → ∃ u : State,
    u = ((s.readPair lid lsp).noteLogRead cmd.fn lid lsi off n).succeed cmd 0 (logSlice d off n) ∧
    exec (.getLogPage cmd lid lsi lsp off n true) s = .next u ∧ exec (.getLogPage cmd lid lsi lsp off n false) s = .next (u.rearmLog cmd.fn lid lsi)) ∧
  (∀ (cmd : CmdId) (off n : Nat) (s : State), s.takes cmd = true → cmd.rsvd = false → cmd.fn = 0 → off % 4 = 0 → n % 4 = 0 → n ≠ 0 → n ≤ 2 ^ 21 →
    exec (.floorRatioOpenInterval cmd off n) s = .next { s with kettle := { s.kettle with floorWait := s.kettle.floorWait ++ [(cmd, true, off, n)] } } ∧
    exec (.floorRatioCloseInterval cmd off n) s =
      .next { s with kettle := { s.kettle with floorWait := s.kettle.floorWait ++ [(cmd, false, off, n)] } }) ∧
  (∀ (cmd : CmdId) (r : MiRequest) (s : State), s.takes cmd = true → s.turnedAway cmd true = false → cmd.fn = 0 → ∃ t : State, t = (s.miServe r).2 ∧
    exec (.nvmeMiSend cmd r) s =
      .next (({ t with kettle := { t.kettle with miOut := t.kettle.miOut ++ [(s.miServe r).1] } } : State).succeed cmd)) ∧
  (∀ (cmd : CmdId) (n : Nat) (r : List Byte) (rs : List (List Byte)) (s : State), s.takes cmd = true → cmd.rsvd = false → cmd.fn = 0 → s.kettle.miOut = r :: rs →
    exec (.nvmeMiReceive cmd n) s = .next (({ s with kettle := { s.kettle with miOut := rs } } : State).succeed cmd 0 (r.take n))) ∧
  (∀ (t : Transport) (r : MiRequest) (s : State), s.reaches t = true → s.kettleOn = true →
    exec (.nvmeMiRequest t r) s = .next ((s.miServe r).2.mctpSend (s.miServe r).1)) ∧
  (∀ (t : Transport) (r : PldmRequest) (s : State), s.reaches t = true → s.kettleOn = true →
    exec (.pldmPlatformRequest t r) s = .next ((s.pldmServe r).2.mctpSend (s.pldmServe r).1))

/-- The commands of firmware updates complete on the physical function while the other path holds no lock, with the command taken and not turned away. A piece inside the package limit that overlaps no other is staged; a commit writes a firmware package that passes the checks to the slot that does not run, with CA 1 activated too, completes with Invalid Firmware
Image where the image fails them (the signature check is opaque: log 3), and gives a key package its effect, as KEY_PACKAGE_COMMIT does; CA 2 activates a committed slot; over PLDM a request takes the lock, component 0x3072 makes the other slot WRITING, data pieces are gathered and the whole package is written where it passes the checks, a committed slot is activated, and a cancel releases the lock. -/
def Obligations.FirmwareUpdateCommandsComplete : Prop :=
  (∀ (cmd : CmdId) (off : Nat) (data : List Byte) (s : State), s.takes cmd = true → s.turnedAway cmd true = false → cmd.fn = 0 → s.fget glob_UPDATE_OWNER 0 ≠ 2 → off + data.length ≤ packageMax →
    (s.boot.pieces.any fun p => decide (off < p.1 + p.2) && decide (p.1 < off + data.length)) = false → ∃ u : State,
    u = ((s.pcie 64 data.length).fset glob_UPDATE_OWNER 0 1).fset glob_UPDATE_STATE 0 1 ∧
    exec (.firmwareImageDownload cmd off data) s = .next (({ u with boot := { u.boot with
      pieces := (off, data.length) :: u.boot.pieces, image := u.boot.image.writeL off data } } : State).succeed cmd)) ∧
  (∀ (cmd : CmdId) (fs k : Nat) (s keyed bad : State), s.takes cmd = true → s.turnedAway cmd true = false → cmd.fn = 0 → s.fget glob_UPDATE_OWNER 0 ≠ 2 → fs ≤ 2 →
    k = (if fs = 0 then s.otherSlot else fs) → k ≠ s.boot.runSlot → bad = s.endUpdate.complete cmd 1 0x07 →
    keyed = (s.applyKeys s.stagedImage).elim bad (fun t => t.endUpdate.succeed cmd) →
    exec (.firmwareCommitWrite cmd fs true) s = .next (if s.stagedOk = true then
        (if keyPackage s.stagedImage = true then keyed else ((s.writeSlot k s.stagedImage false true).endUpdate).succeed cmd) else bad) ∧
    exec (.firmwareCommitWriteActivate cmd fs true) s = .next (if s.stagedOk = true then
        (if keyPackage s.stagedImage = true then keyed else ((s.writeSlot k s.stagedImage true true).endUpdate).succeed cmd) else bad)) ∧
  (∀ (cmd : CmdId) (fs k : Nat) (s : State), s.takes cmd = true → s.turnedAway cmd true = false → cmd.fn = 0 → s.fget glob_UPDATE_OWNER 0 ≠ 2 → (s.stagedOk && keyPackage s.stagedImage) = false → fs ≤ 2 →
    k = (if fs = 0 then s.otherSlot else fs) → k ≠ s.boot.runSlot → (s.fwSlot k).committed = true → (s.fwSlot k).failed = false →
    exec (.firmwareCommitActivate cmd fs) s = .next ((s.slotEvent k 2).showBoot.succeed cmd)) ∧
  (∀ (cmd : CmdId) (ca : Nat) (s keyed : State), s.takes cmd = true → s.turnedAway cmd true = false → cmd.fn = 0 → ca < 2 →
    s.fget glob_UPDATE_OWNER 0 ≠ 2 →
    keyed = (s.applyKeys s.stagedImage).elim (s.endUpdate.complete cmd 1 0x07) (fun t => t.endUpdate.succeed cmd) →
    exec (.keyPackageCommit cmd ca) s = .next (if s.stagedOk = true ∧ keyPackage s.stagedImage = true then keyed else s)) ∧
  (∀ s : State, s.mctpUp = true → s.fget glob_UPDATE_OWNER 0 = 0 →
    exec .pldmRequestUpdate s = .next (((s.fset glob_UPDATE_OWNER 0 2).fset glob_UPDATE_STATE 0 1).mctpAnswer [0])) ∧
  (∀ s : State, s.mctpUp = true → s.fget glob_UPDATE_OWNER 0 = 2 → exec (.pldmUpdateComponent 0x3072) s = .next (s.beginPldm.mctpAnswer [0])) ∧
  (∀ (off k : Nat) (data : List Byte) (u : State) (s : State), s.boot.pldmSlot = some k → s.mctpUp = true → s.fget glob_UPDATE_OWNER 0 = 2 → 256 ≤ data.length →
    data.length ≤ 1024 → off + data.length ≤ packageMax → u = s.pldmPut off data →
    (u.pldmWhole = false → exec (.pldmFirmwareData off data true) s = .next u) ∧
    (u.pldmWhole = true → s.boot.romRecovery = false → exec (.pldmFirmwareData off data true) s =
      .next (if u.packageOk u.stagedImage = true ∧ firmwarePackage u.stagedImage = true then (u.writeSlot k u.stagedImage false true).endUpdate
        else ({ u with boot := { u.boot with pldmSlot := none } } : State).endUpdate))) ∧
  (∀ (k : Nat) (now : Bool) (s : State), s.boot.pldmSlot = some k → s.mctpUp = true → (s.fwSlot k).committed = true → (s.fwSlot k).failed = false →
    ∃ u : State, u = (s.slotEvent k 2).showBoot ∧ exec (.pldmActivateFirmware now) s = .next (({ u with boot := { u.boot with
      pldmSlot := none, restart := if now then 5 else u.boot.restart } } : State).mctpAnswer [0])) ∧
  (∀ s : State, s.mctpUp = true → s.fget glob_UPDATE_OWNER 0 = 2 → exec .pldmCancelUpdate s =
    .next (({ s with boot := { s.boot with pldmSlot := none } } : State).endUpdate.mctpAnswer [0]))

/-- The events of the PCIe link and of the controllers complete with the planes up. Training at 32 GT/s or more leaves the link up at the width that the retired lanes allow, and one below 32 GT/s leaves it down for three retrains; a replay counts; a permanent lane that the link uses is retired and the link narrows or, with no width left, goes down, and one that it does not use is only recorded; an uncorrectable TLP without a transfer is
reported; configuration writes are taken with the link up, and answered with Request Retry Status before it has trained; an aggregation time that has run out raises the interrupt; a controller is enabled with its admin queues, reset, and shut down, at once where no task runs; a function is reset; the rebuild makes the media ready. -/
def Obligations.LinkAndFunctionCommandsComplete : Prop :=
  (∀ (width rate : Nat) (s : State), s.planesOn = true → s.host.belowMin = false → width = 4 ∨ width = 8 ∨ width = 16 →
    widthAvoiding s.host.lanesRetired ≠ 0 → ∃ u : State,
    u = (if s.host.trained = true then s.fbump front_RETRAIN_COUNT 0 1 else s) ∧
    (1 ≤ rate → rate ≤ 3 → exec (.pcieLinkTrained width rate) s = .next (u.linkAt (min width (widthAvoiding s.host.lanesRetired)) rate)) ∧
    (s.host.lowTries < 3 → exec (.pcieLinkTrained width 4) s =
      .next ((({ s with host := { s.host with lowTries := s.host.lowTries + 1 } } : State).linkDown).fbump front_RETRAIN_COUNT 0 1))) ∧
  (∀ (lane : Nat) (s : State), s.planesOn = true → lane < 16 →
    exec (.pcieLinkReplay lane) s = .next ((s.err 0x03 0 [2] lane).countEvent 9 lane secTicks).2) ∧
  (∀ (lane : Nat) (s : State), s.planesOn = true → lane < 16 → s.host.lanesRetired.contains lane = false → ∃ (w : Nat) (u : State),
    w = min (widthAvoiding (lane :: s.host.lanesRetired)) s.host.width ∧
    u = ({ s with host := { s.host with lanesRetired := lane :: s.host.lanesRetired } } : State).recordRetirement 0x03 0 lane ∧
    (s.laneUsed lane = false → exec (.pcieLaneRetire lane true) s = .next u) ∧
    (s.laneUsed lane = true → exec (.pcieLaneRetire lane true) s = .next (if w = 0 then u.linkDown
      else (u.fbump front_RETRAIN_COUNT 0 1).linkAt w (s.fget front_RATE 0)))) ∧
  (∀ s : State, s.planesOn = true → exec (.pcieUncorrectableTlp none none) s = .next (s.err 0x03 0 [10] 0 0xFF)) ∧
  (∀ (fn what v : Nat) (s : State), s.power.perst = false → s.fnEnabled fn = true ∨ fn = 33 →
    (s.planesOn = false ∨ s.host.trained = false → exec (.pcieConfigurationWrite what v fn) s =
      .next { s with host := { s.host with cfgStatus := 1 } }) ∧
    (s.planesOn = true → s.host.trained = true → s.host.linkUp = true → exec (.pcieConfigurationWrite what v fn) s =
      .next (({ s with host := { s.host with cfgStatus := 0 } } : State).configure fn what v))) ∧
  (∀ (fn iv : Nat) (s : State), sget s.host.aggr (qKey fn iv) 0 ≠ 0 →
    sget s.host.aggrTick (qKey fn iv) 0 + ticksUs (100 * ((s.ctrl fn).feature 0x08 / 256 % 256)) ≤ s.tick →
    exec (.interruptCoalescingTimeout fn iv) s = .next (({ s with host := { s.host with
      irqs := s.host.irqs ++ [(fn, iv)], aggr := serase s.host.aggr (qKey fn iv), aggrTick := serase s.host.aggrTick (qKey fn iv) } } : State).pcie 64 4)) ∧
  (∀ (fn asqs acqs : Nat) (crime wrr : Bool) (s : State), s.hostUp = true → s.fnEnabled fn = true → (s.ctrl fn).en = false →
    exec (.controllerEnable fn crime wrr asqs acqs) s = .next ((s.setCtrl fn { Ctrl.init with
      en := true, crime := crime, wrr := wrr, rdy := crime || s.ftl.ready }).adminQueues fn asqs acqs)) ∧
  (∀ (fn : Nat) (s : State), s.hostUp = true → (s.ctrl fn).en = true →
    (fn = 0 → exec (.controllerReset fn) s = .next s.controllerReset) ∧
    (fn ≠ 0 → exec (.controllerReset fn) s = .next (((s.dropFnCtxs fn).resetFn fn).dropCollections fun f => f == fn))) ∧
  (∀ (fn : Nat) (s : State), s.hostUp = true → (s.ctrl fn).en = true → (s.ctrl fn).shst = 0 → ∃ u : State,
    u = s.setCtrl fn { s.ctrl fn with shst := 1, shutTick := s.tick } ∧
    (s.shutCtxs fn = [] → exec (.shutdownNotification fn) s = .next (u.finishShutdown fn)) ∧
    (∀ (c : Nat) (x : Ctx), s.shutCtxs fn = [c] → s.ctx? c = some x → x.task = none → exec (.shutdownNotification fn) s = .next (u.finishShutdown fn))) ∧
  (∀ (fn : Nat) (s : State), s.hostUp = true → s.fnEnabled fn = true → fn ≠ 0 → fn ≠ 33 →
    exec (.functionLevelReset fn) s = .next ((s.fnReset fn).setPci fn PciFn.init)) ∧
  (∀ s : State, s.hostUp = true → exec (.functionLevelReset 33) s = .next (s.setPci 33 PciFn.init)) ∧
  (∀ (j : Nat) (s : State), s.power.controlUp = true → s.power.brownOut = false → s.ftl.ready = false → s.fget (hdr_STATE 0) 0 ≠ 4 →
    (∀ c ∈ s.packages, s.fget (hdr_STATE 0x21) c ≠ 1) → exec (.mediaReady j) s = .next (s.rebuilt j).mediaUp)

/-- The events of device time and of the Ethernet ports complete, on a port that runs and with no injected error waiting for a frame. An Announce of the port's domain enters the masters heard; a Sync of the selected master on a port that does not steer is measured; a delay request is sent when it is due and a Pdelay_Req answered in P2P; a response gives the path delay; a silent master is lost; the
preferred port returns after 60 s; a PTM dialog is measured; a source request is taken; 1PPS edges are driven and measured, and a missing edge is reported; a port's link goes down, up, and discards frames; an address request for the port is answered; a PFC pause
of the enabled priority pauses the port. -/
def Obligations.TimeAndFabricCommandsComplete : Prop :=
  (∀ (p dom sender : Nat) (la : Int) (data : List Nat) (s : State), s.ptpRuns p = true → s.rxCorrupt p = false → -3 ≤ la → la ≤ 3 → dom = s.fget eth_DOMAIN p →
    exec (.ptpAnnounceReceived p dom sender la data) s = .next ((s.rx p).select p ((s.ptp p).hear sender la data s.tick))) ∧
  (∀ (p dom sender t1 cyc : Nat) (ls : Int) (s : State), s.ptpRuns p = true → s.rxCorrupt p = false → -7 ≤ ls → ls ≤ 0 → dom = s.fget eth_DOMAIN p →
    (s.ptp p).master = some sender → s.steers p = false → exec (.ptpSyncReceived p dom sender ls t1 cyc) s = .next (s.takeSync p ls t1 cyc)) ∧
  (∀ (p cyc : Nat) (s : State), s.ptpRuns p = true → (s.fget eth_DELAY_MECH p = 1 ∨ (s.ptp p).sync.isSome = true) → (s.ptp p).sent = none → ∃ u : State,
    u = (s.serve 5 0 1).setPtp p { s.ptp p with sent := some (s.stamp p cyc true), sentTick := s.tick } ∧
    exec (.ptpDelayRequestSend p cyc) s = .next (u.tx p (if s.fget eth_DELAY_MECH p = 1 then 2 else 1) (s.stamp p cyc true))) ∧
  (∀ (p sender a b cyc : Nat) (ld t3 : Int) (s : State), s.ptpRuns p = true → s.rxCorrupt p = false → (s.ptp p).sent = some t3 →
    (∀ q : Int × Int, s.fget eth_DELAY_MECH p = 0 → -7 ≤ ld → (s.ptp p).master = some sender → (s.ptp p).sync = some q →
      exec (.ptpDelayResponse p sender ld a b cyc) s = .next ((s.rx p).takeDelay p ld (((q.2 - q.1) + ((a * 25 : Nat) - t3)) / 2))) ∧
    (s.fget eth_DELAY_MECH p = 1 → exec (.ptpDelayResponse p sender ld a b cyc) s =
      .next (((s.serve 5 0 1).rx p).takeDelay p ld ((s.stamp p cyc false - t3 - ((b * 25 : Nat) - (a * 25 : Nat) : Int)) / 2)))) ∧
  (∀ (p dom cyc cycOut : Nat) (s : State), s.ptpRuns p = true → s.rxCorrupt p = false → dom = s.fget eth_DOMAIN p → s.fget eth_DELAY_MECH p = 1 →
    exec (.ptpPdelayRequest p dom cyc cycOut) s =
      .next (((((s.serve 5 0 1).serve 5 0 1).rx p).tx p 3 (s.stamp p cyc false)).tx p 10 (s.stamp p cycOut true))) ∧
  (∀ (p : Nat) (s : State), Sys2Proof.Machine.present s.variant 0x31 p = true → s.kettleOn = true → s.portSilent p = true →
    exec (.ptpSourceLoss p) s = .next (s.losePort p).refreshRoles) ∧
  (∀ (t : Nat) (s : State), s.source = 0 → s.activePort ≠ s.prefPort → s.ptpRuns s.prefPort = true → (s.ptp s.prefPort).meetsSince = some t →
    t + ticksMs 60000 ≤ s.tick → exec .ptpPreferredReturn s = .next (s.activatePort s.prefPort)) ∧
  (∀ (root delay ago : Nat) (s : State), s.planesOn = true → s.fget front_PTM_ENABLED 0 ≠ 0 → s.fget front_RATE 0 ≠ 0 → s.fget glob_TIME_SOURCE_REQUEST 0 = 1 →
    s.time.ptmTick + ticksMs (s.fget time_PTM_INTERVAL_MS 0) ≤ s.tick → ∃ off m u,
    off = s.dtcRead - (ago * 25 : Nat) - ((root * 1638400 + delay * 25 : Nat) : Int) ∧ m = s.time.ptm.add off ∧
    u = ({ s with time := { s.time with ptmTick := s.tick, ptmFails := 0, ptm := m } } : State) ∧
    exec (.ptmDialog true root delay ago) s = .next ((u.count 0x02 0 1 1).steer 1 off m 250)) ∧
  (∀ (v : Nat) (s : State), s.hostUp = true → v = 1 ∨ v = 2 → 
    (v = s.source → exec (.timeSourceRequestWrite v) s = .next (s.fset glob_TIME_SOURCE_REQUEST 0 v)) ∧
    (v ≠ s.source → exec (.timeSourceRequestWrite v) s = .next (s.fset glob_TIME_SOURCE_REQUEST 0 v).enterHoldover)) ∧
  (∀ s : State, s.kettleOn = true → s.time.ppsSec < s.time.dtc / 2 ^ 48 / 1000000000 → s.fget time_PPS_OUT_MODE 0 = 1 → exec .ppsOutEdge s =
    .next { s with time := { s.time with ppsSec := s.time.dtc / 2 ^ 48 / 1000000000, ppsOut := some s.tick } }) ∧
  (∀ (cyc : Nat) (x : Int) (s : State), s.variant = .x → s.kettleOn = true → x = (s.dtcRead - (2097152 * cyc : Nat)) % (1000000000 * unitNs) →
    2 * x < 1000000000 * unitNs → ∃ (r : Int × State) (u : State), r = (s.serve 5 0 1).roundNs x ∧
    u = (r.2.fset time_PPS_IN_OFFSET 0 (ns32 r.1)).fset time_PPS_IN_VALID 0 1 ∧
    exec (.ppsInEdge cyc) s = .next { u with time := { u.time with ppsIn := some s.tick } }) ∧
  (∀ (t : Nat) (s : State), s.time.ppsIn = some t → t + ticksMs 2000 ≤ s.tick → ∃ u : State, u = { s with time := { s.time with ppsIn := none } } ∧
    exec .ppsInMissing s = .next ((u.fset time_PPS_IN_VALID 0 0).err 0x02 0 [11] (s.fget time_PPS_IN_OFFSET 0))) ∧
  (∀ (p : Nat) (s : State), Sys2Proof.Machine.present s.variant 0x31 p = true → s.kettleOn = true → s.fget eth_PORT_RETIRED p ≠ 1 → s.portUp p = true →
    exec (.ethernetLinkDown p none) s = .next (s.dropPort p)) ∧
  (∀ (p speed medium : Nat) (s : State), Sys2Proof.Machine.present s.variant 0x31 p = true → s.planesOn = true → s.fget eth_PORT_RETIRED p ≠ 1 → s.portUp p = false →
    s.fget glob_PS_EFFECTIVE 0 ≠ 4 ∨ p = s.activePort → speed = 1 ∨ speed = 2 → exec (.ethernetLinkUp p speed medium) s =
      .next (((s.fset eth_LINK_UP p 1).fset eth_SPEED p speed).fset eth_MEDIUM p (medium % 2)).refreshRoles) ∧
  (∀ (p lane n : Nat) (s : State), s.portRuns p = true → s.rxCorrupt p = false →
    exec (.ethernetFrameDiscard p 0 lane n) s = .next (((s.rx p).discard p).ethBytes p n) ∧
    exec (.ethernetFrameDiscard p 1 lane n) s = .next (((s.rx p).ethBytes p n).err 0x31 p [2] (lane % 4)) ∧
    exec (.ethernetFrameDiscard p 2 lane n) s = .next (s.rxLost p (lane % 4))) ∧
  (∀ (p target n m : Nat) (v6 : Bool) (s : State), s.portRuns p = true → s.rxCorrupt p = false → s.ownAddr p v6 = some target → exec (.arpNeighborDiscovery p target v6 n m) s =
    .next (((s.rx p).ethBytes p (n + m)).tx p 16 (target : Int))) ∧
  (∀ (p prio : Nat) (s : State), s.portRuns p = true → s.rxCorrupt p = false → s.fget eth_PFC_EN p ≠ 0 → prio = s.fget eth_PFC_PRIO p → ∃ u : State,
    u = (s.rx p).ethBytes p 46 ∧
    exec (.pfcFrame p prio true) s = .next { u with time := { u.time with paused := p :: s.time.paused.filter (· ≠ p) } } ∧
    exec (.pfcFrame p prio false) s = .next { u with time := { u.time with paused := s.time.paused.filter (· ≠ p) } })

/-- The MF-3072-C has a Colander at positions 0 to 15 and 32 to 47 and at no other; 16 of the 32 positions of each Hob; and at the other positions the
Colander page is absent: each of its words reads 0 and a write of one changes nothing. -/
def Obligations.UnfittedColandersAreAbsent : Prop :=
  (∀ p : Nat, p < 64 → (colanderFitted .c p = true ↔ p ≤ 15 ∨ (32 ≤ p ∧ p ≤ 47))) ∧
  (∀ h : Nat, h < 2 → ((List.range 32).filter fun k => colanderFitted .c (32 * h + k)).length = 16) ∧
  (∀ (s : State) (p off v : Nat), s.variant = .c → ((16 ≤ p ∧ p ≤ 31) ∨ (48 ≤ p ∧ p ≤ 63)) →
    Sys2Proof.Machine.present s.variant 0x21 p = false ∧ s.readWord 0x21 p off = 0 ∧ s.writeWord 0x21 p off v = s)

/-- The register function accepts a naturally aligned 32-bit access, and a naturally aligned 64-bit access to a LO/HI pair or to an absent or undefined
page; it takes a 64-bit access to a pair as LO, then HI, but for the write of a RW pair, which commits both. Every other access is bad: a read returns 0xFFFF_FFFF, in both halves where it is of 64 bits, a
write is dropped, BAD_ACCESS_COUNT rises by one up to the largest value it holds, and every other field of every page, every latched HI and every LO that waits for
its HI are as before. -/
def Obligations.BadAccessesReadOnesAndCount : Prop :=
  (∀ (v : Variant) (a size : Nat), accessOk v a size = true ↔ (size = 32 ∧ a % 4 = 0) ∨
    (size = 64 ∧ a % 8 = 0 ∧ (Sys2Proof.Machine.present v (addrClass a) (addrInst a) = false ∨ addrOff a ∈ loOffsets (addrClass a)))) ∧
  (∀ (a v : Nat) (s : State), s.hostUp = true → accessOk s.variant a 64 = true → rwPair (addrClass a) (addrOff a) = false →
    exec (.registerWrite a v true) s = .next (((s.accessed 8 (addrClass a) (addrInst a)).writeWord (addrClass a) (addrInst a) (addrOff a)
      (v % 2 ^ 32)).writeWord (addrClass a) (addrInst a) (addrOff a + 4) (v / 2 ^ 32 % 2 ^ 32))) ∧
  (∀ (a : Nat) (s u v : State), s.pageOn (addrClass a) (addrInst a) = true → accessOk s.variant a 64 = true →
    u = (s.accessed 8 (addrClass a) (addrInst a)).readOnce (addrClass a) (addrInst a) (addrOff a) →
    v = u.readOnce (addrClass a) (addrInst a) (addrOff a + 4) →
    exec (.readLoLatch a true) s = .next (v.answer (u.reg.readData ++ v.reg.readData))) ∧
  (∀ (a size : Nat) (write : Bool) (s : State), s.hostUp = true → accessOk s.variant a size = false → ∃ t,
    exec (.badAccess a size write) s = .next t ∧
    t.fget glob_BAD_ACCESS_COUNT 0 = min (s.fget glob_BAD_ACCESS_COUNT 0 + 1) (2 ^ glob_BAD_ACCESS_COUNT.width - 1) ∧
    (∀ (f : Field) (i : Nat), f.key i ≠ glob_BAD_ACCESS_COUNT.key 0 → t.fget f i = s.fget f i) ∧
    (write = false → size ≠ 64 → t.reg.readData = [0xFFFFFFFF]) ∧
    (write = false → size = 64 → t.reg.readData = [0xFFFFFFFF, 0xFFFFFFFF]) ∧
    (write = true → t.reg.readData = s.reg.readData) ∧ t.reg.latch = s.reg.latch ∧ t.reg.pairLo = s.reg.pairLo)

/-- Where an error bit of a page rises while FIRST_VALID is 0, the page captures its number, whether it was injected, the information and the tick, and
sets FIRST_VALID; where FIRST_VALID is 1, or the bit was set before, what was captured stays. In both cases the bit is set and ERR_COUNT rises by one up to the
largest value it holds. -/
def Obligations.FirstErrorOfAPageIsCaptured : Prop :=
  ∀ (s : State) (c i b info ctx : Nat) (inj : Bool), c < 256 → i < 256 → b < 32 → s.injectLeft c i b = 0 → info < 2 ^ 32 → ∃ t : State,
    t = s.errBit c i b info ctx inj ∧
    bit (t.fget (hdr_ERR_STATUS c) i) b = true ∧
    t.fget (hdr_ERR_COUNT c) i = min (s.fget (hdr_ERR_COUNT c) i + 1) (2 ^ (hdr_ERR_COUNT c).width - 1) ∧
    (bit (s.fget (hdr_ERR_STATUS c) i) b = false → s.fget (hdr_FIRST_VALID c) i = 0 →
      t.fget (hdr_FIRST_VALID c) i = 1 ∧ t.fget (hdr_FIRST_BIT c) i = b ∧ t.fget (hdr_FIRST_INJECTED c) i = b2n inj ∧
      t.fget (hdr_ERR_FIRST_INFO c) i = info ∧
      t.fget64 (hdr_ERR_FIRST_TICK_LO c) (hdr_ERR_FIRST_TICK_HI c) i = s.tick % 2 ^ 64) ∧
    (bit (s.fget (hdr_ERR_STATUS c) i) b = true ∨ s.fget (hdr_FIRST_VALID c) i = 1 →
      t.fget (hdr_FIRST_VALID c) i = s.fget (hdr_FIRST_VALID c) i ∧ t.fget (hdr_FIRST_BIT c) i = s.fget (hdr_FIRST_BIT c) i ∧
      t.fget (hdr_FIRST_INJECTED c) i = s.fget (hdr_FIRST_INJECTED c) i ∧
      t.fget (hdr_ERR_FIRST_INFO c) i = s.fget (hdr_ERR_FIRST_INFO c) i ∧
      t.fget64 (hdr_ERR_FIRST_TICK_LO c) (hdr_ERR_FIRST_TICK_HI c) i = s.fget64 (hdr_ERR_FIRST_TICK_LO c) (hdr_ERR_FIRST_TICK_HI c) i)

/-- An entry after a pass of an integer domain: the block values v_b, in row order, are added to a sum that starts at 0 and has 16 bits with ACC16 = 1 and 32
bits with ACC16 = 0; each addition saturates at −2^(W−1) and 2^(W−1) − 1 and the next starts from what it left; the entry's SAT flag is set where it was set
before, where one of these additions saturates or where the hand-over to the tile does; and the sum lies within its width. -/
def Obligations.TileSumsSaturateBlockByBlock : Prop :=
  ∀ (w : Nat) (g : Int) (t : Entry) (xs ws : List Fv) (nf : Bool), mmFp w = false → ∃ (W : Nat) (vs : List Int) (k : Int × Bool),
    W = (if mmAcc16 w then 16 else 32) ∧
    vs = (List.range ((xs.length + 31) / 32)).map (fun b =>
      ((blockSum ((xs.drop (32 * b)).take 32) ((ws.drop (32 * b)).take 32)).scale (-g)).round .rne) ∧
    k = vs.foldl (fun a v => if a.1 + v < -2 ^ (W - 1) then (-2 ^ (W - 1), true)
      else if 2 ^ (W - 1) - 1 < a.1 + v then (2 ^ (W - 1) - 1, true) else (a.1 + v, a.2)) ((0 : Int), false) ∧
    -2 ^ (W - 1) ≤ k.1 ∧ k.1 ≤ 2 ^ (W - 1) - 1 ∧
    (passEntry w g t xs ws nf).v = unsigned (max (-2 ^ 31) (min (2 ^ 31 - 1) (signed t.v 32 + k.1))) 32 ∧
    (passEntry w g t xs ws nf).sat =
      (t.sat || k.2 || decide (signed t.v 32 + k.1 < -2 ^ 31 ∨ 2 ^ 31 - 1 < signed t.v 32 + k.1))

/-- The distance of a record under a table of M columns: for PQ8 the sum over m of entry code_m of column m, code_m being byte m of the value; for PQ4 the same
with 16 entries a column, code_m being the low nibble of byte m / 2 where m is even and the high nibble where it is odd. With M ≤ 128 it is at most 32,640, so
its sum in 16 bits is the sum itself. A smaller distance ranks first, and not the other way round. -/
def Obligations.CodeDistancesAreTableSums : Prop :=
  (∀ (m : Nat) (tab code : List Byte), codeDistance (m, 8, tab) code =
    (Finset.range m).sum fun j => (tab.getD (256 * j + (code.getD j 0).toNat) 0).toNat) ∧
  (∀ (m : Nat) (tab code : List Byte), codeDistance (m, 4, tab) code =
    (Finset.range m).sum fun j => (tab.getD (16 * j + (if j % 2 = 0 then (code.getD (j / 2) 0).toNat % 16
      else (code.getD (j / 2) 0).toNat / 16)) 0).toNat) ∧
  (∀ (m p : Nat) (tab code : List Byte), m ≤ 128 → codeDistance (m, p, tab) code ≤ 32640 ∧
    codeDistance (m, p, tab) code % 2 ^ 16 = codeDistance (m, p, tab) code) ∧
  (∀ a b : Nat × Nat × Nat, a.1 < b.1 → rankLe a b = true ∧ rankLe b a = false)

/-- The two ranking keys, and what ranking leaves. Under the PQ key an entry ranks before another by ascending D, then ascending vector ID; under the exact key
by ascending FP32 distance, then ascending vector ID, where −0 and +0 are equal, a NaN ranks after every number, NaNs rank by ID, and an infinity keeps its
place. The ranked list of some entries is in rank order, holds no vector ID twice, holds only entries given, and for each entry given holds one with its
ID that ranks no later. -/
def Obligations.RankedListsAreSortedWithoutDuplicates : Prop :=
  (∀ a b : LEnt, entLe false false a b = true ↔ a.dq < b.dq ∨ (a.dq = b.dq ∧ a.id ≤ b.id)) ∧
  (∀ a b : LEnt, (dec32 a.dist).isNan = false → (dec32 b.dist).isNan = false →
    (entLe true false a b = true ↔ Fv.lt (dec32 a.dist) (dec32 b.dist) = true ∨
      (Fv.lt (dec32 b.dist) (dec32 a.dist) = false ∧ a.id ≤ b.id))) ∧
  (∀ a b : LEnt, (dec32 a.dist).isNan = false → (dec32 b.dist).isNan = true → entLe true false a b = true ∧ entLe true false b a = false) ∧
  (∀ a b : LEnt, (dec32 a.dist).isNan = true → (dec32 b.dist).isNan = true → (entLe true false a b = true ↔ a.id ≤ b.id)) ∧
  (Fv.lt (dec32 0x80000000) (dec32 0) = false ∧ Fv.lt (dec32 0) (dec32 0x80000000) = false) ∧
  (∀ d : Nat, (dec32 d).isNan = false → dec32 d ≠ dec32 0x7F800000 → Fv.lt (dec32 d) (dec32 0x7F800000) = true) ∧
  (∀ d : Nat, (dec32 d).isNan = false → dec32 d ≠ dec32 0xFF800000 → Fv.lt (dec32 0xFF800000) (dec32 d) = true) ∧
  (∀ (exact : Bool) (es : List LEnt),
    (ranked exact false es).Pairwise (fun a b => entLe exact false a b = true) ∧ ((ranked exact false es).map LEnt.id).Nodup ∧
    (∀ e ∈ ranked exact false es, e ∈ es) ∧
    (∀ x ∈ es, ∃ e ∈ ranked exact false es, e.id = x.id ∧ entLe exact false e x = true))

/-- In every state U is 50,067,904 tier pages of 2 MiB on the C variant and 100,135,808 on the X and S variants, and bytes 280 to 295 of Identify Controller
report U × 2 MiB: 105,000,005,009,408 and 210,000,010,018,816 bytes. -/
def Obligations.UserCapacityIsFixed : Prop :=
  (∀ s : State, s.variant = .c → userPages s.variant = 50067904 ∧ s.capacity = 105000005009408) ∧
  (∀ s : State, s.variant ≠ .c → userPages s.variant = 100135808 ∧ s.capacity = 210000010018816) ∧
  (∀ (s : State) (fn : Nat), ((s.idController fn).drop 280).take 16 = natLE s.capacity 16)

/-- The generator of R212 on 64-bit words: one step is the three shifts and exclusive-ors of the procedure; the seed is the task's seed exclusive-ored with k times the
multiplier, and the multiplier itself where that is 0; after n elements the values handed out are the top 16 bits of the n states that follow the seed, each at
most 65,535. -/
def Obligations.RoundingGeneratorIsXorshift : Prop :=
  (∀ x : BitVec 64, BitVec.ofNat 64 (lfsrStep x.toNat) =
    (let a := x ^^^ (x <<< 13); let b := a ^^^ (a >>> 7); b ^^^ (b <<< 17)) ∧ lfsrStep x.toNat < 2 ^ 64) ∧
  (∀ (x : BitVec 64) (k : Nat), BitVec.ofNat 64 (lfsrSeed x.toNat k) =
    (let y := x ^^^ (BitVec.ofNat 64 k * 0x9e3779b97f4a7c15#64); if y = 0 then 0x9e3779b97f4a7c15#64 else y)) ∧
  (∀ (n seed : Nat), seed < 2 ^ 64 → (lfsrRun n seed).1.length = n ∧ (lfsrRun n seed).2 = Nat.iterate lfsrStep n seed ∧
    (∀ j, j < n → (lfsrRun n seed).1[j]? = some (Nat.iterate lfsrStep (j + 1) seed / 2 ^ 48)) ∧ ∀ r ∈ (lfsrRun n seed).1, r ≤ 65535)

/-- A stream of a package that holds no superblock, or has filled the one it holds, opens the free superblock with the lowest erase count, and the lowest number
on a tie, after a flush where no flush has named it as the stream's successor; where no superblock is free it opens none; a superblock with room is kept. -/
def Obligations.SuperblocksOpenLeastWornFirst : Prop :=
  (∀ (s : State) (c stream b pos : Nat) (j : Bool), sget? s.ftl.openSb (4 * c + stream) = some (b, pos) → (s.locAt c b pos).isSome = true →
    s.openNext c stream j = some ((b, pos), s)) ∧
  (∀ (s : State) (c stream : Nat) (j : Bool), (∀ b pos, sget? s.ftl.openSb (4 * c + stream) = some (b, pos) → s.locAt c b pos = none) →
    (s.leastWorn c = none → s.openNext c stream j = none) ∧
    (∀ b, s.leastWorn c = some b → s.openNext c stream j =
      some ((b, 0), (if j && s.ftl.stale.contains (4 * c + stream) then s.flush else s).openSuper c stream b))) ∧
  (∀ (s : State) (c : Nat), s.leastWorn c = none ↔ ∀ b, b < 2208 → s.sbFree c b = false) ∧
  (∀ (s : State) (c b : Nat), s.leastWorn c = some b → b < 2208 ∧ s.sbFree c b = true ∧
    ∀ x, x < 2208 → s.sbFree c x = true →
      sget s.ftl.sbErase (sbKey c b) 0 < sget s.ftl.sbErase (sbKey c x) 0 ∨
      (sget s.ftl.sbErase (sbKey c b) 0 = sget s.ftl.sbErase (sbKey c x) 0 ∧ b ≤ x))

/-- With a command at the front of the queue, a step is that command's effect on the state with the queue's rest. -/
def Obligations.StepRunsTheFrontCommand : Prop :=
  ∀ (c : Instr) (rest : List Instr) (s : State),
    step { s with pending := c :: rest } = exec c { s with pending := rest }

/-- With no command waiting, a step answers the state one tick later, with the queue still empty. That an empty queue passes a tick is the model's choice
(log 4): the table has no row for a tick. -/
def Obligations.EmptyQueuePassesOneTick : Prop :=
  ∀ s : State, s.pending = [] → step s = .next s.passTick ∧ s.passTick.pending = [] ∧ (s.power.kettleUp = true → s.passTick.tick = s.tick + 1)

/-- In the state after reset the queue is empty, every field of every page holds the value its register table gives, and no memory lists a byte. Among the values:
VARIANT-independent identification, ENABLE 1 in the pages that have it, OWNER_CONTEXT 0xFE on the shared units, OP_REQUEST 4. -/
def Obligations.ResetHoldsTheTablesValues : Prop :=
  State.reset.pending = [] ∧
  (∀ (f : Field) (i : Nat), State.reset.fget f i = f.dflt i) ∧
  (∀ a : Nat, State.reset.tiers.hbm.read a = 0 ∧ State.reset.cp.sb.read a = 0 ∧ State.reset.host.mem.read a = 0) ∧
  State.reset.fget glob_OP_REQUEST 0 = 4 ∧ State.reset.fget (hdr_OWNER_CONTEXT 0x16) 0 = 0xFE ∧
  State.reset.fget (hdr_LOGICAL_INDEX 0x11) 16 = 0xFF ∧ State.reset.fget (hdr_LOGICAL_INDEX 0x11) 20 = 3

/-- In the state after reset the register store and every byte memory are in canonical form. -/
def Obligations.ResetIsCanonical : Prop := State.reset.Canon

/-- For every state in canonical form, with whatever commands waiting, a step answers a next state, and it is in canonical form: the keys of the register store and
the addresses of every byte memory strictly rise, and no byte is listed that its address would read as unlisted. The queue loses exactly its front, and
the variant is as before. -/
def Obligations.EveryStepKeepsCanonicalForm : Prop :=
  ∀ s : State, s.Canon → ∃ t, step s = .next t ∧ t.Canon ∧ t.pending = s.pending.tail ∧ t.variant = s.variant

/-- Every command of the table answers a next state, in every state and with every operand: none ends in a fault or a refusal. -/
def Obligations.EveryCommandCompletes : Prop := ∀ (c : Instr) (s : State), Completes c s

/-- After a host write of some bytes to a namespace, the newest bytes of every namespace are: within the range written the bytes written, everywhere else what they
were before, whatever was staged, mapped, retained for a domain or awaiting a program. Zeros written by a deallocation are such a write. -/
def Obligations.NamespaceBytesReadBackAsWritten : Prop :=
  ∀ (s : State) (ns off a ns' : Nat) (bs : List Byte) (zero : Bool), off + bs.length ≤ 2 ^ 54 → a < 2 ^ 54 →
    (s.nvmWrite ns off bs false zero).nvmRead ns' a 1 =
      if ns' = ns ∧ off ≤ a ∧ a < off + bs.length then [bs.getD (a - off) 0] else s.nvmRead ns' a 1

/-- After a range of a namespace is deallocated, its bytes read as zeros and every other byte of every namespace reads as before. -/
def Obligations.DeallocatedBytesReadZero : Prop :=
  ∀ (s : State) (ns off n a ns' : Nat), off + n ≤ 2 ^ 54 → a < 2 ^ 54 →
    (s.deallocate ns off n).nvmRead ns' a 1 = if ns' = ns ∧ off ≤ a ∧ a < off + n then [0] else s.nvmRead ns' a 1

/-- What the commands of power, reset, link and start-up leave unchanged. Each answers a next state, whatever the state and the operands; of the parts
of the state (the groups of registers, queues and units, and each byte memory) only those listed for it may differ from before, every other part,
and so every byte of a memory not listed, is as before; and canonical form is kept. -/
def Obligations.PowerLinkAndStartFrames : Prop :=
  (∀ (inp : StartInput) (s : State), Runs [.regs, .tick, .freeCount, .reg, .power, .arb, .kettle, .boot, .eflash, .host, .cp, .units, .tiers,
    .time, .ftl, .nand, .near, .snilo, .rel, .hbm, .sb, .hostMem, .image, .pages] s (exec (.powerOnStart inp) s)) ∧
  (∀ (s : State), Runs [.power] s (exec .inputSwitchClose s)) ∧
  (∀ (mv : Nat) (whole : Bool) (s : State), Runs [.regs, .freeCount, .reg, .power, .arb, .kettle, .boot, .host, .cp, .units, .tiers, .time, .ftl,
    .nand, .near, .snilo, .hbm, .sb, .hostMem, .image, .pages] s (exec (.prsntBOpen mv whole) s)) ∧
  (∀ (mv : Nat) (whole : Bool) (s : State), Runs [.regs, .freeCount, .reg, .power, .arb, .kettle, .boot, .host, .cp, .units, .tiers, .time, .ftl,
    .nand, .near, .snilo, .hbm, .sb, .hostMem, .image, .pages] s (exec (.brownOut mv whole) s)) ∧
  (∀ (mv : Nat) (whole : Bool) (s : State), Runs [.regs, .freeCount, .reg, .power, .arb, .kettle, .boot, .host, .cp, .units, .tiers, .time, .ftl,
    .nand, .near, .snilo, .hbm, .sb, .hostMem, .image, .pages] s (exec (.inputOverVoltage mv whole) s)) ∧
  (∀ (ma mv : Nat) (whole : Bool) (s : State), Runs [.regs, .freeCount, .reg, .power, .arb, .kettle, .boot, .host, .cp, .units, .tiers, .time,
    .ftl, .nand, .near, .snilo, .hbm, .sb, .hostMem, .image, .pages] s (exec (.inputOverCurrent ma mv whole) s)) ∧
  (∀ (mv : Nat) (bad fails : Bool) (s : State), Runs [.regs, .reg, .power, .kettle, .boot, .units, .tiers, .ftl, .near] s (exec (.brownOutRecovery
    mv bad fails) s)) ∧
  (∀ (s : State), Runs [.regs, .power, .kettle, .tiers] s (exec .holdUpBankExhausted s)) ∧
  (∀ (s : State), Runs [.regs, .power] s (exec .brownOutOpHoldExpiry s)) ∧
  (∀ (hot : Bool) (s : State), Runs [.regs, .freeCount, .reg, .power, .arb, .kettle, .boot, .host, .cp, .units, .tiers, .time, .ftl, .nand, .near,
    .snilo, .hbm, .sb, .hostMem, .image, .pages] s (exec (.perstAssert hot) s)) ∧
  (∀ (bad fails : Bool) (s : State), Runs [.regs, .reg, .power, .kettle, .boot, .units, .tiers, .ftl, .near] s (exec (.perstDeassert bad fails) s)) ∧
  (∀ (width rate : Nat) (s : State), Runs [.regs, .freeCount, .reg, .arb, .kettle, .host, .units, .time] s (exec (.pcieLinkTrained width rate) s)) ∧
  (∀ (lane : Nat) (eq : Bool) (s : State), Runs [.regs, .freeCount, .reg, .arb, .kettle, .eflash, .host, .units, .time] s (exec (.pcieLaneRetire
    lane eq) s)) ∧
  (∀ (ctx : Option (Nat × Nat × Nat)) (cmd : Option CmdId) (s : State), Runs [.regs, .freeCount, .reg, .arb, .kettle, .host, .cp, .units, .tiers,
    .ftl, .near, .hbm, .sb, .hostMem] s (exec (.pcieUncorrectableTlp ctx cmd) s)) ∧
  (∀ (fn : Nat) (crime wrr : Bool) (asqs acqs : Nat) (s : State), Runs [.host] s (exec (.controllerEnable fn crime wrr asqs acqs) s)) ∧
  (∀ (fn : Nat) (s : State), Runs [.regs, .freeCount, .reg, .power, .arb, .kettle, .boot, .host, .cp, .units, .tiers, .ftl, .near, .hbm, .sb,
    .hostMem, .image] s (exec (.controllerReset fn) s)) ∧
  (∀ (fn : Nat) (s : State), Runs [.regs, .freeCount, .reg, .arb, .kettle, .host, .cp, .units, .tiers, .ftl, .near, .hbm, .sb, .hostMem] s (exec
    (.shutdownNotification fn) s)) ∧
  (∀ (fn : Nat) (s : State), Runs [.regs, .freeCount, .reg, .arb, .kettle, .host, .cp, .units, .tiers, .ftl, .near, .hbm, .sb, .hostMem] s (exec
    (.functionLevelReset fn) s)) ∧
  (∀ (journal : Nat) (s : State), Runs [.regs, .freeCount, .reg, .arb, .kettle, .boot, .host, .units, .ftl] s (exec (.mediaReady journal) s)) ∧
  (∀ (op : Nat) (whole : Bool) (inp : StartInput) (s : State), Runs [.regs, .tick, .freeCount, .reg, .power, .arb, .kettle, .boot, .eflash, .host,
    .cp, .units, .tiers, .time, .ftl, .nand, .near, .snilo, .rel, .hbm, .sb, .hostMem, .image, .pages] s (exec (.watchdogExpiry op whole inp) s)) ∧
  (∀ (s : State), Runs [.boot] s (exec .watchdogKick s)) ∧
  (∀ (src : Nat) (s : State), Runs [.boot] s (exec (.heartbeatReport src) s)) ∧
  (∀ (bad fails : Bool) (s : State), Runs [.regs, .reg, .power, .kettle, .boot, .units, .tiers, .ftl, .near] s (exec (.thermalShutdownRelease bad
    fails) s)) ∧
  (∀ (inp : StartInput) (s : State), Runs [.regs, .tick, .freeCount, .reg, .power, .arb, .kettle, .boot, .eflash, .host, .cp, .units, .tiers,
    .time, .ftl, .nand, .near, .snilo, .rel, .hbm, .sb, .hostMem, .image, .pages] s (exec (.plannedKettleRestart inp) s)) ∧
  (∀ (lane : Nat) (s : State), Runs [.regs, .reg, .arb, .kettle, .host, .units, .rel] s (exec (.pcieLinkReplay lane) s)) ∧
  (∀ (what v : Nat) (fn : Nat) (s : State), Runs [.regs, .freeCount, .reg, .arb, .kettle, .host, .cp, .units, .tiers, .time, .ftl, .near, .hbm,
    .sb, .hostMem] s (exec (.pcieConfigurationWrite what v fn) s)) ∧
  (∀ (fn iv : Nat) (s : State), Runs [.reg, .kettle, .host, .units] s (exec (.interruptCoalescingTimeout fn iv) s))

/-- What the commands of modes and register pages leave unchanged. Each answers a next state, whatever the state and the operands; of the parts of the
state (the groups of registers, queues and units, and each byte memory) only those listed for it may differ from before, every other part, and so
every byte of a memory not listed, is as before; and canonical form is kept. -/
def Obligations.ModeAndPageFrames : Prop :=
  (∀ (v : Nat) (s : State), Runs [.regs, .power] s (exec (.opRequestWrite v) s)) ∧
  (∀ (v : Bool) (s : State), Runs [.regs, .power] s (exec (.boostAllowWrite v) s)) ∧
  (∀ (s : State), Runs [.regs, .reg, .power, .kettle] s (exec .rampComplete s)) ∧
  (∀ (s : State), Runs [.regs, .power] s (exec .op5ConditionFail s)) ∧
  (∀ (s : State), Runs [.regs, .power] s (exec .op5HoldExpiry s)) ∧
  (∀ (c inst n : Nat) (s : State), Runs [.regs, .reg, .arb, .kettle, .host, .units] s (exec (.rateWindowEnd c inst n) s)) ∧
  (∀ (c inst r info ctx : Nat) (whole : Bool) (s : State), Runs [.regs, .freeCount, .reg, .arb, .kettle, .host, .cp, .units, .tiers, .ftl, .near,
    .hbm, .sb, .hostMem] s (exec (.handshakeStall c inst r info ctx whole) s)) ∧
  (∀ (cp inst : Nat) (new : List (Nat × Nat × Nat)) (together : Bool) (s : State), Runs [.freeCount, .reg, .arb, .cp] s (exec (.arbiterGrant cp
    inst new together) s)) ∧
  (∀ (cp inst sl : Nat) (new : List (Nat × Nat × Nat)) (s : State), Runs [.regs, .reg, .arb, .kettle, .cp] s (exec (.lockstepSlot cp inst sl new) s)) ∧
  (∀ (v : Bool) (s : State), Runs [.regs] s (exec (.detModeRequestWrite v) s)) ∧
  (∀ (s : State), Runs [.regs, .reg, .arb, .kettle] s (exec .detModeToLockstep s)) ∧
  (∀ (s : State), Runs [.regs, .reg, .arb, .kettle] s (exec .detModeToFree s)) ∧
  (∀ (s : State), Runs [.regs, .arb] s (exec .arm s)) ∧
  (∀ (s : State), Runs [.regs, .arb] s (exec .lockstepArmTick s)) ∧
  (∀ (a size : Nat) (write : Bool) (s : State), Runs [.regs, .reg, .arb, .kettle, .units] s (exec (.badAccess a size write) s)) ∧
  (∀ (a v : Nat) (wide : Bool) (s : State), Runs [.regs, .freeCount, .reg, .arb, .kettle, .host, .units] s (exec (.registerWrite a v wide) s)) ∧
  (∀ (a : Nat) (wide : Bool) (s : State), Runs [.regs, .reg, .arb, .kettle, .host, .units] s (exec (.readLoLatch a wide) s)) ∧
  (∀ (a : Nat) (s : State), Runs [.regs, .reg, .arb, .kettle, .host, .units] s (exec (.readClear a) s)) ∧
  (∀ (a v : Nat) (s : State), Runs [.regs, .reg, .arb, .kettle, .units] s (exec (.pairHiWrite a v) s)) ∧
  (∀ (inst off : Nat) (s : State), Runs [.regs, .reg, .arb, .kettle, .host, .units, .rel] s (exec (.proxyReadTimeout inst off) s)) ∧
  (∀ (inst : Nat) (s : State), Runs [.regs, .reg, .arb, .kettle, .host, .units, .rel] s (exec (.proxyWriteDropped inst) s)) ∧
  (∀ (c inst : Nat) (v : Bool) (s : State), Runs [.regs, .reg, .arb, .kettle, .host, .units] s (exec (.enableWrite c inst v) s)) ∧
  (∀ (c inst : Nat) (v : Bool) (s : State), Runs [.regs, .reg, .arb, .kettle, .host, .units] s (exec (.drainWrite c inst v) s)) ∧
  (∀ (c inst : Nat) (s : State), Runs [.regs, .reg, .arb, .kettle, .host, .units, .ftl, .near] s (exec (.pageReset c inst) s)) ∧
  (∀ (c inst : Nat) (ok : Bool) (s : State), Runs [.regs, .reg, .arb, .kettle, .host, .cp, .units, .tiers, .ftl, .near, .hbm, .sb] s (exec
    (.unitStartComplete c inst ok) s)) ∧
  (∀ (c inst : Nat) (s : State), Runs [.regs, .reg, .arb, .kettle, .host, .units] s (exec (.startLimitExpiry c inst) s)) ∧
  (∀ (c inst : Nat) (s : State), Runs [.regs, .reg, .kettle, .units, .ftl, .near] s (exec (.drainComplete c inst) s)) ∧
  (∀ (c inst mask : Nat) (fv : Bool) (s : State), Runs [.regs] s (exec (.errStatusClear c inst mask fv) s)) ∧
  (∀ (c inst b info ctx : Nat) (s : State), Runs [.regs, .reg, .arb, .kettle, .host, .units] s (exec (.errorCapture c inst b info ctx) s)) ∧
  (∀ (c inst : Nat) (s : State), Runs [.regs, .reg, .arb, .kettle, .host, .units] s (exec (.injectGo c inst) s)) ∧
  (∀ (c inst : Nat) (s : State), Runs [.regs, .reg] s (exec (.snapshotTrigger c inst) s)) ∧
  (∀ (s : State), Runs [.regs, .reg] s (exec .globalSnapshotTrigger s)) ∧
  (∀ (s : State), Runs [.regs, .reg, .kettle] s (exec .snapshotCapture s)) ∧
  (∀ (v : Nat) (s : State), Runs [.regs, .freeCount, .reg, .arb, .kettle, .host, .units, .time] s (exec (.timeSourceRequestWrite v) s)) ∧
  (∀ (key : Nat) (s : State), Runs [.regs, .reg, .arb, .kettle, .host, .units] s (exec (.testModeEnter key) s)) ∧
  (∀ (s : State), Runs [.regs, .freeCount, .reg, .arb, .kettle, .host, .cp, .units, .tiers, .ftl, .near, .hbm, .sb, .hostMem] s (exec
    .testModeLeave s))

/-- What the commands of queues, administration and power states leave unchanged. Each answers a next state, whatever the state and the operands; of the
parts of the state (the groups of registers, queues and units, and each byte memory) only those listed for it may differ from before, every other
part, and so every byte of a memory not listed, is as before; and canonical form is kept. -/
def Obligations.QueueAdminAndPowerStateFrames : Prop :=
  (∀ (fn q tail : Nat) (s : State), Runs [.regs, .reg, .power, .kettle, .host, .units] s (exec (.sqDoorbell fn q tail) s)) ∧
  (∀ (fn q n : Nat) (s : State), Runs [.reg, .kettle, .host, .units] s (exec (.cqDoorbell fn q n) s)) ∧
  (∀ (cid : Nat) (slm : Bool) (s : State), Runs [.reg, .arb, .kettle, .host, .units] s (exec (.commandFetch cid slm) s)) ∧
  (∀ (k : Nat) (s : State), Runs [.regs, .reg, .arb, .kettle, .host, .units] s (exec (.overloadRaise k) s)) ∧
  (∀ (k : Nat) (s : State), Runs [.regs, .reg, .arb, .kettle, .host, .units] s (exec (.overloadClear k) s)) ∧
  (∀ (cmd : CmdId) (cns nsid : Nat) (s : State), Runs [.reg, .arb, .kettle, .host, .units] s (exec (.identify cmd cns nsid) s)) ∧
  (∀ (cmd : CmdId) (lid lsi lsp off n : Nat) (rae : Bool) (s : State), Runs [.reg, .arb, .kettle, .host, .cp, .units] s (exec (.getLogPage cmd lid
    lsi lsp off n rae) s)) ∧
  (∀ (cmd : CmdId) (off n : Nat) (s : State), Runs [.reg, .arb, .kettle, .host, .units] s (exec (.floorRatioOpenInterval cmd off n) s)) ∧
  (∀ (cmd : CmdId) (off n : Nat) (s : State), Runs [.reg, .arb, .kettle, .host, .units] s (exec (.floorRatioCloseInterval cmd off n) s)) ∧
  (∀ (cmd : CmdId) (fid cdw11 : Nat) (s : State), Runs [.reg, .arb, .kettle, .host, .units] s (exec (.getFeatures cmd fid cdw11) s)) ∧
  (∀ (cmd : CmdId) (fid cdw11 : Nat) (data : List Byte) (s : State), Runs [.reg, .arb, .kettle, .host, .units] s (exec (.setFeatures cmd fid cdw11
    data) s)) ∧
  (∀ (cmd : CmdId) (ps : Nat) (s : State), Runs [.regs, .reg, .power, .arb, .kettle, .host, .units] s (exec (.setFeaturesPowerManagement cmd ps) s)) ∧
  (∀ (cmd : CmdId) (vf quota : Nat) (s : State), Runs [.reg, .arb, .kettle, .host, .units] s (exec (.setFeaturesContextQuota cmd vf quota) s)) ∧
  (∀ (cmd : CmdId) (q size cq prio : Nat) (compute : Bool) (ctx low : Nat) (s : State), Runs [.reg, .arb, .kettle, .host, .cp, .units] s (exec
    (.createIoSq cmd q size cq prio compute ctx low) s)) ∧
  (∀ (cmd : CmdId) (q size : Nat) (ien : Bool) (iv : Nat) (s : State), Runs [.reg, .arb, .kettle, .host, .units] s (exec (.createIoCq cmd q size
    ien iv) s)) ∧
  (∀ (cmd : CmdId) (q : Nat) (s : State), Runs [.reg, .arb, .kettle, .host, .units] s (exec (.deleteIoSq cmd q) s)) ∧
  (∀ (cmd : CmdId) (q : Nat) (s : State), Runs [.reg, .arb, .kettle, .host, .units] s (exec (.deleteIoCq cmd q) s)) ∧
  (∀ (cmd : CmdId) (sqid cid : Nat) (s : State), Runs [.regs, .reg, .arb, .kettle, .host, .cp, .units] s (exec (.abort cmd sqid cid) s)) ∧
  (∀ (cmd : CmdId) (s : State), Runs [.regs, .reg, .arb, .kettle, .host, .cp, .units] s (exec (.abortTimeout cmd) s)) ∧
  (∀ (cmd : CmdId) (s : State), Runs [.reg, .arb, .kettle, .host, .units] s (exec (.asyncEventRequest cmd) s)) ∧
  (∀ (fn type info : Nat) (s : State), Runs [.reg, .arb, .kettle, .host, .units] s (exec (.asyncEventPost fn type info) s)) ∧
  (∀ (cmd : CmdId) (r : MiRequest) (s : State), Runs [.reg, .arb, .kettle, .host, .units] s (exec (.nvmeMiSend cmd r) s)) ∧
  (∀ (cmd : CmdId) (n : Nat) (s : State), Runs [.reg, .arb, .kettle, .host, .units] s (exec (.nvmeMiReceive cmd n) s)) ∧
  (∀ (cmd : CmdId) (c : Nat) (discard : Bool) (s : State), Runs [.reg, .arb, .kettle, .host, .cp, .units] s (exec (.resumeContext cmd c discard) s)) ∧
  (∀ (cmd : CmdId) (c : Nat) (s : State), Runs [.regs, .freeCount, .reg, .arb, .kettle, .host, .cp, .units, .tiers, .near, .hbm, .sb, .hostMem] s
    (exec (.tearDownContext cmd c) s)) ∧
  (∀ (cmd : CmdId) (s : State), Runs [.reg, .arb, .kettle, .host, .units] s (exec (.timeQuery cmd) s)) ∧
  (∀ (cmd : CmdId) (s : State), Runs [.reg, .arb, .kettle, .host, .units] s (exec (.adminUnsupported cmd) s)) ∧
  (∀ (cmd : CmdId) (nsid cdw10 cdw11 limit cdw13 : Nat) (dptr : List (Nat × Nat)) (s : State), Runs [.regs, .reg, .arb, .kettle, .host, .cp,
    .units] s (exec (.executeProgram cmd nsid cdw10 cdw11 limit cdw13 dptr) s)) ∧
  (∀ (cmd : CmdId) (nsid slot off : Nat) (data : List Byte) (s : State), Runs [.regs, .reg, .arb, .kettle, .host, .cp, .units] s (exec
    (.loadProgram cmd nsid slot off data) s)) ∧
  (∀ (cmd : CmdId) (nsid slot : Nat) (on : Bool) (s : State), Runs [.regs, .reg, .arb, .kettle, .host, .cp, .units] s (exec
    (.programActivationManagement cmd nsid slot on) s)) ∧
  (∀ (cmd : CmdId) (nsid set : Nat) (rs : List (Nat × Nat × Nat)) (s : State), Runs [.regs, .reg, .arb, .kettle, .host, .cp, .units] s (exec
    (.memoryRangeSetManagement cmd nsid set rs) s)) ∧
  (∀ (s : State), Runs [.regs, .reg, .power, .kettle, .host] s (exec .apstIdleExpiry s)) ∧
  (∀ (s : State), Runs [.regs, .arb, .host] s (exec .psEntryStart s)) ∧
  (∀ (s : State), Runs [.regs, .freeCount, .reg, .power, .arb, .kettle, .host, .units, .tiers, .time, .ftl, .near] s (exec .psEntryComplete s)) ∧
  (∀ (s : State), Runs [.regs, .reg, .power, .kettle, .host] s (exec .psExitComplete s))

/-- What the commands of NVM, SLM, namespace and security commands leave unchanged. Each answers a next state, whatever the state and the operands; of
the parts of the state (the groups of registers, queues and units, and each byte memory) only those listed for it may differ from before, every
other part, and so every byte of a memory not listed, is as before; and canonical form is kept. -/
def Obligations.NvmAndNamespaceFrames : Prop :=
  (∀ (s : State), Runs [.regs, .reg, .arb, .kettle, .eflash, .host, .units, .ftl] s (exec .mediaReadOnlyEntry s)) ∧
  (∀ (cmd : CmdId) (create slm : Bool) (nsid size lbaf pset : Nat) (s : State), Runs [.regs, .freeCount, .reg, .arb, .kettle, .host, .cp, .units,
    .tiers, .ftl, .near, .hbm, .sb, .hostMem] s (exec (.namespaceManagement cmd create slm nsid size lbaf pset) s)) ∧
  (∀ (cmd : CmdId) (nsid : Nat) (attach : Bool) (fns : List Nat) (s : State), Runs [.regs, .freeCount, .reg, .arb, .kettle, .host, .units, .tiers,
    .ftl] s (exec (.namespaceAttachment cmd nsid attach fns) s)) ∧
  (∀ (cmd : CmdId) (nsid lbaf ses : Nat) (s : State), Runs [.regs, .freeCount, .reg, .arb, .kettle, .host, .cp, .units, .tiers, .ftl, .near, .hbm,
    .sb, .hostMem] s (exec (.formatNvm cmd nsid lbaf ses) s)) ∧
  (∀ (cmd : CmdId) (action pattern : Nat) (noDealloc : Bool) (s : State), Runs [.regs, .freeCount, .reg, .arb, .kettle, .eflash, .host, .cp,
    .units, .tiers, .ftl, .near, .hbm, .sb, .hostMem] s (exec (.sanitize cmd action pattern noDealloc) s)) ∧
  (∀ (s : State), Runs [.regs, .freeCount, .reg, .ftl] s (exec .sanitizeProgress s)) ∧
  (∀ (s : State), Runs [.regs, .freeCount, .reg, .arb, .kettle, .eflash, .host, .units, .tiers, .ftl, .nand, .pages] s (exec .sanitizeComplete s)) ∧
  (∀ (info : Nat) (s : State), Runs [.regs, .reg, .arb, .kettle, .eflash, .host, .units] s (exec (.sanitizeFail info) s)) ∧
  (∀ (cmd : CmdId) (proto : Nat) (m : OpalMethod) (auth : Bool) (data : List Byte) (s : State), Runs [.regs, .freeCount, .reg, .arb, .kettle,
    .host, .units, .tiers, .ftl] s (exec (.securitySend cmd proto m auth data) s)) ∧
  (∀ (cmd : CmdId) (proto : Nat) (s : State), Runs [.reg, .arb, .kettle, .host, .units, .ftl] s (exec (.securityReceive cmd proto) s)) ∧
  (∀ (cmd : CmdId) (id c : Nat) (data : List Byte) (s : State), Runs [.reg, .arb, .kettle, .host, .units, .ftl, .near] s (exec
    (.collectionDescriptorSet cmd id c data) s)) ∧
  (∀ (cmd : CmdId) (id : Nat) (s : State), Runs [.reg, .arb, .kettle, .host, .units] s (exec (.collectionDescriptorGet cmd id) s)) ∧
  (∀ (cmd : CmdId) (ns slba nlb : Nat) (lr hard : Bool) (s : State), Runs [.regs, .reg, .arb, .kettle, .host, .cp, .units, .tiers] s (exec
    (.nvmRead cmd ns slba nlb lr hard) s)) ∧
  (∀ (cmd : CmdId) (ns slba : Nat) (data : List Byte) (s : State), Runs [.regs, .reg, .arb, .kettle, .host, .cp, .units, .tiers, .ftl] s (exec
    (.nvmWrite cmd ns slba data) s)) ∧
  (∀ (cmd : CmdId) (ns : Nat) (s : State), Runs [.regs, .reg, .arb, .kettle, .host, .cp, .units] s (exec (.nvmFlush cmd ns) s)) ∧
  (∀ (cmd : CmdId) (ns slba nlb : Nat) (s : State), Runs [.regs, .freeCount, .reg, .arb, .kettle, .host, .cp, .units, .tiers, .ftl] s (exec
    (.nvmWriteZeroes cmd ns slba nlb) s)) ∧
  (∀ (cmd : CmdId) (ns : Nat) (ad : Bool) (rs : List (Nat × Nat)) (s : State), Runs [.regs, .freeCount, .reg, .arb, .kettle, .host, .cp, .units,
    .tiers, .ftl] s (exec (.datasetManagementDeallocate cmd ns ad rs) s)) ∧
  (∀ (cmd : CmdId) (ns slba : Nat) (data : List Byte) (lr hard : Bool) (s : State), Runs [.regs, .reg, .arb, .kettle, .host, .cp, .units] s (exec
    (.nvmCompare cmd ns slba data lr hard) s)) ∧
  (∀ (cmd : CmdId) (ns slba nlb : Nat) (lr hard : Bool) (s : State), Runs [.regs, .reg, .arb, .kettle, .host, .cp, .units] s (exec (.nvmVerify cmd
    ns slba nlb lr hard) s)) ∧
  (∀ (cmd : CmdId) (ns off n : Nat) (s : State), Runs [.regs, .reg, .arb, .kettle, .host, .cp, .units, .tiers] s (exec (.slmRead cmd ns off n) s)) ∧
  (∀ (cmd : CmdId) (ns off : Nat) (data : List Byte) (s : State), Runs [.regs, .reg, .arb, .kettle, .host, .cp, .units, .tiers, .hbm] s (exec
    (.slmWrite cmd ns off data) s))

/-- What the commands of firmware updates leave unchanged. Each answers a next state, whatever the state and the operands; of the parts of the state
(the groups of registers, queues and units, and each byte memory) only those listed for it may differ from before, every other part, and so every
byte of a memory not listed, is as before; and canonical form is kept. -/
def Obligations.FirmwareFrames : Prop :=
  (∀ (cmd : CmdId) (off : Nat) (data : List Byte) (s : State), Runs [.regs, .reg, .arb, .kettle, .boot, .host, .units, .image] s (exec
    (.firmwareImageDownload cmd off data) s)) ∧
  (∀ (cmd : CmdId) (fs : Nat) (whole : Bool) (s : State), Runs [.regs, .reg, .arb, .kettle, .boot, .eflash, .host, .cp, .units, .image] s (exec
    (.firmwareCommitWrite cmd fs whole) s)) ∧
  (∀ (cmd : CmdId) (fs : Nat) (whole : Bool) (s : State), Runs [.regs, .reg, .arb, .kettle, .boot, .eflash, .host, .cp, .units, .image] s (exec
    (.firmwareCommitWriteActivate cmd fs whole) s)) ∧
  (∀ (cmd : CmdId) (fs : Nat) (s : State), Runs [.regs, .reg, .arb, .kettle, .boot, .host, .units] s (exec (.firmwareCommitActivate cmd fs) s)) ∧
  (∀ (cmd : CmdId) (ca : Nat) (s : State), Runs [.regs, .reg, .arb, .kettle, .boot, .eflash, .host, .cp, .units, .image] s (exec
    (.keyPackageCommit cmd ca) s)) ∧
  (∀ (eid : Nat) (s : State), Runs [.kettle] s (exec (.mctpSetEndpointId eid) s)) ∧
  (∀ (t : Transport) (r : MiRequest) (s : State), Runs [.reg, .arb, .kettle] s (exec (.nvmeMiRequest t r) s)) ∧
  (∀ (t : Transport) (r : PldmRequest) (s : State), Runs [.kettle] s (exec (.pldmPlatformRequest t r) s)) ∧
  (∀ (s : State), Runs [.regs, .kettle] s (exec .pldmRequestUpdate s)) ∧
  (∀ (comp : Nat) (s : State), Runs [.regs, .kettle, .boot, .image] s (exec (.pldmUpdateComponent comp) s)) ∧
  (∀ (off : Nat) (data : List Byte) (whole : Bool) (s : State), Runs [.regs, .boot, .image] s (exec (.pldmFirmwareData off data whole) s)) ∧
  (∀ (now : Bool) (s : State), Runs [.regs, .kettle, .boot] s (exec (.pldmActivateFirmware now) s)) ∧
  (∀ (s : State), Runs [.regs, .kettle, .boot, .image] s (exec .pldmCancelUpdate s))

/-- What the commands of contexts, tasks and control descriptors leave unchanged. Each answers a next state, whatever the state and the operands; of the
parts of the state (the groups of registers, queues and units, and each byte memory) only those listed for it may differ from before, every other
part, and so every byte of a memory not listed, is as before; and canonical form is kept. -/
def Obligations.ContextAndTaskFrames : Prop :=
  (∀ (c : Nat) (s : State), Runs [.regs, .freeCount, .reg, .arb, .kettle, .host, .cp, .units, .tiers, .ftl, .near, .hbm, .sb, .hostMem] s (exec
    (.taskStart c) s)) ∧
  (∀ (c : Nat) (s : State), Runs [.regs, .freeCount, .reg, .arb, .kettle, .host, .cp, .units, .tiers, .ftl, .near, .hbm, .sb, .hostMem] s (exec
    (.taskEnd c) s)) ∧
  (∀ (c h code idx case ucls uinst : Nat) (s : State), Runs [.regs, .freeCount, .reg, .arb, .kettle, .host, .cp, .units, .tiers, .ftl, .near,
    .hbm, .sb, .hostMem] s (exec (.taskFault c h code idx case ucls uinst) s)) ∧
  (∀ (c : Nat) (s : State), Runs [.regs, .freeCount, .reg, .arb, .kettle, .host, .cp, .units, .tiers, .ftl, .near, .hbm, .sb, .hostMem] s (exec
    (.taskTimeout c) s)) ∧
  (∀ (c h : Nat) (s : State), Runs [.regs, .freeCount, .reg, .arb, .kettle, .host, .cp, .units, .tiers, .ftl, .near, .hbm, .sb, .hostMem] s (exec
    (.barrier c h) s)) ∧
  (∀ (c h : Nat) (s : State), Runs [.cp] s (exec (.barrierRelease c h) s)) ∧
  (∀ (c h : Nat) (s : State), Runs [.regs, .freeCount, .reg, .arb, .kettle, .host, .cp, .units, .tiers, .ftl, .near, .hbm, .sb, .hostMem] s (exec
    (.semWait c h) s)) ∧
  (∀ (c h : Nat) (s : State), Runs [.cp] s (exec (.semWaitSatisfied c h) s)) ∧
  (∀ (c h : Nat) (s : State), Runs [.regs, .freeCount, .reg, .arb, .kettle, .host, .cp, .units, .tiers, .ftl, .near, .hbm, .sb, .hostMem] s (exec
    (.semSignal c h) s)) ∧
  (∀ (c h inst : Nat) (s : State), Runs [.regs, .freeCount, .reg, .arb, .kettle, .host, .cp, .units, .tiers, .ftl, .near, .hbm, .sb, .hostMem] s
    (exec (.semSignalEffect c h inst) s)) ∧
  (∀ (c h : Nat) (s : State), Runs [.regs, .freeCount, .reg, .arb, .kettle, .host, .cp, .units, .tiers, .ftl, .near, .hbm, .sb, .hostMem] s (exec
    (.yield c h) s)) ∧
  (∀ (c : Nat) (s : State), Runs [.regs, .freeCount, .reg, .arb, .kettle, .host, .cp, .units, .tiers, .ftl, .near, .hbm, .sb, .hostMem] s (exec
    (.yieldDrained c) s)) ∧
  (∀ (c h : Nat) (s : State), Runs [.regs, .freeCount, .reg, .arb, .kettle, .host, .cp, .units, .tiers, .ftl, .near, .hbm, .sb, .hostMem] s (exec
    (.repeat c h) s)) ∧
  (∀ (c : Nat) (s : State), Runs [.regs, .freeCount, .reg, .arb, .kettle, .host, .cp, .units, .tiers, .ftl, .near, .hbm, .sb, .hostMem] s (exec
    (.batchStep c) s)) ∧
  (∀ (v : Nat) (s : State), Runs [.regs, .reg, .arb, .kettle, .host, .cp, .units, .tiers, .hbm, .hostMem] s (exec (.createContext v) s)) ∧
  (∀ (v : Nat) (s : State), Runs [.regs, .freeCount, .reg, .arb, .kettle, .host, .cp, .units, .tiers, .near, .hbm, .sb, .hostMem] s (exec
    (.cmdTearDown v) s)) ∧
  (∀ (v : Nat) (force : Bool) (s : State), Runs [.regs, .reg, .arb, .kettle, .host, .cp, .units] s (exec (.cmdPreempt v force) s)) ∧
  (∀ (v : Nat) (s : State), Runs [.regs, .reg, .arb, .kettle, .host, .cp, .units] s (exec (.cmdSetPolicy v) s)) ∧
  (∀ (c : Nat) (s : State), Runs [.regs, .arb, .cp, .units] s (exec (.contextLoad c) s)) ∧
  (∀ (c : Nat) (s : State), Runs [.cp] s (exec (.preemptDecision c) s)) ∧
  (∀ (c : Nat) (s : State), Runs [.cp] s (exec (.forceAfterExpiry c) s)) ∧
  (∀ (c : Nat) (s : State), Runs [.regs, .reg, .arb, .kettle, .cp, .units, .snilo] s (exec (.forcedPreempt c) s)) ∧
  (∀ (c : Nat) (s : State), Runs [.regs, .freeCount, .reg, .arb, .kettle, .host, .cp, .units, .tiers, .ftl, .near, .hbm, .sb, .hostMem] s (exec
    (.contextSaveComplete c) s)) ∧
  (∀ (c : Nat) (s : State), Runs [.regs, .freeCount, .reg, .arb, .kettle, .host, .cp, .units, .tiers, .ftl, .near, .hbm, .sb, .hostMem] s (exec
    (.contextRestore c) s)) ∧
  (∀ (c : Nat) (s : State), Runs [.regs, .freeCount, .reg, .arb, .kettle, .host, .cp, .units, .tiers, .ftl, .near, .hbm, .sb, .hostMem] s (exec
    (.contextRestoreComplete c) s))

/-- What the commands of Griddles, Drains, Ladles and Whisks leave unchanged. Each answers a next state, whatever the state and the operands; of the
parts of the state (the groups of registers, queues and units, and each byte memory) only those listed for it may differ from before, every other
part, and so every byte of a memory not listed, is as before; and canonical form is kept. -/
def Obligations.ComputeAndMovementFrames : Prop :=
  (∀ (c h : Nat) (s : State), Runs [.regs, .freeCount, .reg, .arb, .kettle, .host, .cp, .units, .tiers, .ftl, .near, .hbm, .sb, .hostMem] s (exec
    (.griddleMm c h) s)) ∧
  (∀ (inst r : Nat) (s : State), Runs [.regs, .freeCount, .reg, .arb, .kettle, .host, .cp, .units, .tiers, .ftl, .near, .hbm, .sb, .hostMem] s
    (exec (.griddlePassComplete inst r) s)) ∧
  (∀ (inst r kind info : Nat) (whole : Bool) (s : State), Runs [.regs, .freeCount, .reg, .arb, .kettle, .host, .cp, .units, .tiers, .ftl, .near,
    .hbm, .sb, .hostMem] s (exec (.griddleCheckError inst r kind info whole) s)) ∧
  (∀ (inst r port : Nat) (s : State), Runs [.regs, .freeCount, .reg, .arb, .kettle, .host, .cp, .units, .tiers, .ftl, .near, .hbm, .sb, .hostMem]
    s (exec (.streamMismatch inst r port) s)) ∧
  (∀ (inst r : Nat) (s : State), Runs [.regs, .units] s (exec (.griddleSelfCheck inst r) s)) ∧
  (∀ (inst outcome row col : Nat) (s : State), Runs [.regs, .reg, .arb, .kettle, .host, .units] s (exec (.griddleSelfCheckDone inst outcome row
    col) s)) ∧
  (∀ (inst : Nat) (s : State), Runs [.regs, .reg, .arb, .kettle, .host, .units] s (exec (.selfCheckGo inst) s)) ∧
  (∀ (inst : Nat) (s : State), Runs [.regs, .reg, .arb, .kettle, .eflash, .host, .units] s (exec (.spareRowCommit inst) s)) ∧
  (∀ (inst : Nat) (s : State), Runs [.regs, .reg, .arb, .kettle, .eflash, .host, .units] s (exec (.griddleRetire inst) s)) ∧
  (∀ (c h : Nat) (s : State), Runs [.regs, .freeCount, .reg, .arb, .kettle, .host, .cp, .units, .tiers, .ftl, .near, .hbm, .sb, .hostMem] s (exec
    (.drainCfg c h) s)) ∧
  (∀ (inst r : Nat) (s : State), Runs [.regs, .freeCount, .reg, .arb, .kettle, .host, .cp, .units, .tiers, .ftl, .near, .hbm, .sb, .hostMem] s
    (exec (.drainTableLoadDone inst r) s)) ∧
  (∀ (inst r : Nat) (s : State), Runs [.regs, .units] s (exec (.drainTileStart inst r) s)) ∧
  (∀ (inst r : Nat) (s : State), Runs [.regs, .freeCount, .reg, .arb, .kettle, .host, .cp, .units, .tiers, .ftl, .near, .rel, .hbm, .sb, .hostMem]
    s (exec (.drainTileComplete inst r) s)) ∧
  (∀ (inst r kind pos : Nat) (whole : Bool) (s : State), Runs [.regs, .freeCount, .reg, .arb, .kettle, .host, .cp, .units, .tiers, .ftl, .near,
    .hbm, .sb, .hostMem] s (exec (.drainError inst r kind pos whole) s)) ∧
  (∀ (c h : Nat) (s : State), Runs [.regs, .freeCount, .reg, .arb, .kettle, .host, .cp, .units, .tiers, .ftl, .near, .hbm, .sb, .hostMem] s (exec
    (.ladleMove c h) s)) ∧
  (∀ (ch : Nat) (s : State), Runs [.regs, .freeCount, .reg, .arb, .kettle, .host, .cp, .units, .tiers, .ftl, .near, .snilo, .hbm, .sb, .hostMem] s
    (exec (.ladleMoveStart ch) s)) ∧
  (∀ (ch : Nat) (s : State), Runs [.regs, .freeCount, .reg, .arb, .kettle, .eflash, .host, .cp, .units, .tiers, .ftl, .near, .snilo, .rel, .hbm,
    .sb, .hostMem] s (exec (.ladleMoveComplete ch) s)) ∧
  (∀ (ch addr : Nat) (staging : Bool) (s : State), Runs [.regs, .freeCount, .reg, .arb, .kettle, .host, .cp, .units, .tiers, .ftl, .near, .rel,
    .hbm, .sb, .hostMem] s (exec (.ladleHalt ch addr staging) s)) ∧
  (∀ (h a : Nat) (double : Bool) (user ch : Nat) (s : State), Runs [.regs, .freeCount, .reg, .arb, .kettle, .eflash, .host, .cp, .units, .tiers,
    .ftl, .near, .hbm, .sb, .hostMem] s (exec (.sbReadError h a double user ch) s)) ∧
  (∀ (c h : Nat) (s : State), Runs [.regs, .freeCount, .reg, .arb, .kettle, .host, .cp, .units, .tiers, .ftl, .near, .hbm, .sb, .hostMem] s (exec
    (.whisk c h) s)) ∧
  (∀ (inst kind info : Nat) (s : State), Runs [.regs, .freeCount, .reg, .arb, .kettle, .host, .cp, .units, .tiers, .ftl, .near, .rel, .hbm, .sb,
    .hostMem] s (exec (.whiskCheckError inst kind info) s))

/-- What the commands of HBM, placement, the PUU, near-flash work and vector search leave unchanged. Each answers a next state, whatever the state and
the operands; of the parts of the state (the groups of registers, queues and units, and each byte memory) only those listed for it may differ from
before, every other part, and so every byte of a memory not listed, is as before; and canonical form is kept. -/
def Obligations.TierUpdateAndSearchFrames : Prop :=
  (∀ (k a outcome : Nat) (parity : Bool) (user n : Nat) (cmd : CmdId) (s : State), Runs [.regs, .freeCount, .reg, .arb, .kettle, .eflash, .host,
    .cp, .units, .tiers, .ftl, .near, .rel, .hbm, .sb, .hostMem] s (exec (.hbmReadError k a outcome parity user n cmd) s)) ∧
  (∀ (t : Nat) (bankLeft : Bool) (s : State), Runs [.regs, .reg, .arb, .kettle, .eflash, .host, .units, .tiers] s (exec (.hbmRowRepair t bankLeft) s)) ∧
  (∀ (k p : Nat) (train : Bool) (s : State), Runs [.regs, .reg, .arb, .kettle, .eflash, .host, .units, .tiers] s (exec (.hbmPseudoChannelRetire k
    p train) s)) ∧
  (∀ (s : State), Runs [.tiers] s (exec .heatDecay s)) ∧
  (∀ (s : State), Runs [.regs, .tiers, .hbm] s (exec .placementPeriod s)) ∧
  (∀ (tk : Nat) (s : State), Runs [.regs, .reg, .kettle, .tiers] s (exec (.placementCopyComplete tk) s)) ∧
  (∀ (ch page : Nat) (s : State), Runs [.regs, .freeCount, .reg, .arb, .kettle, .host, .cp, .units, .tiers, .ftl, .near, .hbm, .sb, .hostMem] s
    (exec (.windowPageReady ch page) s)) ∧
  (∀ (c h : Nat) (s : State), Runs [.regs, .freeCount, .reg, .arb, .kettle, .host, .cp, .units, .tiers, .ftl, .near, .hbm, .sb, .hostMem] s (exec
    (.puuStep c h) s)) ∧
  (∀ (h : Nat) (s : State), Runs [.regs, .freeCount, .reg, .arb, .kettle, .host, .cp, .units, .tiers, .ftl, .near, .rel, .hbm, .sb, .hostMem] s
    (exec (.puuStepComplete h) s)) ∧
  (∀ (h kind e : Nat) (inB : Bool) (pos : Nat) (s : State), Runs [.regs, .freeCount, .reg, .arb, .kettle, .host, .cp, .units, .tiers, .ftl, .near,
    .rel, .hbm, .sb, .hostMem] s (exec (.puuStepFault h kind e inB pos) s)) ∧
  (∀ (h : Nat) (s : State), Runs [.regs, .reg, .arb, .kettle, .host, .units] s (exec (.puuSelfTestGo h) s)) ∧
  (∀ (h us : Nat) (ok : Bool) (s : State), Runs [.regs, .reg, .arb, .kettle, .eflash, .host, .units] s (exec (.puuSelfTestDone h us ok) s)) ∧
  (∀ (c h : Nat) (s : State), Runs [.regs, .freeCount, .reg, .arb, .kettle, .host, .cp, .units, .tiers, .ftl, .near, .hbm, .sb, .hostMem] s (exec
    (.filterLoad c h) s)) ∧
  (∀ (c h : Nat) (s : State), Runs [.regs, .freeCount, .reg, .arb, .kettle, .host, .cp, .units, .tiers, .ftl, .near, .hbm, .sb, .hostMem] s (exec
    (.filterCount c h) s)) ∧
  (∀ (c h : Nat) (s : State), Runs [.regs, .freeCount, .reg, .arb, .kettle, .host, .cp, .units, .tiers, .ftl, .near, .hbm, .sb, .hostMem] s (exec
    (.filterBitmap c h) s)) ∧
  (∀ (c h : Nat) (s : State), Runs [.regs, .freeCount, .reg, .arb, .kettle, .host, .cp, .units, .tiers, .ftl, .near, .hbm, .sb, .hostMem] s (exec
    (.filterGather c h) s)) ∧
  (∀ (c h : Nat) (s : State), Runs [.regs, .freeCount, .reg, .arb, .kettle, .host, .cp, .units, .tiers, .ftl, .near, .hbm, .sb, .hostMem] s (exec
    (.skimScanLoadTables c h) s)) ∧
  (∀ (c h : Nat) (s : State), Runs [.regs, .freeCount, .reg, .arb, .kettle, .host, .cp, .units, .tiers, .ftl, .near, .hbm, .sb, .hostMem] s (exec
    (.skimScanScan c h) s)) ∧
  (∀ (c h inst : Nat) (s : State), Runs [.regs, .freeCount, .reg, .arb, .kettle, .eflash, .host, .cp, .units, .tiers, .ftl, .near, .rel, .hbm,
    .sb, .hostMem] s (exec (.colanderDescriptorComplete c h inst) s)) ∧
  (∀ (c h inst kind col info : Nat) (s : State), Runs [.regs, .freeCount, .reg, .arb, .kettle, .eflash, .host, .cp, .units, .tiers, .ftl, .near,
    .rel, .hbm, .sb, .hostMem] s (exec (.colanderRunFault c h inst kind col info) s)) ∧
  (∀ (c h : Nat) (s : State), Runs [.regs, .freeCount, .reg, .arb, .kettle, .host, .cp, .units, .tiers, .ftl, .near, .hbm, .sb, .hostMem] s (exec
    (.skimMergeTables c h) s)) ∧
  (∀ (c h : Nat) (s : State), Runs [.regs, .freeCount, .reg, .arb, .kettle, .host, .cp, .units, .tiers, .ftl, .near, .hbm, .sb, .hostMem] s (exec
    (.skimMergeMerge c h) s)) ∧
  (∀ (c h : Nat) (s : State), Runs [.regs, .freeCount, .reg, .arb, .kettle, .host, .cp, .units, .tiers, .ftl, .near, .hbm, .sb, .hostMem] s (exec
    (.skimMergeExpand c h) s)) ∧
  (∀ (c h : Nat) (s : State), Runs [.regs, .freeCount, .reg, .arb, .kettle, .host, .cp, .units, .tiers, .ftl, .near, .hbm, .sb, .hostMem] s (exec
    (.skimMergeRerank c h) s)) ∧
  (∀ (c h : Nat) (s : State), Runs [.regs, .freeCount, .reg, .arb, .kettle, .host, .cp, .units, .tiers, .ftl, .near, .hbm, .sb, .hostMem] s (exec
    (.skimMergeRescan c h) s)) ∧
  (∀ (c h : Nat) (s : State), Runs [.regs, .freeCount, .reg, .arb, .kettle, .host, .cp, .units, .tiers, .ftl, .near, .hbm, .sb, .hostMem] s (exec
    (.skimMergeFetch c h) s)) ∧
  (∀ (c h inst check : Nat) (s : State), Runs [.regs, .freeCount, .reg, .arb, .kettle, .host, .cp, .units, .tiers, .ftl, .near, .rel, .hbm, .sb,
    .hostMem] s (exec (.skimMergeComplete c h inst check) s)) ∧
  (∀ (c h : Nat) (s : State), Runs [.regs, .freeCount, .reg, .arb, .kettle, .host, .cp, .units, .tiers, .ftl, .near, .hbm, .sb, .hostMem] s (exec
    (.epochAdvance c h) s))

/-- What the commands of the flash command path and translation leave unchanged. Each answers a next state, whatever the state and the operands; of the
parts of the state (the groups of registers, queues and units, and each byte memory) only those listed for it may differ from before, every other
part, and so every byte of a memory not listed, is as before; and canonical form is kept. -/
def Obligations.FlashAndTranslationFrames : Prop :=
  (∀ (c np : Nat) (done : Bool) (s : State), Runs [.regs, .freeCount, .reg, .arb, .kettle, .host, .units, .ftl, .nand, .pages] s (exec
    (.flashProgram c np done) s)) ∧
  (∀ (c d k b : Nat) (s : State), Runs [.regs, .freeCount, .reg, .kettle, .ftl, .nand, .pages] s (exec (.flashProgramFail c d k b) s)) ∧
  (∀ (c d b : Nat) (planes : List Nat) (outcome : Nat) (bad : List Nat) (s : State), Runs [.regs, .freeCount, .reg, .kettle, .ftl, .nand, .pages]
    s (exec (.flashErase c d b planes outcome bad) s)) ∧
  (∀ (c d k b p step member : Nat) (own : Bool) (s : State), Runs [.regs, .reg, .arb, .kettle, .host, .units, .ftl, .nand] s (exec (.flashRead c d
    k b p step member own) s)) ∧
  (∀ (c slot : Nat) (s : State), Runs [.ftl] s (exec (.flashKeyLoad c slot) s)) ∧
  (∀ (c d : Nat) (s : State), Runs [.nand] s (exec (.programEraseResume c d) s)) ∧
  (∀ (c d : Nat) (s : State), Runs [.regs, .reg, .arb, .kettle, .host, .units, .nand] s (exec (.dieTimeout c d) s)) ∧
  (∀ (c d : Nat) (s : State), Runs [.nand] s (exec (.zqCalibration c d) s)) ∧
  (∀ (c d : Nat) (term : Int) (s : State), Runs [.nand] s (exec (.thresholdTemperatureUpdate c d term) s)) ∧
  (∀ (c ch : Nat) (ok : Bool) (s : State), Runs [.regs, .reg, .arb, .kettle, .eflash, .host, .units, .nand] s (exec (.onfiChannelStepDown c ch ok) s)) ∧
  (∀ (c d : Nat) (s : State), Runs [.regs, .reg, .arb, .kettle, .eflash, .host, .units, .ftl, .nand] s (exec (.dieRetire c d) s)) ∧
  (∀ (c d : Nat) (s : State), Runs [.nand] s (exec (.dieRelocationComplete c d) s)) ∧
  (∀ (c : Nat) (s : State), Runs [.regs, .freeCount, .reg, .arb, .kettle, .eflash, .host, .units, .ftl] s (exec (.packageRetire c) s)) ∧
  (∀ (c : Nat) (s : State), Runs [.regs, .freeCount, .reg, .kettle, .ftl] s (exec (.packageEvacuationComplete c) s)) ∧
  (∀ (seq : Nat) (s : State), Runs [.regs, .freeCount, .reg, .ftl, .nand, .pages] s (exec (.stagingSlotCommit seq) s)) ∧
  (∀ (s : State), Runs [.regs, .freeCount, .reg, .ftl] s (exec .journalFlush s)) ∧
  (∀ (s : State), Runs [.regs, .freeCount, .reg, .ftl] s (exec .journalForcedFlush s)) ∧
  (∀ (seg : Nat) (s : State), Runs [.regs, .reg, .arb, .kettle, .host, .units] s (exec (.mapEccReload seg) s)) ∧
  (∀ (iu src : Nat) (s : State), Runs [.regs, .freeCount, .reg, .kettle, .ftl, .nand, .pages] s (exec (.gcCopyCommit iu src) s)) ∧
  (∀ (c : Nat) (s : State), Runs [.ftl] s (exec (.gcStart c) s)) ∧
  (∀ (c : Nat) (s : State), Runs [.ftl] s (exec (.gcStop c) s)) ∧
  (∀ (c b : Nat) (s : State), Runs [.regs, .freeCount, .reg, .kettle, .ftl, .nand, .pages] s (exec (.retentionRefresh c b) s)) ∧
  (∀ (c : Nat) (s : State), Runs [.regs, .freeCount, .reg, .arb, .kettle, .eflash, .host, .units, .ftl, .nand, .pages] s (exec (.packageShed c) s)) ∧
  (∀ (iu : Nat) (ok : Bool) (s : State), Runs [.regs, .freeCount, .reg, .arb, .kettle, .host, .units, .ftl, .nand, .pages] s (exec
    (.suspectIuRelocate iu ok) s))

/-- What the commands of retirement, the Scourer, sensors, the recorder and the embedded flash leave unchanged. Each answers a next state, whatever the
state and the operands; of the parts of the state (the groups of registers, queues and units, and each byte memory) only those listed for it may
differ from before, every other part, and so every byte of a memory not listed, is as before; and canonical form is kept. -/
def Obligations.ReliabilityAndManagementFrames : Prop :=
  (∀ (k lane tries : Nat) (two : Bool) (s : State), Runs [.regs, .reg, .arb, .kettle, .host, .units, .rel] s (exec (.pantryLaneReplay k lane tries
    two) s)) ∧
  (∀ (k lane us : Nat) (s : State), Runs [.regs, .reg, .arb, .kettle, .eflash, .host, .units, .rel] s (exec (.pantryLaneSpare k lane us) s)) ∧
  (∀ (k lane us : Nat) (s : State), Runs [.regs, .reg, .arb, .kettle, .eflash, .host, .units, .ftl, .rel] s (exec (.pantryLinkDegrade k lane us) s)) ∧
  (∀ (k : Nat) (residue read readOk engOk : Bool) (s : State), Runs [.regs, .freeCount, .reg, .arb, .kettle, .eflash, .host, .cp, .units, .tiers,
    .ftl, .near, .rel, .hbm, .sb, .hostMem] s (exec (.colanderSelfCheck k residue read readOk engOk) s)) ∧
  (∀ (cs : List Nat) (s : State), Runs [.regs, .freeCount, .reg, .arb, .kettle, .eflash, .host, .cp, .units, .tiers, .ftl, .near, .rel, .hbm, .sb,
    .hostMem] s (exec (.hobLinkFault cs) s)) ∧
  (∀ (h : Nat) (s : State), Runs [.regs, .reg, .arb, .kettle, .host, .units] s (exec (.hobLinkLaneRepair h) s)) ∧
  (∀ (c inst g : Nat) (s : State), Runs [.regs, .reg, .arb, .kettle, .eflash, .host, .units] s (exec (.unitRetirement c inst g) s)) ∧
  (∀ (c d k b wl : Nat) (weak : Bool) (offs : Nat) (s : State), Runs [.regs, .reg, .kettle, .ftl, .nand, .rel] s (exec (.nandPatrol c d k b wl
    weak offs) s)) ∧
  (∀ (iu step : Nat) (s : State), Runs [.regs, .reg, .arb, .kettle, .host, .units, .ftl, .nand, .rel] s (exec (.mediaScan iu step) s)) ∧
  (∀ (t a outcome : Nat) (s : State), Runs [.regs, .reg, .arb, .kettle, .eflash, .host, .units, .tiers, .rel] s (exec (.hbmScrub t a outcome) s)) ∧
  (∀ (col : Bool) (inst g a outcome : Nat) (s : State), Runs [.regs, .reg, .arb, .kettle, .eflash, .host, .cp, .units, .rel, .sb] s (exec
    (.sramScrub col inst g a outcome) s)) ∧
  (∀ (seg outcome : Nat) (s : State), Runs [.regs, .reg, .arb, .kettle, .host, .units, .rel] s (exec (.lpddr5xScrub seg outcome) s)) ∧
  (∀ (h : Nat) (ok : Bool) (s : State), Runs [.regs, .reg, .arb, .kettle, .eflash, .host, .units, .rel] s (exec (.spareGriddleCheck h ok) s)) ∧
  (∀ (k : Nat) (ok : Bool) (s : State), Runs [.regs, .reg, .arb, .kettle, .eflash, .host, .units, .rel] s (exec (.spareLaneCheck k ok) s)) ∧
  (∀ (fn id u : Nat) (s : State), Runs [.regs, .reg, .kettle, .ftl, .rel] s (exec (.edgeRepairPass fn id u) s)) ∧
  (∀ (vals : List (Nat × Int × Bool)) (hs : List (Nat × Nat × Nat)) (idle : List Nat) (s : State), Runs [.regs, .freeCount, .reg, .power, .arb,
    .kettle, .boot, .host, .cp, .units, .tiers, .time, .ftl, .nand, .near, .snilo, .hbm, .sb, .hostMem, .image, .pages] s (exec (.sensorSample vals hs
    idle) s)) ∧
  (∀ (n : Nat) (s : State), Runs [.kettle] s (exec (.railMonitorRecalibrate n) s)) ∧
  (∀ (s : State), Runs [.regs, .reg, .power, .kettle] s (exec .thermalTripClear s)) ∧
  (∀ (v : Nat) (pldm : Bool) (s : State), Runs [.regs, .reg, .power, .arb, .kettle, .host, .units] s (exec (.powerCapWrite v pldm) s)) ∧
  (∀ (s : State), Runs [.regs, .reg, .power, .arb, .kettle, .host, .units] s (exec .powerCapWindow s)) ∧
  (∀ (s : State), Runs [.regs, .reg, .arb, .kettle, .host, .units] s (exec .recorderEntryAccept s)) ∧
  (∀ (cause : Nat) (s : State), Runs [.regs, .reg, .kettle] s (exec (.recorderFreeze cause) s)) ∧
  (∀ (both : Bool) (s : State), Runs [.regs, .reg, .arb, .kettle, .host, .units] s (exec (.hostFreeze both) s)) ∧
  (∀ (both : Bool) (s : State), Runs [.regs, .reg, .arb, .kettle, .host, .units] s (exec (.unfreeze both) s)) ∧
  (∀ (whole : Bool) (s : State), Runs [.regs, .kettle] s (exec (.recordPersist whole) s)) ∧
  (∀ (k lane us : Nat) (ok : Bool) (s : State), Runs [.regs, .reg, .arb, .kettle, .host, .units, .rel] s (exec (.pantryLaneLossOfLock k lane us
    ok) s)) ∧
  (∀ (a n : Nat) (errs : List (Nat × Nat)) (s : State), Runs [.regs, .freeCount, .eflash] s (exec (.eflashRead a n errs) s)) ∧
  (∀ (a : Nat) (data : List Nat) (pulseVerify : Bool) (maxPulses : Nat) (record handler : Bool) (need failAt : Nat) (cut : Bool) (s : State), Runs
    [.regs, .freeCount, .eflash] s (exec (.eflashProgram a data pulseVerify maxPulses record handler need failAt cut) s)) ∧
  (∀ (x n : Nat) (pulseVerify : Bool) (maxPulses : Nat) (record handler : Bool) (need failing : Nat) (cut : Bool) (s : State), Runs [.regs, .reg,
    .arb, .kettle, .eflash, .host, .units] s (exec (.eflashErase x n pulseVerify maxPulses record handler need failing cut) s)) ∧
  (∀ (x n : Nat) (s : State), Runs [.freeCount, .eflash] s (exec (.eflashBlankCheck x n) s)) ∧
  (∀ (s : State), Runs [.eflash] s (exec .configStoreCompaction s))

/-- What the commands of time, Ethernet and Snilo Link leave unchanged. Each answers a next state, whatever the state and the operands; of the parts of
the state (the groups of registers, queues and units, and each byte memory) only those listed for it may differ from before, every other part, and
so every byte of a memory not listed, is as before; and canonical form is kept. -/
def Obligations.TimeAndFabricFrames : Prop :=
  (∀ (p dom sender : Nat) (logSync : Int) (t1 cyc : Nat) (s : State), Runs [.regs, .freeCount, .reg, .arb, .kettle, .host, .units, .time] s (exec
    (.ptpSyncReceived p dom sender logSync t1 cyc) s)) ∧
  (∀ (p dom sender : Nat) (logAnn : Int) (data : List Nat) (s : State), Runs [.regs, .reg, .arb, .kettle, .host, .units, .time] s (exec
    (.ptpAnnounceReceived p dom sender logAnn data) s)) ∧
  (∀ (p sender : Nat) (logDelay : Int) (a b cyc : Nat) (s : State), Runs [.regs, .freeCount, .reg, .arb, .kettle, .host, .units, .time] s (exec
    (.ptpDelayResponse p sender logDelay a b cyc) s)) ∧
  (∀ (p dom cyc cycOut : Nat) (s : State), Runs [.regs, .reg, .arb, .kettle, .host, .units, .time] s (exec (.ptpPdelayRequest p dom cyc cycOut) s)) ∧
  (∀ (p : Nat) (s : State), Runs [.regs, .freeCount, .reg, .arb, .kettle, .host, .units, .time] s (exec (.ptpSourceLoss p) s)) ∧
  (∀ (s : State), Runs [.regs] s (exec .ptpPreferredReturn s)) ∧
  (∀ (ok : Bool) (root delay ago : Nat) (s : State), Runs [.regs, .freeCount, .reg, .arb, .kettle, .host, .units, .time] s (exec (.ptmDialog ok
    root delay ago) s)) ∧
  (∀ (s : State), Runs [.time] s (exec .ppsOutEdge s)) ∧
  (∀ (cyc : Nat) (s : State), Runs [.regs, .freeCount, .reg, .arb, .time] s (exec (.ppsInEdge cyc) s)) ∧
  (∀ (s : State), Runs [.regs, .reg, .arb, .kettle, .host, .units, .time] s (exec .ppsInMissing s)) ∧
  (∀ (p : Nat) (lane : Option Nat) (s : State), Runs [.regs, .freeCount, .reg, .arb, .kettle, .eflash, .host, .units, .time, .rel] s (exec
    (.ethernetLinkDown p lane) s)) ∧
  (∀ (p speed medium : Nat) (s : State), Runs [.regs] s (exec (.ethernetLinkUp p speed medium) s)) ∧
  (∀ (p kind lane n : Nat) (s : State), Runs [.regs, .reg, .arb, .kettle, .host, .units] s (exec (.ethernetFrameDiscard p kind lane n) s)) ∧
  (∀ (port src a n : Nat) (full : Bool) (s : State), Runs [.regs, .reg, .power, .arb, .kettle, .host, .units, .tiers] s (exec (.sniloReadReq port
    src a n full) s)) ∧
  (∀ (tag : Nat) (data : List Byte) (port src : Nat) (s : State), Runs [.regs, .reg, .arb, .kettle, .host, .units, .snilo] s (exec (.sniloReadRsp
    tag data port src) s)) ∧
  (∀ (tag reason : Nat) (port src : Nat) (s : State), Runs [.regs, .freeCount, .reg, .arb, .kettle, .host, .cp, .units, .tiers, .ftl, .near,
    .snilo, .hbm, .sb, .hostMem] s (exec (.sniloNak tag reason port src) s)) ∧
  (∀ (ch port credit via : Nat) (s : State), Runs [.regs, .reg, .arb, .kettle, .host, .units, .snilo] s (exec (.sniloRetransmit ch port credit
    via) s)) ∧
  (∀ (ch port credit : Nat) (s : State), Runs [.regs, .freeCount, .reg, .arb, .kettle, .host, .cp, .units, .tiers, .ftl, .near, .snilo, .hbm, .sb,
    .hostMem] s (exec (.sniloRemoteTimeout ch port credit) s)) ∧
  (∀ (ch : Nat) (s : State), Runs [.regs, .snilo] s (exec (.sniloCreditsEnd ch) s)) ∧
  (∀ (s : State), Runs [.regs, .reg, .arb, .kettle, .host, .units, .snilo] s (exec .loadPeers s)) ∧
  (∀ (s : State), Runs [.regs, .reg, .arb, .kettle, .host, .units, .snilo] s (exec .loadExports s)) ∧
  (∀ (s : State), Runs [.regs, .reg, .arb, .kettle, .host, .units, .snilo] s (exec .clearExports s)) ∧
  (∀ (v : Nat) (s : State), Runs [.regs, .reg, .arb, .kettle, .host, .units] s (exec (.sledIdWrite v) s)) ∧
  (∀ (p cyc : Nat) (s : State), Runs [.reg, .arb, .time] s (exec (.ptpDelayRequestSend p cyc) s)) ∧
  (∀ (p target : Nat) (v6 : Bool) (n m : Nat) (s : State), Runs [.regs, .reg, .arb, .kettle, .host, .units, .time] s (exec (.arpNeighborDiscovery
    p target v6 n m) s)) ∧
  (∀ (p prio : Nat) (pause : Bool) (s : State), Runs [.regs, .reg, .arb, .kettle, .host, .units, .time] s (exec (.pfcFrame p prio pause) s))
end

