-- ==== Sys2Proof/Laws/Store.lean ====
section
/-!
SUPPORT. Laws of association lists and byte memories: reading after writing, and that every operation keeps the
canonical form.
-/

namespace Sys2Proof.Machine

/-! ### Association lists -/

/-- Every key of `m` is above `k`. -/
def Above {α : Type} (k : Nat) (m : Store α) : Prop := ∀ p ∈ m, k < p.1

theorem swf_cons {α : Type} (a : Nat) (v : α) (m : Store α) : swf ((a, v) :: m) = true ↔ Above a m ∧ swf m = true := by
  induction m generalizing a v with
  | nil => simp [swf, Above]
  | cons p t ih =>
    obtain ⟨b, w⟩ := p
    simp only [swf, Bool.and_eq_true, decide_eq_true_eq]
    constructor
    · rintro ⟨hab, ht⟩
      refine ⟨fun q hq => ?_, ht⟩
      rcases List.mem_cons.mp hq with rfl | hq
      · exact hab
      · exact Nat.lt_trans hab (((ih b w).mp ht).1 q hq)
    · rintro ⟨ha, ht⟩
      exact ⟨ha (b, w) (List.mem_cons_self ..), ht⟩

theorem swf_filter {α : Type} (f : Nat × α → Bool) (m : Store α) (h : swf m = true) : swf (m.filter f) = true := by
  induction m with
  | nil => rfl
  | cons p t ih =>
    obtain ⟨a, v⟩ := p
    obtain ⟨ha, ht⟩ := (swf_cons a v t).mp h
    simp only [List.filter_cons]
    split
    · exact (swf_cons a v _).mpr ⟨fun q hq => ha q (List.mem_filter.mp hq).1, ih ht⟩
    · exact ih ht

theorem serase_eq_filter {α : Type} (m : Store α) (k : Nat) : serase m k = m.filter fun p => decide (p.1 ≠ k) := by
  induction m with
  | nil => rfl
  | cons p t ih =>
    obtain ⟨a, v⟩ := p
    by_cases h : a = k <;> simp [serase, h, ih]

theorem swf_serase {α : Type} (m : Store α) (k : Nat) (h : swf m = true) : swf (serase m k) = true := by
  rw [serase_eq_filter]; exact swf_filter _ m h

theorem swf_sdropRange {α : Type} (m : Store α) (lo hi : Nat) (h : swf m = true) : swf (sdropRange m lo hi) = true :=
  swf_filter _ m h

theorem mem_sinsert {α : Type} (m : Store α) (k : Nat) (v : α) (p : Nat × α) : p ∈ sinsert m k v ↔ p = (k, v) ∨ p ∈ m := by
  induction m with
  | nil => simp [sinsert]
  | cons q t ih =>
    obtain ⟨a, w⟩ := q
    by_cases h : k < a
    · simp [sinsert, h]
    · simp only [sinsert, h, if_false, List.mem_cons, ih]; tauto

theorem swf_sinsert {α : Type} (m : Store α) (k : Nat) (v : α) (h : swf m = true) (hk : ∀ p ∈ m, p.1 ≠ k) :
    swf (sinsert m k v) = true := by
  induction m with
  | nil => rfl
  | cons q t ih =>
    obtain ⟨a, w⟩ := q
    obtain ⟨ha, ht⟩ := (swf_cons a w t).mp h
    by_cases hka : k < a
    · simp only [sinsert, hka, if_true]
      refine (swf_cons k v _).mpr ⟨fun p hp => ?_, h⟩
      rcases List.mem_cons.mp hp with rfl | hp
      · exact hka
      · exact Nat.lt_trans hka (ha p hp)
    · simp only [sinsert, hka, if_false]
      have hne : a ≠ k := hk (a, w) (List.mem_cons_self ..)
      refine (swf_cons a w _).mpr ⟨fun p hp => ?_, ih ht fun p hp => hk p (List.mem_cons_of_mem _ hp)⟩
      rcases (mem_sinsert t k v p).mp hp with rfl | hp
      · simp only; omega
      · exact ha p hp

theorem not_mem_serase {α : Type} (m : Store α) (k : Nat) : ∀ p ∈ serase m k, p.1 ≠ k := by
  intro p hp
  rw [serase_eq_filter] at hp
  simpa using (List.mem_filter.mp hp).2

theorem swf_sput {α : Type} (m : Store α) (k : Nat) (v : α) (h : swf m = true) : swf (sput m k v) = true :=
  swf_sinsert _ k v (swf_serase m k h) (not_mem_serase m k)

theorem sget?_serase {α : Type} (m : Store α) (k j : Nat) : sget? (serase m k) j = if j = k then none else sget? m j := by
  induction m with
  | nil => simp [serase, sget?]
  | cons p t ih =>
    obtain ⟨a, v⟩ := p
    by_cases h : a = k
    · subst h
      simp only [serase, if_true, ih, sget?]
      by_cases hj : j = a
      · simp [hj]
      · simp [hj, Ne.symm hj]
    · simp only [serase, h, if_false, sget?, ih]
      by_cases ha : a = j
      · subst ha; simp [h]
      · simp [ha]

theorem sget?_sinsert {α : Type} (m : Store α) (k j : Nat) (v : α) (hk : ∀ p ∈ m, p.1 ≠ k) :
    sget? (sinsert m k v) j = if j = k then some v else sget? m j := by
  induction m with
  | nil => by_cases h : k = j <;> simp [sinsert, sget?, h, eq_comm]
  | cons p t ih =>
    obtain ⟨a, w⟩ := p
    have hne : a ≠ k := hk (a, w) (List.mem_cons_self ..)
    by_cases hka : k < a
    · simp only [sinsert, hka, if_true, sget?]
      by_cases hj : k = j <;> simp [hj, eq_comm]
    · simp only [sinsert, hka, if_false, sget?, ih fun p hp => hk p (List.mem_cons_of_mem _ hp)]
      by_cases ha : a = j
      · subst ha; simp [hne]
      · simp [ha]

/-- What reads after a value is put at a key. -/
@[simp] theorem sget?_sput {α : Type} (m : Store α) (k j : Nat) (v : α) : sget? (sput m k v) j = if j = k then some v else sget? m j := by
  rw [sput, sget?_sinsert _ _ _ _ (not_mem_serase m k), sget?_serase]
  split <;> rfl

@[simp] theorem sget_sput {α : Type} (m : Store α) (k j : Nat) (v d : α) : sget (sput m k v) j d = if j = k then v else sget m j d := by
  simp only [sget, sget?_sput]
  split <;> rfl

theorem mem_sput {α : Type} (m : Store α) (k : Nat) (v : α) (p : Nat × α) (h : p ∈ sput m k v) : p = (k, v) ∨ p ∈ m := by
  rcases (mem_sinsert _ k v p).mp h with h | h
  · exact .inl h
  · rw [serase_eq_filter] at h; exact .inr (List.mem_filter.mp h).1

end Sys2Proof.Machine

namespace Sys2Proof

open Sys2Proof.Machine

/-! ### Byte memories -/

theorem wf_iff (m : Mem) : Memory.wf m = true ↔ swf m.cells = true ∧ ∀ c ∈ m.cells, c.2 ≠ m.dflt c.1 := by
  simp [Memory.wf, List.all_eq_true]

@[simp] theorem wf_empty : Memory.wf Mem.empty = true := rfl

theorem wf_write (m : Mem) (a : Nat) (v : Byte) (h : Memory.wf m = true) : Memory.wf (m.write a v) = true := by
  obtain ⟨h1, h2⟩ := (wf_iff m).mp h
  unfold Mem.write
  split
  · refine (wf_iff _).mpr ⟨swf_serase _ _ h1, fun c hc => ?_⟩
    simp only [serase_eq_filter] at hc
    exact h2 c (List.mem_filter.mp hc).1
  · rename_i hv
    refine (wf_iff _).mpr ⟨swf_sput _ _ _ h1, fun c hc => ?_⟩
    rcases mem_sput _ _ _ c hc with rfl | hc
    · exact hv
    · exact h2 c hc

theorem wf_writeL (m : Mem) (a : Nat) (bs : List Byte) (h : Memory.wf m = true) : Memory.wf (m.writeL a bs) = true := by
  induction bs generalizing m a with
  | nil => exact h
  | cons b bs ih => exact ih _ _ (wf_write m a b h)

theorem fillDefault_filter (fs : List (Nat × Nat × Option Nat)) (lo hi a : Nat) (h : ¬(lo ≤ a ∧ a < hi)) :
    fillDefault (fs.filter fun f => !(decide (lo ≤ f.1) && decide (f.2.1 ≤ hi))) a = fillDefault fs a := by
  induction fs with
  | nil => rfl
  | cons f t ih =>
    obtain ⟨l, u, k⟩ := f
    simp only [List.filter_cons]
    split
    · simp only [fillDefault, ih]
    · rename_i hf
      simp only [Bool.not_eq_true', Bool.not_eq_false, Bool.and_eq_true, decide_eq_true_eq] at hf
      simp only [fillDefault, ih]
      rw [if_neg (by omega)]

theorem fillDefault_outside (fs : List (Nat × Nat × Option Nat)) (x : Nat) (h : ∀ f ∈ fs, ¬(f.1 ≤ x ∧ x < f.2.1)) :
    fillDefault fs x = 0 := by
  induction fs with
  | nil => rfl
  | cons f t ih =>
    obtain ⟨l, u, k⟩ := f
    simp only [fillDefault]
    rw [if_neg (h (l, u, k) (List.mem_cons_self ..))]
    exact ih fun f hf => h f (List.mem_cons_of_mem _ hf)

/-- What an unlisted address reads as after a fill. -/
theorem dflt_fill (m : Mem) (a n : Nat) (k : Option Nat) (x : Nat) : (m.fill a n k).dflt x =
    if a ≤ x ∧ x < a + n then (match k with | some j => Config.openByte j x | none => 0) else m.dflt x := by
  have ho := fun h => fillDefault_filter m.fills a (a + n) x h
  simp only [Mem.dflt, Mem.fill]
  split
  · rename_i hc
    obtain ⟨rfl, hc⟩ := hc
    by_cases hx : a ≤ x ∧ x < a + n
    · rw [if_pos hx]
      refine fillDefault_outside _ _ fun f hf hi => ?_
      have := List.all_eq_true.mp hc f hf
      simp only [Bool.or_eq_true, decide_eq_true_eq] at this
      omega
    · rw [if_neg hx]; exact ho hx
  · simp only [fillDefault]
    split
    · rfl
    · rename_i h; exact ho h

theorem wf_fill (m : Mem) (a n : Nat) (k : Option Nat) (h : Memory.wf m = true) : Memory.wf (m.fill a n k) = true := by
  obtain ⟨h1, h2⟩ := (wf_iff m).mp h
  refine (wf_iff _).mpr ⟨swf_sdropRange _ _ _ h1, fun c hc => ?_⟩
  have hc' := List.mem_filter.mp hc
  rw [dflt_fill, if_neg]
  · exact h2 c hc'.1
  · intro hr
    simpa [hr.1, hr.2] using hc'.2

theorem fillDefault_clip (fs gs : List (Nat × Nat × Option Nat)) (lo hi a : Nat) (h : lo ≤ a ∧ a < hi)
    (hg : fillDefault gs a = 0) : fillDefault (clipFills fs lo hi ++ gs) a = fillDefault fs a := by
  induction fs with
  | nil => exact hg
  | cons f t ih =>
    obtain ⟨l, u, k⟩ := f
    simp only [clipFills, List.map_cons, List.filter_cons] at ih ⊢
    split
    · rename_i hf
      simp only [decide_eq_true_eq] at hf
      simp only [List.cons_append, fillDefault, ih]
      by_cases hc : l ≤ a ∧ a < u
      · rw [if_pos hc, if_pos (by omega)]
      · rw [if_neg hc, if_neg (by omega)]
    · rename_i hf
      simp only [decide_eq_true_eq] at hf
      simp only [fillDefault]
      rw [if_neg (by omega)]
      exact ih

theorem fillDefault_clip_out (fs gs : List (Nat × Nat × Option Nat)) (lo hi a : Nat) (h : ¬(lo ≤ a ∧ a < hi)) :
    fillDefault (clipFills fs lo hi ++ gs) a = fillDefault gs a := by
  induction fs with
  | nil => rfl
  | cons f t ih =>
    obtain ⟨l, u, k⟩ := f
    simp only [clipFills, List.map_cons, List.filter_cons] at ih ⊢
    split
    · simp only [List.cons_append, fillDefault, ih]
      rw [if_neg (by omega)]
    · exact ih

/-- What an unlisted address reads as after a copy. -/
theorem dflt_copyFrom (d s : Mem) (a n x : Nat) :
    (d.copyFrom s a n).dflt x = if a ≤ x ∧ x < a + n then s.dflt x else d.dflt x := by
  have hz := dflt_fill d a n none x
  simp only [Mem.dflt, Mem.copyFrom] at hz ⊢
  split
  · rename_i h
    rw [if_pos h] at hz
    exact fillDefault_clip _ _ _ _ _ h hz
  · rename_i h
    rw [fillDefault_clip_out _ _ _ _ _ h, hz, if_neg h]

theorem foldl_sput (cs : List Host.Cell) (m : Store Byte) (h : swf m = true) :
    swf (cs.foldl (fun t c => sput t c.1 c.2) m) = true ∧
      ∀ p ∈ cs.foldl (fun t c => sput t c.1 c.2) m, p ∈ cs ∨ p ∈ m := by
  induction cs generalizing m with
  | nil => exact ⟨h, fun p hp => .inr hp⟩
  | cons c cs ih =>
    obtain ⟨h1, h2⟩ := ih (sput m c.1 c.2) (swf_sput _ _ _ h)
    refine ⟨h1, fun p hp => ?_⟩
    rcases h2 p hp with hp | hp
    · exact .inl (List.mem_cons_of_mem _ hp)
    · rcases mem_sput _ _ _ p hp with rfl | hp
      · exact .inl (List.mem_cons_self ..)
      · exact .inr hp

theorem wf_copyFrom (d s : Mem) (a n : Nat) (h : Memory.wf d = true) : Memory.wf (d.copyFrom s a n) = true := by
  obtain ⟨f1, f2⟩ := (wf_iff _).mp (wf_fill d a n none h)
  obtain ⟨h1, h2⟩ := foldl_sput (s.cells.filter fun c => decide (a ≤ c.1) && decide (c.1 < a + n) && decide (c.2 ≠ s.dflt c.1)) _ f1
  refine (wf_iff _).mpr ⟨h1, fun c hc => ?_⟩
  rw [dflt_copyFrom]
  rcases h2 c hc with hc | hc
  · have hf := (List.mem_filter.mp hc).2
    simp only [Bool.and_eq_true, decide_eq_true_eq] at hf
    rw [if_pos hf.1]; exact hf.2
  · have hr := (List.mem_filter.mp hc).2
    have hd := f2 c hc
    rw [dflt_fill] at hd
    split
    · rename_i hx; simp [hx.1, hx.2] at hr
    · rename_i hx; rwa [if_neg hx] at hd

theorem wf_foldl {α : Type} (f : Mem → α → Mem) (hf : ∀ m x, Memory.wf m = true → Memory.wf (f m x) = true) (m : Mem)
    (h : Memory.wf m = true) (l : List α) : Memory.wf (l.foldl f m) = true := by
  induction l generalizing m with
  | nil => exact h
  | cons a l ih => exact ih _ (hf m a h)

@[simp] theorem dflt_write (m : Mem) (a : Nat) (v : Byte) (x : Nat) : (m.write a v).dflt x = m.dflt x := by
  unfold Mem.write; split <;> rfl

/-- What a byte reads as after a write. -/
@[simp] theorem read_write (m : Mem) (a : Nat) (v : Byte) (x : Nat) : (m.write a v).read x = if x = a then v else m.read x := by
  unfold Mem.read
  rw [dflt_write]
  unfold Mem.write
  by_cases hv : v = m.dflt a
  · simp only [hv, if_true, sget?_serase]
    by_cases hx : x = a <;> simp [hx]
  · simp only [hv, if_false, sget?_sput]
    by_cases hx : x = a <;> simp [hx]

/-- What a byte reads as after a list of bytes is written. -/
theorem read_writeL (m : Mem) (a : Nat) (bs : List Byte) (x : Nat) :
    (m.writeL a bs).read x = if a ≤ x ∧ x < a + bs.length then bs.getD (x - a) 0 else m.read x := by
  induction bs generalizing m a with
  | nil => rw [if_neg (by simp)]; rfl
  | cons b bs ih =>
    simp only [Mem.writeL, ih, read_write, List.length_cons]
    by_cases h : x = a
    · subst h; simp
    · by_cases hr : a + 1 ≤ x ∧ x < a + 1 + bs.length
      · rw [if_pos hr, if_pos (by omega), show x - a = (x - (a + 1)) + 1 by omega, List.getD_cons_succ]
      · rw [if_neg hr, if_neg h, if_neg (by omega)]

end Sys2Proof
end

