-- ==== Sys2Proof/Laws/Frame.lean ====
section
/-!
SUPPORT. How frames compose: through sequences, branches, folds and record updates of the state.
-/

namespace Sys2Proof.Machine

theorem Frame.refl (ps : List Part) (s : State) : Frame ps s s :=
  ⟨fun p _ => by cases p <;> rfl, fun h => h⟩

theorem Part.Same.trans {s t u : State} {p : Part} (h : p.Same s t) (k : p.Same t u) : p.Same s u := by
  cases p <;> exact Eq.trans k h

/-- A change within `qs` follows one within `ps`, `qs` being among `ps`. -/
theorem Frame.then {ps qs : List Part} {s t u : State} (k : Frame qs t u) (hq : qs ⊆ ps) (h : Frame ps s t) : Frame ps s u :=
  ⟨fun p hp => (h.1 p hp).trans (k.1 p fun c => hp (hq c)), fun c => k.2 (h.2 c)⟩

theorem Frame.ite {ps : List Part} {s a b : State} {c : Prop} [Decidable c] (h : Frame ps s a) (k : Frame ps s b) :
    Frame ps s (if c then a else b) := by
  split <;> assumption

/-- A record update changes the parts in which its fields differ. -/
theorem Frame.upd {ps : List Part} {s x : State} {pe va re ti fr rg po ar ke bo ef ho cp un tr tm ft na ne sn rl}
    (hv : va = x.variant) (h : Frame ps s x)
    (hs : ∀ p : Part, p ∉ ps → p.Same x ⟨pe, va, re, ti, fr, rg, po, ar, ke, bo, ef, ho, cp, un, tr, tm, ft, na, ne, sn, rl⟩)
    (hc : x.Canon → State.Canon ⟨pe, va, re, ti, fr, rg, po, ar, ke, bo, ef, ho, cp, un, tr, tm, ft, na, ne, sn, rl⟩) :
    Frame ps s ⟨pe, va, re, ti, fr, rg, po, ar, ke, bo, ef, ho, cp, un, tr, tm, ft, na, ne, sn, rl⟩ :=
  ⟨fun p hp => (h.1 p hp).trans (hs p hp), fun c => hc (h.2 c)⟩

/-- A change of one part, kept in canonical form. -/
theorem Frame.upd1 {ps : List Part} {s x t : State} (h : Frame ps s x) (q : Part) (hq : q ∈ ps) (hs : ∀ p : Part, p ≠ q → p.Same x t)
    (hc : x.Canon → t.Canon) : Frame ps s t :=
  ⟨fun p hp => (h.1 p hp).trans (hs p fun e => hp (e ▸ hq)), fun c => hc (h.2 c)⟩

/-- A change of a part and of a memory in it, kept in canonical form. -/
theorem Frame.upd2 {ps : List Part} {s x t : State} (h : Frame ps s x) (q r : Part) (hq : q ∈ ps) (hr : r ∈ ps)
    (hs : ∀ p : Part, p ≠ q → p ≠ r → p.Same x t) (hc : x.Canon → t.Canon) : Frame ps s t :=
  ⟨fun p hp => (h.1 p hp).trans (hs p (fun e => hp (e ▸ hq)) fun e => hp (e ▸ hr)), fun c => hc (h.2 c)⟩

theorem Frame.setReg {ps : List Part} {s x : State} {v : RegFn} (hp : Part.reg ∈ ps) (h : Frame ps s x) :
    Frame ps s { x with reg := v } :=
  h.upd1 .reg hp (fun p hq => by cases p <;> first | rfl | exact absurd rfl hq) fun c => c

theorem Frame.setPower {ps : List Part} {s x : State} {v : Power} (hp : Part.power ∈ ps) (h : Frame ps s x) :
    Frame ps s { x with power := v } :=
  h.upd1 .power hp (fun p hq => by cases p <;> first | rfl | exact absurd rfl hq) fun c => c

theorem Frame.setArb {ps : List Part} {s x : State} {v : Arb} (hp : Part.arb ∈ ps) (h : Frame ps s x) :
    Frame ps s { x with arb := v } :=
  h.upd1 .arb hp (fun p hq => by cases p <;> first | rfl | exact absurd rfl hq) fun c => c

theorem Frame.setKettle {ps : List Part} {s x : State} {v : Kettle} (hp : Part.kettle ∈ ps) (h : Frame ps s x) :
    Frame ps s { x with kettle := v } :=
  h.upd1 .kettle hp (fun p hq => by cases p <;> first | rfl | exact absurd rfl hq) fun c => c

theorem Frame.setEflash {ps : List Part} {s x : State} {v : EFlash} (hp : Part.eflash ∈ ps) (h : Frame ps s x) :
    Frame ps s { x with eflash := v } :=
  h.upd1 .eflash hp (fun p hq => by cases p <;> first | rfl | exact absurd rfl hq) fun c => c

theorem Frame.setUnits {ps : List Part} {s x : State} {v : Units} (hp : Part.units ∈ ps) (h : Frame ps s x) :
    Frame ps s { x with units := v } :=
  h.upd1 .units hp (fun p hq => by cases p <;> first | rfl | exact absurd rfl hq) fun c => c

theorem Frame.setTime {ps : List Part} {s x : State} {v : TimeState} (hp : Part.time ∈ ps) (h : Frame ps s x) :
    Frame ps s { x with time := v } :=
  h.upd1 .time hp (fun p hq => by cases p <;> first | rfl | exact absurd rfl hq) fun c => c

theorem Frame.setFtl {ps : List Part} {s x : State} {v : Ftl} (hp : Part.ftl ∈ ps) (h : Frame ps s x) :
    Frame ps s { x with ftl := v } :=
  h.upd1 .ftl hp (fun p hq => by cases p <;> first | rfl | exact absurd rfl hq) fun c => c

theorem Frame.memNand {ps : List Part} {s x : State} {v : Nand} (hp : Part.nand ∈ ps) (hq : Part.pages ∈ ps) (h : Frame ps s x) :
    Frame ps s { x with nand := v } :=
  h.upd2 .nand .pages hp hq (fun p hq hr => by cases p <;> first | rfl | exact absurd rfl hq | exact absurd rfl hr) fun c => c

theorem Frame.setNandOf {ps : List Part} {s x : State} {v : Nand} (hp : Part.nand ∈ ps) (hm : v.pages = x.nand.pages) (h : Frame ps s x) :
    Frame ps s { x with nand := v } :=
  h.upd1 .nand hp (fun p hq => by cases p <;> first | rfl | exact hm | exact absurd rfl hq) fun c => c

/-- The memory in a part stays: only the part's other fields change. -/
theorem Frame.setNand {ps : List Part} {s x : State} {a0 a1 a3 a4 a5 a6 a7 a8 a9 a10 a11 a12 a13 a14 a15 a16} (hp : Part.nand ∈ ps) (h : Frame ps s x) :
    Frame ps s { x with nand := ⟨a0, a1, x.nand.pages, a3, a4, a5, a6, a7, a8, a9, a10, a11, a12, a13, a14, a15, a16⟩ } :=
  Frame.setNandOf hp rfl h

theorem Frame.setNear {ps : List Part} {s x : State} {v : Near} (hp : Part.near ∈ ps) (h : Frame ps s x) :
    Frame ps s { x with near := v } :=
  h.upd1 .near hp (fun p hq => by cases p <;> first | rfl | exact absurd rfl hq) fun c => c

theorem Frame.setSnilo {ps : List Part} {s x : State} {v : SniloState} (hp : Part.snilo ∈ ps) (h : Frame ps s x) :
    Frame ps s { x with snilo := v } :=
  h.upd1 .snilo hp (fun p hq => by cases p <;> first | rfl | exact absurd rfl hq) fun c => c

theorem Frame.setRel {ps : List Part} {s x : State} {v : Reliab} (hp : Part.rel ∈ ps) (h : Frame ps s x) :
    Frame ps s { x with rel := v } :=
  h.upd1 .rel hp (fun p hq => by cases p <;> first | rfl | exact absurd rfl hq) fun c => c

theorem Frame.setTick {ps : List Part} {s x : State} {v : Nat} (hp : Part.tick ∈ ps) (h : Frame ps s x) :
    Frame ps s { x with tick := v } :=
  h.upd1 .tick hp (fun p hq => by cases p <;> first | rfl | exact absurd rfl hq) fun c => c

theorem Frame.setFreeCount {ps : List Part} {s x : State} {v : Nat} (hp : Part.freeCount ∈ ps) (h : Frame ps s x) :
    Frame ps s { x with freeCount := v } :=
  h.upd1 .freeCount hp (fun p hq => by cases p <;> first | rfl | exact absurd rfl hq) fun c => c

theorem Frame.memTiers {ps : List Part} {s x : State} {v : Tiers} (hp : Part.tiers ∈ ps) (hq : Part.hbm ∈ ps)
    (hm : Memory.wf x.tiers.hbm = true → Memory.wf v.hbm = true) (h : Frame ps s x) : Frame ps s { x with tiers := v } :=
  h.upd2 .tiers .hbm hp hq (fun p hq hr => by cases p <;> first | rfl | exact absurd rfl hq | exact absurd rfl hr) fun c =>
    ⟨c.1, (hm c.2.1), c.2.2.1, c.2.2.2.1, c.2.2.2.2⟩

theorem Frame.setTiersOf {ps : List Part} {s x : State} {v : Tiers} (hp : Part.tiers ∈ ps) (hm : v.hbm = x.tiers.hbm)
    (h : Frame ps s x) : Frame ps s { x with tiers := v } :=
  h.upd1 .tiers hp (fun p hq => by cases p <;> first | rfl | exact hm | exact absurd rfl hq) fun c =>
    ⟨c.1, (hm ▸ c.2.1), c.2.2.1, c.2.2.2.1, c.2.2.2.2⟩

/-- The memory in a part stays: only the part's other fields change. -/
theorem Frame.setTiers {ps : List Part} {s x : State} {a1 a2 a3 a4 a5 a6 a7 a8 a9 a10 a11 a12 a13 a14 a15} (hp : Part.tiers ∈ ps) (h : Frame ps s x) :
    Frame ps s { x with tiers := ⟨x.tiers.hbm, a1, a2, a3, a4, a5, a6, a7, a8, a9, a10, a11, a12, a13, a14, a15⟩ } :=
  Frame.setTiersOf hp rfl h

theorem Frame.memCp {ps : List Part} {s x : State} {v : Compute} (hp : Part.cp ∈ ps) (hq : Part.sb ∈ ps)
    (hm : Memory.wf x.cp.sb = true → Memory.wf v.sb = true) (h : Frame ps s x) : Frame ps s { x with cp := v } :=
  h.upd2 .cp .sb hp hq (fun p hq hr => by cases p <;> first | rfl | exact absurd rfl hq | exact absurd rfl hr) fun c =>
    ⟨c.1, c.2.1, (hm c.2.2.1), c.2.2.2.1, c.2.2.2.2⟩

theorem Frame.setCpOf {ps : List Part} {s x : State} {v : Compute} (hp : Part.cp ∈ ps) (hm : v.sb = x.cp.sb)
    (h : Frame ps s x) : Frame ps s { x with cp := v } :=
  h.upd1 .cp hp (fun p hq => by cases p <;> first | rfl | exact hm | exact absurd rfl hq) fun c =>
    ⟨c.1, c.2.1, (hm ▸ c.2.2.1), c.2.2.2.1, c.2.2.2.2⟩

/-- The memory in a part stays: only the part's other fields change. -/
theorem Frame.setCp {ps : List Part} {s x : State} {a0 a1 a2 a3 a4 a5 a6} (hp : Part.cp ∈ ps) (h : Frame ps s x) :
    Frame ps s { x with cp := ⟨a0, a1, a2, a3, a4, a5, a6, x.cp.sb⟩ } :=
  Frame.setCpOf hp rfl h

theorem Frame.memHost {ps : List Part} {s x : State} {v : HostIf} (hp : Part.host ∈ ps) (hq : Part.hostMem ∈ ps)
    (hm : Memory.wf x.host.mem = true → Memory.wf v.mem = true) (h : Frame ps s x) : Frame ps s { x with host := v } :=
  h.upd2 .host .hostMem hp hq (fun p hq hr => by cases p <;> first | rfl | exact absurd rfl hq | exact absurd rfl hr) fun c =>
    ⟨c.1, c.2.1, c.2.2.1, (hm c.2.2.2.1), c.2.2.2.2⟩

theorem Frame.setHostOf {ps : List Part} {s x : State} {v : HostIf} (hp : Part.host ∈ ps) (hm : v.mem = x.host.mem)
    (h : Frame ps s x) : Frame ps s { x with host := v } :=
  h.upd1 .host hp (fun p hq => by cases p <;> first | rfl | exact hm | exact absurd rfl hq) fun c =>
    ⟨c.1, c.2.1, c.2.2.1, (hm ▸ c.2.2.2.1), c.2.2.2.2⟩

/-- The memory in a part stays: only the part's other fields change. -/
theorem Frame.setHost {ps : List Part} {s x : State} {a0 a1 a2 a3 a4 a5 a6 a7 a8 a9 a10 a11 a12 a13 a14 a15 a16 a17 a18 a19 a20 a21 a22 a23 a24 a25 a26 a27 a28 a29 a30 a31 a32} (hp : Part.host ∈ ps) (h : Frame ps s x) :
    Frame ps s { x with host := ⟨a0, a1, a2, a3, a4, a5, a6, a7, a8, a9, a10, a11, a12, a13, a14, a15, a16, a17, a18, a19, a20, a21, a22, a23, a24, a25, a26, a27, a28, a29, a30, a31, a32, x.host.mem⟩ } :=
  Frame.setHostOf hp rfl h

theorem Frame.memBoot {ps : List Part} {s x : State} {v : Boot} (hp : Part.boot ∈ ps) (hq : Part.image ∈ ps)
    (hm : Memory.wf x.boot.image = true → Memory.wf v.image = true) (h : Frame ps s x) : Frame ps s { x with boot := v } :=
  h.upd2 .boot .image hp hq (fun p hq hr => by cases p <;> first | rfl | exact absurd rfl hq | exact absurd rfl hr) fun c =>
    ⟨c.1, c.2.1, c.2.2.1, c.2.2.2.1, (hm c.2.2.2.2)⟩

theorem Frame.setBootOf {ps : List Part} {s x : State} {v : Boot} (hp : Part.boot ∈ ps) (hm : v.image = x.boot.image)
    (h : Frame ps s x) : Frame ps s { x with boot := v } :=
  h.upd1 .boot hp (fun p hq => by cases p <;> first | rfl | exact hm | exact absurd rfl hq) fun c =>
    ⟨c.1, c.2.1, c.2.2.1, c.2.2.2.1, (hm ▸ c.2.2.2.2)⟩

/-- The memory in a part stays: only the part's other fields change. -/
theorem Frame.setBoot {ps : List Part} {s x : State} {a0 a1 a2 a3 a4 a5 a6 a7 a9 a10 a11 a12 a13 a14 a15 a16 a17 a18} (hp : Part.boot ∈ ps) (h : Frame ps s x) :
    Frame ps s { x with boot := ⟨a0, a1, a2, a3, a4, a5, a6, a7, x.boot.image, a9, a10, a11, a12, a13, a14, a15, a16, a17, a18⟩ } :=
  Frame.setBootOf hp rfl h

theorem Frame.setRegs {ps : List Part} {s x : State} {v : Store Nat} (hp : Part.regs ∈ ps)
    (hm : swf x.regs = true → swf v = true) (h : Frame ps s x) : Frame ps s { x with regs := v } :=
  h.upd1 .regs hp (fun p hq => by cases p <;> first | rfl | exact absurd rfl hq) fun c => ⟨hm c.1, c.2⟩

theorem Frame.foldl {α : Type} {ps : List Part} {s x : State} {f : State → α → State} (hf : ∀ (t : State) (a : α), Frame ps t (f t a))
    (h : Frame ps s x) (l : List α) : Frame ps s (l.foldl f x) := by
  induction l generalizing x with
  | nil => exact h
  | cons a l ih => exact ih ((hf x a).then (fun _ k => k) h)

theorem Frame.getD {ps : List Part} {s d : State} {o : Option State} (ho : ∀ u, o = some u → Frame ps s u) (h : Frame ps s d) :
    Frame ps s (o.getD d) := by
  cases o with
  | none => exact h
  | some u => exact ho u rfl

theorem Frame.snd {α : Type} {ps : List Part} {s t : State} {p : α × State} {a : α} (h : Frame ps s p.2) (e : p = (a, t)) : Frame ps s t := by
  rw [e] at h; exact h

theorem Frame.fst {α : Type} {ps : List Part} {s t : State} {p : State × α} {a : α} (h : Frame ps s p.1) (e : p = (t, a)) : Frame ps s t := by
  rw [e] at h; exact h

theorem Frame.snd2 {α β : Type} {ps : List Part} {s t : State} {p : α × β × State} {a : α} {b : β} (h : Frame ps s p.2.2)
    (e : p = (a, b, t)) : Frame ps s t := by
  rw [e] at h; exact h

theorem Frame.iteOpt {ps : List Part} {s : State} {a b : Option State} {c : Prop} [Decidable c] (h : ∀ u, a = some u → Frame ps s u)
    (k : ∀ u, b = some u → Frame ps s u) : ∀ u, (if c then a else b) = some u → Frame ps s u := by
  split <;> assumption

theorem Frame.iteOptSnd {α : Type} {ps : List Part} {s : State} {a b : Option (α × State)} {c : Prop} [Decidable c]
    (h : ∀ x u, a = some (x, u) → Frame ps s u) (k : ∀ x u, b = some (x, u) → Frame ps s u) :
    ∀ x u, (if c then a else b) = some (x, u) → Frame ps s u := by
  split <;> assumption

theorem Frame.iteSnd {α : Type} {ps : List Part} {s : State} {a b : α × State} {c : Prop} [Decidable c] (h : Frame ps s a.2)
    (k : Frame ps s b.2) : Frame ps s (if c then a else b).2 := by
  split <;> assumption

theorem Frame.iteFst {α : Type} {ps : List Part} {s : State} {a b : State × α} {c : Prop} [Decidable c] (h : Frame ps s a.1)
    (k : Frame ps s b.1) : Frame ps s (if c then a else b).1 := by
  split <;> assumption

theorem Frame.iteSnd2 {α β : Type} {ps : List Part} {s : State} {a b : α × β × State} {c : Prop} [Decidable c] (h : Frame ps s a.2.2)
    (k : Frame ps s b.2.2) : Frame ps s (if c then a else b).2.2 := by
  split <;> assumption

theorem Runs.next {ps : List Part} {s t : State} (h : Frame ps s t) : Runs ps s (.next t) := ⟨t, rfl, h⟩

theorem Runs.then {ps qs : List Part} {s t : State} {r : Res} (k : Runs qs t r) (hq : qs ⊆ ps) (h : Frame ps s t) : Runs ps s r := by
  obtain ⟨u, e, hu⟩ := k
  exact ⟨u, e, hu.then hq h⟩

theorem Runs.ite {ps : List Part} {s : State} {a b : Res} {c : Prop} [Decidable c] (h : Runs ps s a) (k : Runs ps s b) :
    Runs ps s (if c then a else b) := by
  split <;> assumption

end Sys2Proof.Machine
end

