-- ==== Sys2Proof/Laws/OpsFrame.lean ====
section
/-!
SUPPORT. What each operation of Machine/Ops.lean can change: the parts of the state its frame names, canonical form kept.
-/

namespace Sys2Proof.Machine

theorem State.count_frame (s : State) (c : ℕ) (i : ℕ) (n : ℕ) (k : ℕ) :
    Frame [.reg] s (State.count s c i n k) := by
  unfold State.count
  refine Frame.setReg (by decide) ?_
  exact Frame.refl _ _

theorem State.countUnits_frame (s : State) (c : ℕ) (i : ℕ) (n : ℕ) (k : ℕ) (u : ℕ) :
    Frame [.reg, .units] s (State.countUnits s c i n k u) := by
  unfold State.countUnits
  extract_lets +onlyGivenNames key r; try clear_value key r
  extract_lets +onlyGivenNames s1
  have h_s1 : Frame [.reg, .units] s s1 := by
    unfold s1
    refine Frame.then (State.count_frame _ _ _ _ _) (by decide) ?_
    exact Frame.refl _ _
  try clear_value s1
  refine Frame.setUnits (by decide) ?_
  assumption

theorem State.work_frame (s : State) (c : ℕ) (item : ℕ) (n : ℕ) :
    Frame [.kettle] s (State.work s c item n) := by
  unfold State.work
  extract_lets +onlyGivenNames who k; try clear_value who k
  refine Frame.setKettle (by decide) ?_
  exact Frame.refl _ _

theorem State.pcie_frame (s : State) (c : ℕ) (n : ℕ) :
    Frame [.reg, .kettle, .units] s (State.pcie s c n) := by
  unfold State.pcie
  refine Frame.then (State.countUnits_frame _ _ _ _ _ _) (by decide) ?_
  refine Frame.then (State.work_frame _ _ _ _) (by decide) ?_
  exact Frame.refl _ _

theorem State.freeIntake_frame (s : State) (c : CmdId) :
    Frame [.host] s (State.freeIntake s c) := by
  unfold State.freeIntake
  refine Frame.setHost (by decide) ?_
  exact Frame.refl _ _

theorem State.interrupt_frame (s : State) (fn : ℕ) (iv : ℕ) (admin : Bool) :
    Frame [.reg, .kettle, .host, .units] s (State.interrupt s fn iv admin) := by
  unfold State.interrupt
  extract_lets +onlyGivenNames f; try clear_value f
  extract_lets +onlyGivenNames off
  extract_lets +onlyGivenNames k; try clear_value k
  apply Frame.ite
  · refine Frame.then (State.pcie_frame _ _ _) (by decide) ?_
    refine Frame.setHost (by decide) ?_
    exact Frame.refl _ _
  · refine Frame.setHost (by decide) ?_
    exact Frame.refl _ _

theorem State.place_frame (s : State) (c : Cpl) :
    Frame [.reg, .kettle, .host, .units] s (State.place s c) := by
  unfold State.place
  extract_lets +onlyGivenNames k; try clear_value k
  split
  · refine Frame.then (State.freeIntake_frame _ _) (by decide) ?_
    refine Frame.setHost (by decide) ?_
    exact Frame.refl _ _
  · apply Frame.ite
    · extract_lets +onlyGivenNames -merge src s1
      have h_s1 : Frame [.reg, .kettle, .host, .units] s s1 := by
        unfold s1
        refine Frame.then (State.freeIntake_frame _ _) (by decide) ?_
        refine Frame.setHost (by decide) ?_
        exact Frame.refl _ _
      try clear_value s1
      apply Frame.ite
      · refine Frame.then (State.interrupt_frame _ _ _ _) (by decide) ?_
        assumption
      · assumption
    · refine Frame.setHost (by decide) ?_
      exact Frame.refl _ _

theorem State.grant_frame (s : State) (r : ArbReq) (waiting : List ArbReq) :
    Frame [.reg, .arb] s (State.grant s r waiting) := by
  unfold State.grant
  extract_lets +onlyGivenNames s1
  have h_s1 : Frame [.reg, .arb] s s1 := by
    unfold s1
    apply Frame.ite
    · refine Frame.then (State.count_frame _ _ _ _ _) (by decide) ?_
      exact Frame.refl _ _
    · exact Frame.refl _ _
  try clear_value s1
  refine Frame.setArb (by decide) ?_
  assumption

theorem State.serve_frame (s : State) (cp : ℕ) (inst : ℕ) (party : ℕ) (ctx : ℕ) :
    Frame [.reg, .arb] s (State.serve s cp inst party ctx) := by
  unfold State.serve
  extract_lets +onlyGivenNames first; try clear_value first
  extract_lets +onlyGivenNames s1
  have h_s1 : Frame [.reg, .arb] s s1 := by
    unfold s1
    apply Frame.ite
    · exact Frame.refl _ _
    · refine Frame.foldl ?_ ?_ _
      · intro t q
        beta_reduce
        beta_reduce
        refine Frame.then (State.grant_frame _ _ _) (by decide) ?_
        exact Frame.refl _ _
      · exact Frame.refl _ _
  try clear_value s1
  extract_lets +onlyGivenNames r; try clear_value r
  refine Frame.then (State.grant_frame _ _ _) (by decide) ?_
  assumption

theorem State.setCtrl_frame (s : State) (fn : ℕ) (c : Ctrl) :
    Frame [.host] s (State.setCtrl s fn c) := by
  unfold State.setCtrl
  refine Frame.setHost (by decide) ?_
  exact Frame.refl _ _

theorem State.complete_frame (s : State) (c : CmdId) (sct : ℕ) (sc : ℕ) (dw0 : ℕ) (dw1 : ℕ) (data : List Byte) :
    Frame [.reg, .arb, .kettle, .host, .units] s (State.complete s c sct sc dw0 dw1 data) := by
  unfold State.complete
  extract_lets +onlyGivenNames s0
  have h_s0 : Frame [.reg, .arb, .kettle, .host, .units] s s0 := by
    unfold s0
    refine Frame.then (State.pcie_frame _ _ _) (by decide) ?_
    refine Frame.then (State.place_frame _ _) (by decide) ?_
    refine Frame.then (State.serve_frame _ _ _ _ _) (by decide) ?_
    exact Frame.refl _ _
  try clear_value s0
  extract_lets +onlyGivenNames -merge src sq
  have h_sq : Frame [.reg, .arb, .kettle, .host, .units] s sq := by
    unfold sq
    apply Frame.ite
    · refine Frame.setArb (by decide) ?_
      assumption
    · assumption
  try clear_value sq
  extract_lets +onlyGivenNames s1
  have h_s1 : Frame [.reg, .arb, .kettle, .host, .units] s s1 := by
    unfold s1
    apply Frame.ite
    · assumption
    · refine Frame.then (State.count_frame _ _ _ _ _) (by decide) ?_
      assumption
  try clear_value s1
  extract_lets +onlyGivenNames -merge src s2
  have h_s2 : Frame [.reg, .arb, .kettle, .host, .units] s s2 := by
    unfold s2
    refine Frame.setHost (by decide) ?_
    assumption
  try clear_value s2
  apply Frame.ite
  · assumption
  · extract_lets +onlyGivenNames k e; try clear_value k e
    refine Frame.then (State.setCtrl_frame _ _ _) (by decide) ?_
    assumption

theorem State.turnAway_frame (s : State) (cmd : CmdId) :
    Frame [.reg, .arb, .kettle, .host, .units] s (State.turnAway s cmd) := by
  unfold State.turnAway
  refine Frame.then (State.complete_frame _ _ _ _ _ _ _) (by decide) ?_
  exact Frame.refl _ _

theorem State.fset_frame (s : State) (f : Field) (i : ℕ) (v : ℕ) :
    Frame [.regs] s (State.fset s f i v) := by
  unfold State.fset
  refine Frame.setRegs (by decide) (fun h => by first | with_reducible exact swf_sput _ _ _ h | with_reducible exact swf_filter _ _ h | with_reducible exact swf_serase _ _ h | exact rfl) ?_
  exact Frame.refl _ _

theorem State.fbump_frame (s : State) (f : Field) (i : ℕ) (k : ℕ) :
    Frame [.regs] s (State.fbump s f i k) := by
  unfold State.fbump
  refine Frame.then (State.fset_frame _ _ _ _) (by decide) ?_
  exact Frame.refl _ _

theorem State.fset64_frame (s : State) (lo : Field) (hi : Field) (i : ℕ) (v : ℕ) :
    Frame [.regs] s (State.fset64 s lo hi i v) := by
  unfold State.fset64
  refine Frame.then (State.fset_frame _ _ _ _) (by decide) ?_
  refine Frame.then (State.fset_frame _ _ _ _) (by decide) ?_
  exact Frame.refl _ _

theorem State.recPush_frame (s : State) (e : RecEntry) :
    Frame [.regs, .reg, .kettle] s (State.recPush s e) := by
  unfold State.recPush
  apply Frame.ite
  · extract_lets +onlyGivenNames p n; try clear_value p n
    extract_lets +onlyGivenNames -merge src s1
    have h_s1 : Frame [.regs, .reg, .kettle] s s1 := by
      unfold s1
      refine Frame.setKettle (by decide) ?_
      exact Frame.refl _ _
    try clear_value s1
    extract_lets +onlyGivenNames s2
    have h_s2 : Frame [.regs, .reg, .kettle] s s2 := by
      unfold s2
      refine Frame.then (State.fset64_frame _ _ _ _ _) (by decide) ?_
      assumption
    try clear_value s2
    refine Frame.then (State.count_frame _ _ _ _ _) (by decide) ?_
    assumption
  · refine Frame.setKettle (by decide) ?_
    exact Frame.refl _ _

theorem State.recEv_frame (s : State) (c : ℕ) (i : ℕ) (code : ℕ) (payload : List ℕ) (ctx : ℕ) (inj : Bool) (safety : Bool) :
    Frame [.regs, .reg, .kettle] s (State.recEv s c i code payload ctx inj safety) := by
  unfold State.recEv
  refine Frame.then (State.recPush_frame _ _) (by decide) ?_
  exact Frame.refl _ _

theorem State.draw_frame (s : State) :
    Frame [.freeCount] s (State.draw s).2 := by
  unfold State.draw
  show Frame _ _ _
  refine Frame.setFreeCount (by decide) ?_
  exact Frame.refl _ _

theorem State.useInject_frame (s : State) (c : ℕ) (i : ℕ) (b : ℕ) (k : ℕ) :
    Frame [.regs, .reg] s (State.useInject s c i b k) := by
  unfold State.useInject
  extract_lets +onlyGivenNames l; try clear_value l
  extract_lets +onlyGivenNames -merge src s1
  have h_s1 : Frame [.regs, .reg] s s1 := by
    unfold s1
    refine Frame.setReg (by decide) ?_
    exact Frame.refl _ _
  try clear_value s1
  apply Frame.ite
  · assumption
  · refine Frame.then (State.fset_frame _ _ _ _) (by decide) ?_
    assumption

theorem State.capture_frame (s : State) (c : ℕ) (i : ℕ) (b : ℕ) (info : ℕ) (ctx : ℕ) (inj : Bool) :
    Frame [.regs] s (State.capture s c i b info ctx inj) := by
  unfold State.capture
  extract_lets +onlyGivenNames s1
  have h_s1 : Frame [.regs] s s1 := by
    unfold s1
    refine Frame.then (State.fset_frame _ _ _ _) (by decide) ?_
    refine Frame.then (State.fset_frame _ _ _ _) (by decide) ?_
    exact Frame.refl _ _
  try clear_value s1
  extract_lets +onlyGivenNames s2
  have h_s2 : Frame [.regs] s s2 := by
    unfold s2
    refine Frame.then (State.fset_frame _ _ _ _) (by decide) ?_
    refine Frame.then (State.fset_frame _ _ _ _) (by decide) ?_
    assumption
  try clear_value s2
  extract_lets +onlyGivenNames s3
  have h_s3 : Frame [.regs] s s3 := by
    unfold s3
    refine Frame.then (State.fset64_frame _ _ _ _ _) (by decide) ?_
    assumption
  try clear_value s3
  refine Frame.then (State.fset_frame _ _ _ _) (by decide) ?_
  assumption

theorem State.fsetBit_frame (s : State) (f : Field) (i : ℕ) (b : ℕ) :
    Frame [.regs] s (State.fsetBit s f i b) := by
  unfold State.fsetBit
  refine Frame.then (State.fset_frame _ _ _ _) (by decide) ?_
  exact Frame.refl _ _

theorem State.pldmEvent_frame (s : State) (vs : List ℕ) :
    Frame [.kettle] s (State.pldmEvent s vs) := by
  unfold State.pldmEvent
  apply Frame.ite
  · refine Frame.setKettle (by decide) ?_
    exact Frame.refl _ _
  · exact Frame.refl _ _

theorem State.smartAdd_frame (s : State) (k : ℕ) (n : ℕ) :
    Frame [.kettle] s (State.smartAdd s k n) := by
  unfold State.smartAdd
  refine Frame.setKettle (by decide) ?_
  exact Frame.refl _ _

theorem State.errBit_frame (s : State) (c : ℕ) (i : ℕ) (b : ℕ) (info : ℕ) (ctx : ℕ) (inj : Bool) :
    Frame [.regs, .reg, .kettle] s (State.errBit s c i b info ctx inj) := by
  unfold State.errBit
  extract_lets +onlyGivenNames rising
  extract_lets +onlyGivenNames inj1; try clear_value inj1
  extract_lets +onlyGivenNames s0
  have h_s0 : Frame [.regs, .reg, .kettle] s s0 := by
    unfold s0
    apply Frame.ite
    · exact Frame.refl _ _
    · refine Frame.then (State.useInject_frame _ _ _ _ _) (by decide) ?_
      exact Frame.refl _ _
  try clear_value s0
  extract_lets +onlyGivenNames s1
  have h_s1 : Frame [.regs, .reg, .kettle] s s1 := by
    unfold s1
    apply Frame.ite
    · refine Frame.then (State.capture_frame _ _ _ _ _ _ _) (by decide) ?_
      assumption
    · assumption
  try clear_value s1
  extract_lets +onlyGivenNames s2
  have h_s2 : Frame [.regs, .reg, .kettle] s s2 := by
    unfold s2
    refine Frame.then (State.fbump_frame _ _ _ _) (by decide) ?_
    refine Frame.then (State.fsetBit_frame _ _ _ _) (by decide) ?_
    apply Frame.ite
    · refine Frame.then (State.pldmEvent_frame _ _) (by decide) ?_
      refine Frame.then (State.smartAdd_frame _ _ _) (by decide) ?_
      assumption
    · assumption
  try clear_value s2
  apply Frame.ite
  · refine Frame.then (State.recEv_frame _ _ _ _ _ _ _ _) (by decide) ?_
    assumption
  · assumption

theorem State.aerPost_frame (s : State) (fn : ℕ) (type : ℕ) (info : ℕ) (who : ℕ) :
    Frame [.reg, .arb, .kettle, .host, .units] s (State.aerPost s fn type info who) := by
  unfold State.aerPost
  extract_lets +onlyGivenNames c; try clear_value c
  apply Frame.ite
  · exact Frame.refl _ _
  · split
    · refine Frame.then (State.setCtrl_frame _ _ _) (by decide) ?_
      exact Frame.refl _ _
    · extract_lets +onlyGivenNames s1
      have h_s1 : Frame [.reg, .arb, .kettle, .host, .units] s s1 := by
        unfold s1
        refine Frame.then (State.setCtrl_frame _ _ _) (by decide) ?_
        exact Frame.refl _ _
      try clear_value s1
      refine Frame.then (State.complete_frame _ _ _ _ _ _ _) (by decide) ?_
      assumption

theorem State.aer_frame (s : State) (fn : ℕ) (type : ℕ) (info : ℕ) (who : ℕ) :
    Frame [.reg, .arb, .kettle, .host, .units] s (State.aer s fn type info who) := by
  unfold State.aer
  apply Frame.ite
  · refine Frame.then (State.aerPost_frame _ _ _ _ _) (by decide) ?_
    exact Frame.refl _ _
  · exact Frame.refl _ _

theorem State.err_frame (s : State) (c : ℕ) (i : ℕ) (bs : List ℕ) (info : ℕ) (ctx : ℕ) (inj : Bool) :
    Frame [.regs, .reg, .arb, .kettle, .host, .units] s (State.err s c i bs info ctx inj) := by
  unfold State.err
  extract_lets +onlyGivenNames s1
  have h_s1 : Frame [.regs, .reg, .arb, .kettle, .host, .units] s s1 := by
    unfold s1
    refine Frame.foldl ?_ ?_ _
    · intro t b
      beta_reduce
      beta_reduce
      refine Frame.then (State.errBit_frame _ _ _ _ _ _ _) (by decide) ?_
      exact Frame.refl _ _
    · exact Frame.refl _ _
  try clear_value s1
  apply Frame.ite
  · refine Frame.then (State.aer_frame _ _ _ _ _) (by decide) ?_
    assumption
  · assumption

theorem State.aerWarn_frame (s : State) (fn : ℕ) (b : ℕ) :
    Frame [.reg, .arb, .kettle, .host, .units] s (State.aerWarn s fn b) := by
  unfold State.aerWarn
  apply Frame.ite
  · refine Frame.then (State.aerPost_frame _ _ _ _ _) (by decide) ?_
    exact Frame.refl _ _
  · exact Frame.refl _ _

theorem State.succeed_frame (s : State) (c : CmdId) (dw0 : ℕ) (data : List Byte) :
    Frame [.reg, .arb, .kettle, .host, .units] s (State.succeed s c dw0 data) := by
  unfold State.succeed
  refine Frame.then (State.complete_frame _ _ _ _ _ _ _) (by decide) ?_
  exact Frame.refl _ _

theorem State.fclrBit_frame (s : State) (f : Field) (i : ℕ) (b : ℕ) :
    Frame [.regs] s (State.fclrBit s f i b) := by
  unfold State.fclrBit
  refine Frame.then (State.fset_frame _ _ _ _) (by decide) ?_
  exact Frame.refl _ _

theorem State.clearPage_frame (s : State) (c : ℕ) (i : ℕ) :
    Frame [.regs, .reg] s (State.clearPage s c i) := by
  unfold State.clearPage
  extract_lets +onlyGivenNames keep; try clear_value keep
  refine Frame.upd rfl ?_ (by intro p hp; cases p <;> first | exact absurd (by decide) hp | rfl) (fun h => ⟨((fun h => by first | with_reducible exact swf_sput _ _ _ h | with_reducible exact swf_filter _ _ h | with_reducible exact swf_serase _ _ h | exact rfl) h.1), h.2.1, h.2.2.1, h.2.2.2.1, h.2.2.2.2⟩)
  exact Frame.refl _ _

theorem State.clearClass_frame (s : State) (c : ℕ) :
    Frame [.regs, .reg] s (State.clearClass s c) := by
  unfold State.clearClass
  refine Frame.foldl ?_ ?_ _
  · intro t i
    beta_reduce
    beta_reduce
    refine Frame.then (State.clearPage_frame _ _ _) (by decide) ?_
    exact Frame.refl _ _
  · exact Frame.refl _ _

theorem State.toState_frame (s : State) (c : ℕ) (i : ℕ) (n : ℕ) :
    Frame [.regs, .reg, .kettle] s (State.toState s c i n) := by
  unfold State.toState
  extract_lets +onlyGivenNames old; try clear_value old
  extract_lets +onlyGivenNames s1
  have h_s1 : Frame [.regs, .reg, .kettle] s s1 := by
    unfold s1
    refine Frame.then (State.fset_frame _ _ _ _) (by decide) ?_
    exact Frame.refl _ _
  try clear_value s1
  apply Frame.ite
  · refine Frame.then (State.recEv_frame _ _ _ _ _ _ _ _) (by decide) ?_
    assumption
  · assumption

theorem State.zeroGriddle_frame (s : State) (i : ℕ) :
    Frame [.regs, .units] s (State.zeroGriddle s i) := by
  unfold State.zeroGriddle
  extract_lets +onlyGivenNames s1
  have h_s1 : Frame [.regs, .units] s s1 := by
    unfold s1
    refine Frame.then (State.fset_frame _ _ _ _) (by decide) ?_
    refine Frame.then (State.fset_frame _ _ _ _) (by decide) ?_
    refine Frame.then (State.fset_frame _ _ _ _) (by decide) ?_
    exact Frame.refl _ _
  try clear_value s1
  extract_lets +onlyGivenNames s2
  have h_s2 : Frame [.regs, .units] s s2 := by
    unfold s2
    refine Frame.then (State.fset_frame _ _ _ _) (by decide) ?_
    refine Frame.then (State.fset_frame _ _ _ _) (by decide) ?_
    assumption
  try clear_value s2
  refine Frame.setUnits (by decide) ?_
  assumption

theorem State.toStarting_frame (s : State) (c : ℕ) (i : ℕ) :
    Frame [.regs, .reg, .kettle, .units] s (State.toStarting s c i) := by
  unfold State.toStarting
  extract_lets +onlyGivenNames s0
  have h_s0 : Frame [.regs, .reg, .kettle, .units] s s0 := by
    unfold s0
    refine Frame.then (State.toState_frame _ _ _ _) (by decide) ?_
    exact Frame.refl _ _
  try clear_value s0
  extract_lets +onlyGivenNames s1
  have h_s1 : Frame [.regs, .reg, .kettle, .units] s s1 := by
    unfold s1
    apply Frame.ite
    · refine Frame.then (State.fset_frame _ _ _ _) (by decide) ?_
      refine Frame.then (State.fset_frame _ _ _ _) (by decide) ?_
      assumption
    · apply Frame.ite
      · refine Frame.then (State.zeroGriddle_frame _ _) (by decide) ?_
        assumption
      · assumption
  try clear_value s1
  refine Frame.setReg (by decide) ?_
  assumption

theorem State.putControl_frame (s : State) (f : ℕ → Field) (c : ℕ) (i : ℕ) (v : Bool) :
    Frame [.regs] s (State.putControl s f c i v) := by
  unfold State.putControl
  extract_lets +onlyGivenNames s1
  have h_s1 : Frame [.regs] s s1 := by
    unfold s1
    refine Frame.then (State.fset_frame _ _ _ _) (by decide) ?_
    exact Frame.refl _ _
  try clear_value s1
  apply Frame.ite
  · refine Frame.then (State.fset_frame _ _ _ _) (by decide) ?_
    assumption
  · assumption

theorem State.configReject_frame (s : State) (c : ℕ) (i : ℕ) :
    Frame [.regs, .reg, .arb, .kettle, .host, .units] s (State.configReject s c i) := by
  unfold State.configReject
  refine Frame.then (State.err_frame _ _ _ _ _ _ _) (by decide) ?_
  exact Frame.refl _ _

theorem State.countEvent_frame (s : State) (rule : ℕ) (chan : ℕ) (window : ℕ) :
    Frame [.rel] s (State.countEvent s rule chan window).2 := by
  unfold State.countEvent
  extract_lets +onlyGivenNames k l; try clear_value k l
  show Frame _ _ _
  refine Frame.setRel (by decide) ?_
  exact Frame.refl _ _

theorem State.recordRetirement_frame (s : State) (c : ℕ) (i : ℕ) (sub : ℕ) :
    Frame [.regs, .reg, .arb, .kettle, .eflash, .host, .units] s (State.recordRetirement s c i sub) := by
  unfold State.recordRetirement
  apply Frame.ite
  · refine Frame.then (State.pldmEvent_frame _ _) (by decide) ?_
    refine Frame.then (State.recEv_frame _ _ _ _ _ _ _ _) (by decide) ?_
    refine Frame.setEflash (by decide) ?_
    exact Frame.refl _ _
  · extract_lets +onlyGivenNames -merge src s1
    have h_s1 : Frame [.regs, .reg, .arb, .kettle, .eflash, .host, .units] s s1 := by
      unfold s1
      refine Frame.setEflash (by decide) ?_
      exact Frame.refl _ _
    try clear_value s1
    refine Frame.then (State.pldmEvent_frame _ _) (by decide) ?_
    refine Frame.then (State.recEv_frame _ _ _ _ _ _ _ _) (by decide) ?_
    refine Frame.then (State.err_frame _ _ _ _ _ _ _) (by decide) ?_
    assumption

theorem State.classify_frame (s : State) (k : ℕ) :
    Frame [.units] s (State.classify s k) := by
  unfold State.classify
  apply Frame.ite
  · exact Frame.refl _ _
  · refine Frame.setUnits (by decide) ?_
    exact Frame.refl _ _

theorem State.spareSwitched_frame (s : State) (c : ℕ) (i : ℕ) (kind : ℕ) (old : ℕ) (new : ℕ) :
    Frame [.regs, .reg, .kettle] s (State.spareSwitched s c i kind old new) := by
  unfold State.spareSwitched
  extract_lets +onlyGivenNames s1
  have h_s1 : Frame [.regs, .reg, .kettle] s s1 := by
    unfold s1
    refine Frame.then (State.pldmEvent_frame _ _) (by decide) ?_
    exact Frame.refl _ _
  try clear_value s1
  apply Frame.ite
  · refine Frame.then (State.recEv_frame _ _ _ _ _ _ _ _) (by decide) ?_
    assumption
  · assumption

theorem State.moveFaulted_frame (s : State) (c : ℕ) (i : ℕ) (b : ℕ) :
    Frame [.regs, .reg, .kettle] s (State.moveFaulted s c i b) := by
  unfold State.moveFaulted
  extract_lets +onlyGivenNames st; try clear_value st
  apply Frame.ite
  · extract_lets +onlyGivenNames s2
    have h_s2 : Frame [.regs, .reg, .kettle] s s2 := by
      unfold s2
      refine Frame.then (State.fset_frame _ _ _ _) (by decide) ?_
      refine Frame.then (State.fset_frame _ _ _ _) (by decide) ?_
      exact Frame.refl _ _
    try clear_value s2
    refine Frame.then (State.toState_frame _ _ _ _) (by decide) ?_
    refine Frame.then (State.fset_frame _ _ _ _) (by decide) ?_
    refine Frame.then (State.fset_frame _ _ _ _) (by decide) ?_
    assumption
  · exact Frame.refl _ _

theorem State.faultUnit_frame (s : State) (c : ℕ) (i : ℕ) (b : ℕ) (info : ℕ) (ctx : ℕ) (inj : Bool) :
    Frame [.regs, .reg, .arb, .kettle, .host, .units] s (State.faultUnit s c i b info ctx inj) := by
  unfold State.faultUnit
  refine Frame.then (State.moveFaulted_frame _ _ _ _) (by decide) ?_
  refine Frame.then (State.err_frame _ _ _ _ _ _ _) (by decide) ?_
  exact Frame.refl _ _

theorem State.toRetired_frame (s : State) (c : ℕ) (i : ℕ) :
    Frame [.regs, .reg, .kettle] s (State.toRetired s c i) := by
  unfold State.toRetired
  extract_lets +onlyGivenNames st; try clear_value st
  extract_lets +onlyGivenNames s1
  have h_s1 : Frame [.regs, .reg, .kettle] s s1 := by
    unfold s1
    apply Frame.ite
    · refine Frame.then (State.toState_frame _ _ _ _) (by decide) ?_
      exact Frame.refl _ _
    · exact Frame.refl _ _
  try clear_value s1
  refine Frame.then (State.fset_frame _ _ _ _) (by decide) ?_
  refine Frame.then (State.fset_frame _ _ _ _) (by decide) ?_
  refine Frame.then (State.toState_frame _ _ _ _) (by decide) ?_
  assumption

theorem State.blockEvent_frame (s : State) (c : ℕ) (i : ℕ) (n : ℕ) (info : ℕ) (ok : Bool) (ctx : ℕ) :
    Frame [.regs, .reg, .kettle] s (State.blockEvent s c i n info ok ctx) := by
  unfold State.blockEvent
  apply Frame.ite
  · refine Frame.then (State.recEv_frame _ _ _ _ _ _ _ _) (by decide) ?_
    exact Frame.refl _ _
  · exact Frame.refl _ _

theorem State.condemnUnit_frame (s : State) (c : ℕ) (i : ℕ) (b : ℕ) :
    Frame [.regs, .reg, .kettle, .units] s (State.condemnUnit s c i b) := by
  unfold State.condemnUnit
  refine Frame.then (State.classify_frame _ _) (by decide) ?_
  refine Frame.then (State.moveFaulted_frame _ _ _ _) (by decide) ?_
  exact Frame.refl _ _

theorem State.writeConfig_frame (s : State) (key : ℕ) (v : ℕ) :
    Frame [.eflash] s (State.writeConfig s key v) := by
  unfold State.writeConfig
  apply Frame.ite
  · exact Frame.refl _ _
  · refine Frame.setEflash (by decide) ?_
    exact Frame.refl _ _

theorem State.setPci_frame (s : State) (fn : ℕ) (p : PciFn) :
    Frame [.host] s (State.setPci s fn p) := by
  unfold State.setPci
  refine Frame.setHost (by decide) ?_
  exact Frame.refl _ _

theorem State.rearm_frame (s : State) (fn : ℕ) (type : ℕ) (info : ℕ) (who : ℕ) :
    Frame [.host] s (State.rearm s fn type info who) := by
  unfold State.rearm
  extract_lets +onlyGivenNames c; try clear_value c
  refine Frame.then (State.setCtrl_frame _ _ _) (by decide) ?_
  exact Frame.refl _ _

theorem State.aerWarnAll_frame (s : State) (b : ℕ) :
    Frame [.reg, .arb, .kettle, .host, .units] s (State.aerWarnAll s b) := by
  unfold State.aerWarnAll
  refine Frame.foldl ?_ ?_ _
  · intro t fn
    beta_reduce
    beta_reduce
    refine Frame.then (State.aerWarn_frame _ _ _) (by decide) ?_
    exact Frame.refl _ _
  · exact Frame.refl _ _

theorem State.setMedia_frame (s : State) (mode : ℕ) (cause : ℕ) :
    Frame [.regs, .reg, .arb, .kettle, .eflash, .host, .units] s (State.setMedia s mode cause) := by
  unfold State.setMedia
  extract_lets +onlyGivenNames old; try clear_value old
  extract_lets +onlyGivenNames s1
  have h_s1 : Frame [.regs, .reg, .arb, .kettle, .eflash, .host, .units] s s1 := by
    unfold s1
    refine Frame.then (State.writeConfig_frame _ _ _) (by decide) ?_
    exact Frame.refl _ _
  try clear_value s1
  extract_lets +onlyGivenNames s2
  have h_s2 : Frame [.regs, .reg, .arb, .kettle, .eflash, .host, .units] s s2 := by
    unfold s2
    refine Frame.then (State.fset_frame _ _ _ _) (by decide) ?_
    refine Frame.then (State.fset_frame _ _ _ _) (by decide) ?_
    assumption
  try clear_value s2
  extract_lets +onlyGivenNames s3
  have h_s3 : Frame [.regs, .reg, .arb, .kettle, .eflash, .host, .units] s s3 := by
    unfold s3
    apply Frame.ite
    · assumption
    · refine Frame.then (State.fset64_frame _ _ _ _ _) (by decide) ?_
      assumption
  try clear_value s3
  extract_lets +onlyGivenNames s4
  have h_s4 : Frame [.regs, .reg, .arb, .kettle, .eflash, .host, .units] s s4 := by
    unfold s4
    refine Frame.then (State.aer_frame _ _ _ _ _) (by decide) ?_
    refine Frame.then (State.recEv_frame _ _ _ _ _ _ _ _) (by decide) ?_
    assumption
  try clear_value s4
  apply Frame.ite
  · refine Frame.then (State.aerWarnAll_frame _ _) (by decide) ?_
    assumption
  · assumption

end Sys2Proof.Machine
end

