-- ==== Sys2Proof/Laws/ViewFrame.lean ====
section
/-!
SUPPORT. What each operation of Machine/View.lean can change: the parts of the state its frame names, canonical form kept.
-/

namespace Sys2Proof.Machine

theorem State.startRamp_frame (s : State) (p : ℕ) :
    Frame [.regs, .power] s (State.startRamp s p) := by
  unfold State.startRamp
  extract_lets +onlyGivenNames src
  have h_src : Frame [.regs, .power] s src := by
    unfold src
    refine Frame.then (State.fset_frame _ _ _ _) (by decide) ?_
    exact Frame.refl _ _
  try clear_value src
  refine Frame.setPower (by decide) ?_
  assumption

theorem State.powerDown_frame (s : State) (ds : List ℕ) :
    Frame [.power] s (State.powerDown s ds) := by
  unfold State.powerDown
  refine Frame.setPower (by decide) ?_
  exact Frame.refl _ _

theorem State.stopRamp_frame (s : State) :
    Frame [.regs, .power] s (State.stopRamp s) := by
  unfold State.stopRamp
  extract_lets +onlyGivenNames src
  have h_src : Frame [.regs, .power] s src := by
    unfold src
    refine Frame.then (State.fset_frame _ _ _ _) (by decide) ?_
    exact Frame.refl _ _
  try clear_value src
  refine Frame.setPower (by decide) ?_
  assumption

theorem State.restartMonitors_frame (s : State) (ds : List ℕ) :
    Frame [.regs, .reg] s (State.restartMonitors s ds) := by
  unfold State.restartMonitors
  extract_lets +onlyGivenNames pages; try clear_value pages
  extract_lets +onlyGivenNames s1
  have h_s1 : Frame [.regs, .reg] s s1 := by
    unfold s1
    refine Frame.foldl ?_ ?_ _
    · intro t p
      beta_reduce
      beta_reduce
      refine Frame.then (State.fset_frame _ _ _ _) (by decide) ?_
      refine Frame.then (State.fset_frame _ _ _ _) (by decide) ?_
      exact Frame.refl _ _
    · exact Frame.refl _ _
  try clear_value s1
  refine Frame.setReg (by decide) ?_
  assumption

theorem State.powerUp_frame (s : State) (ds : List ℕ) :
    Frame [.regs, .reg, .power] s (State.powerUp s ds) := by
  unfold State.powerUp
  extract_lets +onlyGivenNames s1
  have h_s1 : Frame [.regs, .reg, .power] s s1 := by
    unfold s1
    refine Frame.then (State.restartMonitors_frame _ _) (by decide) ?_
    exact Frame.refl _ _
  try clear_value s1
  refine Frame.setPower (by decide) ?_
  assumption

theorem State.bringUp_frame (s : State) :
    Frame [.regs, .reg, .power] s (State.bringUp s) := by
  unfold State.bringUp
  extract_lets +onlyGivenNames  down
  extract_lets +onlyGivenNames s1
  have h_s1 : Frame [.regs, .reg, .power] s s1 := by
    unfold s1
    refine Frame.then (State.powerUp_frame _ _) (by decide) ?_
    exact Frame.refl _ _
  try clear_value s1
  apply Frame.ite
  · assumption
  · refine Frame.then (State.powerUp_frame _ _) (by decide) ?_
    refine Frame.then (State.startRamp_frame _ _) (by decide) ?_
    assumption

theorem State.beginExit_frame (s : State) :
    Frame [.regs, .reg, .power, .kettle, .host, .units] s (State.beginExit s) := by
  unfold State.beginExit
  apply Frame.ite
  · exact Frame.refl _ _
  · extract_lets +onlyGivenNames -merge src s1
    have h_s1 : Frame [.regs, .reg, .power, .kettle, .host, .units] s s1 := by
      unfold s1
      refine Frame.then (State.fset_frame _ _ _ _) (by decide) ?_
      refine Frame.setHost (by decide) ?_
      exact Frame.refl _ _
    try clear_value s1
    apply Frame.ite
    · assumption
    · refine Frame.foldl ?_ ?_ _
      · intro t i
        beta_reduce
        beta_reduce
        apply Frame.ite
        · refine Frame.then (State.toStarting_frame _ _ _) (by decide) ?_
          exact Frame.refl _ _
        · exact Frame.refl _ _
      · refine Frame.then (State.powerUp_frame _ _) (by decide) ?_
        assumption

theorem State.wake_frame (s : State) :
    Frame [.regs, .reg, .power, .kettle, .host, .units] s (State.wake s) := by
  unfold State.wake
  apply Frame.ite
  · refine Frame.setHost (by decide) ?_
    exact Frame.refl _ _
  · apply Frame.ite
    · refine Frame.then (State.beginExit_frame _) (by decide) ?_
      exact Frame.refl _ _
    · exact Frame.refl _ _

end Sys2Proof.Machine
end

