-- ==== Sys2Proof/Laws/FtlFrame.lean ====
section
/-!
SUPPORT. What each operation of Machine/Ftl.lean can change: the parts of the state its frame names, canonical form kept.
-/

namespace Sys2Proof.Machine

theorem State.openSuper_frame (s : State) (c : ℕ) (stream : ℕ) (b : ℕ) :
    Frame [.ftl, .nand] s (State.openSuper s c stream b) := by
  unfold State.openSuper
  refine Frame.upd rfl ?_ (by intro p hp; cases p <;> first | exact absurd (by decide) hp | rfl) (fun h => h)
  exact Frame.refl _ _

theorem State.flush_frame (s : State) :
    Frame [.regs, .freeCount, .reg, .ftl] s (State.flush s) := by
  unfold State.flush
  extract_lets +onlyGivenNames s1
  have h_s1 : Frame [.regs, .freeCount, .reg, .ftl] s s1 := by
    unfold s1
    refine Frame.then (State.fset64_frame _ _ _ _ _) (by decide) ?_
    exact Frame.refl _ _
  try clear_value s1
  split
  · extract_lets +onlyGivenNames src
    have h_src : Frame [.regs, .freeCount, .reg, .ftl] s src := by
      unfold src
      refine Frame.then (State.count_frame _ _ _ _ _) (by decide) ?_
      refine Frame.then (State.count_frame _ _ _ _ _) (by decide) ?_
      refine Frame.then (Frame.snd (State.draw_frame _) (by assumption)) (by decide) ?_
      assumption
    try clear_value src
    refine Frame.setFtl (by decide) ?_
    assumption

theorem State.openNext_frame (s : State) (c : ℕ) (stream : ℕ) (journal : Bool) :
    ∀ a u, State.openNext s c stream journal = some (a, u) → Frame [.regs, .freeCount, .reg, .ftl, .nand] s u := by
  have hf : ∀ (o : Option ℕ) (f : ℕ → State), (∀ b, Frame [.regs, .freeCount, .reg, .ftl, .nand] s (f b)) →
      ∀ a u, (o.map fun b => ((b, 0), f b)) = some (a, u) → Frame [.regs, .freeCount, .reg, .ftl, .nand] s u := by
    intro o f h a u hu
    cases o with
    | none => cases hu
    | some b => cases hu; exact h b
  have hb : ∀ b, Frame [.regs, .freeCount, .reg, .ftl, .nand] s
      ((if journal && s.ftl.stale.contains (4 * c + stream) then s.flush else s).openSuper c stream b) := by
    intro b
    refine Frame.then (State.openSuper_frame _ _ _ _) (by decide) ?_
    apply Frame.ite
    · exact Frame.then (State.flush_frame _) (by decide) (Frame.refl _ _)
    · exact Frame.refl _ _
  intro a u
  unfold State.openNext
  extract_lets +onlyGivenNames fresh
  have hfr : ∀ a u, fresh = some (a, u) → Frame [.regs, .freeCount, .reg, .ftl, .nand] s u := hf _ _ hb
  clear_value fresh
  intro hu
  split at hu
  · split at hu
    · cases hu; exact Frame.refl _ _
    · exact hfr _ _ hu
  · exact hfr _ _ hu

theorem State.setPos_frame (s : State) (c : ℕ) (stream : ℕ) (b : ℕ) (pos : ℕ) :
    Frame [.ftl] s (State.setPos s c stream b pos) := by
  unfold State.setPos
  refine Frame.setFtl (by decide) ?_
  exact Frame.refl _ _

theorem State.programPage_frame (s : State) (l : ℕ) (x : Staged) :
    Frame [.reg, .ftl, .nand, .pages] s (State.programPage s l x) := by
  unfold State.programPage
  extract_lets +onlyGivenNames dom p; try clear_value dom p
  extract_lets +onlyGivenNames s1
  have h_s1 : Frame [.reg, .ftl, .nand, .pages] s s1 := by
    unfold s1
    refine Frame.then (State.count_frame _ _ _ _ _) (by decide) ?_
    exact Frame.refl _ _
  try clear_value s1
  refine Frame.upd rfl ?_ (by intro p hp; cases p <;> first | exact absurd (by decide) hp | rfl) (fun h => ⟨h.1, h.2.1, h.2.2.1, h.2.2.2.1, h.2.2.2.2⟩)
  assumption

theorem State.setBlock_frame (s : State) (k : ℕ) (b : Block) :
    Frame [.nand] s (State.setBlock s k b) := by
  unfold State.setBlock
  refine Frame.setNand (by decide) ?_
  exact Frame.refl _ _

theorem State.advanceBlock_frame (s : State) (k : ℕ) (page : ℕ) :
    Frame [.nand] s (State.advanceBlock s k page) := by
  unfold State.advanceBlock
  extract_lets +onlyGivenNames b nx; try clear_value b nx
  refine Frame.then (State.setBlock_frame _ _ _) (by decide) ?_
  exact Frame.refl _ _

theorem State.closeStripe_frame (s : State) (l : ℕ) (force : Bool) :
    Frame [.nand] s (State.closeStripe s l force) := by
  unfold State.closeStripe
  extract_lets +onlyGivenNames c b k n; try clear_value c b k n
  split
  · exact Frame.refl _ _
  · extract_lets +onlyGivenNames key full; try clear_value key full
    apply Frame.ite
    · refine Frame.then (State.advanceBlock_frame _ _ _) (by decide) ?_
      exact Frame.refl _ _
    · exact Frame.refl _ _

theorem State.programWls_frame (s : State) (ls : List ℕ) (xs : List Staged) :
    Frame [.reg, .ftl, .nand, .pages] s (State.programWls s ls xs) := by
  induction ls generalizing s xs with
  | nil => exact Frame.refl _ _
  | cons l ls ih =>
    unfold State.programWls
    extract_lets +onlyGivenNames put s1
    refine Frame.then (ih _ _) (by decide) ?_
    refine Frame.then (State.closeStripe_frame _ _ _) (by decide) ?_
    refine Frame.then (State.advanceBlock_frame _ _ _) (by decide) ?_
    refine Frame.foldl ?_ (Frame.refl _ _) _
    intro t p
    refine Frame.setFtl (by decide) ?_
    exact Frame.then (State.programPage_frame _ _ _) (by decide) (Frame.refl _ _)

theorem State.flushRound_frame (s : State) (c : ℕ) :
    Frame [.regs, .freeCount, .reg, .ftl, .nand, .pages] s (State.flushRound s c) := by
  unfold State.flushRound
  split
  · exact Frame.refl _ _
  · extract_lets +onlyGivenNames ls; try clear_value ls
    refine Frame.then (State.setPos_frame _ _ _ _ _) (by decide) ?_
    refine Frame.then (State.programWls_frame _ _ _) (by decide) ?_
    refine Frame.then (State.openNext_frame _ _ _ _ _ _ (by assumption)) (by decide) ?_
    exact Frame.refl _ _

theorem State.flushRounds_frame (s : State) (c n : ℕ) : Frame [.regs, .freeCount, .reg, .ftl, .nand, .pages] s (State.flushRounds s c n) := by
  induction n generalizing s with
  | zero => exact Frame.refl _ _
  | succ n ih =>
    unfold State.flushRounds
    apply Frame.ite
    · exact Frame.refl _ _
    · exact Frame.then (ih _) (by decide) (Frame.then (State.flushRound_frame _ _) (by decide) (Frame.refl _ _))

theorem State.setMap_frame (s : State) (iu : ℕ) (st : ℕ) (loc : ℕ) :
    Frame [.ftl] s (State.setMap s iu st loc) := by
  unfold State.setMap
  refine Frame.setFtl (by decide) ?_
  exact Frame.refl _ _

theorem State.commitStaged_frame (s : State) (x : Staged) (l : ℕ) :
    Frame [.ftl] s (State.commitStaged s x l) := by
  unfold State.commitStaged
  extract_lets +onlyGivenNames -merge src s1
  have h_s1 : Frame [.ftl] s s1 := by
    unfold s1
    refine Frame.setFtl (by decide) ?_
    exact Frame.refl _ _
  try clear_value s1
  apply Frame.ite
  · refine Frame.setFtl (by decide) ?_
    assumption
  · refine Frame.then (State.setMap_frame _ _ _ _) (by decide) ?_
    assumption

theorem State.stagingFlush_frame (s : State) :
    Frame [.regs, .freeCount, .reg, .ftl, .nand, .pages] s (State.stagingFlush s) := by
  unfold State.stagingFlush
  extract_lets +onlyGivenNames s1
  have h_s1 : Frame [.regs, .freeCount, .reg, .ftl, .nand, .pages] s s1 := by
    unfold s1
    refine Frame.foldl ?_ ?_ _
    · intro t c
      beta_reduce
      beta_reduce
      refine Frame.then (State.flushRounds_frame _ _ _) (by decide) ?_
      exact Frame.refl _ _
    · exact Frame.refl _ _
  try clear_value s1
  extract_lets +onlyGivenNames s2
  have h_s2 : Frame [.regs, .freeCount, .reg, .ftl, .nand, .pages] s s2 := by
    unfold s2
    refine Frame.foldl ?_ ?_ _
    · intro t l
      beta_reduce
      beta_reduce
      refine Frame.then (State.closeStripe_frame _ _ _) (by decide) ?_
      exact Frame.refl _ _
    · assumption
  try clear_value s2
  refine Frame.foldl ?_ ?_ _
  · intro t x
    beta_reduce
    beta_reduce
    split
    · refine Frame.then (State.commitStaged_frame _ _ _) (by decide) ?_
      exact Frame.refl _ _
    · exact Frame.refl _ _
  · assumption

theorem State.countReads_frame (s : State) (ius : List ℕ) (reached : List ℕ) :
    Frame [.regs, .reg] s (State.countReads s ius reached) := by
  unfold State.countReads
  refine Frame.foldl ?_ ?_ _
  · intro t iu
    beta_reduce
    beta_reduce
    apply Frame.ite
    · exact Frame.refl _ _
    · extract_lets +onlyGivenNames byCopy; try clear_value byCopy
      apply Frame.ite
      · refine Frame.then (State.fset64_frame _ _ _ _ _) (by decide) ?_
        exact Frame.refl _ _
      · extract_lets +onlyGivenNames c; try clear_value c
        refine Frame.then (State.count_frame _ _ _ _ _) (by decide) ?_
        refine Frame.then (State.fset64_frame _ _ _ _ _) (by decide) ?_
        exact Frame.refl _ _
  · exact Frame.refl _ _

theorem State.dropCopy_frame (s : State) (tk : ℕ) :
    Frame [.regs, .tiers] s (State.dropCopy s tk) := by
  unfold State.dropCopy
  split
  · exact Frame.refl _ _
  · extract_lets +onlyGivenNames n; try clear_value n
    extract_lets +onlyGivenNames s1
    have h_s1 : Frame [.regs, .tiers] s s1 := by
      unfold s1
      apply Frame.ite
      · refine Frame.then (State.fset64_frame _ _ _ _ _) (by decide) ?_
        exact Frame.refl _ _
      · exact Frame.refl _ _
    try clear_value s1
    refine Frame.setTiers (by decide) ?_
    assumption

theorem State.dropCopies_frame (s : State) (p : ℕ → Bool) :
    Frame [.regs, .tiers] s (State.dropCopies s p) := by
  unfold State.dropCopies
  refine Frame.foldl ?_ ?_ _
  · intro t k
    beta_reduce
    beta_reduce
    refine Frame.then (State.dropCopy_frame _ _) (by decide) ?_
    exact Frame.refl _ _
  · exact Frame.refl _ _

theorem State.copiesOnWrite_frame (s : State) (ius : List ℕ) :
    Frame [.regs, .tiers] s (State.copiesOnWrite s ius) := by
  unfold State.copiesOnWrite
  refine Frame.then (State.dropCopies_frame _ _) (by decide) ?_
  exact Frame.refl _ _

theorem State.dropVersions_frame (s : State) (iu : ℕ) :
    Frame [.ftl] s (State.dropVersions s iu) := by
  unfold State.dropVersions
  refine Frame.setFtl (by decide) ?_
  exact Frame.refl _ _

theorem State.stageIu_frame (s : State) (iu : ℕ) (stream : ℕ) (data : Mem) (zero : Bool) (gseq : ℕ) (gcount : ℕ) (dom : Option ℕ) (repair : Bool) (lists : List ℕ) :
    Frame [.regs, .ftl] s (State.stageIu s iu stream data zero gseq gcount dom repair lists) := by
  unfold State.stageIu
  extract_lets +onlyGivenNames q; try clear_value q
  extract_lets +onlyGivenNames s1
  have h_s1 : Frame [.regs, .ftl] s s1 := by
    unfold s1
    refine Frame.then (State.fset64_frame _ _ _ _ _) (by decide) ?_
    exact Frame.refl _ _
  try clear_value s1
  extract_lets +onlyGivenNames  pending
  extract_lets +onlyGivenNames  old
  extract_lets +onlyGivenNames x vs; try clear_value x vs
  refine Frame.setFtl (by decide) ?_
  assumption

theorem State.nvmWrite_frame (s : State) (ns : ℕ) (off : ℕ) (bs : List Byte) (compute : Bool) (zero : Bool) :
    Frame [.regs, .reg, .ftl] s (State.nvmWrite s ns off bs compute zero) := by
  unfold State.nvmWrite
  extract_lets +onlyGivenNames n s0 first; try clear_value n s0 first
  extract_lets +onlyGivenNames s1
  have h_s1 : Frame [.regs, .reg, .ftl] s s1 := by
    unfold s1
    refine Frame.foldl ?_ ?_ _
    · intro t iu
      beta_reduce
      beta_reduce
      extract_lets +onlyGivenNames lo hi; try clear_value lo hi
      extract_lets +onlyGivenNames data
      extract_lets +onlyGivenNames g gs dom; try clear_value g gs dom
      extract_lets +onlyGivenNames t1
      have h_t1 : Frame [.regs, .reg, .ftl] t t1 := by
        unfold t1
        apply Frame.ite
        · exact Frame.refl _ _
        · refine Frame.then (State.dropVersions_frame _ _) (by decide) ?_
          exact Frame.refl _ _
      try clear_value t1
      refine Frame.then (State.stageIu_frame _ _ _ _ _ _ _ _ _ _) (by decide) ?_
      assumption
    · exact Frame.refl _ _
  try clear_value s1
  extract_lets +onlyGivenNames acc; try clear_value acc
  extract_lets +onlyGivenNames src
  have h_src : Frame [.regs, .reg, .ftl] s src := by
    unfold src
    refine Frame.then (State.count_frame _ _ _ _ _) (by decide) ?_
    assumption
  try clear_value src
  refine Frame.setFtl (by decide) ?_
  assumption

theorem State.unmapIu_frame (s : State) (iu : ℕ) :
    Frame [.ftl] s (State.unmapIu s iu) := by
  unfold State.unmapIu
  extract_lets +onlyGivenNames s1
  have h_s1 : Frame [.ftl] s s1 := by
    unfold s1
    refine Frame.then (State.setMap_frame _ _ _ _) (by decide) ?_
    refine Frame.then (State.dropVersions_frame _ _) (by decide) ?_
    exact Frame.refl _ _
  try clear_value s1
  refine Frame.setFtl (by decide) ?_
  assumption

theorem State.deallocate_frame (s : State) (ns : ℕ) (off : ℕ) (n : ℕ) :
    Frame [.regs, .reg, .ftl] s (State.deallocate s ns off n) := by
  unfold State.deallocate
  refine Frame.foldl ?_ ?_ _
  · intro t iu
    beta_reduce
    beta_reduce
    extract_lets +onlyGivenNames lo hi; try clear_value lo hi
    apply Frame.ite
    · refine Frame.then (State.unmapIu_frame _ _) (by decide) ?_
      exact Frame.refl _ _
    · refine Frame.then (State.nvmWrite_frame _ _ _ _ _ _) (by decide) ?_
      exact Frame.refl _ _
  · exact Frame.refl _ _

theorem State.dropCopiesOf_frame (s : State) (ius : List ℕ) :
    Frame [.regs, .tiers] s (State.dropCopiesOf s ius) := by
  unfold State.dropCopiesOf
  refine Frame.then (State.dropCopies_frame _ _) (by decide) ?_
  exact Frame.refl _ _

theorem State.refreshMargin_frame (s : State) :
    Frame [.regs] s (State.refreshMargin s) := by
  unfold State.refreshMargin
  extract_lets +onlyGivenNames m; try clear_value m
  extract_lets +onlyGivenNames s1
  have h_s1 : Frame [.regs] s s1 := by
    unfold s1
    refine Frame.then (State.fset_frame _ _ _ _) (by decide) ?_
    exact Frame.refl _ _
  try clear_value s1
  extract_lets +onlyGivenNames s2
  have h_s2 : Frame [.regs] s s2 := by
    unfold s2
    refine Frame.then (State.fset_frame _ _ _ _) (by decide) ?_
    refine Frame.then (State.fset_frame _ _ _ _) (by decide) ?_
    assumption
  try clear_value s2
  refine Frame.then (State.fset_frame _ _ _ _) (by decide) ?_
  assumption

theorem State.unmapNs_frame (s : State) (ns : ℕ) :
    Frame [.ftl] s (State.unmapNs s ns) := by
  unfold State.unmapNs
  refine Frame.setFtl (by decide) ?_
  exact Frame.refl _ _

theorem State.allocLoc_frame (s : State) (c : ℕ) (stream : ℕ) :
    ∀ a u, State.allocLoc s c stream = some (a, u) → Frame [.regs, .freeCount, .reg, .ftl, .nand] s u := by
  intro a u hu
  unfold State.allocLoc at hu
  obtain ⟨⟨⟨b, pos⟩, s0⟩, h0, h1⟩ := Option.bind_eq_some_iff.mp hu
  obtain ⟨l, _, h2⟩ := Option.map_eq_some_iff.mp h1
  cases h2
  exact Frame.then (State.setPos_frame _ _ _ _ _) (by decide) (State.openNext_frame _ _ _ _ _ _ h0)

theorem State.heatT2_frame (s : State) (ns : ℕ) (off : ℕ) (n : ℕ) (hint : ℕ) :
    Frame [.tiers] s (State.heatT2 s ns off n hint) := by
  unfold State.heatT2
  refine Frame.foldl ?_ ?_ _
  · intro t i
    beta_reduce
    beta_reduce
    extract_lets +onlyGivenNames tk; try clear_value tk
    refine Frame.setTiers (by decide) ?_
    exact Frame.refl _ _
  · exact Frame.refl _ _

end Sys2Proof.Machine
end

