-- ==== Sys2Proof/Laws/HomeFrame.lean ====
section
/-!
SUPPORT. What each operation of Machine/Home.lean can change: the parts of the state its frame names, canonical form kept.
-/

namespace Sys2Proof.Machine

theorem State.setCtx_frame (s : State) (c : ℕ) (x : Ctx) :
    Frame [.cp] s (State.setCtx s c x) := by
  unfold State.setCtx
  refine Frame.setCp (by decide) ?_
  exact Frame.refl _ _

theorem State.dropExcept_frame (s : State) (c : ℕ) (keepRun : ℕ → Move → Bool) (keepStep : ℕ → PuuStep → Bool) :
    Frame [.arb, .units] s (State.dropExcept s c keepRun keepStep) := by
  unfold State.dropExcept
  extract_lets +onlyGivenNames  own
  extract_lets +onlyGivenNames runs steps; try clear_value runs steps
  refine Frame.upd rfl ?_ (by intro p hp; cases p <;> first | exact absurd (by decide) hp | rfl) (fun h => h)
  exact Frame.refl _ _

theorem State.dropUnstarted_frame (s : State) (c : ℕ) (f : FaultInfo) :
    Frame [.arb, .units] s (State.dropUnstarted s c f) := by
  unfold State.dropUnstarted
  refine Frame.then (State.dropExcept_frame _ _ _ _) (by decide) ?_
  exact Frame.refl _ _

theorem State.writeRecord_frame (s : State) (t : Task) (sct : ℕ) (sc : ℕ) (dw0 : ℕ) :
    Frame [.reg, .kettle, .host, .units, .hostMem] s (State.writeRecord s t sct sc dw0) := by
  unfold State.writeRecord
  extract_lets +onlyGivenNames a; try clear_value a
  apply Frame.ite
  · exact Frame.refl _ _
  · extract_lets +onlyGivenNames bs; try clear_value bs
    refine Frame.then (State.pcie_frame _ _ _) (by decide) ?_
    refine Frame.memHost (by decide) (by decide) (fun h => by try dsimp +zetaDelta only; repeat' (first | with_reducible assumption | with_reducible refine wf_fill _ _ _ _ ?_ | with_reducible refine wf_writeL _ _ _ ?_ | with_reducible refine wf_copyFrom _ _ _ _ ?_ | exact wf_empty | with_reducible refine wf_foldl _ (fun m x h => ?_) _ ?_ _)) ?_
    exact Frame.refl _ _

theorem State.postTask_frame (s : State) (t : Task) (sct : ℕ) (sc : ℕ) (dw0 : ℕ) (dw1 : ℕ) :
    Frame [.reg, .arb, .kettle, .host, .units, .hostMem] s (State.postTask s t sct sc dw0 dw1) := by
  unfold State.postTask
  refine Frame.then (State.complete_frame _ _ _ _ _ _ _) (by decide) ?_
  refine Frame.then (State.writeRecord_frame _ _ _ _ _) (by decide) ?_
  exact Frame.refl _ _

theorem State.spoil_frame (s : State) (ws : List (ℕ × ℕ × ℕ)) :
    Frame [.freeCount, .host, .cp, .tiers, .hbm, .sb, .hostMem] s (State.spoil s ws) := by
  unfold State.spoil
  refine Frame.foldl ?_ ?_ _
  · intro t w
    beta_reduce
    beta_reduce
    extract_lets +onlyGivenNames k; try clear_value k
    extract_lets +onlyGivenNames t1
    have h_t1 : Frame [.freeCount, .host, .cp, .tiers, .hbm, .sb, .hostMem] t t1 := by
      unfold t1
      refine Frame.setFreeCount (by decide) ?_
      exact Frame.refl _ _
    try clear_value t1
    apply Frame.ite
    · refine Frame.memCp (by decide) (by decide) (fun h => by try dsimp +zetaDelta only; repeat' (first | with_reducible assumption | with_reducible refine wf_fill _ _ _ _ ?_ | with_reducible refine wf_writeL _ _ _ ?_ | with_reducible refine wf_copyFrom _ _ _ _ ?_ | exact wf_empty | with_reducible refine wf_foldl _ (fun m x h => ?_) _ ?_ _)) ?_
      assumption
    · apply Frame.ite
      · refine Frame.memTiers (by decide) (by decide) (fun h => by try dsimp +zetaDelta only; repeat' (first | with_reducible assumption | with_reducible refine wf_fill _ _ _ _ ?_ | with_reducible refine wf_writeL _ _ _ ?_ | with_reducible refine wf_copyFrom _ _ _ _ ?_ | exact wf_empty | with_reducible refine wf_foldl _ (fun m x h => ?_) _ ?_ _)) ?_
        assumption
      · refine Frame.memHost (by decide) (by decide) (fun h => by try dsimp +zetaDelta only; repeat' (first | with_reducible assumption | with_reducible refine wf_fill _ _ _ _ ?_ | with_reducible refine wf_writeL _ _ _ ?_ | with_reducible refine wf_copyFrom _ _ _ _ ?_ | exact wf_empty | with_reducible refine wf_foldl _ (fun m x h => ?_) _ ?_ _)) ?_
        assumption
  · exact Frame.refl _ _

theorem State.dropWork_frame (s : State) (c : ℕ) :
    Frame [.arb, .units] s (State.dropWork s c) := by
  unfold State.dropWork
  refine Frame.then (State.dropExcept_frame _ _ _ _) (by decide) ?_
  exact Frame.refl _ _

theorem State.clearSlots_frame (s : State) (c : ℕ) :
    Frame [.near] s (State.clearSlots s c) := by
  unfold State.clearSlots
  refine Frame.setNear (by decide) ?_
  exact Frame.refl _ _

theorem State.missAborts_frame (s : State) (cmd : CmdId) :
    Frame [.regs, .reg, .arb, .kettle, .host, .units] s (State.missAborts s cmd) := by
  unfold State.missAborts
  refine Frame.foldl ?_ ?_ _
  · intro u a
    beta_reduce
    beta_reduce
    extract_lets +onlyGivenNames k; try clear_value k
    refine Frame.then (State.complete_frame _ _ _ _ _ _ _) (by decide) ?_
    refine Frame.then (State.fbump_frame _ _ _ _) (by decide) ?_
    refine Frame.then (State.setCtrl_frame _ _ _) (by decide) ?_
    exact Frame.refl _ _
  · exact Frame.refl _ _

theorem State.clearHalts_frame (s : State) (r : Request) :
    Frame [.regs] s (State.clearHalts s r) := by
  unfold State.clearHalts
  refine Frame.foldl ?_ ?_ _
  · intro t h
    beta_reduce
    beta_reduce
    refine Frame.foldl ?_ ?_ _
    · intro t n
      beta_reduce
      beta_reduce
      apply Frame.ite
      · refine Frame.then (State.fset_frame _ _ _ _) (by decide) ?_
        exact Frame.refl _ _
      · exact Frame.refl _ _
    · exact Frame.refl _ _
  · exact Frame.refl _ _

theorem State.setMode_frame (s : State) (i : ℕ) (m : ℕ) :
    Frame [.regs, .units] s (State.setMode s i m) := by
  unfold State.setMode
  apply Frame.ite
  · exact Frame.refl _ _
  · extract_lets +onlyGivenNames s1
    have h_s1 : Frame [.regs, .units] s s1 := by
      unfold s1
      refine Frame.then (State.fset_frame _ _ _ _) (by decide) ?_
      refine Frame.then (State.fset_frame _ _ _ _) (by decide) ?_
      exact Frame.refl _ _
    try clear_value s1
    extract_lets +onlyGivenNames -merge src s2
    have h_s2 : Frame [.regs, .units] s s2 := by
      unfold s2
      refine Frame.setUnits (by decide) ?_
      assumption
    try clear_value s2
    refine Frame.then (State.fset_frame _ _ _ _) (by decide) ?_
    assumption

theorem State.refreshOwner_frame (s : State) (i : ℕ) :
    Frame [.regs] s (State.refreshOwner s i) := by
  unfold State.refreshOwner
  extract_lets +onlyGivenNames os v; try clear_value os v
  refine Frame.then (State.fset_frame _ _ _ _) (by decide) ?_
  exact Frame.refl _ _

theorem State.setHome_frame (s : State) (r : Request) (c : ℕ) :
    Frame [.regs, .cp, .units] s (State.setHome s r c) := by
  unfold State.setHome
  extract_lets +onlyGivenNames s1
  have h_s1 : Frame [.regs, .cp, .units] s s1 := by
    unfold s1
    refine Frame.foldl ?_ ?_ _
    · intro t h
      beta_reduce
      beta_reduce
      extract_lets +onlyGivenNames t1
      have h_t1 : Frame [.regs, .cp, .units] t t1 := by
        unfold t1
        refine Frame.foldl ?_ ?_ _
        · intro t g
          beta_reduce
          beta_reduce
          apply Frame.ite
          · exact Frame.refl _ _
          · split
            · exact Frame.refl _ _
            · extract_lets +onlyGivenNames t1
              have h_t1 : Frame [.regs, .cp, .units] t t1 := by
                unfold t1
                apply Frame.ite
                · exact Frame.refl _ _
                · refine Frame.then (State.setMode_frame _ _ _) (by decide) ?_
                  exact Frame.refl _ _
              try clear_value t1
              refine Frame.then (State.refreshOwner_frame _ _) (by decide) ?_
              refine Frame.foldl ?_ ?_ _
              · intro t k
                beta_reduce
                beta_reduce
                apply Frame.ite
                · refine Frame.then (State.fset_frame _ _ _ _) (by decide) ?_
                  exact Frame.refl _ _
                · exact Frame.refl _ _
              · assumption
        · exact Frame.refl _ _
      try clear_value t1
      extract_lets +onlyGivenNames t2
      have h_t2 : Frame [.regs, .cp, .units] t t2 := by
        unfold t2
        refine Frame.foldl ?_ ?_ _
        · intro t n
          beta_reduce
          beta_reduce
          apply Frame.ite
          · refine Frame.then (State.fset_frame _ _ _ _) (by decide) ?_
            exact Frame.refl _ _
          · exact Frame.refl _ _
        · assumption
      try clear_value t2
      extract_lets +onlyGivenNames t3
      have h_t3 : Frame [.regs, .cp, .units] t t3 := by
        unfold t3
        refine Frame.foldl ?_ ?_ _
        · intro t n
          beta_reduce
          beta_reduce
          apply Frame.ite
          · refine Frame.then (State.fset_frame _ _ _ _) (by decide) ?_
            exact Frame.refl _ _
          · exact Frame.refl _ _
        · assumption
      try clear_value t3
      extract_lets +onlyGivenNames t4
      have h_t4 : Frame [.regs, .cp, .units] t t4 := by
        unfold t4
        apply Frame.ite
        · refine Frame.then (State.fset_frame _ _ _ _) (by decide) ?_
          assumption
        · assumption
      try clear_value t4
      extract_lets +onlyGivenNames t5
      have h_t5 : Frame [.regs, .cp, .units] t t5 := by
        unfold t5
        apply Frame.ite
        · refine Frame.then (State.fset_frame _ _ _ _) (by decide) ?_
          assumption
        · assumption
      try clear_value t5
      refine Frame.foldl ?_ ?_ _
      · intro t g
        beta_reduce
        beta_reduce
        apply Frame.ite
        · refine Frame.then (State.fset_frame _ _ _ _) (by decide) ?_
          exact Frame.refl _ _
        · exact Frame.refl _ _
      · assumption
    · exact Frame.refl _ _
  try clear_value s1
  refine Frame.setCp (by decide) ?_
  assumption

theorem State.releaseHome_frame (s : State) (r : Request) :
    Frame [.regs, .cp, .units] s (State.releaseHome s r) := by
  unfold State.releaseHome
  refine Frame.then (State.clearHalts_frame _ _) (by decide) ?_
  refine Frame.then (State.setHome_frame _ _ _) (by decide) ?_
  exact Frame.refl _ _

theorem State.prune_frame (s : State) :
    Frame [.ftl] s (State.prune s) := by
  unfold State.prune
  extract_lets +onlyGivenNames  keep
  extract_lets +onlyGivenNames gone doms; try clear_value gone doms
  refine Frame.setFtl (by decide) ?_
  exact Frame.refl _ _

theorem State.freezeTask_frame (s : State) (c : ℕ) (x : Ctx) (t : Task) (lg0 : CtxLog) :
    Frame [.regs, .freeCount, .reg, .arb, .kettle, .host, .cp, .units, .tiers, .ftl, .near, .hbm, .sb, .hostMem] s (State.freezeTask s c x t lg0) := by
  unfold State.freezeTask
  extract_lets +onlyGivenNames lg; try clear_value lg
  extract_lets +onlyGivenNames s1
  have h_s1 : Frame [.regs, .freeCount, .reg, .arb, .kettle, .host, .cp, .units, .tiers, .ftl, .near, .hbm, .sb, .hostMem] s s1 := by
    unfold s1
    refine Frame.then (State.postTask_frame _ _ _ _ _ _) (by decide) ?_
    refine Frame.then (State.spoil_frame _ _) (by decide) ?_
    refine Frame.then (State.dropWork_frame _ _) (by decide) ?_
    refine Frame.then (State.clearSlots_frame _ _) (by decide) ?_
    exact Frame.refl _ _
  try clear_value s1
  extract_lets +onlyGivenNames sm
  have h_sm : Frame [.regs, .freeCount, .reg, .arb, .kettle, .host, .cp, .units, .tiers, .ftl, .near, .hbm, .sb, .hostMem] s sm := by
    unfold sm
    refine Frame.then (State.missAborts_frame _ _) (by decide) ?_
    assumption
  try clear_value sm
  extract_lets +onlyGivenNames s2
  have h_s2 : Frame [.regs, .freeCount, .reg, .arb, .kettle, .host, .cp, .units, .tiers, .ftl, .near, .hbm, .sb, .hostMem] s s2 := by
    unfold s2
    apply Frame.ite
    · refine Frame.then (State.releaseHome_frame _ _) (by decide) ?_
      assumption
    · assumption
  try clear_value s2
  extract_lets +onlyGivenNames s3
  have h_s3 : Frame [.regs, .freeCount, .reg, .arb, .kettle, .host, .cp, .units, .tiers, .ftl, .near, .hbm, .sb, .hostMem] s s3 := by
    unfold s3
    refine Frame.then (State.setCtx_frame _ _ _) (by decide) ?_
    assumption
  try clear_value s3
  refine Frame.then (State.aer_frame _ _ _ _ _) (by decide) ?_
  refine Frame.then (State.recEv_frame _ _ _ _ _ _ _ _) (by decide) ?_
  refine Frame.then (State.prune_frame _) (by decide) ?_
  assumption

theorem State.endFault_frame (s : State) (c : ℕ) :
    Frame [.regs, .freeCount, .reg, .arb, .kettle, .host, .cp, .units, .tiers, .ftl, .near, .hbm, .sb, .hostMem] s (State.endFault s c) := by
  unfold State.endFault
  split
  · exact Frame.refl _ _
  · split
    · apply Frame.ite
      · refine Frame.then (State.freezeTask_frame _ _ _ _ _) (by decide) ?_
        exact Frame.refl _ _
      · exact Frame.refl _ _
    · exact Frame.refl _ _

theorem State.faultCtx_frame (s : State) (c : ℕ) (f : FaultInfo) :
    Frame [.regs, .freeCount, .reg, .arb, .kettle, .host, .cp, .units, .tiers, .ftl, .near, .hbm, .sb, .hostMem] s (State.faultCtx s c f) := by
  unfold State.faultCtx
  split
  · exact Frame.refl _ _
  · apply Frame.ite
    · refine Frame.then (State.setCtx_frame _ _ _) (by decide) ?_
      exact Frame.refl _ _
    · split
      · exact Frame.refl _ _
      · split
        · refine Frame.then (State.setCtx_frame _ _ _) (by decide) ?_
          exact Frame.refl _ _
        · extract_lets +onlyGivenNames s1
          have h_s1 : Frame [.regs, .freeCount, .reg, .arb, .kettle, .host, .cp, .units, .tiers, .ftl, .near, .hbm, .sb, .hostMem] s s1 := by
            unfold s1
            refine Frame.then (State.dropUnstarted_frame _ _ _) (by decide) ?_
            exact Frame.refl _ _
          try clear_value s1
          extract_lets +onlyGivenNames run t1; try clear_value run t1
          refine Frame.then (State.endFault_frame _ _) (by decide) ?_
          refine Frame.then (State.setCtx_frame _ _ _) (by decide) ?_
          assumption

theorem State.freeCtxPages_frame (s : State) (c : ℕ) (x : Ctx) :
    Frame [.tiers] s (State.freeCtxPages s c x) := by
  unfold State.freeCtxPages
  refine Frame.setTiers (by decide) ?_
  exact Frame.refl _ _

theorem State.removeCtx_frame (s : State) (c : ℕ) (x : Ctx) :
    Frame [.regs, .host, .cp, .units, .tiers, .ftl, .near] s (State.removeCtx s c x) := by
  unfold State.removeCtx
  extract_lets +onlyGivenNames s1
  have h_s1 : Frame [.regs, .host, .cp, .units, .tiers, .ftl, .near] s s1 := by
    unfold s1
    refine Frame.then (State.freeCtxPages_frame _ _ _) (by decide) ?_
    apply Frame.ite
    · refine Frame.then (State.releaseHome_frame _ _) (by decide) ?_
      exact Frame.refl _ _
    · exact Frame.refl _ _
  try clear_value s1
  extract_lets +onlyGivenNames s2
  have h_s2 : Frame [.regs, .host, .cp, .units, .tiers, .ftl, .near] s s2 := by
    unfold s2
    refine Frame.foldl ?_ ?_ _
    · intro t h
      beta_reduce
      beta_reduce
      extract_lets +onlyGivenNames g; try clear_value g
      apply Frame.ite
      · exact Frame.refl _ _
      · extract_lets +onlyGivenNames t1
        have h_t1 : Frame [.regs, .host, .cp, .units, .tiers, .ftl, .near] t t1 := by
          unfold t1
          refine Frame.then (State.fset_frame _ _ _ _) (by decide) ?_
          exact Frame.refl _ _
        try clear_value t1
        apply Frame.ite
        · refine Frame.then (State.fclrBit_frame _ _ _ _) (by decide) ?_
          assumption
        · refine Frame.then (State.fclrBit_frame _ _ _ _) (by decide) ?_
          assumption
    · assumption
  try clear_value s2
  extract_lets +onlyGivenNames sqs; try clear_value sqs
  refine Frame.upd rfl ?_ (by intro p hp; cases p <;> first | exact absurd (by decide) hp | rfl) (fun h => h)
  assumption

theorem State.dropHeld_frame (s : State) (c : ℕ) :
    Frame [.reg, .arb, .kettle, .host, .units] s (State.dropHeld s c) := by
  unfold State.dropHeld
  refine Frame.foldl ?_ ?_ _
  · intro t e
    beta_reduce
    beta_reduce
    refine Frame.then (State.complete_frame _ _ _ _ _ _ _) (by decide) ?_
    exact Frame.refl _ _
  · exact Frame.refl _ _

theorem State.endTear_frame (s : State) (c : ℕ) :
    Frame [.regs, .reg, .arb, .kettle, .host, .cp, .units, .tiers, .ftl, .near] s (State.endTear s c) := by
  unfold State.endTear
  split
  · exact Frame.refl _ _
  · apply Frame.ite
    · refine Frame.then (State.prune_frame _) (by decide) ?_
      refine Frame.then (State.removeCtx_frame _ _ _) (by decide) ?_
      refine Frame.then (State.dropHeld_frame _ _) (by decide) ?_
      exact Frame.refl _ _
    · exact Frame.refl _ _

theorem State.cmdDone_frame (s : State) (op : ℕ) (force : ℕ) (v : ℕ) (result : ℕ) (out : ℕ) :
    Frame [.regs] s (State.cmdDone s op force v result out) := by
  unfold State.cmdDone
  extract_lets +onlyGivenNames s1
  have h_s1 : Frame [.regs] s s1 := by
    unfold s1
    refine Frame.then (State.fset_frame _ _ _ _) (by decide) ?_
    refine Frame.then (State.fset_frame _ _ _ _) (by decide) ?_
    refine Frame.then (State.fset_frame _ _ _ _) (by decide) ?_
    exact Frame.refl _ _
  try clear_value s1
  extract_lets +onlyGivenNames s2
  have h_s2 : Frame [.regs] s s2 := by
    unfold s2
    refine Frame.then (State.fset_frame _ _ _ _) (by decide) ?_
    refine Frame.then (State.fset_frame _ _ _ _) (by decide) ?_
    assumption
  try clear_value s2
  refine Frame.then (State.fset_frame _ _ _ _) (by decide) ?_
  refine Frame.then (State.fset_frame _ _ _ _) (by decide) ?_
  assumption

theorem State.finishTear_frame (s : State) (c : ℕ) :
    Frame [.regs, .reg, .arb, .kettle, .host, .cp, .units, .tiers, .ftl, .near] s (State.finishTear s c) := by
  unfold State.finishTear
  split
  · exact Frame.refl _ _
  · apply Frame.ite
    · exact Frame.refl _ _
    · extract_lets +onlyGivenNames s1
      have h_s1 : Frame [.regs, .reg, .arb, .kettle, .host, .cp, .units, .tiers, .ftl, .near] s s1 := by
        unfold s1
        refine Frame.foldl ?_ ?_ _
        · intro t k
          beta_reduce
          beta_reduce
          refine Frame.then (State.succeed_frame _ _ _ _) (by decide) ?_
          exact Frame.refl _ _
        · refine Frame.then (State.endTear_frame _ _) (by decide) ?_
          exact Frame.refl _ _
      try clear_value s1
      apply Frame.ite
      · refine Frame.then (State.cmdDone_frame _ _ _ _ _ _) (by decide) ?_
        assumption
      · assumption

theorem State.serveIntake_frame (s : State) (c : ℕ) (x : Ctx) :
    Frame [.reg, .arb] s (State.serveIntake s c x) := by
  unfold State.serveIntake
  refine Frame.foldl ?_ ?_ _
  · intro t h
    beta_reduce
    beta_reduce
    refine Frame.then (State.serve_frame _ _ _ _ _) (by decide) ?_
    exact Frame.refl _ _
  · exact Frame.refl _ _

theorem State.startTear_frame (s : State) (c : ℕ) :
    Frame [.regs, .freeCount, .reg, .arb, .kettle, .host, .cp, .units, .tiers, .near, .hbm, .sb, .hostMem] s (State.startTear s c) := by
  unfold State.startTear
  split
  · exact Frame.refl _ _
  · apply Frame.ite
    · exact Frame.refl _ _
    · extract_lets +onlyGivenNames s0
      have h_s0 : Frame [.regs, .freeCount, .reg, .arb, .kettle, .host, .cp, .units, .tiers, .near, .hbm, .sb, .hostMem] s s0 := by
        unfold s0
        refine Frame.then (State.serveIntake_frame _ _ _) (by decide) ?_
        exact Frame.refl _ _
      try clear_value s0
      extract_lets +onlyGivenNames s1
      have h_s1 : Frame [.regs, .freeCount, .reg, .arb, .kettle, .host, .cp, .units, .tiers, .near, .hbm, .sb, .hostMem] s s1 := by
        unfold s1
        split
        · refine Frame.then (State.missAborts_frame _ _) (by decide) ?_
          refine Frame.then (State.postTask_frame _ _ _ _ _ _) (by decide) ?_
          refine Frame.then (State.spoil_frame _ _) (by decide) ?_
          refine Frame.then (State.dropWork_frame _ _) (by decide) ?_
          refine Frame.then (State.clearSlots_frame _ _) (by decide) ?_
          assumption
        · refine Frame.then (State.dropWork_frame _ _) (by decide) ?_
          refine Frame.then (State.clearSlots_frame _ _) (by decide) ?_
          assumption
      try clear_value s1
      extract_lets +onlyGivenNames s2
      have h_s2 : Frame [.regs, .freeCount, .reg, .arb, .kettle, .host, .cp, .units, .tiers, .near, .hbm, .sb, .hostMem] s s2 := by
        unfold s2
        refine Frame.then (State.dropHeld_frame _ _) (by decide) ?_
        assumption
      try clear_value s2
      refine Frame.then (State.setCtx_frame _ _ _) (by decide) ?_
      assumption

theorem State.tearDown_frame (s : State) (c : ℕ) :
    Frame [.regs, .freeCount, .reg, .arb, .kettle, .host, .cp, .units, .tiers, .ftl, .near, .hbm, .sb, .hostMem] s (State.tearDown s c) := by
  unfold State.tearDown
  refine Frame.then (State.finishTear_frame _ _) (by decide) ?_
  refine Frame.then (State.startTear_frame _ _) (by decide) ?_
  exact Frame.refl _ _

theorem State.dropCtx_frame (s : State) (c : ℕ) :
    Frame [.regs, .freeCount, .arb, .host, .cp, .units, .tiers, .ftl, .near, .hbm, .sb, .hostMem] s (State.dropCtx s c) := by
  unfold State.dropCtx
  split
  · exact Frame.refl _ _
  · extract_lets +onlyGivenNames s1
    have h_s1 : Frame [.regs, .freeCount, .arb, .host, .cp, .units, .tiers, .ftl, .near, .hbm, .sb, .hostMem] s s1 := by
      unfold s1
      split
      · refine Frame.then (State.spoil_frame _ _) (by decide) ?_
        refine Frame.then (State.dropWork_frame _ _) (by decide) ?_
        refine Frame.then (State.clearSlots_frame _ _) (by decide) ?_
        exact Frame.refl _ _
      · refine Frame.then (State.dropWork_frame _ _) (by decide) ?_
        refine Frame.then (State.clearSlots_frame _ _) (by decide) ?_
        exact Frame.refl _ _
    try clear_value s1
    extract_lets +onlyGivenNames -merge src s2
    have h_s2 : Frame [.regs, .freeCount, .arb, .host, .cp, .units, .tiers, .ftl, .near, .hbm, .sb, .hostMem] s s2 := by
      unfold s2
      refine Frame.setHost (by decide) ?_
      assumption
    try clear_value s2
    extract_lets +onlyGivenNames s3
    have h_s3 : Frame [.regs, .freeCount, .arb, .host, .cp, .units, .tiers, .ftl, .near, .hbm, .sb, .hostMem] s s3 := by
      unfold s3
      refine Frame.then (State.prune_frame _) (by decide) ?_
      refine Frame.then (State.removeCtx_frame _ _ _) (by decide) ?_
      assumption
    try clear_value s3
    apply Frame.ite
    · refine Frame.then (State.cmdDone_frame _ _ _ _ _ _) (by decide) ?_
      assumption
    · assumption

theorem State.dropCtxs_frame (s : State) :
    Frame [.regs, .freeCount, .arb, .host, .cp, .units, .tiers, .ftl, .near, .hbm, .sb, .hostMem] s (State.dropCtxs s) := by
  unfold State.dropCtxs
  refine Frame.foldl ?_ ?_ _
  · intro t c
    beta_reduce
    beta_reduce
    refine Frame.then (State.dropCtx_frame _ _) (by decide) ?_
    exact Frame.refl _ _
  · exact Frame.refl _ _

theorem State.setRegion_frame (s : State) (i : ℕ) (r : ℕ) (x : Region) :
    Frame [.units] s (State.setRegion s i r x) := by
  unfold State.setRegion
  refine Frame.setUnits (by decide) ?_
  exact Frame.refl _ _

theorem State.spoilHome_frame (s : State) (r : Request) :
    Frame [.freeCount, .host, .cp, .tiers, .hbm, .sb, .hostMem] s (State.spoilHome s r) := by
  unfold State.spoilHome
  refine Frame.then (State.spoil_frame _ _) (by decide) ?_
  exact Frame.refl _ _

theorem State.ownHome_frame (s : State) (r : Request) (c : ℕ) :
    Frame [.regs, .cp, .units] s (State.ownHome s r c) := by
  unfold State.ownHome
  refine Frame.then (State.setHome_frame _ _ _) (by decide) ?_
  exact Frame.refl _ _

theorem State.setRegionState_frame (s : State) (i : ℕ) (r : ℕ) (v : ℕ) :
    Frame [.regs] s (State.setRegionState s i r v) := by
  unfold State.setRegionState
  refine Frame.then (State.fset_frame _ _ _ _) (by decide) ?_
  exact Frame.refl _ _

theorem State.taskError_frame (s : State) (c : ℕ) (sc : ℕ) :
    Frame [.regs, .reg, .arb, .kettle, .host, .cp, .units, .ftl, .near] s (State.taskError s c sc) := by
  unfold State.taskError
  split
  · exact Frame.refl _ _
  · split
    · exact Frame.refl _ _
    · extract_lets +onlyGivenNames -merge src lg
      try clear_value lg
      extract_lets +onlyGivenNames s1
      have h_s1 : Frame [.regs, .reg, .arb, .kettle, .host, .cp, .units, .ftl, .near] s s1 := by
        unfold s1
        refine Frame.then (State.complete_frame _ _ _ _ _ _ _) (by decide) ?_
        refine Frame.then (State.dropWork_frame _ _) (by decide) ?_
        refine Frame.then (State.clearSlots_frame _ _) (by decide) ?_
        exact Frame.refl _ _
      try clear_value s1
      extract_lets +onlyGivenNames s2
      have h_s2 : Frame [.regs, .reg, .arb, .kettle, .host, .cp, .units, .ftl, .near] s s2 := by
        unfold s2
        refine Frame.then (State.setCtx_frame _ _ _) (by decide) ?_
        refine Frame.then (State.releaseHome_frame _ _) (by decide) ?_
        refine Frame.then (State.missAborts_frame _ _) (by decide) ?_
        assumption
      try clear_value s2
      refine Frame.then (State.aer_frame _ _ _ _ _) (by decide) ?_
      refine Frame.then (State.recEv_frame _ _ _ _ _ _ _ _) (by decide) ?_
      refine Frame.then (State.prune_frame _) (by decide) ?_
      assumption

end Sys2Proof.Machine
end

