-- ==== Sys2Proof/Laws/HbmFrame.lean ====
section
/-!
SUPPORT. What each operation of Machine/Hbm.lean can change: the parts of the state its frame names, canonical form kept.
-/

namespace Sys2Proof.Machine

theorem State.setMark_frame (s : State) (t : ℕ) (m : Mark) :
    Frame [.tiers] s (State.setMark s t m) := by
  unfold State.setMark
  refine Frame.setTiers (by decide) ?_
  exact Frame.refl _ _

theorem State.rebuildDevice_frame (s : State) :
    Frame [.tiers] s (State.rebuildDevice s) := by
  unfold State.rebuildDevice
  extract_lets +onlyGivenNames lost; try clear_value lost
  extract_lets +onlyGivenNames -merge src s0
  have h_s0 : Frame [.tiers] s s0 := by
    unfold s0
    refine Frame.setTiers (by decide) ?_
    exact Frame.refl _ _
  try clear_value s0
  extract_lets +onlyGivenNames  take
  refine Frame.setTiers (by decide) ?_
  assumption

theorem State.heatT1_frame (s : State) (a : ℕ) (n : ℕ) :
    Frame [.tiers] s (State.heatT1 s a n) := by
  unfold State.heatT1
  refine Frame.foldl ?_ ?_ _
  · intro t i
    beta_reduce
    beta_reduce
    extract_lets +onlyGivenNames p; try clear_value p
    refine Frame.setTiers (by decide) ?_
    exact Frame.refl _ _
  · exact Frame.refl _ _

theorem State.hbmWrite_frame (s : State) (a : ℕ) (bs : List Byte) :
    Frame [.tiers, .hbm] s (State.hbmWrite s a bs) := by
  unfold State.hbmWrite
  refine Frame.memTiers (by decide) (by decide) (fun h => by try dsimp +zetaDelta only; repeat' (first | with_reducible assumption | with_reducible refine wf_fill _ _ _ _ ?_ | with_reducible refine wf_writeL _ _ _ ?_ | with_reducible refine wf_copyFrom _ _ _ _ ?_ | exact wf_empty | with_reducible refine wf_foldl _ (fun m x h => ?_) _ ?_ _)) ?_
  exact Frame.refl _ _

theorem State.takePages_frame (s : State) (held : List ℕ) (k : ℕ) (n : ℕ) :
    ∀ a u, @State.takePages s held k n = some (a, u) → Frame [.regs, .tiers, .hbm] s u := by
  unfold State.takePages
  extract_lets +onlyGivenNames fr cs; try clear_value fr cs
  refine Frame.iteOptSnd ?_ ?_
  · intros; contradiction
  · extract_lets +onlyGivenNames ps; try clear_value ps
    extract_lets +onlyGivenNames s1
    have h_s1 : Frame [.regs, .tiers, .hbm] s s1 := by
      unfold s1
      refine Frame.foldl ?_ ?_ _
      · intro t c
        beta_reduce
        beta_reduce
        refine Frame.then (State.dropCopy_frame _ _) (by decide) ?_
        exact Frame.refl _ _
      · exact Frame.refl _ _
    try clear_value s1
    intro a u hu; cases hu
    refine Frame.memTiers (by decide) (by decide) (fun h => by try dsimp +zetaDelta only; repeat' (first | with_reducible assumption | with_reducible refine wf_fill _ _ _ _ ?_ | with_reducible refine wf_writeL _ _ _ ?_ | with_reducible refine wf_copyFrom _ _ _ _ ?_ | exact wf_empty | with_reducible refine wf_foldl _ (fun m x h => ?_) _ ?_ _)) ?_
    assumption

end Sys2Proof.Machine
end

