-- ==== Sys2Proof/Laws/SeqFrame.lean ====
section
/-!
SUPPORT. What each operation of Machine/Seq.lean can change: the parts of the state its frame names, canonical form kept.
-/

namespace Sys2Proof.Machine

theorem State.onDesc_frame {ps : List Part} {s : State} {c h k : ℕ} {f : Desc → State}
    (hp : [.regs, .freeCount, .reg, .arb, .kettle, .host, .cp, .units, .tiers, .ftl, .near, .hbm, .sb, .hostMem] ⊆ ps) (hf : ∀ d, Frame ps s (f d)) :
    Runs ps s (State.onDesc s c h k f) := by
  unfold State.onDesc
  split
  · exact Runs.next (Frame.refl _ _)
  · exact Runs.next (Frame.then (State.faultCtx_frame _ _ _) (List.Subset.trans (by decide) hp) (Frame.refl _ _))
  · exact Runs.next (hf _)

theorem State.descFault_frame (s : State) (d : Desc) (code : ℕ) (case : ℕ) (ucls : ℕ) (uinst : ℕ) (info : ℕ) :
    Frame [.regs, .freeCount, .reg, .arb, .kettle, .host, .cp, .units, .tiers, .ftl, .near, .hbm, .sb, .hostMem] s (State.descFault s d code case ucls uinst info) := by
  unfold State.descFault
  refine Frame.then (State.faultCtx_frame _ _ _) (by decide) ?_
  exact Frame.refl _ _

theorem State.setTask_frame (s : State) (c : ℕ) (t : Task) :
    Frame [.cp] s (State.setTask s c t) := by
  unfold State.setTask
  split
  · exact Frame.refl _ _
  · refine Frame.then (State.setCtx_frame _ _ _) (by decide) ?_
    exact Frame.refl _ _

theorem State.moveOn_frame (s : State) (d : Desc) :
    Frame [.reg, .units] s (State.moveOn s d) := by
  unfold State.moveOn
  extract_lets +onlyGivenNames s1
  have h_s1 : Frame [.reg, .units] s s1 := by
    unfold s1
    refine Frame.then (State.count_frame _ _ _ _ _) (by decide) ?_
    exact Frame.refl _ _
  try clear_value s1
  refine Frame.setUnits (by decide) ?_
  assumption

theorem State.pass_frame (s : State) (d : Desc) (f : Task → Task) :
    Frame [.reg, .cp, .units] s (State.pass s d f) := by
  unfold State.pass
  refine Frame.then (State.setTask_frame _ _ _) (by decide) ?_
  refine Frame.then (State.moveOn_frame _ _) (by decide) ?_
  exact Frame.refl _ _

theorem State.descDone_frame (s : State) (c : ℕ) (ser : ℕ) :
    Frame [.regs, .freeCount, .reg, .arb, .kettle, .host, .cp, .units, .tiers, .ftl, .near, .hbm, .sb, .hostMem] s (State.descDone s c ser) := by
  unfold State.descDone
  extract_lets +onlyGivenNames -merge src s1
  have h_s1 : Frame [.regs, .freeCount, .reg, .arb, .kettle, .host, .cp, .units, .tiers, .ftl, .near, .hbm, .sb, .hostMem] s s1 := by
    unfold s1
    refine Frame.setUnits (by decide) ?_
    exact Frame.refl _ _
  try clear_value s1
  split
  · assumption
  · split
    · assumption
    · refine Frame.then (State.endFault_frame _ _) (by decide) ?_
      refine Frame.then (State.setCtx_frame _ _ _) (by decide) ?_
      assumption

theorem State.sbWrite_frame (s : State) (h : ℕ) (a : ℕ) (bs : List Byte) :
    Frame [.cp, .sb] s (State.sbWrite s h a bs) := by
  unfold State.sbWrite
  refine Frame.memCp (by decide) (by decide) (fun h => by try dsimp +zetaDelta only; repeat' (first | with_reducible assumption | with_reducible refine wf_fill _ _ _ _ ?_ | with_reducible refine wf_writeL _ _ _ ?_ | with_reducible refine wf_copyFrom _ _ _ _ ?_ | exact wf_empty | with_reducible refine wf_foldl _ (fun m x h => ?_) _ ?_ _)) ?_
  exact Frame.refl _ _

theorem State.setResult_frame (s : State) (c : ℕ) (h : ℕ) (v : ℕ) :
    Frame [.cp] s (State.setResult s c h v) := by
  unfold State.setResult
  split
  · exact Frame.refl _ _
  · split
    · exact Frame.refl _ _
    · refine Frame.then (State.setCtx_frame _ _ _) (by decide) ?_
      exact Frame.refl _ _

theorem State.waitPorts_frame (s : State) (d : Desc) :
    Frame [.units] s (State.waitPorts s d) := by
  unfold State.waitPorts
  apply Frame.ite
  · exact Frame.refl _ _
  · refine Frame.setUnits (by decide) ?_
    exact Frame.refl _ _

theorem State.issue_frame (s : State) (d : Desc) (dst : ℕ) (pin : Bool) :
    Frame [.reg, .cp, .units] s (State.issue s d dst pin) := by
  unfold State.issue
  extract_lets +onlyGivenNames t; try clear_value t
  refine Frame.then (State.setTask_frame _ _ _) (by decide) ?_
  refine Frame.then (State.moveOn_frame _ _) (by decide) ?_
  exact Frame.refl _ _

theorem State.bind_frame (s : State) (d : Desc) (write : Bool) (gs : List ℕ) :
    Frame [.units] s (State.bind s d write gs) := by
  unfold State.bind
  extract_lets +onlyGivenNames bs; try clear_value bs
  refine Frame.setUnits (by decide) ?_
  exact Frame.refl _ _

theorem State.noteWrite_frame (s : State) (c : ℕ) (space : ℕ) (a : ℕ) (n : ℕ) :
    Frame [.cp] s (State.noteWrite s c space a n) := by
  unfold State.noteWrite
  split
  · exact Frame.refl _ _
  · split
    · exact Frame.refl _ _
    · refine Frame.then (State.setCtx_frame _ _ _) (by decide) ?_
      exact Frame.refl _ _

theorem State.taskFlag_frame (s : State) (c : ℕ) (b : ℕ) :
    Frame [.cp] s (State.taskFlag s c b) := by
  unfold State.taskFlag
  split
  · exact Frame.refl _ _
  · split
    · exact Frame.refl _ _
    · refine Frame.then (State.setCtx_frame _ _ _) (by decide) ?_
      exact Frame.refl _ _

end Sys2Proof.Machine
end

