-- ==== Sys2Proof/Laws/ArbiterFrame.lean ====
section
/-!
SUPPORT. What each operation of Machine/Arbiter.lean can change: the parts of the state its frame names, canonical form kept.
-/

namespace Sys2Proof.Machine

theorem State.withRequests_frame (s : State) (ws : List ArbReq) (together : Bool) :
    Frame [.arb] s (State.withRequests s ws together) := by
  unfold State.withRequests
  refine Frame.setArb (by decide) ?_
  exact Frame.refl _ _

theorem State.noteGrant_frame (s : State) (r : ArbReq) :
    Frame [.cp] s (State.noteGrant s r) := by
  unfold State.noteGrant
  split
  · exact Frame.refl _ _
  · split
    · exact Frame.refl _ _
    · apply Frame.ite
      · refine Frame.then (State.setCtx_frame _ _ _) (by decide) ?_
        exact Frame.refl _ _
      · exact Frame.refl _ _

theorem State.withLoads_frame (s : State) (cs : List ℕ) :
    Frame [.arb] s (State.withLoads s cs) := by
  unfold State.withLoads
  extract_lets +onlyGivenNames  old
  extract_lets +onlyGivenNames loads; try clear_value loads
  refine Frame.setArb (by decide) ?_
  exact Frame.refl _ _

theorem State.slip_frame (s : State) (cp : ℕ) (inst : ℕ) (party : ℕ) (ctx : ℕ) :
    Frame [.regs, .reg, .kettle, .cp] s (State.slip s cp inst party ctx) := by
  unfold State.slip
  extract_lets +onlyGivenNames s1
  have h_s1 : Frame [.regs, .reg, .kettle, .cp] s s1 := by
    unfold s1
    refine Frame.then (State.fset64_frame _ _ _ _ _) (by decide) ?_
    exact Frame.refl _ _
  try clear_value s1
  extract_lets +onlyGivenNames s2
  have h_s2 : Frame [.regs, .reg, .kettle, .cp] s s2 := by
    unfold s2
    apply Frame.ite
    · assumption
    · refine Frame.then (State.fset_frame _ _ _ _) (by decide) ?_
      refine Frame.then (State.fset_frame _ _ _ _) (by decide) ?_
      refine Frame.then (State.fset_frame _ _ _ _) (by decide) ?_
      assumption
  try clear_value s2
  extract_lets +onlyGivenNames s3
  have h_s3 : Frame [.regs, .reg, .kettle, .cp] s s3 := by
    unfold s3
    refine Frame.then (State.recEv_frame _ _ _ _ _ _ _ _) (by decide) ?_
    assumption
  try clear_value s3
  split
  · refine Frame.then (State.setCtx_frame _ _ _) (by decide) ?_
    assumption
  · assumption

theorem State.grantLoad_frame (s : State) (c : ℕ) (x : Ctx) (presented : ℕ) :
    Frame [.regs, .reg, .arb, .kettle, .cp] s (State.grantLoad s c x presented) := by
  unfold State.grantLoad
  extract_lets +onlyGivenNames late; try clear_value late
  refine Frame.foldl ?_ ?_ _
  · intro t h
    beta_reduce
    beta_reduce
    extract_lets +onlyGivenNames t1
    have h_t1 : Frame [.regs, .reg, .arb, .kettle, .cp] t t1 := by
      unfold t1
      apply Frame.ite
      · refine Frame.then (State.slip_frame _ _ _ _ _) (by decide) ?_
        exact Frame.refl _ _
      · exact Frame.refl _ _
    try clear_value t1
    split
    · refine Frame.then (State.grant_frame _ _ _) (by decide) ?_
      assumption
    · assumption
  · exact Frame.refl _ _

theorem State.grantSlot_frame (s : State) (cp inst owner t0 n : ℕ) : Frame [.reg, .arb, .cp] s (State.grantSlot s cp inst owner t0 n) := by
  induction n generalizing s with
  | zero => exact Frame.refl _ _
  | succ n ih =>
    unfold State.grantSlot
    split
    · exact Frame.then (ih _) (by decide) (Frame.then (State.noteGrant_frame _ _) (by decide)
        (Frame.then (State.grant_frame _ _ _) (by decide) (Frame.refl _ _)))
    · exact Frame.refl _ _

end Sys2Proof.Machine
end

