-- ==== Sys2Proof/Laws/BatchFrame.lean ====
section
/-!
SUPPORT. What each operation of Machine/Batch.lean can change: the parts of the state its frame names, canonical form kept.
-/

namespace Sys2Proof.Machine

theorem State.tableReady_frame (s : State) (b : Batch) (on : Bool) :
    Frame [.tiers] s (State.tableReady s b on) := by
  unfold State.tableReady
  refine Frame.then (State.setMark_frame _ _ _) (by decide) ?_
  exact Frame.refl _ _

theorem State.writeTable_frame (s : State) (b : Batch) (admitted : ℕ) (ignored : ℕ) (rejects : List (ℕ × ℕ)) :
    Frame [.tiers, .hbm] s (State.writeTable s b admitted ignored rejects) := by
  unfold State.writeTable
  extract_lets +onlyGivenNames a; try clear_value a
  extract_lets +onlyGivenNames m
  refine Frame.memTiers (by decide) (by decide) (fun h => by try dsimp +zetaDelta only; repeat' (first | with_reducible assumption | with_reducible refine wf_fill _ _ _ _ ?_ | with_reducible refine wf_writeL _ _ _ ?_ | with_reducible refine wf_copyFrom _ _ _ _ ?_ | exact wf_empty | with_reducible refine wf_foldl _ (fun m x h => ?_) _ ?_ _)) ?_
  exact Frame.refl _ _

end Sys2Proof.Machine
end

