-- ==== Sys2Proof/Laws/CollFrame.lean ====
section
/-!
SUPPORT. What each operation of Machine/Coll.lean can change: the parts of the state its frame names, canonical form kept.
-/

namespace Sys2Proof.Machine

theorem State.retireEngines_frame (s : State) (p : ℕ) :
    Frame [.regs, .reg, .arb, .kettle, .eflash, .host, .units] s (State.retireEngines s p) := by
  unfold State.retireEngines
  refine Frame.then (State.classify_frame _ _) (by decide) ?_
  refine Frame.then (State.recordRetirement_frame _ _ _ _) (by decide) ?_
  refine Frame.then (State.fset_frame _ _ _ _) (by decide) ?_
  refine Frame.then (State.fset_frame _ _ _ _) (by decide) ?_
  exact Frame.refl _ _

theorem State.laneMismatch_frame (s : State) (p : ℕ) (lane : ℕ) (info : ℕ) (c : ℕ) (bad : Bool) :
    Frame [.regs, .reg, .arb, .kettle, .eflash, .host, .units, .rel] s (State.laneMismatch s p lane info c bad) := by
  unfold State.laneMismatch
  extract_lets +onlyGivenNames inj; try clear_value inj
  extract_lets +onlyGivenNames s1
  have h_s1 : Frame [.regs, .reg, .arb, .kettle, .eflash, .host, .units, .rel] s s1 := by
    unfold s1
    refine Frame.then (State.err_frame _ _ _ _ _ _ _) (by decide) ?_
    exact Frame.refl _ _
  try clear_value s1
  apply Frame.ite
  · assumption
  · extract_lets +onlyGivenNames e
    have h_e : Frame [.regs, .reg, .arb, .kettle, .eflash, .host, .units, .rel] s e.2 := by
      unfold e
      refine Frame.then (State.countEvent_frame _ _ _ _) (by decide) ?_
      assumption
    try clear_value e
    apply Frame.ite
    · assumption
    · extract_lets +onlyGivenNames s2
      have h_s2 : Frame [.regs, .reg, .arb, .kettle, .eflash, .host, .units, .rel] s s2 := by
        unfold s2
        refine Frame.then (State.recordRetirement_frame _ _ _ _) (by decide) ?_
        refine Frame.then (State.fsetBit_frame _ _ _ _) (by decide) ?_
        refine Frame.then (State.fclrBit_frame _ _ _ _) (by decide) ?_
        assumption
      try clear_value s2
      apply Frame.ite
      · refine Frame.then (State.retireEngines_frame _ _) (by decide) ?_
        assumption
      · assumption

theorem State.colRemap_frame (s : State) (p : ℕ) (line : ℕ) :
    Frame [.regs, .reg, .kettle, .eflash] s (State.colRemap s p line) := by
  unfold State.colRemap
  extract_lets +onlyGivenNames k; try clear_value k
  extract_lets +onlyGivenNames s2
  have h_s2 : Frame [.regs, .reg, .kettle, .eflash] s s2 := by
    unfold s2
    refine Frame.then (State.fset_frame _ _ _ _) (by decide) ?_
    refine Frame.then (State.fset_frame _ _ _ _) (by decide) ?_
    exact Frame.refl _ _
  try clear_value s2
  refine Frame.then (State.spareSwitched_frame _ _ _ _ _ _) (by decide) ?_
  refine Frame.setEflash (by decide) ?_
  assumption

theorem State.colSram_frame (s : State) (p : ℕ) (info : ℕ) (c : ℕ) :
    Frame [.regs, .reg, .arb, .kettle, .eflash, .host, .units] s (State.colSram s p info c) := by
  unfold State.colSram
  extract_lets +onlyGivenNames s1
  have h_s1 : Frame [.regs, .reg, .arb, .kettle, .eflash, .host, .units] s s1 := by
    unfold s1
    refine Frame.then (State.err_frame _ _ _ _ _ _ _) (by decide) ?_
    exact Frame.refl _ _
  try clear_value s1
  apply Frame.ite
  · assumption
  · apply Frame.ite
    · refine Frame.then (State.colRemap_frame _ _ _) (by decide) ?_
      assumption
    · refine Frame.then (State.moveFaulted_frame _ _ _ _) (by decide) ?_
      refine Frame.then (State.err_frame _ _ _ _ _ _ _) (by decide) ?_
      assumption

theorem State.colanderHit_frame (s : State) (kind : ℕ) (p : ℕ) (info : ℕ) (c : ℕ) :
    Frame [.regs, .reg, .arb, .kettle, .eflash, .host, .units, .rel] s (State.colanderHit s kind p info c) := by
  unfold State.colanderHit
  apply Frame.ite
  · refine Frame.then (State.fbump_frame _ _ _ _) (by decide) ?_
    refine Frame.then (State.err_frame _ _ _ _ _ _ _) (by decide) ?_
    exact Frame.refl _ _
  · apply Frame.ite
    · refine Frame.then (State.laneMismatch_frame _ _ _ _ _ _) (by decide) ?_
      exact Frame.refl _ _
    · apply Frame.ite
      · refine Frame.then (State.colSram_frame _ _ _ _) (by decide) ?_
        exact Frame.refl _ _
      · apply Frame.ite
        · refine Frame.then (State.err_frame _ _ _ _ _ _ _) (by decide) ?_
          exact Frame.refl _ _
        · apply Frame.ite
          · refine Frame.then (State.faultUnit_frame _ _ _ _ _ _ _) (by decide) ?_
            exact Frame.refl _ _
          · exact Frame.refl _ _

theorem State.colanderFlips_frame (s : State) (ps : List ℕ) (c : ℕ) :
    Frame [.regs, .freeCount, .reg, .arb, .kettle, .host, .units] s (State.colanderFlips s ps c) := by
  unfold State.colanderFlips
  refine Frame.foldl ?_ ?_ _
  · intro t p
    beta_reduce
    beta_reduce
    apply Frame.ite
    · exact Frame.refl _ _
    · split
      · refine Frame.then (State.err_frame _ _ _ _ _ _ _) (by decide) ?_
        refine Frame.then (Frame.snd (State.draw_frame _) (by assumption)) (by decide) ?_
        exact Frame.refl _ _
  · exact Frame.refl _ _

theorem State.noteColl_frame (s : State) (c : ℕ) (id : ℕ) :
    Frame [.cp] s (State.noteColl s c id) := by
  unfold State.noteColl
  split
  · exact Frame.refl _ _
  · split
    · exact Frame.refl _ _
    · apply Frame.ite
      · exact Frame.refl _ _
      · refine Frame.then (State.setCtx_frame _ _ _) (by decide) ?_
        exact Frame.refl _ _

end Sys2Proof.Machine
end

