-- ==== Sys2Proof/Laws/GriddleFrame.lean ====
section
/-!
SUPPORT. What each operation of Machine/Griddle.lean can change: the parts of the state its frame names, canonical form kept.
-/

namespace Sys2Proof.Machine

theorem State.markRetiring_frame (s : State) (i : ℕ) :
    Frame [.units] s (State.markRetiring s i) := by
  unfold State.markRetiring
  refine Frame.then (State.classify_frame _ _) (by decide) ?_
  exact Frame.refl _ _

theorem State.griddleFault_frame (s : State) (i : ℕ) (bs : List ℕ) (causeBit : ℕ) (code : ℕ) (info : ℕ) (index : Region → ℕ) (inj : Bool) :
    Frame [.regs, .freeCount, .reg, .arb, .kettle, .host, .cp, .units, .tiers, .ftl, .near, .hbm, .sb, .hostMem] s (State.griddleFault s i bs causeBit code info index inj) := by
  unfold State.griddleFault
  extract_lets +onlyGivenNames held; try clear_value held
  extract_lets +onlyGivenNames s1
  have h_s1 : Frame [.regs, .freeCount, .reg, .arb, .kettle, .host, .cp, .units, .tiers, .ftl, .near, .hbm, .sb, .hostMem] s s1 := by
    unfold s1
    refine Frame.then (State.err_frame _ _ _ _ _ _ _) (by decide) ?_
    exact Frame.refl _ _
  try clear_value s1
  extract_lets +onlyGivenNames s2
  have h_s2 : Frame [.regs, .freeCount, .reg, .arb, .kettle, .host, .cp, .units, .tiers, .ftl, .near, .hbm, .sb, .hostMem] s s2 := by
    unfold s2
    refine Frame.foldl ?_ ?_ _
    · intro t r
      beta_reduce
      beta_reduce
      refine Frame.then (State.setRegionState_frame _ _ _ _) (by decide) ?_
      refine Frame.then (State.setRegion_frame _ _ _ _) (by decide) ?_
      refine Frame.then (State.blockEvent_frame _ _ _ _ _ _ _) (by decide) ?_
      exact Frame.refl _ _
    · assumption
  try clear_value s2
  extract_lets +onlyGivenNames s3
  have h_s3 : Frame [.regs, .freeCount, .reg, .arb, .kettle, .host, .cp, .units, .tiers, .ftl, .near, .hbm, .sb, .hostMem] s s3 := by
    unfold s3
    refine Frame.then (State.moveFaulted_frame _ _ _ _) (by decide) ?_
    assumption
  try clear_value s3
  extract_lets +onlyGivenNames s4
  have h_s4 : Frame [.regs, .freeCount, .reg, .arb, .kettle, .host, .cp, .units, .tiers, .ftl, .near, .hbm, .sb, .hostMem] s s4 := by
    unfold s4
    refine Frame.foldl ?_ ?_ _
    · intro t c
      beta_reduce
      beta_reduce
      refine Frame.then (State.faultCtx_frame _ _ _) (by decide) ?_
      exact Frame.refl _ _
    · assumption
  try clear_value s4
  apply Frame.ite
  · assumption
  · refine Frame.then (State.markRetiring_frame _ _) (by decide) ?_
    assumption

theorem State.regionFault_frame (s : State) (i : ℕ) (r : ℕ) (bs : List ℕ) (causeBit : ℕ) (p1code : ℕ) (index : ℕ) (info : ℕ) (inj : Bool) :
    Frame [.regs, .freeCount, .reg, .arb, .kettle, .host, .cp, .units, .tiers, .ftl, .near, .hbm, .sb, .hostMem] s (State.regionFault s i r bs causeBit p1code index info inj) := by
  unfold State.regionFault
  extract_lets +onlyGivenNames c mode; try clear_value c mode
  extract_lets +onlyGivenNames s1
  have h_s1 : Frame [.regs, .freeCount, .reg, .arb, .kettle, .host, .cp, .units, .tiers, .ftl, .near, .hbm, .sb, .hostMem] s s1 := by
    unfold s1
    refine Frame.then (State.blockEvent_frame _ _ _ _ _ _ _) (by decide) ?_
    refine Frame.then (State.err_frame _ _ _ _ _ _ _) (by decide) ?_
    exact Frame.refl _ _
  try clear_value s1
  extract_lets +onlyGivenNames s2
  have h_s2 : Frame [.regs, .freeCount, .reg, .arb, .kettle, .host, .cp, .units, .tiers, .ftl, .near, .hbm, .sb, .hostMem] s s2 := by
    unfold s2
    refine Frame.then (State.setRegionState_frame _ _ _ _) (by decide) ?_
    refine Frame.then (State.setRegion_frame _ _ _ _) (by decide) ?_
    assumption
  try clear_value s2
  extract_lets +onlyGivenNames all; try clear_value all
  extract_lets +onlyGivenNames s3
  have h_s3 : Frame [.regs, .freeCount, .reg, .arb, .kettle, .host, .cp, .units, .tiers, .ftl, .near, .hbm, .sb, .hostMem] s s3 := by
    unfold s3
    apply Frame.ite
    · refine Frame.then (State.moveFaulted_frame _ _ _ _) (by decide) ?_
      assumption
    · assumption
  try clear_value s3
  apply Frame.ite
  · refine Frame.then (State.faultCtx_frame _ _ _) (by decide) ?_
    assumption
  · assumption

theorem State.checkError_frame (s : State) (i : ℕ) (r : ℕ) (kind : ℕ) (info : ℕ) (whole : Bool) :
    Frame [.regs, .freeCount, .reg, .arb, .kettle, .host, .cp, .units, .tiers, .ftl, .near, .hbm, .sb, .hostMem] s (State.checkError s i r kind info whole) := by
  unfold State.checkError
  extract_lets +onlyGivenNames inj; try clear_value inj
  apply Frame.ite
  · refine Frame.then (State.err_frame _ _ _ _ _ _ _) (by decide) ?_
    exact Frame.refl _ _
  · extract_lets +onlyGivenNames -merge src s1
    have h_s1 : Frame [.regs, .freeCount, .reg, .arb, .kettle, .host, .cp, .units, .tiers, .ftl, .near, .hbm, .sb, .hostMem] s s1 := by
      unfold s1
      apply Frame.ite
      · refine Frame.setUnits (by decide) ?_
        exact Frame.refl _ _
      · exact Frame.refl _ _
    try clear_value s1
    apply Frame.ite
    · refine Frame.then (State.griddleFault_frame _ _ _ _ _ _ _ _) (by decide) ?_
      assumption
    · refine Frame.then (State.regionFault_frame _ _ _ _ _ _ _ _ _) (by decide) ?_
      assumption

theorem State.mismatch_frame (s : State) (i : ℕ) (r : ℕ) (port : ℕ) (index : ℕ) (tile : ℕ) (ch : ℕ) :
    Frame [.regs, .freeCount, .reg, .arb, .kettle, .host, .cp, .units, .tiers, .ftl, .near, .hbm, .sb, .hostMem] s (State.mismatch s i r port index tile ch) := by
  unfold State.mismatch
  extract_lets +onlyGivenNames x c x1; try clear_value x c x1
  extract_lets +onlyGivenNames s1
  have h_s1 : Frame [.regs, .freeCount, .reg, .arb, .kettle, .host, .cp, .units, .tiers, .ftl, .near, .hbm, .sb, .hostMem] s s1 := by
    unfold s1
    refine Frame.then (State.err_frame _ _ _ _ _ _ _) (by decide) ?_
    refine Frame.then (State.setRegion_frame _ _ _ _) (by decide) ?_
    exact Frame.refl _ _
  try clear_value s1
  extract_lets +onlyGivenNames s2
  have h_s2 : Frame [.regs, .freeCount, .reg, .arb, .kettle, .host, .cp, .units, .tiers, .ftl, .near, .hbm, .sb, .hostMem] s s2 := by
    unfold s2
    refine Frame.then (State.err_frame _ _ _ _ _ _ _) (by decide) ?_
    assumption
  try clear_value s2
  refine Frame.then (State.faultCtx_frame _ _ _) (by decide) ?_
  assumption

theorem State.passInjected_frame (s : State) (i : ℕ) (r : ℕ) (b : ℕ) (p : Pass) :
    Frame [.regs, .freeCount, .reg, .arb, .kettle, .host, .cp, .units, .tiers, .ftl, .near, .hbm, .sb, .hostMem] s (State.passInjected s i r b p) := by
  unfold State.passInjected
  split
  · extract_lets +onlyGivenNames info; try clear_value info
    apply Frame.ite
    · refine Frame.then (State.mismatch_frame _ _ _ _ _ _ _) (by decide) ?_
      refine Frame.then (Frame.snd (State.draw_frame _) (by assumption)) (by decide) ?_
      exact Frame.refl _ _
    · refine Frame.then (State.checkError_frame _ _ _ _ _ _) (by decide) ?_
      refine Frame.then (Frame.snd (State.draw_frame _) (by assumption)) (by decide) ?_
      exact Frame.refl _ _

theorem State.countMacs_frame (s : State) (i : ℕ) (c : ℕ) (f : ℕ) (n : ℕ) :
    Frame [.reg, .kettle, .units] s (State.countMacs s i c f n) := by
  unfold State.countMacs
  refine Frame.then (State.work_frame _ _ _ _) (by decide) ?_
  refine Frame.then (State.countUnits_frame _ _ _ _ _ _) (by decide) ?_
  exact Frame.refl _ _

theorem State.runPass_frame (s : State) (i : ℕ) (r : ℕ) (p : Pass) (f : Feed) (pre : Option Feed) :
    Frame [.regs, .freeCount, .reg, .arb, .kettle, .host, .cp, .units, .tiers, .ftl, .near, .hbm, .sb, .hostMem] s (State.runPass s i r p f pre) := by
  unfold State.runPass
  extract_lets +onlyGivenNames x w c x1 es tile' x2 hand x3; try clear_value x w c x1 es tile' x2 hand x3
  extract_lets +onlyGivenNames s1
  have h_s1 : Frame [.regs, .freeCount, .reg, .arb, .kettle, .host, .cp, .units, .tiers, .ftl, .near, .hbm, .sb, .hostMem] s s1 := by
    unfold s1
    refine Frame.then (State.countMacs_frame _ _ _ _ _) (by decide) ?_
    refine Frame.then (State.setRegion_frame _ _ _ _) (by decide) ?_
    refine Frame.setFreeCount (by decide) ?_
    exact Frame.refl _ _
  try clear_value s1
  extract_lets +onlyGivenNames s2
  have h_s2 : Frame [.regs, .freeCount, .reg, .arb, .kettle, .host, .cp, .units, .tiers, .ftl, .near, .hbm, .sb, .hostMem] s s2 := by
    unfold s2
    refine Frame.then (State.count_frame _ _ _ _ _) (by decide) ?_
    refine Frame.then (State.count_frame _ _ _ _ _) (by decide) ?_
    assumption
  try clear_value s2
  apply Frame.ite
  · assumption
  · refine Frame.then (State.descDone_frame _ _ _) (by decide) ?_
    assumption

theorem State.retireGriddle_frame (s : State) (i : ℕ) :
    Frame [.regs, .reg, .arb, .kettle, .eflash, .host, .units] s (State.retireGriddle s i) := by
  unfold State.retireGriddle
  extract_lets +onlyGivenNames g sp; try clear_value g sp
  extract_lets +onlyGivenNames s1
  have h_s1 : Frame [.regs, .reg, .arb, .kettle, .eflash, .host, .units] s s1 := by
    unfold s1
    refine Frame.then (State.toRetired_frame _ _ _) (by decide) ?_
    refine Frame.then (State.recordRetirement_frame _ _ _ _) (by decide) ?_
    exact Frame.refl _ _
  try clear_value s1
  extract_lets +onlyGivenNames -merge src s2
  have h_s2 : Frame [.regs, .reg, .arb, .kettle, .eflash, .host, .units] s s2 := by
    unfold s2
    refine Frame.setUnits (by decide) ?_
    assumption
  try clear_value s2
  apply Frame.ite
  · extract_lets +onlyGivenNames s3
    have h_s3 : Frame [.regs, .reg, .arb, .kettle, .eflash, .host, .units] s s3 := by
      unfold s3
      refine Frame.then (State.spareSwitched_frame _ _ _ _ _ _) (by decide) ?_
      refine Frame.then (State.fset_frame _ _ _ _) (by decide) ?_
      refine Frame.then (State.fset_frame _ _ _ _) (by decide) ?_
      assumption
    try clear_value s3
    refine Frame.then (State.toStarting_frame _ _ _) (by decide) ?_
    refine Frame.then (State.putControl_frame _ _ _ _ _) (by decide) ?_
    assumption
  · refine Frame.then (State.err_frame _ _ _ _ _ _ _) (by decide) ?_
    assumption

theorem State.startCheck_frame (s : State) (i : ℕ) (k : SelfCheck) :
    Frame [.regs, .units] s (State.startCheck s i k) := by
  unfold State.startCheck
  extract_lets +onlyGivenNames s1
  have h_s1 : Frame [.regs, .units] s s1 := by
    unfold s1
    refine Frame.then (State.fset_frame _ _ _ _) (by decide) ?_
    refine Frame.then (State.fset_frame _ _ _ _) (by decide) ?_
    exact Frame.refl _ _
  try clear_value s1
  refine Frame.setUnits (by decide) ?_
  assumption

theorem State.showCheck_frame (s : State) (i : ℕ) (r : ℕ) (ok : Bool) (isRow : Bool) (whr : ℕ) :
    Frame [.regs, .reg, .arb, .kettle, .host, .units] s (State.showCheck s i r ok isRow whr) := by
  unfold State.showCheck
  extract_lets +onlyGivenNames info; try clear_value info
  extract_lets +onlyGivenNames s1
  have h_s1 : Frame [.regs, .reg, .arb, .kettle, .host, .units] s s1 := by
    unfold s1
    refine Frame.then (State.fset_frame _ _ _ _) (by decide) ?_
    refine Frame.then (State.fset_frame _ _ _ _) (by decide) ?_
    refine Frame.then (State.fset_frame _ _ _ _) (by decide) ?_
    exact Frame.refl _ _
  try clear_value s1
  extract_lets +onlyGivenNames s2
  have h_s2 : Frame [.regs, .reg, .arb, .kettle, .host, .units] s s2 := by
    unfold s2
    refine Frame.then (State.fset_frame _ _ _ _) (by decide) ?_
    refine Frame.then (State.fset_frame _ _ _ _) (by decide) ?_
    assumption
  try clear_value s2
  extract_lets +onlyGivenNames s3
  have h_s3 : Frame [.regs, .reg, .arb, .kettle, .host, .units] s s3 := by
    unfold s3
    refine Frame.then (State.blockEvent_frame _ _ _ _ _ _ _) (by decide) ?_
    apply Frame.ite
    · assumption
    · refine Frame.then (State.err_frame _ _ _ _ _ _ _) (by decide) ?_
      assumption
  try clear_value s3
  refine Frame.setUnits (by decide) ?_
  assumption

theorem State.markLine_frame (s : State) (i : ℕ) (fs : List Field) (p : ℕ) :
    Frame [.regs] s (State.markLine s i fs p) := by
  unfold State.markLine
  split
  · refine Frame.then (State.fset_frame _ _ _ _) (by decide) ?_
    refine Frame.then (State.fset_frame _ _ _ _) (by decide) ?_
    exact Frame.refl _ _
  · exact Frame.refl _ _

theorem State.restartGriddle_frame (s : State) (i : ℕ) :
    Frame [.regs, .reg, .kettle, .units] s (State.restartGriddle s i) := by
  unfold State.restartGriddle
  apply Frame.ite
  · extract_lets +onlyGivenNames s1
    have h_s1 : Frame [.regs, .reg, .kettle, .units] s s1 := by
      unfold s1
      refine Frame.then (State.clearPage_frame _ _ _) (by decide) ?_
      refine Frame.then (State.clearPage_frame _ _ _) (by decide) ?_
      refine Frame.then (State.toState_frame _ _ _ _) (by decide) ?_
      exact Frame.refl _ _
    try clear_value s1
    refine Frame.then (State.toStarting_frame _ _ _) (by decide) ?_
    refine Frame.then (State.putControl_frame _ _ _ _ _) (by decide) ?_
    assumption
  · exact Frame.refl _ _

theorem State.endCommit_frame (s : State) (i : ℕ) :
    Frame [.regs, .reg, .kettle, .units] s (State.endCommit s i) := by
  unfold State.endCommit
  extract_lets +onlyGivenNames s1
  have h_s1 : Frame [.regs, .reg, .kettle, .units] s s1 := by
    unfold s1
    refine Frame.foldl ?_ ?_ _
    · intro t r
      beta_reduce
      beta_reduce
      apply Frame.ite
      · refine Frame.then (State.setRegionState_frame _ _ _ _) (by decide) ?_
        exact Frame.refl _ _
      · exact Frame.refl _ _
    · refine Frame.then (State.fset_frame _ _ _ _) (by decide) ?_
      refine Frame.then (State.putControl_frame _ _ _ _ _) (by decide) ?_
      exact Frame.refl _ _
  try clear_value s1
  refine Frame.then (State.restartGriddle_frame _ _) (by decide) ?_
  assumption

theorem State.regionClean_frame (s : State) (i : ℕ) (r : ℕ) :
    Frame [.regs, .reg, .kettle, .units] s (State.regionClean s i r) := by
  unfold State.regionClean
  extract_lets +onlyGivenNames key again; try clear_value key again
  extract_lets +onlyGivenNames -merge src s1
  have h_s1 : Frame [.regs, .reg, .kettle, .units] s s1 := by
    unfold s1
    refine Frame.setUnits (by decide) ?_
    exact Frame.refl _ _
  try clear_value s1
  apply Frame.ite
  · refine Frame.then (State.markRetiring_frame _ _) (by decide) ?_
    assumption
  · refine Frame.then (State.restartGriddle_frame _ _) (by decide) ?_
    refine Frame.then (State.setRegionState_frame _ _ _ _) (by decide) ?_
    assumption

end Sys2Proof.Machine
end

