-- ==== Sys2Proof/Laws/WhiskFrame.lean ====
section
/-!
SUPPORT. What each operation of Machine/Whisk.lean can change: the parts of the state its frame names, canonical form kept.
-/

namespace Sys2Proof.Machine

theorem State.setWhisk_frame (s : State) (i : ℕ) (u : WhiskUnit) :
    Frame [.units] s (State.setWhisk s i u) := by
  unfold State.setWhisk
  refine Frame.setUnits (by decide) ?_
  exact Frame.refl _ _

theorem State.whiskFault_frame (s : State) (i : ℕ) (kind : ℕ) (info : ℕ) (index : ℕ) :
    Frame [.regs, .freeCount, .reg, .arb, .kettle, .host, .cp, .units, .tiers, .ftl, .near, .rel, .hbm, .sb, .hostMem] s (State.whiskFault s i kind info index) := by
  unfold State.whiskFault
  extract_lets +onlyGivenNames c; try clear_value c
  extract_lets +onlyGivenNames s1
  have h_s1 : Frame [.regs, .freeCount, .reg, .arb, .kettle, .host, .cp, .units, .tiers, .ftl, .near, .rel, .hbm, .sb, .hostMem] s s1 := by
    unfold s1
    refine Frame.then (State.err_frame _ _ _ _ _ _ _) (by decide) ?_
    exact Frame.refl _ _
  try clear_value s1
  extract_lets +onlyGivenNames e
  have h_e : Frame [.regs, .freeCount, .reg, .arb, .kettle, .host, .cp, .units, .tiers, .ftl, .near, .rel, .hbm, .sb, .hostMem] s e.2 := by
    unfold e
    refine Frame.then (State.countEvent_frame _ _ _ _) (by decide) ?_
    assumption
  try clear_value e
  extract_lets +onlyGivenNames s2
  have h_s2 : Frame [.regs, .freeCount, .reg, .arb, .kettle, .host, .cp, .units, .tiers, .ftl, .near, .rel, .hbm, .sb, .hostMem] s s2 := by
    unfold s2
    apply Frame.ite
    · assumption
    · apply Frame.ite
      · refine Frame.then (State.condemnUnit_frame _ _ _ _) (by decide) ?_
        assumption
      · assumption
  try clear_value s2
  refine Frame.then (State.faultCtx_frame _ _ _) (by decide) ?_
  assumption

theorem State.whiskInjected_frame (s : State) (i : ℕ) (index : ℕ) :
    Frame [.regs, .freeCount, .reg, .arb, .kettle, .host, .cp, .units, .tiers, .ftl, .near, .rel, .hbm, .sb, .hostMem] s (State.whiskInjected s i index).1 := by
  unfold State.whiskInjected
  split
  · split
    · show Frame _ _ _
      refine Frame.then (State.whiskFault_frame _ _ _ _ _) (by decide) ?_
      refine Frame.then (Frame.snd (State.draw_frame _) (by assumption)) (by decide) ?_
      exact Frame.refl _ _
  · refine Frame.iteFst ?_ ?_
    · show Frame _ _ _
      exact Frame.refl _ _
    · split
      · show Frame _ _ _
        refine Frame.then (State.err_frame _ _ _ _ _ _ _) (by decide) ?_
        refine Frame.then (Frame.snd (State.draw_frame _) (by assumption)) (by decide) ?_
        exact Frame.refl _ _

end Sys2Proof.Machine
end

