-- ==== Sys2Proof/Laws/DrainFrame.lean ====
section
/-!
SUPPORT. What each operation of Machine/Drain.lean can change: the parts of the state its frame names, canonical form kept.
-/

namespace Sys2Proof.Machine

theorem State.mirrorFault_frame (s : State) (before : State) (i : ℕ) (kind : ℕ) :
    Frame [.regs] s (State.mirrorFault s before i kind) := by
  unfold State.mirrorFault
  apply Frame.ite
  · refine Frame.then (State.fset_frame _ _ _ _) (by decide) ?_
    exact Frame.refl _ _
  · exact Frame.refl _ _

theorem State.drainFault_frame (s : State) (i : ℕ) (r : ℕ) (kind : ℕ) (pos : ℕ) (whole : Bool) :
    Frame [.regs, .freeCount, .reg, .arb, .kettle, .host, .cp, .units, .tiers, .ftl, .near, .hbm, .sb, .hostMem] s (State.drainFault s i r kind pos whole) := by
  unfold State.drainFault
  extract_lets +onlyGivenNames x inj rs; try clear_value x inj rs
  extract_lets +onlyGivenNames s0
  have h_s0 : Frame [.regs, .freeCount, .reg, .arb, .kettle, .host, .cp, .units, .tiers, .ftl, .near, .hbm, .sb, .hostMem] s s0 := by
    unfold s0
    refine Frame.then (State.err_frame _ _ _ _ _ _ _) (by decide) ?_
    exact Frame.refl _ _
  try clear_value s0
  extract_lets +onlyGivenNames s1
  have h_s1 : Frame [.regs, .freeCount, .reg, .arb, .kettle, .host, .cp, .units, .tiers, .ftl, .near, .hbm, .sb, .hostMem] s s1 := by
    unfold s1
    refine Frame.foldl ?_ ?_ _
    · intro t k
      beta_reduce
      beta_reduce
      refine Frame.then (State.blockEvent_frame _ _ _ _ _ _ _) (by decide) ?_
      exact Frame.refl _ _
    · assumption
  try clear_value s1
  extract_lets +onlyGivenNames code; try clear_value code
  apply Frame.ite
  · refine Frame.then (State.mirrorFault_frame _ _ _ _) (by decide) ?_
    refine Frame.then (State.griddleFault_frame _ _ _ _ _ _ _ _) (by decide) ?_
    assumption
  · refine Frame.then (State.mirrorFault_frame _ _ _ _) (by decide) ?_
    refine Frame.then (State.regionFault_frame _ _ _ _ _ _ _ _ _) (by decide) ?_
    assumption

theorem State.countDrained_frame (s : State) (i : ℕ) (r : ℕ) (n : ℕ) (sats : ℕ) (nfs : ℕ) (width : ℕ) :
    Frame [.reg] s (State.countDrained s i r n sats nfs width) := by
  unfold State.countDrained
  extract_lets +onlyGivenNames s1
  have h_s1 : Frame [.reg] s s1 := by
    unfold s1
    refine Frame.then (State.count_frame _ _ _ _ _) (by decide) ?_
    refine Frame.then (State.count_frame _ _ _ _ _) (by decide) ?_
    refine Frame.then (State.count_frame _ _ _ _ _) (by decide) ?_
    exact Frame.refl _ _
  try clear_value s1
  split
  · refine Frame.then (State.count_frame _ _ _ _ _) (by decide) ?_
    refine Frame.then (State.count_frame _ _ _ _ _) (by decide) ?_
    assumption
  · assumption

theorem State.stopDrain_frame (s : State) (i : ℕ) (r : ℕ) (hd : Handover) (dr : Drained) :
    Frame [.regs, .freeCount, .reg, .arb, .kettle, .host, .cp, .units, .tiers, .ftl, .near, .hbm, .sb, .hostMem] s (State.stopDrain s i r hd dr) := by
  unfold State.stopDrain
  extract_lets +onlyGivenNames c n info; try clear_value c n info
  extract_lets +onlyGivenNames s1
  have h_s1 : Frame [.regs, .freeCount, .reg, .arb, .kettle, .host, .cp, .units, .tiers, .ftl, .near, .hbm, .sb, .hostMem] s s1 := by
    unfold s1
    refine Frame.then (State.blockEvent_frame _ _ _ _ _ _ _) (by decide) ?_
    refine Frame.then (State.err_frame _ _ _ _ _ _ _) (by decide) ?_
    exact Frame.refl _ _
  try clear_value s1
  extract_lets +onlyGivenNames -merge src s2
  have h_src : Frame [.regs, .freeCount, .reg, .arb, .kettle, .host, .cp, .units, .tiers, .ftl, .near, .hbm, .sb, .hostMem] s src := by
    unfold src
    refine Frame.then (State.setRegion_frame _ _ _ _) (by decide) ?_
    assumption
  try clear_value src
  have h_s2 : Frame [.regs, .freeCount, .reg, .arb, .kettle, .host, .cp, .units, .tiers, .ftl, .near, .hbm, .sb, .hostMem] s s2 := by
    unfold s2
    refine Frame.then (State.countDrained_frame _ _ _ _ _ _ _) (by decide) ?_
    refine Frame.setFreeCount (by decide) ?_
    assumption
  try clear_value s2
  refine Frame.then (State.faultCtx_frame _ _ _) (by decide) ?_
  assumption

theorem State.deliver_frame (s : State) (ch : ℕ) (bs : List Byte) :
    Frame [.units] s (State.deliver s ch bs) := by
  unfold State.deliver
  split
  · split
    · refine Frame.setUnits (by decide) ?_
      exact Frame.refl _ _
    · exact Frame.refl _ _
  · exact Frame.refl _ _

theorem State.endDrain_frame (s : State) (i : ℕ) (r : ℕ) (hd : Handover) :
    Frame [.regs, .freeCount, .reg, .arb, .kettle, .host, .cp, .units, .tiers, .ftl, .near, .hbm, .sb, .hostMem] s (State.endDrain s i r hd) := by
  unfold State.endDrain
  extract_lets +onlyGivenNames x cfg dr base; try clear_value x cfg dr base
  extract_lets +onlyGivenNames s1
  have h_s1 : Frame [.regs, .freeCount, .reg, .arb, .kettle, .host, .cp, .units, .tiers, .ftl, .near, .hbm, .sb, .hostMem] s s1 := by
    unfold s1
    refine Frame.then (State.deliver_frame _ _ _) (by decide) ?_
    exact Frame.refl _ _
  try clear_value s1
  extract_lets +onlyGivenNames s2
  have h_s2 : Frame [.regs, .freeCount, .reg, .arb, .kettle, .host, .cp, .units, .tiers, .ftl, .near, .hbm, .sb, .hostMem] s s2 := by
    unfold s2
    apply Frame.ite
    · refine Frame.then (State.deliver_frame _ _ _) (by decide) ?_
      assumption
    · assumption
  try clear_value s2
  extract_lets +onlyGivenNames sums; try clear_value sums
  extract_lets +onlyGivenNames -merge src x1
  try clear_value x1
  extract_lets +onlyGivenNames -merge src s3
  have h_src : Frame [.regs, .freeCount, .reg, .arb, .kettle, .host, .cp, .units, .tiers, .ftl, .near, .hbm, .sb, .hostMem] s src := by
    unfold src
    refine Frame.then (State.setRegion_frame _ _ _ _) (by decide) ?_
    assumption
  try clear_value src
  have h_s3 : Frame [.regs, .freeCount, .reg, .arb, .kettle, .host, .cp, .units, .tiers, .ftl, .near, .hbm, .sb, .hostMem] s s3 := by
    unfold s3
    refine Frame.then (State.countDrained_frame _ _ _ _ _ _ _) (by decide) ?_
    refine Frame.setFreeCount (by decide) ?_
    assumption
  try clear_value s3
  extract_lets +onlyGivenNames s4
  have h_s4 : Frame [.regs, .freeCount, .reg, .arb, .kettle, .host, .cp, .units, .tiers, .ftl, .near, .hbm, .sb, .hostMem] s s4 := by
    unfold s4
    apply Frame.ite
    · assumption
    · refine Frame.then (State.useInject_frame _ _ _ _ _) (by decide) ?_
      assumption
  try clear_value s4
  refine Frame.then (State.descDone_frame _ _ _) (by decide) ?_
  assumption

end Sys2Proof.Machine
end

