-- ==== Sys2Proof/Laws/SniloFrame.lean ====
section
/-!
SUPPORT. What each operation of Machine/Snilo.lean can change: the parts of the state its frame names, canonical form kept.
-/

namespace Sys2Proof.Machine

theorem State.rxLost_frame (s : State) (p : ℕ) (lane : ℕ) :
    Frame [.regs, .reg, .arb, .kettle, .host, .units] s (State.rxLost s p lane) := by
  unfold State.rxLost
  refine Frame.then (State.err_frame _ _ _ _ _ _ _) (by decide) ?_
  refine Frame.then (State.count_frame _ _ _ _ _) (by decide) ?_
  exact Frame.refl _ _

theorem State.rx_frame (s : State) (p : ℕ) :
    Frame [.regs, .reg, .arb, .kettle, .host, .units] s (State.rx s p) := by
  unfold State.rx
  extract_lets +onlyGivenNames s1
  have h_s1 : Frame [.regs, .reg, .arb, .kettle, .host, .units] s s1 := by
    unfold s1
    refine Frame.then (State.count_frame _ _ _ _ _) (by decide) ?_
    exact Frame.refl _ _
  try clear_value s1
  apply Frame.ite
  · assumption
  · refine Frame.then (State.err_frame _ _ _ _ _ _ _) (by decide) ?_
    assumption

theorem State.loadDone_frame (s : State) (result : ℕ) (bad : ℕ) :
    Frame [.regs, .reg, .arb, .kettle, .host, .units] s (State.loadDone s result bad) := by
  unfold State.loadDone
  extract_lets +onlyGivenNames s1
  have h_s1 : Frame [.regs, .reg, .arb, .kettle, .host, .units] s s1 := by
    unfold s1
    refine Frame.then (State.fset_frame _ _ _ _) (by decide) ?_
    refine Frame.then (State.fset_frame _ _ _ _) (by decide) ?_
    refine Frame.then (State.fset_frame _ _ _ _) (by decide) ?_
    exact Frame.refl _ _
  try clear_value s1
  apply Frame.ite
  · assumption
  · refine Frame.then (State.err_frame _ _ _ _ _ _ _) (by decide) ?_
    assumption

theorem State.refreshCredits_frame (s : State) :
    Frame [.regs] s (State.refreshCredits s) := by
  unfold State.refreshCredits
  refine Frame.foldl ?_ ?_ _
  · intro t p
    beta_reduce
    beta_reduce
    refine Frame.then (State.fset_frame _ _ _ _) (by decide) ?_
    exact Frame.refl _ _
  · exact Frame.refl _ _

theorem State.endReq_frame (s : State) (r : SReq) :
    Frame [.regs, .snilo] s (State.endReq s r) := by
  unfold State.endReq
  extract_lets +onlyGivenNames k; try clear_value k
  refine Frame.then (State.refreshCredits_frame _) (by decide) ?_
  refine Frame.setSnilo (by decide) ?_
  exact Frame.refl _ _

theorem State.t3Served_frame (s : State) (a : ℕ) (n : ℕ) :
    Frame [.regs, .reg, .kettle, .tiers] s (State.t3Served s a n) := by
  unfold State.t3Served
  split
  · exact Frame.refl _ _
  · extract_lets +onlyGivenNames off; try clear_value off
    apply Frame.ite
    · extract_lets +onlyGivenNames ius; try clear_value ius
      refine Frame.then (State.work_frame _ _ _ _) (by decide) ?_
      refine Frame.then (State.heatT2_frame _ _ _ _ _) (by decide) ?_
      refine Frame.then (State.countReads_frame _ _ _) (by decide) ?_
      exact Frame.refl _ _
    · split
      · refine Frame.then (State.heatT1_frame _ _ _) (by decide) ?_
        exact Frame.refl _ _
      · exact Frame.refl _ _

theorem State.setPiece_frame (s : State) (ch : ℕ) (piece : ℕ) (bs : List Byte) :
    Frame [.units] s (State.setPiece s ch piece bs) := by
  unfold State.setPiece
  split
  · split
    · refine Frame.setUnits (by decide) ?_
      exact Frame.refl _ _
    · exact Frame.refl _ _
  · exact Frame.refl _ _

theorem State.t3Halt_frame (s : State) (ch : ℕ) (addr : ℕ) (code : ℕ) (info : ℕ) :
    Frame [.regs, .freeCount, .reg, .arb, .kettle, .host, .cp, .units, .tiers, .ftl, .near, .hbm, .sb, .hostMem] s (State.t3Halt s ch addr code info) := by
  unfold State.t3Halt
  split
  · exact Frame.refl _ _
  · extract_lets +onlyGivenNames s1
    have h_s1 : Frame [.regs, .freeCount, .reg, .arb, .kettle, .host, .cp, .units, .tiers, .ftl, .near, .hbm, .sb, .hostMem] s s1 := by
      unfold s1
      refine Frame.then (State.fset64_frame _ _ _ _ _) (by decide) ?_
      refine Frame.then (State.fset_frame _ _ _ _) (by decide) ?_
      exact Frame.refl _ _
    try clear_value s1
    extract_lets +onlyGivenNames s2
    have h_s2 : Frame [.regs, .freeCount, .reg, .arb, .kettle, .host, .cp, .units, .tiers, .ftl, .near, .hbm, .sb, .hostMem] s s2 := by
      unfold s2
      refine Frame.then (State.err_frame _ _ _ _ _ _ _) (by decide) ?_
      refine Frame.then (State.fset_frame _ _ _ _) (by decide) ?_
      assumption
    try clear_value s2
    refine Frame.then (State.faultCtx_frame _ _ _) (by decide) ?_
    assumption

theorem State.frame_frame (s : State) (port : ℕ) (ctx : ℕ) (sled : ℕ) (n : ℕ) (sent : Bool) :
    Frame [.regs, .reg, .arb, .kettle, .host, .units] s (State.frame s port ctx sled n sent) := by
  unfold State.frame
  extract_lets +onlyGivenNames b; try clear_value b
  refine Frame.then (State.countUnits_frame _ _ _ _ _ _) (by decide) ?_
  refine Frame.then (State.work_frame _ _ _ _) (by decide) ?_
  apply Frame.ite
  · refine Frame.then (State.count_frame _ _ _ _ _) (by decide) ?_
    exact Frame.refl _ _
  · refine Frame.then (State.rx_frame _ _) (by decide) ?_
    exact Frame.refl _ _

theorem State.t3Request_frame (s : State) (ch : ℕ) (piece : ℕ) (sled : ℕ) (a : ℕ) (n : ℕ) :
    ∀ u, @State.t3Request s ch piece sled a n = some u → Frame [.regs, .freeCount, .reg, .arb, .kettle, .host, .cp, .units, .tiers, .ftl, .near, .snilo, .hbm, .sb, .hostMem] s u := by
  unfold State.t3Request
  refine Frame.iteOpt ?_ ?_
  · split
    · intro u hu; cases hu
      refine Frame.then (State.count_frame _ _ _ _ _) (by decide) ?_
      refine Frame.then (State.t3Served_frame _ _ _) (by decide) ?_
      refine Frame.then (State.setPiece_frame _ _ _ _) (by decide) ?_
      exact Frame.refl _ _
    · intros; contradiction
    · intro u hu; cases hu
      refine Frame.then (State.t3Halt_frame _ _ _ _ _) (by decide) ?_
      exact Frame.refl _ _
  · extract_lets +onlyGivenNames p; try clear_value p
    refine Frame.iteOpt ?_ ?_
    · intros; contradiction
    · split
      · intros; contradiction
      · extract_lets +onlyGivenNames r; try clear_value r
        extract_lets +onlyGivenNames -merge src s1
        have h_s1 : Frame [.regs, .freeCount, .reg, .arb, .kettle, .host, .cp, .units, .tiers, .ftl, .near, .snilo, .hbm, .sb, .hostMem] s s1 := by
          unfold s1
          refine Frame.setSnilo (by decide) ?_
          exact Frame.refl _ _
        try clear_value s1
        intro u hu; cases hu
        refine Frame.then (State.refreshCredits_frame _) (by decide) ?_
        refine Frame.then (State.frame_frame _ _ _ _ _ _) (by decide) ?_
        refine Frame.then (State.count_frame _ _ _ _ _) (by decide) ?_
        refine Frame.then (State.serve_frame _ _ _ _ _) (by decide) ?_
        assumption

theorem State.refreshReady_frame (s : State) :
    Frame [.regs] s (State.refreshReady s) := by
  unfold State.refreshReady
  refine Frame.then (State.fset_frame _ _ _ _) (by decide) ?_
  exact Frame.refl _ _

theorem State.noteRtt_frame (s : State) (p : ℕ) (us : ℕ) :
    Frame [.regs, .snilo] s (State.noteRtt s p us) := by
  unfold State.noteRtt
  extract_lets +onlyGivenNames l mine; try clear_value l mine
  refine Frame.then (State.fset_frame _ _ _ _) (by decide) ?_
  refine Frame.setSnilo (by decide) ?_
  exact Frame.refl _ _

end Sys2Proof.Machine
end

