-- ==== Sys2Proof/Laws/LadleFrame.lean ====
section
/-!
SUPPORT. What each operation of Machine/Ladle.lean can change: the parts of the state its frame names, canonical form kept.
-/

namespace Sys2Proof.Machine

theorem State.setChan_frame (s : State) (ch : ℕ) (q : Channel) :
    Frame [.units] s (State.setChan s ch q) := by
  unfold State.setChan
  refine Frame.setUnits (by decide) ?_
  exact Frame.refl _ _

theorem State.endMove_frame (s : State) (ch : ℕ) (m : Move) :
    Frame [.regs, .freeCount, .reg, .arb, .kettle, .host, .cp, .units, .tiers, .ftl, .near, .hbm, .sb, .hostMem] s (State.endMove s ch m) := by
  unfold State.endMove
  extract_lets +onlyGivenNames -merge src s1
  have h_s1 : Frame [.regs, .freeCount, .reg, .arb, .kettle, .host, .cp, .units, .tiers, .ftl, .near, .hbm, .sb, .hostMem] s s1 := by
    unfold s1
    refine Frame.then (State.setChan_frame _ _ _) (by decide) ?_
    exact Frame.refl _ _
  try clear_value s1
  extract_lets +onlyGivenNames -merge n s2
  try clear_value n
  have h_s2 : Frame [.regs, .freeCount, .reg, .arb, .kettle, .host, .cp, .units, .tiers, .ftl, .near, .hbm, .sb, .hostMem] s s2 := by
    unfold s2
    split
    · refine Frame.then (State.count_frame _ _ _ _ _) (by decide) ?_
      refine Frame.then (State.count_frame _ _ _ _ _) (by decide) ?_
      refine Frame.then (State.setWhisk_frame _ _ _) (by decide) ?_
      assumption
    · assumption
  try clear_value s2
  refine Frame.then (State.descDone_frame _ _ _) (by decide) ?_
  assumption

theorem State.dstWrite_frame (s : State) (c : ℕ) (h : ℕ) (kind : ℕ) (mrs : ℕ) (ws : List (ℕ × List Byte)) :
    Frame [.regs, .reg, .kettle, .host, .cp, .units, .tiers, .ftl, .hbm, .sb, .hostMem] s (State.dstWrite s c h kind mrs ws) := by
  unfold State.dstWrite
  apply Frame.ite
  · refine Frame.foldl ?_ ?_ _
    · intro t w
      beta_reduce
      beta_reduce
      refine Frame.then (State.sbWrite_frame _ _ _ _) (by decide) ?_
      exact Frame.refl _ _
    · exact Frame.refl _ _
  · apply Frame.ite
    · refine Frame.foldl ?_ ?_ _
      · intro t w
        beta_reduce
        beta_reduce
        refine Frame.then (State.heatT1_frame _ _ _) (by decide) ?_
        refine Frame.then (State.hbmWrite_frame _ _ _) (by decide) ?_
        exact Frame.refl _ _
      · exact Frame.refl _ _
    · apply Frame.ite
      · extract_lets +onlyGivenNames rs; try clear_value rs
        refine Frame.foldl ?_ ?_ _
        · intro t w
          beta_reduce
          beta_reduce
          refine Frame.foldl ?_ ?_ _
          · intro u b
            beta_reduce
            beta_reduce
            split
            · refine Frame.then (State.hbmWrite_frame _ _ _) (by decide) ?_
              exact Frame.refl _ _
            · exact Frame.refl _ _
          · exact Frame.refl _ _
        · exact Frame.refl _ _
      · apply Frame.ite
        · refine Frame.foldl ?_ ?_ _
          · intro t w
            beta_reduce
            beta_reduce
            refine Frame.then (State.pcie_frame _ _ _) (by decide) ?_
            refine Frame.memHost (by decide) (by decide) (fun h => by try dsimp +zetaDelta only; repeat' (first | with_reducible assumption | with_reducible refine wf_fill _ _ _ _ ?_ | with_reducible refine wf_writeL _ _ _ ?_ | with_reducible refine wf_copyFrom _ _ _ _ ?_ | exact wf_empty | with_reducible refine wf_foldl _ (fun m x h => ?_) _ ?_ _)) ?_
            exact Frame.refl _ _
          · exact Frame.refl _ _
        · refine Frame.foldl ?_ ?_ _
          · intro t w
            beta_reduce
            beta_reduce
            extract_lets +onlyGivenNames ns; try clear_value ns
            extract_lets +onlyGivenNames t1
            have h_t1 : Frame [.regs, .reg, .kettle, .host, .cp, .units, .tiers, .ftl, .hbm, .sb, .hostMem] t t1 := by
              unfold t1
              refine Frame.then (State.copiesOnWrite_frame _ _) (by decide) ?_
              exact Frame.refl _ _
            try clear_value t1
            refine Frame.then (State.nvmWrite_frame _ _ _ _ _ _) (by decide) ?_
            assumption
          · exact Frame.refl _ _

theorem State.haltChan_frame (s : State) (ch : ℕ) (addr : ℕ) (kind : ℕ) (code : ℕ) (bs : List ℕ) (m : Move) (inj : Bool) :
    Frame [.regs, .freeCount, .reg, .arb, .kettle, .host, .cp, .units, .tiers, .ftl, .near, .hbm, .sb, .hostMem] s (State.haltChan s ch addr kind code bs m inj) := by
  unfold State.haltChan
  extract_lets +onlyGivenNames s1
  have h_s1 : Frame [.regs, .freeCount, .reg, .arb, .kettle, .host, .cp, .units, .tiers, .ftl, .near, .hbm, .sb, .hostMem] s s1 := by
    unfold s1
    refine Frame.then (State.fset64_frame _ _ _ _ _) (by decide) ?_
    refine Frame.then (State.fset_frame _ _ _ _) (by decide) ?_
    exact Frame.refl _ _
  try clear_value s1
  extract_lets +onlyGivenNames s2
  have h_s2 : Frame [.regs, .freeCount, .reg, .arb, .kettle, .host, .cp, .units, .tiers, .ftl, .near, .hbm, .sb, .hostMem] s s2 := by
    unfold s2
    refine Frame.then (State.err_frame _ _ _ _ _ _ _) (by decide) ?_
    refine Frame.then (State.fset_frame _ _ _ _) (by decide) ?_
    assumption
  try clear_value s2
  refine Frame.then (State.faultCtx_frame _ _ _) (by decide) ?_
  assumption

theorem State.issueShadow_frame (s : State) (d : Desc) (m : Move) (wh : Option ℕ) :
    Frame [.units] s (State.issueShadow s d m wh) := by
  unfold State.issueShadow
  apply Frame.ite
  · split
    · extract_lets +onlyGivenNames r f; try clear_value r f
      refine Frame.then (State.setRegion_frame _ _ _ _) (by decide) ?_
      exact Frame.refl _ _
    · exact Frame.refl _ _
  · exact Frame.refl _ _

theorem State.takeWriter_frame (s : State) (c : ℕ) (ps : List Span) :
    Frame [.ftl] s (State.takeWriter s c ps) := by
  unfold State.takeWriter
  extract_lets +onlyGivenNames ks; try clear_value ks
  extract_lets +onlyGivenNames  take
  refine Frame.setFtl (by decide) ?_
  exact Frame.refl _ _

theorem State.markFill_frame (s : State) (h : ℕ) (ts : List ℕ) :
    Frame [.tiers] s (State.markFill s h ts) := by
  unfold State.markFill
  refine Frame.foldl ?_ ?_ _
  · intro t p
    beta_reduce
    beta_reduce
    extract_lets +onlyGivenNames k; try clear_value k
    refine Frame.then (State.setMark_frame _ _ _) (by decide) ?_
    exact Frame.refl _ _
  · exact Frame.refl _ _

theorem State.moveStopped_frame (s : State) (ch : ℕ) (m : Move) :
    ∀ u, @State.moveStopped s ch m = some u → Frame [.regs, .freeCount, .reg, .arb, .kettle, .host, .cp, .units, .tiers, .ftl, .near, .hbm, .sb, .hostMem] s u := by
  unfold State.moveStopped
  extract_lets +onlyGivenNames r bad; try clear_value r bad
  split
  · intro u hu; cases hu
    refine Frame.then (State.faultCtx_frame _ _ _) (by decide) ?_
    exact Frame.refl _ _
  · extract_lets +onlyGivenNames k; try clear_value k
    intro u hu; cases hu
    refine Frame.then (State.haltChan_frame _ _ _ _ _ _ _ _) (by decide) ?_
    refine Frame.then (State.err_frame _ _ _ _ _ _ _) (by decide) ?_
    exact Frame.refl _ _
  · intros; contradiction

theorem State.sbRemap_frame (s : State) (h : ℕ) (a : ℕ) :
    Frame [.regs, .reg, .kettle, .eflash, .cp, .sb] s (State.sbRemap s h a) := by
  unfold State.sbRemap
  extract_lets +onlyGivenNames g k; try clear_value g k
  extract_lets +onlyGivenNames s1
  have h_s1 : Frame [.regs, .reg, .kettle, .eflash, .cp, .sb] s s1 := by
    unfold s1
    refine Frame.then (State.fset_frame _ _ _ _) (by decide) ?_
    refine Frame.then (State.fset_frame _ _ _ _) (by decide) ?_
    exact Frame.refl _ _
  try clear_value s1
  extract_lets +onlyGivenNames s2
  have h_s2 : Frame [.regs, .reg, .kettle, .eflash, .cp, .sb] s s2 := by
    unfold s2
    refine Frame.then (State.fset_frame _ _ _ _) (by decide) ?_
    refine Frame.then (State.fset_frame _ _ _ _) (by decide) ?_
    refine Frame.then (State.fset_frame _ _ _ _) (by decide) ?_
    assumption
  try clear_value s2
  extract_lets +onlyGivenNames -merge src src1 s3
  have h_s3 : Frame [.regs, .reg, .kettle, .eflash, .cp, .sb] s s3 := by
    unfold s3
    refine Frame.upd rfl ?_ (by intro p hp; cases p <;> first | exact absurd (by decide) hp | rfl) (fun h => ⟨h.1, h.2.1, ((fun h => by try dsimp +zetaDelta only; repeat' (first | with_reducible assumption | with_reducible refine wf_fill _ _ _ _ ?_ | with_reducible refine wf_writeL _ _ _ ?_ | with_reducible refine wf_copyFrom _ _ _ _ ?_ | exact wf_empty | with_reducible refine wf_foldl _ (fun m x h => ?_) _ ?_ _)) h.2.2.1), h.2.2.2.1, h.2.2.2.2⟩)
    assumption
  try clear_value s3
  refine Frame.then (State.spareSwitched_frame _ _ _ _ _ _) (by decide) ?_
  assumption

theorem State.sbRetire_frame (s : State) (h : ℕ) (g : ℕ) :
    Frame [.regs, .reg, .arb, .kettle, .eflash, .host, .units] s (State.sbRetire s h g) := by
  unfold State.sbRetire
  extract_lets +onlyGivenNames s1
  have h_s1 : Frame [.regs, .reg, .arb, .kettle, .eflash, .host, .units] s s1 := by
    unfold s1
    apply Frame.ite
    · refine Frame.then (State.fsetBit_frame _ _ _ _) (by decide) ?_
      exact Frame.refl _ _
    · refine Frame.then (State.fsetBit_frame _ _ _ _) (by decide) ?_
      exact Frame.refl _ _
  try clear_value s1
  refine Frame.then (State.recordRetirement_frame _ _ _ _) (by decide) ?_
  refine Frame.then (State.err_frame _ _ _ _ _ _ _) (by decide) ?_
  refine Frame.then (State.fset_frame _ _ _ _) (by decide) ?_
  assumption

theorem State.sbFail_frame (s : State) (h : ℕ) (a : ℕ) (bs : List ℕ) :
    Frame [.regs, .reg, .arb, .kettle, .eflash, .host, .cp, .units, .sb] s (State.sbFail s h a bs) := by
  unfold State.sbFail
  extract_lets +onlyGivenNames g; try clear_value g
  extract_lets +onlyGivenNames s1
  have h_s1 : Frame [.regs, .reg, .arb, .kettle, .eflash, .host, .cp, .units, .sb] s s1 := by
    unfold s1
    refine Frame.then (State.err_frame _ _ _ _ _ _ _) (by decide) ?_
    exact Frame.refl _ _
  try clear_value s1
  apply Frame.ite
  · assumption
  · apply Frame.ite
    · refine Frame.then (State.sbRemap_frame _ _ _) (by decide) ?_
      assumption
    · extract_lets +onlyGivenNames t
      have h_t : Frame [.regs, .reg, .arb, .kettle, .eflash, .host, .cp, .units, .sb] s t := by
        unfold t
        refine Frame.then (State.err_frame _ _ _ _ _ _ _) (by decide) ?_
        assumption
      try clear_value t
      apply Frame.ite
      · refine Frame.then (State.classify_frame _ _) (by decide) ?_
        assumption
      · refine Frame.then (State.sbRetire_frame _ _ _) (by decide) ?_
        assumption

theorem State.sbCorrect_frame (s : State) (h : ℕ) (a : ℕ) :
    Frame [.regs, .reg, .arb, .kettle, .eflash, .host, .cp, .units, .sb] s (State.sbCorrect s h a) := by
  unfold State.sbCorrect
  extract_lets +onlyGivenNames g line; try clear_value g line
  extract_lets +onlyGivenNames s1
  have h_s1 : Frame [.regs, .reg, .arb, .kettle, .eflash, .host, .cp, .units, .sb] s s1 := by
    unfold s1
    refine Frame.then (State.count_frame _ _ _ _ _) (by decide) ?_
    refine Frame.then (State.err_frame _ _ _ _ _ _ _) (by decide) ?_
    exact Frame.refl _ _
  try clear_value s1
  extract_lets +onlyGivenNames again; try clear_value again
  extract_lets +onlyGivenNames -merge src s2
  have h_s2 : Frame [.regs, .reg, .arb, .kettle, .eflash, .host, .cp, .units, .sb] s s2 := by
    unfold s2
    refine Frame.setUnits (by decide) ?_
    assumption
  try clear_value s2
  apply Frame.ite
  · assumption
  · apply Frame.ite
    · apply Frame.ite
      · refine Frame.then (State.sbRemap_frame _ _ _) (by decide) ?_
        assumption
      · assumption
    · apply Frame.ite
      · assumption
      · refine Frame.setUnits (by decide) ?_
        assumption

theorem State.moveInjected_frame (s : State) (ch : ℕ) (m : Move) :
    Frame [.regs, .freeCount, .reg, .arb, .kettle, .eflash, .host, .cp, .units, .tiers, .ftl, .near, .rel, .hbm, .sb, .hostMem] s (State.moveInjected s ch m).1 := by
  unfold State.moveInjected
  extract_lets +onlyGivenNames r a k sb hbm; try clear_value r a k sb hbm
  refine Frame.iteFst ?_ ?_
  · show Frame _ _ _
    refine Frame.then (State.haltChan_frame _ _ _ _ _ _ _ _) (by decide) ?_
    exact Frame.refl _ _
  · refine Frame.iteFst ?_ ?_
    · show Frame _ _ _
      refine Frame.then (State.haltChan_frame _ _ _ _ _ _ _ _) (by decide) ?_
      refine Frame.then (State.sbFail_frame _ _ _ _) (by decide) ?_
      exact Frame.refl _ _
    · split
      · show Frame _ _ _
        refine Frame.then (State.haltChan_frame _ _ _ _ _ _ _ _) (by decide) ?_
        refine Frame.then (State.err_frame _ _ _ _ _ _ _) (by decide) ?_
        exact Frame.refl _ _
      · extract_lets +onlyGivenNames s1
        have h_s1 : Frame [.regs, .freeCount, .reg, .arb, .kettle, .eflash, .host, .cp, .units, .tiers, .ftl, .near, .rel, .hbm, .sb, .hostMem] s s1 := by
          unfold s1
          apply Frame.ite
          · exact Frame.refl _ _
          · refine Frame.then (State.err_frame _ _ _ _ _ _ _) (by decide) ?_
            exact Frame.refl _ _
        try clear_value s1
        extract_lets +onlyGivenNames s2
        have h_s2 : Frame [.regs, .freeCount, .reg, .arb, .kettle, .eflash, .host, .cp, .units, .tiers, .ftl, .near, .rel, .hbm, .sb, .hostMem] s s2 := by
          unfold s2
          apply Frame.ite
          · refine Frame.then (State.sbCorrect_frame _ _ _) (by decide) ?_
            assumption
          · assumption
        try clear_value s2
        extract_lets +onlyGivenNames s3
        have h_s3 : Frame [.regs, .freeCount, .reg, .arb, .kettle, .eflash, .host, .cp, .units, .tiers, .ftl, .near, .rel, .hbm, .sb, .hostMem] s s3 := by
          unfold s3
          apply Frame.ite
          · refine Frame.then (State.err_frame _ _ _ _ _ _ _) (by decide) ?_
            assumption
          · assumption
        try clear_value s3
        refine Frame.iteFst ?_ ?_
        · show Frame _ _ _
          assumption
        · refine Frame.then (State.whiskInjected_frame _ _ _) (by decide) ?_
          assumption

theorem State.countSat_frame (s : State) (m : Move) (n : ℕ) :
    Frame [.reg] s (State.countSat s m n) := by
  unfold State.countSat
  split
  · refine Frame.then (State.count_frame _ _ _ _ _) (by decide) ?_
    exact Frame.refl _ _
  · exact Frame.refl _ _

theorem State.feedPort_frame (s : State) (m : Move) :
    Frame [.reg, .units] s (State.feedPort s m) := by
  unfold State.feedPort
  split
  · exact Frame.refl _ _
  · extract_lets +onlyGivenNames r o f fd; try clear_value r o f fd
    refine Frame.then (State.setRegion_frame _ _ _ _) (by decide) ?_
    refine Frame.then (State.countSat_frame _ _ _) (by decide) ?_
    exact Frame.refl _ _

theorem State.t3Send_frame (s : State) (ch n : ℕ) :
    Frame [.regs, .freeCount, .reg, .arb, .kettle, .host, .cp, .units, .tiers, .ftl, .near, .snilo, .hbm, .sb, .hostMem] s (State.t3Send s ch n) := by
  induction n generalizing s with
  | zero => exact Frame.refl _ _
  | succ n ih =>
    unfold State.t3Send
    split
    · exact Frame.refl _ _
    · split
      · exact Frame.refl _ _
      · split
        · exact Frame.refl _ _
        · have h1 := State.t3Request_frame _ _ _ _ _ _ _ (by assumption)
          split
          · exact h1
          · exact Frame.then (ih _) (by decide) (Frame.then (State.setChan_frame _ _ _) (by decide) h1)

theorem State.countMove_frame (s : State) (ch : ℕ) (m : Move) (outBytes : ℕ) :
    Frame [.regs, .reg, .kettle, .units, .tiers] s (State.countMove s ch m outBytes) := by
  unfold State.countMove
  extract_lets +onlyGivenNames r n; try clear_value r n
  extract_lets +onlyGivenNames s1
  have h_s1 : Frame [.regs, .reg, .kettle, .units, .tiers] s s1 := by
    unfold s1
    refine Frame.then (State.count_frame _ _ _ _ _) (by decide) ?_
    refine Frame.then (State.countUnits_frame _ _ _ _ _ _) (by decide) ?_
    exact Frame.refl _ _
  try clear_value s1
  extract_lets +onlyGivenNames s2
  have h_s2 : Frame [.regs, .reg, .kettle, .units, .tiers] s s2 := by
    unfold s2
    apply Frame.ite
    · refine Frame.then (State.countUnits_frame _ _ _ _ _ _) (by decide) ?_
      assumption
    · assumption
  try clear_value s2
  extract_lets +onlyGivenNames s3
  have h_s3 : Frame [.regs, .reg, .kettle, .units, .tiers] s s3 := by
    unfold s3
    apply Frame.ite
    · refine Frame.then (State.countUnits_frame _ _ _ _ _ _) (by decide) ?_
      assumption
    · assumption
  try clear_value s3
  extract_lets +onlyGivenNames s4
  have h_s4 : Frame [.regs, .reg, .kettle, .units, .tiers] s s4 := by
    unfold s4
    apply Frame.ite
    · refine Frame.then (State.pcie_frame _ _ _) (by decide) ?_
      assumption
    · assumption
  try clear_value s4
  extract_lets +onlyGivenNames s5
  have h_s5 : Frame [.regs, .reg, .kettle, .units, .tiers] s s5 := by
    unfold s5
    apply Frame.ite
    · refine Frame.foldl ?_ ?_ _
      · intro t x
        beta_reduce
        beta_reduce
        refine Frame.then (State.heatT1_frame _ _ _) (by decide) ?_
        exact Frame.refl _ _
      · assumption
    · assumption
  try clear_value s5
  apply Frame.ite
  · extract_lets +onlyGivenNames ius reached hint; try clear_value ius reached hint
    extract_lets +onlyGivenNames s6
    have h_s6 : Frame [.regs, .reg, .kettle, .units, .tiers] s s6 := by
      unfold s6
      refine Frame.then (State.work_frame _ _ _ _) (by decide) ?_
      refine Frame.then (State.countReads_frame _ _ _) (by decide) ?_
      assumption
    try clear_value s6
    refine Frame.foldl ?_ ?_ _
    · intro t iu
      beta_reduce
      beta_reduce
      refine Frame.then (State.heatT2_frame _ _ _ _ _) (by decide) ?_
      exact Frame.refl _ _
    · assumption
  · assumption

theorem State.endPortMove_frame (s : State) (ch : ℕ) (m : Move) :
    Frame [.regs, .freeCount, .reg, .arb, .kettle, .host, .cp, .units, .tiers, .ftl, .near, .snilo, .hbm, .sb, .hostMem] s (State.endPortMove s ch m) := by
  unfold State.endPortMove
  extract_lets +onlyGivenNames r; try clear_value r
  split
  · exact Frame.refl _ _
  · extract_lets +onlyGivenNames x; try clear_value x
    extract_lets +onlyGivenNames  mine
    apply Frame.ite
    · apply Frame.ite
      · refine Frame.then (State.feedPort_frame _ _) (by decide) ?_
        refine Frame.then (State.setChan_frame _ _ _) (by decide) ?_
        exact Frame.refl _ _
      · refine Frame.then (State.t3Send_frame _ _ _) (by decide) ?_
        exact Frame.refl _ _
    · apply Frame.ite
      · split
        · apply Frame.ite
          · exact Frame.refl _ _
          · extract_lets +onlyGivenNames s1
            have h_s1 : Frame [.regs, .freeCount, .reg, .arb, .kettle, .host, .cp, .units, .tiers, .ftl, .near, .snilo, .hbm, .sb, .hostMem] s s1 := by
              unfold s1
              refine Frame.then (State.setRegion_frame _ _ _ _) (by decide) ?_
              exact Frame.refl _ _
            try clear_value s1
            refine Frame.then (State.endMove_frame _ _ _) (by decide) ?_
            refine Frame.then (State.countMove_frame _ _ _ _) (by decide) ?_
            assumption
        · exact Frame.refl _ _
      · apply Frame.ite
        · exact Frame.refl _ _
        · refine Frame.then (State.endMove_frame _ _ _) (by decide) ?_
          refine Frame.then (State.countMove_frame _ _ _ _) (by decide) ?_
          exact Frame.refl _ _

theorem State.beginBatch_frame (s : State) (c : ℕ) :
    Frame [.tiers] s (State.beginBatch s c) := by
  unfold State.beginBatch
  split
  · extract_lets +onlyGivenNames req
    refine Frame.then (State.setMark_frame _ _ _) (by decide) ?_
    refine Frame.setTiers (by decide) ?_
    exact Frame.refl _ _
  · exact Frame.refl _ _

theorem State.endMemoryMove_frame (s : State) (ch : ℕ) (m : Move) :
    Frame [.regs, .freeCount, .reg, .arb, .kettle, .host, .cp, .units, .tiers, .ftl, .near, .snilo, .hbm, .sb, .hostMem] s (State.endMemoryMove s ch m) := by
  unfold State.endMemoryMove
  extract_lets +onlyGivenNames r; try clear_value r
  apply Frame.ite
  · refine Frame.then (State.t3Send_frame _ _ _) (by decide) ?_
    exact Frame.refl _ _
  · extract_lets +onlyGivenNames o ws; try clear_value o ws
    apply Frame.ite
    · exact Frame.refl _ _
    · extract_lets +onlyGivenNames s1
      have h_s1 : Frame [.regs, .freeCount, .reg, .arb, .kettle, .host, .cp, .units, .tiers, .ftl, .near, .snilo, .hbm, .sb, .hostMem] s s1 := by
        unfold s1
        refine Frame.then (State.dstWrite_frame _ _ _ _ _ _) (by decide) ?_
        exact Frame.refl _ _
      try clear_value s1
      extract_lets +onlyGivenNames ps; try clear_value ps
      extract_lets +onlyGivenNames s2
      have h_s2 : Frame [.regs, .freeCount, .reg, .arb, .kettle, .host, .cp, .units, .tiers, .ftl, .near, .snilo, .hbm, .sb, .hostMem] s s2 := by
        unfold s2
        refine Frame.foldl ?_ ?_ _
        · intro t p
          beta_reduce
          beta_reduce
          refine Frame.then (State.setMark_frame _ _ _) (by decide) ?_
          exact Frame.refl _ _
        · assumption
      try clear_value s2
      extract_lets +onlyGivenNames s3
      have h_s3 : Frame [.regs, .freeCount, .reg, .arb, .kettle, .host, .cp, .units, .tiers, .ftl, .near, .snilo, .hbm, .sb, .hostMem] s s3 := by
        unfold s3
        apply Frame.ite
        · refine Frame.then (State.beginBatch_frame _ _) (by decide) ?_
          assumption
        · assumption
      try clear_value s3
      refine Frame.then (State.endMove_frame _ _ _) (by decide) ?_
      refine Frame.then (State.countMove_frame _ _ _ _) (by decide) ?_
      refine Frame.then (State.countSat_frame _ _ _) (by decide) ?_
      assumption

theorem State.lateCause_frame (s : State) (t : ℕ) :
    Frame [.freeCount] s (State.lateCause s t).2 := by
  unfold State.lateCause
  split
  · show Frame _ _ _
    exact Frame.refl _ _
  · extract_lets +onlyGivenNames k; try clear_value k
    refine Frame.iteSnd ?_ ?_
    · show Frame _ _ _
      exact Frame.refl _ _
    · refine Frame.iteSnd ?_ ?_
      · split
        · show Frame _ _ _
          refine Frame.then (Frame.snd (State.draw_frame _) (by assumption)) (by decide) ?_
          exact Frame.refl _ _
      · show Frame _ _ _
        exact Frame.refl _ _

theorem State.noteLate_frame (s : State) (m : Move) :
    Frame [.regs, .freeCount, .cp] s (State.noteLate s m) := by
  unfold State.noteLate
  split
  · exact Frame.refl _ _
  · extract_lets +onlyGivenNames k; try clear_value k
    split
    · refine Frame.then (State.fset_frame _ _ _ _) (by decide) ?_
      refine Frame.then (State.fset_frame _ _ _ _) (by decide) ?_
      refine Frame.then (State.taskFlag_frame _ _ _) (by decide) ?_
      refine Frame.then (Frame.snd (State.lateCause_frame _ _) (by assumption)) (by decide) ?_
      exact Frame.refl _ _

theorem State.noteMove_frame (s : State) (m : Move) :
    Frame [.cp] s (State.noteMove s m) := by
  unfold State.noteMove
  extract_lets +onlyGivenNames k n; try clear_value k n
  apply Frame.ite
  · refine Frame.foldl ?_ ?_ _
    · intro t r
      beta_reduce
      beta_reduce
      refine Frame.then (State.noteWrite_frame _ _ _ _ _) (by decide) ?_
      exact Frame.refl _ _
    · exact Frame.refl _ _
  · apply Frame.ite
    · refine Frame.foldl ?_ ?_ _
      · intro t r
        beta_reduce
        beta_reduce
        refine Frame.then (State.noteWrite_frame _ _ _ _ _) (by decide) ?_
        exact Frame.refl _ _
      · exact Frame.refl _ _
    · apply Frame.ite
      · refine Frame.foldl ?_ ?_ _
        · intro t r
          beta_reduce
          beta_reduce
          refine Frame.then (State.noteWrite_frame _ _ _ _ _) (by decide) ?_
          exact Frame.refl _ _
        · exact Frame.refl _ _
      · apply Frame.ite
        · extract_lets +onlyGivenNames rs; try clear_value rs
          refine Frame.foldl ?_ ?_ _
          · intro t r
            beta_reduce
            beta_reduce
            refine Frame.foldl ?_ ?_ _
            · intro u j
              beta_reduce
              beta_reduce
              split
              · refine Frame.then (State.noteWrite_frame _ _ _ _ _) (by decide) ?_
                exact Frame.refl _ _
              · exact Frame.refl _ _
            · exact Frame.refl _ _
          · exact Frame.refl _ _
        · exact Frame.refl _ _

theorem State.sbRemapDue_frame (s : State) (h : ℕ) (g : ℕ) :
    Frame [.regs, .reg, .kettle, .eflash, .cp, .units, .sb] s (State.sbRemapDue s h g) := by
  unfold State.sbRemapDue
  extract_lets +onlyGivenNames  mine
  extract_lets +onlyGivenNames s1
  have h_s1 : Frame [.regs, .reg, .kettle, .eflash, .cp, .units, .sb] s s1 := by
    unfold s1
    refine Frame.foldl ?_ ?_ _
    · intro t l
      beta_reduce
      beta_reduce
      apply Frame.ite
      · refine Frame.then (State.sbRemap_frame _ _ _) (by decide) ?_
        exact Frame.refl _ _
      · exact Frame.refl _ _
    · exact Frame.refl _ _
  try clear_value s1
  refine Frame.setUnits (by decide) ?_
  assumption

end Sys2Proof.Machine
end

