-- ==== Sys2Proof/Laws/TasksFrame.lean ====
section
/-!
SUPPORT. What each operation of Machine/Tasks.lean can change: the parts of the state its frame names, canonical form kept.
-/

namespace Sys2Proof.Machine

theorem State.displace_frame (s : State) (c : ℕ) (r : Request) :
    Frame [.regs, .cp, .units] s (State.displace s c r) := by
  unfold State.displace
  refine Frame.foldl ?_ ?_ _
  · intro t p
    beta_reduce
    beta_reduce
    apply Frame.ite
    · refine Frame.then (State.setCtx_frame _ _ _) (by decide) ?_
      refine Frame.then (State.releaseHome_frame _ _) (by decide) ?_
      exact Frame.refl _ _
    · exact Frame.refl _ _
  · exact Frame.refl _ _

theorem State.grantedLoad_frame (s : State) (c : ℕ) (x : Ctx) (presented : ℕ) :
    ∀ u, @State.grantedLoad s c x presented = some u → Frame [.regs, .reg, .arb, .kettle, .cp] s u := by
  unfold State.grantedLoad
  extract_lets +onlyGivenNames s1
  have h_s1 : Frame [.regs, .reg, .arb, .kettle, .cp] s s1 := by
    unfold s1
    refine Frame.then (State.withLoads_frame _ _) (by decide) ?_
    exact Frame.refl _ _
  try clear_value s1
  refine Frame.iteOpt ?_ ?_
  · intro u hu; cases hu
    refine Frame.then (State.grantLoad_frame _ _ _ _) (by decide) ?_
    assumption
  · intros; contradiction

theorem State.setSems_frame (s : State) (vs : List (ℕ × ℕ)) :
    Frame [.cp] s (State.setSems s vs) := by
  unfold State.setSems
  refine Frame.setCp (by decide) ?_
  exact Frame.refl _ _

theorem State.takeHome_frame (s : State) (c : ℕ) (x : Ctx) :
    Frame [.regs, .freeCount, .host, .cp, .units, .tiers, .hbm, .sb, .hostMem] s (State.takeHome s c x) := by
  unfold State.takeHome
  refine Frame.then (State.spoilHome_frame _ _) (by decide) ?_
  refine Frame.then (State.ownHome_frame _ _ _) (by decide) ?_
  refine Frame.then (State.displace_frame _ _ _) (by decide) ?_
  exact Frame.refl _ _

theorem State.countLoad_frame (s : State) (r : Request) :
    Frame [.reg] s (State.countLoad s r) := by
  unfold State.countLoad
  refine Frame.foldl ?_ ?_ _
  · intro t h
    beta_reduce
    beta_reduce
    refine Frame.then (State.count_frame _ _ _ _ _) (by decide) ?_
    exact Frame.refl _ _
  · exact Frame.refl _ _

theorem State.noteSwitch_frame (s : State) (c : ℕ) (kind : ℕ) (us : ℕ) :
    Frame [.regs] s (State.noteSwitch s c kind us) := by
  unfold State.noteSwitch
  refine Frame.then (State.fset_frame _ _ _ _) (by decide) ?_
  refine Frame.then (State.fset_frame _ _ _ _) (by decide) ?_
  refine Frame.then (State.fset_frame _ _ _ _) (by decide) ?_
  exact Frame.refl _ _

theorem State.unstage_frame (s : State) (slot : ℕ) :
    Frame [.cp] s (State.unstage s slot) := by
  unfold State.unstage
  refine Frame.setCp (by decide) ?_
  exact Frame.refl _ _

theorem State.emptySlot_frame (s : State) (slot : ℕ) :
    Frame [.cp] s (State.emptySlot s slot) := by
  unfold State.emptySlot
  refine Frame.then (State.unstage_frame _ _) (by decide) ?_
  refine Frame.setCp (by decide) ?_
  exact Frame.refl _ _

theorem State.setSlot_frame (s : State) (slot : ℕ) (p : ProgSlot) :
    Frame [.cp] s (State.setSlot s slot p) := by
  unfold State.setSlot
  refine Frame.setCp (by decide) ?_
  exact Frame.refl _ _

theorem State.loadPiece_frame (s : State) (fn : ℕ) (slot : ℕ) (off : ℕ) (bs : List Byte) :
    Frame [.cp] s (State.loadPiece s fn slot off bs).1 := by
  unfold State.loadPiece
  extract_lets +onlyGivenNames p busy; try clear_value p busy
  refine Frame.iteFst ?_ ?_
  · show Frame _ _ _
    exact Frame.refl _ _
  · refine Frame.iteFst ?_ ?_
    · show Frame _ _ _
      exact Frame.refl _ _
    · extract_lets +onlyGivenNames at0; try clear_value at0
      refine Frame.iteFst ?_ ?_
      · show Frame _ _ _
        refine Frame.then (State.emptySlot_frame _ _) (by decide) ?_
        exact Frame.refl _ _
      · extract_lets +onlyGivenNames all size; try clear_value all size
        refine Frame.iteFst ?_ ?_
        · show Frame _ _ _
          refine Frame.then (State.emptySlot_frame _ _) (by decide) ?_
          exact Frame.refl _ _
        · extract_lets +onlyGivenNames s1
          have h_s1 : Frame [.cp] s s1 := by
            unfold s1
            refine Frame.then (State.unstage_frame _ _) (by decide) ?_
            exact Frame.refl _ _
          try clear_value s1
          refine Frame.iteFst ?_ ?_
          · show Frame _ _ _
            refine Frame.then (State.setSlot_frame _ _ _) (by decide) ?_
            assumption
          · refine Frame.iteFst ?_ ?_
            · show Frame _ _ _
              refine Frame.then (State.emptySlot_frame _ _) (by decide) ?_
              assumption
            · refine Frame.iteFst ?_ ?_
              · show Frame _ _ _
                refine Frame.then (State.emptySlot_frame _ _) (by decide) ?_
                assumption
              · show Frame _ _ _
                refine Frame.then (State.setSlot_frame _ _ _) (by decide) ?_
                assumption

theorem State.activate_frame (s : State) (fn : ℕ) (slot : ℕ) (on : Bool) :
    Frame [.cp] s (State.activate s fn slot on).1 := by
  unfold State.activate
  extract_lets +onlyGivenNames p; try clear_value p
  split
  · refine Frame.iteFst ?_ ?_
    · show Frame _ _ _
      exact Frame.refl _ _
    · show Frame _ _ _
      exact Frame.refl _ _
  · refine Frame.iteFst ?_ ?_
    · refine Frame.iteFst ?_ ?_
      · show Frame _ _ _
        refine Frame.then (State.setSlot_frame _ _ _) (by decide) ?_
        exact Frame.refl _ _
      · show Frame _ _ _
        exact Frame.refl _ _
    · refine Frame.iteFst ?_ ?_
      · show Frame _ _ _
        exact Frame.refl _ _
      · refine Frame.iteFst ?_ ?_
        · show Frame _ _ _
          exact Frame.refl _ _
        · show Frame _ _ _
          refine Frame.then (State.setSlot_frame _ _ _) (by decide) ?_
          exact Frame.refl _ _

theorem State.defineRanges_frame (s : State) (fn : ℕ) (set : ℕ) (rs : List (ℕ × ℕ × ℕ)) :
    Frame [.cp] s (State.defineRanges s fn set rs).1 := by
  unfold State.defineRanges
  extract_lets +onlyGivenNames own; try clear_value own
  extract_lets +onlyGivenNames  ok
  refine Frame.iteFst ?_ ?_
  · show Frame _ _ _
    exact Frame.refl _ _
  · refine Frame.iteFst ?_ ?_
    · show Frame _ _ _
      refine Frame.setCp (by decide) ?_
      exact Frame.refl _ _
    · show Frame _ _ _
      refine Frame.setCp (by decide) ?_
      exact Frame.refl _ _

theorem State.runQueueOp_frame (s : State) (fn : ℕ) (x : QueueOp) :
    Frame [.cp] s (State.runQueueOp s fn x).1 := by
  unfold State.runQueueOp
  split
  · refine Frame.then (State.loadPiece_frame _ _ _ _ _) (by decide) ?_
    exact Frame.refl _ _
  · refine Frame.then (State.activate_frame _ _ _ _) (by decide) ?_
    exact Frame.refl _ _
  · refine Frame.then (State.defineRanges_frame _ _ _ _) (by decide) ?_
    exact Frame.refl _ _
  · show Frame _ _ _
    exact Frame.refl _ _

theorem State.freezeOn_frame (s : State) (c : ℕ) (x : Ctx) (cmd : CmdId) :
    Frame [.regs, .reg, .arb, .kettle, .host, .cp, .units] s (State.freezeOn s c x cmd) := by
  unfold State.freezeOn
  extract_lets +onlyGivenNames -merge src lg
  try clear_value lg
  extract_lets +onlyGivenNames s1
  have h_s1 : Frame [.regs, .reg, .arb, .kettle, .host, .cp, .units] s s1 := by
    unfold s1
    apply Frame.ite
    · refine Frame.then (State.releaseHome_frame _ _) (by decide) ?_
      exact Frame.refl _ _
    · exact Frame.refl _ _
  try clear_value s1
  extract_lets +onlyGivenNames s2
  have h_s2 : Frame [.regs, .reg, .arb, .kettle, .host, .cp, .units] s s2 := by
    unfold s2
    refine Frame.then (State.setCtx_frame _ _ _) (by decide) ?_
    assumption
  try clear_value s2
  refine Frame.then (State.aer_frame _ _ _ _ _) (by decide) ?_
  refine Frame.then (State.recEv_frame _ _ _ _ _ _ _ _) (by decide) ?_
  assumption

theorem State.runHeld_frame (s : State) (c : ℕ) (x : Ctx) (i : Intake) (op : QueueOp) :
    Frame [.regs, .reg, .arb, .kettle, .host, .cp, .units] s (State.runHeld s c x i op) := by
  unfold State.runHeld
  extract_lets +onlyGivenNames r
  have h_r : Frame [.regs, .reg, .arb, .kettle, .host, .cp, .units] s r.1 := by
    unfold r
    refine Frame.then (State.runQueueOp_frame _ _ _) (by decide) ?_
    exact Frame.refl _ _
  try clear_value r
  extract_lets +onlyGivenNames s1
  have h_s1 : Frame [.regs, .reg, .arb, .kettle, .host, .cp, .units] s s1 := by
    unfold s1
    refine Frame.then (State.complete_frame _ _ _ _ _ _ _) (by decide) ?_
    assumption
  try clear_value s1
  extract_lets +onlyGivenNames x1; try clear_value x1
  apply Frame.ite
  · apply Frame.ite
    · refine Frame.then (State.setCtx_frame _ _ _) (by decide) ?_
      assumption
    · assumption
  · refine Frame.then (State.freezeOn_frame _ _ _ _) (by decide) ?_
    assumption

theorem State.sweepSlots_frame (s : State) :
    Frame [.cp] s (State.sweepSlots s) := by
  unfold State.sweepSlots
  extract_lets +onlyGivenNames  used
  refine Frame.foldl ?_ ?_ _
  · intro t k
    beta_reduce
    beta_reduce
    refine Frame.then (State.emptySlot_frame _ _) (by decide) ?_
    exact Frame.refl _ _
  · exact Frame.refl _ _

theorem State.signalEffect_frame (s : State) (c : ℕ) (g : Signal) :
    Frame [.regs, .freeCount, .reg, .arb, .kettle, .host, .cp, .units, .tiers, .ftl, .near, .hbm, .sb, .hostMem] s (State.signalEffect s c g) := by
  unfold State.signalEffect
  split
  · exact Frame.refl _ _
  · extract_lets +onlyGivenNames t1 r; try clear_value t1 r
    apply Frame.ite
    · refine Frame.then (State.faultCtx_frame _ _ _) (by decide) ?_
      exact Frame.refl _ _
    · apply Frame.ite
      · refine Frame.then (State.faultCtx_frame _ _ _) (by decide) ?_
        exact Frame.refl _ _
      · apply Frame.ite
        · refine Frame.then (State.faultCtx_frame _ _ _) (by decide) ?_
          exact Frame.refl _ _
        · extract_lets +onlyGivenNames t2; try clear_value t2
          refine Frame.then (State.count_frame _ _ _ _ _) (by decide) ?_
          refine Frame.then (State.setCtx_frame _ _ _) (by decide) ?_
          refine Frame.then (State.setSems_frame _ _) (by decide) ?_
          exact Frame.refl _ _

theorem State.yieldUnits_frame (s : State) (c : ℕ) :
    Frame [.units, .near] s (State.yieldUnits s c) := by
  unfold State.yieldUnits
  extract_lets +onlyGivenNames s1
  have h_s1 : Frame [.units, .near] s s1 := by
    unfold s1
    refine Frame.then (State.clearSlots_frame _ _) (by decide) ?_
    exact Frame.refl _ _
  try clear_value s1
  refine Frame.setUnits (by decide) ?_
  assumption

theorem State.retain_frame (s : State) (iu : ℕ) (dom : ℕ) (e : ℕ) (c : ℕ) :
    Frame [.ftl] s (State.retain s iu dom e c) := by
  unfold State.retain
  extract_lets +onlyGivenNames read; try clear_value read
  split
  · apply Frame.ite
    · extract_lets +onlyGivenNames v; try clear_value v
      refine Frame.setFtl (by decide) ?_
      exact Frame.refl _ _
    · refine Frame.setFtl (by decide) ?_
      exact Frame.refl _ _
  · extract_lets +onlyGivenNames m; try clear_value m
    apply Frame.ite
    · extract_lets +onlyGivenNames v; try clear_value v
      refine Frame.setFtl (by decide) ?_
      exact Frame.refl _ _
    · exact Frame.refl _ _

theorem State.publish_frame (s : State) (c : ℕ) (e : ℕ) (v : Version) :
    Frame [.ftl] s (State.publish s c e v) := by
  unfold State.publish
  extract_lets +onlyGivenNames s1
  have h_s1 : Frame [.ftl] s s1 := by
    unfold s1
    refine Frame.then (State.retain_frame _ _ _ _ _) (by decide) ?_
    exact Frame.refl _ _
  try clear_value s1
  extract_lets +onlyGivenNames -merge src s2
  have h_s2 : Frame [.ftl] s s2 := by
    unfold s2
    refine Frame.setFtl (by decide) ?_
    assumption
  try clear_value s2
  split
  · refine Frame.then (State.setMap_frame _ _ _ _) (by decide) ?_
    assumption
  · assumption

theorem State.dropRepairs_frame (s : State) (dom : ℕ) :
    Frame [.ftl] s (State.dropRepairs s dom) := by
  unfold State.dropRepairs
  extract_lets +onlyGivenNames gone; try clear_value gone
  refine Frame.setFtl (by decide) ?_
  exact Frame.refl _ _

theorem State.advance_frame (s : State) (c : ℕ) (coll : List Byte) (w : ℕ) :
    Frame [.regs, .freeCount, .reg, .ftl] s (State.advance s c coll w) := by
  unfold State.advance
  extract_lets +onlyGivenNames dom old e since k0; try clear_value dom old e since k0
  extract_lets +onlyGivenNames -merge src s0
  have h_s0 : Frame [.regs, .freeCount, .reg, .ftl] s s0 := by
    unfold s0
    refine Frame.setFtl (by decide) ?_
    exact Frame.refl _ _
  try clear_value s0
  extract_lets +onlyGivenNames s1
  have h_s1 : Frame [.regs, .freeCount, .reg, .ftl] s s1 := by
    unfold s1
    refine Frame.foldl ?_ ?_ _
    · intro t v
      beta_reduce
      beta_reduce
      refine Frame.then (State.publish_frame _ _ _ _) (by decide) ?_
      exact Frame.refl _ _
    · assumption
  try clear_value s1
  extract_lets +onlyGivenNames rep; try clear_value rep
  extract_lets +onlyGivenNames s2
  have h_s2 : Frame [.regs, .freeCount, .reg, .ftl] s s2 := by
    unfold s2
    apply Frame.ite
    · assumption
    · refine Frame.then (State.dropRepairs_frame _ _) (by decide) ?_
      assumption
  try clear_value s2
  extract_lets +onlyGivenNames hist kept named k; try clear_value hist kept named k
  extract_lets +onlyGivenNames -merge src s3
  have h_s3 : Frame [.regs, .freeCount, .reg, .ftl] s s3 := by
    unfold s3
    refine Frame.setFtl (by decide) ?_
    assumption
  try clear_value s3
  refine Frame.then (State.flush_frame _) (by decide) ?_
  assumption

theorem State.advances_frame (s : State) (c : ℕ) (x : Ctx) (t : Task) :
    Frame [.regs, .freeCount, .reg, .ftl] s (State.advances s c x t) := by
  unfold State.advances
  refine Frame.foldl ?_ ?_ _
  · intro u w
    beta_reduce
    beta_reduce
    split
    · refine Frame.then (State.advance_frame _ _ _ _) (by decide) ?_
      exact Frame.refl _ _
    · exact Frame.refl _ _
  · exact Frame.refl _ _

theorem State.afterTask_frame (s : State) (c : ℕ) (x : Ctx) (t : Task) :
    Frame [.regs, .cp, .units] s (State.afterTask s c x t) := by
  unfold State.afterTask
  extract_lets +onlyGivenNames held
  extract_lets +onlyGivenNames waiter; try clear_value waiter
  extract_lets +onlyGivenNames keep
  extract_lets +onlyGivenNames s1
  have h_s1 : Frame [.regs, .cp, .units] s s1 := by
    unfold s1
    apply Frame.ite
    · exact Frame.refl _ _
    · refine Frame.then (State.releaseHome_frame _ _) (by decide) ?_
      exact Frame.refl _ _
  try clear_value s1
  refine Frame.then (State.setCtx_frame _ _ _) (by decide) ?_
  assumption

theorem State.beginTask_frame (s : State) (c : ℕ) (x : Ctx) (i : Intake) (e : ExecCmd) (late : Bool) :
    Frame [.regs, .freeCount, .reg, .kettle, .host, .cp, .units, .tiers, .hbm, .sb, .hostMem] s (State.beginTask s c x i e late) := by
  unfold State.beginTask
  extract_lets +onlyGivenNames s1
  have h_s1 : Frame [.regs, .freeCount, .reg, .kettle, .host, .cp, .units, .tiers, .hbm, .sb, .hostMem] s s1 := by
    unfold s1
    refine Frame.then (State.pcie_frame _ _ _) (by decide) ?_
    refine Frame.then (State.noteSwitch_frame _ _ _ _) (by decide) ?_
    refine Frame.then (State.countLoad_frame _ _) (by decide) ?_
    refine Frame.then (State.takeHome_frame _ _ _) (by decide) ?_
    exact Frame.refl _ _
  try clear_value s1
  extract_lets +onlyGivenNames -merge src s2
  have h_s2 : Frame [.regs, .freeCount, .reg, .kettle, .host, .cp, .units, .tiers, .hbm, .sb, .hostMem] s s2 := by
    unfold s2
    refine Frame.setHost (by decide) ?_
    assumption
  try clear_value s2
  refine Frame.then (State.setCtx_frame _ _ _) (by decide) ?_
  assumption

theorem State.stageProgram_frame (s : State) (x : Ctx) (e : ExecCmd) :
    Frame [.cp, .sb] s (State.stageProgram s x e) := by
  unfold State.stageProgram
  extract_lets +onlyGivenNames img; try clear_value img
  refine Frame.foldl ?_ ?_ _
  · intro t h
    beta_reduce
    beta_reduce
    extract_lets +onlyGivenNames t1
    have h_t1 : Frame [.cp, .sb] t t1 := by
      unfold t1
      apply Frame.ite
      · exact Frame.refl _ _
      · refine Frame.then (State.sbWrite_frame _ _ _ _) (by decide) ?_
        exact Frame.refl _ _
    try clear_value t1
    refine Frame.then (State.sbWrite_frame _ _ _ _) (by decide) ?_
    assumption
  · exact Frame.refl _ _

theorem State.runTask_frame (s : State) (c : ℕ) (x : Ctx) (t : Task) :
    Frame [.cp, .sb] s (State.runTask s c x t) := by
  unfold State.runTask
  refine Frame.then (State.setSems_frame _ _) (by decide) ?_
  refine Frame.then (State.setCtx_frame _ _ _) (by decide) ?_
  refine Frame.then (State.stageProgram_frame _ _ _) (by decide) ?_
  exact Frame.refl _ _

theorem State.startTask_frame (s : State) (c : ℕ) (x : Ctx) (i : Intake) (e0 : ExecCmd) (late : Bool) :
    Frame [.regs, .freeCount, .reg, .arb, .kettle, .host, .cp, .units, .tiers, .ftl, .near, .hbm, .sb, .hostMem] s (State.startTask s c x i e0 late) := by
  unfold State.startTask
  extract_lets +onlyGivenNames e; try clear_value e
  extract_lets +onlyGivenNames s1
  have h_s1 : Frame [.regs, .freeCount, .reg, .arb, .kettle, .host, .cp, .units, .tiers, .ftl, .near, .hbm, .sb, .hostMem] s s1 := by
    unfold s1
    refine Frame.then (State.beginTask_frame _ _ _ _ _ _) (by decide) ?_
    exact Frame.refl _ _
  try clear_value s1
  apply Frame.ite
  · refine Frame.then (State.taskError_frame _ _ _) (by decide) ?_
    assumption
  · split
    · extract_lets +onlyGivenNames s2
      have h_s2 : Frame [.regs, .freeCount, .reg, .arb, .kettle, .host, .cp, .units, .tiers, .ftl, .near, .hbm, .sb, .hostMem] s s2 := by
        unfold s2
        apply Frame.ite
        · refine Frame.then (State.err_frame _ _ _ _ _ _ _) (by decide) ?_
          assumption
        · assumption
      try clear_value s2
      refine Frame.then (State.faultCtx_frame _ _ _) (by decide) ?_
      assumption
    · refine Frame.then (State.runTask_frame _ _ _ _) (by decide) ?_
      assumption

theorem State.stopCaught_frame (s : State) (c : ℕ) (x : Ctx) (t : Task) :
    Frame [.regs, .reg, .arb, .kettle, .host, .cp, .units, .ftl, .near, .hostMem] s (State.stopCaught s c x t) := by
  unfold State.stopCaught
  extract_lets +onlyGivenNames s1
  have h_s1 : Frame [.regs, .reg, .arb, .kettle, .host, .cp, .units, .ftl, .near, .hostMem] s s1 := by
    unfold s1
    refine Frame.then (State.releaseHome_frame _ _) (by decide) ?_
    refine Frame.then (State.postTask_frame _ _ _ _ _ _) (by decide) ?_
    refine Frame.then (State.dropWork_frame _ _) (by decide) ?_
    refine Frame.then (State.clearSlots_frame _ _) (by decide) ?_
    exact Frame.refl _ _
  try clear_value s1
  extract_lets +onlyGivenNames as; try clear_value as
  extract_lets +onlyGivenNames s2
  have h_s2 : Frame [.regs, .reg, .arb, .kettle, .host, .cp, .units, .ftl, .near, .hostMem] s s2 := by
    unfold s2
    refine Frame.foldl ?_ ?_ _
    · intro u a
      beta_reduce
      beta_reduce
      extract_lets +onlyGivenNames k; try clear_value k
      refine Frame.then (State.complete_frame _ _ _ _ _ _ _) (by decide) ?_
      refine Frame.then (State.fbump_frame _ _ _ _) (by decide) ?_
      refine Frame.then (State.setCtrl_frame _ _ _) (by decide) ?_
      exact Frame.refl _ _
    · assumption
  try clear_value s2
  extract_lets +onlyGivenNames x1; try clear_value x1
  refine Frame.then (State.prune_frame _) (by decide) ?_
  refine Frame.then (State.setCtx_frame _ _ _) (by decide) ?_
  assumption

end Sys2Proof.Machine
end

