-- ==== Sys2Proof/Laws/ContextsFrame.lean ====
section
/-!
SUPPORT. What each operation of Machine/Contexts.lean can change: the parts of the state its frame names, canonical form kept.
-/

namespace Sys2Proof.Machine

theorem State.onCmd_frame {ps : List Part} {s : State} {f : State → State} (hp : [.regs, .reg, .arb, .kettle, .host, .units] ⊆ ps)
    (hf : Frame ps s (f s)) : Runs ps s (State.onCmd s f) := by
  unfold State.onCmd
  apply Runs.ite
  · exact Runs.next (Frame.refl _ _)
  apply Runs.ite
  · exact Runs.next (Frame.then (State.configReject_frame _ _ _) (List.Subset.trans (by decide) hp) (Frame.refl _ _))
  · exact Runs.next hf

theorem State.preemptCtx_frame (s : State) (c : ℕ) (x : Ctx) (kind : ℕ) :
    Frame [.cp] s (State.preemptCtx s c x kind) := by
  unfold State.preemptCtx
  refine Frame.then (State.setCtx_frame _ _ _) (by decide) ?_
  exact Frame.refl _ _

theorem State.restoreTiles_frame (s : State) (k : Saved) :
    Frame [.units] s (State.restoreTiles s k) := by
  unfold State.restoreTiles
  extract_lets +onlyGivenNames  put
  extract_lets +onlyGivenNames s1
  have h_s1 : Frame [.units] s s1 := by
    unfold s1
    refine Frame.foldl ?_ ?_ _
    · intro t p
      beta_reduce
      beta_reduce
      try unfold put
      try beta_reduce
      split
      · refine Frame.then (State.setRegion_frame _ _ _ _) (by decide) ?_
        exact Frame.refl _ _
      · exact Frame.refl _ _
    · exact Frame.refl _ _
  try clear_value s1
  refine Frame.foldl ?_ ?_ _
  · intro t p
    beta_reduce
    beta_reduce
    try unfold put
    try beta_reduce
    split
    · refine Frame.then (State.setRegion_frame _ _ _ _) (by decide) ?_
      exact Frame.refl _ _
    · exact Frame.refl _ _
  · assumption

theorem State.restoreSb_frame (s : State) (r : Request) (t : Task) (k : Saved) :
    Frame [.cp, .sb] s (State.restoreSb s r t k) := by
  unfold State.restoreSb
  refine Frame.foldl ?_ ?_ _
  · intro u h
    beta_reduce
    beta_reduce
    refine Frame.foldl ?_ ?_ _
    · intro v g
      beta_reduce
      beta_reduce
      refine Frame.memCp (by decide) (by decide) (fun h => by try dsimp +zetaDelta only; repeat' (first | with_reducible assumption | with_reducible refine wf_fill _ _ _ _ ?_ | with_reducible refine wf_writeL _ _ _ ?_ | with_reducible refine wf_copyFrom _ _ _ _ ?_ | exact wf_empty | with_reducible refine wf_foldl _ (fun m x h => ?_) _ ?_ _)) ?_
      exact Frame.refl _ _
    · exact Frame.refl _ _
  · exact Frame.refl _ _

theorem State.saveFault_frame (s : State) (c : ℕ) (x : Ctx) :
    Frame [.regs, .freeCount, .reg, .arb, .kettle, .host, .cp, .units, .tiers, .ftl, .near, .hbm, .sb, .hostMem] s (State.saveFault s c x) := by
  unfold State.saveFault
  refine Frame.then (State.faultCtx_frame _ _ _) (by decide) ?_
  refine Frame.then (State.err_frame _ _ _ _ _ _ _) (by decide) ?_
  exact Frame.refl _ _

theorem takeAll_frame (held : List (ℕ × ℕ)) (ws : List (ℕ × ℕ × ℕ)) (s : State) :
    ∀ a u, takeAll held ws s = some (a, u) → Frame [.regs, .tiers, .hbm] s u := by
  induction ws generalizing s held with
  | nil =>
    intro a u hu
    simp only [takeAll, Option.some.injEq, Prod.mk.injEq] at hu
    exact hu.2 ▸ Frame.refl _ _
  | cons w ws ih =>
    intro a u hu
    unfold takeAll at hu
    split at hu
    · cases hu
    · have h1 := State.takePages_frame _ _ _ _ _ _ (by assumption)
      exact Frame.then (ih _ _ _ _ hu) (by decide) (Frame.then h1 (by decide) (Frame.refl _ _))

theorem State.showProgram_frame (s : State) (c : ℕ) (h : ℕ) (g : ℕ) :
    Frame [.regs] s (State.showProgram s c h g) := by
  unfold State.showProgram
  extract_lets +onlyGivenNames s1
  have h_s1 : Frame [.regs] s s1 := by
    unfold s1
    refine Frame.then (State.fset_frame _ _ _ _) (by decide) ?_
    exact Frame.refl _ _
  try clear_value s1
  apply Frame.ite
  · refine Frame.then (State.fsetBit_frame _ _ _ _) (by decide) ?_
    assumption
  · refine Frame.then (State.fsetBit_frame _ _ _ _) (by decide) ?_
    assumption

theorem State.addBatch_frame (s : State) (c : ℕ) (r : Request) (ps : List (ℕ × ℕ)) :
    Frame [.tiers, .hbm] s (State.addBatch s c r ps) := by
  unfold State.addBatch
  apply Frame.ite
  · exact Frame.refl _ _
  · extract_lets +onlyGivenNames  at0
    extract_lets +onlyGivenNames b; try clear_value b
    refine Frame.then (State.writeTable_frame _ _ _ _ _) (by decide) ?_
    refine Frame.setTiers (by decide) ?_
    exact Frame.refl _ _

theorem State.markWindows_frame (s : State) (ps : List (ℕ × ℕ)) :
    Frame [.tiers] s (State.markWindows s ps) := by
  unfold State.markWindows
  refine Frame.foldl ?_ ?_ _
  · intro t p
    beta_reduce
    beta_reduce
    refine Frame.then (State.setMark_frame _ _ _) (by decide) ?_
    exact Frame.refl _ _
  · exact Frame.refl _ _

theorem State.createContext_frame (s : State) (v : ℕ) :
    Frame [.regs, .reg, .kettle, .host, .cp, .units, .tiers, .hbm, .hostMem] s (State.createContext s v).2.2 := by
  unfold State.createContext
  extract_lets +onlyGivenNames b r; try clear_value b r
  refine Frame.iteSnd2 ?_ ?_
  · show Frame _ _ _
    exact Frame.refl _ _
  · refine Frame.iteSnd2 ?_ ?_
    · show Frame _ _ _
      exact Frame.refl _ _
    · split
      · show Frame _ _ _
        exact Frame.refl _ _
      · refine Frame.iteSnd2 ?_ ?_
        · show Frame _ _ _
          exact Frame.refl _ _
        · refine Frame.iteSnd2 ?_ ?_
          · show Frame _ _ _
            exact Frame.refl _ _
          · refine Frame.iteSnd2 ?_ ?_
            · show Frame _ _ _
              exact Frame.refl _ _
            · extract_lets +onlyGivenNames groups; try clear_value groups
              split
              · show Frame _ _ _
                exact Frame.refl _ _
              · refine Frame.iteSnd2 ?_ ?_
                · show Frame _ _ _
                  exact Frame.refl _ _
                · refine Frame.iteSnd2 ?_ ?_
                  · show Frame _ _ _
                    exact Frame.refl _ _
                  · extract_lets +onlyGivenNames dir; try clear_value dir
                    extract_lets +onlyGivenNames -merge src src1 s2
                    have h_s2 : Frame [.regs, .reg, .kettle, .host, .cp, .units, .tiers, .hbm, .hostMem] s s2 := by
                      unfold s2
                      refine Frame.upd rfl ?_ (by intro p hp; cases p <;> first | exact absurd (by decide) hp | rfl) (fun h => ⟨h.1, h.2.1, ((fun h => by try dsimp +zetaDelta only; repeat' (first | with_reducible assumption | with_reducible refine wf_fill _ _ _ _ ?_ | with_reducible refine wf_writeL _ _ _ ?_ | with_reducible refine wf_copyFrom _ _ _ _ ?_ | exact wf_empty | with_reducible refine wf_foldl _ (fun m x h => ?_) _ ?_ _)) h.2.2.1), ((fun h => by try dsimp +zetaDelta only; repeat' (first | with_reducible assumption | with_reducible refine wf_fill _ _ _ _ ?_ | with_reducible refine wf_writeL _ _ _ ?_ | with_reducible refine wf_copyFrom _ _ _ _ ?_ | exact wf_empty | with_reducible refine wf_foldl _ (fun m x h => ?_) _ ?_ _)) h.2.2.2.1), h.2.2.2.2⟩)
                      refine Frame.then (takeAll_frame _ _ _ _ _ (by assumption)) (by decide) ?_
                      exact Frame.refl _ _
                    try clear_value s2
                    extract_lets +onlyGivenNames s3
                    have h_s3 : Frame [.regs, .reg, .kettle, .host, .cp, .units, .tiers, .hbm, .hostMem] s s3 := by
                      unfold s3
                      refine Frame.foldl ?_ ?_ _
                      · intro t h
                        beta_reduce
                        beta_reduce
                        refine Frame.then (State.showProgram_frame _ _ _ _) (by decide) ?_
                        exact Frame.refl _ _
                      · assumption
                    try clear_value s3
                    show Frame _ _ _
                    refine Frame.then (State.pcie_frame _ _ _) (by decide) ?_
                    refine Frame.then (State.addBatch_frame _ _ _ _) (by decide) ?_
                    refine Frame.then (State.markWindows_frame _ _) (by decide) ?_
                    assumption

end Sys2Proof.Machine
end

