-- ==== Sys2Proof/Laws/TieringFrame.lean ====
section
/-!
SUPPORT. What each operation of Machine/Tiering.lean can change: the parts of the state its frame names, canonical form kept.
-/

namespace Sys2Proof.Machine

theorem State.markRow_frame (s : State) (t : ℕ) :
    Frame [.eflash, .tiers] s (State.markRow s t) := by
  unfold State.markRow
  apply Frame.ite
  · exact Frame.refl _ _
  · refine Frame.then (State.writeConfig_frame _ _ _) (by decide) ?_
    refine Frame.setTiers (by decide) ?_
    exact Frame.refl _ _

theorem State.rowCorrected_frame (s : State) (t : ℕ) :
    Frame [.eflash, .tiers] s (State.rowCorrected s t) := by
  unfold State.rowCorrected
  extract_lets +onlyGivenNames -merge src s1
  have h_s1 : Frame [.eflash, .tiers] s s1 := by
    unfold s1
    refine Frame.setTiers (by decide) ?_
    exact Frame.refl _ _
  try clear_value s1
  split
  · apply Frame.ite
    · refine Frame.then (State.markRow_frame _ _) (by decide) ?_
      assumption
    · assumption
  · assumption

theorem State.countHbm_frame (s : State) (k : ℕ) (a : ℕ) (parity : Bool) :
    Frame [.units, .rel] s (State.countHbm s k a parity) := by
  unfold State.countHbm
  extract_lets +onlyGivenNames p t key near rows; try clear_value p t key near rows
  extract_lets +onlyGivenNames -merge src s1
  have h_s1 : Frame [.units, .rel] s s1 := by
    unfold s1
    refine Frame.setRel (by decide) ?_
    exact Frame.refl _ _
  try clear_value s1
  extract_lets +onlyGivenNames e
  have h_e : Frame [.units, .rel] s e.2 := by
    unfold e
    refine Frame.iteSnd ?_ ?_
    · refine Frame.then (State.countEvent_frame _ _ _ _) (by decide) ?_
      assumption
    · show Frame _ _ _
      assumption
  try clear_value e
  apply Frame.ite
  · refine Frame.then (State.classify_frame _ _) (by decide) ?_
    assumption
  · assumption

theorem State.hbmLost_frame (s : State) (k : ℕ) (a : ℕ) (parity : Bool) (inj : Bool) :
    Frame [.eflash, .units, .tiers, .rel] s (State.hbmLost s k a parity inj) := by
  unfold State.hbmLost
  apply Frame.ite
  · exact Frame.refl _ _
  · refine Frame.then (State.markRow_frame _ _) (by decide) ?_
    refine Frame.then (State.countHbm_frame _ _ _ _) (by decide) ?_
    exact Frame.refl _ _

theorem State.beginCopy_frame (s : State) (tk : ℕ) (t : ℕ) :
    Frame [.tiers, .hbm] s (State.beginCopy s tk t) := by
  unfold State.beginCopy
  refine Frame.memTiers (by decide) (by decide) (fun h => by try dsimp +zetaDelta only; repeat' (first | with_reducible assumption | with_reducible refine wf_fill _ _ _ _ ?_ | with_reducible refine wf_writeL _ _ _ ?_ | with_reducible refine wf_copyFrom _ _ _ _ ?_ | exact wf_empty | with_reducible refine wf_foldl _ (fun m x h => ?_) _ ?_ _)) ?_
  exact Frame.refl _ _

theorem State.promote_frame (s : State) (p : ℕ × ℕ) :
    Frame [.regs, .tiers, .hbm] s (State.promote s p).2 := by
  unfold State.promote
  extract_lets +onlyGivenNames h k; try clear_value h k
  split
  · show Frame _ _ _
    refine Frame.then (State.beginCopy_frame _ _ _) (by decide) ?_
    exact Frame.refl _ _
  · split
    · show Frame _ _ _
      exact Frame.refl _ _
    · refine Frame.iteSnd ?_ ?_
      · show Frame _ _ _
        exact Frame.refl _ _
      · show Frame _ _ _
        refine Frame.then (State.beginCopy_frame _ _ _) (by decide) ?_
        refine Frame.then (State.dropCopy_frame _ _) (by decide) ?_
        exact Frame.refl _ _

theorem promoteAll_frame (ps : List (ℕ × ℕ)) (left : ℕ) (s : State) : Frame [.regs, .tiers, .hbm] s (promoteAll ps left s) := by
  induction ps generalizing s left with
  | nil => exact Frame.refl _ _
  | cons p ps ih =>
    unfold promoteAll
    apply Frame.ite
    · exact Frame.refl _ _
    · exact Frame.then (ih _ _) (by decide) (Frame.then (State.promote_frame _ _) (by decide) (Frame.refl _ _))

end Sys2Proof.Machine
end

