-- ==== Sys2Proof/Laws/PuuFrame.lean ====
section
/-!
SUPPORT. What each operation of Machine/Puu.lean can change: the parts of the state its frame names, canonical form kept.
-/

namespace Sys2Proof.Machine

theorem State.beginSelfTest_frame (s : State) (h : ℕ) :
    Frame [.regs] s (State.beginSelfTest s h) := by
  unfold State.beginSelfTest
  refine Frame.then (State.fset_frame _ _ _ _) (by decide) ?_
  refine Frame.then (State.fset_frame _ _ _ _) (by decide) ?_
  refine Frame.then (State.fset_frame _ _ _ _) (by decide) ?_
  exact Frame.refl _ _

theorem State.markFrozen_frame (s : State) (t : List Byte) :
    Frame [.tiers] s (State.markFrozen s t) := by
  unfold State.markFrozen
  extract_lets +onlyGivenNames f; try clear_value f
  refine Frame.setTiers (by decide) ?_
  exact Frame.refl _ _

theorem State.setPuu_frame (s : State) (h : ℕ) (q : List PuuStep) :
    Frame [.units] s (State.setPuu s h q) := by
  unfold State.setPuu
  refine Frame.setUnits (by decide) ?_
  exact Frame.refl _ _

theorem State.noteStep_frame (s : State) (c : ℕ) (t : List Byte) :
    Frame [.cp] s (State.noteStep s c t) := by
  unfold State.noteStep
  refine Frame.foldl ?_ ?_ _
  · intro u e
    beta_reduce
    beta_reduce
    refine Frame.foldl ?_ ?_ _
    · intro v r
      beta_reduce
      beta_reduce
      refine Frame.then (State.noteWrite_frame _ _ _ _ _) (by decide) ?_
      exact Frame.refl _ _
    · exact Frame.refl _ _
  · exact Frame.refl _ _

theorem State.showStep_frame (s : State) (h : ℕ) :
    Frame [.regs] s (State.showStep s h) := by
  unfold State.showStep
  split
  · exact Frame.refl _ _
  · refine Frame.then (State.fset_frame _ _ _ _) (by decide) ?_
    refine Frame.then (State.fset_frame _ _ _ _) (by decide) ?_
    refine Frame.then (State.fset_frame _ _ _ _) (by decide) ?_
    refine Frame.then (State.fset_frame _ _ _ _) (by decide) ?_
    refine Frame.then (State.fset_frame _ _ _ _) (by decide) ?_
    exact Frame.refl _ _

theorem State.updateTensors_frame (s : State) (h : ℕ) (k : PuuStep) (r : TaskRegs) (es : List (List Byte × ℕ)) :
    Frame [.regs, .reg, .kettle, .host, .cp, .units, .tiers, .ftl, .hbm, .sb, .hostMem] s (State.updateTensors s h k r es) := by
  unfold State.updateTensors
  refine Frame.foldl ?_ ?_ _
  · intro t e
    beta_reduce
    beta_reduce
    extract_lets +onlyGivenNames o; try clear_value o
    extract_lets +onlyGivenNames t1
    have h_t1 : Frame [.regs, .reg, .kettle, .host, .cp, .units, .tiers, .ftl, .hbm, .sb, .hostMem] t t1 := by
      unfold t1
      refine Frame.foldl ?_ ?_ _
      · intro u w
        beta_reduce
        beta_reduce
        refine Frame.then (State.dstWrite_frame _ _ _ _ _ _) (by decide) ?_
        exact Frame.refl _ _
      · exact Frame.refl _ _
    try clear_value t1
    refine Frame.then (State.fbump_frame _ _ _ _) (by decide) ?_
    assumption
  · exact Frame.refl _ _

theorem State.failStep_frame (s : State) (h : ℕ) (k : PuuStep) (t : Task) (kind : ℕ) (code : ℕ) (e : ℕ) (b : Bool) (r : ℕ) :
    Frame [.regs, .freeCount, .reg, .arb, .kettle, .host, .cp, .units, .tiers, .ftl, .near, .rel, .hbm, .sb, .hostMem] s (State.failStep s h k t kind code e b r) := by
  unfold State.failStep
  extract_lets +onlyGivenNames info done; try clear_value info done
  extract_lets +onlyGivenNames s1
  have h_s1 : Frame [.regs, .freeCount, .reg, .arb, .kettle, .host, .cp, .units, .tiers, .ftl, .near, .rel, .hbm, .sb, .hostMem] s s1 := by
    unfold s1
    apply Frame.ite
    · refine Frame.then (State.updateTensors_frame _ _ _ _ _) (by decide) ?_
      exact Frame.refl _ _
    · exact Frame.refl _ _
  try clear_value s1
  extract_lets +onlyGivenNames s2
  have h_s2 : Frame [.regs, .freeCount, .reg, .arb, .kettle, .host, .cp, .units, .tiers, .ftl, .near, .rel, .hbm, .sb, .hostMem] s s2 := by
    unfold s2
    refine Frame.then (State.fset_frame _ _ _ _) (by decide) ?_
    refine Frame.then (State.fset_frame _ _ _ _) (by decide) ?_
    refine Frame.then (State.fset_frame _ _ _ _) (by decide) ?_
    assumption
  try clear_value s2
  extract_lets +onlyGivenNames s3
  have h_s3 : Frame [.regs, .freeCount, .reg, .arb, .kettle, .host, .cp, .units, .tiers, .ftl, .near, .rel, .hbm, .sb, .hostMem] s s3 := by
    unfold s3
    apply Frame.ite
    · refine Frame.then (State.faultUnit_frame _ _ _ _ _ _ _) (by decide) ?_
      assumption
    · refine Frame.then (State.err_frame _ _ _ _ _ _ _) (by decide) ?_
      assumption
  try clear_value s3
  extract_lets +onlyGivenNames s4
  have h_s4 : Frame [.regs, .freeCount, .reg, .arb, .kettle, .host, .cp, .units, .tiers, .ftl, .near, .rel, .hbm, .sb, .hostMem] s s4 := by
    unfold s4
    refine Frame.then (State.faultCtx_frame _ _ _) (by decide) ?_
    assumption
  try clear_value s4
  extract_lets +onlyGivenNames ev
  have h_ev : Frame [.regs, .freeCount, .reg, .arb, .kettle, .host, .cp, .units, .tiers, .ftl, .near, .rel, .hbm, .sb, .hostMem] s ev.2 := by
    unfold ev
    refine Frame.then (State.countEvent_frame _ _ _ _) (by decide) ?_
    assumption
  try clear_value ev
  extract_lets +onlyGivenNames s5
  have h_s5 : Frame [.regs, .freeCount, .reg, .arb, .kettle, .host, .cp, .units, .tiers, .ftl, .near, .rel, .hbm, .sb, .hostMem] s s5 := by
    unfold s5
    apply Frame.ite
    · assumption
    · apply Frame.ite
      · refine Frame.then (State.condemnUnit_frame _ _ _ _) (by decide) ?_
        assumption
      · assumption
  try clear_value s5
  apply Frame.ite
  · refine Frame.then (State.beginSelfTest_frame _ _) (by decide) ?_
    assumption
  · assumption

theorem State.stepStopped_frame (s : State) (h : ℕ) (k : PuuStep) (t : Task) :
    ∀ u, @State.stepStopped s h k t = some u → Frame [.regs, .freeCount, .reg, .arb, .kettle, .host, .cp, .units, .tiers, .ftl, .near, .rel, .hbm, .sb, .hostMem] s u := by
  unfold State.stepStopped
  extract_lets +onlyGivenNames es media lost; try clear_value es media lost
  split
  · intro u hu; cases hu
    refine Frame.then (State.faultCtx_frame _ _ _) (by decide) ?_
    exact Frame.refl _ _
  · intro u hu; cases hu
    refine Frame.then (State.failStep_frame _ _ _ _ _ _ _ _ _) (by decide) ?_
    exact Frame.refl _ _
  · split
    · intro u hu; cases hu
      refine Frame.then (State.failStep_frame _ _ _ _ _ _ _ _ _) (by decide) ?_
      refine Frame.then (Frame.snd (State.draw_frame _) (by assumption)) (by decide) ?_
      exact Frame.refl _ _
  · intros; contradiction

theorem State.endStep_frame (s : State) (h : ℕ) :
    Frame [.regs, .units] s (State.endStep s h) := by
  unfold State.endStep
  refine Frame.then (State.showStep_frame _ _) (by decide) ?_
  refine Frame.then (State.setPuu_frame _ _ _) (by decide) ?_
  exact Frame.refl _ _

theorem State.runStep_frame (s : State) (h : ℕ) (k : PuuStep) (t : Task) :
    Frame [.regs, .reg, .arb, .kettle, .host, .cp, .units, .tiers, .ftl, .hbm, .sb, .hostMem] s (State.runStep s h k t) := by
  unfold State.runStep
  extract_lets +onlyGivenNames es up skip bytes reads; try clear_value es up skip bytes reads
  extract_lets +onlyGivenNames s0
  have h_s0 : Frame [.regs, .reg, .arb, .kettle, .host, .cp, .units, .tiers, .ftl, .hbm, .sb, .hostMem] s s0 := by
    unfold s0
    apply Frame.ite
    · exact Frame.refl _ _
    · refine Frame.then (State.err_frame _ _ _ _ _ _ _) (by decide) ?_
      exact Frame.refl _ _
  try clear_value s0
  extract_lets +onlyGivenNames s1
  have h_s1 : Frame [.regs, .reg, .arb, .kettle, .host, .cp, .units, .tiers, .ftl, .hbm, .sb, .hostMem] s s1 := by
    unfold s1
    refine Frame.then (State.work_frame _ _ _ _) (by decide) ?_
    refine Frame.then (State.countReads_frame _ _ _) (by decide) ?_
    assumption
  try clear_value s1
  extract_lets +onlyGivenNames s2
  have h_s2 : Frame [.regs, .reg, .arb, .kettle, .host, .cp, .units, .tiers, .ftl, .hbm, .sb, .hostMem] s s2 := by
    unfold s2
    refine Frame.then (State.updateTensors_frame _ _ _ _ _) (by decide) ?_
    assumption
  try clear_value s2
  extract_lets +onlyGivenNames s3
  have h_s3 : Frame [.regs, .reg, .arb, .kettle, .host, .cp, .units, .tiers, .ftl, .hbm, .sb, .hostMem] s s3 := by
    unfold s3
    refine Frame.then (State.count_frame _ _ _ _ _) (by decide) ?_
    refine Frame.then (State.fset64_frame _ _ _ _ _) (by decide) ?_
    assumption
  try clear_value s3
  extract_lets +onlyGivenNames s4
  have h_s4 : Frame [.regs, .reg, .arb, .kettle, .host, .cp, .units, .tiers, .ftl, .hbm, .sb, .hostMem] s s4 := by
    unfold s4
    refine Frame.then (State.count_frame _ _ _ _ _) (by decide) ?_
    refine Frame.then (State.fset64_frame _ _ _ _ _) (by decide) ?_
    assumption
  try clear_value s4
  extract_lets +onlyGivenNames s5
  have h_s5 : Frame [.regs, .reg, .arb, .kettle, .host, .cp, .units, .tiers, .ftl, .hbm, .sb, .hostMem] s s5 := by
    unfold s5
    apply Frame.ite
    · refine Frame.then (State.fset64_frame _ _ _ _ _) (by decide) ?_
      assumption
    · assumption
  try clear_value s5
  extract_lets +onlyGivenNames s6
  have h_s6 : Frame [.regs, .reg, .arb, .kettle, .host, .cp, .units, .tiers, .ftl, .hbm, .sb, .hostMem] s s6 := by
    unfold s6
    refine Frame.then (State.setResult_frame _ _ _ _) (by decide) ?_
    refine Frame.then (State.fset_frame _ _ _ _) (by decide) ?_
    refine Frame.then (State.countUnits_frame _ _ _ _ _ _) (by decide) ?_
    assumption
  try clear_value s6
  extract_lets +onlyGivenNames s7
  have h_s7 : Frame [.regs, .reg, .arb, .kettle, .host, .cp, .units, .tiers, .ftl, .hbm, .sb, .hostMem] s s7 := by
    unfold s7
    apply Frame.ite
    · refine Frame.then (State.taskFlag_frame _ _ _) (by decide) ?_
      assumption
    · assumption
  try clear_value s7
  apply Frame.ite
  · refine Frame.then (State.taskFlag_frame _ _ _) (by decide) ?_
    assumption
  · assumption

end Sys2Proof.Machine
end

