-- ==== Sys2Proof/Laws/ColanderFrame.lean ====
section
/-!
SUPPORT. What each operation of Machine/Colander.lean can change: the parts of the state its frame names, canonical form kept.
-/

namespace Sys2Proof.Machine

theorem State.countJob_frame (s : State) (c : ℕ) (ius : List ℕ) (recs : List ℕ) (hits : List ℕ) (k : List Byte) (filter : Bool) (queries : ℕ) :
    Frame [.regs, .reg, .kettle] s (State.countJob s c ius recs hits k filter queries) := by
  unfold State.countJob
  extract_lets +onlyGivenNames s1
  have h_s1 : Frame [.regs, .reg, .kettle] s s1 := by
    unfold s1
    refine Frame.then (State.work_frame _ _ _ _) (by decide) ?_
    refine Frame.then (State.countReads_frame _ _ _) (by decide) ?_
    exact Frame.refl _ _
  try clear_value s1
  extract_lets +onlyGivenNames s3
  have h_s3 : Frame [.regs, .reg, .kettle] s s3 := by
    unfold s3
    apply Frame.ite
    · refine Frame.foldl ?_ ?_ _
      · intro t r
        beta_reduce
        beta_reduce
        refine Frame.then (State.count_frame _ _ _ _ _) (by decide) ?_
        exact Frame.refl _ _
      · assumption
    · assumption
  try clear_value s3
  refine Frame.foldl ?_ ?_ _
  · intro t r
    beta_reduce
    beta_reduce
    refine Frame.then (State.count_frame _ _ _ _ _) (by decide) ?_
    exact Frame.refl _ _
  · assumption

theorem State.endOutput_frame (s : State) (c : ℕ) (h : ℕ) (e : Issued) (m : Move) (j : Job) (k : List Byte) :
    Frame [.regs, .freeCount, .reg, .arb, .kettle, .host, .cp, .units, .tiers, .ftl, .hbm, .sb, .hostMem] s (State.endOutput s c h e m j k) := by
  unfold State.endOutput
  extract_lets +onlyGivenNames r ch mode recs f bs hits; try clear_value r ch mode recs f bs hits
  extract_lets +onlyGivenNames s1
  have h_s1 : Frame [.regs, .freeCount, .reg, .arb, .kettle, .host, .cp, .units, .tiers, .ftl, .hbm, .sb, .hostMem] s s1 := by
    unfold s1
    refine Frame.then (State.countJob_frame _ _ _ _ _ _ _ _) (by decide) ?_
    refine Frame.then (State.colanderFlips_frame _ _ _) (by decide) ?_
    exact Frame.refl _ _
  try clear_value s1
  extract_lets +onlyGivenNames s2
  have h_s2 : Frame [.regs, .freeCount, .reg, .arb, .kettle, .host, .cp, .units, .tiers, .ftl, .hbm, .sb, .hostMem] s s2 := by
    unfold s2
    refine Frame.then (State.dstWrite_frame _ _ _ _ _ _) (by decide) ?_
    assumption
  try clear_value s2
  extract_lets +onlyGivenNames s3
  have h_s3 : Frame [.regs, .freeCount, .reg, .arb, .kettle, .host, .cp, .units, .tiers, .ftl, .hbm, .sb, .hostMem] s s3 := by
    unfold s3
    refine Frame.then (State.count_frame _ _ _ _ _) (by decide) ?_
    refine Frame.then (State.countUnits_frame _ _ _ _ _ _) (by decide) ?_
    assumption
  try clear_value s3
  extract_lets +onlyGivenNames s4
  have h_s4 : Frame [.regs, .freeCount, .reg, .arb, .kettle, .host, .cp, .units, .tiers, .ftl, .hbm, .sb, .hostMem] s s4 := by
    unfold s4
    apply Frame.ite
    · refine Frame.then (State.countUnits_frame _ _ _ _ _ _) (by decide) ?_
      assumption
    · assumption
  try clear_value s4
  apply Frame.ite
  · refine Frame.then (State.setResult_frame _ _ _ _) (by decide) ?_
    assumption
  · assumption

theorem State.onMode_frame {ps : List Part} {s : State} {c h k mode n top : ℕ} {f : Desc → State}
    (hp : [.regs, .freeCount, .reg, .arb, .kettle, .host, .cp, .units, .tiers, .ftl, .near, .hbm, .sb, .hostMem] ⊆ ps) (hf : ∀ d, Frame ps s (f d)) :
    Runs ps s (State.onMode s c h k mode n top f) := by
  unfold State.onMode
  refine State.onDesc_frame (List.Subset.trans (by decide) hp) fun d => ?_
  apply Frame.ite
  · exact hf d
  apply Frame.ite
  · exact Frame.then (State.descFault_frame _ _ _ _ _ _ _) (List.Subset.trans (by decide) hp) (Frame.refl _ _)
  · exact Frame.refl _ _

theorem State.noteSpan_frame (s : State) (d : Desc) (p : Span) :
    Frame [.cp] s (State.noteSpan s d p) := by
  unfold State.noteSpan
  extract_lets +onlyGivenNames n; try clear_value n
  apply Frame.ite
  · refine Frame.then (State.noteWrite_frame _ _ _ _ _) (by decide) ?_
    exact Frame.refl _ _
  · apply Frame.ite
    · refine Frame.then (State.noteWrite_frame _ _ _ _ _) (by decide) ?_
      exact Frame.refl _ _
    · apply Frame.ite
      · refine Frame.then (State.noteWrite_frame _ _ _ _ _) (by decide) ?_
        exact Frame.refl _ _
      · extract_lets +onlyGivenNames rs; try clear_value rs
        refine Frame.foldl ?_ ?_ _
        · intro u j
          beta_reduce
          beta_reduce
          split
          · refine Frame.then (State.noteWrite_frame _ _ _ _ _) (by decide) ?_
            exact Frame.refl _ _
          · exact Frame.refl _ _
        · exact Frame.refl _ _

theorem State.queueOut_frame (s : State) (d : Desc) (out : ℕ) (r : List Byte) (j : Job) (p : Span) (dst : ℕ) :
    Frame [.reg, .cp, .units] s (State.queueOut s d out r j p dst) := by
  unfold State.queueOut
  extract_lets +onlyGivenNames i q gs m; try clear_value i q gs m
  apply Frame.ite
  · refine Frame.then (State.waitPorts_frame _ _) (by decide) ?_
    exact Frame.refl _ _
  · apply Frame.ite
    · exact Frame.refl _ _
    · extract_lets +onlyGivenNames s1
      have h_s1 : Frame [.reg, .cp, .units] s s1 := by
        unfold s1
        refine Frame.then (State.noteColl_frame _ _ _) (by decide) ?_
        refine Frame.then (State.setChan_frame _ _ _) (by decide) ?_
        refine Frame.then (State.bind_frame _ _ _ _) (by decide) ?_
        exact Frame.refl _ _
      try clear_value s1
      refine Frame.then (State.noteSpan_frame _ _ _) (by decide) ?_
      refine Frame.then (State.issue_frame _ _ _ _) (by decide) ?_
      assumption

theorem State.filterIssue_frame (s : State) (c : ℕ) (h : ℕ) (mode : ℕ) :
    Runs [.regs, .freeCount, .reg, .arb, .kettle, .host, .cp, .units, .tiers, .ftl, .near, .hbm, .sb, .hostMem] s (State.filterIssue s c h mode) := by
  unfold State.filterIssue
  refine State.onMode_frame (by decide) ?_
  intro d
  beta_reduce
  beta_reduce
  apply Frame.ite
  · refine Frame.then (State.descFault_frame _ _ _ _ _ _ _) (by decide) ?_
    exact Frame.refl _ _
  · split
    · refine Frame.then (State.descFault_frame _ _ _ _ _ _ _) (by decide) ?_
      exact Frame.refl _ _
    · extract_lets +onlyGivenNames r n; try clear_value r n
      extract_lets +onlyGivenNames  len
      apply Frame.ite
      · refine Frame.then (State.descFault_frame _ _ _ _ _ _ _) (by decide) ?_
        exact Frame.refl _ _
      · split
        · refine Frame.then (State.descFault_frame _ _ _ _ _ _ _) (by decide) ?_
          exact Frame.refl _ _
        · split
          · exact Frame.refl _ _
          · extract_lets +onlyGivenNames j; try clear_value j
            refine Frame.then (State.queueOut_frame _ _ _ _ _ _ _) (by decide) ?_
            exact Frame.refl _ _

end Sys2Proof.Machine
end

