-- ==== Sys2Proof/Laws/EflashFrame.lean ====
section
/-!
SUPPORT. What each operation of Machine/Eflash.lean can change: the parts of the state its frame names, canonical form kept.
-/

namespace Sys2Proof.Machine

theorem State.romAnswer_frame (s : State) (status : ℕ) (pulses : ℕ) (flags : ℕ) (failWord : ℕ) (data : List ℕ) :
    Frame [.eflash] s (State.romAnswer s status pulses flags failWord data) := by
  unfold State.romAnswer
  refine Frame.setEflash (by decide) ?_
  exact Frame.refl _ _

theorem State.compactTable_frame (s : State) :
    Frame [.regs, .reg, .arb, .kettle, .eflash, .host, .units] s (State.compactTable s) := by
  unfold State.compactTable
  extract_lets +onlyGivenNames n; try clear_value n
  apply Frame.ite
  · exact Frame.refl _ _
  · apply Frame.ite
    · refine Frame.then (State.err_frame _ _ _ _ _ _ _) (by decide) ?_
      refine Frame.setEflash (by decide) ?_
      exact Frame.refl _ _
    · extract_lets +onlyGivenNames open1; try clear_value open1
      refine Frame.setEflash (by decide) ?_
      exact Frame.refl _ _

theorem State.beginErase_frame (s : State) (x : ℕ) :
    Frame [.regs, .reg, .arb, .kettle, .eflash, .host, .units] s (State.beginErase s x) := by
  unfold State.beginErase
  extract_lets +onlyGivenNames s1
  have h_s1 : Frame [.regs, .reg, .arb, .kettle, .eflash, .host, .units] s s1 := by
    unfold s1
    apply Frame.ite
    · refine Frame.then (State.compactTable_frame _) (by decide) ?_
      exact Frame.refl _ _
    · exact Frame.refl _ _
  try clear_value s1
  apply Frame.ite
  · assumption
  · refine Frame.setEflash (by decide) ?_
    assumption

theorem State.verified_frame (s : State) (x : ℕ) (ok : Bool) :
    Frame [.regs, .eflash] s (State.verified s x ok) := by
  unfold State.verified
  apply Frame.ite
  · refine Frame.setEflash (by decide) ?_
    exact Frame.refl _ _
  · extract_lets +onlyGivenNames n; try clear_value n
    extract_lets +onlyGivenNames -merge src s1
    have h_s1 : Frame [.regs, .eflash] s s1 := by
      unfold s1
      refine Frame.setEflash (by decide) ?_
      exact Frame.refl _ _
    try clear_value s1
    apply Frame.ite
    · assumption
    · extract_lets +onlyGivenNames -merge src s2
      have h_s2 : Frame [.regs, .eflash] s s2 := by
        unfold s2
        refine Frame.setEflash (by decide) ?_
        assumption
      try clear_value s2
      refine Frame.then (State.fset_frame _ _ _ _) (by decide) ?_
      assumption

theorem State.wipeSector_frame (s : State) (x : ℕ) :
    Frame [.eflash] s (State.wipeSector s x) := by
  unfold State.wipeSector
  refine Frame.setEflash (by decide) ?_
  exact Frame.refl _ _

theorem State.endErase_frame (s : State) (x : ℕ) :
    Frame [.eflash] s (State.endErase s x) := by
  unfold State.endErase
  extract_lets +onlyGivenNames s1
  have h_s1 : Frame [.eflash] s s1 := by
    unfold s1
    refine Frame.then (State.wipeSector_frame _ _) (by decide) ?_
    exact Frame.refl _ _
  try clear_value s1
  refine Frame.setEflash (by decide) ?_
  assumption

theorem State.setEword_frame (s : State) (a : ℕ) (v : ℕ) :
    Frame [.eflash] s (State.setEword s a v) := by
  unfold State.setEword
  extract_lets +onlyGivenNames v; try clear_value v
  refine Frame.setEflash (by decide) ?_
  exact Frame.refl _ _

theorem State.programWord_frame (s : State) (clear : Bool) (w : ℕ) (v : ℕ) :
    Frame [.eflash] s (State.programWord s clear w v) := by
  unfold State.programWord
  apply Frame.ite
  · refine Frame.then (State.setEword_frame _ _ _) (by decide) ?_
    refine Frame.then (State.setEword_frame _ _ _) (by decide) ?_
    refine Frame.then (State.setEword_frame _ _ _) (by decide) ?_
    exact Frame.refl _ _
  · refine Frame.then (State.setEword_frame _ _ _) (by decide) ?_
    exact Frame.refl _ _

theorem State.cutProgram_frame (s : State) (clear : Bool) (failAt : ℕ) (p : ℕ × ℕ) :
    Frame [.freeCount, .eflash] s (State.cutProgram s clear failAt p) := by
  unfold State.cutProgram
  extract_lets +onlyGivenNames d
  have h_d : Frame [.freeCount, .eflash] s d.2 := by
    unfold d
    refine Frame.then (State.draw_frame _) (by decide) ?_
    exact Frame.refl _ _
  try clear_value d
  apply Frame.ite
  · apply Frame.ite
    · refine Frame.then (State.programWord_frame _ _ _ _) (by decide) ?_
      apply Frame.ite
      · assumption
      · exact Frame.refl _ _
    · apply Frame.ite
      · assumption
      · exact Frame.refl _ _
  · apply Frame.ite
    · refine Frame.then (State.setEword_frame _ _ _) (by decide) ?_
      exact Frame.refl _ _
    · refine Frame.then (State.setEword_frame _ _ _) (by decide) ?_
      assumption

end Sys2Proof.Machine
end

