-- ==== Sys2Proof/Laws/ModesFrame.lean ====
section
/-!
SUPPORT. What each operation of Machine/Modes.lean can change: the parts of the state its frame names, canonical form kept.
-/

namespace Sys2Proof.Machine

theorem State.driveOp_frame (s : State) :
    Frame [.regs, .power] s (State.driveOp s) := by
  unfold State.driveOp
  extract_lets +onlyGivenNames c; try clear_value c
  extract_lets +onlyGivenNames s1
  have h_s1 : Frame [.regs, .power] s s1 := by
    unfold s1
    refine Frame.then (State.fset_frame _ _ _ _) (by decide) ?_
    exact Frame.refl _ _
  try clear_value s1
  extract_lets +onlyGivenNames go; try clear_value go
  apply Frame.ite
  · refine Frame.then (State.startRamp_frame _ _) (by decide) ?_
    assumption
  · assumption

theorem State.setPs_frame (s : State) (p : ℕ) :
    Frame [.regs, .reg, .kettle] s (State.setPs s p) := by
  unfold State.setPs
  extract_lets +onlyGivenNames old; try clear_value old
  apply Frame.ite
  · exact Frame.refl _ _
  · refine Frame.then (State.recEv_frame _ _ _ _ _ _ _ _) (by decide) ?_
    refine Frame.then (State.fset_frame _ _ _ _) (by decide) ?_
    exact Frame.refl _ _

theorem State.trackOp5_frame (s : State) :
    Frame [.power] s (State.trackOp5 s) := by
  unfold State.trackOp5
  refine Frame.setPower (by decide) ?_
  exact Frame.refl _ _

theorem State.switchDet_frame (s : State) (m : ℕ) :
    Frame [.regs, .reg, .arb, .kettle] s (State.switchDet s m) := by
  unfold State.switchDet
  extract_lets +onlyGivenNames s1
  have h_s1 : Frame [.regs, .reg, .arb, .kettle] s s1 := by
    unfold s1
    refine Frame.then (State.fset_frame _ _ _ _) (by decide) ?_
    refine Frame.then (State.fset_frame _ _ _ _) (by decide) ?_
    refine Frame.then (State.fset_frame _ _ _ _) (by decide) ?_
    exact Frame.refl _ _
  try clear_value s1
  refine Frame.then (State.recEv_frame _ _ _ _ _ _ _ _) (by decide) ?_
  refine Frame.setArb (by decide) ?_
  assumption

theorem State.settleRamp_frame (s : State) (p : ℕ) :
    Frame [.regs, .reg, .power, .kettle] s (State.settleRamp s p) := by
  unfold State.settleRamp
  extract_lets +onlyGivenNames old; try clear_value old
  extract_lets +onlyGivenNames s1
  have h_s1 : Frame [.regs, .reg, .power, .kettle] s s1 := by
    unfold s1
    refine Frame.then (State.stopRamp_frame _) (by decide) ?_
    refine Frame.then (State.fset_frame _ _ _ _) (by decide) ?_
    exact Frame.refl _ _
  try clear_value s1
  apply Frame.ite
  · assumption
  · refine Frame.then (State.recEv_frame _ _ _ _ _ _ _ _) (by decide) ?_
    assumption

end Sys2Proof.Machine
end

