-- ==== Sys2Proof/Laws/SkimmerFrame.lean ====
section
/-!
SUPPORT. What each operation of Machine/Skimmer.lean can change: the parts of the state its frame names, canonical form kept.
-/

namespace Sys2Proof.Machine

theorem State.endMerge_frame (s : State) (c : ℕ) (h : ℕ) (m : Move) (j : Job) (k : List Byte) (o : MOut) :
    Frame [.regs, .freeCount, .reg, .arb, .kettle, .host, .cp, .units, .tiers, .ftl, .hbm, .sb, .hostMem] s (State.endMerge s c h m j k o) := by
  unfold State.endMerge
  extract_lets +onlyGivenNames r ch ius; try clear_value r ch ius
  extract_lets +onlyGivenNames s0
  have h_s0 : Frame [.regs, .freeCount, .reg, .arb, .kettle, .host, .cp, .units, .tiers, .ftl, .hbm, .sb, .hostMem] s s0 := by
    unfold s0
    apply Frame.ite
    · exact Frame.refl _ _
    · refine Frame.then (State.err_frame _ _ _ _ _ _ _) (by decide) ?_
      exact Frame.refl _ _
  try clear_value s0
  extract_lets +onlyGivenNames s1
  have h_s1 : Frame [.regs, .freeCount, .reg, .arb, .kettle, .host, .cp, .units, .tiers, .ftl, .hbm, .sb, .hostMem] s s1 := by
    unfold s1
    refine Frame.then (State.work_frame _ _ _ _) (by decide) ?_
    refine Frame.then (State.countReads_frame _ _ _) (by decide) ?_
    assumption
  try clear_value s1
  extract_lets +onlyGivenNames s2
  have h_s2 : Frame [.regs, .freeCount, .reg, .arb, .kettle, .host, .cp, .units, .tiers, .ftl, .hbm, .sb, .hostMem] s s2 := by
    unfold s2
    refine Frame.foldl ?_ ?_ _
    · intro t v
      beta_reduce
      beta_reduce
      refine Frame.then (State.dstWrite_frame _ _ _ _ _ _) (by decide) ?_
      exact Frame.refl _ _
    · assumption
  try clear_value s2
  extract_lets +onlyGivenNames s3
  have h_s3 : Frame [.regs, .freeCount, .reg, .arb, .kettle, .host, .cp, .units, .tiers, .ftl, .hbm, .sb, .hostMem] s s3 := by
    unfold s3
    refine Frame.then (State.count_frame _ _ _ _ _) (by decide) ?_
    refine Frame.then (State.countUnits_frame _ _ _ _ _ _) (by decide) ?_
    assumption
  try clear_value s3
  extract_lets +onlyGivenNames s4
  have h_s4 : Frame [.regs, .freeCount, .reg, .arb, .kettle, .host, .cp, .units, .tiers, .ftl, .hbm, .sb, .hostMem] s s4 := by
    unfold s4
    refine Frame.then (State.count_frame _ _ _ _ _) (by decide) ?_
    refine Frame.then (State.count_frame _ _ _ _ _) (by decide) ?_
    refine Frame.then (State.count_frame _ _ _ _ _) (by decide) ?_
    assumption
  try clear_value s4
  extract_lets +onlyGivenNames s5
  have h_s5 : Frame [.regs, .freeCount, .reg, .arb, .kettle, .host, .cp, .units, .tiers, .ftl, .hbm, .sb, .hostMem] s s5 := by
    unfold s5
    refine Frame.then (State.fbump_frame _ _ _ _) (by decide) ?_
    assumption
  try clear_value s5
  extract_lets +onlyGivenNames s6
  have h_s6 : Frame [.regs, .freeCount, .reg, .arb, .kettle, .host, .cp, .units, .tiers, .ftl, .hbm, .sb, .hostMem] s s6 := by
    unfold s6
    apply Frame.ite
    · refine Frame.then (State.setResult_frame _ _ _ _) (by decide) ?_
      assumption
    · assumption
  try clear_value s6
  extract_lets +onlyGivenNames s7
  have h_s7 : Frame [.regs, .freeCount, .reg, .arb, .kettle, .host, .cp, .units, .tiers, .ftl, .hbm, .sb, .hostMem] s s7 := by
    unfold s7
    apply Frame.ite
    · refine Frame.then (State.taskFlag_frame _ _ _) (by decide) ?_
      assumption
    · assumption
  try clear_value s7
  apply Frame.ite
  · refine Frame.setFreeCount (by decide) ?_
    assumption
  · assumption

theorem State.mergeIssue_frame (s : State) (c : ℕ) (h : ℕ) (mode : ℕ) :
    Runs [.regs, .freeCount, .reg, .arb, .kettle, .host, .cp, .units, .tiers, .ftl, .near, .hbm, .sb, .hostMem] s (State.mergeIssue s c h mode) := by
  unfold State.mergeIssue
  refine State.onDesc_frame (by decide) ?_
  intro d
  beta_reduce
  beta_reduce
  apply Frame.ite
  · exact Frame.refl _ _
  · split
    · refine Frame.then (State.descFault_frame _ _ _ _ _ _ _) (by decide) ?_
      exact Frame.refl _ _
    · extract_lets +onlyGivenNames r; try clear_value r
      split
      · refine Frame.then (State.descFault_frame _ _ _ _ _ _ _) (by decide) ?_
        exact Frame.refl _ _
      · extract_lets +onlyGivenNames k ps i q j m rd wr; try clear_value k ps i q j m rd wr
        apply Frame.ite
        · refine Frame.then (State.waitPorts_frame _ _) (by decide) ?_
          exact Frame.refl _ _
        · apply Frame.ite
          · exact Frame.refl _ _
          · extract_lets +onlyGivenNames s1
            have h_s1 : Frame [.regs, .freeCount, .reg, .arb, .kettle, .host, .cp, .units, .tiers, .ftl, .near, .hbm, .sb, .hostMem] s s1 := by
              unfold s1
              refine Frame.then (State.noteColl_frame _ _ _) (by decide) ?_
              refine Frame.then (State.setChan_frame _ _ _) (by decide) ?_
              refine Frame.then (State.bind_frame _ _ _ _) (by decide) ?_
              refine Frame.then (State.bind_frame _ _ _ _) (by decide) ?_
              exact Frame.refl _ _
            try clear_value s1
            refine Frame.foldl ?_ ?_ _
            · intro t p
              beta_reduce
              beta_reduce
              refine Frame.then (State.noteSpan_frame _ _ _) (by decide) ?_
              exact Frame.refl _ _
            · refine Frame.then (State.issue_frame _ _ _ _) (by decide) ?_
              assumption

end Sys2Proof.Machine
end

