-- ==== Sys2Proof/Laws/WaitsFrame.lean ====
section
/-!
SUPPORT. What each operation of Machine/Waits.lean can change: the parts of the state its frame names, canonical form kept.
-/

namespace Sys2Proof.Machine

theorem State.countHs_frame (s : State) (c : ℕ) (n : ℕ) (i : ℕ) :
    Frame [.reg, .units] s (State.countHs s c n i) := by
  unfold State.countHs
  refine Frame.then (State.countUnits_frame _ _ _ _ _ _) (by decide) ?_
  exact Frame.refl _ _

theorem State.chargeLate_frame (s : State) (t : ℕ) :
    Frame [.freeCount, .reg, .units] s (State.chargeLate s t) := by
  unfold State.chargeLate
  split
  · refine Frame.then (State.countHs_frame _ _ _ _) (by decide) ?_
    refine Frame.then (Frame.snd (State.lateCause_frame _ _) (by assumption)) (by decide) ?_
    exact Frame.refl _ _

theorem State.countHsOf_frame (s : State) (c : ℕ) (n : ℕ) (is : List ℕ) :
    Frame [.reg, .units] s (State.countHsOf s c n is) := by
  unfold State.countHsOf
  refine Frame.foldl ?_ ?_ _
  · intro t i
    beta_reduce
    beta_reduce
    refine Frame.then (State.countHs_frame _ _ _ _) (by decide) ?_
    exact Frame.refl _ _
  · exact Frame.refl _ _

theorem State.countSomeHs_frame (s : State) (c : ℕ) (n : ℕ) (is : List ℕ) :
    Frame [.freeCount, .reg] s (State.countSomeHs s c n is) := by
  unfold State.countSomeHs
  refine Frame.foldl ?_ ?_ _
  · intro t i
    beta_reduce
    beta_reduce
    split
    · refine Frame.then (State.count_frame _ _ _ _ _) (by decide) ?_
      refine Frame.then (Frame.snd (State.draw_frame _) (by assumption)) (by decide) ?_
      exact Frame.refl _ _
  · exact Frame.refl _ _

theorem State.countWaits_frame (s : State) :
    Frame [.freeCount, .reg, .units] s (State.countWaits s) := by
  unfold State.countWaits
  extract_lets +onlyGivenNames s1
  have h_s1 : Frame [.freeCount, .reg, .units] s s1 := by
    unfold s1
    refine Frame.then (State.countHsOf_frame _ _ _ _) (by decide) ?_
    refine Frame.then (State.countHsOf_frame _ _ _ _) (by decide) ?_
    exact Frame.refl _ _
  try clear_value s1
  extract_lets +onlyGivenNames s2
  have h_s2 : Frame [.freeCount, .reg, .units] s s2 := by
    unfold s2
    refine Frame.then (State.countHsOf_frame _ _ _ _) (by decide) ?_
    refine Frame.then (State.countHsOf_frame _ _ _ _) (by decide) ?_
    refine Frame.then (State.countHsOf_frame _ _ _ _) (by decide) ?_
    assumption
  try clear_value s2
  extract_lets +onlyGivenNames s3
  have h_s3 : Frame [.freeCount, .reg, .units] s s3 := by
    unfold s3
    refine Frame.then (State.countHsOf_frame _ _ _ _) (by decide) ?_
    refine Frame.then (State.countHsOf_frame _ _ _ _) (by decide) ?_
    assumption
  try clear_value s3
  extract_lets +onlyGivenNames s4
  have h_s4 : Frame [.freeCount, .reg, .units] s s4 := by
    unfold s4
    refine Frame.then (State.countHsOf_frame _ _ _ _) (by decide) ?_
    refine Frame.then (State.countHsOf_frame _ _ _ _) (by decide) ?_
    assumption
  try clear_value s4
  extract_lets +onlyGivenNames s5
  have h_s5 : Frame [.freeCount, .reg, .units] s s5 := by
    unfold s5
    refine Frame.then (State.countSomeHs_frame _ _ _ _) (by decide) ?_
    refine Frame.then (State.countSomeHs_frame _ _ _ _) (by decide) ?_
    assumption
  try clear_value s5
  extract_lets +onlyGivenNames s6
  have h_s6 : Frame [.freeCount, .reg, .units] s s6 := by
    unfold s6
    refine Frame.foldl ?_ ?_ _
    · intro t t
      beta_reduce
      refine Frame.then (State.chargeLate_frame _ _) (by decide) ?_
      exact Frame.refl _ _
    · assumption
  try clear_value s6
  apply Frame.ite
  · refine Frame.then (State.count_frame _ _ _ _ _) (by decide) ?_
    assumption
  · assumption

end Sys2Proof.Machine
end

