-- ==== Sys2Proof/Laws/PagesFrame.lean ====
section
/-!
SUPPORT. What each operation of Machine/Pages.lean can change: the parts of the state its frame names, canonical form kept.
-/

namespace Sys2Proof.Machine

theorem State.cross_frame (s : State) (c : ℕ) (i : ℕ) :
    Frame [.reg, .arb] s (State.cross s c i) := by
  unfold State.cross
  apply Frame.ite
  · exact Frame.refl _ _
  · apply Frame.ite
    · refine Frame.then (State.serve_frame _ _ _ _ _) (by decide) ?_
      exact Frame.refl _ _
    · apply Frame.ite
      · refine Frame.then (State.serve_frame _ _ _ _ _) (by decide) ?_
        exact Frame.refl _ _
      · exact Frame.refl _ _

theorem State.accessed_frame (s : State) (n : ℕ) (c : ℕ) (i : ℕ) :
    Frame [.reg, .arb, .kettle, .units] s (State.accessed s n c i) := by
  unfold State.accessed
  refine Frame.then (State.cross_frame _ _ _) (by decide) ?_
  refine Frame.then (State.pcie_frame _ _ _) (by decide) ?_
  refine Frame.setReg (by decide) ?_
  exact Frame.refl _ _

theorem State.access_frame {ps : List Part} {s : State} {n c i : ℕ} {f : State → State} (hp : [.reg, .arb, .kettle, .units] ⊆ ps)
    (hf : ∀ t, Frame ps t (f t)) : Runs ps s (State.access s n c i f) := by
  unfold State.access
  apply Runs.ite
  · exact Runs.next (Frame.then (hf _) (List.Subset.refl _) (Frame.then (State.accessed_frame s n c i) hp (Frame.refl _ _)))
  apply Runs.ite
  · refine Runs.next ?_
    refine Frame.setReg (hp (by decide)) ?_
    exact Frame.refl _ _
  · exact Runs.next (Frame.refl _ _)

theorem State.answer_frame (s : State) (l : List ℕ) :
    Frame [.reg] s (State.answer s l) := by
  unfold State.answer
  refine Frame.setReg (by decide) ?_
  exact Frame.refl _ _

theorem State.endTest_frame (s : State) :
    Frame [.regs, .freeCount, .reg, .arb, .kettle, .host, .cp, .units, .tiers, .ftl, .near, .hbm, .sb, .hostMem] s (State.endTest s) := by
  unfold State.endTest
  apply Frame.ite
  · refine Frame.then (State.fset_frame _ _ _ _) (by decide) ?_
    exact Frame.refl _ _
  · extract_lets +onlyGivenNames s1
    have h_s1 : Frame [.regs, .freeCount, .reg, .arb, .kettle, .host, .cp, .units, .tiers, .ftl, .near, .hbm, .sb, .hostMem] s s1 := by
      unfold s1
      refine Frame.foldl ?_ ?_ _
      · intro t x
        beta_reduce
        beta_reduce
        refine Frame.then (State.fset_frame _ _ _ _) (by decide) ?_
        exact Frame.refl _ _
      · exact Frame.refl _ _
    try clear_value s1
    extract_lets +onlyGivenNames -merge src s2
    have h_s2 : Frame [.regs, .freeCount, .reg, .arb, .kettle, .host, .cp, .units, .tiers, .ftl, .near, .hbm, .sb, .hostMem] s s2 := by
      unfold s2
      refine Frame.setReg (by decide) ?_
      assumption
    try clear_value s2
    extract_lets +onlyGivenNames s3
    have h_s3 : Frame [.regs, .freeCount, .reg, .arb, .kettle, .host, .cp, .units, .tiers, .ftl, .near, .hbm, .sb, .hostMem] s s3 := by
      unfold s3
      refine Frame.foldl ?_ ?_ _
      · intro t c
        beta_reduce
        beta_reduce
        refine Frame.then (State.tearDown_frame _ _) (by decide) ?_
        exact Frame.refl _ _
      · assumption
    try clear_value s3
    refine Frame.then (State.recEv_frame _ _ _ _ _ _ _ _) (by decide) ?_
    refine Frame.then (State.fset_frame _ _ _ _) (by decide) ?_
    refine Frame.then (State.fset_frame _ _ _ _) (by decide) ?_
    assumption

theorem State.clearUnit_frame (s : State) (c : ℕ) (i : ℕ) :
    Frame [.units, .ftl, .near] s (State.clearUnit s c i) := by
  unfold State.clearUnit
  apply Frame.ite
  · refine Frame.setUnits (by decide) ?_
    exact Frame.refl _ _
  · apply Frame.ite
    · refine Frame.setUnits (by decide) ?_
      exact Frame.refl _ _
    · apply Frame.ite
      · refine Frame.setUnits (by decide) ?_
        exact Frame.refl _ _
      · apply Frame.ite
        · refine Frame.setUnits (by decide) ?_
          exact Frame.refl _ _
        · apply Frame.ite
          · refine Frame.setUnits (by decide) ?_
            exact Frame.refl _ _
          · apply Frame.ite
            · refine Frame.upd rfl ?_ (by intro p hp; cases p <;> first | exact absurd (by decide) hp | rfl) (fun h => h)
              exact Frame.refl _ _
            · exact Frame.refl _ _

theorem State.resetUnit_frame (s : State) (c : ℕ) (i : ℕ) :
    Frame [.regs, .reg, .kettle, .units, .ftl, .near] s (State.resetUnit s c i) := by
  unfold State.resetUnit
  extract_lets +onlyGivenNames s1
  have h_s1 : Frame [.regs, .reg, .kettle, .units, .ftl, .near] s s1 := by
    unfold s1
    refine Frame.then (State.clearPage_frame _ _ _) (by decide) ?_
    refine Frame.then (State.clearUnit_frame _ _ _) (by decide) ?_
    refine Frame.then (State.toState_frame _ _ _ _) (by decide) ?_
    exact Frame.refl _ _
  try clear_value s1
  apply Frame.ite
  · refine Frame.then (State.clearPage_frame _ _ _) (by decide) ?_
    assumption
  · assumption

theorem State.unreached_frame (s : State) (i : ℕ) (b : ℕ) :
    Frame [.regs, .reg, .arb, .kettle, .host, .units] s (State.unreached s i b) := by
  unfold State.unreached
  refine Frame.then (State.err_frame _ _ _ _ _ _ _) (by decide) ?_
  refine Frame.then (State.fsetBit_frame _ _ _ _) (by decide) ?_
  exact Frame.refl _ _

theorem State.resetErrors_frame (s : State) (c : ℕ) (i : ℕ) :
    Frame [.regs] s (State.resetErrors s c i) := by
  unfold State.resetErrors
  extract_lets +onlyGivenNames s1
  have h_s1 : Frame [.regs] s s1 := by
    unfold s1
    refine Frame.then (State.fset_frame _ _ _ _) (by decide) ?_
    refine Frame.then (State.fset_frame _ _ _ _) (by decide) ?_
    refine Frame.then (State.fset_frame _ _ _ _) (by decide) ?_
    exact Frame.refl _ _
  try clear_value s1
  extract_lets +onlyGivenNames s2
  have h_s2 : Frame [.regs] s s2 := by
    unfold s2
    refine Frame.then (State.fset_frame _ _ _ _) (by decide) ?_
    refine Frame.then (State.fset_frame _ _ _ _) (by decide) ?_
    refine Frame.then (State.fset_frame _ _ _ _) (by decide) ?_
    assumption
  try clear_value s2
  extract_lets +onlyGivenNames s3
  have h_s3 : Frame [.regs] s s3 := by
    unfold s3
    refine Frame.then (State.fset64_frame _ _ _ _ _) (by decide) ?_
    refine Frame.then (State.fset_frame _ _ _ _) (by decide) ?_
    assumption
  try clear_value s3
  extract_lets +onlyGivenNames s4
  have h_s4 : Frame [.regs] s s4 := by
    unfold s4
    refine Frame.then (State.fset64_frame _ _ _ _ _) (by decide) ?_
    refine Frame.then (State.fset64_frame _ _ _ _ _) (by decide) ?_
    assumption
  try clear_value s4
  extract_lets +onlyGivenNames s5
  have h_s5 : Frame [.regs] s s5 := by
    unfold s5
    refine Frame.then (State.fset64_frame _ _ _ _ _) (by decide) ?_
    refine Frame.then (State.fset64_frame _ _ _ _ _) (by decide) ?_
    assumption
  try clear_value s5
  refine Frame.then (State.fset64_frame _ _ _ _ _) (by decide) ?_
  assumption

theorem State.commitPair_frame (s : State) (c : ℕ) (i : ℕ) (off : ℕ) (v : ℕ) :
    Frame [.regs] s (State.commitPair s c i off v) := by
  unfold State.commitPair
  extract_lets +onlyGivenNames  put
  apply Frame.ite
  · exact Frame.refl _ _
  · apply Frame.ite
    · try unfold put
      try beta_reduce
      extract_lets +onlyGivenNames l; try clear_value l
      refine Frame.then (State.fset_frame _ _ _ _) (by decide) ?_
      refine Frame.then (State.fset_frame _ _ _ _) (by decide) ?_
      exact Frame.refl _ _
    · apply Frame.ite
      · try unfold put
        try beta_reduce
        extract_lets +onlyGivenNames l; try clear_value l
        refine Frame.then (State.fset_frame _ _ _ _) (by decide) ?_
        refine Frame.then (State.fset_frame _ _ _ _) (by decide) ?_
        exact Frame.refl _ _
      · apply Frame.ite
        · try unfold put
          try beta_reduce
          extract_lets +onlyGivenNames l; try clear_value l
          refine Frame.then (State.fset_frame _ _ _ _) (by decide) ?_
          refine Frame.then (State.fset_frame _ _ _ _) (by decide) ?_
          exact Frame.refl _ _
        · exact Frame.refl _ _

theorem State.setLink_frame (s : State) (k : ℕ) (l : Link) :
    Frame [.rel] s (State.setLink s k l) := by
  unfold State.setLink
  refine Frame.setRel (by decide) ?_
  exact Frame.refl _ _

theorem State.latchDtc_frame (s : State) :
    Frame [.regs, .reg] s (State.latchDtc s) := by
  unfold State.latchDtc
  extract_lets +onlyGivenNames ns sec; try clear_value ns sec
  extract_lets +onlyGivenNames s1
  have h_s1 : Frame [.regs, .reg] s s1 := by
    unfold s1
    refine Frame.then (State.fset_frame _ _ _ _) (by decide) ?_
    refine Frame.then (State.fset_frame _ _ _ _) (by decide) ?_
    exact Frame.refl _ _
  try clear_value s1
  extract_lets +onlyGivenNames s2
  have h_s2 : Frame [.regs, .reg] s s2 := by
    unfold s2
    refine Frame.then (State.fset_frame _ _ _ _) (by decide) ?_
    refine Frame.then (State.fset_frame _ _ _ _) (by decide) ?_
    assumption
  try clear_value s2
  refine Frame.setReg (by decide) ?_
  assumption

theorem State.readOnce_frame (s : State) (c : ℕ) (i : ℕ) (off : ℕ) :
    Frame [.regs, .reg, .arb, .host] s (State.readOnce s c i off) := by
  unfold State.readOnce
  apply Frame.ite
  · refine Frame.then (State.answer_frame _ _) (by decide) ?_
    exact Frame.refl _ _
  · extract_lets +onlyGivenNames s0
    have h_s0 : Frame [.regs, .reg, .arb, .host] s s0 := by
      unfold s0
      apply Frame.ite
      · refine Frame.then (State.latchDtc_frame _) (by decide) ?_
        refine Frame.then (State.serve_frame _ _ _ _ _) (by decide) ?_
        exact Frame.refl _ _
      · exact Frame.refl _ _
    try clear_value s0
    extract_lets +onlyGivenNames s1
    have h_s1 : Frame [.regs, .reg, .arb, .host] s s1 := by
      unfold s1
      refine Frame.then (State.answer_frame _ _) (by decide) ?_
      assumption
    try clear_value s1
    extract_lets +onlyGivenNames -merge src s2
    have h_s2 : Frame [.regs, .reg, .arb, .host] s s2 := by
      unfold s2
      apply Frame.ite
      · refine Frame.setReg (by decide) ?_
        assumption
      · assumption
    try clear_value s2
    extract_lets +onlyGivenNames s3
    have h_s3 : Frame [.regs, .reg, .arb, .host] s s3 := by
      unfold s3
      apply Frame.ite
      · refine Frame.then (State.rearm_frame _ _ _ _ _) (by decide) ?_
        assumption
      · assumption
    try clear_value s3
    refine Frame.foldl ?_ ?_ _
    · intro t f
      beta_reduce
      beta_reduce
      refine Frame.then (State.fset_frame _ _ _ _) (by decide) ?_
      exact Frame.refl _ _
    · assumption

theorem State.readTwice_frame (s : State) (c : ℕ) (i : ℕ) (off : ℕ) :
    Frame [.regs, .reg, .arb, .host] s (State.readTwice s c i off) := by
  unfold State.readTwice
  extract_lets +onlyGivenNames s1
  have h_s1 : Frame [.regs, .reg, .arb, .host] s s1 := by
    unfold s1
    refine Frame.then (State.readOnce_frame _ _ _ _) (by decide) ?_
    exact Frame.refl _ _
  try clear_value s1
  extract_lets +onlyGivenNames s2
  have h_s2 : Frame [.regs, .reg, .arb, .host] s s2 := by
    unfold s2
    refine Frame.then (State.readOnce_frame _ _ _ _) (by decide) ?_
    assumption
  try clear_value s2
  refine Frame.then (State.answer_frame _ _) (by decide) ?_
  assumption

theorem State.fieldValue_frame (s : State) (f : Field) (v : ℕ) : Frame [.freeCount] s (State.fieldValue s f v).2 := by
  have hd : Frame [.freeCount] s s.draw.2 := State.draw_frame s
  have hb : ∀ lo hi, Frame [.freeCount] s
      (if lo ≤ v ∧ v ≤ hi then (some v, s) else (some (lo + s.draw.1 % (hi + 1 - lo)), s.draw.2)).2 := by
    intro lo hi
    split
    · exact Frame.refl _ _
    · exact hd
  unfold State.fieldValue
  extract_lets +onlyGivenNames bound
  repeat' split
  all_goals first | exact Frame.refl _ _ | exact hd | exact hb _ _

theorem State.writeField_frame (s : State) (i : ℕ) (w : ℕ) (f : Field) :
    Frame [.regs, .freeCount, .reg, .arb, .kettle, .host, .units] s (State.writeField s i w f) := by
  unfold State.writeField
  apply Frame.ite
  · exact Frame.refl _ _
  · split
    · refine Frame.then (State.fset_frame _ _ _ _) (by decide) ?_
      refine Frame.then (Frame.snd (State.fieldValue_frame _ _ _) (by assumption)) (by decide) ?_
      exact Frame.refl _ _
    · refine Frame.then (State.configReject_frame _ _ _) (by decide) ?_
      refine Frame.then (Frame.snd (State.fieldValue_frame _ _ _) (by assumption)) (by decide) ?_
      exact Frame.refl _ _

theorem State.writePref_frame (s : State) (i : ℕ) (w : ℕ) :
    Frame [.regs] s (State.writePref s i w) := by
  unfold State.writePref
  apply Frame.ite
  · refine Frame.then (State.fset_frame _ _ _ _) (by decide) ?_
    refine Frame.then (State.fset_frame _ _ _ _) (by decide) ?_
    exact Frame.refl _ _
  · exact Frame.refl _ _

theorem State.writeWord_frame (s : State) (c : ℕ) (i : ℕ) (off : ℕ) (w : ℕ) :
    Frame [.regs, .freeCount, .reg, .arb, .kettle, .host, .units] s (State.writeWord s c i off w) := by
  unfold State.writeWord
  apply Frame.ite
  · exact Frame.refl _ _
  · apply Frame.ite
    · refine Frame.setReg (by decide) ?_
      exact Frame.refl _ _
    · extract_lets +onlyGivenNames plain; try clear_value plain
      extract_lets +onlyGivenNames t
      have h_t : Frame [.regs, .freeCount, .reg, .arb, .kettle, .host, .units] s t := by
        unfold t
        refine Frame.foldl ?_ ?_ _
        · intro t f
          beta_reduce
          beta_reduce
          refine Frame.then (State.writeField_frame _ _ _ _) (by decide) ?_
          exact Frame.refl _ _
        · exact Frame.refl _ _
      try clear_value t
      extract_lets +onlyGivenNames u
      have h_u : Frame [.regs, .freeCount, .reg, .arb, .kettle, .host, .units] s u := by
        unfold u
        apply Frame.ite
        · refine Frame.then (State.writePref_frame _ _ _) (by decide) ?_
          assumption
        · assumption
      try clear_value u
      apply Frame.ite
      · refine Frame.then (State.aer_frame _ _ _ _ _) (by decide) ?_
        assumption
      · assumption

theorem State.capturePage_frame (s : State) (t : ℕ) (c : ℕ) (i : ℕ) :
    Frame [.regs, .reg, .kettle] s (State.capturePage s t c i) := by
  unfold State.capturePage
  extract_lets +onlyGivenNames s1
  have h_s1 : Frame [.regs, .reg, .kettle] s s1 := by
    unfold s1
    refine Frame.then (State.fset64_frame _ _ _ _ _) (by decide) ?_
    refine Frame.then (State.fset64_frame _ _ _ _ _) (by decide) ?_
    exact Frame.refl _ _
  try clear_value s1
  extract_lets +onlyGivenNames s2
  have h_s2 : Frame [.regs, .reg, .kettle] s s2 := by
    unfold s2
    refine Frame.then (State.fset64_frame _ _ _ _ _) (by decide) ?_
    refine Frame.then (State.fset64_frame _ _ _ _ _) (by decide) ?_
    assumption
  try clear_value s2
  extract_lets +onlyGivenNames s3
  have h_s3 : Frame [.regs, .reg, .kettle] s s3 := by
    unfold s3
    refine Frame.then (State.fset_frame _ _ _ _) (by decide) ?_
    refine Frame.then (State.fset64_frame _ _ _ _ _) (by decide) ?_
    assumption
  try clear_value s3
  extract_lets +onlyGivenNames q; try clear_value q
  extract_lets +onlyGivenNames s4
  have h_s4 : Frame [.regs, .reg, .kettle] s s4 := by
    unfold s4
    refine Frame.then (State.fset_frame _ _ _ _) (by decide) ?_
    assumption
  try clear_value s4
  extract_lets +onlyGivenNames -merge src s5
  have h_s5 : Frame [.regs, .reg, .kettle] s s5 := by
    unfold s5
    apply Frame.ite
    · assumption
    · refine Frame.setReg (by decide) ?_
      assumption
  try clear_value s5
  apply Frame.ite
  · refine Frame.then (State.recEv_frame _ _ _ _ _ _ _ _) (by decide) ?_
    assumption
  · assumption

theorem State.captureDue_frame (s : State) :
    Frame [.regs, .reg, .kettle] s (State.captureDue s) := by
  unfold State.captureDue
  split
  · apply Frame.ite
    · exact Frame.refl _ _
    · extract_lets +onlyGivenNames -merge src s1
      have h_s1 : Frame [.regs, .reg, .kettle] s s1 := by
        unfold s1
        refine Frame.setReg (by decide) ?_
        exact Frame.refl _ _
      try clear_value s1
      refine Frame.foldl ?_ ?_ _
      · intro u p
        beta_reduce
        beta_reduce
        refine Frame.then (State.capturePage_frame _ _ _ _) (by decide) ?_
        exact Frame.refl _ _
      · assumption
  · extract_lets +onlyGivenNames due; try clear_value due
    extract_lets +onlyGivenNames -merge src s1
    have h_s1 : Frame [.regs, .reg, .kettle] s s1 := by
      unfold s1
      refine Frame.setReg (by decide) ?_
      exact Frame.refl _ _
    try clear_value s1
    refine Frame.foldl ?_ ?_ _
    · intro u p
      beta_reduce
      beta_reduce
      refine Frame.then (State.capturePage_frame _ _ _ _) (by decide) ?_
      exact Frame.refl _ _
    · assumption

theorem State.rejectMode_frame (s : State) (cause : ℕ) :
    Frame [.regs, .reg, .arb, .kettle, .host, .units] s (State.rejectMode s cause) := by
  unfold State.rejectMode
  refine Frame.then (State.configReject_frame _ _ _) (by decide) ?_
  refine Frame.then (State.fbump_frame _ _ _ _) (by decide) ?_
  refine Frame.then (State.fset_frame _ _ _ _) (by decide) ?_
  exact Frame.refl _ _

theorem State.startUnit_frame (s : State) (c : ℕ) (i : ℕ) :
    Frame [.regs, .reg, .cp, .units, .tiers, .ftl, .near, .hbm, .sb] s (State.startUnit s c i) := by
  unfold State.startUnit
  extract_lets +onlyGivenNames s0
  have h_s0 : Frame [.regs, .reg, .cp, .units, .tiers, .ftl, .near, .hbm, .sb] s s0 := by
    unfold s0
    apply Frame.ite
    · exact Frame.refl _ _
    · refine Frame.then (State.clearUnit_frame _ _ _) (by decide) ?_
      exact Frame.refl _ _
  try clear_value s0
  apply Frame.ite
  · refine Frame.then (State.fset_frame _ _ _ _) (by decide) ?_
    assumption
  · apply Frame.ite
    · refine Frame.then (State.fset_frame _ _ _ _) (by decide) ?_
      assumption
    · apply Frame.ite
      · extract_lets +onlyGivenNames good; try clear_value good
        refine Frame.memCp (by decide) (by decide) (fun h => by try dsimp +zetaDelta only; repeat' (first | with_reducible assumption | with_reducible refine wf_fill _ _ _ _ ?_ | with_reducible refine wf_writeL _ _ _ ?_ | with_reducible refine wf_copyFrom _ _ _ _ ?_ | exact wf_empty | with_reducible refine wf_foldl _ (fun m x h => ?_) _ ?_ _)) ?_
        assumption
      · apply Frame.ite
        · refine Frame.memTiers (by decide) (by decide) (fun h => by try dsimp +zetaDelta only; repeat' (first | with_reducible assumption | with_reducible refine wf_fill _ _ _ _ ?_ | with_reducible refine wf_writeL _ _ _ ?_ | with_reducible refine wf_copyFrom _ _ _ _ ?_ | exact wf_empty | with_reducible refine wf_foldl _ (fun m x h => ?_) _ ?_ _)) ?_
          assumption
        · apply Frame.ite
          · extract_lets +onlyGivenNames src
            have h_src : Frame [.regs, .reg, .cp, .units, .tiers, .ftl, .near, .hbm, .sb] s src := by
              unfold src
              refine Frame.then (State.fclrBit_frame _ _ _ _) (by decide) ?_
              assumption
            try clear_value src
            refine Frame.setReg (by decide) ?_
            assumption
          · assumption

end Sys2Proof.Machine
end

