-- ==== Sys2Proof/Laws/TimeFrame.lean ====
section
/-!
SUPPORT. What each operation of Machine/Time.lean can change: the parts of the state its frame names, canonical form kept.
-/

namespace Sys2Proof.Machine

theorem State.tx_frame (s : State) (p : ℕ) (kind : ℕ) (t : ℤ) :
    Frame [.reg, .time] s (State.tx s p kind t) := by
  unfold State.tx
  extract_lets +onlyGivenNames s1
  have h_s1 : Frame [.reg, .time] s s1 := by
    unfold s1
    refine Frame.then (State.count_frame _ _ _ _ _) (by decide) ?_
    exact Frame.refl _ _
  try clear_value s1
  refine Frame.setTime (by decide) ?_
  assumption

theorem State.ethBytes_frame (s : State) (p : ℕ) (n : ℕ) :
    Frame [.reg, .kettle, .units] s (State.ethBytes s p n) := by
  unfold State.ethBytes
  refine Frame.then (State.countUnits_frame _ _ _ _ _ _) (by decide) ?_
  refine Frame.then (State.work_frame _ _ _ _) (by decide) ?_
  exact Frame.refl _ _

theorem State.discard_frame (s : State) (p : ℕ) :
    Frame [.regs] s (State.discard s p) := by
  unfold State.discard
  refine Frame.then (State.fbump_frame _ _ _ _) (by decide) ?_
  exact Frame.refl _ _

theorem State.setPtp_frame (s : State) (p : ℕ) (x : PtpPort) :
    Frame [.time] s (State.setPtp s p x) := by
  unfold State.setPtp
  refine Frame.setTime (by decide) ?_
  exact Frame.refl _ _

theorem State.ptpLost_frame (s : State) (p : ℕ) (change : Bool) :
    Frame [.regs, .reg, .arb, .kettle, .host, .units] s (State.ptpLost s p change) := by
  unfold State.ptpLost
  apply Frame.ite
  · refine Frame.then (State.recEv_frame _ _ _ _ _ _ _ _) (by decide) ?_
    exact Frame.refl _ _
  · refine Frame.then (State.err_frame _ _ _ _ _ _ _) (by decide) ?_
    exact Frame.refl _ _

theorem State.refreshRoles_frame (s : State) :
    Frame [.regs] s (State.refreshRoles s) := by
  unfold State.refreshRoles
  refine Frame.foldl ?_ ?_ _
  · intro t p
    beta_reduce
    beta_reduce
    apply Frame.ite
    · exact Frame.refl _ _
    · refine Frame.then (State.fset_frame _ _ _ _) (by decide) ?_
      exact Frame.refl _ _
  · exact Frame.refl _ _

theorem State.activatePort_frame (s : State) (p : ℕ) :
    Frame [.regs] s (State.activatePort s p) := by
  unfold State.activatePort
  refine Frame.then (State.refreshRoles_frame _) (by decide) ?_
  refine Frame.then (State.fset_frame _ _ _ _) (by decide) ?_
  exact Frame.refl _ _

theorem State.freezeFreq_frame (s : State) :
    Frame [.regs, .freeCount] s (State.freezeFreq s) := by
  unfold State.freezeFreq
  extract_lets +onlyGivenNames span; try clear_value span
  split
  · apply Frame.ite
    · exact Frame.refl _ _
    · extract_lets +onlyGivenNames a; try clear_value a
      apply Frame.ite
      · refine Frame.then (State.fset_frame _ _ _ _) (by decide) ?_
        exact Frame.refl _ _
      · refine Frame.then (State.fset_frame _ _ _ _) (by decide) ?_
        refine Frame.then (State.draw_frame _) (by decide) ?_
        exact Frame.refl _ _
  · exact Frame.refl _ _

theorem State.toSource_frame (s : State) (src : ℕ) (locked : Bool) :
    Frame [.regs, .reg, .kettle] s (State.toSource s src locked) := by
  unfold State.toSource
  refine Frame.then (State.recEv_frame _ _ _ _ _ _ _ _) (by decide) ?_
  refine Frame.then (State.fset_frame _ _ _ _) (by decide) ?_
  refine Frame.then (State.fset_frame _ _ _ _) (by decide) ?_
  exact Frame.refl _ _

theorem State.enterHoldover_frame (s : State) :
    Frame [.regs, .freeCount, .reg, .kettle, .time] s (State.enterHoldover s) := by
  unfold State.enterHoldover
  apply Frame.ite
  · exact Frame.refl _ _
  · extract_lets +onlyGivenNames s1
    have h_s1 : Frame [.regs, .freeCount, .reg, .kettle, .time] s s1 := by
      unfold s1
      refine Frame.then (State.fset_frame _ _ _ _) (by decide) ?_
      refine Frame.then (State.fset64_frame _ _ _ _ _) (by decide) ?_
      refine Frame.then (State.freezeFreq_frame _) (by decide) ?_
      exact Frame.refl _ _
    try clear_value s1
    refine Frame.then (State.toSource_frame _ _ _) (by decide) ?_
    refine Frame.setTime (by decide) ?_
    assumption

theorem State.loseSource_frame (s : State) :
    Frame [.regs, .freeCount, .reg, .arb, .kettle, .host, .units, .time] s (State.loseSource s) := by
  unfold State.loseSource
  apply Frame.ite
  · exact Frame.refl _ _
  · refine Frame.then (State.err_frame _ _ _ _ _ _ _) (by decide) ?_
    refine Frame.then (State.fbump_frame _ _ _ _) (by decide) ?_
    refine Frame.then (State.enterHoldover_frame _) (by decide) ?_
    exact Frame.refl _ _

theorem State.losePort_frame (s : State) (p : ℕ) :
    Frame [.regs, .freeCount, .reg, .arb, .kettle, .host, .units, .time] s (State.losePort s p) := by
  unfold State.losePort
  extract_lets +onlyGivenNames x; try clear_value x
  extract_lets +onlyGivenNames s1
  have h_s1 : Frame [.regs, .freeCount, .reg, .arb, .kettle, .host, .units, .time] s s1 := by
    unfold s1
    refine Frame.then (State.setPtp_frame _ _ _) (by decide) ?_
    exact Frame.refl _ _
  try clear_value s1
  extract_lets +onlyGivenNames s2
  have h_s2 : Frame [.regs, .freeCount, .reg, .arb, .kettle, .host, .units, .time] s s2 := by
    unfold s2
    refine Frame.then (State.fset64_frame _ _ _ _ _) (by decide) ?_
    refine Frame.then (State.fset_frame _ _ _ _) (by decide) ?_
    assumption
  try clear_value s2
  extract_lets +onlyGivenNames q; try clear_value q
  apply Frame.ite
  · apply Frame.ite
    · refine Frame.then (State.ptpLost_frame _ _ _) (by decide) ?_
      assumption
    · assumption
  · apply Frame.ite
    · refine Frame.then (State.activatePort_frame _ _) (by decide) ?_
      refine Frame.then (State.ptpLost_frame _ _ _) (by decide) ?_
      refine Frame.then (State.fbump_frame _ _ _ _) (by decide) ?_
      assumption
    · refine Frame.then (State.loseSource_frame _) (by decide) ?_
      refine Frame.then (State.ptpLost_frame _ _ _) (by decide) ?_
      assumption

theorem State.losePtm_frame (s : State) :
    Frame [.regs, .freeCount, .reg, .arb, .kettle, .host, .units, .time] s (State.losePtm s) := by
  unfold State.losePtm
  extract_lets +onlyGivenNames -merge src s1
  have h_s1 : Frame [.regs, .freeCount, .reg, .arb, .kettle, .host, .units, .time] s s1 := by
    unfold s1
    refine Frame.setTime (by decide) ?_
    exact Frame.refl _ _
  try clear_value s1
  apply Frame.ite
  · refine Frame.then (State.loseSource_frame _) (by decide) ?_
    assumption
  · assumption

theorem State.dropPort_frame (s : State) (p : ℕ) :
    Frame [.regs, .freeCount, .reg, .arb, .kettle, .host, .units, .time] s (State.dropPort s p) := by
  unfold State.dropPort
  extract_lets +onlyGivenNames s1
  have h_s1 : Frame [.regs, .freeCount, .reg, .arb, .kettle, .host, .units, .time] s s1 := by
    unfold s1
    refine Frame.then (State.err_frame _ _ _ _ _ _ _) (by decide) ?_
    refine Frame.then (State.fset_frame _ _ _ _) (by decide) ?_
    refine Frame.then (State.fset_frame _ _ _ _) (by decide) ?_
    exact Frame.refl _ _
  try clear_value s1
  extract_lets +onlyGivenNames -merge src s2
  have h_s2 : Frame [.regs, .freeCount, .reg, .arb, .kettle, .host, .units, .time] s s2 := by
    unfold s2
    refine Frame.setTime (by decide) ?_
    assumption
  try clear_value s2
  refine Frame.then (State.refreshRoles_frame _) (by decide) ?_
  refine Frame.then (State.losePort_frame _ _) (by decide) ?_
  assumption

theorem State.roundNs_frame (s : State) (x : ℤ) :
    Frame [.freeCount] s (State.roundNs s x).2 := by
  unfold State.roundNs
  show Frame _ _ _
  apply Frame.ite
  · exact Frame.refl _ _
  · refine Frame.then (State.draw_frame _) (by decide) ?_
    exact Frame.refl _ _

theorem State.powerPorts_frame (s : State) :
    Frame [.regs, .freeCount, .reg, .arb, .kettle, .host, .units, .time] s (State.powerPorts s) := by
  unfold State.powerPorts
  extract_lets +onlyGivenNames p; try clear_value p
  apply Frame.ite
  · exact Frame.refl _ _
  · extract_lets +onlyGivenNames s1
    have h_s1 : Frame [.regs, .freeCount, .reg, .arb, .kettle, .host, .units, .time] s s1 := by
      unfold s1
      refine Frame.then (State.fset_frame _ _ _ _) (by decide) ?_
      refine Frame.then (State.fset_frame _ _ _ _) (by decide) ?_
      exact Frame.refl _ _
    try clear_value s1
    refine Frame.then (State.refreshRoles_frame _) (by decide) ?_
    refine Frame.then (State.losePort_frame _ _) (by decide) ?_
    refine Frame.setTime (by decide) ?_
    assumption

theorem State.slew_frame (s : State) :
    Frame [.regs, .freeCount, .time] s (State.slew s) := by
  unfold State.slew
  extract_lets +onlyGivenNames v; try clear_value v
  extract_lets +onlyGivenNames s1
  have h_s1 : Frame [.regs, .freeCount, .time] s s1 := by
    unfold s1
    refine Frame.then (State.fset_frame _ _ _ _) (by decide) ?_
    refine Frame.then (State.draw_frame _) (by decide) ?_
    exact Frame.refl _ _
  try clear_value s1
  refine Frame.setTime (by decide) ?_
  assumption

theorem State.lockSource_frame (s : State) (src : ℕ) (m : Measured) :
    Frame [.regs, .reg, .kettle, .time] s (State.lockSource s src m) := by
  unfold State.lockSource
  extract_lets +onlyGivenNames -merge src s1
  have h_s1 : Frame [.regs, .reg, .kettle, .time] s s1 := by
    unfold s1
    refine Frame.setTime (by decide) ?_
    exact Frame.refl _ _
  try clear_value s1
  extract_lets +onlyGivenNames s2
  have h_s2 : Frame [.regs, .reg, .kettle, .time] s s2 := by
    unfold s2
    refine Frame.then (State.fset64_frame _ _ _ _ _) (by decide) ?_
    refine Frame.then (State.fset_frame _ _ _ _) (by decide) ?_
    assumption
  try clear_value s2
  apply Frame.ite
  · assumption
  · refine Frame.then (State.toSource_frame _ _ _) (by decide) ?_
    assumption

theorem State.steer_frame (s : State) (src : ℕ) (off : ℤ) (m : Measured) (lim : ℕ) :
    Frame [.regs, .freeCount, .reg, .kettle, .time] s (State.steer s src off m lim) := by
  unfold State.steer
  extract_lets +onlyGivenNames r
  have h_r : Frame [.regs, .freeCount, .reg, .kettle, .time] s r.2 := by
    unfold r
    refine Frame.then (State.roundNs_frame _ _) (by decide) ?_
    exact Frame.refl _ _
  try clear_value r
  extract_lets +onlyGivenNames s0
  have h_s0 : Frame [.regs, .freeCount, .reg, .kettle, .time] s s0 := by
    unfold s0
    refine Frame.then (State.fset_frame _ _ _ _) (by decide) ?_
    assumption
  try clear_value s0
  extract_lets +onlyGivenNames far; try clear_value far
  apply Frame.ite
  · assumption
  · apply Frame.ite
    · extract_lets +onlyGivenNames -merge src t
      try clear_value t
      refine Frame.then (State.fset_frame _ _ _ _) (by decide) ?_
      refine Frame.setTime (by decide) ?_
      assumption
    · apply Frame.ite
      · assumption
      · extract_lets +onlyGivenNames s1
        have h_s1 : Frame [.regs, .freeCount, .reg, .kettle, .time] s s1 := by
          unfold s1
          refine Frame.then (State.slew_frame _) (by decide) ?_
          assumption
        try clear_value s1
        extract_lets +onlyGivenNames s2
        have h_s2 : Frame [.regs, .freeCount, .reg, .kettle, .time] s s2 := by
          unfold s2
          apply Frame.ite
          · refine Frame.then (State.fset64_frame _ _ _ _ _) (by decide) ?_
            assumption
          · refine Frame.then (State.fset_frame _ _ _ _) (by decide) ?_
            assumption
        try clear_value s2
        apply Frame.ite
        · refine Frame.then (State.lockSource_frame _ _ _) (by decide) ?_
          assumption
        · assumption

theorem State.select_frame (s : State) (p : ℕ) (fs : List Foreign) :
    Frame [.regs, .time] s (State.select s p fs) := by
  unfold State.select
  extract_lets +onlyGivenNames b; try clear_value b
  extract_lets +onlyGivenNames -merge src s1
  have h_s1 : Frame [.regs, .time] s s1 := by
    unfold s1
    refine Frame.then (State.setPtp_frame _ _ _) (by decide) ?_
    exact Frame.refl _ _
  try clear_value s1
  split
  · refine Frame.then (State.fset64_frame _ _ _ _ _) (by decide) ?_
    assumption
  · assumption

theorem State.takeDelay_frame (s : State) (p : ℕ) (logDelay : ℤ) (v : ℤ) :
    Frame [.regs, .freeCount, .time] s (State.takeDelay s p logDelay v) := by
  unfold State.takeDelay
  extract_lets +onlyGivenNames r
  have h_r : Frame [.regs, .freeCount, .time] s r.2 := by
    unfold r
    refine Frame.then (State.roundNs_frame _ _) (by decide) ?_
    exact Frame.refl _ _
  try clear_value r
  refine Frame.then (State.fset_frame _ _ _ _) (by decide) ?_
  refine Frame.then (State.setPtp_frame _ _ _) (by decide) ?_
  assumption

theorem State.takeSync_frame (s : State) (p : ℕ) (logSync : ℤ) (t1 : ℕ) (cyc : ℕ) :
    Frame [.regs, .freeCount, .reg, .arb, .kettle, .host, .units, .time] s (State.takeSync s p logSync t1 cyc) := by
  unfold State.takeSync
  extract_lets +onlyGivenNames off m since; try clear_value off m since
  extract_lets +onlyGivenNames -merge src x
  try clear_value x
  extract_lets +onlyGivenNames r
  have h_r : Frame [.regs, .freeCount, .reg, .arb, .kettle, .host, .units, .time] s r.2 := by
    unfold r
    refine Frame.then (State.roundNs_frame _ _) (by decide) ?_
    refine Frame.then (State.count_frame _ _ _ _ _) (by decide) ?_
    refine Frame.then (State.rx_frame _ _) (by decide) ?_
    refine Frame.then (State.serve_frame _ _ _ _ _) (by decide) ?_
    exact Frame.refl _ _
  try clear_value r
  refine Frame.then (State.fset_frame _ _ _ _) (by decide) ?_
  refine Frame.then (State.fset_frame _ _ _ _) (by decide) ?_
  refine Frame.then (State.setPtp_frame _ _ _) (by decide) ?_
  assumption

theorem State.applyStep_frame (s : State) :
    Frame [.regs, .reg, .arb, .kettle, .host, .units, .time] s (State.applyStep s) := by
  unfold State.applyStep
  split
  · exact Frame.refl _ _
  · extract_lets +onlyGivenNames dtc sec ports; try clear_value dtc sec ports
    extract_lets +onlyGivenNames -merge src t
    try clear_value t
    extract_lets +onlyGivenNames s1
    have h_s1 : Frame [.regs, .reg, .arb, .kettle, .host, .units, .time] s s1 := by
      unfold s1
      refine Frame.then (State.fset_frame _ _ _ _) (by decide) ?_
      refine Frame.setTime (by decide) ?_
      exact Frame.refl _ _
    try clear_value s1
    extract_lets +onlyGivenNames s2
    have h_s2 : Frame [.regs, .reg, .arb, .kettle, .host, .units, .time] s s2 := by
      unfold s2
      refine Frame.then (State.err_frame _ _ _ _ _ _ _) (by decide) ?_
      refine Frame.then (State.count_frame _ _ _ _ _) (by decide) ?_
      refine Frame.then (State.fbump_frame _ _ _ _) (by decide) ?_
      assumption
    try clear_value s2
    extract_lets +onlyGivenNames s3
    have h_s3 : Frame [.regs, .reg, .arb, .kettle, .host, .units, .time] s s3 := by
      unfold s3
      refine Frame.then (State.recEv_frame _ _ _ _ _ _ _ _) (by decide) ?_
      assumption
    try clear_value s3
    apply Frame.ite
    · refine Frame.then (State.fset_frame _ _ _ _) (by decide) ?_
      refine Frame.then (State.fset_frame _ _ _ _) (by decide) ?_
      assumption
    · assumption

end Sys2Proof.Machine
end

