-- ==== Sys2Proof/Laws/QueuesFrame.lean ====
section
/-!
SUPPORT. What each operation of Machine/Queues.lean can change: the parts of the state its frame names, canonical form kept.
-/

namespace Sys2Proof.Machine

theorem State.abortMissed_frame (s : State) (cmd : CmdId) :
    Frame [.regs, .reg, .arb, .kettle, .host, .units] s (State.abortMissed s cmd) := by
  unfold State.abortMissed
  refine Frame.then (State.complete_frame _ _ _ _ _ _ _) (by decide) ?_
  refine Frame.then (State.fbump_frame _ _ _ _) (by decide) ?_
  exact Frame.refl _ _

theorem State.afterCatch_frame (s : State) (c : ℕ) (target : CmdId) :
    Frame [.cp] s (State.afterCatch s c target) := by
  unfold State.afterCatch
  split
  · exact Frame.refl _ _
  · extract_lets +onlyGivenNames -merge src x1
    try clear_value x1
    refine Frame.then (State.setCtx_frame _ _ _) (by decide) ?_
    exact Frame.refl _ _

theorem State.requestPs_frame (s : State) (ps : ℕ) :
    Frame [.regs, .reg, .power, .kettle, .host] s (State.requestPs s ps) := by
  unfold State.requestPs
  apply Frame.ite
  · extract_lets +onlyGivenNames -merge src s1
    have h_s1 : Frame [.regs, .reg, .power, .kettle, .host] s s1 := by
      unfold s1
      refine Frame.then (State.driveOp_frame _) (by decide) ?_
      refine Frame.setHost (by decide) ?_
      exact Frame.refl _ _
    try clear_value s1
    apply Frame.ite
    · refine Frame.then (State.fset_frame _ _ _ _) (by decide) ?_
      assumption
    · refine Frame.then (State.fset_frame _ _ _ _) (by decide) ?_
      refine Frame.then (State.setPs_frame _ _) (by decide) ?_
      assumption
  · refine Frame.then (State.fset_frame _ _ _ _) (by decide) ?_
    refine Frame.setHost (by decide) ?_
    exact Frame.refl _ _

theorem State.holdCompute_frame (s : State) (cmd : CmdId) (c : ℕ) (e : Option ExecCmd) (o : Option QueueOp) :
    Frame [.host] s (State.holdCompute s cmd c e o) := by
  unfold State.holdCompute
  extract_lets +onlyGivenNames i l; try clear_value i l
  refine Frame.setHost (by decide) ?_
  exact Frame.refl _ _

theorem State.nowWaits_frame (s : State) (c : ℕ) (x : Ctx) :
    Frame [.regs, .cp, .units] s (State.nowWaits s c x) := by
  unfold State.nowWaits
  apply Frame.ite
  · refine Frame.then (State.setCtx_frame _ _ _) (by decide) ?_
    apply Frame.ite
    · refine Frame.then (State.releaseHome_frame _ _) (by decide) ?_
      exact Frame.refl _ _
    · exact Frame.refl _ _
  · exact Frame.refl _ _

theorem State.queueOp_frame (s : State) (cmd : CmdId) (c : ℕ) (x : Ctx) (o : QueueOp) :
    Frame [.regs, .reg, .arb, .kettle, .host, .cp, .units] s (State.queueOp s cmd c x o) := by
  unfold State.queueOp
  extract_lets +onlyGivenNames s1
  have h_s1 : Frame [.regs, .reg, .arb, .kettle, .host, .cp, .units] s s1 := by
    unfold s1
    refine Frame.then (State.holdCompute_frame _ _ _ _ _) (by decide) ?_
    exact Frame.refl _ _
  try clear_value s1
  extract_lets +onlyGivenNames ahead; try clear_value ahead
  apply Frame.ite
  · split
    · refine Frame.then (State.runHeld_frame _ _ _ _ _) (by decide) ?_
      assumption
    · assumption
  · refine Frame.then (State.nowWaits_frame _ _ _) (by decide) ?_
    assumption

theorem State.onCompute_frame {ps : List Part} {s : State} {cmd : CmdId} {nsid : ℕ} {bad : Option (ℕ × ℕ)} {f : ℕ → Ctx → State}
    (hp : [.regs, .reg, .arb, .kettle, .host, .cp, .units] ⊆ ps) (hf : ∀ c x, Frame ps s (f c x)) : Runs ps s (State.onCompute s cmd nsid bad f) := by
  have hc : ∀ q a b, Frame ps s (s.complete q a b) := fun q a b => Frame.then (State.complete_frame _ _ _ _ _ _ _) (List.Subset.trans (by decide) hp) (Frame.refl _ _)
  unfold State.onCompute
  extract_lets +onlyGivenNames plain; try clear_value plain
  split
  · exact Runs.next (Frame.refl _ _)
  · split
    · exact Runs.next (hc _ _ _)
    · split
      · exact Runs.next (hc _ _ _)
      · apply Runs.ite
        · exact Runs.next (Frame.refl _ _)
        split
        · exact Runs.next (Frame.then (State.queueOp_frame _ _ _ _ _) (List.Subset.trans (by decide) hp) (Frame.refl _ _))
        · exact Runs.next (hf _ _)

theorem State.selfRefresh_frame (s : State) (on : Bool) :
    Frame [.regs] s (State.selfRefresh s on) := by
  unfold State.selfRefresh
  refine Frame.foldl ?_ ?_ _
  · intro t i
    beta_reduce
    beta_reduce
    refine Frame.then (State.fset_frame _ _ _ _) (by decide) ?_
    exact Frame.refl _ _
  · exact Frame.refl _ _

theorem State.enterPs4_frame (s : State) :
    Frame [.regs, .freeCount, .reg, .power, .arb, .kettle, .host, .units, .tiers, .time, .ftl, .near] s (State.enterPs4 s) := by
  unfold State.enterPs4
  extract_lets +onlyGivenNames -merge src src1 src2 src3 s1
  have h_s1 : Frame [.regs, .freeCount, .reg, .power, .arb, .kettle, .host, .units, .tiers, .time, .ftl, .near] s s1 := by
    unfold s1
    refine Frame.upd rfl ?_ (by intro p hp; cases p <;> first | exact absurd (by decide) hp | rfl) (fun h => ⟨h.1, ((fun h => by try dsimp +zetaDelta only; repeat' (first | with_reducible assumption | with_reducible refine wf_fill _ _ _ _ ?_ | with_reducible refine wf_writeL _ _ _ ?_ | with_reducible refine wf_copyFrom _ _ _ _ ?_ | exact wf_empty | with_reducible refine wf_foldl _ (fun m x h => ?_) _ ?_ _)) h.2.1), h.2.2.1, h.2.2.2.1, h.2.2.2.2⟩)
    exact Frame.refl _ _
  try clear_value s1
  refine Frame.then (State.powerPorts_frame _) (by decide) ?_
  refine Frame.then (State.powerDown_frame _ _) (by decide) ?_
  assumption

theorem State.setFeature_frame (s : State) (fn : ℕ) (k : ℕ) (v : ℕ) :
    Frame [.host] s (State.setFeature s fn k v) := by
  unfold State.setFeature
  extract_lets +onlyGivenNames c; try clear_value c
  refine Frame.then (State.setCtrl_frame _ _ _) (by decide) ?_
  exact Frame.refl _ _

theorem State.holdAdmin_frame (s : State) (cmd : CmdId) :
    Frame [.host] s (State.holdAdmin s cmd) := by
  unfold State.holdAdmin
  apply Frame.ite
  · exact Frame.refl _ _
  · refine Frame.setHost (by decide) ?_
    exact Frame.refl _ _

end Sys2Proof.Machine
end

