-- ==== Sys2Proof/Laws/NvmFrame.lean ====
section
/-!
SUPPORT. What each operation of Machine/Nvm.lean can change: the parts of the state its frame names, canonical form kept.
-/

namespace Sys2Proof.Machine

theorem State.onNs_frame {ps : List Part} {s : State} {cmd : CmdId} {r : Res}
    (hp : [.regs, .reg, .arb, .kettle, .host, .cp, .units] ⊆ ps) (hr : Runs ps s r) : Runs ps s (State.onNs s cmd r) := by
  unfold State.onNs
  apply Runs.ite
  · exact State.onCompute_frame (List.Subset.trans (by decide) hp) fun _ _ => Frame.refl _ _
  apply Runs.ite
  · exact Runs.next (Frame.refl _ _)
  apply Runs.ite
  · exact Runs.next (Frame.then (State.turnAway_frame _ _) (List.Subset.trans (by decide) hp) (Frame.refl _ _))
  · exact hr

theorem State.nameLba_frame (s : State) (fn : ℕ) (ns : ℕ) (iu : ℕ) :
    Frame [.host] s (State.nameLba s fn ns iu) := by
  unfold State.nameLba
  extract_lets +onlyGivenNames b c; try clear_value b c
  split
  · refine Frame.then (State.setCtrl_frame _ _ _) (by decide) ?_
    exact Frame.refl _ _
  · exact Frame.refl _ _

theorem State.readFails_frame (s : State) (cmd : CmdId) (ns : ℕ) (iu : ℕ) :
    Frame [.reg, .arb, .kettle, .host, .units] s (State.readFails s cmd ns iu) := by
  unfold State.readFails
  refine Frame.then (State.smartAdd_frame _ _ _) (by decide) ?_
  refine Frame.then (State.nameLba_frame _ _ _ _) (by decide) ?_
  refine Frame.then (State.complete_frame _ _ _ _ _ _ _) (by decide) ?_
  exact Frame.refl _ _

theorem State.holdHost_frame (s : State) (cmd : CmdId) (kind : IntakeKind) :
    Frame [.host] s (State.holdHost s cmd kind) := by
  unfold State.holdHost
  apply Frame.ite
  · exact Frame.refl _ _
  · refine Frame.setHost (by decide) ?_
    exact Frame.refl _ _

theorem State.waitSlots_frame (s : State) (cmd : CmdId) :
    Frame [.regs, .host] s (State.waitSlots s cmd) := by
  unfold State.waitSlots
  extract_lets +onlyGivenNames s1
  have h_s1 : Frame [.regs, .host] s s1 := by
    unfold s1
    refine Frame.then (State.holdHost_frame _ _ _) (by decide) ?_
    exact Frame.refl _ _
  try clear_value s1
  apply Frame.ite
  · assumption
  · refine Frame.then (State.fbump_frame _ _ _ _) (by decide) ?_
    refine Frame.setHost (by decide) ?_
    assumption

theorem State.clearRange_frame (s : State) (ns : ℕ) (off : ℕ) (n : ℕ) :
    Frame [.regs, .freeCount, .reg, .tiers, .ftl] s (State.clearRange s ns off n) := by
  unfold State.clearRange
  refine Frame.then (State.flush_frame _) (by decide) ?_
  refine Frame.then (State.deallocate_frame _ _ _ _) (by decide) ?_
  refine Frame.then (State.dropCopiesOf_frame _ _) (by decide) ?_
  exact Frame.refl _ _

theorem State.onAdmin_frame {ps : List Part} {s : State} {cmd : CmdId} {f : State}
    (hp : [.reg, .arb, .kettle, .host, .units] ⊆ ps) (hf : Frame ps s f) : Runs ps s (State.onAdmin s cmd f) := by
  have hc : ∀ a b, Frame ps s (s.complete cmd a b) := fun a b => Frame.then (State.complete_frame _ _ _ _ _ _ _) (List.Subset.trans (by decide) hp) (Frame.refl _ _)
  unfold State.onAdmin
  apply Runs.ite
  · exact Runs.next (Frame.refl _ _)
  apply Runs.ite
  · exact Runs.next (hc _ _)
  apply Runs.ite
  · exact Runs.next (Frame.then (State.turnAway_frame _ _) (List.Subset.trans (by decide) hp) (Frame.refl _ _))
  apply Runs.ite
  · exact Runs.next (hc _ _)
  · exact Runs.next hf

theorem State.faultMoves_frame (s : State) (run : Bool) (p : Move → Bool) (code : ℕ) (case : ℕ) :
    Frame [.regs, .freeCount, .reg, .arb, .kettle, .host, .cp, .units, .tiers, .ftl, .near, .hbm, .sb, .hostMem] s (State.faultMoves s run p code case) := by
  unfold State.faultMoves
  extract_lets +onlyGivenNames l; try clear_value l
  refine Frame.foldl ?_ ?_ _
  · intro t c
    beta_reduce
    beta_reduce
    split
    · refine Frame.then (State.faultCtx_frame _ _ _) (by decide) ?_
      exact Frame.refl _ _
    · exact Frame.refl _ _
  · exact Frame.refl _ _

theorem State.clearKey_frame (s : State) (slot : ℕ) :
    Frame [.ftl] s (State.clearKey s slot) := by
  unfold State.clearKey
  refine Frame.setFtl (by decide) ?_
  exact Frame.refl _ _

theorem State.newKey_frame (s : State) (slot : ℕ) :
    Frame [.ftl] s (State.newKey s slot) := by
  unfold State.newKey
  extract_lets +onlyGivenNames s1
  have h_s1 : Frame [.ftl] s s1 := by
    unfold s1
    refine Frame.then (State.clearKey_frame _ _) (by decide) ?_
    exact Frame.refl _ _
  try clear_value s1
  refine Frame.setFtl (by decide) ?_
  assumption

theorem State.putNs_frame (s : State) (ns : ℕ) (n : Namespace) :
    Frame [.host] s (State.putNs s ns n) := by
  unfold State.putNs
  refine Frame.setHost (by decide) ?_
  exact Frame.refl _ _

theorem State.spoilColls_frame (s : State) (ns : ℕ) :
    Frame [.near] s (State.spoilColls s ns) := by
  unfold State.spoilColls
  refine Frame.setNear (by decide) ?_
  exact Frame.refl _ _

theorem State.dropNsCopies_frame (s : State) (ns : ℕ) :
    Frame [.regs, .tiers] s (State.dropNsCopies s ns) := by
  unfold State.dropNsCopies
  refine Frame.then (State.dropCopies_frame _ _) (by decide) ?_
  exact Frame.refl _ _

theorem State.formatNs_frame (s : State) (lbaf : ℕ) (ses : ℕ) (ns : ℕ) :
    Frame [.regs, .freeCount, .reg, .arb, .kettle, .host, .cp, .units, .tiers, .ftl, .near, .hbm, .sb, .hostMem] s (State.formatNs s lbaf ses ns) := by
  unfold State.formatNs
  split
  · exact Frame.refl _ _
  · extract_lets +onlyGivenNames s1
    have h_s1 : Frame [.regs, .freeCount, .reg, .arb, .kettle, .host, .cp, .units, .tiers, .ftl, .near, .hbm, .sb, .hostMem] s s1 := by
      unfold s1
      refine Frame.then (State.faultMoves_frame _ _ _ _ _) (by decide) ?_
      exact Frame.refl _ _
    try clear_value s1
    extract_lets +onlyGivenNames s2
    have h_s2 : Frame [.regs, .freeCount, .reg, .arb, .kettle, .host, .cp, .units, .tiers, .ftl, .near, .hbm, .sb, .hostMem] s s2 := by
      unfold s2
      apply Frame.ite
      · assumption
      · refine Frame.foldl ?_ ?_ _
        · intro t k
          beta_reduce
          beta_reduce
          refine Frame.then (State.newKey_frame _ _) (by decide) ?_
          exact Frame.refl _ _
        · assumption
    try clear_value s2
    refine Frame.then (State.putNs_frame _ _ _) (by decide) ?_
    refine Frame.then (State.spoilColls_frame _ _) (by decide) ?_
    refine Frame.then (State.unmapNs_frame _ _) (by decide) ?_
    refine Frame.then (State.dropNsCopies_frame _ _) (by decide) ?_
    assumption

theorem State.enterReadOnly_frame (s : State) (cause : ℕ) :
    Frame [.regs, .reg, .arb, .kettle, .eflash, .host, .units, .ftl] s (State.enterReadOnly s cause) := by
  unfold State.enterReadOnly
  extract_lets +onlyGivenNames -merge src s1
  have h_s1 : Frame [.regs, .reg, .arb, .kettle, .eflash, .host, .units, .ftl] s s1 := by
    unfold s1
    apply Frame.ite
    · exact Frame.refl _ _
    · refine Frame.setFtl (by decide) ?_
      exact Frame.refl _ _
  try clear_value s1
  apply Frame.ite
  · refine Frame.then (State.err_frame _ _ _ _ _ _ _) (by decide) ?_
    refine Frame.then (State.setMedia_frame _ _ _) (by decide) ?_
    assumption
  · assumption

theorem State.nsChanged_frame (s : State) (fns : List ℕ) (ns : ℕ) :
    Frame [.reg, .arb, .kettle, .host, .units] s (State.nsChanged s fns ns) := by
  unfold State.nsChanged
  refine Frame.foldl ?_ ?_ _
  · intro t f
    beta_reduce
    beta_reduce
    extract_lets +onlyGivenNames c; try clear_value c
    refine Frame.then (State.aer_frame _ _ _ _ _) (by decide) ?_
    refine Frame.then (State.setCtrl_frame _ _ _) (by decide) ?_
    exact Frame.refl _ _
  · exact Frame.refl _ _

theorem State.createNs_frame (s : State) (cmd : CmdId) (slm : Bool) (size : ℕ) (lbaf : ℕ) (pset : ℕ) :
    Frame [.regs, .freeCount, .reg, .arb, .kettle, .host, .units, .tiers, .ftl, .hbm] s (State.createNs s cmd slm size lbaf pset) := by
  unfold State.createNs
  extract_lets +onlyGivenNames n; try clear_value n
  extract_lets +onlyGivenNames  mk
  apply Frame.ite
  · refine Frame.then (State.complete_frame _ _ _ _ _ _ _) (by decide) ?_
    exact Frame.refl _ _
  · split
    · refine Frame.then (State.complete_frame _ _ _ _ _ _ _) (by decide) ?_
      exact Frame.refl _ _
    · apply Frame.ite
      · apply Frame.ite
        · refine Frame.then (State.complete_frame _ _ _ _ _ _ _) (by decide) ?_
          exact Frame.refl _ _
        · apply Frame.ite
          · refine Frame.then (State.complete_frame _ _ _ _ _ _ _) (by decide) ?_
            exact Frame.refl _ _
          · split
            · refine Frame.then (State.complete_frame _ _ _ _ _ _ _) (by decide) ?_
              exact Frame.refl _ _
            · try unfold mk
              try beta_reduce
              extract_lets +onlyGivenNames x; try clear_value x
              refine Frame.then (State.succeed_frame _ _ _ _) (by decide) ?_
              refine Frame.then (State.flush_frame _) (by decide) ?_
              refine Frame.then (State.putNs_frame _ _ _) (by decide) ?_
              refine Frame.then (takeAll_frame _ _ _ _ _ (by assumption)) (by decide) ?_
              exact Frame.refl _ _
      · apply Frame.ite
        · refine Frame.then (State.complete_frame _ _ _ _ _ _ _) (by decide) ?_
          exact Frame.refl _ _
        · apply Frame.ite
          · refine Frame.then (State.complete_frame _ _ _ _ _ _ _) (by decide) ?_
            exact Frame.refl _ _
          · apply Frame.ite
            · refine Frame.then (State.complete_frame _ _ _ _ _ _ _) (by decide) ?_
              exact Frame.refl _ _
            · try unfold mk
              try beta_reduce
              extract_lets +onlyGivenNames x; try clear_value x
              refine Frame.then (State.succeed_frame _ _ _ _) (by decide) ?_
              refine Frame.then (State.flush_frame _) (by decide) ?_
              refine Frame.then (State.putNs_frame _ _ _) (by decide) ?_
              exact Frame.refl _ _

theorem State.deleteNs_frame (s : State) (ns : ℕ) :
    Frame [.regs, .freeCount, .reg, .arb, .kettle, .host, .cp, .units, .tiers, .ftl, .near, .hbm, .sb, .hostMem] s (State.deleteNs s ns) := by
  unfold State.deleteNs
  split
  · exact Frame.refl _ _
  · extract_lets +onlyGivenNames  gone
    apply Frame.ite
    · try unfold gone
      try beta_reduce
      refine Frame.then (State.nsChanged_frame _ _ _) (by decide) ?_
      refine Frame.setHost (by decide) ?_
      exact Frame.refl _ _
    · extract_lets +onlyGivenNames s1
      have h_s1 : Frame [.regs, .freeCount, .reg, .arb, .kettle, .host, .cp, .units, .tiers, .ftl, .near, .hbm, .sb, .hostMem] s s1 := by
        unfold s1
        refine Frame.foldl ?_ ?_ _
        · intro t k
          beta_reduce
          beta_reduce
          refine Frame.then (State.clearKey_frame _ _) (by decide) ?_
          exact Frame.refl _ _
        · refine Frame.then (State.unmapNs_frame _ _) (by decide) ?_
          refine Frame.then (State.dropNsCopies_frame _ _) (by decide) ?_
          refine Frame.then (State.faultMoves_frame _ _ _ _ _) (by decide) ?_
          exact Frame.refl _ _
      try clear_value s1
      extract_lets +onlyGivenNames -merge src src1 s2
      have h_s2 : Frame [.regs, .freeCount, .reg, .arb, .kettle, .host, .cp, .units, .tiers, .ftl, .near, .hbm, .sb, .hostMem] s s2 := by
        unfold s2
        refine Frame.upd rfl ?_ (by intro p hp; cases p <;> first | exact absurd (by decide) hp | rfl) (fun h => ⟨h.1, ((fun h => by try dsimp +zetaDelta only; repeat' (first | with_reducible assumption | with_reducible refine wf_fill _ _ _ _ ?_ | with_reducible refine wf_writeL _ _ _ ?_ | with_reducible refine wf_copyFrom _ _ _ _ ?_ | exact wf_empty | with_reducible refine wf_foldl _ (fun m x h => ?_) _ ?_ _)) h.2.1), h.2.2.1, h.2.2.2.1, h.2.2.2.2⟩)
        assumption
      try clear_value s2
      try unfold gone
      try beta_reduce
      refine Frame.then (State.nsChanged_frame _ _ _) (by decide) ?_
      refine Frame.setHost (by decide) ?_
      refine Frame.then (State.spoilColls_frame _ _) (by decide) ?_
      assumption

theorem State.onRange_frame {ps : List Part} {s : State} {cmd : CmdId} {ns slba nlb : ℕ} {write limit : Bool} {f : ℕ → ℕ → State}
    (hp : [.regs, .reg, .arb, .kettle, .host, .cp, .units] ⊆ ps) (hf : ∀ a b, Frame ps s (f a b)) : Runs ps s (State.onRange s cmd ns slba nlb write limit f) := by
  have hc : ∀ a b, Frame ps s (s.complete cmd a b) := fun a b => Frame.then (State.complete_frame _ _ _ _ _ _ _) (List.Subset.trans (by decide) hp) (Frame.refl _ _)
  unfold State.onRange
  refine State.onNs_frame (List.Subset.trans (by decide) hp) ?_
  split
  · exact Runs.next (hc _ _)
  · split
    · exact Runs.next (hc _ _)
    · apply Runs.ite
      · exact Runs.next (hc _ _)
      apply Runs.ite
      · exact Runs.next (hc _ _)
      apply Runs.ite
      · exact Runs.next (hc _ _)
      · exact Runs.next (hf _ _)

theorem State.hostReads_frame (s : State) (ns : ℕ) (off : ℕ) (n : ℕ) :
    Frame [.regs, .reg, .kettle] s (State.hostReads s ns off n) := by
  unfold State.hostReads
  extract_lets +onlyGivenNames ius; try clear_value ius
  refine Frame.then (State.work_frame _ _ _ _) (by decide) ?_
  refine Frame.then (State.countReads_frame _ _ _) (by decide) ?_
  exact Frame.refl _ _

theorem State.faultSteps_frame (s : State) (p : PuuStep → Bool) (code : ℕ) (case : ℕ) :
    Frame [.regs, .freeCount, .reg, .arb, .kettle, .host, .cp, .units, .tiers, .ftl, .near, .hbm, .sb, .hostMem] s (State.faultSteps s p code case) := by
  unfold State.faultSteps
  refine Frame.foldl ?_ ?_ _
  · intro t u
    beta_reduce
    beta_reduce
    split
    · refine Frame.then (State.faultCtx_frame _ _ _) (by decide) ?_
      exact Frame.refl _ _
    · exact Frame.refl _ _
  · exact Frame.refl _ _

theorem State.scrambleAll_frame (s : State) :
    Frame [.freeCount, .nand, .pages] s (State.scrambleAll s) := by
  unfold State.scrambleAll
  extract_lets +onlyGivenNames k; try clear_value k
  refine Frame.upd rfl ?_ (by intro p hp; cases p <;> first | exact absurd (by decide) hp | rfl) (fun h => ⟨h.1, h.2.1, h.2.2.1, h.2.2.2.1, h.2.2.2.2⟩)
  exact Frame.refl _ _

theorem State.eraseAll_frame (s : State) :
    Frame [.ftl, .nand, .pages] s (State.eraseAll s) := by
  unfold State.eraseAll
  refine Frame.upd rfl ?_ (by intro p hp; cases p <;> first | exact absurd (by decide) hp | rfl) (fun h => ⟨h.1, h.2.1, h.2.2.1, h.2.2.2.1, h.2.2.2.2⟩)
  exact Frame.refl _ _

theorem State.dropRangeCopies_frame (s : State) (slot : ℕ) :
    Frame [.regs, .tiers] s (State.dropRangeCopies s slot) := by
  unfold State.dropRangeCopies
  refine Frame.then (State.dropCopies_frame _ _) (by decide) ?_
  exact Frame.refl _ _

theorem State.lockRange_frame (s : State) (slot : ℕ) (rd : Bool) (wr : Bool) :
    Frame [.regs, .host, .tiers, .ftl] s (State.lockRange s slot rd wr) := by
  unfold State.lockRange
  extract_lets +onlyGivenNames -merge src s1
  have h_s1 : Frame [.regs, .host, .tiers, .ftl] s s1 := by
    unfold s1
    apply Frame.ite
    · split
      · apply Frame.ite
        · refine Frame.then (State.putNs_frame _ _ _) (by decide) ?_
          exact Frame.refl _ _
        · exact Frame.refl _ _
      · exact Frame.refl _ _
    · split
      · refine Frame.setFtl (by decide) ?_
        exact Frame.refl _ _
      · exact Frame.refl _ _
  try clear_value s1
  apply Frame.ite
  · refine Frame.then (State.dropRangeCopies_frame _ _) (by decide) ?_
    refine Frame.then (State.clearKey_frame _ _) (by decide) ?_
    assumption
  · assumption

theorem State.defineRange_frame (s : State) (r : ℕ) (ns : ℕ) (first : ℕ) (len : ℕ) :
    Frame [.ftl] s (State.defineRange s r ns first len) := by
  unfold State.defineRange
  extract_lets +onlyGivenNames others room; try clear_value others room
  apply Frame.ite
  · exact Frame.refl _ _
  · apply Frame.ite
    · refine Frame.then (State.clearKey_frame _ _) (by decide) ?_
      refine Frame.setFtl (by decide) ?_
      exact Frame.refl _ _
    · apply Frame.ite
      · exact Frame.refl _ _
      · extract_lets +onlyGivenNames x; try clear_value x
        refine Frame.setFtl (by decide) ?_
        exact Frame.refl _ _

theorem State.genKey_frame (s : State) (slot : ℕ) :
    Frame [.regs, .tiers, .ftl] s (State.genKey s slot) := by
  unfold State.genKey
  split
  · exact Frame.refl _ _
  · extract_lets +onlyGivenNames  tier
    extract_lets +onlyGivenNames  mine
    extract_lets +onlyGivenNames  dead
    extract_lets +onlyGivenNames s1
    have h_s1 : Frame [.regs, .tiers, .ftl] s s1 := by
      unfold s1
      refine Frame.then (State.dropRangeCopies_frame _ _) (by decide) ?_
      refine Frame.then (State.newKey_frame _ _) (by decide) ?_
      exact Frame.refl _ _
    try clear_value s1
    extract_lets +onlyGivenNames ended; try clear_value ended
    refine Frame.setFtl (by decide) ?_
    assumption

theorem State.piecesRead_frame (s : State) (ps : List (ℕ × ℕ)) : Frame [.regs, .reg, .arb, .kettle, .host, .units] s (State.piecesRead s ps).2 := by
  unfold State.piecesRead
  have h : ∀ (f : Bool × State → ℕ × ℕ → Bool × State), (∀ a p, Frame [.regs, .reg, .arb, .kettle, .host, .units] a.2 (f a p).2) →
      ∀ (l : List (ℕ × ℕ)) (a : Bool × State), Frame [.regs, .reg, .arb, .kettle, .host, .units] s a.2 → Frame [.regs, .reg, .arb, .kettle, .host, .units] s (l.foldl f a).2 := by
    intro f hf l
    induction l with
    | nil => exact fun a h => h
    | cons p l ih => exact fun a h => ih _ ((hf a p).then (fun _ k => k) h)
  refine h _ ?_ ps _ (Frame.refl _ _)
  intro a p
  have he : ∀ c i b n x j, Frame [.regs, .reg, .arb, .kettle, .host, .units] a.2 (a.2.err c i b n x j) :=
    fun c i b n x j => Frame.then (State.err_frame _ _ _ _ _ _ _) (by decide) (Frame.refl _ _)
  beta_reduce
  extract_lets +onlyGivenNames k info
  split
  · exact he _ _ _ _ _ _
  · split
    · exact he _ _ _ _ _ _
    · show Frame _ _ (if _ then _ else _)
      apply Frame.ite
      · exact Frame.refl _ _
      · exact he _ _ _ _ _ _

theorem State.onSlm_frame {ps : List Part} {s : State} {cmd : CmdId} {ns off n : ℕ} {f : State}
    (hp : [.regs, .reg, .arb, .kettle, .host, .cp, .units] ⊆ ps) (hf : Frame ps s f) : Runs ps s (State.onSlm s cmd ns off n f) := by
  have hc : ∀ a b, Frame ps s (s.complete cmd a b) := fun a b => Frame.then (State.complete_frame _ _ _ _ _ _ _) (List.Subset.trans (by decide) hp) (Frame.refl _ _)
  unfold State.onSlm
  refine State.onNs_frame (List.Subset.trans (by decide) hp) ?_
  split
  · exact Runs.next (hc _ _)
  · split
    · apply Runs.ite
      · exact Runs.next (hc _ _)
      · exact Runs.next hf
    · exact Runs.next (Frame.refl _ _)

theorem State.writePieces_frame (s : State) (ps : List (ℕ × ℕ)) (bs : List Byte) : Frame [.tiers, .hbm] s (State.writePieces s ps bs) := by
  induction ps generalizing s bs with
  | nil => exact Frame.refl _ _
  | cons p ps ih =>
    unfold State.writePieces
    exact Frame.then (ih _ _) (by decide) (Frame.then (State.heatT1_frame _ _ _) (by decide)
      (Frame.then (State.hbmWrite_frame _ _ _) (by decide) (Frame.refl _ _)))

end Sys2Proof.Machine
end

