-- ==== Sys2Proof/Laws/RecorderFrame.lean ====
section
/-!
SUPPORT. What each operation of Machine/Recorder.lean can change: the parts of the state its frame names, canonical form kept.
-/

namespace Sys2Proof.Machine

theorem State.ringWrite_frame (s : State) (e : RecEntry) :
    Frame [.regs, .reg, .kettle] s (State.ringWrite s e) := by
  unfold State.ringWrite
  extract_lets +onlyGivenNames q i; try clear_value q i
  extract_lets +onlyGivenNames -merge src s1
  have h_s1 : Frame [.regs, .reg, .kettle] s s1 := by
    unfold s1
    refine Frame.setKettle (by decide) ?_
    exact Frame.refl _ _
  try clear_value s1
  refine Frame.then (State.count_frame _ _ _ _ _) (by decide) ?_
  refine Frame.then (State.fset_frame _ _ _ _) (by decide) ?_
  refine Frame.then (State.fset_frame _ _ _ _) (by decide) ?_
  assumption

theorem State.ringTake_frame (s : State) (e : RecEntry) :
    Frame [.regs, .reg, .kettle] s (State.ringTake s e) := by
  unfold State.ringTake
  apply Frame.ite
  · refine Frame.then (State.fbump_frame _ _ _ _) (by decide) ?_
    exact Frame.refl _ _
  · refine Frame.then (State.ringWrite_frame _ _) (by decide) ?_
    exact Frame.refl _ _

theorem State.ringNow_frame (s : State) (c : ℕ) (code : ℕ) (payload : List ℕ) (safety : Bool) :
    Frame [.regs, .reg, .kettle] s (State.ringNow s c code payload safety) := by
  unfold State.ringNow
  refine Frame.then (State.ringTake_frame _ _) (by decide) ?_
  exact Frame.refl _ _

theorem State.persist_frame (s : State) (whole : Bool) :
    Frame [.regs, .kettle] s (State.persist s whole) := by
  unfold State.persist
  apply Frame.ite
  · exact Frame.refl _ _
  · extract_lets +onlyGivenNames -merge src s0
    have h_s0 : Frame [.regs, .kettle] s s0 := by
      unfold s0
      refine Frame.setKettle (by decide) ?_
      exact Frame.refl _ _
    try clear_value s0
    split
    · refine Frame.setKettle (by decide) ?_
      assumption
    · apply Frame.ite
      · refine Frame.then (State.fset_frame _ _ _ _) (by decide) ?_
        assumption
      · extract_lets +onlyGivenNames q; try clear_value q
        extract_lets +onlyGivenNames s1
        have h_s1 : Frame [.regs, .kettle] s s1 := by
          unfold s1
          refine Frame.then (State.fset_frame _ _ _ _) (by decide) ?_
          refine Frame.then (State.fset_frame _ _ _ _) (by decide) ?_
          assumption
        try clear_value s1
        refine Frame.setKettle (by decide) ?_
        assumption

theorem State.freezeRing_frame (s : State) (cause : ℕ) :
    Frame [.regs, .reg, .kettle] s (State.freezeRing s cause) := by
  unfold State.freezeRing
  extract_lets +onlyGivenNames s1
  have h_s1 : Frame [.regs, .reg, .kettle] s s1 := by
    unfold s1
    refine Frame.then (State.ringNow_frame _ _ _ _ _) (by decide) ?_
    exact Frame.refl _ _
  try clear_value s1
  extract_lets +onlyGivenNames s2
  have h_s2 : Frame [.regs, .reg, .kettle] s s2 := by
    unfold s2
    refine Frame.then (State.fset_frame _ _ _ _) (by decide) ?_
    refine Frame.then (State.fset_frame _ _ _ _) (by decide) ?_
    refine Frame.then (State.fset_frame _ _ _ _) (by decide) ?_
    assumption
  try clear_value s2
  extract_lets +onlyGivenNames s3
  have h_s3 : Frame [.regs, .reg, .kettle] s s3 := by
    unfold s3
    refine Frame.then (State.count_frame _ _ _ _ _) (by decide) ?_
    refine Frame.then (State.fset64_frame _ _ _ _ _) (by decide) ?_
    assumption
  try clear_value s3
  refine Frame.setKettle (by decide) ?_
  assumption

theorem State.freeze_frame (s : State) (cause : ℕ) :
    Frame [.regs, .reg, .kettle] s (State.freeze s cause) := by
  unfold State.freeze
  extract_lets +onlyGivenNames now; try clear_value now
  apply Frame.ite
  · refine Frame.then (State.freezeRing_frame _ _) (by decide) ?_
    exact Frame.refl _ _
  · apply Frame.ite
    · extract_lets +onlyGivenNames s1
      have h_s1 : Frame [.regs, .reg, .kettle] s s1 := by
        unfold s1
        refine Frame.then (State.fset_frame _ _ _ _) (by decide) ?_
        refine Frame.then (State.fset_frame _ _ _ _) (by decide) ?_
        exact Frame.refl _ _
      try clear_value s1
      refine Frame.setKettle (by decide) ?_
      assumption
    · apply Frame.ite
      · refine Frame.then (State.fset_frame _ _ _ _) (by decide) ?_
        exact Frame.refl _ _
      · exact Frame.refl _ _

theorem State.unfreeze_frame (s : State) :
    Frame [.regs] s (State.unfreeze s) := by
  unfold State.unfreeze
  refine Frame.then (State.fset_frame _ _ _ _) (by decide) ?_
  refine Frame.then (State.fset_frame _ _ _ _) (by decide) ?_
  refine Frame.then (State.fset_frame _ _ _ _) (by decide) ?_
  exact Frame.refl _ _

theorem State.prepareSlot_frame (s : State) :
    Frame [.regs, .kettle] s (State.prepareSlot s) := by
  unfold State.prepareSlot
  extract_lets +onlyGivenNames  st
  apply Frame.ite
  · exact Frame.refl _ _
  · extract_lets +onlyGivenNames useful pick; try clear_value useful pick
    split
    · exact Frame.refl _ _
    · extract_lets +onlyGivenNames s1
      have h_s1 : Frame [.regs, .kettle] s s1 := by
        unfold s1
        refine Frame.then (State.fset_frame _ _ _ _) (by decide) ?_
        refine Frame.then (State.fset_frame _ _ _ _) (by decide) ?_
        exact Frame.refl _ _
      try clear_value s1
      refine Frame.setKettle (by decide) ?_
      assumption

theorem State.startRecorder_frame (s : State) :
    Frame [.regs, .reg, .arb, .kettle, .host, .units] s (State.startRecorder s) := by
  unfold State.startRecorder
  extract_lets +onlyGivenNames partialRec lost; try clear_value partialRec lost
  extract_lets +onlyGivenNames -merge src s1
  have h_s1 : Frame [.regs, .reg, .arb, .kettle, .host, .units] s s1 := by
    unfold s1
    refine Frame.setKettle (by decide) ?_
    exact Frame.refl _ _
  try clear_value s1
  extract_lets +onlyGivenNames s2
  have h_s2 : Frame [.regs, .reg, .arb, .kettle, .host, .units] s s2 := by
    unfold s2
    refine Frame.then (State.prepareSlot_frame _) (by decide) ?_
    assumption
  try clear_value s2
  extract_lets +onlyGivenNames s3
  have h_s3 : Frame [.regs, .reg, .arb, .kettle, .host, .units] s s3 := by
    unfold s3
    apply Frame.ite
    · refine Frame.then (State.err_frame _ _ _ _ _ _ _) (by decide) ?_
      assumption
    · assumption
  try clear_value s3
  apply Frame.ite
  · refine Frame.then (State.err_frame _ _ _ _ _ _ _) (by decide) ?_
    assumption
  · assumption

theorem State.enterDropped_frame (s : State) (c : ℕ) (i : ℕ) :
    Frame [.regs, .reg, .arb, .kettle, .host, .units] s (State.enterDropped s c i) := by
  unfold State.enterDropped
  extract_lets +onlyGivenNames p n; try clear_value p n
  apply Frame.ite
  · exact Frame.refl _ _
  · extract_lets +onlyGivenNames e; try clear_value e
    extract_lets +onlyGivenNames -merge src s1
    have h_s1 : Frame [.regs, .reg, .arb, .kettle, .host, .units] s s1 := by
      unfold s1
      refine Frame.setKettle (by decide) ?_
      exact Frame.refl _ _
    try clear_value s1
    refine Frame.then (State.err_frame _ _ _ _ _ _ _) (by decide) ?_
    assumption

end Sys2Proof.Machine
end

