-- ==== Sys2Proof/Laws/ResetFrame.lean ====
section
/-!
SUPPORT. What each operation of Machine/Reset.lean can change: the parts of the state its frame names, canonical form kept.
-/

namespace Sys2Proof.Machine

theorem State.dropImage_frame (s : State) :
    Frame [.regs, .boot, .image] s (State.dropImage s) := by
  unfold State.dropImage
  extract_lets +onlyGivenNames -merge src s1
  have h_s1 : Frame [.regs, .boot, .image] s s1 := by
    unfold s1
    apply Frame.ite
    · exact Frame.refl _ _
    · refine Frame.memBoot (by decide) (by decide) (fun h => by try dsimp +zetaDelta only; repeat' (first | with_reducible assumption | with_reducible refine wf_fill _ _ _ _ ?_ | with_reducible refine wf_writeL _ _ _ ?_ | with_reducible refine wf_copyFrom _ _ _ _ ?_ | exact wf_empty | with_reducible refine wf_foldl _ (fun m x h => ?_) _ ?_ _)) ?_
      exact Frame.refl _ _
  try clear_value s1
  apply Frame.ite
  · refine Frame.then (State.fset_frame _ _ _ _) (by decide) ?_
    refine Frame.then (State.fset_frame _ _ _ _) (by decide) ?_
    refine Frame.then (State.fset_frame _ _ _ _) (by decide) ?_
    assumption
  · assumption

theorem State.resetPages_frame (s : State) (cs : List ℕ) :
    Frame [.regs, .reg] s (State.resetPages s cs) := by
  unfold State.resetPages
  extract_lets +onlyGivenNames gone; try clear_value gone
  refine Frame.foldl ?_ ?_ _
  · intro t p
    beta_reduce
    beta_reduce
    refine Frame.then (State.fset_frame _ _ _ _) (by decide) ?_
    exact Frame.refl _ _
  · refine Frame.foldl ?_ ?_ _
    · intro t c
      beta_reduce
      beta_reduce
      refine Frame.then (State.clearClass_frame _ _) (by decide) ?_
      exact Frame.refl _ _
    · exact Frame.refl _ _

theorem State.resetUnits_frame (s : State) :
    Frame [.reg, .arb, .cp, .units, .tiers, .near, .snilo, .hbm, .sb] s (State.resetUnits s) := by
  unfold State.resetUnits
  extract_lets +onlyGivenNames us; try clear_value us
  refine Frame.upd rfl ?_ (by intro p hp; cases p <;> first | exact absurd (by decide) hp | rfl) (fun h => ⟨h.1, ((fun h => by try dsimp +zetaDelta only; repeat' (first | with_reducible assumption | with_reducible refine wf_fill _ _ _ _ ?_ | with_reducible refine wf_writeL _ _ _ ?_ | with_reducible refine wf_copyFrom _ _ _ _ ?_ | exact wf_empty | with_reducible refine wf_foldl _ (fun m x h => ?_) _ ?_ _)) h.2.1), ((fun h => by try dsimp +zetaDelta only; repeat' (first | with_reducible assumption | with_reducible refine wf_fill _ _ _ _ ?_ | with_reducible refine wf_writeL _ _ _ ?_ | with_reducible refine wf_copyFrom _ _ _ _ ?_ | exact wf_empty | with_reducible refine wf_foldl _ (fun m x h => ?_) _ ?_ _)) h.2.2.1), h.2.2.2.1, h.2.2.2.2⟩)
  exact Frame.refl _ _

theorem State.resetFtl_frame (s : State) :
    Frame [.ftl, .nand] s (State.resetFtl s) := by
  unfold State.resetFtl
  extract_lets +onlyGivenNames erasing; try clear_value erasing
  extract_lets +onlyGivenNames s1
  have h_s1 : Frame [.ftl, .nand] s s1 := by
    unfold s1
    refine Frame.foldl ?_ ?_ _
    · intro t k
      beta_reduce
      beta_reduce
      refine Frame.then (State.setBlock_frame _ _ _) (by decide) ?_
      exact Frame.refl _ _
    · exact Frame.refl _ _
  try clear_value s1
  refine Frame.upd rfl ?_ (by intro p hp; cases p <;> first | exact absurd (by decide) hp | rfl) (fun h => h)
  assumption

theorem State.resetFront_frame (s : State) :
    Frame [.host] s (State.resetFront s) := by
  unfold State.resetFront
  refine Frame.setHost (by decide) ?_
  exact Frame.refl _ _

theorem State.loadStraps_frame (s : State) :
    Frame [.regs] s (State.loadStraps s) := by
  unfold State.loadStraps
  refine Frame.then (State.fset_frame _ _ _ _) (by decide) ?_
  refine Frame.then (State.fset_frame _ _ _ _) (by decide) ?_
  refine Frame.then (State.fset_frame _ _ _ _) (by decide) ?_
  exact Frame.refl _ _

theorem State.keepUpdate_frame (s : State) (t : State) :
    Frame [.regs] t (State.keepUpdate s t) := by
  unfold State.keepUpdate
  refine Frame.foldl ?_ ?_ _
  · intro u f
    beta_reduce
    beta_reduce
    refine Frame.then (State.fset_frame _ _ _ _) (by decide) ?_
    exact Frame.refl _ _
  · exact Frame.refl _ _

theorem State.resetGlobal_frame (s : State) :
    Frame [.regs, .reg, .arb] s (State.resetGlobal s) := by
  unfold State.resetGlobal
  extract_lets +onlyGivenNames keep; try clear_value keep
  extract_lets +onlyGivenNames s1
  have h_s1 : Frame [.regs, .reg, .arb] s s1 := by
    unfold s1
    refine Frame.foldl ?_ ?_ _
    · intro t f
      beta_reduce
      beta_reduce
      refine Frame.then (State.fset_frame _ _ _ _) (by decide) ?_
      exact Frame.refl _ _
    · refine Frame.then (State.clearPage_frame _ _ _) (by decide) ?_
      exact Frame.refl _ _
  try clear_value s1
  extract_lets +onlyGivenNames s2
  have h_s2 : Frame [.regs, .reg, .arb] s s2 := by
    unfold s2
    refine Frame.then (State.fset_frame _ _ _ _) (by decide) ?_
    refine Frame.then (State.fset_frame _ _ _ _) (by decide) ?_
    assumption
  try clear_value s2
  refine Frame.setArb (by decide) ?_
  assumption

theorem State.planeReset_frame (s : State) :
    Frame [.regs, .freeCount, .reg, .power, .arb, .kettle, .boot, .host, .cp, .units, .tiers, .time, .ftl, .nand, .near, .snilo, .hbm, .sb, .hostMem, .image] s (State.planeReset s) := by
  unfold State.planeReset
  extract_lets +onlyGivenNames s1
  have h_s1 : Frame [.regs, .freeCount, .reg, .power, .arb, .kettle, .boot, .host, .cp, .units, .tiers, .time, .ftl, .nand, .near, .snilo, .hbm, .sb, .hostMem, .image] s s1 := by
    unfold s1
    refine Frame.then (State.dropImage_frame _) (by decide) ?_
    refine Frame.then (State.endTest_frame _) (by decide) ?_
    refine Frame.then (State.dropCtxs_frame _) (by decide) ?_
    exact Frame.refl _ _
  try clear_value s1
  extract_lets +onlyGivenNames s2
  have h_s2 : Frame [.regs, .freeCount, .reg, .power, .arb, .kettle, .boot, .host, .cp, .units, .tiers, .time, .ftl, .nand, .near, .snilo, .hbm, .sb, .hostMem, .image] s s2 := by
    unfold s2
    apply Frame.ite
    · refine Frame.then (State.losePort_frame _ _) (by decide) ?_
      refine Frame.then (State.losePort_frame _ _) (by decide) ?_
      refine Frame.then (State.losePtm_frame _) (by decide) ?_
      assumption
    · refine Frame.then (State.losePtm_frame _) (by decide) ?_
      assumption
  try clear_value s2
  extract_lets +onlyGivenNames s3
  have h_s3 : Frame [.regs, .freeCount, .reg, .power, .arb, .kettle, .boot, .host, .cp, .units, .tiers, .time, .ftl, .nand, .near, .snilo, .hbm, .sb, .hostMem, .image] s s3 := by
    unfold s3
    refine Frame.then (State.resetPages_frame _ _) (by decide) ?_
    refine Frame.then (State.resetUnits_frame _) (by decide) ?_
    refine Frame.then (State.resetFtl_frame _) (by decide) ?_
    refine Frame.then (State.resetFront_frame _) (by decide) ?_
    assumption
  try clear_value s3
  extract_lets +onlyGivenNames s4
  have h_s4 : Frame [.regs, .freeCount, .reg, .power, .arb, .kettle, .boot, .host, .cp, .units, .tiers, .time, .ftl, .nand, .near, .snilo, .hbm, .sb, .hostMem, .image] s s4 := by
    unfold s4
    refine Frame.foldl ?_ ?_ _
    · intro t c
      beta_reduce
      beta_reduce
      refine Frame.foldl ?_ ?_ _
      · intro t i
        beta_reduce
        beta_reduce
        refine Frame.then (State.fset_frame _ _ _ _) (by decide) ?_
        exact Frame.refl _ _
      · exact Frame.refl _ _
    · refine Frame.then (State.loadStraps_frame _) (by decide) ?_
      refine Frame.then (State.keepUpdate_frame _ _) (by decide) ?_
      refine Frame.then (State.resetGlobal_frame _) (by decide) ?_
      assumption
  try clear_value s4
  refine Frame.upd rfl ?_ (by intro p hp; cases p <;> first | exact absurd (by decide) hp | rfl) (fun h => h)
  assumption

theorem State.startUnits_frame (s : State) :
    Frame [.regs, .reg, .kettle, .units, .ftl, .near] s (State.startUnits s) := by
  unfold State.startUnits
  refine Frame.foldl ?_ ?_ _
  · intro t c
    beta_reduce
    beta_reduce
    refine Frame.foldl ?_ ?_ _
    · intro t i
      beta_reduce
      beta_reduce
      refine Frame.then (State.toStarting_frame _ _ _) (by decide) ?_
      refine Frame.then (State.putControl_frame _ _ _ _ _) (by decide) ?_
      apply Frame.ite
      · refine Frame.then (State.resetUnit_frame _ _ _) (by decide) ?_
        exact Frame.refl _ _
      · exact Frame.refl _ _
    · exact Frame.refl _ _
  · exact Frame.refl _ _

theorem State.dropCollections_frame (s : State) (p : ℕ → Bool) :
    Frame [.near] s (State.dropCollections s p) := by
  unfold State.dropCollections
  refine Frame.setNear (by decide) ?_
  exact Frame.refl _ _

theorem State.resetFn_frame (s : State) (fn : ℕ) :
    Frame [.kettle, .host] s (State.resetFn s fn) := by
  unfold State.resetFn
  extract_lets +onlyGivenNames  mine
  refine Frame.upd rfl ?_ (by intro p hp; cases p <;> first | exact absurd (by decide) hp | rfl) (fun h => h)
  exact Frame.refl _ _

theorem State.resetModes_frame (s : State) :
    Frame [.regs, .arb] s (State.resetModes s) := by
  unfold State.resetModes
  extract_lets +onlyGivenNames s1
  have h_s1 : Frame [.regs, .arb] s s1 := by
    unfold s1
    refine Frame.then (State.fset_frame _ _ _ _) (by decide) ?_
    refine Frame.then (State.fset_frame _ _ _ _) (by decide) ?_
    refine Frame.then (State.fset_frame _ _ _ _) (by decide) ?_
    exact Frame.refl _ _
  try clear_value s1
  extract_lets +onlyGivenNames s2
  have h_s2 : Frame [.regs, .arb] s s2 := by
    unfold s2
    refine Frame.then (State.fset64_frame _ _ _ _ _) (by decide) ?_
    refine Frame.then (State.fset_frame _ _ _ _) (by decide) ?_
    assumption
  try clear_value s2
  extract_lets +onlyGivenNames s3
  have h_s3 : Frame [.regs, .arb] s s3 := by
    unfold s3
    refine Frame.then (State.fset_frame _ _ _ _) (by decide) ?_
    refine Frame.then (State.fset_frame _ _ _ _) (by decide) ?_
    refine Frame.then (State.fset64_frame _ _ _ _ _) (by decide) ?_
    assumption
  try clear_value s3
  extract_lets +onlyGivenNames s4
  have h_s4 : Frame [.regs, .arb] s s4 := by
    unfold s4
    refine Frame.then (State.fset_frame _ _ _ _) (by decide) ?_
    refine Frame.then (State.fset_frame _ _ _ _) (by decide) ?_
    assumption
  try clear_value s4
  refine Frame.setArb (by decide) ?_
  assumption

theorem State.controllerReset_frame (s : State) :
    Frame [.regs, .freeCount, .reg, .power, .arb, .kettle, .boot, .host, .cp, .units, .tiers, .ftl, .near, .hbm, .sb, .hostMem, .image] s (State.controllerReset s) := by
  unfold State.controllerReset
  extract_lets +onlyGivenNames fns; try clear_value fns
  extract_lets +onlyGivenNames s1
  have h_s1 : Frame [.regs, .freeCount, .reg, .power, .arb, .kettle, .boot, .host, .cp, .units, .tiers, .ftl, .near, .hbm, .sb, .hostMem, .image] s s1 := by
    unfold s1
    refine Frame.then (State.dropCollections_frame _ _) (by decide) ?_
    refine Frame.foldl ?_ ?_ _
    · intro t fn
      beta_reduce
      beta_reduce
      refine Frame.then (State.resetFn_frame _ _) (by decide) ?_
      exact Frame.refl _ _
    · refine Frame.then (State.dropCtxs_frame _) (by decide) ?_
      exact Frame.refl _ _
  try clear_value s1
  extract_lets +onlyGivenNames -merge src s2
  have h_s2 : Frame [.regs, .freeCount, .reg, .power, .arb, .kettle, .boot, .host, .cp, .units, .tiers, .ftl, .near, .hbm, .sb, .hostMem, .image] s s2 := by
    unfold s2
    refine Frame.setHost (by decide) ?_
    assumption
  try clear_value s2
  extract_lets +onlyGivenNames s3
  have h_s3 : Frame [.regs, .freeCount, .reg, .power, .arb, .kettle, .boot, .host, .cp, .units, .tiers, .ftl, .near, .hbm, .sb, .hostMem, .image] s s3 := by
    unfold s3
    refine Frame.then (State.fset_frame _ _ _ _) (by decide) ?_
    refine Frame.then (State.fset_frame _ _ _ _) (by decide) ?_
    refine Frame.then (State.fset_frame _ _ _ _) (by decide) ?_
    assumption
  try clear_value s3
  extract_lets +onlyGivenNames s4
  have h_s4 : Frame [.regs, .freeCount, .reg, .power, .arb, .kettle, .boot, .host, .cp, .units, .tiers, .ftl, .near, .hbm, .sb, .hostMem, .image] s s4 := by
    unfold s4
    refine Frame.then (State.fset_frame _ _ _ _) (by decide) ?_
    refine Frame.then (State.clearPage_frame _ _ _) (by decide) ?_
    assumption
  try clear_value s4
  refine Frame.then (State.driveOp_frame _) (by decide) ?_
  refine Frame.then (State.startUnits_frame _) (by decide) ?_
  refine Frame.then (State.dropImage_frame _) (by decide) ?_
  refine Frame.then (State.resetModes_frame _) (by decide) ?_
  assumption

theorem State.dropFnCtxs_frame (s : State) (fn : ℕ) :
    Frame [.regs, .freeCount, .arb, .host, .cp, .units, .tiers, .ftl, .near, .hbm, .sb, .hostMem] s (State.dropFnCtxs s fn) := by
  unfold State.dropFnCtxs
  refine Frame.foldl ?_ ?_ _
  · intro t c
    beta_reduce
    beta_reduce
    refine Frame.then (State.dropCtx_frame _ _) (by decide) ?_
    exact Frame.refl _ _
  · exact Frame.refl _ _

theorem State.fnReset_frame (s : State) (fn : ℕ) :
    Frame [.regs, .freeCount, .reg, .arb, .kettle, .host, .cp, .units, .tiers, .ftl, .near, .hbm, .sb, .hostMem] s (State.fnReset s fn) := by
  unfold State.fnReset
  extract_lets +onlyGivenNames s1
  have h_s1 : Frame [.regs, .freeCount, .reg, .arb, .kettle, .host, .cp, .units, .tiers, .ftl, .near, .hbm, .sb, .hostMem] s s1 := by
    unfold s1
    refine Frame.then (State.startUnits_frame _) (by decide) ?_
    refine Frame.then (State.dropCollections_frame _ _) (by decide) ?_
    refine Frame.then (State.resetFn_frame _ _) (by decide) ?_
    refine Frame.then (State.dropFnCtxs_frame _ _) (by decide) ?_
    exact Frame.refl _ _
  try clear_value s1
  refine Frame.setCp (by decide) ?_
  assumption

theorem State.kettleReset_frame (s : State) :
    Frame [.regs, .tick, .reg, .power, .kettle, .boot, .host, .units, .tiers, .time, .nand, .rel] s (State.kettleReset s) := by
  unfold State.kettleReset
  extract_lets +onlyGivenNames s1
  have h_s1 : Frame [.regs, .tick, .reg, .power, .kettle, .boot, .host, .units, .tiers, .time, .nand, .rel] s s1 := by
    unfold s1
    refine Frame.foldl ?_ ?_ _
    · intro t c
      beta_reduce
      beta_reduce
      refine Frame.foldl ?_ ?_ _
      · intro t i
        beta_reduce
        beta_reduce
        refine Frame.then (State.fset_frame _ _ _ _) (by decide) ?_
        exact Frame.refl _ _
      · exact Frame.refl _ _
    · refine Frame.then (State.fset_frame _ _ _ _) (by decide) ?_
      refine Frame.then (State.clearPage_frame _ _ _) (by decide) ?_
      refine Frame.then (State.resetPages_frame _ _) (by decide) ?_
      exact Frame.refl _ _
  try clear_value s1
  refine Frame.upd rfl ?_ (by intro p hp; cases p <;> first | exact absurd (by decide) hp | rfl) (fun h => h)
  assumption

end Sys2Proof.Machine
end

