-- ==== Sys2Proof/Laws/KettleFrame.lean ====
section
/-!
SUPPORT. What each operation of Machine/Kettle.lean can change: the parts of the state its frame names, canonical form kept.
-/

namespace Sys2Proof.Machine

theorem State.thermalTrip_frame (s : State) (n : ℕ) :
    Frame [.regs, .reg, .power, .arb, .kettle, .host, .units] s (State.thermalTrip s n) := by
  unfold State.thermalTrip
  extract_lets +onlyGivenNames -merge src s1
  have h_s1 : Frame [.regs, .reg, .power, .arb, .kettle, .host, .units] s s1 := by
    unfold s1
    refine Frame.setPower (by decide) ?_
    exact Frame.refl _ _
  try clear_value s1
  extract_lets +onlyGivenNames s2
  have h_s2 : Frame [.regs, .reg, .power, .arb, .kettle, .host, .units] s s2 := by
    unfold s2
    refine Frame.then (State.fbump_frame _ _ _ _) (by decide) ?_
    refine Frame.then (State.fset_frame _ _ _ _) (by decide) ?_
    refine Frame.then (State.fset_frame _ _ _ _) (by decide) ?_
    assumption
  try clear_value s2
  refine Frame.then (State.driveOp_frame _) (by decide) ?_
  refine Frame.then (State.pldmEvent_frame _ _) (by decide) ?_
  refine Frame.then (State.recEv_frame _ _ _ _ _ _ _ _) (by decide) ?_
  refine Frame.then (State.err_frame _ _ _ _ _ _ _) (by decide) ?_
  assumption

theorem State.thermalShutdown_frame (s : State) (n : ℕ) :
    Frame [.regs, .freeCount, .reg, .power, .arb, .kettle, .boot, .host, .cp, .units, .tiers, .time, .ftl, .nand, .near, .snilo, .hbm, .sb, .hostMem, .image, .pages] s (State.thermalShutdown s n) := by
  unfold State.thermalShutdown
  extract_lets +onlyGivenNames s1
  have h_s1 : Frame [.regs, .freeCount, .reg, .power, .arb, .kettle, .boot, .host, .cp, .units, .tiers, .time, .ftl, .nand, .near, .snilo, .hbm, .sb, .hostMem, .image, .pages] s s1 := by
    unfold s1
    refine Frame.then (State.err_frame _ _ _ _ _ _ _) (by decide) ?_
    refine Frame.then (State.fbump_frame _ _ _ _) (by decide) ?_
    refine Frame.then (State.powerDown_frame _ _) (by decide) ?_
    refine Frame.then (State.stopRamp_frame _) (by decide) ?_
    exact Frame.refl _ _
  try clear_value s1
  extract_lets +onlyGivenNames s2
  have h_s2 : Frame [.regs, .freeCount, .reg, .power, .arb, .kettle, .boot, .host, .cp, .units, .tiers, .time, .ftl, .nand, .near, .snilo, .hbm, .sb, .hostMem, .image, .pages] s s2 := by
    unfold s2
    refine Frame.then (State.pldmEvent_frame _ _) (by decide) ?_
    refine Frame.then (State.ringNow_frame _ _ _ _ _) (by decide) ?_
    assumption
  try clear_value s2
  extract_lets +onlyGivenNames s3
  have h_s3 : Frame [.regs, .freeCount, .reg, .power, .arb, .kettle, .boot, .host, .cp, .units, .tiers, .time, .ftl, .nand, .near, .snilo, .hbm, .sb, .hostMem, .image, .pages] s s3 := by
    unfold s3
    refine Frame.then (State.persist_frame _ _) (by decide) ?_
    refine Frame.then (State.freeze_frame _ _) (by decide) ?_
    apply Frame.ite
    · refine Frame.then (State.stagingFlush_frame _) (by decide) ?_
      assumption
    · assumption
  try clear_value s3
  extract_lets +onlyGivenNames s4
  have h_s4 : Frame [.regs, .freeCount, .reg, .power, .arb, .kettle, .boot, .host, .cp, .units, .tiers, .time, .ftl, .nand, .near, .snilo, .hbm, .sb, .hostMem, .image, .pages] s s4 := by
    unfold s4
    refine Frame.then (State.planeReset_frame _) (by decide) ?_
    assumption
  try clear_value s4
  extract_lets +onlyGivenNames src
  have h_src : Frame [.regs, .freeCount, .reg, .power, .arb, .kettle, .boot, .host, .cp, .units, .tiers, .time, .ftl, .nand, .near, .snilo, .hbm, .sb, .hostMem, .image, .pages] s src := by
    unfold src
    refine Frame.then (State.fset_frame _ _ _ _) (by decide) ?_
    assumption
  try clear_value src
  refine Frame.setPower (by decide) ?_
  assumption

theorem State.checkThermal_frame (s : State) :
    Frame [.regs, .freeCount, .reg, .power, .arb, .kettle, .boot, .host, .cp, .units, .tiers, .time, .ftl, .nand, .near, .snilo, .hbm, .sb, .hostMem, .image, .pages] s (State.checkThermal s) := by
  unfold State.checkThermal
  extract_lets +onlyGivenNames k cool; try clear_value k cool
  extract_lets +onlyGivenNames -merge src src1 s1
  have h_src : Frame [.regs, .freeCount, .reg, .power, .arb, .kettle, .boot, .host, .cp, .units, .tiers, .time, .ftl, .nand, .near, .snilo, .hbm, .sb, .hostMem, .image, .pages] s src := by
    unfold src
    refine Frame.then (State.fset_frame _ _ _ _) (by decide) ?_
    exact Frame.refl _ _
  try clear_value src
  have h_s1 : Frame [.regs, .freeCount, .reg, .power, .arb, .kettle, .boot, .host, .cp, .units, .tiers, .time, .ftl, .nand, .near, .snilo, .hbm, .sb, .hostMem, .image, .pages] s s1 := by
    unfold s1
    refine Frame.setPower (by decide) ?_
    assumption
  try clear_value s1
  extract_lets +onlyGivenNames s2
  have h_s2 : Frame [.regs, .freeCount, .reg, .power, .arb, .kettle, .boot, .host, .cp, .units, .tiers, .time, .ftl, .nand, .near, .snilo, .hbm, .sb, .hostMem, .image, .pages] s s2 := by
    unfold s2
    split
    · apply Frame.ite
      · assumption
      · refine Frame.then (State.thermalTrip_frame _ _) (by decide) ?_
        assumption
    · assumption
  try clear_value s2
  extract_lets +onlyGivenNames s3
  have h_s3 : Frame [.regs, .freeCount, .reg, .power, .arb, .kettle, .boot, .host, .cp, .units, .tiers, .time, .ftl, .nand, .near, .snilo, .hbm, .sb, .hostMem, .image, .pages] s s3 := by
    unfold s3
    refine Frame.then (State.fset_frame _ _ _ _) (by decide) ?_
    assumption
  try clear_value s3
  extract_lets +onlyGivenNames s4
  have h_s4 : Frame [.regs, .freeCount, .reg, .power, .arb, .kettle, .boot, .host, .cp, .units, .tiers, .time, .ftl, .nand, .near, .snilo, .hbm, .sb, .hostMem, .image, .pages] s s4 := by
    unfold s4
    refine Frame.then (State.driveOp_frame _) (by decide) ?_
    refine Frame.then (State.trackOp5_frame _) (by decide) ?_
    assumption
  try clear_value s4
  extract_lets +onlyGivenNames s5
  have h_s5 : Frame [.regs, .freeCount, .reg, .power, .arb, .kettle, .boot, .host, .cp, .units, .tiers, .time, .ftl, .nand, .near, .snilo, .hbm, .sb, .hostMem, .image, .pages] s s5 := by
    unfold s5
    refine Frame.foldl ?_ ?_ _
    · intro t fn
      beta_reduce
      beta_reduce
      apply Frame.ite
      · refine Frame.then (State.aerWarn_frame _ _ _) (by decide) ?_
        exact Frame.refl _ _
      · exact Frame.refl _ _
    · assumption
  try clear_value s5
  split
  · apply Frame.ite
    · assumption
    · refine Frame.then (State.thermalShutdown_frame _ _) (by decide) ?_
      assumption
  · assumption

theorem State.sampleOne_frame (s : State) (x : ℕ × ℤ × Bool) :
    Frame [.regs, .reg, .arb, .kettle, .host, .units] s (State.sampleOne s x) := by
  unfold State.sampleOne
  extract_lets +onlyGivenNames n; try clear_value n
  apply Frame.ite
  · exact Frame.refl _ _
  · apply Frame.ite
    · refine Frame.setKettle (by decide) ?_
      exact Frame.refl _ _
    · apply Frame.ite
      · exact Frame.refl _ _
      · extract_lets +onlyGivenNames -merge src s1
        have h_s1 : Frame [.regs, .reg, .arb, .kettle, .host, .units] s s1 := by
          unfold s1
          refine Frame.setKettle (by decide) ?_
          exact Frame.refl _ _
        try clear_value s1
        refine Frame.then (State.pldmEvent_frame _ _) (by decide) ?_
        refine Frame.then (State.recEv_frame _ _ _ _ _ _ _ _) (by decide) ?_
        refine Frame.then (State.err_frame _ _ _ _ _ _ _) (by decide) ?_
        assumption

theorem State.takeSamples_frame (s : State) (vals : List (ℕ × ℤ × Bool)) (idle : List ℕ) :
    Frame [.regs, .reg, .power, .arb, .kettle, .host, .units] s (State.takeSamples s vals idle) := by
  unfold State.takeSamples
  extract_lets +onlyGivenNames s1
  have h_s1 : Frame [.regs, .reg, .power, .arb, .kettle, .host, .units] s s1 := by
    unfold s1
    refine Frame.foldl ?_ ?_ _
    · intro t x
      beta_reduce
      refine Frame.then (State.sampleOne_frame _ _) (by decide) ?_
      exact Frame.refl _ _
    · exact Frame.refl _ _
  try clear_value s1
  extract_lets +onlyGivenNames mw; try clear_value mw
  extract_lets +onlyGivenNames s2
  have h_s2 : Frame [.regs, .reg, .power, .arb, .kettle, .host, .units] s s2 := by
    unfold s2
    refine Frame.then (State.fset_frame _ _ _ _) (by decide) ?_
    refine Frame.then (State.fset_frame _ _ _ _) (by decide) ?_
    assumption
  try clear_value s2
  extract_lets +onlyGivenNames hot; try clear_value hot
  refine Frame.upd rfl ?_ (by intro p hp; cases p <;> first | exact absurd (by decide) hp | rfl) (fun h => h)
  assumption

theorem State.setCeiling_frame (s : State) (p : ℕ) (unmet : ℕ) :
    Frame [.regs, .reg, .kettle] s (State.setCeiling s p unmet) := by
  unfold State.setCeiling
  extract_lets +onlyGivenNames s1
  have h_s1 : Frame [.regs, .reg, .kettle] s s1 := by
    unfold s1
    refine Frame.then (State.fset_frame _ _ _ _) (by decide) ?_
    refine Frame.then (State.fset_frame _ _ _ _) (by decide) ?_
    exact Frame.refl _ _
  try clear_value s1
  extract_lets +onlyGivenNames s2
  have h_s2 : Frame [.regs, .reg, .kettle] s s2 := by
    unfold s2
    refine Frame.then (State.recEv_frame _ _ _ _ _ _ _ _) (by decide) ?_
    assumption
  try clear_value s2
  refine Frame.setKettle (by decide) ?_
  assumption

theorem State.setCap_frame (s : State) (v : ℕ) :
    Frame [.regs, .power, .kettle] s (State.setCap s v) := by
  unfold State.setCap
  extract_lets +onlyGivenNames s1
  have h_s1 : Frame [.regs, .power, .kettle] s s1 := by
    unfold s1
    refine Frame.then (State.fset_frame _ _ _ _) (by decide) ?_
    exact Frame.refl _ _
  try clear_value s1
  apply Frame.ite
  · refine Frame.then (State.driveOp_frame _) (by decide) ?_
    refine Frame.then (State.fset_frame _ _ _ _) (by decide) ?_
    refine Frame.then (State.fset_frame _ _ _ _) (by decide) ?_
    assumption
  · apply Frame.ite
    · extract_lets +onlyGivenNames s2
      have h_s2 : Frame [.regs, .power, .kettle] s s2 := by
        unfold s2
        refine Frame.then (State.fset_frame _ _ _ _) (by decide) ?_
        refine Frame.then (State.fset_frame _ _ _ _) (by decide) ?_
        assumption
      try clear_value s2
      refine Frame.then (State.driveOp_frame _) (by decide) ?_
      refine Frame.setKettle (by decide) ?_
      assumption
    · assumption

theorem State.sampleLines_frame (s : State) (hs : List (ℕ × ℕ × ℕ)) (inv : Bool) :
    Frame [.kettle] s (State.sampleLines s hs inv) := by
  unfold State.sampleLines
  extract_lets +onlyGivenNames k ctxs; try clear_value k ctxs
  extract_lets +onlyGivenNames  own
  extract_lets +onlyGivenNames total shared; try clear_value total shared
  extract_lets +onlyGivenNames -merge src back
  try clear_value back
  extract_lets +onlyGivenNames input work dev now device host bg l1 l2 lines; try clear_value input work dev now device host bg l1 l2 lines
  refine Frame.setKettle (by decide) ?_
  exact Frame.refl _ _

theorem State.floorAnswer_frame (s : State) (w : CmdId × Bool × ℕ × ℕ) :
    Frame [.reg, .arb, .kettle, .host, .units] s (State.floorAnswer s w) := by
  unfold State.floorAnswer
  extract_lets +onlyGivenNames lines; try clear_value lines
  extract_lets +onlyGivenNames -merge src s1
  have h_s1 : Frame [.reg, .arb, .kettle, .host, .units] s s1 := by
    unfold s1
    refine Frame.setKettle (by decide) ?_
    exact Frame.refl _ _
  try clear_value s1
  refine Frame.then (State.succeed_frame _ _ _ _) (by decide) ?_
  assumption

end Sys2Proof.Machine
end

