-- ==== Sys2Proof/Laws/NandFrame.lean ====
section
/-!
SUPPORT. What each operation of Machine/Nand.lean can change: the parts of the state its frame names, canonical form kept.
-/

namespace Sys2Proof.Machine

theorem State.abandon_frame (s : State) (c : ℕ) :
    Frame [.ftl] s (State.abandon s c) := by
  unfold State.abandon
  extract_lets +onlyGivenNames s1
  have h_s1 : Frame [.ftl] s s1 := by
    unfold s1
    refine Frame.foldl ?_ ?_ _
    · intro t tk
      beta_reduce
      beta_reduce
      split
      · refine Frame.setFtl (by decide) ?_
        exact Frame.refl _ _
      · exact Frame.refl _ _
    · exact Frame.refl _ _
  try clear_value s1
  refine Frame.setFtl (by decide) ?_
  assumption

theorem State.closeSb_frame (s : State) (c : ℕ) (stream : ℕ) (b : ℕ) :
    Frame [.ftl, .nand] s (State.closeSb s c stream b) := by
  unfold State.closeSb
  extract_lets +onlyGivenNames ls; try clear_value ls
  extract_lets +onlyGivenNames s1
  have h_s1 : Frame [.ftl, .nand] s s1 := by
    unfold s1
    refine Frame.foldl ?_ ?_ _
    · intro t l
      beta_reduce
      beta_reduce
      refine Frame.then (State.closeStripe_frame _ _ _) (by decide) ?_
      exact Frame.refl _ _
    · exact Frame.refl _ _
  try clear_value s1
  refine Frame.setFtl (by decide) ?_
  assumption

theorem State.closeAll_frame (s : State) (c : ℕ) :
    Frame [.ftl, .nand] s (State.closeAll s c) := by
  unfold State.closeAll
  refine Frame.foldl ?_ ?_ _
  · intro t k
    beta_reduce
    beta_reduce
    split
    · refine Frame.then (State.closeSb_frame _ _ _ _) (by decide) ?_
      exact Frame.refl _ _
    · exact Frame.refl _ _
  · exact Frame.refl _ _

theorem State.unplace_frame (s : State) (p : ℕ → Bool) :
    Frame [.ftl] s (State.unplace s p) := by
  unfold State.unplace
  refine Frame.setFtl (by decide) ?_
  exact Frame.refl _ _

theorem State.condemn_frame (s : State) (c : ℕ) (d : ℕ) :
    Frame [.nand] s (State.condemn s c d) := by
  unfold State.condemn
  apply Frame.ite
  · exact Frame.refl _ _
  · refine Frame.setNand (by decide) ?_
    exact Frame.refl _ _

theorem State.flashStatus_frame (s : State) (l : ℕ) (st : ℕ) (inj : Bool) :
    Frame [.regs, .reg, .kettle] s (State.flashStatus s l st inj) := by
  unfold State.flashStatus
  extract_lets +onlyGivenNames c b; try clear_value c b
  apply Frame.ite
  · exact Frame.refl _ _
  · refine Frame.then (State.recEv_frame _ _ _ _ _ _ _ _) (by decide) ?_
    exact Frame.refl _ _

theorem State.setDieOp_frame (s : State) (c : ℕ) (d : ℕ) (o : Option DieOp) :
    Frame [.nand] s (State.setDieOp s c d o) := by
  unfold State.setDieOp
  refine Frame.setNand (by decide) ?_
  exact Frame.refl _ _

theorem State.markBad_frame (s : State) (k : ℕ) :
    Frame [.regs, .freeCount, .reg, .ftl, .nand, .pages] s (State.markBad s k) := by
  unfold State.markBad
  extract_lets +onlyGivenNames l die n; try clear_value l die n
  extract_lets +onlyGivenNames -merge src s1
  have h_s1 : Frame [.regs, .freeCount, .reg, .ftl, .nand, .pages] s s1 := by
    unfold s1
    refine Frame.then (State.flush_frame _) (by decide) ?_
    refine Frame.then (State.setBlock_frame _ _ _) (by decide) ?_
    exact Frame.refl _ _
  try clear_value s1
  extract_lets +onlyGivenNames -merge src src1 s2
  have h_s2 : Frame [.regs, .freeCount, .reg, .ftl, .nand, .pages] s s2 := by
    unfold s2
    refine Frame.upd rfl ?_ (by intro p hp; cases p <;> first | exact absurd (by decide) hp | rfl) (fun h => ⟨h.1, h.2.1, h.2.2.1, h.2.2.2.1, h.2.2.2.2⟩)
    assumption
  try clear_value s2
  refine Frame.then (State.refreshMargin_frame _) (by decide) ?_
  apply Frame.ite
  · refine Frame.then (State.condemn_frame _ _ _) (by decide) ?_
    assumption
  · assumption

theorem State.eraseBlock_frame (s : State) (k : ℕ) :
    Frame [.ftl, .nand, .pages] s (State.eraseBlock s k) := by
  unfold State.eraseBlock
  extract_lets +onlyGivenNames s1
  have h_s1 : Frame [.ftl, .nand, .pages] s s1 := by
    unfold s1
    refine Frame.then (State.setBlock_frame _ _ _) (by decide) ?_
    exact Frame.refl _ _
  try clear_value s1
  refine Frame.upd rfl ?_ (by intro p hp; cases p <;> first | exact absurd (by decide) hp | rfl) (fun h => ⟨h.1, h.2.1, h.2.2.1, h.2.2.2.1, h.2.2.2.2⟩)
  assumption

theorem State.countErase_frame (s : State) (c : ℕ) (b : ℕ) :
    Frame [.ftl, .nand] s (State.countErase s c b) := by
  unfold State.countErase
  extract_lets +onlyGivenNames  gone
  apply Frame.ite
  · refine Frame.upd rfl ?_ (by intro p hp; cases p <;> first | exact absurd (by decide) hp | rfl) (fun h => h)
    exact Frame.refl _ _
  · exact Frame.refl _ _

theorem State.settleBad_frame (s : State) :
    Frame [.regs, .freeCount, .reg, .ftl, .nand, .pages] s (State.settleBad s) := by
  unfold State.settleBad
  refine Frame.foldl ?_ ?_ _
  · intro t k
    beta_reduce
    beta_reduce
    refine Frame.then (State.markBad_frame _ _) (by decide) ?_
    exact Frame.refl _ _
  · exact Frame.refl _ _

theorem State.failProgram_frame (s : State) (c : ℕ) (d : ℕ) (key : ℕ) (l : ℕ) (mine : ℕ → Bool) :
    Frame [.regs, .freeCount, .reg, .kettle, .ftl, .nand, .pages] s (State.failProgram s c d key l mine) := by
  unfold State.failProgram
  extract_lets +onlyGivenNames -merge src s1
  have h_s1 : Frame [.regs, .freeCount, .reg, .kettle, .ftl, .nand, .pages] s s1 := by
    unfold s1
    refine Frame.then (State.setDieOp_frame _ _ _ _) (by decide) ?_
    refine Frame.then (State.setBlock_frame _ _ _) (by decide) ?_
    refine Frame.then (State.flashStatus_frame _ _ _ _) (by decide) ?_
    exact Frame.refl _ _
  try clear_value s1
  extract_lets +onlyGivenNames -merge src src1 s2
  have h_s2 : Frame [.regs, .freeCount, .reg, .kettle, .ftl, .nand, .pages] s s2 := by
    unfold s2
    refine Frame.upd rfl ?_ (by intro p hp; cases p <;> first | exact absurd (by decide) hp | rfl) (fun h => ⟨h.1, h.2.1, h.2.2.1, h.2.2.2.1, h.2.2.2.2⟩)
    assumption
  try clear_value s2
  refine Frame.then (State.settleBad_frame _) (by decide) ?_
  refine Frame.then (State.closeSb_frame _ _ _ _) (by decide) ?_
  assumption

theorem State.suspendFor_frame (s : State) (c : ℕ) (d : ℕ) :
    ∀ u, @State.suspendFor s c d = some u → Frame [.nand] s u := by
  unfold State.suspendFor
  split
  · intro u hu; cases hu
    exact Frame.refl _ _
  · refine Frame.iteOpt ?_ ?_
    · intro u hu; cases hu
      exact Frame.refl _ _
    · refine Frame.iteOpt ?_ ?_
      · intro u hu; cases hu
        refine Frame.then (State.setDieOp_frame _ _ _ _) (by decide) ?_
        exact Frame.refl _ _
      · intros; contradiction

theorem State.report_frame (s : State) (k : ℕ) :
    Frame [.ftl] s (State.report s k) := by
  unfold State.report
  apply Frame.ite
  · exact Frame.refl _ _
  · refine Frame.setFtl (by decide) ?_
    exact Frame.refl _ _

theorem State.countRead_frame (s : State) (k : ℕ) :
    Frame [.ftl, .nand] s (State.countRead s k) := by
  unfold State.countRead
  extract_lets +onlyGivenNames b; try clear_value b
  extract_lets +onlyGivenNames s1
  have h_s1 : Frame [.ftl, .nand] s s1 := by
    unfold s1
    refine Frame.then (State.setBlock_frame _ _ _) (by decide) ?_
    exact Frame.refl _ _
  try clear_value s1
  apply Frame.ite
  · refine Frame.then (State.report_frame _ _) (by decide) ?_
    assumption
  · assumption

theorem State.suspect_frame (s : State) (l : ℕ) (bad : Bool) :
    Frame [.ftl] s (State.suspect s l bad) := by
  unfold State.suspect
  split
  · exact Frame.refl _ _
  · extract_lets +onlyGivenNames e; try clear_value e
    apply Frame.ite
    · refine Frame.setFtl (by decide) ?_
      exact Frame.refl _ _
    · apply Frame.ite
      · refine Frame.then (State.setMap_frame _ _ _ _) (by decide) ?_
        exact Frame.refl _ _
      · apply Frame.ite
        · refine Frame.then (State.report_frame _ _) (by decide) ?_
          refine Frame.then (State.setMap_frame _ _ _ _) (by decide) ?_
          exact Frame.refl _ _
        · exact Frame.refl _ _

theorem State.countOwn_frame (s : State) (c : ℕ) :
    Frame [.regs, .reg, .kettle] s (State.countOwn s c) := by
  unfold State.countOwn
  refine Frame.then (State.work_frame _ _ _ _) (by decide) ?_
  refine Frame.then (State.count_frame _ _ _ _ _) (by decide) ?_
  refine Frame.then (State.fset64_frame _ _ _ _ _) (by decide) ?_
  exact Frame.refl _ _

theorem State.setOffset_frame (s : State) (c : ℕ) (d : ℕ) (b : ℕ) (v : ℕ) :
    Frame [.nand] s (State.setOffset s c d b v) := by
  unfold State.setOffset
  refine Frame.setNand (by decide) ?_
  exact Frame.refl _ _

theorem State.countStep6_frame (s : State) (l : ℕ) :
    Frame [.nand] s (State.countStep6 s l) := by
  unfold State.countStep6
  extract_lets +onlyGivenNames die wl old; try clear_value die wl old
  extract_lets +onlyGivenNames -merge src s1
  have h_s1 : Frame [.nand] s s1 := by
    unfold s1
    refine Frame.setNand (by decide) ?_
    exact Frame.refl _ _
  try clear_value s1
  apply Frame.ite
  · refine Frame.then (State.condemn_frame _ _ _) (by decide) ?_
    assumption
  · assumption

theorem State.copyPage_frame (s : State) (iu : ℕ) (src : ℕ) (dest : ℕ) :
    ∀ u, @State.copyPage s iu src dest = some u → Frame [.regs, .freeCount, .reg, .kettle, .ftl, .nand, .pages] s u := by
  unfold State.copyPage
  refine Frame.iteOpt ?_ ?_
  · intro u hu; cases hu
    refine Frame.then (State.suspect_frame _ _ _) (by decide) ?_
    exact Frame.refl _ _
  · split
    · extract_lets +onlyGivenNames q; try clear_value q
      extract_lets +onlyGivenNames s2
      have h_s2 : Frame [.regs, .freeCount, .reg, .kettle, .ftl, .nand, .pages] s s2 := by
        unfold s2
        refine Frame.then (State.countOwn_frame _ _) (by decide) ?_
        refine Frame.then (State.allocLoc_frame _ _ _ _ _ (by assumption)) (by decide) ?_
        exact Frame.refl _ _
      try clear_value s2
      extract_lets +onlyGivenNames -merge src src1 s3
      have h_s3 : Frame [.regs, .freeCount, .reg, .kettle, .ftl, .nand, .pages] s s3 := by
        unfold s3
        refine Frame.upd rfl ?_ (by intro p hp; cases p <;> first | exact absurd (by decide) hp | rfl) (fun h => ⟨h.1, h.2.1, h.2.2.1, h.2.2.2.1, h.2.2.2.2⟩)
        assumption
      try clear_value s3
      extract_lets +onlyGivenNames s4
      have h_s4 : Frame [.regs, .freeCount, .reg, .kettle, .ftl, .nand, .pages] s s4 := by
        unfold s4
        refine Frame.then (State.count_frame _ _ _ _ _) (by decide) ?_
        refine Frame.then (State.closeStripe_frame _ _ _) (by decide) ?_
        refine Frame.then (State.advanceBlock_frame _ _ _) (by decide) ?_
        assumption
      try clear_value s4
      extract_lets +onlyGivenNames e inMap inVer; try clear_value e inMap inVer
      extract_lets +onlyGivenNames s5
      have h_s5 : Frame [.regs, .freeCount, .reg, .kettle, .ftl, .nand, .pages] s s5 := by
        unfold s5
        apply Frame.ite
        · refine Frame.then (State.setMap_frame _ _ _ _) (by decide) ?_
          assumption
        · assumption
      try clear_value s5
      extract_lets +onlyGivenNames vs; try clear_value vs
      extract_lets +onlyGivenNames -merge src s6
      have h_s6 : Frame [.regs, .freeCount, .reg, .kettle, .ftl, .nand, .pages] s s6 := by
        unfold s6
        refine Frame.setFtl (by decide) ?_
        assumption
      try clear_value s6
      intro u hu; cases hu
      apply Frame.ite
      · refine Frame.then (State.count_frame _ _ _ _ _) (by decide) ?_
        assumption
      · assumption
    · intros; contradiction

theorem State.dropPackage_frame (s : State) (c : ℕ) :
    Frame [.regs, .freeCount, .reg, .arb, .kettle, .eflash, .host, .units, .ftl] s (State.dropPackage s c) := by
  unfold State.dropPackage
  extract_lets +onlyGivenNames s1
  have h_s1 : Frame [.regs, .freeCount, .reg, .arb, .kettle, .eflash, .host, .units, .ftl] s s1 := by
    unfold s1
    refine Frame.then (State.recordRetirement_frame _ _ _ _) (by decide) ?_
    exact Frame.refl _ _
  try clear_value s1
  extract_lets +onlyGivenNames -merge src s2
  have h_s2 : Frame [.regs, .freeCount, .reg, .arb, .kettle, .eflash, .host, .units, .ftl] s s2 := by
    unfold s2
    refine Frame.setFtl (by decide) ?_
    assumption
  try clear_value s2
  refine Frame.then (State.flush_frame _) (by decide) ?_
  refine Frame.then (State.refreshMargin_frame _) (by decide) ?_
  refine Frame.then (State.smartAdd_frame _ _ _) (by decide) ?_
  apply Frame.ite
  · refine Frame.then (State.abandon_frame _ _) (by decide) ?_
    assumption
  · assumption

theorem State.moveTier_frame (s : State) (tk dest : ℕ) :
    ∀ u, State.moveTier s tk dest = some u → Frame [.regs, .freeCount, .reg, .kettle, .ftl, .nand, .pages] s u := by
  have h : ∀ (ps : List (ℕ × ℕ)) (o : Option State) (u : State), (∀ v, o = some v → Frame [.regs, .freeCount, .reg, .kettle, .ftl, .nand, .pages] s v) →
      ps.foldl (fun (t : Option State) p => t.bind fun u => u.copyPage p.1 p.2 dest) o = some u →
      Frame [.regs, .freeCount, .reg, .kettle, .ftl, .nand, .pages] s u := by
    intro ps
    induction ps with
    | nil => intro o u ho hu; exact ho u hu
    | cons p ps ih =>
      intro o u ho hu
      refine ih _ u ?_ hu
      intro v hv
      cases o with
      | none => cases hv
      | some w => exact Frame.then (State.copyPage_frame _ _ _ _ _ hv) (by decide) (ho w rfl)
  intro u hu
  unfold State.moveTier at hu
  extract_lets ps at hu
  obtain ⟨t, ht, rfl⟩ := Option.map_eq_some_iff.mp hu
  refine Frame.then (State.flush_frame _) (by decide) ?_
  refine Frame.setFtl (by decide) ?_
  exact h _ _ _ (fun v hv => by cases hv; exact Frame.refl _ _) ht

end Sys2Proof.Machine
end

