-- ==== Sys2Proof/Laws/StartFrame.lean ====
section
/-!
SUPPORT. What each operation of Machine/Start.lean can change: the parts of the state its frame names, canonical form kept.
-/

namespace Sys2Proof.Machine

theorem State.brownOutSeq_frame (s : State) (mv : ℕ) (whole : Bool) :
    Frame [.regs, .freeCount, .reg, .power, .arb, .kettle, .boot, .host, .cp, .units, .tiers, .time, .ftl, .nand, .near, .snilo, .hbm, .sb, .hostMem, .image, .pages] s (State.brownOutSeq s mv whole) := by
  unfold State.brownOutSeq
  apply Frame.ite
  · exact Frame.refl _ _
  · extract_lets +onlyGivenNames c; try clear_value c
    extract_lets +onlyGivenNames s1
    have h_s1 : Frame [.regs, .freeCount, .reg, .power, .arb, .kettle, .boot, .host, .cp, .units, .tiers, .time, .ftl, .nand, .near, .snilo, .hbm, .sb, .hostMem, .image, .pages] s s1 := by
      unfold s1
      apply Frame.ite
      · refine Frame.then (State.smartAdd_frame _ _ _) (by decide) ?_
        exact Frame.refl _ _
      · exact Frame.refl _ _
    try clear_value s1
    extract_lets +onlyGivenNames s0
    have h_s0 : Frame [.regs, .freeCount, .reg, .power, .arb, .kettle, .boot, .host, .cp, .units, .tiers, .time, .ftl, .nand, .near, .snilo, .hbm, .sb, .hostMem, .image, .pages] s s0 := by
      unfold s0
      refine Frame.then (State.powerDown_frame _ _) (by decide) ?_
      refine Frame.then (State.stopRamp_frame _) (by decide) ?_
      assumption
    try clear_value s0
    extract_lets +onlyGivenNames -merge src s2
    have h_s2 : Frame [.regs, .freeCount, .reg, .power, .arb, .kettle, .boot, .host, .cp, .units, .tiers, .time, .ftl, .nand, .near, .snilo, .hbm, .sb, .hostMem, .image, .pages] s s2 := by
      unfold s2
      refine Frame.setPower (by decide) ?_
      assumption
    try clear_value s2
    extract_lets +onlyGivenNames s3
    have h_s3 : Frame [.regs, .freeCount, .reg, .power, .arb, .kettle, .boot, .host, .cp, .units, .tiers, .time, .ftl, .nand, .near, .snilo, .hbm, .sb, .hostMem, .image, .pages] s s3 := by
      unfold s3
      refine Frame.then (State.ringNow_frame _ _ _ _ _) (by decide) ?_
      assumption
    try clear_value s3
    extract_lets +onlyGivenNames s4
    have h_s4 : Frame [.regs, .freeCount, .reg, .power, .arb, .kettle, .boot, .host, .cp, .units, .tiers, .time, .ftl, .nand, .near, .snilo, .hbm, .sb, .hostMem, .image, .pages] s s4 := by
      unfold s4
      refine Frame.then (State.persist_frame _ _) (by decide) ?_
      refine Frame.then (State.freeze_frame _ _) (by decide) ?_
      apply Frame.ite
      · refine Frame.then (State.stagingFlush_frame _) (by decide) ?_
        assumption
      · assumption
    try clear_value s4
    refine Frame.then (State.fset_frame _ _ _ _) (by decide) ?_
    refine Frame.then (State.fset_frame _ _ _ _) (by decide) ?_
    refine Frame.then (State.planeReset_frame _) (by decide) ?_
    assumption

theorem State.showBoot_frame (s : State) :
    Frame [.regs] s (State.showBoot s) := by
  unfold State.showBoot
  extract_lets +onlyGivenNames usable; try clear_value usable
  extract_lets +onlyGivenNames s1
  have h_s1 : Frame [.regs] s s1 := by
    unfold s1
    refine Frame.then (State.fset_frame _ _ _ _) (by decide) ?_
    refine Frame.then (State.fset_frame _ _ _ _) (by decide) ?_
    refine Frame.then (State.fset_frame _ _ _ _) (by decide) ?_
    exact Frame.refl _ _
  try clear_value s1
  extract_lets +onlyGivenNames s2
  have h_s2 : Frame [.regs] s s2 := by
    unfold s2
    refine Frame.then (State.fset_frame _ _ _ _) (by decide) ?_
    refine Frame.then (State.fset_frame _ _ _ _) (by decide) ?_
    refine Frame.then (State.fset_frame _ _ _ _) (by decide) ?_
    assumption
  try clear_value s2
  extract_lets +onlyGivenNames s3
  have h_s3 : Frame [.regs] s s3 := by
    unfold s3
    refine Frame.then (State.fset_frame _ _ _ _) (by decide) ?_
    refine Frame.then (State.fset_frame _ _ _ _) (by decide) ?_
    assumption
  try clear_value s3
  refine Frame.then (State.fset_frame _ _ _ _) (by decide) ?_
  assumption

theorem State.setFwSlot_frame (s : State) (k : ℕ) (x : FwSlot) :
    Frame [.boot] s (State.setFwSlot s k x) := by
  unfold State.setFwSlot
  apply Frame.ite
  · refine Frame.setBoot (by decide) ?_
    exact Frame.refl _ _
  · refine Frame.setBoot (by decide) ?_
    exact Frame.refl _ _

theorem State.slotEvent_frame (s : State) (k : ℕ) (b : ℕ) :
    Frame [.boot] s (State.slotEvent s k b) := by
  unfold State.slotEvent
  refine Frame.then (State.setFwSlot_frame _ _ _) (by decide) ?_
  exact Frame.refl _ _

theorem State.startControl_frame (s : State) (cause : ℕ) (bad : Bool) (fails : Bool) :
    Frame [.regs, .reg, .power, .kettle, .boot, .units, .tiers, .ftl, .near] s (State.startControl s cause bad fails) := by
  unfold State.startControl
  extract_lets +onlyGivenNames fc; try clear_value fc
  extract_lets +onlyGivenNames s0
  have h_s0 : Frame [.regs, .reg, .power, .kettle, .boot, .units, .tiers, .ftl, .near] s s0 := by
    unfold s0
    apply Frame.ite
    · refine Frame.then (State.unfreeze_frame _) (by decide) ?_
      exact Frame.refl _ _
    · exact Frame.refl _ _
  try clear_value s0
  extract_lets +onlyGivenNames -merge src s1
  have h_s1 : Frame [.regs, .reg, .power, .kettle, .boot, .units, .tiers, .ftl, .near] s s1 := by
    unfold s1
    refine Frame.then (State.showBoot_frame _) (by decide) ?_
    refine Frame.then (State.fset_frame _ _ _ _) (by decide) ?_
    refine Frame.setBoot (by decide) ?_
    assumption
  try clear_value s1
  apply Frame.ite
  · extract_lets +onlyGivenNames s2
    have h_s2 : Frame [.regs, .reg, .power, .kettle, .boot, .units, .tiers, .ftl, .near] s s2 := by
      unfold s2
      refine Frame.then (State.slotEvent_frame _ _ _) (by decide) ?_
      assumption
    try clear_value s2
    refine Frame.then (State.fset_frame _ _ _ _) (by decide) ?_
    refine Frame.setBoot (by decide) ?_
    assumption
  · apply Frame.ite
    · extract_lets +onlyGivenNames s2
      have h_s2 : Frame [.regs, .reg, .power, .kettle, .boot, .units, .tiers, .ftl, .near] s s2 := by
        unfold s2
        refine Frame.then (State.fset_frame _ _ _ _) (by decide) ?_
        refine Frame.then (State.fset_frame _ _ _ _) (by decide) ?_
        refine Frame.then (State.powerUp_frame _ _) (by decide) ?_
        assumption
      try clear_value s2
      extract_lets +onlyGivenNames src
      have h_src : Frame [.regs, .reg, .power, .kettle, .boot, .units, .tiers, .ftl, .near] s src := by
        unfold src
        refine Frame.then (State.fset_frame _ _ _ _) (by decide) ?_
        assumption
      try clear_value src
      refine Frame.setPower (by decide) ?_
      assumption
    · extract_lets +onlyGivenNames -merge src src1 s2
      have h_s2 : Frame [.regs, .reg, .power, .kettle, .boot, .units, .tiers, .ftl, .near] s s2 := by
        unfold s2
        refine Frame.upd rfl ?_ (by intro p hp; cases p <;> first | exact absurd (by decide) hp | rfl) (fun h => ⟨h.1, h.2.1, h.2.2.1, h.2.2.2.1, ((fun h => by try dsimp +zetaDelta only; repeat' (first | with_reducible assumption | with_reducible refine wf_fill _ _ _ _ ?_ | with_reducible refine wf_writeL _ _ _ ?_ | with_reducible refine wf_copyFrom _ _ _ _ ?_ | exact wf_empty | with_reducible refine wf_foldl _ (fun m x h => ?_) _ ?_ _)) h.2.2.2.2)⟩)
        assumption
      try clear_value s2
      extract_lets +onlyGivenNames s3
      have h_s3 : Frame [.regs, .reg, .power, .kettle, .boot, .units, .tiers, .ftl, .near] s s3 := by
        unfold s3
        refine Frame.foldl ?_ ?_ _
        · intro t c
          beta_reduce
          beta_reduce
          refine Frame.foldl ?_ ?_ _
          · intro t i
            beta_reduce
            beta_reduce
            refine Frame.then (State.fset_frame _ _ _ _) (by decide) ?_
            exact Frame.refl _ _
          · exact Frame.refl _ _
        · assumption
      try clear_value s3
      extract_lets +onlyGivenNames s4
      have h_s4 : Frame [.regs, .reg, .power, .kettle, .boot, .units, .tiers, .ftl, .near] s s4 := by
        unfold s4
        refine Frame.then (State.fset_frame _ _ _ _) (by decide) ?_
        refine Frame.then (State.fset_frame _ _ _ _) (by decide) ?_
        refine Frame.then (State.fset_frame _ _ _ _) (by decide) ?_
        refine Frame.then (State.fset_frame _ _ _ _) (by decide) ?_
        assumption
      try clear_value s4
      refine Frame.then (State.driveOp_frame _) (by decide) ?_
      refine Frame.then (State.startUnits_frame _) (by decide) ?_
      refine Frame.then (State.rebuildDevice_frame _) (by decide) ?_
      refine Frame.then (State.bringUp_frame _) (by decide) ?_
      assumption

theorem State.selectSlot_frame (s : State) (n : ℕ) : Frame [.boot] s (State.selectSlot s n).2 := by
  induction n generalizing s with
  | zero => exact Frame.refl _ _
  | succ n ih =>
    unfold State.selectSlot
    split
    · exact Frame.refl _ _
    · extract_lets +onlyGivenNames x s1
      split
      · exact Frame.then (ih _) (by decide) (Frame.then (State.slotEvent_frame _ _ _) (by decide) (Frame.refl _ _))
      · have h1 : Frame [.boot] s s1 := by
          unfold s1
          apply Frame.ite
          · exact Frame.refl _ _
          · exact Frame.then (State.slotEvent_frame _ _ _) (by decide) (Frame.refl _ _)
        clear_value s1
        split
        · exact h1
        · exact Frame.then (ih _) (by decide) (Frame.then (State.slotEvent_frame _ _ _) (by decide) h1)

theorem State.chooseSlot_frame (s : State) :
    Frame [.boot] s (State.chooseSlot s) := by
  unfold State.chooseSlot
  extract_lets +onlyGivenNames first; try clear_value first
  extract_lets +onlyGivenNames r
  have h_r : Frame [.boot] s r.2 := by
    unfold r
    refine Frame.then (State.selectSlot_frame _ _) (by decide) ?_
    exact Frame.refl _ _
  try clear_value r
  extract_lets +onlyGivenNames s1
  have h_s1 : Frame [.boot] s s1 := by
    unfold s1
    assumption
  try clear_value s1
  refine Frame.setBoot (by decide) ?_
  assumption

theorem State.applyHeld_frame (s : State) (h : ℕ × ℕ × ℕ × ℕ) :
    Frame [.regs, .reg, .arb, .kettle, .eflash, .host, .units] s (State.applyHeld s h) := by
  unfold State.applyHeld
  extract_lets +onlyGivenNames -merge src s1
  have h_s1 : Frame [.regs, .reg, .arb, .kettle, .eflash, .host, .units] s s1 := by
    unfold s1
    refine Frame.setEflash (by decide) ?_
    exact Frame.refl _ _
  try clear_value s1
  refine Frame.then (State.recPush_frame _ _) (by decide) ?_
  refine Frame.then (State.err_frame _ _ _ _ _ _ _) (by decide) ?_
  assumption

theorem State.testBank_frame (s : State) (uf : ℕ) (charged : Bool) :
    Frame [.regs, .reg, .power, .arb, .kettle, .eflash, .host, .units] s (State.testBank s uf charged) := by
  unfold State.testBank
  extract_lets +onlyGivenNames bad; try clear_value bad
  extract_lets +onlyGivenNames -merge src s1
  have h_s1 : Frame [.regs, .reg, .power, .arb, .kettle, .eflash, .host, .units] s s1 := by
    unfold s1
    refine Frame.setPower (by decide) ?_
    exact Frame.refl _ _
  try clear_value s1
  apply Frame.ite
  · refine Frame.then (State.setMedia_frame _ _ _) (by decide) ?_
    assumption
  · apply Frame.ite
    · refine Frame.then (State.setMedia_frame _ _ _) (by decide) ?_
      assumption
    · assumption

theorem State.startKettle_frame (s : State) (inp : StartInput) :
    Frame [.regs, .tick, .freeCount, .reg, .power, .arb, .kettle, .boot, .eflash, .host, .cp, .units, .tiers, .time, .ftl, .nand, .near, .snilo, .rel, .hbm, .sb, .hostMem, .image, .pages] s (State.startKettle s inp) := by
  unfold State.startKettle
  extract_lets +onlyGivenNames s0
  have h_s0 : Frame [.regs, .tick, .freeCount, .reg, .power, .arb, .kettle, .boot, .eflash, .host, .cp, .units, .tiers, .time, .ftl, .nand, .near, .snilo, .rel, .hbm, .sb, .hostMem, .image, .pages] s s0 := by
    unfold s0
    refine Frame.then (State.kettleReset_frame _) (by decide) ?_
    exact Frame.refl _ _
  try clear_value s0
  extract_lets +onlyGivenNames -merge src s1
  have h_s1 : Frame [.regs, .tick, .freeCount, .reg, .power, .arb, .kettle, .boot, .eflash, .host, .cp, .units, .tiers, .time, .ftl, .nand, .near, .snilo, .rel, .hbm, .sb, .hostMem, .image, .pages] s s1 := by
    unfold s1
    refine Frame.then (State.loadStraps_frame _) (by decide) ?_
    refine Frame.setPower (by decide) ?_
    assumption
  try clear_value s1
  apply Frame.ite
  · extract_lets +onlyGivenNames s2
    have h_s2 : Frame [.regs, .tick, .freeCount, .reg, .power, .arb, .kettle, .boot, .eflash, .host, .cp, .units, .tiers, .time, .ftl, .nand, .near, .snilo, .rel, .hbm, .sb, .hostMem, .image, .pages] s s2 := by
      unfold s2
      refine Frame.then (State.persist_frame _ _) (by decide) ?_
      refine Frame.then (State.freeze_frame _ _) (by decide) ?_
      assumption
    try clear_value s2
    refine Frame.upd rfl ?_ (by intro p hp; cases p <;> first | exact absurd (by decide) hp | rfl) (fun h => h)
    assumption
  · extract_lets +onlyGivenNames s2
    have h_s2 : Frame [.regs, .tick, .freeCount, .reg, .power, .arb, .kettle, .boot, .eflash, .host, .cp, .units, .tiers, .time, .ftl, .nand, .near, .snilo, .rel, .hbm, .sb, .hostMem, .image, .pages] s s2 := by
      unfold s2
      refine Frame.then (State.chooseSlot_frame _) (by decide) ?_
      assumption
    try clear_value s2
    apply Frame.ite
    · refine Frame.setPower (by decide) ?_
      assumption
    · extract_lets +onlyGivenNames -merge src src1 src2 s3
      have h_s3 : Frame [.regs, .tick, .freeCount, .reg, .power, .arb, .kettle, .boot, .eflash, .host, .cp, .units, .tiers, .time, .ftl, .nand, .near, .snilo, .rel, .hbm, .sb, .hostMem, .image, .pages] s s3 := by
        unfold s3
        refine Frame.upd rfl ?_ (by intro p hp; cases p <;> first | exact absurd (by decide) hp | rfl) (fun h => ⟨h.1, h.2.1, h.2.2.1, h.2.2.2.1, ((fun h => by try dsimp +zetaDelta only; repeat' (first | with_reducible assumption | with_reducible refine wf_fill _ _ _ _ ?_ | with_reducible refine wf_writeL _ _ _ ?_ | with_reducible refine wf_copyFrom _ _ _ _ ?_ | exact wf_empty | with_reducible refine wf_foldl _ (fun m x h => ?_) _ ?_ _)) h.2.2.2.2)⟩)
        assumption
      try clear_value s3
      extract_lets +onlyGivenNames s4
      have h_s4 : Frame [.regs, .tick, .freeCount, .reg, .power, .arb, .kettle, .boot, .eflash, .host, .cp, .units, .tiers, .time, .ftl, .nand, .near, .snilo, .rel, .hbm, .sb, .hostMem, .image, .pages] s s4 := by
        unfold s4
        refine Frame.then (State.checkThermal_frame _) (by decide) ?_
        refine Frame.then (State.takeSamples_frame _ _ _) (by decide) ?_
        refine Frame.then (State.startRecorder_frame _) (by decide) ?_
        assumption
      try clear_value s4
      extract_lets +onlyGivenNames s5
      have h_s5 : Frame [.regs, .tick, .freeCount, .reg, .power, .arb, .kettle, .boot, .eflash, .host, .cp, .units, .tiers, .time, .ftl, .nand, .near, .snilo, .rel, .hbm, .sb, .hostMem, .image, .pages] s s5 := by
        unfold s5
        refine Frame.foldl ?_ ?_ _
        · intro t h
          beta_reduce
          refine Frame.then (State.applyHeld_frame _ _) (by decide) ?_
          exact Frame.refl _ _
        · assumption
      try clear_value s5
      extract_lets +onlyGivenNames s6
      have h_s6 : Frame [.regs, .tick, .freeCount, .reg, .power, .arb, .kettle, .boot, .eflash, .host, .cp, .units, .tiers, .time, .ftl, .nand, .near, .snilo, .rel, .hbm, .sb, .hostMem, .image, .pages] s s6 := by
        unfold s6
        refine Frame.then (State.fset_frame _ _ _ _) (by decide) ?_
        refine Frame.then (State.fset_frame _ _ _ _) (by decide) ?_
        refine Frame.then (State.fset_frame _ _ _ _) (by decide) ?_
        assumption
      try clear_value s6
      extract_lets +onlyGivenNames -merge src s7
      have h_s7 : Frame [.regs, .tick, .freeCount, .reg, .power, .arb, .kettle, .boot, .eflash, .host, .cp, .units, .tiers, .time, .ftl, .nand, .near, .snilo, .rel, .hbm, .sb, .hostMem, .image, .pages] s s7 := by
        unfold s7
        refine Frame.setEflash (by decide) ?_
        assumption
      try clear_value s7
      apply Frame.ite
      · assumption
      · refine Frame.then (State.testBank_frame _ _ _) (by decide) ?_
        assumption

theorem State.startUp_frame (s : State) (cause : ℕ) (inp : StartInput) :
    Frame [.regs, .tick, .freeCount, .reg, .power, .arb, .kettle, .boot, .eflash, .host, .cp, .units, .tiers, .time, .ftl, .nand, .near, .snilo, .rel, .hbm, .sb, .hostMem, .image, .pages] s (State.startUp s cause inp) := by
  unfold State.startUp
  extract_lets +onlyGivenNames s0
  have h_s0 : Frame [.regs, .tick, .freeCount, .reg, .power, .arb, .kettle, .boot, .eflash, .host, .cp, .units, .tiers, .time, .ftl, .nand, .near, .snilo, .rel, .hbm, .sb, .hostMem, .image, .pages] s s0 := by
    unfold s0
    refine Frame.then (State.startKettle_frame _ _) (by decide) ?_
    exact Frame.refl _ _
  try clear_value s0
  extract_lets +onlyGivenNames s1
  have h_s1 : Frame [.regs, .tick, .freeCount, .reg, .power, .arb, .kettle, .boot, .eflash, .host, .cp, .units, .tiers, .time, .ftl, .nand, .near, .snilo, .rel, .hbm, .sb, .hostMem, .image, .pages] s s1 := by
    unfold s1
    apply Frame.ite
    · refine Frame.then (State.brownOutSeq_frame _ _ _) (by decide) ?_
      assumption
    · assumption
  try clear_value s1
  apply Frame.ite
  · refine Frame.then (State.startControl_frame _ _ _ _) (by decide) ?_
    assumption
  · refine Frame.then (State.fset_frame _ _ _ _) (by decide) ?_
    assumption

end Sys2Proof.Machine
end

