-- ==== Sys2Proof/Laws/LinkFrame.lean ====
section
/-!
SUPPORT. What each operation of Machine/Link.lean can change: the parts of the state its frame names, canonical form kept.
-/

namespace Sys2Proof.Machine

theorem State.adminQueues_frame (s : State) (fn : ℕ) (asqs : ℕ) (acqs : ℕ) :
    Frame [.host] s (State.adminQueues s fn asqs acqs) := by
  unfold State.adminQueues
  refine Frame.setHost (by decide) ?_
  exact Frame.refl _ _

theorem State.confirmSlot_frame (s : State) :
    Frame [.boot] s (State.confirmSlot s) := by
  unfold State.confirmSlot
  extract_lets +onlyGivenNames k; try clear_value k
  apply Frame.ite
  · exact Frame.refl _ _
  · extract_lets +onlyGivenNames o; try clear_value o
    extract_lets +onlyGivenNames s1
    have h_s1 : Frame [.boot] s s1 := by
      unfold s1
      refine Frame.then (State.slotEvent_frame _ _ _) (by decide) ?_
      exact Frame.refl _ _
    try clear_value s1
    extract_lets +onlyGivenNames s2
    have h_s2 : Frame [.boot] s s2 := by
      unfold s2
      apply Frame.ite
      · refine Frame.then (State.slotEvent_frame _ _ _) (by decide) ?_
        assumption
      · assumption
    try clear_value s2
    refine Frame.setBoot (by decide) ?_
    assumption

theorem State.mediaUp_frame (s : State) :
    Frame [.regs, .boot, .host, .ftl] s (State.mediaUp s) := by
  unfold State.mediaUp
  extract_lets +onlyGivenNames ms; try clear_value ms
  extract_lets +onlyGivenNames s1
  have h_s1 : Frame [.regs, .boot, .host, .ftl] s s1 := by
    unfold s1
    refine Frame.then (State.fset_frame _ _ _ _) (by decide) ?_
    refine Frame.then (State.fset_frame _ _ _ _) (by decide) ?_
    refine Frame.then (State.fset_frame _ _ _ _) (by decide) ?_
    exact Frame.refl _ _
  try clear_value s1
  extract_lets +onlyGivenNames -merge src src1 s2
  have h_s2 : Frame [.regs, .boot, .host, .ftl] s s2 := by
    unfold s2
    refine Frame.upd rfl ?_ (by intro p hp; cases p <;> first | exact absurd (by decide) hp | rfl) (fun h => ⟨h.1, h.2.1, h.2.2.1, ((fun h => by try dsimp +zetaDelta only; repeat' (first | with_reducible assumption | with_reducible refine wf_fill _ _ _ _ ?_ | with_reducible refine wf_writeL _ _ _ ?_ | with_reducible refine wf_copyFrom _ _ _ _ ?_ | exact wf_empty | with_reducible refine wf_foldl _ (fun m x h => ?_) _ ?_ _)) h.2.2.2.1), h.2.2.2.2⟩)
    assumption
  try clear_value s2
  refine Frame.then (State.showBoot_frame _) (by decide) ?_
  refine Frame.then (State.confirmSlot_frame _) (by decide) ?_
  refine Frame.then (State.fset_frame _ _ _ _) (by decide) ?_
  refine Frame.then (State.fset_frame _ _ _ _) (by decide) ?_
  refine Frame.then (State.fset_frame _ _ _ _) (by decide) ?_
  assumption

theorem State.rebuilt_frame (s : State) (journal : ℕ) :
    Frame [.regs, .freeCount, .reg, .arb, .kettle, .host, .units, .ftl] s (State.rebuilt s journal) := by
  unfold State.rebuilt
  extract_lets +onlyGivenNames s0
  have h_s0 : Frame [.regs, .freeCount, .reg, .arb, .kettle, .host, .units, .ftl] s s0 := by
    unfold s0
    refine Frame.then (State.fset64_frame _ _ _ _ _) (by decide) ?_
    exact Frame.refl _ _
  try clear_value s0
  extract_lets +onlyGivenNames s1
  have h_s1 : Frame [.regs, .freeCount, .reg, .arb, .kettle, .host, .units, .ftl] s s1 := by
    unfold s1
    apply Frame.ite
    · assumption
    · refine Frame.then (State.err_frame _ _ _ _ _ _ _) (by decide) ?_
      assumption
  try clear_value s1
  extract_lets +onlyGivenNames s2
  have h_s2 : Frame [.regs, .freeCount, .reg, .arb, .kettle, .host, .units, .ftl] s s2 := by
    unfold s2
    apply Frame.ite
    · assumption
    · refine Frame.foldl ?_ ?_ _
      · intro t e
        beta_reduce
        beta_reduce
        apply Frame.ite
        · refine Frame.then (State.setMap_frame _ _ _ _) (by decide) ?_
          exact Frame.refl _ _
        · exact Frame.refl _ _
      · assumption
  try clear_value s2
  extract_lets +onlyGivenNames s3
  have h_s3 : Frame [.regs, .freeCount, .reg, .arb, .kettle, .host, .units, .ftl] s s3 := by
    unfold s3
    apply Frame.ite
    · assumption
    · refine Frame.then (State.err_frame _ _ _ _ _ _ _) (by decide) ?_
      assumption
  try clear_value s3
  refine Frame.then (State.flush_frame _) (by decide) ?_
  refine Frame.then (State.refreshMargin_frame _) (by decide) ?_
  refine Frame.then (State.fset_frame _ _ _ _) (by decide) ?_
  assumption

theorem State.enableVfs_frame (s : State) (n : ℕ) :
    Frame [.regs, .freeCount, .reg, .arb, .kettle, .host, .cp, .units, .tiers, .ftl, .near, .hbm, .sb, .hostMem] s (State.enableVfs s n) := by
  unfold State.enableVfs
  extract_lets +onlyGivenNames gone; try clear_value gone
  extract_lets +onlyGivenNames s1
  have h_s1 : Frame [.regs, .freeCount, .reg, .arb, .kettle, .host, .cp, .units, .tiers, .ftl, .near, .hbm, .sb, .hostMem] s s1 := by
    unfold s1
    refine Frame.foldl ?_ ?_ _
    · intro t f
      beta_reduce
      beta_reduce
      refine Frame.then (State.setPci_frame _ _ _) (by decide) ?_
      refine Frame.then (State.fnReset_frame _ _) (by decide) ?_
      exact Frame.refl _ _
    · exact Frame.refl _ _
  try clear_value s1
  refine Frame.setHost (by decide) ?_
  assumption

theorem State.configure_frame (s : State) (fn : ℕ) (what : ℕ) (v : ℕ) :
    Frame [.regs, .freeCount, .reg, .arb, .kettle, .host, .cp, .units, .tiers, .time, .ftl, .near, .hbm, .sb, .hostMem] s (State.configure s fn what v) := by
  unfold State.configure
  extract_lets +onlyGivenNames p; try clear_value p
  split
  · apply Frame.ite
    · exact Frame.refl _ _
    · extract_lets +onlyGivenNames s1
      have h_s1 : Frame [.regs, .freeCount, .reg, .arb, .kettle, .host, .cp, .units, .tiers, .time, .ftl, .near, .hbm, .sb, .hostMem] s s1 := by
        unfold s1
        refine Frame.then (State.fset_frame _ _ _ _) (by decide) ?_
        exact Frame.refl _ _
      try clear_value s1
      apply Frame.ite
      · refine Frame.then (State.losePtm_frame _) (by decide) ?_
        assumption
      · assumption
  · apply Frame.ite
    · exact Frame.refl _ _
    · refine Frame.then (State.enableVfs_frame _ _) (by decide) ?_
      exact Frame.refl _ _
  · refine Frame.then (State.setPci_frame _ _ _) (by decide) ?_
    exact Frame.refl _ _
  · refine Frame.then (State.setPci_frame _ _ _) (by decide) ?_
    exact Frame.refl _ _
  · apply Frame.ite
    · refine Frame.then (State.setPci_frame _ _ _) (by decide) ?_
      exact Frame.refl _ _
    · exact Frame.refl _ _
  · apply Frame.ite
    · refine Frame.then (State.setPci_frame _ _ _) (by decide) ?_
      exact Frame.refl _ _
    · exact Frame.refl _ _
  · refine Frame.then (State.setPci_frame _ _ _) (by decide) ?_
    exact Frame.refl _ _
  · apply Frame.ite
    · refine Frame.then (State.fset_frame _ _ _ _) (by decide) ?_
      exact Frame.refl _ _
    · exact Frame.refl _ _
  · exact Frame.refl _ _

theorem State.linkDown_frame (s : State) :
    Frame [.regs, .freeCount, .reg, .arb, .kettle, .host, .units, .time] s (State.linkDown s) := by
  unfold State.linkDown
  extract_lets +onlyGivenNames s1
  have h_s1 : Frame [.regs, .freeCount, .reg, .arb, .kettle, .host, .units, .time] s s1 := by
    unfold s1
    refine Frame.then (State.fset_frame _ _ _ _) (by decide) ?_
    refine Frame.then (State.fset_frame _ _ _ _) (by decide) ?_
    refine Frame.then (State.fset_frame _ _ _ _) (by decide) ?_
    exact Frame.refl _ _
  try clear_value s1
  refine Frame.then (State.losePtm_frame _) (by decide) ?_
  refine Frame.setHost (by decide) ?_
  assumption

theorem State.linkAt_frame (s : State) (w : ℕ) (rate : ℕ) :
    Frame [.regs, .host] s (State.linkAt s w rate) := by
  unfold State.linkAt
  extract_lets +onlyGivenNames s1
  have h_s1 : Frame [.regs, .host] s s1 := by
    unfold s1
    refine Frame.then (State.fset_frame _ _ _ _) (by decide) ?_
    refine Frame.then (State.fset_frame _ _ _ _) (by decide) ?_
    refine Frame.then (State.fset_frame _ _ _ _) (by decide) ?_
    exact Frame.refl _ _
  try clear_value s1
  extract_lets +onlyGivenNames s2
  have h_s2 : Frame [.regs, .host] s s2 := by
    unfold s2
    refine Frame.then (State.fset_frame _ _ _ _) (by decide) ?_
    assumption
  try clear_value s2
  refine Frame.setHost (by decide) ?_
  assumption

theorem State.finishShutdown_frame (s : State) (fn : ℕ) :
    Frame [.regs, .freeCount, .reg, .arb, .kettle, .host, .cp, .units, .tiers, .ftl, .near, .hbm, .sb, .hostMem] s (State.finishShutdown s fn) := by
  unfold State.finishShutdown
  extract_lets +onlyGivenNames s1
  have h_s1 : Frame [.regs, .freeCount, .reg, .arb, .kettle, .host, .cp, .units, .tiers, .ftl, .near, .hbm, .sb, .hostMem] s s1 := by
    unfold s1
    refine Frame.then (State.flush_frame _) (by decide) ?_
    refine Frame.foldl ?_ ?_ _
    · intro t c
      beta_reduce
      beta_reduce
      refine Frame.then (State.tearDown_frame _ _) (by decide) ?_
      exact Frame.refl _ _
    · exact Frame.refl _ _
  try clear_value s1
  refine Frame.then (State.setCtrl_frame _ _ _) (by decide) ?_
  assumption

end Sys2Proof.Machine
end

