-- ==== Sys2Proof/Laws/BootFrame.lean ====
section
/-!
SUPPORT. What each operation of Machine/Boot.lean can change: the parts of the state its frame names, canonical form kept.
-/

namespace Sys2Proof.Machine

theorem State.revoke_frame (s : State) (r : Bool × ℕ × ℕ) :
    Frame [.boot, .cp] s (State.revoke s r) := by
  unfold State.revoke
  apply Frame.ite
  · refine Frame.setBoot (by decide) ?_
    exact Frame.refl _ _
  · extract_lets +onlyGivenNames -merge src s1
    have h_s1 : Frame [.boot, .cp] s s1 := by
      unfold s1
      refine Frame.setBoot (by decide) ?_
      exact Frame.refl _ _
    try clear_value s1
    refine Frame.setCp (by decide) ?_
    assumption

theorem State.storeKey_frame (s : State) (r : ℕ × ℕ × ℕ) :
    Frame [.boot, .eflash] s (State.storeKey s r) := by
  unfold State.storeKey
  extract_lets +onlyGivenNames s1
  have h_s1 : Frame [.boot, .eflash] s s1 := by
    unfold s1
    refine Frame.then (State.writeConfig_frame _ _ _) (by decide) ?_
    exact Frame.refl _ _
  try clear_value s1
  refine Frame.setBoot (by decide) ?_
  assumption

theorem State.applyKeys_frame (s : State) (b : List Byte) :
    ∀ u, @State.applyKeys s b = some u → Frame [.regs, .boot, .eflash, .cp] s u := by
  unfold State.applyKeys
  extract_lets +onlyGivenNames ks rs; try clear_value ks rs
  refine Frame.iteOpt ?_ ?_
  · intro u hu; cases hu
    refine Frame.then (State.showBoot_frame _) (by decide) ?_
    refine Frame.then (State.sweepSlots_frame _) (by decide) ?_
    refine Frame.foldl ?_ ?_ _
    · intro t r
      beta_reduce
      refine Frame.then (State.revoke_frame _ _) (by decide) ?_
      exact Frame.refl _ _
    · refine Frame.foldl ?_ ?_ _
      · intro t r
        beta_reduce
        refine Frame.then (State.storeKey_frame _ _) (by decide) ?_
        exact Frame.refl _ _
      · exact Frame.refl _ _
  · intros; contradiction

theorem State.endUpdate_frame (s : State) :
    Frame [.regs, .boot, .image] s (State.endUpdate s) := by
  unfold State.endUpdate
  refine Frame.then (State.fset_frame _ _ _ _) (by decide) ?_
  refine Frame.then (State.fset_frame _ _ _ _) (by decide) ?_
  refine Frame.then (State.fset_frame _ _ _ _) (by decide) ?_
  refine Frame.memBoot (by decide) (by decide) (fun h => by try dsimp +zetaDelta only; repeat' (first | with_reducible assumption | with_reducible refine wf_fill _ _ _ _ ?_ | with_reducible refine wf_writeL _ _ _ ?_ | with_reducible refine wf_copyFrom _ _ _ _ ?_ | exact wf_empty | with_reducible refine wf_foldl _ (fun m x h => ?_) _ ?_ _)) ?_
  exact Frame.refl _ _

theorem State.writeSlot_frame (s : State) (k : ℕ) (b : List Byte) (act : Bool) (whole : Bool) :
    Frame [.regs, .boot] s (State.writeSlot s k b act whole) := by
  unfold State.writeSlot
  extract_lets +onlyGivenNames x; try clear_value x
  refine Frame.then (State.showBoot_frame _) (by decide) ?_
  refine Frame.then (State.setFwSlot_frame _ _ _) (by decide) ?_
  exact Frame.refl _ _

theorem State.commitImage_frame (s : State) (cmd : CmdId) (fs : ℕ) (act : Bool) (whole : Bool) :
    Frame [.regs, .reg, .arb, .kettle, .boot, .eflash, .host, .cp, .units, .image] s (State.commitImage s cmd fs act whole) := by
  unfold State.commitImage
  extract_lets +onlyGivenNames k b; try clear_value k b
  apply Frame.ite
  · refine Frame.then (State.complete_frame _ _ _ _ _ _ _) (by decide) ?_
    exact Frame.refl _ _
  · apply Frame.ite
    · refine Frame.then (State.complete_frame _ _ _ _ _ _ _) (by decide) ?_
      exact Frame.refl _ _
    · apply Frame.ite
      · split
        · refine Frame.then (State.succeed_frame _ _ _ _) (by decide) ?_
          refine Frame.then (State.endUpdate_frame _) (by decide) ?_
          refine Frame.then (State.applyKeys_frame _ _ _ (by assumption)) (by decide) ?_
          exact Frame.refl _ _
        · refine Frame.then (State.complete_frame _ _ _ _ _ _ _) (by decide) ?_
          refine Frame.then (State.endUpdate_frame _) (by decide) ?_
          exact Frame.refl _ _
      · apply Frame.ite
        · refine Frame.then (State.complete_frame _ _ _ _ _ _ _) (by decide) ?_
          exact Frame.refl _ _
        · apply Frame.ite
          · refine Frame.then (State.complete_frame _ _ _ _ _ _ _) (by decide) ?_
            refine Frame.then (State.endUpdate_frame _) (by decide) ?_
            exact Frame.refl _ _
          · apply Frame.ite
            · refine Frame.then (State.succeed_frame _ _ _ _) (by decide) ?_
              refine Frame.then (State.endUpdate_frame _) (by decide) ?_
              refine Frame.then (State.writeSlot_frame _ _ _ _ _) (by decide) ?_
              exact Frame.refl _ _
            · refine Frame.then (State.complete_frame _ _ _ _ _ _ _) (by decide) ?_
              refine Frame.then (State.endUpdate_frame _) (by decide) ?_
              refine Frame.then (State.writeSlot_frame _ _ _ _ _) (by decide) ?_
              exact Frame.refl _ _

theorem State.mctpAnswer_frame (s : State) (l : List ℕ) :
    Frame [.kettle] s (State.mctpAnswer s l) := by
  unfold State.mctpAnswer
  refine Frame.setKettle (by decide) ?_
  exact Frame.refl _ _

theorem State.pldmPut_frame (s : State) (off : ℕ) (data : List Byte) :
    Frame [.regs, .boot, .image] s (State.pldmPut s off data) := by
  unfold State.pldmPut
  extract_lets +onlyGivenNames n; try clear_value n
  extract_lets +onlyGivenNames -merge src s1
  have h_s1 : Frame [.regs, .boot, .image] s s1 := by
    unfold s1
    refine Frame.memBoot (by decide) (by decide) (fun h => by try dsimp +zetaDelta only; repeat' (first | with_reducible assumption | with_reducible refine wf_fill _ _ _ _ ?_ | with_reducible refine wf_writeL _ _ _ ?_ | with_reducible refine wf_copyFrom _ _ _ _ ?_ | exact wf_empty | with_reducible refine wf_foldl _ (fun m x h => ?_) _ ?_ _)) ?_
    exact Frame.refl _ _
  try clear_value s1
  refine Frame.then (State.fset_frame _ _ _ _) (by decide) ?_
  assumption

theorem State.beginPldm_frame (s : State) :
    Frame [.regs, .boot, .image] s (State.beginPldm s) := by
  unfold State.beginPldm
  extract_lets +onlyGivenNames k; try clear_value k
  extract_lets +onlyGivenNames -merge src s1
  have h_s1 : Frame [.regs, .boot, .image] s s1 := by
    unfold s1
    refine Frame.then (State.setFwSlot_frame _ _ _) (by decide) ?_
    exact Frame.refl _ _
  try clear_value s1
  extract_lets +onlyGivenNames -merge src s2
  have h_s2 : Frame [.regs, .boot, .image] s s2 := by
    unfold s2
    refine Frame.memBoot (by decide) (by decide) (fun h => by try dsimp +zetaDelta only; repeat' (first | with_reducible assumption | with_reducible refine wf_fill _ _ _ _ ?_ | with_reducible refine wf_writeL _ _ _ ?_ | with_reducible refine wf_copyFrom _ _ _ _ ?_ | exact wf_empty | with_reducible refine wf_foldl _ (fun m x h => ?_) _ ?_ _)) ?_
    assumption
  try clear_value s2
  refine Frame.then (State.fset_frame _ _ _ _) (by decide) ?_
  refine Frame.then (State.showBoot_frame _) (by decide) ?_
  assumption

end Sys2Proof.Machine
end

