-- ==== Sys2Proof/Laws/LogsFrame.lean ====
section
/-!
SUPPORT. What each operation of Machine/Logs.lean can change: the parts of the state its frame names, canonical form kept.
-/

namespace Sys2Proof.Machine

theorem State.floorCommand_frame (s : State) (cmd : CmdId) (opens : Bool) (off : ℕ) (n : ℕ) :
    Frame [.reg, .arb, .kettle, .host, .units] s (State.floorCommand s cmd opens off n) := by
  unfold State.floorCommand
  apply Frame.ite
  · refine Frame.then (State.complete_frame _ _ _ _ _ _ _) (by decide) ?_
    exact Frame.refl _ _
  · refine Frame.setKettle (by decide) ?_
    exact Frame.refl _ _

theorem State.noteLogRead_frame (s : State) (fn : ℕ) (lid : ℕ) (lsi : ℕ) (off : ℕ) (n : ℕ) :
    Frame [.cp] s (State.noteLogRead s fn lid lsi off n) := by
  unfold State.noteLogRead
  apply Frame.ite
  · exact Frame.refl _ _
  · split
    · apply Frame.ite
      · refine Frame.then (State.setCtx_frame _ _ _) (by decide) ?_
        exact Frame.refl _ _
      · exact Frame.refl _ _
    · exact Frame.refl _ _

theorem State.readPair_frame (s : State) (lid : ℕ) (lsp : ℕ) :
    Frame [.reg, .arb] s (State.readPair s lid lsp) := by
  unfold State.readPair
  apply Frame.ite
  · refine Frame.then (State.serve_frame _ _ _ _ _) (by decide) ?_
    exact Frame.refl _ _
  · exact Frame.refl _ _

theorem State.rearmLog_frame (s : State) (fn : ℕ) (lid : ℕ) (lsi : ℕ) :
    Frame [.host] s (State.rearmLog s fn lid lsi) := by
  unfold State.rearmLog
  extract_lets +onlyGivenNames s1
  have h_s1 : Frame [.host] s s1 := by
    unfold s1
    apply Frame.ite
    · refine Frame.foldl ?_ ?_ _
      · intro t k
        beta_reduce
        beta_reduce
        refine Frame.then (State.rearm_frame _ _ _ _ _) (by decide) ?_
        exact Frame.refl _ _
      · exact Frame.refl _ _
    · apply Frame.ite
      · refine Frame.then (State.rearm_frame _ _ _ _ _) (by decide) ?_
        exact Frame.refl _ _
      · apply Frame.ite
        · refine Frame.then (State.rearm_frame _ _ _ _ _) (by decide) ?_
          exact Frame.refl _ _
        · apply Frame.ite
          · refine Frame.then (State.rearm_frame _ _ _ _ _) (by decide) ?_
            exact Frame.refl _ _
          · apply Frame.ite
            · refine Frame.then (State.rearm_frame _ _ _ _ _) (by decide) ?_
              exact Frame.refl _ _
            · apply Frame.ite
              · refine Frame.then (State.rearm_frame _ _ _ _ _) (by decide) ?_
                refine Frame.then (State.rearm_frame _ _ _ _ _) (by decide) ?_
                exact Frame.refl _ _
              · exact Frame.refl _ _
  try clear_value s1
  apply Frame.ite
  · refine Frame.then (State.setCtrl_frame _ _ _) (by decide) ?_
    assumption
  · assumption

theorem State.miServe_frame (s : State) (r : MiRequest) :
    Frame [.reg, .arb, .kettle] s (State.miServe s r).2 := by
  unfold State.miServe
  extract_lets +onlyGivenNames notReady k; try clear_value notReady k
  split
  · show Frame _ _ _
    exact Frame.refl _ _
  · show Frame _ _ _
    exact Frame.refl _ _
  · refine Frame.iteSnd ?_ ?_
    · show Frame _ _ _
      exact Frame.refl _ _
    · show Frame _ _ _
      refine Frame.then (State.serve_frame _ _ _ _ _) (by decide) ?_
      exact Frame.refl _ _
  · refine Frame.iteSnd ?_ ?_
    · show Frame _ _ _
      exact Frame.refl _ _
    · refine Frame.iteSnd ?_ ?_
      · show Frame _ _ _
        exact Frame.refl _ _
      · show Frame _ _ _
        exact Frame.refl _ _
  · refine Frame.iteSnd ?_ ?_
    · show Frame _ _ _
      refine Frame.setKettle (by decide) ?_
      exact Frame.refl _ _
    · refine Frame.iteSnd ?_ ?_
      · show Frame _ _ _
        refine Frame.setKettle (by decide) ?_
        exact Frame.refl _ _
      · show Frame _ _ _
        exact Frame.refl _ _
  · show Frame _ _ _
    exact Frame.refl _ _
  · refine Frame.iteSnd ?_ ?_
    · show Frame _ _ _
      exact Frame.refl _ _
    · split
      · show Frame _ _ _
        refine Frame.then (State.serve_frame _ _ _ _ _) (by decide) ?_
        exact Frame.refl _ _
      · show Frame _ _ _
        refine Frame.then (State.serve_frame _ _ _ _ _) (by decide) ?_
        exact Frame.refl _ _
  · refine Frame.iteSnd ?_ ?_
    · show Frame _ _ _
      exact Frame.refl _ _
    · extract_lets +onlyGivenNames t
      have h_t : Frame [.reg, .arb, .kettle] s t := by
        unfold t
        apply Frame.ite
        · refine Frame.then (State.readPair_frame _ _ _) (by decide) ?_
          exact Frame.refl _ _
        · refine Frame.then (State.serve_frame _ _ _ _ _) (by decide) ?_
          exact Frame.refl _ _
      try clear_value t
      split
      · show Frame _ _ _
        assumption
      · show Frame _ _ _
        assumption
  · refine Frame.iteSnd ?_ ?_
    · show Frame _ _ _
      exact Frame.refl _ _
    · split
      · show Frame _ _ _
        exact Frame.refl _ _
      · show Frame _ _ _
        exact Frame.refl _ _
  · show Frame _ _ _
    exact Frame.refl _ _

theorem State.mctpSend_frame (s : State) (l : List Byte) :
    Frame [.kettle] s (State.mctpSend s l) := by
  unfold State.mctpSend
  refine Frame.setKettle (by decide) ?_
  exact Frame.refl _ _

theorem State.pldmServe_frame (s : State) (r : PldmRequest) :
    Frame [.kettle] s (State.pldmServe s r).2 := by
  unfold State.pldmServe
  split
  · show Frame _ _ _
    exact Frame.refl _ _
  · refine Frame.iteSnd ?_ ?_
    · show Frame _ _ _
      exact Frame.refl _ _
    · show Frame _ _ _
      refine Frame.setKettle (by decide) ?_
      exact Frame.refl _ _
  · show Frame _ _ _
    exact Frame.refl _ _
  · show Frame _ _ _
    exact Frame.refl _ _
  · show Frame _ _ _
    exact Frame.refl _ _
  · refine Frame.iteSnd ?_ ?_
    · show Frame _ _ _
      exact Frame.refl _ _
    · show Frame _ _ _
      exact Frame.refl _ _
  · show Frame _ _ _
    exact Frame.refl _ _
  · show Frame _ _ _
    exact Frame.refl _ _
  · show Frame _ _ _
    exact Frame.refl _ _
  · show Frame _ _ _
    exact Frame.refl _ _

end Sys2Proof.Machine
end

