-- ==== Sys2Proof/Laws/ReliabFrame.lean ====
section
/-!
SUPPORT. What each operation of Machine/Reliab.lean can change: the parts of the state its frame names, canonical form kept.
-/

namespace Sys2Proof.Machine

theorem State.dropColander_frame (s : State) (k : ℕ) :
    Frame [.regs, .freeCount, .reg, .arb, .kettle, .host, .cp, .units, .tiers, .ftl, .near, .hbm, .sb, .hostMem] s (State.dropColander s k) := by
  unfold State.dropColander
  refine Frame.foldl ?_ ?_ _
  · intro t m
    beta_reduce
    beta_reduce
    split
    · split
      · apply Frame.ite
        · refine Frame.then (State.faultCtx_frame _ _ _) (by decide) ?_
          exact Frame.refl _ _
        · exact Frame.refl _ _
      · exact Frame.refl _ _
    · exact Frame.refl _ _
  · exact Frame.refl _ _

theorem State.restartColander_frame (s : State) (k : ℕ) :
    Frame [.regs, .reg, .kettle, .units, .ftl, .near] s (State.restartColander s k) := by
  unfold State.restartColander
  refine Frame.then (State.toStarting_frame _ _ _) (by decide) ?_
  refine Frame.then (State.putControl_frame _ _ _ _ _) (by decide) ?_
  refine Frame.then (State.resetUnit_frame _ _ _) (by decide) ?_
  exact Frame.refl _ _

theorem State.packageLost_frame (s : State) (k : ℕ) :
    Frame [.regs, .reg, .arb, .kettle, .host, .units, .ftl] s (State.packageLost s k) := by
  unfold State.packageLost
  extract_lets +onlyGivenNames -merge src s1
  have h_s1 : Frame [.regs, .reg, .arb, .kettle, .host, .units, .ftl] s s1 := by
    unfold s1
    apply Frame.ite
    · exact Frame.refl _ _
    · refine Frame.setFtl (by decide) ?_
      exact Frame.refl _ _
  try clear_value s1
  extract_lets +onlyGivenNames s2
  have h_s2 : Frame [.regs, .reg, .arb, .kettle, .host, .units, .ftl] s s2 := by
    unfold s2
    refine Frame.then (State.unreached_frame _ _ _) (by decide) ?_
    assumption
  try clear_value s2
  apply Frame.ite
  · refine Frame.then (State.abandon_frame _ _) (by decide) ?_
    assumption
  · assumption

theorem State.retireReadPath_frame (s : State) (k : ℕ) :
    Frame [.regs, .reg, .arb, .kettle, .eflash, .host, .units, .ftl, .near] s (State.retireReadPath s k) := by
  unfold State.retireReadPath
  refine Frame.then (State.packageLost_frame _ _) (by decide) ?_
  refine Frame.then (State.classify_frame _ _) (by decide) ?_
  refine Frame.then (State.toRetired_frame _ _ _) (by decide) ?_
  refine Frame.then (State.recordRetirement_frame _ _ _ _) (by decide) ?_
  refine Frame.then (State.clearUnit_frame _ _ _) (by decide) ?_
  exact Frame.refl _ _

theorem State.repaired_frame (s : State) (dom : ℕ) (m : Domain) (u : ℕ) :
    Frame [.ftl] s (State.repaired s dom m u) := by
  unfold State.repaired
  refine Frame.setFtl (by decide) ?_
  exact Frame.refl _ _

theorem State.visit_frame (s : State) (pass : ℕ) (item : ℕ) (hours : ℕ) :
    Frame [.regs, .reg, .kettle, .rel] s (State.visit s pass item hours) := by
  unfold State.visit
  extract_lets +onlyGivenNames k; try clear_value k
  extract_lets +onlyGivenNames s1
  have h_s1 : Frame [.regs, .reg, .kettle, .rel] s s1 := by
    unfold s1
    apply Frame.ite
    · refine Frame.then (State.recEv_frame _ _ _ _ _ _ _ _) (by decide) ?_
      exact Frame.refl _ _
    · exact Frame.refl _ _
  try clear_value s1
  refine Frame.setRel (by decide) ?_
  assumption

theorem State.repairVisit_frame (s : State) (dom : ℕ) (d : List Byte) (m : Domain) (u : ℕ) :
    Frame [.regs, .reg, .kettle, .ftl, .rel] s (State.repairVisit s dom d m u) := by
  unfold State.repairVisit
  refine Frame.then (State.repaired_frame _ _ _ _) (by decide) ?_
  apply Frame.ite
  · refine Frame.then (State.visit_frame _ _ _ _) (by decide) ?_
    exact Frame.refl _ _
  · exact Frame.refl _ _

theorem State.writeList_frame (s : State) (dom : ℕ) (d : List Byte) (m : Domain) (u : ℕ) (mine : Option Version) (new : List ℕ) :
    Frame [.regs, .kettle, .ftl] s (State.writeList s dom d m u mine new) := by
  unfold State.writeList
  extract_lets +onlyGivenNames p page lists; try clear_value p page lists
  refine Frame.then (State.work_frame _ _ _ _) (by decide) ?_
  refine Frame.then (State.stageIu_frame _ _ _ _ _ _ _ _ _ _) (by decide) ?_
  exact Frame.refl _ _

theorem State.ownRead_frame (s : State) (l : ℕ) :
    ∀ u, @State.ownRead s l = some u → Frame [.nand] s u := by
  unfold State.ownRead
  extract_lets +onlyGivenNames c d; try clear_value c d
  refine Frame.iteOpt ?_ ?_
  · intros; contradiction
  · intro u hu
    refine Frame.then (State.suspendFor_frame _ _ _ _ hu) (by decide) ?_
    exact Frame.refl _ _

theorem State.retrained_frame (s : State) (k : ℕ) (us : ℕ) (l : Link) :
    Frame [.regs, .rel] s (State.retrained s k us l) := by
  unfold State.retrained
  refine Frame.then (State.fbump_frame _ _ _ _) (by decide) ?_
  refine Frame.then (State.setLink_frame _ _ _) (by decide) ?_
  exact Frame.refl _ _

theorem State.showRetraining_frame (s : State) (k : ℕ) :
    Frame [.regs] s (State.showRetraining s k) := by
  unfold State.showRetraining
  apply Frame.ite
  · refine Frame.then (State.fsetBit_frame _ _ _ _) (by decide) ?_
    exact Frame.refl _ _
  · refine Frame.then (State.fclrBit_frame _ _ _ _) (by decide) ?_
    exact Frame.refl _ _

theorem State.showSpareLane_frame (s : State) (k : ℕ) (lane : ℕ) (sp : ℕ) :
    Frame [.regs, .reg, .arb, .kettle, .host, .units] s (State.showSpareLane s k lane sp) := by
  unfold State.showSpareLane
  extract_lets +onlyGivenNames h; try clear_value h
  extract_lets +onlyGivenNames s1
  have h_s1 : Frame [.regs, .reg, .arb, .kettle, .host, .units] s s1 := by
    unfold s1
    refine Frame.then (State.err_frame _ _ _ _ _ _ _) (by decide) ?_
    refine Frame.then (State.fset_frame _ _ _ _) (by decide) ?_
    refine Frame.then (State.fsetBit_frame _ _ _ _) (by decide) ?_
    exact Frame.refl _ _
  try clear_value s1
  extract_lets +onlyGivenNames s2
  have h_s2 : Frame [.regs, .reg, .arb, .kettle, .host, .units] s s2 := by
    unfold s2
    refine Frame.then (State.fset_frame _ _ _ _) (by decide) ?_
    refine Frame.then (State.fset_frame _ _ _ _) (by decide) ?_
    assumption
  try clear_value s2
  refine Frame.then (State.spareSwitched_frame _ _ _ _ _ _) (by decide) ?_
  assumption

theorem State.retireLane_frame (s : State) (k : ℕ) (lane : ℕ) (us : ℕ) (sp : Option ℕ) :
    Frame [.regs, .reg, .arb, .kettle, .eflash, .host, .units, .rel] s (State.retireLane s k lane us sp) := by
  unfold State.retireLane
  extract_lets +onlyGivenNames l off; try clear_value l off
  refine Frame.then (State.recordRetirement_frame _ _ _ _) (by decide) ?_
  refine Frame.then (State.showRetraining_frame _ _) (by decide) ?_
  refine Frame.then (State.retrained_frame _ _ _ _) (by decide) ?_
  exact Frame.refl _ _

end Sys2Proof.Machine
end

