-- ==== Sys2Proof/Laws/State.lean ====
section
/-!
SUPPORT. Reading a part of the state after one of the shared updates, so that no proof unfolds a record update: the register
fields after a field is set, and the fields of `State` after each update of Machine/Ops.lean that touches one part.
-/

namespace Sys2Proof.Machine

/-! ### Register fields -/

/-- A field after a field is set: the value cut to its width where they are the same place, else as before. -/
theorem State.fget_fset (s : State) (f g : Field) (i j v : Nat) :
    (s.fset f i v).fget g j = if g.key j = f.key i then v % 2 ^ f.width else s.fget g j := by
  simp only [State.fget, State.fset, sget_sput]

@[simp] theorem State.fget_fset_self (s : State) (f : Field) (i v : Nat) : (s.fset f i v).fget f i = v % 2 ^ f.width := by
  simp [State.fget_fset]

theorem State.fget_fset_ne (s : State) (f g : Field) (i j v : Nat) (h : g.key j ≠ f.key i) : (s.fset f i v).fget g j = s.fget g j := by
  simp [State.fget_fset, h]

/-- Fields at different places of pages have different keys. -/
theorem Field.key_inj (f g : Field) (i j : Nat) (hi : i < 256) (hj : j < 256) (hf : f.off < 4096) (hg : g.off < 4096) (hl : f.lsb < 32)
    (hm : g.lsb < 32) : f.key i = g.key j ↔ f.cls = g.cls ∧ i = j ∧ f.off = g.off ∧ f.lsb = g.lsb := by
  unfold Field.key; omega

theorem State.fget_fset64 (s : State) (lo hi g : Field) (i j v : Nat) : (s.fset64 lo hi i v).fget g j =
    if g.key j = hi.key i then v / 2 ^ 32 % 2 ^ hi.width else if g.key j = lo.key i then v % 2 ^ 32 % 2 ^ lo.width else s.fget g j := by
  simp only [State.fset64, State.fget_fset]

/-- A field raised by `k` stops at the largest value it holds. -/
theorem State.fget_fbump_self (s : State) (f : Field) (i k : Nat) :
    (s.fbump f i k).fget f i = min (s.fget f i + k) (2 ^ f.width - 1) := by
  have hp : 0 < 2 ^ f.width := Nat.two_pow_pos _
  simp only [State.fbump, State.fget_fset_self, satAdd]
  rw [Nat.mod_eq_of_lt] <;> split <;> omega

theorem State.fget_fbump_ne (s : State) (f g : Field) (i j k : Nat) (h : g.key j ≠ f.key i) : (s.fbump f i k).fget g j = s.fget g j :=
  s.fget_fset_ne f g i j _ h

/-! ### `fset` changes only `regs` -/

@[simp] theorem State.fset_pending (s : State) (f : Field) (i v : Nat) : (s.fset f i v).pending = s.pending := rfl
@[simp] theorem State.fset_variant (s : State) (f : Field) (i v : Nat) : (s.fset f i v).variant = s.variant := rfl
@[simp] theorem State.fset_tick (s : State) (f : Field) (i v : Nat) : (s.fset f i v).tick = s.tick := rfl
@[simp] theorem State.fset_freeCount (s : State) (f : Field) (i v : Nat) : (s.fset f i v).freeCount = s.freeCount := rfl
@[simp] theorem State.fset_reg (s : State) (f : Field) (i v : Nat) : (s.fset f i v).reg = s.reg := rfl
@[simp] theorem State.fset_power (s : State) (f : Field) (i v : Nat) : (s.fset f i v).power = s.power := rfl
@[simp] theorem State.fset_arb (s : State) (f : Field) (i v : Nat) : (s.fset f i v).arb = s.arb := rfl
@[simp] theorem State.fset_kettle (s : State) (f : Field) (i v : Nat) : (s.fset f i v).kettle = s.kettle := rfl
@[simp] theorem State.fset_boot (s : State) (f : Field) (i v : Nat) : (s.fset f i v).boot = s.boot := rfl
@[simp] theorem State.fset_eflash (s : State) (f : Field) (i v : Nat) : (s.fset f i v).eflash = s.eflash := rfl
@[simp] theorem State.fset_host (s : State) (f : Field) (i v : Nat) : (s.fset f i v).host = s.host := rfl
@[simp] theorem State.fset_cp (s : State) (f : Field) (i v : Nat) : (s.fset f i v).cp = s.cp := rfl
@[simp] theorem State.fset_units (s : State) (f : Field) (i v : Nat) : (s.fset f i v).units = s.units := rfl
@[simp] theorem State.fset_tiers (s : State) (f : Field) (i v : Nat) : (s.fset f i v).tiers = s.tiers := rfl
@[simp] theorem State.fset_time (s : State) (f : Field) (i v : Nat) : (s.fset f i v).time = s.time := rfl
@[simp] theorem State.fset_ftl (s : State) (f : Field) (i v : Nat) : (s.fset f i v).ftl = s.ftl := rfl
@[simp] theorem State.fset_nand (s : State) (f : Field) (i v : Nat) : (s.fset f i v).nand = s.nand := rfl
@[simp] theorem State.fset_near (s : State) (f : Field) (i v : Nat) : (s.fset f i v).near = s.near := rfl
@[simp] theorem State.fset_snilo (s : State) (f : Field) (i v : Nat) : (s.fset f i v).snilo = s.snilo := rfl
@[simp] theorem State.fset_rel (s : State) (f : Field) (i v : Nat) : (s.fset f i v).rel = s.rel := rfl

/-! ### `fset64` changes only `regs` -/

@[simp] theorem State.fset64_pending (s : State) (lo hi : Field) (i v : Nat) : (s.fset64 lo hi i v).pending = s.pending := rfl
@[simp] theorem State.fset64_variant (s : State) (lo hi : Field) (i v : Nat) : (s.fset64 lo hi i v).variant = s.variant := rfl
@[simp] theorem State.fset64_tick (s : State) (lo hi : Field) (i v : Nat) : (s.fset64 lo hi i v).tick = s.tick := rfl
@[simp] theorem State.fset64_freeCount (s : State) (lo hi : Field) (i v : Nat) : (s.fset64 lo hi i v).freeCount = s.freeCount := rfl
@[simp] theorem State.fset64_reg (s : State) (lo hi : Field) (i v : Nat) : (s.fset64 lo hi i v).reg = s.reg := rfl
@[simp] theorem State.fset64_power (s : State) (lo hi : Field) (i v : Nat) : (s.fset64 lo hi i v).power = s.power := rfl
@[simp] theorem State.fset64_arb (s : State) (lo hi : Field) (i v : Nat) : (s.fset64 lo hi i v).arb = s.arb := rfl
@[simp] theorem State.fset64_kettle (s : State) (lo hi : Field) (i v : Nat) : (s.fset64 lo hi i v).kettle = s.kettle := rfl
@[simp] theorem State.fset64_boot (s : State) (lo hi : Field) (i v : Nat) : (s.fset64 lo hi i v).boot = s.boot := rfl
@[simp] theorem State.fset64_eflash (s : State) (lo hi : Field) (i v : Nat) : (s.fset64 lo hi i v).eflash = s.eflash := rfl
@[simp] theorem State.fset64_host (s : State) (lo hi : Field) (i v : Nat) : (s.fset64 lo hi i v).host = s.host := rfl
@[simp] theorem State.fset64_cp (s : State) (lo hi : Field) (i v : Nat) : (s.fset64 lo hi i v).cp = s.cp := rfl
@[simp] theorem State.fset64_units (s : State) (lo hi : Field) (i v : Nat) : (s.fset64 lo hi i v).units = s.units := rfl
@[simp] theorem State.fset64_tiers (s : State) (lo hi : Field) (i v : Nat) : (s.fset64 lo hi i v).tiers = s.tiers := rfl
@[simp] theorem State.fset64_time (s : State) (lo hi : Field) (i v : Nat) : (s.fset64 lo hi i v).time = s.time := rfl
@[simp] theorem State.fset64_ftl (s : State) (lo hi : Field) (i v : Nat) : (s.fset64 lo hi i v).ftl = s.ftl := rfl
@[simp] theorem State.fset64_nand (s : State) (lo hi : Field) (i v : Nat) : (s.fset64 lo hi i v).nand = s.nand := rfl
@[simp] theorem State.fset64_near (s : State) (lo hi : Field) (i v : Nat) : (s.fset64 lo hi i v).near = s.near := rfl
@[simp] theorem State.fset64_snilo (s : State) (lo hi : Field) (i v : Nat) : (s.fset64 lo hi i v).snilo = s.snilo := rfl
@[simp] theorem State.fset64_rel (s : State) (lo hi : Field) (i v : Nat) : (s.fset64 lo hi i v).rel = s.rel := rfl

/-! ### `fbump` changes only `regs` -/

@[simp] theorem State.fbump_pending (s : State) (f : Field) (i k : Nat) : (s.fbump f i k).pending = s.pending := rfl
@[simp] theorem State.fbump_variant (s : State) (f : Field) (i k : Nat) : (s.fbump f i k).variant = s.variant := rfl
@[simp] theorem State.fbump_tick (s : State) (f : Field) (i k : Nat) : (s.fbump f i k).tick = s.tick := rfl
@[simp] theorem State.fbump_freeCount (s : State) (f : Field) (i k : Nat) : (s.fbump f i k).freeCount = s.freeCount := rfl
@[simp] theorem State.fbump_reg (s : State) (f : Field) (i k : Nat) : (s.fbump f i k).reg = s.reg := rfl
@[simp] theorem State.fbump_power (s : State) (f : Field) (i k : Nat) : (s.fbump f i k).power = s.power := rfl
@[simp] theorem State.fbump_arb (s : State) (f : Field) (i k : Nat) : (s.fbump f i k).arb = s.arb := rfl
@[simp] theorem State.fbump_kettle (s : State) (f : Field) (i k : Nat) : (s.fbump f i k).kettle = s.kettle := rfl
@[simp] theorem State.fbump_boot (s : State) (f : Field) (i k : Nat) : (s.fbump f i k).boot = s.boot := rfl
@[simp] theorem State.fbump_eflash (s : State) (f : Field) (i k : Nat) : (s.fbump f i k).eflash = s.eflash := rfl
@[simp] theorem State.fbump_host (s : State) (f : Field) (i k : Nat) : (s.fbump f i k).host = s.host := rfl
@[simp] theorem State.fbump_cp (s : State) (f : Field) (i k : Nat) : (s.fbump f i k).cp = s.cp := rfl
@[simp] theorem State.fbump_units (s : State) (f : Field) (i k : Nat) : (s.fbump f i k).units = s.units := rfl
@[simp] theorem State.fbump_tiers (s : State) (f : Field) (i k : Nat) : (s.fbump f i k).tiers = s.tiers := rfl
@[simp] theorem State.fbump_time (s : State) (f : Field) (i k : Nat) : (s.fbump f i k).time = s.time := rfl
@[simp] theorem State.fbump_ftl (s : State) (f : Field) (i k : Nat) : (s.fbump f i k).ftl = s.ftl := rfl
@[simp] theorem State.fbump_nand (s : State) (f : Field) (i k : Nat) : (s.fbump f i k).nand = s.nand := rfl
@[simp] theorem State.fbump_near (s : State) (f : Field) (i k : Nat) : (s.fbump f i k).near = s.near := rfl
@[simp] theorem State.fbump_snilo (s : State) (f : Field) (i k : Nat) : (s.fbump f i k).snilo = s.snilo := rfl
@[simp] theorem State.fbump_rel (s : State) (f : Field) (i k : Nat) : (s.fbump f i k).rel = s.rel := rfl

/-! ### `fsetBit` changes only `regs` -/

@[simp] theorem State.fsetBit_pending (s : State) (f : Field) (i b : Nat) : (s.fsetBit f i b).pending = s.pending := rfl
@[simp] theorem State.fsetBit_variant (s : State) (f : Field) (i b : Nat) : (s.fsetBit f i b).variant = s.variant := rfl
@[simp] theorem State.fsetBit_tick (s : State) (f : Field) (i b : Nat) : (s.fsetBit f i b).tick = s.tick := rfl
@[simp] theorem State.fsetBit_freeCount (s : State) (f : Field) (i b : Nat) : (s.fsetBit f i b).freeCount = s.freeCount := rfl
@[simp] theorem State.fsetBit_reg (s : State) (f : Field) (i b : Nat) : (s.fsetBit f i b).reg = s.reg := rfl
@[simp] theorem State.fsetBit_power (s : State) (f : Field) (i b : Nat) : (s.fsetBit f i b).power = s.power := rfl
@[simp] theorem State.fsetBit_arb (s : State) (f : Field) (i b : Nat) : (s.fsetBit f i b).arb = s.arb := rfl
@[simp] theorem State.fsetBit_kettle (s : State) (f : Field) (i b : Nat) : (s.fsetBit f i b).kettle = s.kettle := rfl
@[simp] theorem State.fsetBit_boot (s : State) (f : Field) (i b : Nat) : (s.fsetBit f i b).boot = s.boot := rfl
@[simp] theorem State.fsetBit_eflash (s : State) (f : Field) (i b : Nat) : (s.fsetBit f i b).eflash = s.eflash := rfl
@[simp] theorem State.fsetBit_host (s : State) (f : Field) (i b : Nat) : (s.fsetBit f i b).host = s.host := rfl
@[simp] theorem State.fsetBit_cp (s : State) (f : Field) (i b : Nat) : (s.fsetBit f i b).cp = s.cp := rfl
@[simp] theorem State.fsetBit_units (s : State) (f : Field) (i b : Nat) : (s.fsetBit f i b).units = s.units := rfl
@[simp] theorem State.fsetBit_tiers (s : State) (f : Field) (i b : Nat) : (s.fsetBit f i b).tiers = s.tiers := rfl
@[simp] theorem State.fsetBit_time (s : State) (f : Field) (i b : Nat) : (s.fsetBit f i b).time = s.time := rfl
@[simp] theorem State.fsetBit_ftl (s : State) (f : Field) (i b : Nat) : (s.fsetBit f i b).ftl = s.ftl := rfl
@[simp] theorem State.fsetBit_nand (s : State) (f : Field) (i b : Nat) : (s.fsetBit f i b).nand = s.nand := rfl
@[simp] theorem State.fsetBit_near (s : State) (f : Field) (i b : Nat) : (s.fsetBit f i b).near = s.near := rfl
@[simp] theorem State.fsetBit_snilo (s : State) (f : Field) (i b : Nat) : (s.fsetBit f i b).snilo = s.snilo := rfl
@[simp] theorem State.fsetBit_rel (s : State) (f : Field) (i b : Nat) : (s.fsetBit f i b).rel = s.rel := rfl

/-! ### `fclrBit` changes only `regs` -/

@[simp] theorem State.fclrBit_pending (s : State) (f : Field) (i b : Nat) : (s.fclrBit f i b).pending = s.pending := rfl
@[simp] theorem State.fclrBit_variant (s : State) (f : Field) (i b : Nat) : (s.fclrBit f i b).variant = s.variant := rfl
@[simp] theorem State.fclrBit_tick (s : State) (f : Field) (i b : Nat) : (s.fclrBit f i b).tick = s.tick := rfl
@[simp] theorem State.fclrBit_freeCount (s : State) (f : Field) (i b : Nat) : (s.fclrBit f i b).freeCount = s.freeCount := rfl
@[simp] theorem State.fclrBit_reg (s : State) (f : Field) (i b : Nat) : (s.fclrBit f i b).reg = s.reg := rfl
@[simp] theorem State.fclrBit_power (s : State) (f : Field) (i b : Nat) : (s.fclrBit f i b).power = s.power := rfl
@[simp] theorem State.fclrBit_arb (s : State) (f : Field) (i b : Nat) : (s.fclrBit f i b).arb = s.arb := rfl
@[simp] theorem State.fclrBit_kettle (s : State) (f : Field) (i b : Nat) : (s.fclrBit f i b).kettle = s.kettle := rfl
@[simp] theorem State.fclrBit_boot (s : State) (f : Field) (i b : Nat) : (s.fclrBit f i b).boot = s.boot := rfl
@[simp] theorem State.fclrBit_eflash (s : State) (f : Field) (i b : Nat) : (s.fclrBit f i b).eflash = s.eflash := rfl
@[simp] theorem State.fclrBit_host (s : State) (f : Field) (i b : Nat) : (s.fclrBit f i b).host = s.host := rfl
@[simp] theorem State.fclrBit_cp (s : State) (f : Field) (i b : Nat) : (s.fclrBit f i b).cp = s.cp := rfl
@[simp] theorem State.fclrBit_units (s : State) (f : Field) (i b : Nat) : (s.fclrBit f i b).units = s.units := rfl
@[simp] theorem State.fclrBit_tiers (s : State) (f : Field) (i b : Nat) : (s.fclrBit f i b).tiers = s.tiers := rfl
@[simp] theorem State.fclrBit_time (s : State) (f : Field) (i b : Nat) : (s.fclrBit f i b).time = s.time := rfl
@[simp] theorem State.fclrBit_ftl (s : State) (f : Field) (i b : Nat) : (s.fclrBit f i b).ftl = s.ftl := rfl
@[simp] theorem State.fclrBit_nand (s : State) (f : Field) (i b : Nat) : (s.fclrBit f i b).nand = s.nand := rfl
@[simp] theorem State.fclrBit_near (s : State) (f : Field) (i b : Nat) : (s.fclrBit f i b).near = s.near := rfl
@[simp] theorem State.fclrBit_snilo (s : State) (f : Field) (i b : Nat) : (s.fclrBit f i b).snilo = s.snilo := rfl
@[simp] theorem State.fclrBit_rel (s : State) (f : Field) (i b : Nat) : (s.fclrBit f i b).rel = s.rel := rfl

/-! ### `smartAdd` changes only `kettle` -/

@[simp] theorem State.smartAdd_pending (s : State) (k n : Nat) : (s.smartAdd k n).pending = s.pending := rfl
@[simp] theorem State.smartAdd_variant (s : State) (k n : Nat) : (s.smartAdd k n).variant = s.variant := rfl
@[simp] theorem State.smartAdd_regs (s : State) (k n : Nat) : (s.smartAdd k n).regs = s.regs := rfl
@[simp] theorem State.smartAdd_tick (s : State) (k n : Nat) : (s.smartAdd k n).tick = s.tick := rfl
@[simp] theorem State.smartAdd_freeCount (s : State) (k n : Nat) : (s.smartAdd k n).freeCount = s.freeCount := rfl
@[simp] theorem State.smartAdd_reg (s : State) (k n : Nat) : (s.smartAdd k n).reg = s.reg := rfl
@[simp] theorem State.smartAdd_power (s : State) (k n : Nat) : (s.smartAdd k n).power = s.power := rfl
@[simp] theorem State.smartAdd_arb (s : State) (k n : Nat) : (s.smartAdd k n).arb = s.arb := rfl
@[simp] theorem State.smartAdd_boot (s : State) (k n : Nat) : (s.smartAdd k n).boot = s.boot := rfl
@[simp] theorem State.smartAdd_eflash (s : State) (k n : Nat) : (s.smartAdd k n).eflash = s.eflash := rfl
@[simp] theorem State.smartAdd_host (s : State) (k n : Nat) : (s.smartAdd k n).host = s.host := rfl
@[simp] theorem State.smartAdd_cp (s : State) (k n : Nat) : (s.smartAdd k n).cp = s.cp := rfl
@[simp] theorem State.smartAdd_units (s : State) (k n : Nat) : (s.smartAdd k n).units = s.units := rfl
@[simp] theorem State.smartAdd_tiers (s : State) (k n : Nat) : (s.smartAdd k n).tiers = s.tiers := rfl
@[simp] theorem State.smartAdd_time (s : State) (k n : Nat) : (s.smartAdd k n).time = s.time := rfl
@[simp] theorem State.smartAdd_ftl (s : State) (k n : Nat) : (s.smartAdd k n).ftl = s.ftl := rfl
@[simp] theorem State.smartAdd_nand (s : State) (k n : Nat) : (s.smartAdd k n).nand = s.nand := rfl
@[simp] theorem State.smartAdd_near (s : State) (k n : Nat) : (s.smartAdd k n).near = s.near := rfl
@[simp] theorem State.smartAdd_snilo (s : State) (k n : Nat) : (s.smartAdd k n).snilo = s.snilo := rfl
@[simp] theorem State.smartAdd_rel (s : State) (k n : Nat) : (s.smartAdd k n).rel = s.rel := rfl
@[simp] theorem State.smartAdd_fget (s : State) (k n : Nat) (g : Field) (j : Nat) : (s.smartAdd k n).fget g j = s.fget g j := rfl

/-! ### `setCtrl` changes only `host` -/

@[simp] theorem State.setCtrl_pending (s : State) (fn : Nat) (c : Ctrl) : (s.setCtrl fn c).pending = s.pending := rfl
@[simp] theorem State.setCtrl_variant (s : State) (fn : Nat) (c : Ctrl) : (s.setCtrl fn c).variant = s.variant := rfl
@[simp] theorem State.setCtrl_regs (s : State) (fn : Nat) (c : Ctrl) : (s.setCtrl fn c).regs = s.regs := rfl
@[simp] theorem State.setCtrl_tick (s : State) (fn : Nat) (c : Ctrl) : (s.setCtrl fn c).tick = s.tick := rfl
@[simp] theorem State.setCtrl_freeCount (s : State) (fn : Nat) (c : Ctrl) : (s.setCtrl fn c).freeCount = s.freeCount := rfl
@[simp] theorem State.setCtrl_reg (s : State) (fn : Nat) (c : Ctrl) : (s.setCtrl fn c).reg = s.reg := rfl
@[simp] theorem State.setCtrl_power (s : State) (fn : Nat) (c : Ctrl) : (s.setCtrl fn c).power = s.power := rfl
@[simp] theorem State.setCtrl_arb (s : State) (fn : Nat) (c : Ctrl) : (s.setCtrl fn c).arb = s.arb := rfl
@[simp] theorem State.setCtrl_kettle (s : State) (fn : Nat) (c : Ctrl) : (s.setCtrl fn c).kettle = s.kettle := rfl
@[simp] theorem State.setCtrl_boot (s : State) (fn : Nat) (c : Ctrl) : (s.setCtrl fn c).boot = s.boot := rfl
@[simp] theorem State.setCtrl_eflash (s : State) (fn : Nat) (c : Ctrl) : (s.setCtrl fn c).eflash = s.eflash := rfl
@[simp] theorem State.setCtrl_cp (s : State) (fn : Nat) (c : Ctrl) : (s.setCtrl fn c).cp = s.cp := rfl
@[simp] theorem State.setCtrl_units (s : State) (fn : Nat) (c : Ctrl) : (s.setCtrl fn c).units = s.units := rfl
@[simp] theorem State.setCtrl_tiers (s : State) (fn : Nat) (c : Ctrl) : (s.setCtrl fn c).tiers = s.tiers := rfl
@[simp] theorem State.setCtrl_time (s : State) (fn : Nat) (c : Ctrl) : (s.setCtrl fn c).time = s.time := rfl
@[simp] theorem State.setCtrl_ftl (s : State) (fn : Nat) (c : Ctrl) : (s.setCtrl fn c).ftl = s.ftl := rfl
@[simp] theorem State.setCtrl_nand (s : State) (fn : Nat) (c : Ctrl) : (s.setCtrl fn c).nand = s.nand := rfl
@[simp] theorem State.setCtrl_near (s : State) (fn : Nat) (c : Ctrl) : (s.setCtrl fn c).near = s.near := rfl
@[simp] theorem State.setCtrl_snilo (s : State) (fn : Nat) (c : Ctrl) : (s.setCtrl fn c).snilo = s.snilo := rfl
@[simp] theorem State.setCtrl_rel (s : State) (fn : Nat) (c : Ctrl) : (s.setCtrl fn c).rel = s.rel := rfl
@[simp] theorem State.setCtrl_fget (s : State) (fn : Nat) (c : Ctrl) (g : Field) (j : Nat) : (s.setCtrl fn c).fget g j = s.fget g j := rfl

/-! ### `draw` changes only `freeCount` -/

@[simp] theorem State.draw_pending (s : State) : s.draw.2.pending = s.pending := rfl
@[simp] theorem State.draw_variant (s : State) : s.draw.2.variant = s.variant := rfl
@[simp] theorem State.draw_regs (s : State) : s.draw.2.regs = s.regs := rfl
@[simp] theorem State.draw_tick (s : State) : s.draw.2.tick = s.tick := rfl
@[simp] theorem State.draw_reg (s : State) : s.draw.2.reg = s.reg := rfl
@[simp] theorem State.draw_power (s : State) : s.draw.2.power = s.power := rfl
@[simp] theorem State.draw_arb (s : State) : s.draw.2.arb = s.arb := rfl
@[simp] theorem State.draw_kettle (s : State) : s.draw.2.kettle = s.kettle := rfl
@[simp] theorem State.draw_boot (s : State) : s.draw.2.boot = s.boot := rfl
@[simp] theorem State.draw_eflash (s : State) : s.draw.2.eflash = s.eflash := rfl
@[simp] theorem State.draw_host (s : State) : s.draw.2.host = s.host := rfl
@[simp] theorem State.draw_cp (s : State) : s.draw.2.cp = s.cp := rfl
@[simp] theorem State.draw_units (s : State) : s.draw.2.units = s.units := rfl
@[simp] theorem State.draw_tiers (s : State) : s.draw.2.tiers = s.tiers := rfl
@[simp] theorem State.draw_time (s : State) : s.draw.2.time = s.time := rfl
@[simp] theorem State.draw_ftl (s : State) : s.draw.2.ftl = s.ftl := rfl
@[simp] theorem State.draw_nand (s : State) : s.draw.2.nand = s.nand := rfl
@[simp] theorem State.draw_near (s : State) : s.draw.2.near = s.near := rfl
@[simp] theorem State.draw_snilo (s : State) : s.draw.2.snilo = s.snilo := rfl
@[simp] theorem State.draw_rel (s : State) : s.draw.2.rel = s.rel := rfl
@[simp] theorem State.draw_fget (s : State) (g : Field) (j : Nat) : s.draw.2.fget g j = s.fget g j := rfl

/-! ### `count` changes only `reg` -/

@[simp] theorem State.count_pending (s : State) (c i n k : Nat) : (s.count c i n k).pending = s.pending := rfl
@[simp] theorem State.count_variant (s : State) (c i n k : Nat) : (s.count c i n k).variant = s.variant := rfl
@[simp] theorem State.count_regs (s : State) (c i n k : Nat) : (s.count c i n k).regs = s.regs := rfl
@[simp] theorem State.count_tick (s : State) (c i n k : Nat) : (s.count c i n k).tick = s.tick := rfl
@[simp] theorem State.count_freeCount (s : State) (c i n k : Nat) : (s.count c i n k).freeCount = s.freeCount := rfl
@[simp] theorem State.count_power (s : State) (c i n k : Nat) : (s.count c i n k).power = s.power := rfl
@[simp] theorem State.count_arb (s : State) (c i n k : Nat) : (s.count c i n k).arb = s.arb := rfl
@[simp] theorem State.count_kettle (s : State) (c i n k : Nat) : (s.count c i n k).kettle = s.kettle := rfl
@[simp] theorem State.count_boot (s : State) (c i n k : Nat) : (s.count c i n k).boot = s.boot := rfl
@[simp] theorem State.count_eflash (s : State) (c i n k : Nat) : (s.count c i n k).eflash = s.eflash := rfl
@[simp] theorem State.count_host (s : State) (c i n k : Nat) : (s.count c i n k).host = s.host := rfl
@[simp] theorem State.count_cp (s : State) (c i n k : Nat) : (s.count c i n k).cp = s.cp := rfl
@[simp] theorem State.count_units (s : State) (c i n k : Nat) : (s.count c i n k).units = s.units := rfl
@[simp] theorem State.count_tiers (s : State) (c i n k : Nat) : (s.count c i n k).tiers = s.tiers := rfl
@[simp] theorem State.count_time (s : State) (c i n k : Nat) : (s.count c i n k).time = s.time := rfl
@[simp] theorem State.count_ftl (s : State) (c i n k : Nat) : (s.count c i n k).ftl = s.ftl := rfl
@[simp] theorem State.count_nand (s : State) (c i n k : Nat) : (s.count c i n k).nand = s.nand := rfl
@[simp] theorem State.count_near (s : State) (c i n k : Nat) : (s.count c i n k).near = s.near := rfl
@[simp] theorem State.count_snilo (s : State) (c i n k : Nat) : (s.count c i n k).snilo = s.snilo := rfl
@[simp] theorem State.count_rel (s : State) (c i n k : Nat) : (s.count c i n k).rel = s.rel := rfl
@[simp] theorem State.count_fget (s : State) (c i n k : Nat) (g : Field) (j : Nat) : (s.count c i n k).fget g j = s.fget g j := rfl

end Sys2Proof.Machine
end

