-- ==== Sys2Proof/Laws/TickFrame.lean ====
section
/-!
SUPPORT. What each operation of Machine/Tick.lean can change: the parts of the state its frame names, canonical form kept.
-/

namespace Sys2Proof.Machine

theorem State.advanceTime_frame (s : State) :
    Frame [.regs, .tick, .reg, .arb, .kettle, .host, .units, .time] s (State.advanceTime s) := by
  unfold State.advanceTime
  refine Frame.then (State.applyStep_frame _) (by decide) ?_
  refine Frame.upd rfl ?_ (by intro p hp; cases p <;> first | exact absurd (by decide) hp | rfl) (fun h => h)
  exact Frame.refl _ _

theorem State.countTicks_frame (s : State) :
    Frame [.reg, .kettle, .rel] s (State.countTicks s) := by
  unfold State.countTicks
  extract_lets +onlyGivenNames s1
  have h_s1 : Frame [.reg, .kettle, .rel] s s1 := by
    unfold s1
    apply Frame.ite
    · refine Frame.then (State.count_frame _ _ _ _ _) (by decide) ?_
      exact Frame.refl _ _
    · exact Frame.refl _ _
  try clear_value s1
  extract_lets +onlyGivenNames s2
  have h_s2 : Frame [.reg, .kettle, .rel] s s2 := by
    unfold s2
    apply Frame.ite
    · refine Frame.then (State.count_frame _ _ _ _ _) (by decide) ?_
      assumption
    · assumption
  try clear_value s2
  extract_lets +onlyGivenNames s3
  have h_s3 : Frame [.reg, .kettle, .rel] s s3 := by
    unfold s3
    refine Frame.then (State.smartAdd_frame _ _ _) (by decide) ?_
    apply Frame.ite
    · refine Frame.then (State.count_frame _ _ _ _ _) (by decide) ?_
      assumption
    · assumption
  try clear_value s3
  apply Frame.ite
  · refine Frame.setRel (by decide) ?_
    assumption
  · assumption

theorem State.letGo_frame (s : State) :
    Frame [.ftl] s (State.letGo s) := by
  unfold State.letGo
  apply Frame.ite
  · refine Frame.then (State.prune_frame _) (by decide) ?_
    exact Frame.refl _ _
  · exact Frame.refl _ _

theorem State.updateLed_frame (s : State) :
    Frame [.power] s (State.updateLed s) := by
  unfold State.updateLed
  extract_lets +onlyGivenNames r; try clear_value r
  apply Frame.ite
  · exact Frame.refl _ _
  · refine Frame.setPower (by decide) ?_
    exact Frame.refl _ _

theorem State.warn_frame (s : State) :
    Frame [.reg, .arb, .kettle, .host, .units] s (State.warn s) := by
  unfold State.warn
  extract_lets +onlyGivenNames now old; try clear_value now old
  apply Frame.ite
  · exact Frame.refl _ _
  · extract_lets +onlyGivenNames -merge src s1
    have h_s1 : Frame [.reg, .arb, .kettle, .host, .units] s s1 := by
      unfold s1
      refine Frame.setKettle (by decide) ?_
      exact Frame.refl _ _
    try clear_value s1
    refine Frame.foldl ?_ ?_ _
    · intro t fn
      beta_reduce
      beta_reduce
      refine Frame.foldl ?_ ?_ _
      · intro t b
        beta_reduce
        beta_reduce
        apply Frame.ite
        · refine Frame.then (State.aerWarn_frame _ _ _) (by decide) ?_
          exact Frame.refl _ _
        · exact Frame.refl _ _
      · exact Frame.refl _ _
    · assumption

theorem State.settle_frame (s : State) :
    Frame [.regs, .freeCount, .reg, .arb, .kettle, .host, .cp, .units, .tiers, .ftl, .near, .hbm, .sb, .hostMem] s (State.settle s) := by
  unfold State.settle
  extract_lets +onlyGivenNames s0
  have h_s0 : Frame [.regs, .freeCount, .reg, .arb, .kettle, .host, .cp, .units, .tiers, .ftl, .near, .hbm, .sb, .hostMem] s s0 := by
    unfold s0
    refine Frame.foldl ?_ ?_ _
    · intro t c
      beta_reduce
      beta_reduce
      refine Frame.then (State.finishTear_frame _ _) (by decide) ?_
      exact Frame.refl _ _
    · exact Frame.refl _ _
  try clear_value s0
  extract_lets +onlyGivenNames s1
  have h_s1 : Frame [.regs, .freeCount, .reg, .arb, .kettle, .host, .cp, .units, .tiers, .ftl, .near, .hbm, .sb, .hostMem] s s1 := by
    unfold s1
    refine Frame.foldl ?_ ?_ _
    · intro t fn
      beta_reduce
      beta_reduce
      apply Frame.ite
      · refine Frame.then (State.finishShutdown_frame _ _) (by decide) ?_
        exact Frame.refl _ _
      · exact Frame.refl _ _
    · assumption
  try clear_value s1
  refine Frame.then (State.sweepSlots_frame _) (by decide) ?_
  assumption

theorem State.trackOverload_frame (s : State) :
    Frame [.reg, .host, .hostMem] s (State.trackOverload s) := by
  unfold State.trackOverload
  extract_lets +onlyGivenNames ks hot; try clear_value ks hot
  extract_lets +onlyGivenNames h
  extract_lets +onlyGivenNames since cool; try clear_value since cool
  extract_lets +onlyGivenNames s1
  have h_s1 : Frame [.reg, .host, .hostMem] s s1 := by
    unfold s1
    refine Frame.setHost (by decide) ?_
    exact Frame.refl _ _
  try clear_value s1
  apply Frame.ite
  · assumption
  · refine Frame.then (State.count_frame _ _ _ _ _) (by decide) ?_
    assumption

theorem State.passTick_frame (s : State) :
    Frame [.regs, .tick, .freeCount, .reg, .power, .arb, .kettle, .host, .cp, .units, .tiers, .time, .ftl, .near, .rel, .hbm, .sb, .hostMem] s (State.passTick s) := by
  unfold State.passTick
  apply Frame.ite
  · refine Frame.then (State.updateLed_frame _) (by decide) ?_
    refine Frame.setTick (by decide) ?_
    exact Frame.refl _ _
  · apply Frame.ite
    · refine Frame.then (State.updateLed_frame _) (by decide) ?_
      exact Frame.refl _ _
    · extract_lets +onlyGivenNames s0
      have h_s0 : Frame [.regs, .tick, .freeCount, .reg, .power, .arb, .kettle, .host, .cp, .units, .tiers, .time, .ftl, .near, .rel, .hbm, .sb, .hostMem] s s0 := by
        unfold s0
        apply Frame.ite
        · refine Frame.then (State.countWaits_frame _) (by decide) ?_
          refine Frame.then (State.captureDue_frame _) (by decide) ?_
          exact Frame.refl _ _
        · refine Frame.then (State.captureDue_frame _) (by decide) ?_
          exact Frame.refl _ _
      try clear_value s0
      extract_lets +onlyGivenNames s1
      have h_s1 : Frame [.regs, .tick, .freeCount, .reg, .power, .arb, .kettle, .host, .cp, .units, .tiers, .time, .ftl, .near, .rel, .hbm, .sb, .hostMem] s s1 := by
        unfold s1
        refine Frame.then (State.warn_frame _) (by decide) ?_
        refine Frame.then (State.countTicks_frame _) (by decide) ?_
        refine Frame.then (State.advanceTime_frame _) (by decide) ?_
        assumption
      try clear_value s1
      refine Frame.then (State.updateLed_frame _) (by decide) ?_
      apply Frame.ite
      · refine Frame.then (State.letGo_frame _) (by decide) ?_
        refine Frame.then (State.settle_frame _) (by decide) ?_
        refine Frame.then (State.trackOverload_frame _) (by decide) ?_
        assumption
      · assumption

end Sys2Proof.Machine
end

