-- ==== Sys2Proof/WellFormed.lean ====
section
/-!
DEFINITION. The ranges that the operands of a command have where they name a thing the spec numbers: functions, queues and command identifiers,
contexts, Hobs, page classes and instances, units, Colanders, dies, planes, blocks, pages, ports, links and lanes, register words. A command
out of these ranges names nothing that exists.
-/

namespace Sys2Proof

/-- A command identifier in range: functions 0 to 32 (R104), 16-bit queue and command identifiers (R114). -/
def CmdId.wf (c : CmdId) : Bool := decide (c.fn < 33) && decide (c.sq < 65536) && decide (c.cid < 65536)

/-- A well-formed command. -/
def Instr.wf (i : Instr) : Bool :=
  match i with
  | .powerOnStart _ => true
  | .inputSwitchClose => true
  | .prsntBOpen _ _ => true
  | .brownOut _ _ => true
  | .inputOverVoltage _ _ => true
  | .inputOverCurrent _ _ _ => true
  | .brownOutRecovery _ _ _ => true
  | .holdUpBankExhausted => true
  | .brownOutOpHoldExpiry => true
  | .perstAssert _ => true
  | .perstDeassert _ _ => true
  | .pcieLinkTrained _ _ => true
  | .pcieLaneRetire lane _ => decide (lane < 16)
  | .pcieUncorrectableTlp _ _ => true
  | .controllerEnable fn _ _ _ _ => decide (fn < 33)
  | .controllerReset fn => decide (fn < 33)
  | .shutdownNotification fn => decide (fn < 33)
  | .functionLevelReset fn => decide (fn < 34)
  | .mediaReady journal => decide (journal < 3)
  | .watchdogExpiry _ _ _ => true
  | .watchdogKick => true
  | .heartbeatReport src => decide (src < 18)
  | .opRequestWrite v => decide (v < 8)
  | .boostAllowWrite _ => true
  | .rampComplete => true
  | .op5ConditionFail => true
  | .op5HoldExpiry => true
  | .rateWindowEnd c inst _ => decide (c < 256) && decide (inst < 256)
  | .handshakeStall c inst _ _ _ _ => decide (c < 256) && decide (inst < 256)
  | .arbiterGrant _ _ _ _ => true
  | .lockstepSlot _ _ _ _ => true
  | .detModeRequestWrite _ => true
  | .detModeToLockstep => true
  | .detModeToFree => true
  | .arm => true
  | .lockstepArmTick => true
  | .badAccess a _ _ => decide (a < 268435456)
  | .registerWrite a v _ => decide (a < 268435456) && decide (v < 18446744073709551616)
  | .readLoLatch a _ => decide (a < 268435456)
  | .readClear a => decide (a < 268435456)
  | .pairHiWrite a v => decide (a < 268435456) && decide (v < 4294967296)
  | .proxyReadTimeout inst off => decide (inst < 64) && decide (off < 4096)
  | .proxyWriteDropped inst => decide (inst < 64)
  | .enableWrite c inst _ => decide (c < 256) && decide (inst < 256)
  | .drainWrite c inst _ => decide (c < 256) && decide (inst < 256)
  | .pageReset c inst => decide (c < 256) && decide (inst < 256)
  | .unitStartComplete c inst _ => decide (c < 256) && decide (inst < 256)
  | .startLimitExpiry c inst => decide (c < 256) && decide (inst < 256)
  | .drainComplete c inst => decide (c < 256) && decide (inst < 256)
  | .errStatusClear c inst _ _ => decide (c < 256) && decide (inst < 256)
  | .errorCapture c inst _ _ _ => decide (c < 256) && decide (inst < 256)
  | .injectGo c inst => decide (c < 256) && decide (inst < 256)
  | .snapshotTrigger c inst => decide (c < 256) && decide (inst < 256)
  | .globalSnapshotTrigger => true
  | .snapshotCapture => true
  | .timeSourceRequestWrite v => decide (v < 4)
  | .testModeEnter key => decide (key < 65536)
  | .testModeLeave => true
  | .mediaReadOnlyEntry => true
  | .sqDoorbell fn q tail => decide (fn < 33) && decide (q < 65536) && decide (tail < 65536)
  | .cqDoorbell fn q _ => decide (fn < 33) && decide (q < 65536)
  | .commandFetch cid _ => decide (cid < 65536)
  | .overloadRaise k => decide (k < 65)
  | .overloadClear k => decide (k < 65)
  | .identify cmd _ _ => cmd.wf
  | .getLogPage cmd _ _ _ _ _ _ => cmd.wf
  | .floorRatioOpenInterval cmd _ _ => cmd.wf
  | .floorRatioCloseInterval cmd _ _ => cmd.wf
  | .getFeatures cmd _ _ => cmd.wf
  | .setFeatures cmd _ _ _ => cmd.wf
  | .setFeaturesPowerManagement cmd ps => cmd.wf && decide (ps < 32)
  | .setFeaturesContextQuota cmd _ _ => cmd.wf
  | .createIoSq cmd _ _ _ _ _ _ _ => cmd.wf
  | .createIoCq cmd _ _ _ _ => cmd.wf
  | .deleteIoSq cmd _ => cmd.wf
  | .deleteIoCq cmd _ => cmd.wf
  | .abort cmd _ _ => cmd.wf
  | .abortTimeout cmd => cmd.wf
  | .asyncEventRequest cmd => cmd.wf
  | .asyncEventPost fn _ _ => decide (fn < 33)
  | .namespaceManagement cmd _ _ _ _ _ _ => cmd.wf
  | .namespaceAttachment cmd _ _ _ => cmd.wf
  | .formatNvm cmd _ _ _ => cmd.wf
  | .sanitize cmd _ _ _ => cmd.wf
  | .sanitizeProgress => true
  | .sanitizeComplete => true
  | .sanitizeFail _ => true
  | .firmwareImageDownload cmd _ _ => cmd.wf
  | .firmwareCommitWrite cmd _ _ => cmd.wf
  | .firmwareCommitWriteActivate cmd _ _ => cmd.wf
  | .firmwareCommitActivate cmd _ => cmd.wf
  | .keyPackageCommit cmd _ => cmd.wf
  | .securitySend cmd _ _ _ _ => cmd.wf
  | .securityReceive cmd _ => cmd.wf
  | .nvmeMiSend cmd _ => cmd.wf
  | .nvmeMiReceive cmd _ => cmd.wf
  | .resumeContext cmd c _ => cmd.wf && decide (c < 4294967296)
  | .tearDownContext cmd c => cmd.wf && decide (c < 4294967296)
  | .collectionDescriptorSet cmd id _ _ => cmd.wf && decide (id < 65536)
  | .collectionDescriptorGet cmd id => cmd.wf && decide (id < 65536)
  | .timeQuery cmd => cmd.wf
  | .adminUnsupported cmd => cmd.wf
  | .nvmRead cmd _ _ _ _ _ => cmd.wf
  | .nvmWrite cmd _ _ _ => cmd.wf
  | .nvmFlush cmd _ => cmd.wf
  | .nvmWriteZeroes cmd _ _ _ => cmd.wf
  | .datasetManagementDeallocate cmd _ _ _ => cmd.wf
  | .nvmCompare cmd _ _ _ _ _ => cmd.wf
  | .nvmVerify cmd _ _ _ _ _ => cmd.wf
  | .slmRead cmd _ _ _ => cmd.wf
  | .slmWrite cmd _ _ _ => cmd.wf
  | .executeProgram cmd _ cdw10 cdw11 limit cdw13 _ => cmd.wf && decide (cdw10 < 4294967296) && decide (cdw11 < 4294967296) && decide (limit < 4294967296) && decide (cdw13 < 79228162514264337593543950336)
  | .loadProgram cmd _ slot _ _ => cmd.wf && decide (slot < 65536)
  | .programActivationManagement cmd _ slot _ => cmd.wf && decide (slot < 65536)
  | .memoryRangeSetManagement cmd _ _ _ => cmd.wf
  | .apstIdleExpiry => true
  | .psEntryStart => true
  | .psEntryComplete => true
  | .psExitComplete => true
  | .taskStart c => decide (c < 64)
  | .taskEnd c => decide (c < 64)
  | .taskFault c h _ _ _ _ _ => decide (c < 64) && decide (h < 2)
  | .taskTimeout c => decide (c < 64)
  | .barrier c h => decide (c < 64) && decide (h < 2)
  | .barrierRelease c h => decide (c < 64) && decide (h < 2)
  | .semWait c h => decide (c < 64) && decide (h < 2)
  | .semWaitSatisfied c h => decide (c < 64) && decide (h < 2)
  | .semSignal c h => decide (c < 64) && decide (h < 2)
  | .semSignalEffect c h _ => decide (c < 64) && decide (h < 2)
  | .yield c h => decide (c < 64) && decide (h < 2)
  | .yieldDrained c => decide (c < 64)
  | .repeat c h => decide (c < 64) && decide (h < 2)
  | .griddleMm c h => decide (c < 64) && decide (h < 2)
  | .griddlePassComplete inst r => decide (inst < 34) && decide (r < 4)
  | .griddleCheckError inst r _ _ _ => decide (inst < 34) && decide (r < 4)
  | .streamMismatch inst r _ => decide (inst < 34) && decide (r < 4)
  | .griddleSelfCheck inst r => decide (inst < 34) && decide (r < 4)
  | .griddleSelfCheckDone inst _ _ _ => decide (inst < 34)
  | .selfCheckGo inst => decide (inst < 34)
  | .spareRowCommit inst => decide (inst < 34)
  | .griddleRetire inst => decide (inst < 34)
  | .drainCfg c h => decide (c < 64) && decide (h < 2)
  | .drainTableLoadDone inst r => decide (inst < 34) && decide (r < 4)
  | .drainTileStart inst r => decide (inst < 34) && decide (r < 4)
  | .drainTileComplete inst r => decide (inst < 34) && decide (r < 4)
  | .drainError inst r _ _ _ => decide (inst < 34) && decide (r < 4)
  | .ladleMove c h => decide (c < 64) && decide (h < 2)
  | .ladleMoveStart ch => decide (ch < 128)
  | .ladleMoveComplete ch => decide (ch < 128)
  | .ladleHalt ch _ _ => decide (ch < 128)
  | .sbReadError h a _ _ _ => decide (h < 2) && decide (a < 268435456)
  | .whisk c h => decide (c < 64) && decide (h < 2)
  | .whiskCheckError inst _ _ => decide (inst < 8)
  | .hbmReadError k _ _ _ _ _ cmd => cmd.wf && decide (k < 8)
  | .hbmRowRepair t _ => decide (t < 196608)
  | .hbmPseudoChannelRetire k p _ => decide (k < 8) && decide (p < 64)
  | .heatDecay => true
  | .placementPeriod => true
  | .placementCopyComplete _ => true
  | .windowPageReady ch _ => decide (ch < 128)
  | .batchStep c => decide (c < 64)
  | .createContext v => decide (v < 128)
  | .cmdTearDown v => decide (v < 128)
  | .cmdPreempt v _ => decide (v < 128)
  | .cmdSetPolicy v => decide (v < 128)
  | .contextLoad c => decide (c < 64)
  | .preemptDecision c => decide (c < 64)
  | .forceAfterExpiry c => decide (c < 64)
  | .forcedPreempt c => decide (c < 64)
  | .contextSaveComplete c => decide (c < 64)
  | .contextRestore c => decide (c < 64)
  | .contextRestoreComplete c => decide (c < 64)
  | .puuStep c h => decide (c < 64) && decide (h < 2)
  | .puuStepComplete h => decide (h < 2)
  | .puuStepFault h _ _ _ _ => decide (h < 2)
  | .puuSelfTestGo h => decide (h < 2)
  | .puuSelfTestDone h _ _ => decide (h < 2)
  | .filterLoad c h => decide (c < 64) && decide (h < 2)
  | .filterCount c h => decide (c < 64) && decide (h < 2)
  | .filterBitmap c h => decide (c < 64) && decide (h < 2)
  | .filterGather c h => decide (c < 64) && decide (h < 2)
  | .skimScanLoadTables c h => decide (c < 64) && decide (h < 2)
  | .skimScanScan c h => decide (c < 64) && decide (h < 2)
  | .colanderDescriptorComplete c h _ => decide (c < 64) && decide (h < 2)
  | .colanderRunFault c h _ _ _ _ => decide (c < 64) && decide (h < 2)
  | .skimMergeTables c h => decide (c < 64) && decide (h < 2)
  | .skimMergeMerge c h => decide (c < 64) && decide (h < 2)
  | .skimMergeExpand c h => decide (c < 64) && decide (h < 2)
  | .skimMergeRerank c h => decide (c < 64) && decide (h < 2)
  | .skimMergeRescan c h => decide (c < 64) && decide (h < 2)
  | .skimMergeFetch c h => decide (c < 64) && decide (h < 2)
  | .skimMergeComplete c h _ _ => decide (c < 64) && decide (h < 2)
  | .epochAdvance c h => decide (c < 64) && decide (h < 2)
  | .flashProgram c _ _ => decide (c < 64)
  | .flashProgramFail c d k b => decide (c < 64) && decide (d < 16) && decide (k < 6) && decide (b < 2208)
  | .flashErase c d b _ _ _ => decide (c < 64) && decide (d < 16) && decide (b < 2208)
  | .flashRead c d k b p _ _ _ => decide (c < 64) && decide (d < 16) && decide (k < 6) && decide (b < 2208) && decide (p < 1152)
  | .flashKeyLoad c _ => decide (c < 64)
  | .programEraseResume c d => decide (c < 64) && decide (d < 16)
  | .dieTimeout c d => decide (c < 64) && decide (d < 16)
  | .zqCalibration c d => decide (c < 64) && decide (d < 16)
  | .thresholdTemperatureUpdate c d _ => decide (c < 64) && decide (d < 16)
  | .onfiChannelStepDown c _ _ => decide (c < 64)
  | .dieRetire c d => decide (c < 64) && decide (d < 16)
  | .dieRelocationComplete c d => decide (c < 64) && decide (d < 16)
  | .packageRetire c => decide (c < 64)
  | .packageEvacuationComplete c => decide (c < 64)
  | .stagingSlotCommit _ => true
  | .journalFlush => true
  | .journalForcedFlush => true
  | .mapEccReload _ => true
  | .gcCopyCommit _ _ => true
  | .gcStart c => decide (c < 64)
  | .gcStop c => decide (c < 64)
  | .retentionRefresh c b => decide (c < 64) && decide (b < 2208)
  | .packageShed c => decide (c < 64)
  | .suspectIuRelocate _ _ => true
  | .pantryLaneReplay k lane _ _ => decide (k < 64) && decide (lane < 3)
  | .pantryLaneSpare k lane _ => decide (k < 64) && decide (lane < 3)
  | .pantryLinkDegrade k lane _ => decide (k < 64) && decide (lane < 3)
  | .colanderSelfCheck k _ _ _ _ => decide (k < 64)
  | .hobLinkFault _ => true
  | .hobLinkLaneRepair h => decide (h < 2)
  | .unitRetirement c inst _ => decide (c < 256) && decide (inst < 256)
  | .nandPatrol c d k b wl _ _ => decide (c < 64) && decide (d < 16) && decide (k < 6) && decide (b < 2208) && decide (wl < 384)
  | .mediaScan _ _ => true
  | .hbmScrub _ _ _ => true
  | .sramScrub _ _ _ _ _ => true
  | .lpddr5xScrub _ _ => true
  | .spareGriddleCheck h _ => decide (h < 2)
  | .spareLaneCheck k _ => decide (k < 64)
  | .edgeRepairPass _ _ _ => true
  | .sensorSample _ _ _ => true
  | .railMonitorRecalibrate n => decide (n < 232)
  | .thermalTripClear => true
  | .thermalShutdownRelease _ _ => true
  | .powerCapWrite v _ => decide (v < 65536)
  | .powerCapWindow => true
  | .recorderEntryAccept => true
  | .recorderFreeze _ => true
  | .hostFreeze _ => true
  | .unfreeze _ => true
  | .recordPersist _ => true
  | .mctpSetEndpointId eid => decide (eid < 256)
  | .nvmeMiRequest _ _ => true
  | .pldmPlatformRequest _ _ => true
  | .pldmRequestUpdate => true
  | .pldmUpdateComponent _ => true
  | .pldmFirmwareData _ _ _ => true
  | .pldmActivateFirmware _ => true
  | .pldmCancelUpdate => true
  | .plannedKettleRestart _ => true
  | .eflashRead a _ _ => decide (a < 4294967296)
  | .eflashProgram a _ _ _ _ _ _ _ _ => decide (a < 4294967296)
  | .eflashErase _ _ _ _ _ _ _ _ _ => true
  | .eflashBlankCheck _ _ => true
  | .configStoreCompaction => true
  | .ptpSyncReceived p _ _ _ _ _ => decide (p < 2)
  | .ptpAnnounceReceived p _ _ _ _ => decide (p < 2)
  | .ptpDelayResponse p _ _ _ _ _ => decide (p < 2)
  | .ptpPdelayRequest p _ _ _ => decide (p < 2)
  | .ptpSourceLoss p => decide (p < 2)
  | .ptpPreferredReturn => true
  | .ptmDialog _ _ _ _ => true
  | .ppsOutEdge => true
  | .ppsInEdge _ => true
  | .ppsInMissing => true
  | .ethernetLinkDown p _ => decide (p < 2)
  | .ethernetLinkUp p _ _ => decide (p < 2)
  | .ethernetFrameDiscard p _ _ _ => decide (p < 2)
  | .sniloReadReq port src _ _ _ => decide (port < 2) && decide (src < 32768)
  | .sniloReadRsp tag _ port src => decide (port < 2) && decide (src < 32768) && decide (tag < 4294967296)
  | .sniloNak tag reason port src => decide (port < 2) && decide (src < 32768) && decide (tag < 4294967296) && decide (reason < 256)
  | .sniloRetransmit ch _ _ _ => decide (ch < 128)
  | .sniloRemoteTimeout ch _ _ => decide (ch < 128)
  | .sniloCreditsEnd ch => decide (ch < 128)
  | .loadPeers => true
  | .loadExports => true
  | .clearExports => true
  | .sledIdWrite v => decide (v < 4294967296)
  | .pantryLaneLossOfLock k lane _ _ => decide (k < 64) && decide (lane < 3)
  | .pcieLinkReplay lane => decide (lane < 16)
  | .ptpDelayRequestSend p _ => decide (p < 2)
  | .arpNeighborDiscovery p _ _ _ _ => decide (p < 2)
  | .pfcFrame p prio _ => decide (p < 2) && decide (prio < 8)
  | .pcieConfigurationWrite _ v fn => decide (fn < 34) && decide (v < 18446744073709551616)
  | .interruptCoalescingTimeout fn _ => decide (fn < 33)

end Sys2Proof
end

