-- ==== Sys2Proof/Tests/Slice0.lean ====
section
/-!
SUPPORT. Tests of the model: ill-formed commands that the check refuses, steps on small states with the results that the
spec gives, and for every statement a state and operands that meet its hypotheses.
-/

namespace Sys2Proof.Tests

open Sys2Proof Sys2Proof.Machine

-- The witnesses are checked one after another: in parallel they exhaust the threads.
set_option Elab.async false

/-- The state after reset with the Kettle, the planes, every rail and the host link up. -/
def up : State :=
  { State.reset with
    power := { State.reset.power with
      seated := true
      switchClosed := true
      kettleUp := true
      controlUp := true
      perst := false
      domUp := [(1, 0), (2, 0), (3, 0), (4, 0), (5, 0), (6, 0)] }
    host := { State.reset.host with
      linkUp := true
      trained := true
      width := 16 } }

/-- A state with some fields set, each given with its instance and value. -/
def on (fs : List (Field × Nat × Nat)) (s : State) : State := fs.foldl (fun t f => t.fset f.1 f.2.1 f.2.2) s

/-- A start with nothing amiss. -/
def inp0 : StartInput :=
  { straps := 0, romFault := false, bankUf := 0, charged := true, badComponent := false, startFails := false, dip := 0, vals := [] }

/-- The controller of the physical function ready, one NVM and one SLM namespace, an admin queue and one queue pair. -/
def live : State :=
  let s := up.setCtrl 0 { up.ctrl 0 with en := true, rdy := true }
  { s with
    ftl := { s.ftl with ready := true }
    host := { s.host with
      sqs := [(0, { size := 64, cq := 0, prio := 0, ctx := none, tail := 1, head := 0 }),
        (1, { size := 64, cq := 1, prio := 0, ctx := none, tail := 1, head := 0 })]
      cqs := [(0, { size := 64, ien := false, iv := 0, used := 1 }), (1, { size := 64, ien := false, iv := 0, used := 1 }),
        (2, { size := 64, ien := false, iv := 0, used := 1 })]
      namespaces := [(2, { kind := .nvm, units := 4, lbaf := 0, pset := 1, attached := [0], pages := [], rdLocked := false, wrLocked := false }),
        (3, { kind := .slm, units := 1, lbaf := 0, pset := 0, attached := [0], pages := [70], rdLocked := false, wrLocked := false })] } }

/-- A command on the admin queue, and one on queue 1. -/
def adm : CmdId := { fn := 0, sq := 0, cid := 7 }
def io : CmdId := { fn := 0, sq := 1, cid := 9 }

/-- A context request on Hob 0: logical Griddle 0 whole, channels 0 to 3, macro-group 1, every unit, semaphores 1 and 2. -/
def req0 : Request :=
  { fn := 0, pairing := 0, prio := 1, forceable := true, quantum := 0, forceAfter := 100, shares := 1, maxSb := 1, maxAcc := 1, seed := 1
    griddles := [4], ladles := [15], sbs := [2], units := [63], semBase := [1], semCount := [2], work := [], window := []
    batchS := 0, batchP := 0, dirAddr := 0, dirBytes := 0 }

/-- An idle context with that request, its program in macro-group 2, working page 71, bound to queue 1. -/
def ctx0 : Ctx := { newCtx req0 [2, 48] [(1, 71)] false with sq := some 1 }

/-- A state with context 0, and queue 1 bound to it. -/
def withCtx (x : Ctx) (s : State) : State :=
  { s with
    cp := { s.cp with ctxs := [(0, x)] }
    host := { s.host with sqs := [(1, { size := 64, cq := 1, prio := 0, ctx := some 0, tail := 1, head := 0 })] } }

/-- Submission queue 1 bound to context 0. -/
def ctxSq : Sq := { size := 64, cq := 1, prio := 0, ctx := some 0, tail := 1, head := 0 }

/-- 256 commands held in intake for context 3. -/
def slots3 : List Intake := List.replicate 256 { cmd := io, kind := .compute 3, begun := false, exec := none, op := none }

/-- The controller ready and no command outstanding. -/
def quiet : State := { live with host := { live.host with sqs := [] } }

/-- A program image: four descriptors, 4 KiB of data, live sizes 4. -/
def image : List Byte := List.replicate 8 0 ++ natLE 4 4 ++ natLE 4096 4 ++ natLE 4 4 ++ natLE 4 4 ++ List.replicate 232 0

/-- A task of slot 0 about to issue descriptor 1. -/
def task0 : Task :=
  let e : ExecCmd := { cmd := io, slot := 0, timeLimit := 0, argLen := 0, dptr := [], mrs := 0, arg := [] }
  let t := newTask ctx0 e 0 []
  { t with regs0 := { t.regs0 with issueIndex := 1 } }

/-- Context 0 running a task. -/
def runCtx (t : Task) : Ctx := { ctx0 with st := .running, task := some t, staged := some 0 }

/-- Context 0 runs on its home, and the next descriptor of its sequencer is `w`. -/
def runs (t : Task) (w : Nat) : State :=
  let s := (withCtx (runCtx t) live).ownHome req0 0
  ({ s with cp := { s.cp with slots := [(0, { owner := 0, bytes := image, complete := true, active := true })] } }).sbWrite 0
    (2 * 2 ^ 22 + 16) (natLE w 16)

/-- A collection descriptor of namespace 2: one group of one record, and one column of one byte. -/
def coll0 : List Byte :=
  natLE 1 2 ++ natLE 1 2 ++ natLE 2 4 ++ natLE 1 4 ++ natLE 0 12 ++ natLE 1 8 ++ natLE 1 8 ++ [255, 255] ++ natLE 0 214 ++
    ([1, 0, 1, 0, 0, 0, 0, 0, 0, 1, 0, 0, 1] ++ List.replicate 19 0)

/-- The free superblocks are at least as many as those among the first twelve. -/
theorem freeSbs_of_first (s : State) (c n : Nat) (h : n ≤ ((List.range 12).filter (s.sbFree c)).length) : n ≤ (s.freeSbs c).length :=
  Nat.le_trans h ((List.Sublist.filter _ (List.range_sublist.2 (by decide))).length_le)

/-- No superblock is free where all are closed. -/
theorem freeSbs_none (s : State) (c : Nat) (h : s.ftl.closed = (List.range 2208).map (sbKey c)) : s.freeSbs c = [] := by
  simp only [State.freeSbs, List.filter_eq_nil_iff, List.mem_range]
  intro b hb
  have : (s.busySbs c).contains b = true := by
    simp only [State.busySbs, h, List.contains_iff_mem, List.mem_append, List.mem_map, List.mem_filter, List.mem_range]
    refine Or.inl (Or.inr ⟨sbKey c b, ⟨Or.inl ⟨b, hb, rfl⟩, ?_⟩, ?_⟩)
    · simp only [sbKey, beq_iff_eq]; omega
    · simp only [sbKey]; omega
  rw [State.sbFree, this]
  simp

/-- A package without a free superblock opens none. -/
theorem leastWorn_none {s : State} {c : Nat} (h : s.freeSbs c = []) : s.leastWorn c = none := by
  rw [State.leastWorn, h]
  rfl

/-- An operation that answers, answers something. -/
theorem some_getD {α : Type} {o : Option α} (d : α) (h : o.isSome = true) : o = some (o.getD d) := by
  cases o with
  | none => simp at h
  | some a => rfl

/-- What holds of every answer holds where there is none. -/
theorem all_none {α : Type} {o : Option α} {P : α → Prop} (h : o = none) : ∀ x, o = some x → P x := by
  intro x hx
  rw [h] at hx
  cases hx

/-- No superblock is open where none is listed. -/
theorem none_open {s : State} (k c : Nat) (h : s.ftl.openSb = []) (b pos : Nat) (hx : sget? s.ftl.openSb k = some (b, pos)) :
    s.locAt c b pos = none := by
  rw [h] at hx
  cases hx

/-- Staging takes one more IU of namespace 2. -/
theorem staging_room : live.canStage 2 (2047 * 4096) 4096 1 = true := by
  have hp : ((iusOf 2 (2047 * 4096) 4096).map fun iu => live.packageOf (iuTier iu)).eraseDups = [3] := by decide +kernel
  have hs : live.slotsFree 1 = true := by decide +kernel
  have hf : 4 < (live.freeSbs 3).length := freeSbs_of_first _ _ 5 (by decide +kernel)
  simp only [State.canStage, State.aboveFloor, hp, hs]
  simp [hf]

/-- Two contexts are 0 and a waiting one of a higher priority that overlaps it. -/
def outranked (x : Ctx) : State :=
  let s := runs task0 0
  { s with cp := { s.cp with ctxs := [(0, x), (5, { ctx0 with st := .waiting, req := { req0 with prio := 3 } })] } }

/-- A checkpoint of the task. -/
def saved0 : Saved :=
  { regs := [task0.regs0, task0.regs1], sb := [], sems := [], tiles := [], accs := [], forced := true, ended := [false, false], advances := [] }

/-- The task with that checkpoint, and one with a time limit of 2 ms. -/
def held : Task := { task0 with checkpoint := some saved0 }
def timed : Task := { task0 with exec := { task0.exec with timeLimit := 2 } }

/-- The descriptor that the sequencer of `runs t w` meets next. -/
def d0 (t : Task) (w : Nat) : Desc := { c := 0, h := 0, x := runCtx t, t := t, i := 1, w := w }

/-- A semaphore with a value. -/
def sems (n v : Nat) (s : State) : State := { s with cp := { s.cp with sems := [(n, v)] } }

/-- Context 0 idle, and a command held for it. -/
def holding (e : Option ExecCmd) (op : Option QueueOp) : State :=
  let s := withCtx ctx0 (on [(hdr_STATE 0, 0, 2)] live)
  { s with host := { s.host with intake := [{ cmd := io, kind := .compute 0, begun := false, exec := e, op := op }] } }

/-- The same with an active image in slot 0 and its home's Griddle on. -/
def startable : State :=
  let s := on [(hdr_STATE 0x11, 0, 2)] (holding (some task0.exec) none)
  let b := List.replicate 8 0 ++ natLE 4 4 ++ natLE 4096 4 ++ natLE 1 4 ++ natLE 1 4 ++ List.replicate 232 0
  { s with cp := { s.cp with slots := [(0, { owner := 0, bytes := b, complete := true, active := true })] } }

/-- `s` once crossing point 1 has granted the load of context 0 presented at tick 0. -/
def granted (s : State) : State := (s.grantedLoad 0 ((s.ctx? 0).getD ctx0) 0).getD s

/-- A context request block at host address 0, for Hob 0, with its page directory at 8,192. -/
def asks : State :=
  let s := on [(hdr_STATE 0, 0, 2)] live
  { s with host := { s.host with mem := ((s.host.mem.writeL 0 [1]).writeL 233 [32]).writeL 240 [0, 1] } }

/-- A stack with a free pool page gives one. -/
theorem takePages_first {s : State} {k t : Nat} {l : List Nat} (h : s.freePages k = t :: l) :
    ∃ u, s.takePages [] k 1 = some ([t], u) := by
  simp [State.takePages, h]

/-- The first of several takings. -/
theorem takeAll_cons {held : List (Nat × Nat)} {w : Nat × Nat × Nat} {ws : List (Nat × Nat × Nat)} {s u : State} {ps : List Nat}
    (h : s.takePages (held.map Prod.snd) w.2.1 w.2.2 = some (ps, u)) :
    takeAll held (w :: ws) s = takeAll (held ++ ps.map fun t => (w.1, t)) ws u := by
  simp only [takeAll, h]

/-- Taking no pages always succeeds. -/
theorem takeAll_none (ws : List (Nat × Nat × Nat)) (h : ∀ w ∈ ws, w.2.2 = 0) (held : List (Nat × Nat)) (s : State) :
    takeAll held ws s = some (held, s) := by
  induction ws with
  | nil => rfl
  | cons w ws ih =>
    have hw : s.takePages (held.map Prod.snd) w.2.1 w.2.2 = some ([], s) := by
      rw [h w (by simp)]; simp [State.takePages]
    rw [takeAll_cons hw]
    simpa using ih (fun x hx => h x (by simp [hx]))

/-- A stack whose last page no one holds has a free pool page. -/
theorem freePages_cons {s : State} {k : Nat} (hu : s.poolUsable (24576 * k + 24575) = true)
    (hn : ((s.slmPages ++ s.ctxPages ++ s.copyPages).filter fun t => t / 24576 == k).contains (24576 * k + 24575) = false) :
    ∃ t l, s.freePages k = t :: l := by
  have hm : 24576 * k + 24575 ∈ s.freePages k := by
    simp only [State.freePages, List.mem_filter, List.mem_map, List.mem_range, hu, hn]
    exact ⟨⟨24575, by decide, rfl⟩, rfl⟩
  cases hl : s.freePages k with
  | nil => simp [hl] at hm
  | cons t l => exact ⟨t, l, rfl⟩

/-- The save area of Hob 0 stands on one of its four stacks. -/
theorem saveStack_lt (s : State) : s.saveStack 0 < 4 := by
  have key : ∀ (l : List Nat) (b : Nat), (∀ k ∈ l, k < 4) → b < 4 →
      l.foldl (fun b k => if s.freeCountOf b < s.freeCountOf (4 * 0 + k) then 4 * 0 + k else b) b < 4 := by
    intro l
    induction l with
    | nil => exact fun b _ hb => hb
    | cons k l ih =>
      intro b hl hb
      have hk := hl k (by simp)
      simp only [List.foldl_cons]
      apply ih _ (fun x hx => hl x (by simp [hx]))
      split <;> omega
  exact key _ _ (by decide) (by decide)

/-- CREATE_CONTEXT with the request block of `asks` succeeds. -/
theorem asks_created : (asks.createContext 63).1 = 0 := by
  have hs := saveStack_lt asks
  generalize hr : decodeRequest asks.requestBytes = r
  have hw : asks.wants r = (0, asks.saveStack 0, 1) :: [(1, 0, 0), (2, 0, 0), (1, 1, 0), (2, 1, 0), (1, 2, 0), (2, 2, 0), (1, 3, 0), (2, 3, 0)] := by
    subst hr; rfl
  generalize asks.saveStack 0 = k at hs hw
  have hf : ∀ k < 4, asks.poolUsable (24576 * k + 24575) = true ∧
      ((asks.slmPages ++ asks.ctxPages ++ asks.copyPages).filter fun t => t / 24576 == k).contains (24576 * k + 24575) = false := by
    decide +kernel
  obtain ⟨t, l, hl⟩ := freePages_cons (hf _ hs).1 (hf _ hs).2
  obtain ⟨u, hu⟩ := takePages_first hl
  have ht : takeAll [] (asks.wants r) asks = some ([(0, t)], u) := by
    rw [hw, takeAll_cons (held := []) (w := (0, k, 1)) hu, takeAll_none _ (by decide)]
    rfl
  have h1 : asks.globalOn = true := by decide +kernel
  have h2 : ¬ (asks.fget ctxm_REQ_ADDR_LO 0 % 64 ≠ 0 ∨ (64 ≤ 63 ∧ 63 ≠ 0x7F) ∨ ¬ requestFieldsOk asks.requestBytes r) := by
    subst hr; decide +kernel
  have h3 : asks.pickNumber 63 = some 63 := by decide +kernel
  have h4 : asks.quotaOk r.fn = true := by subst hr; decide +kernel
  have h5 : asks.unitsThere r = true := by subst hr; decide +kernel
  have h6 : asks.groupsFree r = true := by subst hr; decide +kernel
  have h8 : asks.slotsOk r = true := by subst hr; decide +kernel
  have h9 : ¬ r.dirBytes < 64 + 8 * (dirEntries [(0, t)]).length := by
    have : (dirEntries [(0, t)]).length = 1 := rfl
    rw [this]; subst hr; decide +kernel
  simp only [State.createContext, hr, h1, h2, h3, h4, h5, h6, h8, h9, ht, not_true_eq_false, if_false]

/-- A GRIDDLE_MM of one vector, row and column into tile share 1, with INT8 formats, from channel 0. -/
def mm0 : Nat := 0x10 + 2 ^ 30 + 2 ^ 39 + 2 ^ 48 + 2 ^ 57

/-- A region with one weight active and accumulation settings. -/
def region0 : Region :=
  { Region.empty with
    active := [{ load := { fmt := 0, elems := 1, cols := [[1]] }, rows := 1, wide := 1 }]
    issActive := some 0
    acc := some { exp := 0, zero := 0, pre := 0 } }

/-- Griddle 0 on, its region 0 in context 0's home and holding `x`; `w` is the next descriptor. -/
def grid (w : Nat) (x : Region) : State :=
  let s := on [(hdr_STATE 0x11, 0, 2)] (runs task0 w)
  { s with units := { s.units with regions := [(0, x)] } }

/-- A region with that pass at its head, and a stream of `n` elements a record at its west edge. -/
def passing (n : Nat) : Region :=
  { region0 with
    passes := [{ index := 1, ser := 0, word := mm0, acc := region0.acc, cfg := none }]
    feeds := [{ ch := 0, index := 0, port := 0, fmt := 0, elems := n, recs := [[1]] }] }

/-- A region that has handed over one entry of tile share 0. -/
def handed (b : Bool) : Region :=
  { region0 with
    tiles := [{ st := 2, fp := false, entries := [(0, { v := 1, nf := false, sat := false })] }, { st := 0, fp := false, entries := [] }]
    hands := [{ index := 1, ser := 0, tile := 0, m := 1, n := 1, exp := 0, cfg := 0x11, count := 0, begun := b }] }

/-- A move of context 0 with a word and a record. -/
def move0 (w : Nat) (r : List Byte) : Move :=
  { hob := 0, index := 1, ctx := 0, ser := 0, word := w, record := r, iters := [0, 0, 0, 0], base := task0.regs0.base, mrs := 0, out := [], due := 0
    job := none, sent := 0, rx := [], filled := [] }

/-- Channel 0 of Hob 0 with a queue and a running move. -/
def chan0 (q : List Move) (m : Option Move) (s : State) : State :=
  { s with units := { s.units with chans := [(0, { queue := q, run := m })] } }

/-- A record of a Ladle move (Table 09-2): kinds, one record of 16 bytes, source and destination offsets. -/
def rec0 (kinds src dst : Nat) : List Byte :=
  natLE kinds 4 ++ [1, 0, 1, 0, 16, 0, 0, 0] ++ natLE 0 4 ++ natLE src 8 ++ natLE dst 8 ++ List.replicate 96 0

/-- Context 0 about to issue `w`, with `r` at the start of its program's data section. -/
def withData (t : Task) (w : Nat) (r : List Byte) : State := (runs t w).sbWrite 0 (2 * 2 ^ 22 + 64) r

/-- A request to another sled. -/
def req1 : SReq :=
  { ch := 0, port := 1, credit := 7, gen := 3, piece := 0, sled := 5, addr := 0, len := 2, first := 0, last := 0, wait := 10 }

/-- That request outstanding on a port whose link is up. -/
def asked : State :=
  let s := on [(eth_LINK_UP, 1, 1)] up
  { s with snilo := { s.snilo with reqs := [req1] } }

/-- A port up, and an export window of the first 2 MiB of namespace 2 for sleds 0 to 10. -/
def serving : State :=
  let s := on [(eth_LINK_UP, 0, 1), (hdr_STATE 0x30, 0, 2)] live
  { s with snilo := { s.snilo with exports := [(0, natLE 4 4 ++ natLE 2 4 ++ natLE 0 8 ++ natLE 1 4 ++ natLE 0 4 ++ natLE 0 2 ++ natLE 10 2 ++ natLE 0 4)] } }

/-- A move that fills window page 70 of stack 0. -/
def windowed : State :=
  let s := chan0 [] (some (move0 0x18 (rec0 16 0 (70 * 2 ^ 21)))) (runs task0 0)
  { s with tiers := { s.tiers with marks := [(70, { window := true, fillHobs := [0], ready := false })] } }

/-- One error of a bit is armed for injection on a page (R71). -/
def injected (c i b : Nat) (s : State) : State :=
  let t := on [(glob_TEST_MODE, 0, 1), (hdr_INJECT_PENDING c, i, 1)] s
  { t with reg := { t.reg with inject := [(pageNo c i, b, 1)] } }

/-- A column entry of a collection descriptor, of one page with one record (Table 13-4). -/
def col (type width param first : Nat) : List Byte :=
  natLE type 2 ++ natLE width 2 ++ natLE param 2 ++ natLE 0 2 ++ natLE first 1 ++ [1, 0, 0] ++ natLE 1 4 ++ List.replicate 16 0

/-- A collection of one record: U8, PQ8 and VEC columns and a BYTES column of 8 bytes. -/
def coll1 : List Byte :=
  natLE 1 2 ++ natLE 4 2 ++ natLE 2 4 ++ natLE 1 4 ++ natLE 0 12 ++ natLE 1 8 ++ natLE 1 8 ++ [255, 255] ++ natLE 0 214 ++
    col 1 1 0 0 ++ col 12 8 8 1 ++ col 14 8 8 2 ++ col 10 8 0 3

/-- A filter program: column 0 equals constant 0, END. -/
def filt0 : List Byte :=
  natLE 1 2 ++ [2, 1] ++ List.replicate 572 0 ++ natLE 1 8 ++ natLE 0x1F 8 ++ List.replicate 1456 0

/-- A request record of collection 5 (R349): column, K or LIMIT, one record, its output at SB macro-group 1. -/
def req5 (c k : Nat) : List Byte :=
  natLE 5 2 ++ natLE c 2 ++ natLE k 4 ++ natLE 0 8 ++ natLE 1 8 ++ natLE 0 8 ++ natLE (2 ^ 22) 8 ++ List.replicate 24 0

/-- A request record of a SKIM_MERGE on collection 5 (Table 14-4): columns A and B, K, N, STRIDE, kinds of SRC, DST and AUX, TSLOT, VBITS,
records; its operands in SB macro-group 1. -/
def mrec (a b k n stride sk ak tslot vbits count : Nat) : List Byte :=
  let at0 (kind x : Nat) : List Byte := natLE (if kind = 8 then 0 else 2 ^ 22 + x) 8
  natLE 5 2 ++ natLE a 1 ++ natLE b 1 ++ natLE 0 2 ++ natLE k 2 ++ natLE n 4 ++ natLE stride 4 ++ natLE sk 2 ++ natLE 0 2 ++ natLE ak 2 ++
    natLE tslot 1 ++ natLE vbits 1 ++ at0 sk 0 ++ natLE (2 ^ 22 + 65536) 8 ++ at0 ak 4096 ++ natLE 0 8 ++ natLE count 8 ++ List.replicate 64 0

/-- `s` with collection 5, filter slot 0 and table slot 63 of Colander 0, and the merge unit and Colander 0 on. -/
def near0 (s : State) : State :=
  let t := on [(hdr_STATE 0x12, 0, 2), (hdr_STATE 0x17, 0, 2), (hdr_STATE 0x21, 0, 2)] s
  { t with near := { t.near with
    collections := [(5, { bytes := coll1, ctx := 0, valid := true })]
    fslots := [(0, filt0)]
    tslots := [(63, (8, 8, List.replicate 2048 0))] } }

/-- A descriptor in flight. -/
def issued (cls w : Nat) : Issued := { hob := 0, index := 1, cls := cls, ser := 0, dst := 15, word := w, due := 0, grants := [] }
def flying (cls w : Nat) : Task := { task0 with inflight := [issued cls w] }

/-- The move that a Colander or merge descriptor has in its channel. -/
def job0 (w : Nat) (r : List Byte) : Move := { move0 w r with job := some { prog := filt0, tables := [], epoch := 0 } }

/-- A tensor table of one BIAS entry in working page 71 (Table 12-3), and the step over it. -/
def tab0 : List Byte :=
  let p := 71 * 2 ^ 21
  List.replicate 64 0 ++ [1, 0, 3, 3, 17, 0, 0, 0] ++ natLE 1 4 ++ natLE 1 4 ++ natLE 0 8 ++ natLE p 8 ++ natLE (p + 4096) 8 ++
    natLE (p + 8192) 8 ++ natLE (p + 12288) 8 ++ natLE 0 8
def puu0 : PuuStep := { ctx := 0, index := 1, ser := 0, table := tab0, layer := false }

/-- Context 0 runs a step of the PUU. -/
def stepping : State :=
  let s := on [(hdr_STATE 0x18, 0, 2)] (runs task0 0)
  { s with units := { s.units with puu := [(0, [puu0])] } }

/-- A batch whose step has begun with a request, and its state. -/
def batch0 (m : Mem) : Batch :=
  { s := 1, p := 1, step := 0, slots := [], queue := [], deferred := 0, reqPage := 72, slotPage := 73, pool := [74], begun := some m }
def batching (m : Mem) : State :=
  let s := runs task0 0
  { s with tiers := { s.tiers with batches := [(0, batch0 m)] } }

/-- A block written up to a page. -/
def blk (n : Nat) : Block := { st := 1, next := n, reads := 0, erases := 0, oldest := 0 }

/-- A staged IU of namespace 2, and a page that holds one. -/
def staged0 (n : Nat) (l : Option Nat) (bs : List Byte) : Staged :=
  { iu := iuKey 2 n, seq := 0, stream := 0, data := up.tiers.hbm.writeL 0 bs, zero := false, groupSeq := 0, groupCount := 1, loc := l }
def page0 : Page :=
  { data := up.tiers.hbm, iu := iuKey 2 0, seq := 0, stream := 0, zero := false, groupCount := 1, groupSeq := 0, dom := 0, source := 0, tick := 0 }

/-- Media ready with Colander 0 on, its key slot 0 loaded, and superblock 5 of package 0 open at its start; a staging list, a map,
and pages 0 to 2 of the first plane's stripe written. -/
def flash (st : List Staged) (m : Store MapEntry) (n : Nat) : State :=
  let s := on [(hdr_STATE 0x21, 0, 2)] live
  { s with
    ftl := { s.ftl with openSb := [(0, (5, 0)), (1, (6, 0))], keysLoaded := [0], staging := st, map := m }
    nand := { s.nand with
      blocks := (List.range 16).map fun d => (blockKey 0 d 0 5, blk n)
      pages := [(mkLoc 0 0 0 5 0, page0)] } }

/-- Media ready with one change to the translation's state. -/
def ftlWith (f : Ftl → Ftl) : State := { live with ftl := f live.ftl }
def nandWith (f : Nand → Nand) : State := { live with nand := f live.nand }

/-- The page of `flash` in the map, in a block whose program failed. -/
def victim0 (st : Nat) : State :=
  let s := flash [] [(iuKey 2 0, { st := st, loc := mkLoc 0 0 0 5 0 })] 3
  { s with ftl := { s.ftl with failed := [mkLoc 0 0 0 5 0 / 2048] } }

/-- Package 0 leaves, with namespace 2 of one tier page. -/
def leaver : State :=
  { live with
    ftl := { live.ftl with evacuating := [0] }
    host := { live.host with
      namespaces := [(2, { kind := .nvm, units := 1, lbaf := 0, pset := 1, attached := [0], pages := [], rdLocked := false, wrLocked := false })] } }

/-- A pantry link with a state of its lanes and the retrains that each failed in succession. -/
def linked (ls fs : List Nat) : State :=
  { up with rel := { up.rel with links := [(63, { up.link 63 with lanes := ls, failed := fs })] } }

/-- A collection of two records with neighbour lists, bound to domain 0 of namespace 2, that edge repair visits; `d` is its deletion column. -/
def edge0 (d n : Nat) : List Byte :=
  natLE 1 2 ++ natLE n 2 ++ natLE 2 4 ++ natLE 1 4 ++ natLE 0 12 ++ natLE 2 8 ++ natLE 2 8 ++ [255, BitVec.ofNat 8 d] ++ natLE 0 214 ++
    col 1 1 0 0 ++ col 12 8 8 1 ++ col 14 8 8 2 ++ col 10 8 0 3 ++ col 0 0 0 4
def dom0 : Domain := { epoch := 1, visible := 2, repair := true, neighCol := 3, writer := none, pages := 0, hist := [] }
def edges (d n : Nat) (st : List Staged) : State :=
  let s := flash st [] 0
  { s with
    near := { s.near with collections := [(5, { bytes := edge0 d n, ctx := 64, valid := true })] }
    ftl := { s.ftl with domains := [(tierKey 2 0, dom0)] } }

/-- A range of Opal, and a package with every superblock closed. -/
def ranged : State :=
  let s := flash [] [] 0
  { s with ftl := { s.ftl with ranges := [(0, { ns := 2, first := 0, len := 2 ^ 21, rdLocked := false, wrLocked := false })] } }
def closed0 : State := ftlWith fun f => { f with closed := (List.range 2208).map (sbKey 0) }

theorem few_free : (closed0.freeSbs 0).length < 8 := by
  rw [freeSbs_none closed0 0 (by simp only [closed0, ftlWith])]
  decide

/-- A recorder entry that waits. -/
def entry0 : RecEntry :=
  { tick := 0, cls := 0x13, inst := 2, code := 0x0100, payload := [], ctx := 0xFF, seq := 0, injected := false, safety := false, late := false }

/-- A PLDM update that writes slot B, which is committed. -/
def pldm : State :=
  let s := on [(glob_UPDATE_OWNER, 0, 2)] up
  { s with boot := { s.boot with pldmSlot := some 2, slotB := FwSlot.factory } }

/-- The host link up for MCTP. -/
def vdm : State :=
  let s := on [(front_RATE, 0, 2)] up
  s.setPci 0 { s.pciOf 0 with master := true }


/-- Both ports up with PTP enabled, and the PTP of port 1 changed. -/
def ported (f : PtpPort → PtpPort) : State :=
  let s := on [(eth_LINK_UP, 0, 1), (eth_LINK_UP, 1, 1), (eth_PTP_EN, 0, 1), (eth_PTP_EN, 1, 1)] { up with tick := ticksMs 60000 }
  s.setPtp 1 (f (s.ptp 1))

/-- The sled's own Snilo entry, with the address 10 at port 1. -/
def addressed : State :=
  let s := ported id
  { s with snilo := { s.snilo with peers := [(s.sledId, [1] ++ List.replicate 43 0 ++ [10] ++ List.replicate 19 0)] } }

/-- Both ports up with PTP enabled, and the time changed. -/
def timing (f : TimeState → TimeState) : State := { ported id with time := f (ported id).time }

/-- A package with a free superblock among its first twelve has a least-worn one. -/
theorem leastWorn_some (s : State) (c : Nat) (h : 1 ≤ ((List.range 12).filter (s.sbFree c)).length) : (s.leastWorn c).isSome = true := by
  have hn := freeSbs_of_first s c 1 h
  unfold State.leastWorn
  cases hl : s.freeSbs c with
  | nil => simp [hl] at hn
  | cons x l =>
    simp only [List.foldl_cons]
    clear hn hl
    induction l generalizing x with
    | nil => rfl
    | cons b l ih =>
      simp only [List.foldl_cons]
      split <;> exact ih _

/-- An entry of a ranked list with a distance. -/
def ent (d : Nat) : LEnt := { id := 0, dist := d, dq := 0, flags := 0 }

/-! ### Ill-formed commands: one for each check, one past the end of its range -/

theorem test_ill_formed_1 : ([
    .pcieLaneRetire 16 false, .controllerEnable 33 false false 0 0, .controllerReset 33, .shutdownNotification 33, .functionLevelReset 34,
    .mediaReady 3, .heartbeatReport 18, .opRequestWrite 8, .rateWindowEnd 256 0 0, .rateWindowEnd 0 256 0,
    .handshakeStall 256 0 0 0 0 false, .handshakeStall 0 256 0 0 0 false, .badAccess 268435456 0 false, .registerWrite 268435456 0 false,
    .registerWrite 0 18446744073709551616 false, .readLoLatch 268435456 false, .readClear 268435456, .pairHiWrite 268435456 0,
    .pairHiWrite 0 4294967296, .proxyReadTimeout 64 0, .proxyReadTimeout 0 4096, .proxyWriteDropped 64, .enableWrite 256 0 false,
    .enableWrite 0 256 false, .drainWrite 256 0 false, .drainWrite 0 256 false, .pageReset 256 0, .pageReset 0 256,
    .unitStartComplete 256 0 false, .unitStartComplete 0 256 false, .startLimitExpiry 256 0, .startLimitExpiry 0 256, .drainComplete 256 0,
    .drainComplete 0 256, .errStatusClear 256 0 0 false, .errStatusClear 0 256 0 false, .errorCapture 256 0 0 0 0,
    .errorCapture 0 256 0 0 0, .injectGo 256 0, .injectGo 0 256] : List Instr).all (fun c => !c.wf) = true := by decide +kernel

theorem test_ill_formed_2 : ([
    .snapshotTrigger 256 0, .snapshotTrigger 0 256, .timeSourceRequestWrite 4, .testModeEnter 65536, .sqDoorbell 33 0 0,
    .sqDoorbell 0 65536 0, .sqDoorbell 0 0 65536, .cqDoorbell 33 0 0, .cqDoorbell 0 65536 0, .commandFetch 65536 false, .overloadRaise 65,
    .overloadClear 65, .identify { adm with fn := 33 } 0 0, .getLogPage { adm with fn := 33 } 0 0 0 0 0 false,
    .floorRatioOpenInterval { adm with fn := 33 } 0 0, .floorRatioCloseInterval { adm with fn := 33 } 0 0,
    .getFeatures { adm with fn := 33 } 0 0, .setFeatures { adm with fn := 33 } 0 0 [], .setFeaturesPowerManagement adm 32,
    .setFeaturesPowerManagement { adm with fn := 33 } 0, .setFeaturesContextQuota { adm with fn := 33 } 0 0,
    .createIoSq { adm with fn := 33 } 0 0 0 0 false 0 0, .createIoCq { adm with fn := 33 } 0 0 false 0, .deleteIoSq { adm with fn := 33 } 0,
    .deleteIoCq { adm with fn := 33 } 0, .abort { adm with fn := 33 } 0 0, .abortTimeout { adm with fn := 33 },
    .asyncEventRequest { adm with fn := 33 }, .asyncEventPost 33 0 0, .namespaceManagement { adm with fn := 33 } false false 0 0 0 0,
    .namespaceAttachment { adm with fn := 33 } 0 false [], .formatNvm { adm with fn := 33 } 0 0 0,
    .sanitize { adm with fn := 33 } 0 0 false, .firmwareImageDownload { adm with fn := 33 } 0 [],
    .firmwareCommitWrite { adm with fn := 33 } 0 false, .firmwareCommitWriteActivate { adm with fn := 33 } 0 false,
    .firmwareCommitActivate { adm with fn := 33 } 0, .keyPackageCommit { adm with fn := 33 } 0,
    .securitySend { adm with fn := 33 } 0 .other false [], .securityReceive { adm with fn := 33 } 0] : List Instr).all (fun c => !c.wf) = true := by decide +kernel

theorem test_ill_formed_3 : ([
    .nvmeMiSend { adm with fn := 33 } .subsystemHealth, .nvmeMiReceive { adm with fn := 33 } 0, .resumeContext adm 4294967296 false,
    .resumeContext { adm with fn := 33 } 0 false, .tearDownContext adm 4294967296, .tearDownContext { adm with fn := 33 } 0,
    .collectionDescriptorSet adm 65536 0 [], .collectionDescriptorSet { adm with fn := 33 } 0 0 [], .collectionDescriptorGet adm 65536,
    .collectionDescriptorGet { adm with fn := 33 } 0, .timeQuery { adm with fn := 33 }, .adminUnsupported { adm with fn := 33 },
    .nvmRead { adm with fn := 33 } 0 0 0 false false, .nvmWrite { adm with fn := 33 } 0 0 [], .nvmFlush { adm with fn := 33 } 0,
    .nvmWriteZeroes { adm with fn := 33 } 0 0 0, .datasetManagementDeallocate { adm with fn := 33 } 0 false [],
    .nvmCompare { adm with fn := 33 } 0 0 [] false false, .nvmVerify { adm with fn := 33 } 0 0 0 false false,
    .slmRead { adm with fn := 33 } 0 0 0, .slmWrite { adm with fn := 33 } 0 0 [], .executeProgram adm 0 4294967296 0 0 0 [],
    .executeProgram adm 0 0 4294967296 0 0 [], .executeProgram adm 0 0 0 4294967296 0 [],
    .executeProgram adm 0 0 0 0 79228162514264337593543950336 [], .executeProgram { adm with fn := 33 } 0 0 0 0 0 [],
    .loadProgram adm 0 65536 0 [], .loadProgram { adm with fn := 33 } 0 0 0 [], .programActivationManagement adm 0 65536 false,
    .programActivationManagement { adm with fn := 33 } 0 0 false, .memoryRangeSetManagement { adm with fn := 33 } 0 0 [], .taskStart 64,
    .taskEnd 64, .taskFault 64 0 0 0 0 0 0, .taskFault 0 2 0 0 0 0 0, .taskTimeout 64, .barrier 64 0, .barrier 0 2, .barrierRelease 64 0,
    .barrierRelease 0 2] : List Instr).all (fun c => !c.wf) = true := by decide +kernel

theorem test_ill_formed_4 : ([
    .semWait 64 0, .semWait 0 2, .semWaitSatisfied 64 0, .semWaitSatisfied 0 2, .semSignal 64 0, .semSignal 0 2, .semSignalEffect 64 0 0,
    .semSignalEffect 0 2 0, .yield 64 0, .yield 0 2, .yieldDrained 64, .repeat 64 0, .repeat 0 2, .griddleMm 64 0, .griddleMm 0 2,
    .griddlePassComplete 34 0, .griddlePassComplete 0 4, .griddleCheckError 34 0 0 0 false, .griddleCheckError 0 4 0 0 false,
    .streamMismatch 34 0 0, .streamMismatch 0 4 0, .griddleSelfCheck 34 0, .griddleSelfCheck 0 4, .griddleSelfCheckDone 34 0 0 0,
    .selfCheckGo 34, .spareRowCommit 34, .griddleRetire 34, .drainCfg 64 0, .drainCfg 0 2, .drainTableLoadDone 34 0,
    .drainTableLoadDone 0 4, .drainTileStart 34 0, .drainTileStart 0 4, .drainTileComplete 34 0, .drainTileComplete 0 4,
    .drainError 34 0 0 0 false, .drainError 0 4 0 0 false, .ladleMove 64 0, .ladleMove 0 2, .ladleMoveStart 128] : List Instr).all (fun c => !c.wf) = true := by decide +kernel

theorem test_ill_formed_5 : ([
    .ladleMoveComplete 128, .ladleHalt 128 0 false, .sbReadError 2 0 false 0 0, .sbReadError 0 268435456 false 0 0, .whisk 64 0, .whisk 0 2,
    .whiskCheckError 8 0 0, .hbmReadError 8 0 0 false 0 0 adm, .hbmReadError 0 0 0 false 0 0 { adm with fn := 33 },
    .hbmRowRepair 196608 false, .hbmPseudoChannelRetire 8 0 false, .hbmPseudoChannelRetire 0 64 false, .windowPageReady 128 0,
    .batchStep 64, .createContext 128, .cmdTearDown 128, .cmdPreempt 128 false, .cmdSetPolicy 128, .contextLoad 64, .preemptDecision 64,
    .forceAfterExpiry 64, .forcedPreempt 64, .contextSaveComplete 64, .contextRestore 64, .contextRestoreComplete 64, .puuStep 64 0,
    .puuStep 0 2, .puuStepComplete 2, .puuStepFault 2 0 0 false 0, .puuSelfTestGo 2, .puuSelfTestDone 2 0 false, .filterLoad 64 0,
    .filterLoad 0 2, .filterCount 64 0, .filterCount 0 2, .filterBitmap 64 0, .filterBitmap 0 2, .filterGather 64 0, .filterGather 0 2,
    .skimScanLoadTables 64 0] : List Instr).all (fun c => !c.wf) = true := by decide +kernel

theorem test_ill_formed_6 : ([
    .skimScanLoadTables 0 2, .skimScanScan 64 0, .skimScanScan 0 2, .colanderDescriptorComplete 64 0 0, .colanderDescriptorComplete 0 2 0,
    .colanderRunFault 64 0 0 0 0 0, .colanderRunFault 0 2 0 0 0 0, .skimMergeTables 64 0, .skimMergeTables 0 2, .skimMergeMerge 64 0,
    .skimMergeMerge 0 2, .skimMergeExpand 64 0, .skimMergeExpand 0 2, .skimMergeRerank 64 0, .skimMergeRerank 0 2, .skimMergeRescan 64 0,
    .skimMergeRescan 0 2, .skimMergeFetch 64 0, .skimMergeFetch 0 2, .skimMergeComplete 64 0 0 0, .skimMergeComplete 0 2 0 0,
    .epochAdvance 64 0, .epochAdvance 0 2, .flashProgram 64 0 false, .flashProgramFail 64 0 0 0, .flashProgramFail 0 16 0 0,
    .flashProgramFail 0 0 6 0, .flashProgramFail 0 0 0 2208, .flashErase 64 0 0 [] 0 [], .flashErase 0 16 0 [] 0 [],
    .flashErase 0 0 2208 [] 0 [], .flashRead 64 0 0 0 0 0 0 false, .flashRead 0 16 0 0 0 0 0 false, .flashRead 0 0 6 0 0 0 0 false,
    .flashRead 0 0 0 2208 0 0 0 false, .flashRead 0 0 0 0 1152 0 0 false, .flashKeyLoad 64 0, .programEraseResume 64 0,
    .programEraseResume 0 16, .dieTimeout 64 0] : List Instr).all (fun c => !c.wf) = true := by decide +kernel

theorem test_ill_formed_7 : ([
    .dieTimeout 0 16, .zqCalibration 64 0, .zqCalibration 0 16, .thresholdTemperatureUpdate 64 0 0, .thresholdTemperatureUpdate 0 16 0,
    .onfiChannelStepDown 64 0 false, .dieRetire 64 0, .dieRetire 0 16, .dieRelocationComplete 64 0, .dieRelocationComplete 0 16,
    .packageRetire 64, .packageEvacuationComplete 64, .gcStart 64, .gcStop 64, .retentionRefresh 64 0, .retentionRefresh 0 2208,
    .packageShed 64, .pantryLaneReplay 64 0 0 false, .pantryLaneReplay 0 3 0 false, .pantryLaneSpare 64 0 0, .pantryLaneSpare 0 3 0,
    .pantryLinkDegrade 64 0 0, .pantryLinkDegrade 0 3 0, .colanderSelfCheck 64 false false false false, .hobLinkLaneRepair 2,
    .unitRetirement 256 0 0, .unitRetirement 0 256 0, .nandPatrol 64 0 0 0 0 false 0, .nandPatrol 0 16 0 0 0 false 0,
    .nandPatrol 0 0 6 0 0 false 0, .nandPatrol 0 0 0 2208 0 false 0, .nandPatrol 0 0 0 0 384 false 0, .spareGriddleCheck 2 false,
    .spareLaneCheck 64 false, .railMonitorRecalibrate 232, .powerCapWrite 65536 false, .mctpSetEndpointId 256, .eflashRead 4294967296 0 [],
    .eflashProgram 4294967296 [] false 0 false false 0 0 false, .ptpSyncReceived 2 0 0 0 0 0] : List Instr).all (fun c => !c.wf) = true := by decide +kernel

theorem test_ill_formed_8 : ([
    .ptpAnnounceReceived 2 0 0 0 [], .ptpDelayResponse 2 0 0 0 0 0, .ptpPdelayRequest 2 0 0 0, .ptpSourceLoss 2, .ethernetLinkDown 2 none,
    .ethernetLinkUp 2 0 0, .ethernetFrameDiscard 2 0 0 0, .sniloReadReq 2 0 0 0 false, .sniloReadReq 0 32768 0 0 false,
    .sniloReadRsp 0 [] 2 0, .sniloReadRsp 0 [] 0 32768, .sniloReadRsp 4294967296 [] 0 0, .sniloNak 0 0 2 0, .sniloNak 0 0 0 32768,
    .sniloNak 4294967296 0 0 0, .sniloNak 0 256 0 0, .sniloRetransmit 128 0 0 0, .sniloRemoteTimeout 128 0 0, .sniloCreditsEnd 128,
    .sledIdWrite 4294967296, .pantryLaneLossOfLock 64 0 0 false, .pantryLaneLossOfLock 0 3 0 false, .pcieLinkReplay 16,
    .ptpDelayRequestSend 2 0, .arpNeighborDiscovery 2 0 false 0 0, .pfcFrame 2 0 false, .pfcFrame 0 8 false, .pcieConfigurationWrite 0 0 34,
    .pcieConfigurationWrite 0 18446744073709551616 0, .interruptCoalescingTimeout 33 0, .identify { adm with sq := 65536 } 0 0,
    .identify { adm with cid := 65536 } 0 0] : List Instr).all (fun c => !c.wf) = true := by decide +kernel

/-- The same at the last value of some ranges is well-formed. -/
theorem test_well_formed :
    ([.ptpSourceLoss 1, .functionLevelReset 32, .ppsOutEdge, .taskEnd 63, .barrier 63 1, .griddlePassComplete 33 3] :
      List Instr).all Instr.wf = true := by decide +kernel

/-! ### Steps with the results the spec's examples give -/

/-- The state a command answers. -/
def after (c : Instr) (s : State) : State :=
  match exec c s with
  | .next t => t
  | _ => s

/-- Whisk 2 of Hob 0 on. -/
def whiskOn : State := on [(hdr_STATE 0x13, 2, 2)] up

/-- STATE and ENABLE_PENDING of that page. -/
def whiskState (s : State) : Nat × Nat := (s.fget (hdr_STATE 0x13) 2, s.fget (hdr_ENABLE_PENDING 0x13) 2)

/-- Table 03-5: enable and disable while a unit drains. -/
theorem test_enable_during_drain :
    let s0 := after (.enableWrite 0x13 2 false) whiskOn
    let s1 := after (.enableWrite 0x13 2 true) s0
    let s2 := after (.enableWrite 0x13 2 false) s1
    let s3 := after (.drainComplete 0x13 2) (after (.enableWrite 0x13 2 true) s2)
    (whiskState s0, whiskState s1, whiskState s2, whiskState s3) = ((3, 0), (3, 1), (3, 0), (1, 0)) ∧
    whiskState (after (.unitStartComplete 0x13 2 true) s3) = (2, 0) := by decide +kernel

/-- Table 03-9: directory words of an MF-3072-C. -/
theorem test_directory :
    let s : State := { up with variant := .c }
    s.readWord 0x00 0 0x144 = 34 + 34 * 2 ^ 16 ∧ s.readWord 0x00 0 0x160 = 2 ∧ s.readWord 0x00 0 0x184 = 64 + 32 * 2 ^ 16 ∧
    s.readWord 0x18 1 0 = 0 ∧ s.readWord 0x21 48 0 = 0 ∧ s.readWord 0x21 47 0 ≠ 0 := by decide +kernel

/-- Products of the example under Products and sums in the integer domain (FP8 E4M3). -/
theorem test_fp8_products :
    ((Fv.mul (elemValue 1 0x3C) (elemValue 1 0x38)).scale 1).round .rne = 3 ∧
    ((Fv.mul (elemValue 1 0x44) (elemValue 1 0xB0)).scale 1).round .rne = -3 ∧
    ((Fv.mul (elemValue 1 0x2A) (elemValue 1 0x41)).scale 6).round .rne = 45 ∧
    ((Fv.mul (elemValue 1 0x01) (elemValue 1 0x30)).scale 10).round .rne = 1 := by decide +kernel

/-- Block 0 of that example, v_0 = 180, and the entry after the pass: T = −535 (with G = −8 and one block in place of four). -/
theorem test_block_of_the_example :
    let xs := [0x3C, 0x44, 0x2A, 0x01].map (elemValue 1)
    let ws := [0x38, 0xB0, 0x41, 0x30].map (elemValue 1)
    ((blockSum xs ws).scale 8).round .rne = 180 ∧
    (passEntry (2 ^ 21) (-8) { v := unsigned (-1000) 32, nf := false, sat := false } xs ws false).v = unsigned (-820) 32 := by decide +kernel

/-- The preload element 1.5 of that example is 384 on the grid. -/
theorem test_preload : (preEntry false 4 (-8) 0x3C).v = 384 := by decide +kernel

/-- A K-tile sum saturates at 16 bits and starts from what it left: 32 × 448 × 448, then −448 × 448. -/
theorem test_block_saturation :
    let xs := List.replicate 32 (elemValue 1 0x7E) ++ [elemValue 1 0xFE]
    let ws := List.replicate 33 (elemValue 1 0x7E)
    intKSum 16 0 34 xs ws (0, false) = (-32768, true) := by decide +kernel

/-- The drain example: −535 with BIAS 1,200 and SHIFT 1 becomes 5.1953125, in FP8 E4M3 0x4A to nearest and 0x4B stochastically with r = 14,972. -/
theorem test_drain_example :
    let chan := List.replicate (8 * 17) 0 ++ natLE 1200 4 ++ [0, 0, 1, 0]
    let e := drainEntry (2 ^ 47) (-8) false [] chan none 17 { v := unsigned (-535) 32, nf := false, sat := false }
    ((dec32 e.v).scale 7).round .rne = 665 ∧ ((dec32 e.v).scale 8).round .rne = 1330 ∧
    (convertElem 1 0 .rne (dec32 e.v)).code = 0x4A ∧ (convertElem 1 0 (.sr 0x3A7C) (dec32 e.v)).code = 0x4B := by decide +kernel

/-- The MX example: a block whose largest |y| is 5.1953125 has scale byte 0x79 and that element 0x7A. -/
theorem test_mx_example :
    (convertMx 4 [((Fv.fin false 665 1).scale (-7), .rne)]).1 = 0x79 ∧
    (convertMx 4 [((Fv.fin false 665 1).scale (-7), .rne)]).2.map Conv.code = [0x7A] := by decide +kernel

/-- The words of the DRAIN_CFG example and its fields. -/
theorem test_drain_cfg_word :
    let w := 0x1F88C011 + 0x8100 * 2 ^ 32 + 0x01202008 * 2 ^ 64
    (dcGriddle w, dcAccSet w, dcAcc w, dcOutFmt w, dcChTable w) = (3, true, { exp := -8, zero := 0, pre := 0 }, 1, true) ∧
    (dcLoadCh w, dcOff w, dcOutLadle w, dcLoadAct w, dcAuxLadle w) = (true, 64 * 0x40, 9, false, 0) := by decide +kernel

/-- The words of the GRIDDLE_MM example and its fields. -/
theorem test_griddle_mm_word :
    let w := 0x0470C010 + 0x55004040 * 2 ^ 32 + 0x100 * 2 ^ 64
    (mmGriddle w, mmSwap w, mmAcc16 w, mmAFmt w, mmWFmt w, mmM w, mmK w) = (3, true, true, 1, 1, 256, 128) ∧
    (mmN w, mmTile w, mmAccum w, mmALadle w, mmPreLadle w, mmDrain w) = (256, 0, 1, 5, 0, true) := by decide +kernel

/-- The words of the LADLE_MOVE example and its fields. -/
theorem test_ladle_move_word :
    let w := 0x04005018 + 0x18 * 2 ^ 32
    (mvChan w, mvSel w, mvRecOff w, mvGriddle w, mvRegion w, mvPort w, mvWhisk w) = (5, 0, 2048, 3, 0, 0, 0) := by decide +kernel

/-- The words of the PUU_STEP example and its fields. -/
theorem test_puu_step_word : (puTabSel 0x60400128, puTabOff 0x60400128, puTensors 0x60400128) = (0, 8192, 3) := by decide +kernel

/-- The words of the SEM_SIGNAL example, issued on Hob 1, add 1 to semaphore 5 of Hob 0. -/
theorem test_sem_signal_word :
    let w := 0x00405103 + 0x100 * 2 ^ 32
    (descClass w, bits w 8 1, bits w 12 10, bits w 22 16, bits w 40 8) = (3, 1, 5, 1, 1) := by decide +kernel

/-- The power cap example: a cap of 1,000 W and a window of 1,310 W lower the ceiling from 5 to 4. -/
theorem test_power_cap :
    let s := { on [(kettle_POWER_CAP, 0, 1000)] up with tick := ticksMs 100, kettle := { up.kettle with capCount := 2, capSum := 2620000 } }
    (after .powerCapWindow s).fget kettle_CAP_CEILING 0 = 4 ∧ (after .powerCapWindow s).fget kettle_INPUT_MW 0 = 1310000 := by decide +kernel

/-- A write of REGISTER_WRITE to a read-only page word changes nothing; a bad access is counted and reads ones. -/
theorem test_bad_access :
    (after (.badAccess 2 32 false) up).fget glob_BAD_ACCESS_COUNT 0 = 1 ∧ (after (.badAccess 2 32 false) up).reg.readData = [0xFFFFFFFF] := by
  decide +kernel

/-- NVM_READ gives the bytes that NVM_WRITE wrote, and zeros after a deallocation. -/
theorem test_nvm_write_read :
    ((live.nvmWrite 2 4096 [1, 2, 3] false).nvmRead 2 4095 5 = [0, 1, 2, 3, 0]) ∧
    ((live.nvmWrite 2 4096 [1, 2, 3] false).deallocate 2 4096 2).nvmRead 2 4096 3 = [0, 0, 3] := by decide +kernel

/-- The front of the queue runs first; an empty queue passes a tick. -/
theorem test_queue :
    (match step { up with pending := [.ppsInMissing, .arm] } with
     | .next t => t.pending
     | _ => []) = [.arm] ∧
    (match step up with
     | .next t => t.tick
     | _ => 0) = 1 := by decide +kernel

/-- R106: enabling the controller before the media are ready leaves RDY at 0 unless CRIME is set. -/
theorem test_controller_enable :
    ((after (.controllerEnable 0 false false 2 2) up).ctrl 0).rdy = false ∧ ((after (.controllerEnable 0 true false 2 2) up).ctrl 0).rdy = true := by
  decide +kernel

/-! ### States and operands that meet the hypotheses of the statements -/

/-- Each clause of PowerInputCommandsComplete has a state and operands that meet its hypotheses. -/
theorem witness_PowerInputCommandsComplete :
    (∃ (s : State), s.power.switchClosed = true ∧ s.power.kettleUp = false ∧ s.boot.romRecovery = false) ∧
    (∃ (s : State), s.power.switchClosed = true) ∧
    (∃ (s : State), s.power.switchClosed = false) ∧
    (∃ (mv : Nat), mv < 44000) ∧
    (∃ (mv : Nat) (s : State), 60000 < mv ∧ s.power.switchClosed = true) ∧
    (∃ (ma : Nat) (s : State), 50000 < ma ∧ s.power.switchClosed = true) ∧
    (∃ (mv : Nat) (s : State), s.power.brownOut = true ∧ s.power.kettleUp = true ∧ s.power.seated = true ∧ 46000 ≤ mv ∧ mv ≤ 58000 ∧
      s.power.thermalOff = true) ∧
    (∃ (mv : Nat) (s : State), s.power.brownOut = true ∧ s.power.kettleUp = true ∧ s.power.seated = true ∧ 46000 ≤ mv ∧ mv ≤ 58000 ∧
      s.power.thermalOff = false) ∧
    (∃ (s : State), s.power.brownOut = true) ∧
    (∃ (n : Nat) (s : State), s.power.opHoldUntil = some n ∧ n ≤ s.tick) :=
  ⟨⟨{ State.reset with power := { State.reset.power with switchClosed := true } }, by decide +kernel⟩,
   ⟨up, by decide +kernel⟩,
   ⟨State.reset, by decide +kernel⟩,
   ⟨43999, by decide +kernel⟩,
   ⟨60001, up, by decide +kernel⟩,
   ⟨50001, up, by decide +kernel⟩,
   ⟨46000, { up with power := { up.power with brownOut := true, thermalOff := true } }, by decide +kernel⟩,
   ⟨58000, { up with power := { up.power with brownOut := true } }, by decide +kernel⟩,
   ⟨{ up with power := { up.power with brownOut := true } }, by decide +kernel⟩,
   ⟨5, { up with tick := 5, power := { up.power with opHoldUntil := some 5 } }, by decide +kernel⟩⟩

/-- Each clause of ResetAndWatchdogCommandsComplete has a state and operands that meet its hypotheses. -/
theorem witness_ResetAndWatchdogCommandsComplete :
    (∃ (hot : Bool) (s : State), s.power.perst = false ∧ s.power.controlUp = true ∧ (hot = true → s.host.linkUp = true)) ∧
    (∃ (s : State), s.power.perst = true ∧ s.power.kettleUp = true ∧ s.power.controlUp = false ∧ s.power.brownOut = false ∧ s.power.thermalOff =
      false ∧ s.boot.restart = 0) ∧
    (∃ (s : State), s.boot.wdtAt ≤ s.tick ∧ s.power.kettleUp = false ∧ (s.boot.romFault = true ∨ s.boot.romRecovery = true)) ∧
    (∃ (s : State), s.boot.wdtAt ≤ s.tick ∧ s.power.kettleUp = true) ∧
    (∃ (s : State), s.power.kettleUp = true ∧ (∀ p ∈ s.boot.beats, s.tick ≤ p.2 + ticksMs 1000)) ∧
    (∃ (src v : Nat) (s : State), sget? s.boot.beats src = some v) ∧
    (∃ (s : State), s.boot.restart ≠ 0) ∧
    (∃ (n : Nat) (s : State), s.power.clearSince = some n ∧ s.power.thermalOff = true ∧ s.power.brownOut = false ∧ n + ticksMs 60000 ≤ s.tick) :=
  ⟨⟨true, up, by decide +kernel⟩,
   ⟨{ up with power := { up.power with perst := true, controlUp := false } }, by decide +kernel⟩,
   ⟨{ State.reset with tick := 1953125, boot := { State.reset.boot with romRecovery := true } }, by decide +kernel⟩,
   ⟨{ up with tick := 1953125 }, by decide +kernel⟩,
   ⟨{ up with tick := 976563, boot := { up.boot with beats := [(0, 0)] } }, by decide +kernel⟩,
   ⟨0, 7, { up with boot := { up.boot with beats := [(0, 7)] } }, by decide +kernel⟩,
   ⟨{ up with boot := { up.boot with restart := 6 } }, by decide +kernel⟩,
   ⟨0, { up with tick := ticksMs 60000, power := { up.power with clearSince := some 0, thermalOff := true } }, by decide +kernel⟩⟩

/-- Each clause of OperatingPointAndModeCommandsComplete has a state and operands that meet its hypotheses. -/
theorem witness_OperatingPointAndModeCommandsComplete :
    (∃ (v : Nat) (s : State), s.hostUp = true ∧ v < 6) ∧
    (∃ (s : State), s.hostUp = true) ∧
    (∃ (p : Nat) (s : State), s.power.rampTo = some p ∧ s.rampOver p = true) ∧
    (∃ (s : State), s.op5Holds = false) ∧
    (∃ (s : State), s.op5Ready = true) ∧
    (∃ (s : State), s.hostUp = true) ∧
    (∃ (s : State), s.fget glob_DET_MODE_EFFECTIVE 0 = 0 ∧ s.fget glob_DET_MODE_REQUEST 0 = 1 ∧ s.noStartedTask = true) ∧
    (∃ (s : State), s.fget glob_DET_MODE_EFFECTIVE 0 = 1 ∧ s.fget glob_DET_MODE_REQUEST 0 = 0) ∧
    (∃ (s : State), s.hostUp = true ∧ s.fget glob_DET_MODE_EFFECTIVE 0 = 1) ∧
    (∃ (a : Nat) (s : State), s.arb.armAt = some a ∧ a ≤ s.tick) ∧
    (∃ (c inst n t0 : Nat) (s : State), Sys2Proof.Machine.present s.variant c inst = true ∧ s.power.kettleUp = true ∧ s.injectLeft c inst 0 = 0 ∧
      n ≠ 0 ∧ s.windowStart c inst = some t0 ∧ t0 + 1024 ≤ s.tick ∧ c < 256 ∧ inst < 256) :=
  ⟨⟨5, up, by decide +kernel⟩,
   ⟨up, by decide +kernel⟩,
   ⟨4, { up with tick := 100000, power := { up.power with rampTo := some 4 } }, by decide +kernel⟩,
   ⟨up, by decide +kernel⟩,
   ⟨on [(glob_OP_EFFECTIVE, 0, 4), (glob_OP_REQUEST, 0, 5)]
    { up with tick := 10000000, power := { up.power with hobCool := true, op5Since := some 0 } }, by decide +kernel⟩,
   ⟨up, by decide +kernel⟩,
   ⟨on [(glob_DET_MODE_REQUEST, 0, 1)] up, by decide +kernel⟩,
   ⟨on [(glob_DET_MODE_EFFECTIVE, 0, 1)] up, by decide +kernel⟩,
   ⟨on [(glob_DET_MODE_EFFECTIVE, 0, 1)] up, by decide +kernel⟩,
   ⟨32, { up with tick := 32, arb := { up.arb with armAt := some 32 } }, by decide +kernel⟩,
   ⟨0x13, 3, 7, 0, { up with tick := 1024 }, by decide +kernel⟩⟩

/-- Each clause of ArbitersGrantOneRequest has a state and operands that meet its hypotheses. -/
theorem witness_ArbitersGrantOneRequest :
    (∃ (cp inst : Nat) (new : List (Nat × Nat × Nat)) (together : Bool) (s : State), s.fget glob_DET_MODE_EFFECTIVE 0 = 0 ∧ freeChoices
      ((s.present cp inst new together).filter (ArbReq.at cp inst)) ≠ [] ∧ (∃ q ∈ freeChoices ((s.present cp inst new together).filter (ArbReq.at cp
      inst)), q.owed = true)) ∧
    (∃ (cp inst : Nat) (new : List (Nat × Nat × Nat)) (together : Bool) (s : State), s.fget glob_DET_MODE_EFFECTIVE 0 = 0 ∧ freeChoices
      ((s.present cp inst new together).filter (ArbReq.at cp inst)) ≠ [] ∧ cp ≠ 2) ∧
    (∃ (cp inst sl : Nat) (new : List (Nat × Nat × Nat)) (s : State) (r : ArbReq), s.fget glob_DET_MODE_EFFECTIVE 0 = 1 ∧ sl < cpSlots cp ∧ inst <
      cpInstances cp ∧ s.tick / cpFrame cp * cpFrame cp + sl * cpSlotNs cp / 1024 = s.tick ∧ (((s.present cp inst new false).find? fun q => q.at cp
      inst && q.party == slotOwner cp (s.frameNo cp (s.tick / cpFrame cp * cpFrame cp)) sl && decide (q.due / cpFrame cp * cpFrame cp ≤ s.tick /
      cpFrame cp * cpFrame cp)) = some r)) :=
  ⟨⟨4, 0, [], false,
    { up with arb := { up.arb with waiting := [{ cp := 4, inst := 0, party := 0, tick := 0, due := 0, ctx := 64, ser := 0, batch := 1, owed := true, passed := [] }] } },
    by decide +kernel⟩,
   ⟨4, 0, [(0, 64, 0)], false, up, by decide +kernel⟩,
   ⟨5, 0, 0, [(4, 64, 0)], on [(glob_DET_MODE_EFFECTIVE, 0, 1)] up,
    { cp := 5, inst := 0, party := 4, tick := 0, due := 0, ctx := 64, ser := 0, batch := 0, owed := false, passed := [] }, by decide +kernel⟩⟩

/-- Each clause of RegisterAccessCommandsComplete has a state and operands that meet its hypotheses. -/
theorem witness_RegisterAccessCommandsComplete :
    (∃ (a size : Nat) (s : State), s.hostUp = true ∧ accessOk s.variant a size = false) ∧
    (∃ (a : Nat) (s : State), s.hostUp = true ∧ a % 4 = 0) ∧
    (∃ (a : Nat) (s u : State), s.hostUp = true ∧ accessOk s.variant a 64 = true ∧ u = s.accessed 8 (addrClass a) (addrInst a)) ∧
    (∃ (a : Nat) (s : State), s.hostUp = true ∧ a % 4 = 0 ∧ 4 ≤ addrOff a) ∧
    (∃ (a : Nat) (s u : State), s.pageOn (addrClass a) (addrInst a) = true ∧ a % 4 = 0 ∧ ¬ (addrClass a = 0x02 ∧ addrOff a = 0x100) ∧ (loOffsets
      (addrClass a)).contains (addrOff a) = true ∧ u = s.accessed 4 (addrClass a) (addrInst a)) ∧
    (∃ (a : Nat) (s : State), s.pageOn (addrClass a) (addrInst a) = true ∧ accessOk s.variant a 64 = true) ∧
    (∃ (a : Nat) (s u : State), s.pageOn (addrClass a) (addrInst a) = true ∧ a % 4 = 0 ∧ ¬ (addrClass a = 0x02 ∧ addrOff a = 0x100) ∧ u =
      s.accessed 4 (addrClass a) (addrInst a)) ∧
    (∃ (a : Nat) (s : State), s.hostUp = true ∧ Sys2Proof.Machine.present s.variant (addrClass a) (addrInst a) = false ∧ a % 4 = 0) ∧
    (∃ (a : Nat) (s : State), s.hostUp = true ∧ Sys2Proof.Machine.present s.variant (addrClass a) (addrInst a) = false ∧ a % 8 = 0) ∧
    (∃ (k off : Nat) (s : State), s.pageOn 0x21 k = true ∧ off % 4 = 0 ∧ off < 4096) ∧
    (∃ (k : Nat) (s : State), s.pageOn 0x21 k = true) :=
  ⟨⟨1, 32, up, by decide +kernel⟩,
   ⟨4, up, by decide +kernel⟩,
   ⟨0x00200108, up, _, by decide +kernel, by decide +kernel, rfl⟩,
   ⟨0x0020010C, up, by decide +kernel⟩,
   ⟨0x00200108, up, _, by decide +kernel, by decide +kernel, by decide +kernel, by decide +kernel, rfl⟩,
   ⟨0x00200108, up, by decide +kernel⟩,
   ⟨0x14, up, _, by decide +kernel, by decide +kernel, by decide +kernel, rfl⟩,
   ⟨0x7000000, up, by decide +kernel⟩,
   ⟨0x7000000, up, by decide +kernel⟩,
   ⟨1, 32, up, by decide +kernel⟩,
   ⟨0x14, up, by decide +kernel⟩⟩

/-- Each clause of UnitStateCommandsComplete has a state and operands that meet its hypotheses. -/
theorem witness_UnitStateCommandsComplete :
    (∃ (c inst : Nat) (s : State), s.pageOn c inst = true ∧ hasState c = true ∧ s.controlHeld c inst = false ∧ s.fget (hdr_STATE c) inst = 0) ∧
    (∃ (c inst : Nat) (s : State), s.pageOn c inst = true ∧ hasState c = true ∧ s.controlHeld c inst = false ∧ s.fget (hdr_STATE c) inst = 2) ∧
    (∃ (c inst : Nat) (s : State), s.pageOn c inst = true ∧ hasState c = true ∧ s.controlHeld c inst = false ∧ s.fget (hdr_STATE c) inst = 4) ∧
    (∃ (c inst : Nat) (s : State), s.pageOn c inst = true ∧ hasState c = true ∧ s.controlHeld c inst = false ∧ s.fget (hdr_STATE c) inst ≠ 5) ∧
    (∃ (c inst : Nat) (s : State), s.pageOn c inst = true ∧ hasState c = true ∧ s.controlHeld c inst = false ∧ s.fget (hdr_RESET_PENDING c) inst ≠
      1 ∧ (s.fget (hdr_STATE c) inst = 0 ∨ s.fget (hdr_STATE c) inst = 2 ∨ s.fget (hdr_STATE c) inst = 4)) ∧
    (∃ (c inst : Nat) (s : State), s.pageOn c inst = true ∧ hasState c = true ∧ s.controlHeld c inst = false ∧ s.fget (hdr_RESET_PENDING c) inst ≠
      1 ∧ (s.fget (hdr_STATE c) inst = 1 ∨ s.fget (hdr_STATE c) inst = 3)) ∧
    (∃ (c inst : Nat) (s : State), Sys2Proof.Machine.present s.variant c inst = true ∧ hasState c = true ∧ c ≠ 0x14 ∧ c ≠ 0x18 ∧ c ≠ 0x11 ∧ s.fget
      (hdr_STATE c) inst = 1 ∧ s.startLate c inst = false) ∧
    (∃ (inst : Nat) (s : State), Sys2Proof.Machine.present s.variant 0x11 inst = true ∧ s.fget (hdr_STATE 0x11) inst = 1 ∧ s.startLate 0x11 inst =
      false ∧ s.startChecked inst false = false) ∧
    (∃ (c inst n : Nat) (s : State), sget? s.reg.startTick (pageNo c inst) = some n ∧ s.fget (hdr_STATE c) inst = 1 ∧ n + ticksMs (startLimitMs c)
      ≤ s.tick) ∧
    (∃ (c inst : Nat) (s : State), Sys2Proof.Machine.present s.variant c inst = true ∧ c ≠ 0x14 ∧ s.fget (hdr_STATE c) inst = 3 ∧ s.unitBusy c
      inst = false) :=
  ⟨⟨0x13, 2, up, by decide +kernel⟩,
   ⟨0x13, 2, on [(hdr_STATE 0x13, 2, 2)] up, by decide +kernel⟩,
   ⟨0x13, 2, on [(hdr_STATE 0x13, 2, 4)] up, by decide +kernel⟩,
   ⟨0x13, 2, up, by decide +kernel⟩,
   ⟨0x13, 2, up, by decide +kernel⟩,
   ⟨0x13, 2, on [(hdr_STATE 0x13, 2, 3)] up, by decide +kernel⟩,
   ⟨0x13, 2, on [(hdr_STATE 0x13, 2, 1)] up, by decide +kernel⟩,
   ⟨3, on [(hdr_STATE 0x11, 3, 1)] up, by decide +kernel⟩,
   ⟨0x13, 2, 0, on [(hdr_STATE 0x13, 2, 1)] { up with tick := ticksMs 1000, reg := { up.reg with startTick := [(pageNo 0x13 2, 0)] } },
    by decide +kernel⟩,
   ⟨0x13, 2, on [(hdr_STATE 0x13, 2, 3)] up, by decide +kernel⟩⟩

/-- Each clause of ErrorInjectionSnapshotTestCommandsComplete has a state and operands that meet its hypotheses. -/
theorem witness_ErrorInjectionSnapshotTestCommandsComplete :
    (∃ (c inst : Nat) (s : State), s.pageOn c inst = true) ∧
    (∃ (c inst : Nat) (s : State), Sys2Proof.Machine.present s.variant c inst = true ∧ corrects c = true) ∧
    (∃ (c inst : Nat) (s : State), Sys2Proof.Machine.present s.variant c inst = true ∧ hasState c = true ∧ c ≠ 0x11 ∧ c ≠ 0x14 ∧ s.fget (hdr_STATE
      c) inst = 2) ∧
    (∃ (c inst : Nat) (s : State), s.pageOn c inst = true ∧ s.fget glob_TEST_MODE 0 = 1 ∧ injectable c = true ∧ (injectBits c).contains (s.fget
      (hdr_INJECT_BIT c) inst) = true) ∧
    (∃ (c inst r ctx : Nat) (whole : Bool) (s : State), Sys2Proof.Machine.present s.variant c inst = true ∧ s.stalled c inst r whole = true ∧
      hasState c = true ∧ c ≠ 0x11 ∧ c ≠ 0x14 ∧ c ≠ 0x18 ∧ c ≠ 0x21 ∧ s.injectLeft c inst 1 = 0 ∧ 64 ≤ s.ownerShown c inst ∧ 64 ≤ ctx) ∧
    (∃ (c inst : Nat) (s : State), s.pageOn c inst = true ∧ c ≠ 0 ∧ s.reg.snapAll = none ∧ sget? s.reg.snapWait (pageNo c inst) = none) ∧
    (∃ (s : State), s.hostUp = true ∧ s.reg.snapAll = none) ∧
    (∃ (s : State), s.reg.snapAll = none ∧ (∀ p ∈ s.reg.snapWait, p.2 < s.tick)) ∧
    (∃ (n : Nat) (s : State), s.reg.snapAll = some n ∧ n ≤ s.tick) ∧
    (∃ (s : State), s.hostUp = true ∧ s.fget glob_TEST_MODE 0 = 0 ∧ s.cp.ctxs = [] ∧ s.fget glob_MEDIA_MODE 0 ≠ 2) ∧
    (∃ (s : State), s.hostUp = true ∧ s.fget glob_TEST_MODE 0 = 1) :=
  ⟨⟨0x13, 2, up, by decide +kernel⟩,
   ⟨0x13, 2, up, by decide +kernel⟩,
   ⟨0x13, 2, on [(hdr_STATE 0x13, 2, 2)] up, by decide +kernel⟩,
   ⟨0x13, 2, on [(glob_TEST_MODE, 0, 1), (hdr_INJECT_BIT 0x13, 2, 2)] up, by decide +kernel⟩,
   ⟨0x12, 0, 0, 64, false, chan0 [] (some (move0 0 [])) (on [(hdr_STATE 0x12, 0, 2)] up), by decide +kernel⟩,
   ⟨0x13, 2, on [(glob_TEST_MODE, 0, 1), (hdr_INJECT_BIT 0x13, 2, 2)] up, by decide +kernel⟩,
   ⟨up, by decide +kernel⟩,
   ⟨up, by decide +kernel⟩,
   ⟨16, { up with tick := 16, reg := { up.reg with snapAll := some 16 } }, by decide +kernel⟩,
   ⟨up, by decide +kernel⟩,
   ⟨on [(glob_TEST_MODE, 0, 1)] up, by decide +kernel⟩⟩

/-- Each clause of QueueAndFetchCommandsComplete has a state and operands that meet its hypotheses. -/
theorem witness_QueueAndFetchCommandsComplete :
    (∃ (fn q tail : Nat) (k : Sq) (s : State), s.sq? fn q = some k ∧ (s.ctrl fn).rdy = true ∧ s.linkUp = true ∧ tail < k.size ∧ s.host.psEntering
      = false ∧ s.fget glob_PS_EFFECTIVE 0 < 3) ∧
    (∃ (fn q n : Nat) (k : Cq) (s : State), sget? s.host.cqs (qKey fn q) = some k ∧ s.linkUp = true ∧ n ≤ k.used) ∧
    (∃ (fn b q cls : Nat) (fresh : Bool) (k : Sq) (s : State), s.turn = some (fn, b) ∧ s.pickQueue fn = some (q, cls, fresh) ∧ s.sq? fn q = some k
      ∧ k.ctx ≠ some 64) ∧
    (∃ (cmd : CmdId) (q size iv : Nat) (ien : Bool) (s : State), s.takes cmd = true ∧ s.turnedAway cmd true = false ∧ s.queueId cmd.fn q true =
      true ∧ sget? s.host.cqs (qKey cmd.fn q) = none ∧ 2 ≤ size ∧ size ≤ 65536 ∧ (ien = true → iv < maxVectors cmd.fn)) ∧
    (∃ (cmd : CmdId) (q size cq ctx : Nat) (s : State) (x : Ctx), s.takes cmd = true ∧ s.turnedAway cmd true = false ∧ s.queueId cmd.fn q false =
      true ∧ sget? s.host.sqs (qKey cmd.fn q) = none ∧ (sget? s.host.cqs (qKey cmd.fn cq)).isSome = true ∧ cq ≠ 0 ∧ 2 ≤ size ∧ size ≤ 65536 ∧ s.ctx?
      ctx = some x ∧ x.req.fn = cmd.fn ∧ x.sq = none) ∧
    (∃ (cmd : CmdId) (q : Nat) (k : Sq) (s : State), s.takes cmd = true ∧ s.turnedAway cmd true = false ∧ q ≠ 0 ∧ s.sq? cmd.fn q = some k ∧ (k.ctx
      = none ∨ k.ctx = some 64)) ∧
    (∃ (cmd : CmdId) (q : Nat) (s : State), s.takes cmd = true ∧ s.turnedAway cmd true = false ∧ q ≠ 0 ∧ (sget? s.host.cqs (qKey cmd.fn q)).isSome
      = true ∧ ((s.host.sqs.any fun p => p.1 / 65536 == cmd.fn && p.1 % 65536 != 0 && p.2.cq == q) = false)) ∧
    (∃ (cmd target : CmdId) (sqid cid : Nat) (f : Option Intake) (s : State) (e : Intake) (c : Nat), s.takes cmd = true ∧ s.turnedAway cmd true =
      false ∧ (s.ctrl cmd.fn).aborts.length < 4 ∧ target = { fn := cmd.fn, sq := sqid, cid := cid } ∧ ((s.host.intake.find? fun e => e.cmd == target
      && !e.done) = f) ∧ f = some e ∧ e.begun = false ∧ e.kind = .compute c) ∧
    (∃ (cmd target : CmdId) (sqid cid : Nat) (f : Option Intake) (s : State) (e : Intake), s.takes cmd = true ∧ s.turnedAway cmd true = false ∧
      (s.ctrl cmd.fn).aborts.length < 4 ∧ target = { fn := cmd.fn, sq := sqid, cid := cid } ∧ ((s.host.intake.find? fun e => e.cmd == target &&
      !e.done) = f) ∧ f = some e ∧ e.begun = false ∧ (e.kind = .nvm ∨ e.kind = .slm)) ∧
    (∃ (cmd target : CmdId) (sqid cid : Nat) (f : Option Intake) (s : State) (e : Intake) (c : Nat) (x : Ctx), s.takes cmd = true ∧ s.turnedAway
      cmd true = false ∧ (s.ctrl cmd.fn).aborts.length < 4 ∧ target = { fn := cmd.fn, sq := sqid, cid := cid } ∧ ((s.host.intake.find? fun e =>
      e.cmd == target && !e.done) = f) ∧ f = some e ∧ e.begun = true ∧ e.kind = .compute c ∧ s.ctx? c = some x) ∧
    (∃ (cmd target : CmdId) (sqid cid : Nat) (f : Option Intake) (s : State), s.takes cmd = true ∧ s.turnedAway cmd true = false ∧ (s.ctrl
      cmd.fn).aborts.length < 4 ∧ target = { fn := cmd.fn, sq := sqid, cid := cid } ∧ ((s.host.intake.find? fun e => e.cmd == target && !e.done) =
      f) ∧ (f = none ∨ ∃ e : Intake, f = some e ∧ (e.kind = .admin ∨ e.begun = true ∧ (e.kind = .nvm ∨ e.kind = .slm)))) ∧
    (∃ (cmd : CmdId) (a : CmdId × CmdId × Nat) (s : State), (s.ctrl cmd.fn).aborts = [a] ∧ a.1 = cmd ∧ a.2.2 + ticksMs 2 ≤ s.tick) ∧
    (∃ (k n : Nat) (s : State), sget? s.host.satSince k = some n ∧ s.saturated k = true ∧ s.host.sustained.contains k = false ∧ n + ticksMs 10000
      ≤ s.tick) ∧
    (∃ (k n : Nat) (s : State), sget? s.host.unsatSince k = some n ∧ s.saturated k = false ∧ s.host.sustained.contains k = true ∧ n + ticksMs 1000
      ≤ s.tick) :=
  ⟨⟨0, 1, 63, { size := 64, cq := 1, prio := 0, ctx := none, tail := 1, head := 0 }, live, by decide +kernel⟩,
   ⟨0, 1, 1, { size := 64, ien := false, iv := 0, used := 1 }, live, by decide +kernel⟩,
   ⟨0, 0, 0, 4, false, { size := 64, cq := 0, prio := 0, ctx := none, tail := 1, head := 0 }, live, by decide +kernel⟩,
   ⟨adm, 3, 2, 255, true, live.setCtrl 0 { live.ctrl 0 with feat := [(0x07, 0x00070007)] }, by decide +kernel⟩,
   ⟨adm, 8, 65536, 2, 0, (withCtx { ctx0 with sq := none } live).setCtrl 0 { live.ctrl 0 with feat := [(0x07, 0x00070007)] },
    { ctx0 with sq := none }, by decide +kernel⟩,
   ⟨adm, 1, { size := 64, cq := 1, prio := 0, ctx := none, tail := 1, head := 0 }, live, by decide +kernel⟩,
   ⟨adm, 2, live, by decide +kernel⟩,
   ⟨adm, { adm with sq := 1, cid := 9 }, 1, 9, some { cmd := io, kind := .compute 3, begun := false, exec := none, op := none },
    { live with host := { live.host with intake := slots3 } }, { cmd := io, kind := .compute 3, begun := false, exec := none, op := none }, 3,
    by decide +kernel⟩,
   ⟨adm, { adm with sq := 1, cid := 9 }, 1, 9, some { cmd := io, kind := .slm, begun := false, exec := none, op := none },
    { live with host := { live.host with intake := [{ cmd := io, kind := .slm, begun := false, exec := none, op := none }] } },
    { cmd := io, kind := .slm, begun := false, exec := none, op := none }, by decide +kernel⟩,
   ⟨adm, { adm with sq := 1, cid := 9 }, 1, 9, some { cmd := io, kind := .compute 0, begun := true, exec := none, op := none },
    { runs task0 0 with host := { live.host with intake := [{ cmd := io, kind := .compute 0, begun := true, exec := none, op := none }] } },
    { cmd := io, kind := .compute 0, begun := true, exec := none, op := none }, 0, runCtx task0, by decide +kernel⟩,
   ⟨adm, { adm with sq := 1, cid := 9 }, 1, 9, none, live, by decide +kernel, by decide +kernel, by decide +kernel, rfl, by decide +kernel, Or.inl
    rfl⟩,
   ⟨adm, (adm, io, 0), { live.setCtrl 0 { live.ctrl 0 with aborts := [(adm, io, 0)] } with tick := ticksMs 2 }, by decide +kernel⟩,
   ⟨3, 0,
    { live with tick := ticksMs 10000, host := { live.host with satSince := [(3, 0)], intake := slots3, sqs := [(1, { size := 64, cq := 1, prio := 0, ctx := some 3, tail := 1, head := 0 })] } },
    by decide +kernel⟩,
   ⟨3, 0, { live with tick := ticksMs 1000, host := { live.host with unsatSince := [(3, 0)], sustained := [3] } }, by decide +kernel⟩⟩

/-- Each clause of FeatureEventAndContextCommandsComplete has a state and operands that meet its hypotheses. -/
theorem witness_FeatureEventAndContextCommandsComplete :
    (∃ (cmd : CmdId) (fid : Nat) (s : State), s.takes cmd = true ∧ s.turnedAway cmd true = false ∧ (fid = 0x01 ∨ fid = 0x08 ∨ fid = 0x0B)) ∧
    (∃ (cmd : CmdId) (fid v d : Nat) (bs : List Byte) (s : State), s.takes cmd = true ∧ s.turnedAway cmd false = false ∧ s.readFeature cmd.fn fid
      v = some (d, bs)) ∧
    (∃ (cmd : CmdId) (vf quota : Nat) (s : State), s.takes cmd = true ∧ s.turnedAway cmd true = false ∧ cmd.fn = 0 ∧ vf < 32 ∧
      (((s.host.quota.filter fun p => p.1 ≠ vf).map Prod.snd).sum + quota ≤ 64) ∧ (s.ctxsOf (vf + 1)).length ≤ quota) ∧
    (∃ (cmd : CmdId) (ps : Nat) (s : State), s.takes cmd = true ∧ s.turnedAway cmd true = false ∧ ps ≤ 4) ∧
    (∃ (cmd : CmdId) (s : State), s.takes cmd = true ∧ s.turnedAway cmd false = false ∧ (s.ctrl cmd.fn).aerReqs.length < 8 ∧ (s.ctrl
      cmd.fn).aerKept = []) ∧
    (∃ (cmd : CmdId) (s : State) (e : Nat × Nat × Nat) (es : List (Nat × Nat × Nat)), s.takes cmd = true ∧ s.turnedAway cmd false = false ∧
      (s.ctrl cmd.fn).aerReqs.length < 8 ∧ (s.ctrl cmd.fn).aerKept = e :: es) ∧
    (∃ (fn info : Nat) (s : State), s.fnEnabled fn = true ∧ info < 8) ∧
    (∃ (fn info : Nat) (s : State), s.fnEnabled fn = true ∧ info < 3) ∧
    (∃ (cmd : CmdId) (c : Nat) (x : Ctx) (s u : State), s.takes cmd = true ∧ s.turnedAway cmd true = false ∧ s.ctx? c = some x ∧ c < 64 ∧ x.req.fn
      = cmd.fn ∧ x.st = .frozen ∧ x.logRead = true ∧ x.severity = 1 ∧ u = s.serveIntake c x) ∧
    (∃ (cmd : CmdId) (c : Nat) (x : Ctx) (s : State), s.takes cmd = true ∧ s.turnedAway cmd true = false ∧ s.ctx? c = some x ∧ c < 64 ∧ x.req.fn =
      cmd.fn ∧ x.st ≠ .tearingDown) ∧
    (∃ (cmd : CmdId) (s : State), s.takes cmd = true ∧ s.turnedAway cmd false = false) ∧
    (∃ (cmd : CmdId) (s : State), s.takes cmd = true) :=
  ⟨⟨adm, 0x0B, live, by decide +kernel⟩,
   ⟨adm, 0x04, 0, 358, [], live, by decide +kernel⟩,
   ⟨adm, 31, 64, live, by decide +kernel⟩,
   ⟨adm, 4, live, by decide +kernel⟩,
   ⟨adm, live, by decide +kernel⟩,
   ⟨adm, live.setCtrl 0 { live.ctrl 0 with aerKept := [(0, 2, 2)] }, (0, 2, 2), [], by decide +kernel⟩,
   ⟨0, 7, live, by decide +kernel⟩,
   ⟨0, 2, live, by decide +kernel⟩,
   ⟨adm, 0, { ctx0 with st := .frozen, logRead := true, severity := 1 }, withCtx { ctx0 with st := .frozen, logRead := true, severity := 1 } live,
    _, by decide +kernel, by decide +kernel, by decide +kernel, by decide +kernel, by decide +kernel, by decide +kernel, by decide +kernel,
    by decide +kernel, rfl⟩,
   ⟨adm, 0, ctx0, withCtx ctx0 live, by decide +kernel⟩,
   ⟨adm, live, by decide +kernel⟩,
   ⟨adm, live, by decide +kernel⟩⟩

/-- Each clause of ComputeQueueAndPowerStateCommandsComplete has a state and operands that meet its hypotheses. -/
theorem witness_ComputeQueueAndPowerStateCommandsComplete :
    (∃ (cmd : CmdId) (cdw10 cdw11 c : Nat) (q : Sq) (x : Ctx) (s : State), s.takes cmd = true ∧ cmd.rsvd = false ∧ s.sq? cmd.fn cmd.sq = some q ∧
      q.ctx = some c ∧ s.ctx? c = some x ∧ s.ctxSlots c < 256 ∧ bits cdw10 8 8 = 0 ∧ cdw11 < 8192) ∧
    (∃ (cmd : CmdId) (c : Nat) (q : Sq) (x : Ctx) (s : State), s.takes cmd = true ∧ cmd.rsvd = false ∧ s.sq? cmd.fn cmd.sq = some q ∧ q.ctx = some
      c ∧ s.ctx? c = some x ∧ s.ctxSlots c < 256) ∧
    (∃ (cmd : CmdId) (c : Nat) (q : Sq) (x : Ctx) (s : State), s.takes cmd = true ∧ cmd.rsvd = false ∧ s.sq? cmd.fn cmd.sq = some q ∧ q.ctx = some
      c ∧ s.ctx? c = some x ∧ s.ctxSlots c < 256) ∧
    (∃ (cmd : CmdId) (c : Nat) (q : Sq) (x : Ctx) (s : State), s.takes cmd = true ∧ cmd.rsvd = false ∧ s.sq? cmd.fn cmd.sq = some q ∧ q.ctx = some
      c ∧ s.ctx? c = some x ∧ s.ctxSlots c < 256) ∧
    (∃ (now e : Nat) (s : State), now = s.fget glob_PS_EFFECTIVE 0 ∧ e = s.featureOr 0 (0xC00 + now) 0 ∧ s.featureOr 0 0x0C 0 = 1 ∧ e / 256 % 2 ^
      24 ≠ 0 ∧ (e / 8 % 32 = 3 ∨ e / 8 % 32 = 4) ∧ now < e / 8 % 32 ∧ (s.operational = true ∧ s.host.psTarget = none ∨ now = 3 ∧ s.host.psEntering =
      false ∧ s.host.psExiting = false) ∧ s.nothingOutstanding = true ∧ s.host.idleSince + ticksMs (e / 256 % 2 ^ 24) ≤ s.tick) ∧
    (∃ (p : Nat) (s : State), s.host.psTarget = some p ∧ s.host.psEntering = false ∧ s.host.psExiting = false ∧ s.fget glob_PS_EFFECTIVE 0 < p ∧
      s.nothingOutstanding = true) ∧
    (∃ (p : Nat) (s : State), s.host.psTarget = some p ∧ s.host.psEntering = true ∧ (s.fget glob_MEDIA_MODE 0 = 2 → s.fget glob_MEDIA_CAUSE 0 ≠ 4)
      ∧ s.host.psWake = false) ∧
    (∃ (s : State), s.host.psExiting = true ∧ (((List.range 34).any fun i => s.fget (hdr_STATE 0x11) i == 1) = false)) :=
  ⟨⟨io, 0, 0, 0, ctxSq, ctx0, withCtx ctx0 live, by decide +kernel⟩,
   ⟨io, 0, ctxSq, ctx0, withCtx ctx0 live, by decide +kernel⟩,
   ⟨io, 0, ctxSq, ctx0, withCtx ctx0 live, by decide +kernel⟩,
   ⟨io, 0, ctxSq, ctx0, withCtx ctx0 live, by decide +kernel⟩,
   ⟨0, 256 + 8 * 3, { quiet.setCtrl 0 { quiet.ctrl 0 with feat := [(0x0C, 1), (0xC00, 256 + 8 * 3)] } with tick := ticksMs 1 }, by decide +kernel⟩,
   ⟨3, { quiet with host := { quiet.host with psTarget := some 3 } }, by decide +kernel⟩,
   ⟨4, { quiet with host := { quiet.host with psTarget := some 4, psEntering := true } }, by decide +kernel⟩,
   ⟨{ quiet with host := { quiet.host with psExiting := true } }, by decide +kernel⟩⟩

/-- Each clause of NvmCommandsComplete has a state and operands that meet its hypotheses. -/
theorem witness_NvmCommandsComplete :
    (∃ (cmd : CmdId) (ns slba nlb off n : Nat) (s : State), s.takes cmd = true ∧ s.turnedAway cmd false = false ∧ s.computeQueue cmd = false ∧
      s.nsRefuse cmd.fn ns .nvm = none ∧ s.blockRange ns slba nlb = some (off, n) ∧ s.rangeLocked ns off n false = false ∧ s.badIu ns off n = none ∧
      n ≤ 2 ^ 21) ∧
    (∃ (cmd : CmdId) (ns slba off n : Nat) (data : List Byte) (x : Namespace) (s : State), s.takes cmd = true ∧ s.turnedAway cmd false = false ∧
      s.computeQueue cmd = false ∧ s.nsRefuse cmd.fn ns .nvm = none ∧ sget? s.host.namespaces ns = some x ∧ s.blockRange ns slba (ceilDiv
      data.length (lbaBytes x.lbaf)) = some (off, n) ∧ n ≤ 2 ^ 21 ∧ s.fget glob_MEDIA_MODE 0 ≠ 1 ∧ s.rangeLocked ns off n true = false ∧ s.badPart
      ns off n = none ∧ s.canStage ns off n (iusOf ns off n).length = true) ∧
    (∃ (cmd : CmdId) (ns slba off n : Nat) (data : List Byte) (x : Namespace) (s : State), s.takes cmd = true ∧ s.turnedAway cmd false = false ∧
      s.computeQueue cmd = false ∧ s.nsRefuse cmd.fn ns .nvm = none ∧ sget? s.host.namespaces ns = some x ∧ s.blockRange ns slba (ceilDiv
      data.length (lbaBytes x.lbaf)) = some (off, n) ∧ n ≤ 2 ^ 21 ∧ s.rangeLocked ns off n false = false ∧ s.badIu ns off n = none) ∧
    (∃ (cmd : CmdId) (ns : Nat) (s : State), s.takes cmd = true ∧ s.turnedAway cmd false = false ∧ s.computeQueue cmd = false ∧ s.nsRefuse cmd.fn
      ns .nvm = none) ∧
    (∃ (cmd : CmdId) (ns slba nlb off n : Nat) (s : State), s.takes cmd = true ∧ s.turnedAway cmd false = false ∧ s.computeQueue cmd = false ∧
      s.nsRefuse cmd.fn ns .nvm = none ∧ s.blockRange ns slba nlb = some (off, n) ∧ s.fget glob_MEDIA_MODE 0 ≠ 1 ∧ s.rangeLocked ns off n true =
      false ∧ s.badPart ns off n = none ∧ s.canStage ns off n (partialIus ns off n).length = true) ∧
    (∃ (cmd : CmdId) (ns off n : Nat) (x : Namespace) (s : State), s.takes cmd = true ∧ s.turnedAway cmd false = false ∧ s.computeQueue cmd =
      false ∧ s.nsRefuse cmd.fn ns .slm = none ∧ sget? s.host.namespaces ns = some x ∧ off + n ≤ x.bytes ∧ n ≤ 2 ^ 21 ∧ (s.piecesRead (s.slmPieces
      ns off n)).1 = true) ∧
    (∃ (cmd : CmdId) (ns off : Nat) (data : List Byte) (x : Namespace) (s : State), s.takes cmd = true ∧ s.turnedAway cmd false = false ∧
      s.computeQueue cmd = false ∧ s.nsRefuse cmd.fn ns .slm = none ∧ sget? s.host.namespaces ns = some x ∧ off + data.length ≤ x.bytes ∧
      data.length ≤ 2 ^ 21) :=
  ⟨⟨io, 2, 2047, 1, 2047 * 4096, 4096, live, by decide +kernel⟩,
   ⟨io, 2, 2047, 2047 * 4096, 4096, List.replicate 4096 5,
    { kind := .nvm, units := 4, lbaf := 0, pset := 1, attached := [0], pages := [], rdLocked := false, wrLocked := false }, live, by decide +kernel⟩,
   ⟨io, 2, 2047, 2047 * 4096, 4096, List.replicate 4096 5,
    { kind := .nvm, units := 4, lbaf := 0, pset := 1, attached := [0], pages := [], rdLocked := false, wrLocked := false }, live, by decide +kernel⟩,
   ⟨io, 2, live, by decide +kernel⟩,
   ⟨io, 2, 2044, 4, 2044 * 4096, 16384, live, by decide +kernel⟩,
   ⟨io, 3, 2097151, 1, { kind := .slm, units := 1, lbaf := 0, pset := 0, attached := [0], pages := [70], rdLocked := false, wrLocked := false },
    live, by decide +kernel⟩,
   ⟨io, 3, 2097151, [5], { kind := .slm, units := 1, lbaf := 0, pset := 0, attached := [0], pages := [70], rdLocked := false, wrLocked := false },
    live, by decide +kernel⟩⟩

/-- Each clause of NamespaceSecurityAndCollectionCommandsComplete has a state and operands that meet its hypotheses. -/
theorem witness_NamespaceSecurityAndCollectionCommandsComplete :
    (∃ (cmd : CmdId) (size lbaf pset ns : Nat) (s : State), s.takes cmd = true ∧ cmd.fn = 0 ∧ s.turnedAway cmd false = false ∧ s.sanitizing =
      false ∧ size ≠ 0 ∧ size % 2 ^ 21 = 0 ∧ lbaf ≤ 1 ∧ pset ≤ 2 ∧ (s.pcie 64 4096).freeNsid .nvm = some ns ∧ (s.pcie 64 4096).roomFor pset (size /
      2 ^ 21) = true) ∧
    (∃ (cmd : CmdId) (nsid : Nat) (s : State), s.takes cmd = true ∧ cmd.fn = 0 ∧ s.turnedAway cmd false = false ∧ s.sanitizing = false ∧ (nsid <
      66 ∨ s.cp.ctxs = []) ∧ nsid ≠ 0xFFFFFFFF ∧ (sget? s.host.namespaces nsid).isSome = true) ∧
    (∃ (cmd : CmdId) (nsid f : Nat) (n : Namespace) (s : State), s.takes cmd = true ∧ cmd.fn = 0 ∧ s.turnedAway cmd false = false ∧ s.sanitizing =
      false ∧ sget? s.host.namespaces nsid = some n ∧ s.fnEnabled f = true ∧ n.attached.contains f = false) ∧
    (∃ (cmd : CmdId) (nsid lbaf ses : Nat) (s : State), s.takes cmd = true ∧ cmd.fn = 0 ∧ s.turnedAway cmd false = false ∧ s.sanitizing = false ∧
      s.fget glob_MEDIA_MODE 0 ≠ 1 ∧ ses ≤ 2 ∧ lbaf ≤ 1 ∧ nsid ≠ 0xFFFFFFFF ∧ (((s.host.namespaces.filter fun p => p.2.kind == .nvm).map
      Prod.fst).contains nsid = true)) ∧
    (∃ (s : State), s.fget glob_MEDIA_MODE 0 = 0 ∧ s.margin ≤ 0) ∧
    (∃ (cmd : CmdId) (action : Nat) (s : State), s.takes cmd = true ∧ cmd.fn = 0 ∧ s.turnedAway cmd false = false ∧ 1 ≤ action ∧ action ≤ 3 ∧
      s.sanitizing = false ∧ s.fget glob_MEDIA_MODE 0 ≠ 1) ∧
    (∃ (s : State), s.sanRuns = true ∧ s.ftl.sanSteps < 255) ∧
    (∃ (s : State), s.sanRuns = true ∧ 255 ≤ s.ftl.sanSteps) ∧
    (∃ (s : State), s.sanRuns = true) ∧
    (∃ (cmd : CmdId) (proto : Nat) (s : State), s.takes cmd = true ∧ cmd.fn = 0 ∧ s.turnedAway cmd false = false ∧ s.sanitizing = false ∧ proto ≤
      2) ∧
    (∃ (cmd : CmdId) (r : List Byte) (rs : List (List Byte)) (s : State), s.takes cmd = true ∧ cmd.fn = 0 ∧ s.turnedAway cmd false = false ∧
      s.ftl.opalOut = r :: rs) ∧
    (∃ (cmd : CmdId) (id c : Nat) (data : List Byte) (x : Ctx) (s : State), s.takes cmd = true ∧ s.turnedAway cmd true = false ∧ s.ctx? c = some x
      ∧ c < 64 ∧ x.req.fn = cmd.fn ∧ s.collInUse cmd.fn (id % 65536) = false ∧ clColumns ((data ++ List.replicate 4096 0).take 4096) ≠ 0 ∧
      s.collValid cmd.fn x ((data ++ List.replicate 4096 0).take 4096) = true ∧ s.near.collections.length < 4096) ∧
    (∃ (cmd : CmdId) (id : Nat) (k : Collection) (s : State), s.takes cmd = true ∧ s.turnedAway cmd false = false ∧ sget? s.near.collections
      (65536 * cmd.fn + id % 65536) = some k) :=
  ⟨⟨adm, 2 ^ 21, 0, 1, 4, live, by decide +kernel⟩,
   ⟨adm, 2, live, by decide +kernel⟩,
   ⟨adm, 2, 1, { kind := .nvm, units := 4, lbaf := 0, pset := 1, attached := [0], pages := [], rdLocked := false, wrLocked := false },
    { live with host := { live.host with numVfs := 1 } }, by decide +kernel⟩,
   ⟨adm, 2, 1, 2, live, by decide +kernel⟩,
   ⟨on ((List.range 64).map fun c => (hdr_STATE 0x21, c, 5)) live, by decide +kernel⟩,
   ⟨adm, 3, live, by decide +kernel⟩,
   ⟨on [(glob_MEDIA_MODE, 0, 2), (glob_MEDIA_CAUSE, 0, 4)] { live with ftl := { live.ftl with sanSteps := 254 } }, by decide +kernel⟩,
   ⟨on [(glob_MEDIA_MODE, 0, 2), (glob_MEDIA_CAUSE, 0, 4)] { live with ftl := { live.ftl with sanSteps := 255 } }, by decide +kernel⟩,
   ⟨on [(glob_MEDIA_MODE, 0, 2), (glob_MEDIA_CAUSE, 0, 4)] live, by decide +kernel⟩,
   ⟨adm, 2, live, by decide +kernel⟩,
   ⟨adm, [1], [], { live with ftl := { live.ftl with opalOut := [[1]] } }, by decide +kernel⟩,
   ⟨adm, 5, 0, coll0, ctx0, withCtx ctx0 live, by decide +kernel⟩,
   ⟨adm, 5, { bytes := coll0, ctx := 0, valid := true },
    { live with near := { live.near with collections := [(5, { bytes := coll0, ctx := 0, valid := true })] } }, by decide +kernel⟩⟩

/-- Each clause of ContextCommandsComplete has a state and operands that meet its hypotheses. -/
theorem witness_ContextCommandsComplete :
    (∃ (v : Nat) (s : State), s.hostUp = true ∧ s.fget ctxm_BUSY 0 ≠ 1 ∧ (s.createContext v).1 = 0) ∧
    (∃ (v : Nat) (s : State), s.hostUp = true ∧ s.fget ctxm_BUSY 0 ≠ 1 ∧ (s.createContext v).1 ≠ 0) ∧
    (∃ (v : Nat) (x : Ctx) (s : State), s.hostUp = true ∧ s.fget ctxm_BUSY 0 ≠ 1 ∧ s.globalOn = true ∧ s.ctx? v = some x ∧ x.st ≠ .tearingDown) ∧
    (∃ (v : Nat) (force : Bool) (x : Ctx) (t : Task) (s : State), s.hostUp = true ∧ s.fget ctxm_BUSY 0 ≠ 1 ∧ s.globalOn = true ∧ s.ctx? v = some x
      ∧ x.task = some t ∧ x.issuing = true ∧ (force = true → x.req.forceable = true ∧ t.checkpoint.isSome = true)) ∧
    (∃ (v : Nat) (x : Ctx) (r : Request) (s : State), s.hostUp = true ∧ s.fget ctxm_BUSY 0 ≠ 1 ∧ s.globalOn = true ∧ s.ctx? v = some x ∧ r =
      decodeRequest s.requestBytes ∧ r.prio ≤ 3 ∧ fld s.requestBytes 5 1 < 2 ∧ (r.forceable = true → 1 ≤ r.forceAfter ∧ r.forceAfter ≤ 10000) ∧
      (r.forceable = false → r.forceAfter = 0) ∧ (r.forceable ≠ x.req.forceable → x.st = .idle ∨ x.st = .idleLoaded ∨ x.st = .frozen ∨ x.st =
      .suspended)) ∧
    (∃ (c : Nat) (x : Ctx) (s : State), s.ctx? c = some x ∧ x.waits = true ∧ s.homeFree c x.req = true ∧ s.firstInLine c x = true) ∧
    (∃ (c : Nat) (x : Ctx) (t : Task) (s : State), s.runningTask c = some (x, t) ∧ x.preempt = 0 ∧ s.fget glob_ARMED 0 = 0 ∧ s.lockstepPending =
      false ∧ (s.waiterFor c x (fun w => decide (x.req.prio < w.req.prio)) = true)) ∧
    (∃ (c : Nat) (x : Ctx) (t : Task) (s : State), s.runningTask c = some (x, t) ∧ x.preempt = 1 ∧ (s.waiterFor c x (fun w => decide (x.req.prio <
      w.req.prio)) = false) ∧ s.quantumOver x t = false) ∧
    (∃ (c : Nat) (x : Ctx) (t : Task) (s : State), s.runningTask c = some (x, t) ∧ x.preempt = 1 ∧ x.req.forceable = true ∧ x.preemptTick +
      ticksMs x.req.forceAfter ≤ s.tick ∧ s.fget glob_ARMED 0 = 0 ∧ (s.waiterFor c x (fun w => decide (x.req.prio < w.req.prio)) = true)) ∧
    (∃ (c : Nat) (x : Ctx) (t : Task) (k : Saved) (s : State), s.runningTask c = some (x, t) ∧ x.preempt = 2 ∧ s.forcedSave x t = some k ∧
      t.atYield x.req = false ∧ t.pinned = false ∧ x.req.forceable = true ∧ (((List.range 2).all fun h => !x.req.uses h || s.seqDone x t h) =
      false)) ∧
    (∃ (c : Nat) (x : Ctx) (k : Saved) (s : State), s.ctx? c = some x ∧ x.saved = some k ∧ x.st = .preempting ∧ s.saveLost x = false) ∧
    (∃ (c : Nat) (x : Ctx) (k : Saved) (t : Task) (g s : State), s.ctx? c = some x ∧ x.saved = some k ∧ x.task = some t ∧ s.mayRestore c x = true
      ∧ s.grantedLoad c x x.waitSince = some g ∧ g.homeLost x.req = false) ∧
    (∃ (c : Nat) (x : Ctx) (k : Saved) (t : Task) (s : State), s.ctx? c = some x ∧ x.saved = some k ∧ x.task = some t ∧ x.st = .restoring ∧
      s.saveLost x = false) :=
  ⟨⟨63, asks, by decide +kernel, by decide +kernel, asks_created⟩,
   ⟨64, asks, by decide +kernel, by decide +kernel, by decide +kernel⟩,
   ⟨0, ctx0, withCtx ctx0 (on [(hdr_STATE 0, 0, 2)] live), by decide +kernel⟩,
   ⟨0, true, runCtx held, held, on [(hdr_STATE 0, 0, 2)] (runs held 0), by decide +kernel⟩,
   ⟨0, { ctx0 with req := { req0 with forceable := false } }, decodeRequest asks.requestBytes, withCtx
    { ctx0 with req := { req0 with forceable := false } } asks, by decide +kernel⟩,
   ⟨0, { ctx0 with st := .waiting }, withCtx { ctx0 with st := .waiting } (on [(hdr_STATE 0, 0, 2)] live), by decide +kernel⟩,
   ⟨0, runCtx task0, task0, outranked (runCtx task0), by decide +kernel⟩,
   ⟨0, { runCtx task0 with preempt := 1 }, task0,
    { runs task0 0 with cp := { (runs task0 0).cp with ctxs := [(0, { runCtx task0 with preempt := 1 })] } }, by decide +kernel⟩,
   ⟨0, { runCtx task0 with preempt := 1 }, task0, { outranked { runCtx task0 with preempt := 1 } with tick := ticksMs 100 }, by decide +kernel⟩,
   ⟨0, { runCtx held with preempt := 2 }, held, { saved0 with sb := (runs held 0).liveSb req0 0 },
    { runs held 0 with cp := { (runs held 0).cp with ctxs := [(0, { runCtx held with preempt := 2 })] } }, by decide +kernel⟩,
   ⟨0, { runCtx held with st := .preempting, saved := some saved0 }, saved0, withCtx { runCtx held with st := .preempting, saved := some saved0 }
    live, by decide +kernel⟩,
   ⟨0, { runCtx held with st := .suspended, saved := some saved0 }, saved0, held, granted (withCtx
    { runCtx held with st := .suspended, saved := some saved0 } (on [(hdr_STATE 0, 0, 2), (hdr_STATE 0x11, 0, 2)] live)), withCtx
    { runCtx held with st := .suspended, saved := some saved0 } (on [(hdr_STATE 0, 0, 2), (hdr_STATE 0x11, 0, 2)] live), by decide +kernel⟩,
   ⟨0, { runCtx held with st := .restoring, saved := some saved0 }, saved0, held, withCtx
    { runCtx held with st := .restoring, saved := some saved0 } live, by decide +kernel⟩⟩

/-- Each clause of TaskAndControlDescriptorsComplete has a state and operands that meet its hypotheses. -/
theorem witness_TaskAndControlDescriptorsComplete :
    (∃ (c : Nat) (x y : Ctx) (i : Intake) (is : List Intake) (g u s : State) (op : QueueOp), s.ctx? c = some x ∧ s.heldOf c = i :: is ∧ s.mayGrant
      c x i = true ∧ s.grantedLoad c x i.tick = some g ∧ u = g.count 0x04 0 0 1 ∧ y = (u.ctx? c).getD x ∧ i.op = some op) ∧
    (∃ (c : Nat) (x y : Ctx) (i : Intake) (is : List Intake) (g u s : State) (e : ExecCmd) (v : State), s.ctx? c = some x ∧ s.heldOf c = i :: is ∧
      s.mayGrant c x i = true ∧ s.grantedLoad c x i.tick = some g ∧ u = g.count 0x04 0 0 1 ∧ y = (u.ctx? c).getD x ∧ i.op = none ∧ i.exec = some e ∧
      v = u.beginTask c y i (u.withArg e) (s.lateLoad c x i.tick) ∧ v.imageActive e.slot y.req.fn = true ∧ v.loadCheck y (u.withArg e) = none) ∧
    (∃ (c h : Nat) (d : Desc) (s : State), s.nextDesc c h 0x01 = .go d ∧ bits d.w 20 84 = 0) ∧
    (∃ (c h m : Nat) (x : Ctx) (t : Task) (s : State), s.runningTask c = some (x, t) ∧ t.wait h = .barrier m ∧ t.watchDone h m t.ser = true) ∧
    (∃ (c h : Nat) (d : Desc) (s : State), s.nextDesc c h 0x02 = .go d ∧ bits d.w 39 65 = 0 ∧ bits d.w 12 10 / 512 = h ∧ d.x.req.holdsSem (bits
      d.w 12 10) = true ∧ bits d.w 22 16 ≤ s.sem (bits d.w 12 10) ∧ bit d.w 38 = true) ∧
    (∃ (c h : Nat) (d : Desc) (s : State), s.nextDesc c h 0x02 = .go d ∧ bits d.w 39 65 = 0 ∧ bits d.w 12 10 / 512 = h ∧ d.x.req.holdsSem (bits
      d.w 12 10) = true ∧ bits d.w 22 16 ≤ s.sem (bits d.w 12 10) ∧ bit d.w 38 = false) ∧
    (∃ (c h : Nat) (d : Desc) (s : State), s.nextDesc c h 0x02 = .go d ∧ bits d.w 39 65 = 0 ∧ bits d.w 12 10 / 512 = h ∧ d.x.req.holdsSem (bits
      d.w 12 10) = true ∧ s.sem (bits d.w 12 10) < bits d.w 22 16) ∧
    (∃ (c h n v : Nat) (acq : Bool) (x : Ctx) (t : Task) (s : State), s.runningTask c = some (x, t) ∧ t.wait h = .sem n v acq ∧ v ≤ s.sem n) ∧
    (∃ (c h : Nat) (d : Desc) (g : Signal) (s : State), s.nextDesc c h 0x03 = .go d ∧ bit d.w 39 = false ∧ bits d.w 48 56 = 0 ∧ d.x.req.holdsSem
      (bits d.w 12 10) = true ∧ (bit d.w 38 = true → (d.t.regs h).heldSem ≠ 0) ∧ g =
      { hob := h, index := d.i, sem := bits d.w 12 10, value := bits d.w 22 16, release := bit d.w 38, mask := bits d.w 40 8, ser := d.t.ser }) ∧
    (∃ (c h i : Nat) (x : Ctx) (t : Task) (g : Signal) (s : State), s.runningTask c = some (x, t) ∧ (s.rel.hobFault = true → g.sem / 512 = g.hob)
      ∧ ((t.signals.find? fun k => k.hob == h && k.index == i && t.watchDone h k.mask k.ser) = some g) ∧ s.sem g.sem + g.value ≤ 65535 ∧ (g.release
      = true → (t.regs g.hob).heldSem ≠ 0)) ∧
    (∃ (c h : Nat) (d : Desc) (s : State), s.nextDesc c h 0x04 = .go d ∧ bits d.w 44 60 = 0 ∧ bits d.w 12 16 ≤ pgLiveSb (s.imageOf d.t.exec.slot)
      ∧ bits d.w 28 16 ≤ pgLiveAcc (s.imageOf d.t.exec.slot)) ∧
    (∃ (c h : Nat) (x : Ctx) (t t2 : Task) (sb acc : Nat) (u s : State), s.runningTask c = some (x, t) ∧ (List.range 2).all (t.drained x.req) =
      true ∧ h < 2 ∧ x.req.uses h = true ∧ t.wait h = .yielding sb acc ∧ (t.regs 0).heldSem = 0 ∧ (t.regs 1).heldSem = 0 ∧ s.creditsHeld c = false ∧
      t2 = { t.passYield x.req with checkpoint := some ((s.yieldUnits c).checkpointOf c x (t.passYield x.req)) } ∧ u = (s.yieldUnits c).setCtx c
      { x with task := some t2 } ∧ x.abortWait = false ∧ x.preempt = 0 ∧ (x.req.forceable = true → u.saveLost x = false)) ∧
    (∃ (c h : Nat) (x : Ctx) (t t2 : Task) (sb acc : Nat) (u s : State), s.runningTask c = some (x, t) ∧ (List.range 2).all (t.drained x.req) =
      true ∧ h < 2 ∧ x.req.uses h = true ∧ t.wait h = .yielding sb acc ∧ (t.regs 0).heldSem = 0 ∧ (t.regs 1).heldSem = 0 ∧ s.creditsHeld c = false ∧
      t2 = { t.passYield x.req with checkpoint := some ((s.yieldUnits c).checkpointOf c x (t.passYield x.req)) } ∧ u = (s.yieldUnits c).setCtx c
      { x with task := some t2 } ∧ x.abortWait = false ∧ x.preempt ≠ 0) ∧
    (∃ (c h n left it : Nat) (active : Bool) (d : Desc) (r : TaskRegs) (s : State), s.nextDesc c h 0x05 = .go d ∧ bits d.w 50 6 = 0 ∧ bits d.w 80
      24 = 0 ∧ bits d.w 12 16 < d.i ∧ r = d.t.regs h ∧ n = bits d.w 48 2 ∧ active = r.loopActive.getD n false ∧ (active = true → r.loopFrom.getD n 0
      = d.i) ∧ left = (if active then r.loops.getD n 0 else bits d.w 28 20) ∧ it = (if active then r.iters.getD n 0 else 0) ∧ 0 < left) ∧
    (∃ (c h n left it : Nat) (active : Bool) (d : Desc) (r : TaskRegs) (s : State), s.nextDesc c h 0x05 = .go d ∧ bits d.w 50 6 = 0 ∧ bits d.w 80
      24 = 0 ∧ bits d.w 12 16 < d.i ∧ r = d.t.regs h ∧ n = bits d.w 48 2 ∧ active = r.loopActive.getD n false ∧ (active = true → r.loopFrom.getD n 0
      = d.i) ∧ left = (if active then r.loops.getD n 0 else bits d.w 28 20) ∧ it = (if active then r.iters.getD n 0 else 0) ∧ left = 0) ∧
    (∃ (c res : Nat) (x : Ctx) (t : Task) (u s : State), s.runningTask c = some (x, t) ∧ s.taskDone x t = true ∧ (t.advances ≠ [] →
      s.advanceBarred = none) ∧ res = (if x.req.pairing = 2 then (t.regs t.lastRes).result else (t.regs x.req.pairing).result) ∧ u = ((((s.advances
      c x t).yieldUnits c).dropWork c).postTask t 0 0 t.flagsOf res).missAborts t.exec.cmd) ∧
    (∃ (c h : Nat) (s : State), s.badClass c h = none) ∧
    (∃ (c : Nat) (x : Ctx) (t : Task) (s : State), s.runningTask c = some (x, t) ∧ t.exec.timeLimit ≠ 0 ∧ ticksMs t.exec.timeLimit ≤ t.ranTicks +
      (s.tick - t.loadTick)) :=
  ⟨⟨0, ctx0, _, { cmd := io, kind := .compute 0, begun := false, exec := none, op := some (.activation 0 true) }, [], granted (holding none (some
    (.activation 0 true))), _, holding none (some (.activation 0 true)), .activation 0 true, by decide +kernel, by decide +kernel,
    by decide +kernel, by decide +kernel, rfl, rfl, by decide +kernel⟩,
   ⟨0, ctx0, _, { cmd := io, kind := .compute 0, begun := false, exec := some task0.exec, op := none }, [], granted startable, _, startable,
    task0.exec, _, by decide +kernel, by decide +kernel, by decide +kernel, by decide +kernel, rfl, rfl, by decide +kernel, by decide +kernel, rfl,
    by decide +kernel, by decide +kernel⟩,
   ⟨0, 0, d0 task0 0x01, runs task0 0x01, by decide +kernel⟩,
   ⟨0, 0, 0xFF, runCtx { task0 with wait0 := .barrier 0xFF }, { task0 with wait0 := .barrier 0xFF }, runs { task0 with wait0 := .barrier 0xFF } 0,
    by decide +kernel⟩,
   ⟨0, 0, d0 task0 (0x02 + 2 ^ 12 + 3 * 2 ^ 22 + 2 ^ 38), sems 1 3 (runs task0 (0x02 + 2 ^ 12 + 3 * 2 ^ 22 + 2 ^ 38)), by decide +kernel⟩,
   ⟨0, 0, d0 task0 (0x02 + 2 ^ 12 + 3 * 2 ^ 22), sems 1 3 (runs task0 (0x02 + 2 ^ 12 + 3 * 2 ^ 22)), by decide +kernel⟩,
   ⟨0, 0, d0 task0 (0x02 + 2 ^ 12 + 3 * 2 ^ 22), sems 1 2 (runs task0 (0x02 + 2 ^ 12 + 3 * 2 ^ 22)), by decide +kernel⟩,
   ⟨0, 0, 1, 3, true, runCtx { task0 with wait0 := .sem 1 3 true }, { task0 with wait0 := .sem 1 3 true }, sems 1 3 (runs
    { task0 with wait0 := .sem 1 3 true } 0), by decide +kernel⟩,
   ⟨0, 0, d0 task0 (0x03 + 2 * 2 ^ 12 + 65535 * 2 ^ 22), { hob := 0, index := 1, sem := 2, value := 65535, release := false, mask := 0, ser := 0 },
    runs task0 (0x03 + 2 * 2 ^ 12 + 65535 * 2 ^ 22), by decide +kernel⟩,
   ⟨0, 0, 1, runCtx { task0 with signals := [{ hob := 0, index := 1, sem := 2, value := 65535, release := false, mask := 0, ser := 0 }] },
    { task0 with signals := [{ hob := 0, index := 1, sem := 2, value := 65535, release := false, mask := 0, ser := 0 }] },
    { hob := 0, index := 1, sem := 2, value := 65535, release := false, mask := 0, ser := 0 }, runs
    { task0 with signals := [{ hob := 0, index := 1, sem := 2, value := 65535, release := false, mask := 0, ser := 0 }] } 0, by decide +kernel⟩,
   ⟨0, 0, d0 task0 (0x04 + 4 * 2 ^ 12 + 4 * 2 ^ 28), runs task0 (0x04 + 4 * 2 ^ 12 + 4 * 2 ^ 28), by decide +kernel⟩,
   ⟨0, 0, runCtx { task0 with wait0 := .yielding 4 4 }, { task0 with wait0 := .yielding 4 4 }, _, 4, 4, _, runs
    { task0 with wait0 := .yielding 4 4 } 0, by decide +kernel, by decide +kernel, by decide +kernel, by decide +kernel, by decide +kernel,
    by decide +kernel, by decide +kernel, by decide +kernel, rfl, rfl, by decide +kernel, by decide +kernel, by decide +kernel⟩,
   ⟨0, 0, { runCtx { task0 with wait0 := .yielding 4 4 } with preempt := 1 }, { task0 with wait0 := .yielding 4 4 }, _, 4, 4, _, (runs task0
    0).setCtx 0 { runCtx { task0 with wait0 := .yielding 4 4 } with preempt := 1 }, by decide +kernel, by decide +kernel, by decide +kernel,
    by decide +kernel, by decide +kernel, by decide +kernel, by decide +kernel, by decide +kernel, rfl, rfl, by decide +kernel, by decide +kernel⟩,
   ⟨0, 0, 3, 7, 0, false, d0 task0 (0x05 + 7 * 2 ^ 28 + 3 * 2 ^ 48), _, runs task0 (0x05 + 7 * 2 ^ 28 + 3 * 2 ^ 48), by decide +kernel,
    by decide +kernel, by decide +kernel, by decide +kernel, rfl, by decide +kernel, by decide +kernel, by decide +kernel, by decide +kernel,
    by decide +kernel, by decide +kernel⟩,
   ⟨0, 0, 0, 0, 0, false, d0 task0 0x05, _, runs task0 0x05, by decide +kernel, by decide +kernel, by decide +kernel, by decide +kernel, rfl,
    by decide +kernel, by decide +kernel, by decide +kernel, by decide +kernel, by decide +kernel, by decide +kernel⟩,
   ⟨0, _, runCtx { task0 with ended0 := true }, { task0 with ended0 := true }, _, runs { task0 with ended0 := true } 0, by decide +kernel,
    by decide +kernel, by decide +kernel, rfl, rfl⟩,
   ⟨0, 0, up, by decide +kernel⟩,
   ⟨0, runCtx timed, timed, { runs timed 0 with tick := ticksMs 2 }, by decide +kernel⟩⟩

/-- Each clause of GriddleCommandsComplete has a state and operands that meet its hypotheses. -/
theorem witness_GriddleCommandsComplete :
    (∃ (c h i : Nat) (d : Desc) (r : Region) (s : State), s.nextDesc c h 0x10 = .go d ∧ mmFieldsOk (s.descMode d.x h (mmGriddle d.w)) d.w = true ∧
      s.checkGriddle c d.x h (mmGriddle d.w) (mmRegion d.w) = .ok i ∧ r = s.region i (mmRegion d.w) ∧ s.holdsLadle c h (mmALadle d.w) = true ∧
      (mmAccum d.w = 2 → s.holdsLadle c h (mmPreLadle d.w) = true) ∧ mmFormatCase d.w = 0 ∧ mmSettingsOk r d.w = true ∧ mmWeightFmt r d.w = some
      (mmWFmt d.w) ∧ mmAccumOk r d.w = true ∧ s.fget (hdr_DRAIN 0x11) i ≠ 1 ∧ (mmDrain d.w = true → s.drainWhisk c h (mmGriddle d.w) (mmRegion d.w)
      = none)) ∧
    (∃ (i r : Nat) (p : Pass) (f : Feed) (pre : Option Feed) (s : State), (s.region i r).passReady = some (p, f, pre) ∧ s.fget (hdr_STATE 0x11) i
      = 2 ∧ s.injectLeft 0x11 i 1 = 0 ∧ s.armed 0x11 i [3, 8, 9, 11] = none ∧ s.injectLeft 0x11 i 2 = 0 ∧ (s.region i r).tiles.length = 2 ∧ mmTile
      p.word < 2) ∧
    (∃ (i : Nat) (s : State) (kind : Nat), Sys2Proof.Machine.present s.variant 0x11 i = true ∧ (kind = 8 ∨ kind = 9)) ∧
    (∃ (i r port index tile ch : Nat) (s : State), s.mismatchAt i r port = some (index, tile, ch) ∧ port < 2) ∧
    (∃ (i r : Nat) (s : State), Sys2Proof.Machine.present s.variant 0x11 i = true ∧ s.regionState i r = 4 ∧ s.regionOwner i r = 0xFF ∧ s.fget
      grid_SELF_CHECK_BUSY i ≠ 1 ∧ s.fget (hdr_STATE 0x11) i ≠ 5 ∧ s.fget (hdr_STATE 0x11) i ≠ 1) ∧
    (∃ (i r : Nat) (s : State), Sys2Proof.Machine.present s.variant 0x11 i = true ∧ r = s.fget grid_SELF_CHECK_REGION i ∧ s.fget glob_TEST_MODE 0
      = 1 ∧ r < s.fget grid_REGIONS i ∧ s.regionOwner i r = 0xFF ∧ s.fget grid_SELF_CHECK_BUSY i = 0) ∧
    (∃ (i r : Nat) (s : State), s.fget grid_SELF_CHECK_BUSY i ≠ 0 ∧ sget? s.units.checking i = some (.host r)) ∧
    (∃ (i r : Nat) (s : State), s.fget grid_SELF_CHECK_BUSY i ≠ 0 ∧ sget? s.units.checking i = some (.region r)) ∧
    (∃ (i used : Nat) (marked : List Field → List Nat) (u s : State), s.fget grid_SPARE_PENDING i = 1 ∧ (∀ r < 4, s.regionOwner i r = 0xFF) ∧
      s.fget (hdr_STATE 0x11) i ≠ 5 ∧ s.fget grid_SELF_CHECK_BUSY i = 0 ∧ u = s.putControl hdr_DRAIN 0x11 i true ∧ marked = (fun fs => (fs.map fun f
      => u.fget f i).filter (· ≠ 0x1FF)) ∧ used = (marked badRows).length + (marked badCols).length ∧ u.griddleBusy i = true) ∧
    (∃ (i used : Nat) (marked : List Field → List Nat) (u s : State), s.fget grid_SPARE_PENDING i = 1 ∧ (∀ r < 4, s.regionOwner i r = 0xFF) ∧
      s.fget (hdr_STATE 0x11) i ≠ 5 ∧ s.fget grid_SELF_CHECK_BUSY i = 0 ∧ u = s.putControl hdr_DRAIN 0x11 i true ∧ marked = (fun fs => (fs.map fun f
      => u.fget f i).filter (· ≠ 0x1FF)) ∧ used = (marked badRows).length + (marked badCols).length ∧ u.griddleBusy i = false) ∧
    (∃ (i : Nat) (s : State), s.units.retiring.contains i = true ∧ (∀ r < 4, s.regionOwner i r = 0xFF) ∧ s.fget (hdr_STATE 0x11) i ≠ 5) :=
  ⟨⟨0, 0, 0, d0 task0 mm0, region0, grid mm0 region0, by decide +kernel⟩,
   ⟨0, 0, { index := 1, ser := 0, word := mm0, acc := region0.acc, cfg := none },
    { ch := 0, index := 0, port := 0, fmt := 0, elems := 1, recs := [[1]] }, none, grid 0 (passing 1), by decide +kernel⟩,
   ⟨33, up, 9, by decide +kernel⟩,
   ⟨0, 0, 0, 1, 1, 0, grid 0 (passing 2), by decide +kernel⟩,
   ⟨0, 0, on [(grid_REGION_STATE, 0, 4)] up, by decide +kernel⟩,
   ⟨0, 0, on [(glob_TEST_MODE, 0, 1)] up, by decide +kernel⟩,
   ⟨0, 0, on [(grid_SELF_CHECK_BUSY, 0, 1)] { up with units := { up.units with checking := [(0, .host 0)] } }, by decide +kernel⟩,
   ⟨0, 0, on [(grid_SELF_CHECK_BUSY, 0, 1)] { up with units := { up.units with checking := [(0, .region 0)] } }, by decide +kernel⟩,
   ⟨0, _, _, _, on [(grid_SPARE_PENDING, 0, 1), (grid_BAD_ROW0, 0, 255)] { up with units := { up.units with regions := [(0, passing 1)] } },
    by decide +kernel, by decide +kernel, by decide +kernel, by decide +kernel, rfl, rfl, rfl, by decide +kernel⟩,
   ⟨0, _, _, _, on [(grid_SPARE_PENDING, 0, 1), (grid_BAD_ROW0, 0, 255)] up, by decide +kernel, by decide +kernel, by decide +kernel,
    by decide +kernel, rfl, rfl, rfl, by decide +kernel⟩,
   ⟨33, { up with units := { up.units with retiring := [33] } }, by decide +kernel⟩⟩

/-- Each clause of DrainAndWhiskCommandsComplete has a state and operands that meet its hypotheses. -/
theorem witness_DrainAndWhiskCommandsComplete :
    (∃ (c h i : Nat) (d : Desc) (r : Region) (s : State), s.nextDesc c h 0x11 = .go d ∧ dcFieldsOk (s.descMode d.x h (dcGriddle d.w)) d.w = true ∧
      s.checkGriddle c d.x h (dcGriddle d.w) (dcRegion d.w) = .ok i ∧ r = s.region i (dcRegion d.w) ∧ s.cfgBarred h d.w = false ∧ s.holdsLadle c h
      (dcOutLadle d.w) = true ∧ dcRowSum d.w = 0 ∧ dcRowScale d.w = 0 ∧ dcLoadAct d.w = false ∧ dcLoadCh d.w = false ∧ s.drainWhisk c h (dcGriddle
      d.w) (dcRegion d.w) = none) ∧
    (∃ (i r : Nat) (x y : Region) (l : TableLoad) (ls : List TableLoad) (s : State), x = s.region i r ∧ x.loads = l :: ls ∧ x.loadBlocked l =
      false ∧ (dcLoadAct l.word = true → actTableOk (s.loadAct l) = true) ∧ y =
      { x with loads := ls, act := (if dcLoadAct l.word then setAt x.act (cfgSlot l.word) (some (s.loadAct l)) else x.act), chan := (if dcLoadCh l.word then setAt x.chan (cfgSlot l.word) (some (s.loadChan l)) else x.chan) }) ∧
    (∃ (i r : Nat) (x : Region) (hd : Handover) (hs : List Handover) (s : State), x = s.region i r ∧ x.hands = hd :: hs ∧ hd.begun = false ∧
      s.fget (hdr_STATE 0x11) i = 2 ∧ ((x.loads.any fun l => l.ser < hd.ser && cfgSlot l.word == cfgSlot hd.cfg) = false) ∧ dcRound hd.cfg = true) ∧
    (∃ (i r : Nat) (x : Region) (hd : Handover) (hs : List Handover) (s : State), x = s.region i r ∧ x.hands = hd :: hs ∧ hd.begun = false ∧
      s.fget (hdr_STATE 0x11) i = 2 ∧ ((x.loads.any fun l => l.ser < hd.ser && cfgSlot l.word == cfgSlot hd.cfg) = false) ∧ dcRound hd.cfg = false) ∧
    (∃ (i r : Nat) (x : Region) (hd : Handover) (hs : List Handover) (s : State), x = s.region i r ∧ x.hands = hd :: hs ∧ s.drainReady i r hd
      (s.drainOf i r hd).out.length = true ∧ (dcNfFault hd.cfg = true → (s.drainOf i r hd).nfs.contains true = false) ∧ s.injectLeft 0x14 i 1 = 0 ∧
      s.armed 0x14 i [3, 9] = none ∧ s.injectLeft 0x14 i 2 = 0 ∧ s.drainWhisk (s.regionOwner i r) (i / 17) (s.fget (hdr_LOGICAL_INDEX 0x11) i) r =
      none ∧ hd.tile < 2 ∧ x.tiles.length = 2) ∧
    (∃ (i : Nat) (s : State), Sys2Proof.Machine.present s.variant 0x14 i = true) ∧
    (∃ (i r pos kind : Nat) (x : Region) (u s : State), Sys2Proof.Machine.present s.variant 0x14 i = true ∧ (kind = 3 ∨ kind = 9) ∧ x = s.region i
      r ∧ u = (s.err 0x14 i [kind, 11] (x.drainPlace r pos) (s.regionOwner i r)).blockEvent 0x14 i 0 (x.drainPlace r pos) false (s.regionOwner i r)) ∧
    (∃ (c h : Nat) (d : Desc) (s : State), s.nextDesc c h 0x19 = .go d ∧ whFieldsOk d.w = true ∧ s.whiskBusy h (whUnit d.w) = false ∧ whLoad d.w =
      false ∧ ((whSmooth d.w = true ∨ whSigns d.w = true) → (s.whisk (4 * h + whUnit d.w)).loaded = true) ∧ s.fget (hdr_STATE 0x13) (4 * h + whUnit
      d.w) = 2 ∧ whAttach d.w ≠ 2 ∧ (whAttach d.w = 1 → isMx (whOutFmt d.w) = false) ∧ (whAttach d.w = 1 → whVlen d.w % rotLen (whRot d.w) = 0) ∧
      s.fget (hdr_OWNER_CONTEXT 0x13) (4 * h + whUnit d.w) = c) ∧
    (∃ (i : Nat) (s : State), Sys2Proof.Machine.present s.variant 0x13 i = true) :=
  ⟨⟨0, 0, 0, d0 task0 (0x11 + 2 ^ 19), region0, grid (0x11 + 2 ^ 19) region0, by decide +kernel⟩,
   ⟨0, 0, { region0 with loads := [{ index := 1, word := 0x11, src := 0, ser := 0 }] }, _, { index := 1, word := 0x11, src := 0, ser := 0 }, [],
    grid 0 { region0 with loads := [{ index := 1, word := 0x11, src := 0, ser := 0 }] }, by decide +kernel, by decide +kernel, by decide +kernel,
    by decide +kernel, rfl⟩,
   ⟨0, 0, _, { index := 1, ser := 0, tile := 0, m := 1, n := 1, exp := 0, cfg := 0x11 + 2 ^ 44, count := 0, begun := false }, [], grid 0
    { handed false with hands := [{ index := 1, ser := 0, tile := 0, m := 1, n := 1, exp := 0, cfg := 0x11 + 2 ^ 44, count := 0, begun := false }] },
    rfl, by decide +kernel, by decide +kernel, by decide +kernel, by decide +kernel, by decide +kernel⟩,
   ⟨0, 0, handed false, { index := 1, ser := 0, tile := 0, m := 1, n := 1, exp := 0, cfg := 0x11, count := 0, begun := false }, [], grid 0 (handed
    false), by decide +kernel⟩,
   ⟨0, 0, handed true, { index := 1, ser := 0, tile := 0, m := 1, n := 1, exp := 0, cfg := 0x11, count := 0, begun := true }, [], chan0 [] (some
    (move0 0 [7, 0, 0, 0, 1, 0, 0, 0, 1, 0, 0, 0])) (on [(hdr_STATE 0x12, 0, 2)] (grid 0 (handed true))), by decide +kernel⟩,
   ⟨33, up, by decide +kernel⟩,
   ⟨0, 0, 0, 9, _, _, grid 0 (handed true), by decide +kernel, by decide +kernel, rfl, rfl⟩,
   ⟨0, 0, d0 task0 (0x19 + 2 ^ 14 + 8192 * 2 ^ 37), on [(hdr_STATE 0x13, 0, 2)] (runs task0 (0x19 + 2 ^ 14 + 8192 * 2 ^ 37)), by decide +kernel⟩,
   ⟨7, up, by decide +kernel⟩⟩

/-- Each clause of LadleAndSharedBufferCommandsComplete has a state and operands that meet its hypotheses. -/
theorem witness_LadleAndSharedBufferCommandsComplete :
    (∃ (c h a i : Nat) (d : Desc) (m : Move) (s : State), s.nextDesc c h 0x18 = .go d ∧ s.tableSource d (mvSel d.w) (mvRecOff d.w) 128 = some a ∧
      i = 64 * h + mvChan d.w ∧ m =
      { hob := h, index := d.i, ctx := c, ser := d.t.ser, word := d.w, record := s.sbRead h a 128, iters := (d.t.regs h).moveIters, base := (d.t.regs h).base, mrs := (d.t.regs h).mrs, out := [], due := d.due, job := none, sent := 0, rx := [], filled := [] }
      ∧ moveFieldsOk d.w m.record = true ∧ s.moveCheck d m = none ∧ rcSrcKind m.record ≠ 5 ∧ s.portBound h false (sbGroups (m.spans (s.moveWhisk h
      d.w)) false) = false ∧ s.portBound h true (sbGroups (m.spans (s.moveWhisk h d.w)) true) = false ∧ ((((m.spans (s.moveWhisk h d.w)).filter
      Span.write).flatMap s.windowsOf).any s.fillPending) = false ∧ s.fget (hdr_DRAIN 0x12) i ≠ 1 ∧ (s.chan i).queue.length < 8) ∧
    (∃ (ch : Nat) (m : Move) (ms : List Move) (s : State), (s.chan ch).queue = m :: ms ∧ (s.chan ch).run = none ∧ s.fget (hdr_STATE 0x12) ch = 2 ∧
      s.fget ladle_HALTED ch ≠ 1 ∧ s.whiskHeld m = false ∧ s.moveDrained m = false ∧ (s.fget glob_DET_MODE_EFFECTIVE 0 = 1 → m.due ≤ s.tick) ∧
      m.job.isSome = true ∧ s.jobTurn m = true) ∧
    (∃ (ch : Nat) (m : Move) (ms : List Move) (s : State), (s.chan ch).queue = m :: ms ∧ (s.chan ch).run = none ∧ s.fget (hdr_STATE 0x12) ch = 2 ∧
      s.fget ladle_HALTED ch ≠ 1 ∧ s.whiskHeld m = false ∧ s.moveDrained m = false ∧ (s.fget glob_DET_MODE_EFFECTIVE 0 = 1 → m.due ≤ s.tick) ∧ m.job
      = none ∧ rcDstPort m.record = false ∧ rcSrcKind m.record ≠ 6 ∧ mvWhisk m.word = 0) ∧
    (∃ (ch : Nat) (m : Move) (ms : List Move) (s : State), (s.chan ch).queue = m :: ms ∧ (s.chan ch).run = none ∧ s.fget (hdr_STATE 0x12) ch = 2 ∧
      s.fget ladle_HALTED ch ≠ 1 ∧ s.whiskHeld m = false ∧ s.moveDrained m = false ∧ (s.fget glob_DET_MODE_EFFECTIVE 0 = 1 → m.due ≤ s.tick) ∧ m.job
      = none ∧ rcDstPort m.record = true ∧ rcSrcKind m.record ≠ 6 ∧ mvWhisk m.word = 0 ∧ s.sourceOk m = true) ∧
    (∃ (ch : Nat) (m : Move) (cs : List Nat) (s : State), (s.chan ch).run = some m ∧ s.moveGoes ch m = true ∧ s.moveStopped ch m = none ∧ cs = (if
      rcSrcKind m.record = 5 then ((s.moveIus m).map fun iu => s.packageOf (iuTier iu)).eraseDups else []) ∧ s.colanderArmed cs false = none ∧
      (s.colanderFlips cs m.ctx).moveInjected ch m = (s, false) ∧ rcDstPort m.record = false ∧ s.sourceOk m = true ∧ (rcSrcPort m.record = true →
      m.out ≠ []) ∧ (s.stagingRoom (rcDstKind m.record) ((m.records.zip (s.moveOut m).1).map fun p => (p.1.2.2, p.2.length)) = true)) ∧
    (∃ (ch page : Nat) (m : Move) (s : State), (s.chan ch).run = some m ∧ s.moveGoes ch m = true ∧ s.moveStopped ch m = none ∧ rcDstKind m.record
      = 1 ∧ (s.mark page).window = true ∧ m.filled.contains page = false ∧ s.sourceOk m = true ∧ (rcSrcPort m.record = true → m.out ≠ []) ∧
      (pagesOfRange (m.hull false (m.dstLen (s.moveWhisk m.hob m.word))).1 ((m.hull false (m.dstLen (s.moveWhisk m.hob m.word))).2 + 1 - (m.hull
      false (m.dstLen (s.moveWhisk m.hob m.word))).1)).contains page = true) ∧
    (∃ (ch : Nat) (m : Move) (s : State), (s.chan ch).run = some m ∧ m.job = none ∧ s.fget ladle_HALTED ch ≠ 1 ∧ rcSrcKind m.record < 7 ∧
      rcSrcKind m.record ≠ 0) ∧
    (∃ (ch : Nat) (m : Move) (s : State), (s.chan ch).run = some m ∧ m.job = none ∧ s.fget ladle_HALTED ch ≠ 1 ∧ rcSrcKind m.record = 0) ∧
    (∃ (ch : Nat) (m : Move) (s : State), (s.chan ch).run = some m ∧ m.job = none ∧ s.fget ladle_HALTED ch ≠ 1 ∧ s.injectLeft 0x12 ch 3 ≠ 0) ∧
    (∃ (h a : Nat), h < 2 ∧ a < 0x0C000000) :=
  ⟨⟨0, 0, 2 * 2 ^ 22 + 64, 0, d0 task0 0x18, _, on [(hdr_STATE 0x12, 0, 2)] (withData task0 0x18 (rec0 0 (2 ^ 22) (2 ^ 22 + 16))),
    by decide +kernel, by decide +kernel, by decide +kernel, rfl, by decide +kernel, by decide +kernel, by decide +kernel, by decide +kernel,
    by decide +kernel, by decide +kernel, by decide +kernel, by decide +kernel⟩,
   ⟨0, { move0 0x20 [] with job := some { prog := [], tables := [], epoch := 0 } }, [], chan0
    [{ move0 0x20 [] with job := some { prog := [], tables := [], epoch := 0 } }] none (on [(hdr_STATE 0x12, 0, 2)] (runs task0 0)),
    by decide +kernel⟩,
   ⟨0, move0 0x18 (rec0 0 0 16), [], chan0 [move0 0x18 (rec0 0 0 16)] none (on [(hdr_STATE 0x12, 0, 2)] (runs task0 0)), by decide +kernel⟩,
   ⟨0, move0 0x18 (rec0 (7 * 16) (2 ^ 22) 0), [], chan0 [move0 0x18 (rec0 (7 * 16) (2 ^ 22) 0)] none (on [(hdr_STATE 0x12, 0, 2)] (runs task0 0)),
    by decide +kernel⟩,
   ⟨0, move0 0x18 (rec0 0 0 16), [], chan0 [] (some (move0 0x18 (rec0 0 0 16))) (runs task0 0), by decide +kernel⟩,
   ⟨0, 70, move0 0x18 (rec0 16 0 (70 * 2 ^ 21)), windowed, by decide +kernel⟩,
   ⟨0, move0 0x18 (rec0 6 0 0), chan0 [] (some (move0 0x18 (rec0 6 0 0))) (runs task0 0), by decide +kernel⟩,
   ⟨0, move0 0x18 (rec0 0 0 16), chan0 [] (some (move0 0x18 (rec0 0 0 16))) (runs task0 0), by decide +kernel⟩,
   ⟨0, move0 0x18 (rec0 0 0 16), chan0 [] (some (move0 0x18 (rec0 0 0 16))) (injected 0x12 0 3 (runs task0 0)), by decide +kernel⟩,
   ⟨1, 0x0BFFFFFF, by decide +kernel⟩⟩

/-- Each clause of SniloCommandsComplete has a state and operands that meet its hypotheses. -/
theorem witness_SniloCommandsComplete :
    (∃ (port src a n : Nat) (u v s : State) (bs : List Byte), s.variant = .x ∧ s.fget (hdr_STATE 0x30) port = 2 ∧ s.portUp port = true ∧ n ≠ 0 ∧ a
      % 4096 + n ≤ 4096 ∧ s.rxCorrupt port = false ∧ u = s.frame port 64 src 0 false ∧ v = u.wake.serve 5 0 3 ∧ v.t3Serve src a n = .ok bs) ∧
    (∃ (port src a n : Nat) (u v s : State) (reason : Nat), s.variant = .x ∧ s.fget (hdr_STATE 0x30) port = 2 ∧ s.portUp port = true ∧ n ≠ 0 ∧ a %
      4096 + n ≤ 4096 ∧ s.rxCorrupt port = false ∧ u = s.frame port 64 src 0 false ∧ v = u.wake.serve 5 0 3 ∧ v.t3Serve src a n = .error reason) ∧
    (∃ (port tag : Nat) (data : List Byte) (r : SReq) (s : State), s.variant = .x ∧ s.portUp port = true ∧ s.rxCorrupt port = false ∧ s.match?
      (tagOf tag) = some r ∧ data.length = r.len) ∧
    (∃ (port tag reason : Nat) (r : SReq) (s : State), s.variant = .x ∧ s.portUp port = true ∧ s.rxCorrupt port = false ∧ s.match? (tagOf tag) =
      some r ∧ 1 ≤ reason ∧ reason ≤ 4) ∧
    (∃ (port tag reason : Nat) (r : SReq) (s : State), s.variant = .x ∧ s.portUp port = true ∧ s.rxCorrupt port = false ∧ s.match? (tagOf tag) =
      some r ∧ reason = 5) ∧
    (∃ (ch port credit via : Nat) (r : SReq) (s : State), s.reqAt ch port credit = some r ∧ r.last + r.wait ≤ s.tick ∧ via < 2 ∧ s.portUp via =
      true ∧ s.time.paused.contains via = false) ∧
    (∃ (ch port credit : Nat) (r : SReq) (s : State), s.reqAt ch port credit = some r ∧ r.first + ticksMs (s.fget snilo_REMOTE_TIMEOUT_MS 0) ≤
      s.tick) ∧
    (∃ (ch : Nat) (s : State), s.runsT3 ch = false) ∧
    (∃ (f n : Nat) (s : State), s.variant = .x ∧ s.planesOn = true ∧ f = s.fget snilo_FIRST_ENTRY 0 ∧ n = s.fget snilo_ENTRY_COUNT 0 ∧ n ≠ 0 ∧
      s.fget64 snilo_SRC_ADDR_LO snilo_SRC_ADDR_HI 0 % 64 = 0 ∧ f + n ≤ 32768 ∧ (s.loadEntries n 64).all peerOk = true) ∧
    (∃ (f n : Nat) (s : State), s.variant = .x ∧ s.planesOn = true ∧ f = s.fget snilo_FIRST_ENTRY 0 ∧ n = s.fget snilo_ENTRY_COUNT 0 ∧ n ≠ 0 ∧
      s.fget64 snilo_SRC_ADDR_LO snilo_SRC_ADDR_HI 0 % 64 = 0 ∧ f + n ≤ 256 ∧ (s.loadEntries n 32).all windowOk = true ∧ windowsOverlap (putEntries
      f (s.loadEntries n 32) s.snilo.exports) = false) ∧
    (∃ (s : State), s.variant = .x ∧ s.planesOn = true) ∧
    (∃ (s : State), s.variant = .x ∧ s.planesOn = true ∧ s.snilo.reqs = []) :=
  ⟨⟨0, 10, 4095, 1, _, _, serving, [0], by decide +kernel, by decide +kernel, by decide +kernel, by decide +kernel, by decide +kernel,
    by decide +kernel, rfl, rfl, by decide +kernel⟩,
   ⟨0, 10, 2 ^ 45, 1, _, _, serving, 1, by decide +kernel, by decide +kernel, by decide +kernel, by decide +kernel, by decide +kernel,
    by decide +kernel, rfl, rfl, by decide +kernel⟩,
   ⟨1, 7 * 2 ^ 7 + 2 ^ 10 + 3 * 2 ^ 11, [1, 2], req1, asked, by decide +kernel⟩,
   ⟨1, 7 * 2 ^ 7 + 2 ^ 10 + 3 * 2 ^ 11, 4, req1, asked, by decide +kernel⟩,
   ⟨1, 7 * 2 ^ 7 + 2 ^ 10 + 3 * 2 ^ 11, 5, req1, asked, by decide +kernel⟩,
   ⟨0, 1, 7, 1, req1, { asked with tick := 10 }, by decide +kernel⟩,
   ⟨0, 1, 7, req1, { asked with tick := ticksMs (asked.fget snilo_REMOTE_TIMEOUT_MS 0) }, by decide +kernel⟩,
   ⟨127, asked, by decide +kernel⟩,
   ⟨32767, 1, on [(snilo_FIRST_ENTRY, 0, 32767), (snilo_ENTRY_COUNT, 0, 1)] up, by decide +kernel⟩,
   ⟨255, 1, on [(snilo_FIRST_ENTRY, 0, 255), (snilo_ENTRY_COUNT, 0, 1)] up, by decide +kernel⟩,
   ⟨up, by decide +kernel⟩,
   ⟨up, by decide +kernel⟩⟩

/-- Each clause of ColanderDescriptorsComplete has a state and operands that meet its hypotheses. -/
theorem witness_ColanderDescriptorsComplete :
    (∃ (c h a : Nat) (d : Desc) (s : State), s.nextDesc c h 0x20 = .go d ∧ bits d.w 12 2 = 0 ∧ filterBodyOk d.w = true ∧ s.tableSource d (flSel
      d.w) (flOff d.w) 2048 = some a ∧ filterOk (s.sbRead h a 2048) = true ∧ s.sanitizing = false ∧ s.portBound h false (if flSel d.w = 0 then []
      else groupsOfHull a (a + 2047)) = false) ∧
    (∃ (c h a mode : Nat) (d : Desc) (r k : List Byte) (j : Job) (p : Span) (s : State), s.nextDesc c h 0x20 = .go d ∧ bits d.w 12 2 = mode ∧
      filterBodyOk d.w = true ∧ s.tableSource d (flSel d.w) (flOff d.w) 64 = some a ∧ r = s.sbRead h a 64 ∧ filterReqOk mode r = true ∧ (s.nearCheck
      d r (flOut d.w) false (decide (mode = 3)) (some (flSlot d.w)) [] (fun q => filterLen mode (s.reach h).length (colWidth q (rqCol r)) r) = none)
      ∧ s.collection c d.x (rqColl r) = some k ∧ j =
      { prog := (s.slotProg h c (flSlot d.w)).getD [], tables := [], epoch := d.t.epochOf (clDomain k) } ∧ p = rqSpan (d.t.regs h).base r (filterLen
      mode (s.reach h).length (colWidth k (rqCol r)) r) ∧ s.portBound h true p.groups = false ∧ (s.chan (64 * h + flOut d.w)).queue.length < 8 ∧
      s.fget (hdr_DRAIN 0x12) (64 * h + flOut d.w) ≠ 1 ∧ mode = 1) ∧
    (∃ (c h a mode : Nat) (d : Desc) (r k : List Byte) (j : Job) (p : Span) (s : State), s.nextDesc c h 0x20 = .go d ∧ bits d.w 12 2 = mode ∧
      filterBodyOk d.w = true ∧ s.tableSource d (flSel d.w) (flOff d.w) 64 = some a ∧ r = s.sbRead h a 64 ∧ filterReqOk mode r = true ∧ (s.nearCheck
      d r (flOut d.w) false (decide (mode = 3)) (some (flSlot d.w)) [] (fun q => filterLen mode (s.reach h).length (colWidth q (rqCol r)) r) = none)
      ∧ s.collection c d.x (rqColl r) = some k ∧ j =
      { prog := (s.slotProg h c (flSlot d.w)).getD [], tables := [], epoch := d.t.epochOf (clDomain k) } ∧ p = rqSpan (d.t.regs h).base r (filterLen
      mode (s.reach h).length (colWidth k (rqCol r)) r) ∧ s.portBound h true p.groups = false ∧ (s.chan (64 * h + flOut d.w)).queue.length < 8 ∧
      s.fget (hdr_DRAIN 0x12) (64 * h + flOut d.w) ≠ 1 ∧ mode = 2) ∧
    (∃ (c h a mode : Nat) (d : Desc) (r k : List Byte) (j : Job) (p : Span) (s : State), s.nextDesc c h 0x20 = .go d ∧ bits d.w 12 2 = mode ∧
      filterBodyOk d.w = true ∧ s.tableSource d (flSel d.w) (flOff d.w) 64 = some a ∧ r = s.sbRead h a 64 ∧ filterReqOk mode r = true ∧ (s.nearCheck
      d r (flOut d.w) false (decide (mode = 3)) (some (flSlot d.w)) [] (fun q => filterLen mode (s.reach h).length (colWidth q (rqCol r)) r) = none)
      ∧ s.collection c d.x (rqColl r) = some k ∧ j =
      { prog := (s.slotProg h c (flSlot d.w)).getD [], tables := [], epoch := d.t.epochOf (clDomain k) } ∧ p = rqSpan (d.t.regs h).base r (filterLen
      mode (s.reach h).length (colWidth k (rqCol r)) r) ∧ s.portBound h true p.groups = false ∧ (s.chan (64 * h + flOut d.w)).queue.length < 8 ∧
      s.fget (hdr_DRAIN 0x12) (64 * h + flOut d.w) ≠ 1 ∧ mode = 3) ∧
    (∃ (c h a n : Nat) (gs : List Nat) (d : Desc) (u s : State), s.nextDesc c h 0x21 = .go d ∧ bits d.w 12 2 = 0 ∧ scanBodyOk d.w = true ∧ n =
      tableLen (skM d.w) (skCode4 d.w) ∧ s.tableSource d (skSel d.w) (skOff d.w) (skQ d.w * n) = some a ∧ gs = (if skSel d.w = 0 then [] else
      groupsOfHull a (a + skQ d.w * n - 1)) ∧ s.fget (hdr_OWNER_CONTEXT 0x17) h = c ∧ s.outGone 0x17 h = none ∧ s.sanitizing = false ∧ s.portBound h
      false gs = false ∧ u =
      { s with near := { s.near with tslots := ((s.reach h).flatMap fun k => (List.range (skQ d.w)).map fun q => (k, q)).foldl (fun m kq => sput m (64 * kq.1 + skSlot d.w + kq.2) (skM d.w, if skCode4 d.w then 4 else 8, s.sbRead h (a + kq.2 * n) n)) s.near.tslots } }) ∧
    (∃ (c h a : Nat) (d : Desc) (r k : List Byte) (j : Job) (p : Span) (s : State), s.nextDesc c h 0x21 = .go d ∧ bits d.w 12 2 = 1 ∧ scanBodyOk
      d.w = true ∧ s.tableSource d (skSel d.w) (skOff d.w) 64 = some a ∧ r = s.sbRead h a 64 ∧ scanReqOk r = true ∧ (s.nearCheck d r (skOut d.w)
      true false (if rqFilter r then some (rqSlot r) else none) (s.slotTables h (skSlot d.w) (skQ d.w)) (fun _ => skQ d.w * (s.reach h).length *
      listBytes (rqK r)) = none) ∧ s.collection c d.x (rqColl r) = some k ∧ j =
      { prog := if rqFilter r then (s.slotProg h c (rqSlot r)).getD [] else [], tables := (s.slotTables h (skSlot d.w) (skQ d.w)).filterMap id, epoch := d.t.epochOf (clDomain k) }
      ∧ p = rqSpan (d.t.regs h).base r (skQ d.w * (s.reach h).length * listBytes (rqK r)) ∧ s.portBound h true p.groups = false ∧ (s.chan (64 * h +
      skOut d.w)).queue.length < 8 ∧ s.fget (hdr_DRAIN 0x12) (64 * h + skOut d.w) ≠ 1) ∧
    (∃ (c h i : Nat) (e : Issued) (s : State), s.issueOf c h i = some e ∧ (e.cls = 0x20 ∨ e.cls = 0x21) ∧ bits e.word 12 2 = 0 ∧ ((s.earlier c h
      e.ser [0x20, 0x21]).all (fun k => s.runsJob c k.ser) = true)) ∧
    (∃ (c h i ch : Nat) (e : Issued) (m : Move) (x : Ctx) (j : Job) (k : Collection) (s : State), s.issueOf c h i = some e ∧ (e.cls = 0x20 ∨ e.cls
      = 0x21) ∧ bits e.word 12 2 ≠ 0 ∧ ch = 64 * h + (if e.cls = 0x20 then flOut e.word else skOut e.word) ∧ (s.chan ch).run = some m ∧ s.ctx? c =
      some x ∧ m.job = some j ∧ sget? s.near.collections (65536 * x.req.fn + rqColl m.record) = some k ∧ m.ctx = c ∧ m.ser = e.ser ∧ s.ungranted c
      e.ser = false ∧ s.jobFault m j = none ∧ s.fget (hdr_STATE 0x12) ch = 2 ∧ s.colanderArmed (((s.reachRecords h k.bytes (rqFirst m.record)
      (rqCount m.record)).map (s.recColander k.bytes)).eraseDups) (e.cls == 0x21) = none) ∧
    (∃ (c h i kind col code : Nat) (e : Issued) (x : Ctx) (s : State), s.issueOf c h i = some e ∧ s.ctx? c = some x ∧ (e.cls = 0x20 ∨ e.cls =
      0x21) ∧ colanderFitted s.variant col = true ∧ 1 ≤ kind ∧ kind ≤ 6 ∧ code = (if kind = 1 then 0x0C else if kind = 2 then 0x56 else if kind = 5
      then 0x21 else 0x57)) :=
  ⟨⟨0, 0, 2 * 2 ^ 22 + 64, d0 task0 0x20, withData task0 0x20 (filt0.take 592), by decide +kernel⟩,
   ⟨0, 0, 2 * 2 ^ 22 + 64, 1, d0 task0 (0x20 + 2 ^ 12), _, coll1, _, _, near0 (withData task0 (0x20 + 2 ^ 12) (req5 0 0)), by decide +kernel,
    by decide +kernel, by decide +kernel, by decide +kernel, rfl, by decide +kernel, by decide +kernel, by decide +kernel, rfl, rfl,
    by decide +kernel, by decide +kernel, by decide +kernel, by decide +kernel⟩,
   ⟨0, 0, 2 * 2 ^ 22 + 64, 2, d0 task0 (0x20 + 2 * 2 ^ 12), _, coll1, _, _, near0 (withData task0 (0x20 + 2 * 2 ^ 12) (req5 0 0)),
    by decide +kernel, by decide +kernel, by decide +kernel, by decide +kernel, rfl, by decide +kernel, by decide +kernel, by decide +kernel, rfl,
    rfl, by decide +kernel, by decide +kernel, by decide +kernel, by decide +kernel⟩,
   ⟨0, 0, 2 * 2 ^ 22 + 64, 3, d0 task0 (0x20 + 3 * 2 ^ 12), _, coll1, _, _, near0 (withData task0 (0x20 + 3 * 2 ^ 12) (req5 0 1)),
    by decide +kernel, by decide +kernel, by decide +kernel, by decide +kernel, rfl, by decide +kernel, by decide +kernel, by decide +kernel, rfl,
    rfl, by decide +kernel, by decide +kernel, by decide +kernel, by decide +kernel⟩,
   ⟨0, 0, 2 * 2 ^ 22 + 64, _, _, d0 task0 (0x21 + 63 * 2 ^ 14 + 2 ^ 20 + 8 * 2 ^ 44), _, near0 (runs task0 (0x21 + 63 * 2 ^ 14 + 2 ^ 20 + 8 * 2 ^
    44)), by decide +kernel, by decide +kernel, by decide +kernel, rfl, by decide +kernel, rfl, by decide +kernel, by decide +kernel,
    by decide +kernel, by decide +kernel, rfl⟩,
   ⟨0, 0, 2 * 2 ^ 22 + 64, d0 task0 (0x21 + 2 ^ 12 + 63 * 2 ^ 14 + 2 ^ 20), _, coll1, _, _, near0 (withData task0 (0x21 + 2 ^ 12 + 63 * 2 ^ 14 + 2
    ^ 20) (req5 1 1)), by decide +kernel, by decide +kernel, by decide +kernel, by decide +kernel, rfl, by decide +kernel, by decide +kernel,
    by decide +kernel, rfl, rfl, by decide +kernel, by decide +kernel, by decide +kernel⟩,
   ⟨0, 0, 1, issued 0x20 0x20, runs (flying 0x20 0x20) 0, by decide +kernel⟩,
   ⟨0, 0, 1, 0, issued 0x20 (0x20 + 2 ^ 12), job0 (0x20 + 2 ^ 12) (req5 0 0), runCtx (flying 0x20 (0x20 + 2 ^ 12)),
    { prog := filt0, tables := [], epoch := 0 }, { bytes := coll1, ctx := 0, valid := true }, chan0 [] (some (job0 (0x20 + 2 ^ 12) (req5 0 0)))
    (near0 (runs (flying 0x20 (0x20 + 2 ^ 12)) 0)), by decide +kernel, by decide +kernel, by decide +kernel, by decide +kernel, rfl, rfl, rfl, rfl,
    by decide +kernel, by decide +kernel, by decide +kernel, by decide +kernel, by decide +kernel, by decide +kernel⟩,
   ⟨0, 0, 1, 1, 63, 0x0C, issued 0x20 0x20, runCtx (flying 0x20 0x20), runs (flying 0x20 0x20) 0, by decide +kernel⟩⟩

/-- Each clause of VectorSearchDescriptorsComplete has a state and operands that meet its hypotheses. -/
theorem witness_VectorSearchDescriptorsComplete :
    (∃ (c h a mode : Nat) (d : Desc) (r k : List Byte) (ps : List Span) (j : Job) (s : State), s.nextDesc c h 0x22 = .go d ∧ smMode d.w = mode ∧
      s.tableSource d (smSel d.w) (smOff d.w) 128 = some a ∧ r = s.sbRead h a 128 ∧ s.mergeCheck d r = none ∧ k = (s.collection c d.x (mqColl
      r)).getD [] ∧ ps = smSpans d.w (d.t.regs h).base r k ∧ j =
      { prog := if mode = 4 ∧ mqFilter r then (s.slotProg h c (mqFslot r)).getD [] else [], tables := if mode = 2 then (s.slotTables h (mqTslot r) (smQ d.w)).filterMap id else [], epoch := d.t.epochOf (clDomain k) }
      ∧ (s.portBound h false ((ps.filter fun p => !p.write).flatMap Span.groups) = false) ∧ s.portBound h true ((ps.filter Span.write).flatMap
      Span.groups) = false ∧ (s.chan (64 * h + smOut d.w)).queue.length < 8 ∧ s.fget (hdr_DRAIN 0x12) (64 * h + smOut d.w) ≠ 1 ∧ s.fget (hdr_DRAIN
      0x17) h ≠ 1 ∧ mode = 0) ∧
    (∃ (c h a mode : Nat) (d : Desc) (r k : List Byte) (ps : List Span) (j : Job) (s : State), s.nextDesc c h 0x22 = .go d ∧ smMode d.w = mode ∧
      s.tableSource d (smSel d.w) (smOff d.w) 128 = some a ∧ r = s.sbRead h a 128 ∧ s.mergeCheck d r = none ∧ k = (s.collection c d.x (mqColl
      r)).getD [] ∧ ps = smSpans d.w (d.t.regs h).base r k ∧ j =
      { prog := if mode = 4 ∧ mqFilter r then (s.slotProg h c (mqFslot r)).getD [] else [], tables := if mode = 2 then (s.slotTables h (mqTslot r) (smQ d.w)).filterMap id else [], epoch := d.t.epochOf (clDomain k) }
      ∧ (s.portBound h false ((ps.filter fun p => !p.write).flatMap Span.groups) = false) ∧ s.portBound h true ((ps.filter Span.write).flatMap
      Span.groups) = false ∧ (s.chan (64 * h + smOut d.w)).queue.length < 8 ∧ s.fget (hdr_DRAIN 0x12) (64 * h + smOut d.w) ≠ 1 ∧ s.fget (hdr_DRAIN
      0x17) h ≠ 1 ∧ mode = 1) ∧
    (∃ (c h a mode : Nat) (d : Desc) (r k : List Byte) (ps : List Span) (j : Job) (s : State), s.nextDesc c h 0x22 = .go d ∧ smMode d.w = mode ∧
      s.tableSource d (smSel d.w) (smOff d.w) 128 = some a ∧ r = s.sbRead h a 128 ∧ s.mergeCheck d r = none ∧ k = (s.collection c d.x (mqColl
      r)).getD [] ∧ ps = smSpans d.w (d.t.regs h).base r k ∧ j =
      { prog := if mode = 4 ∧ mqFilter r then (s.slotProg h c (mqFslot r)).getD [] else [], tables := if mode = 2 then (s.slotTables h (mqTslot r) (smQ d.w)).filterMap id else [], epoch := d.t.epochOf (clDomain k) }
      ∧ (s.portBound h false ((ps.filter fun p => !p.write).flatMap Span.groups) = false) ∧ s.portBound h true ((ps.filter Span.write).flatMap
      Span.groups) = false ∧ (s.chan (64 * h + smOut d.w)).queue.length < 8 ∧ s.fget (hdr_DRAIN 0x12) (64 * h + smOut d.w) ≠ 1 ∧ s.fget (hdr_DRAIN
      0x17) h ≠ 1 ∧ mode = 2) ∧
    (∃ (c h a mode : Nat) (d : Desc) (r k : List Byte) (ps : List Span) (j : Job) (s : State), s.nextDesc c h 0x22 = .go d ∧ smMode d.w = mode ∧
      s.tableSource d (smSel d.w) (smOff d.w) 128 = some a ∧ r = s.sbRead h a 128 ∧ s.mergeCheck d r = none ∧ k = (s.collection c d.x (mqColl
      r)).getD [] ∧ ps = smSpans d.w (d.t.regs h).base r k ∧ j =
      { prog := if mode = 4 ∧ mqFilter r then (s.slotProg h c (mqFslot r)).getD [] else [], tables := if mode = 2 then (s.slotTables h (mqTslot r) (smQ d.w)).filterMap id else [], epoch := d.t.epochOf (clDomain k) }
      ∧ (s.portBound h false ((ps.filter fun p => !p.write).flatMap Span.groups) = false) ∧ s.portBound h true ((ps.filter Span.write).flatMap
      Span.groups) = false ∧ (s.chan (64 * h + smOut d.w)).queue.length < 8 ∧ s.fget (hdr_DRAIN 0x12) (64 * h + smOut d.w) ≠ 1 ∧ s.fget (hdr_DRAIN
      0x17) h ≠ 1 ∧ mode = 3) ∧
    (∃ (c h a mode : Nat) (d : Desc) (r k : List Byte) (ps : List Span) (j : Job) (s : State), s.nextDesc c h 0x22 = .go d ∧ smMode d.w = mode ∧
      s.tableSource d (smSel d.w) (smOff d.w) 128 = some a ∧ r = s.sbRead h a 128 ∧ s.mergeCheck d r = none ∧ k = (s.collection c d.x (mqColl
      r)).getD [] ∧ ps = smSpans d.w (d.t.regs h).base r k ∧ j =
      { prog := if mode = 4 ∧ mqFilter r then (s.slotProg h c (mqFslot r)).getD [] else [], tables := if mode = 2 then (s.slotTables h (mqTslot r) (smQ d.w)).filterMap id else [], epoch := d.t.epochOf (clDomain k) }
      ∧ (s.portBound h false ((ps.filter fun p => !p.write).flatMap Span.groups) = false) ∧ s.portBound h true ((ps.filter Span.write).flatMap
      Span.groups) = false ∧ (s.chan (64 * h + smOut d.w)).queue.length < 8 ∧ s.fget (hdr_DRAIN 0x12) (64 * h + smOut d.w) ≠ 1 ∧ s.fget (hdr_DRAIN
      0x17) h ≠ 1 ∧ mode = 4) ∧
    (∃ (c h a mode : Nat) (d : Desc) (r k : List Byte) (ps : List Span) (j : Job) (s : State), s.nextDesc c h 0x22 = .go d ∧ smMode d.w = mode ∧
      s.tableSource d (smSel d.w) (smOff d.w) 128 = some a ∧ r = s.sbRead h a 128 ∧ s.mergeCheck d r = none ∧ k = (s.collection c d.x (mqColl
      r)).getD [] ∧ ps = smSpans d.w (d.t.regs h).base r k ∧ j =
      { prog := if mode = 4 ∧ mqFilter r then (s.slotProg h c (mqFslot r)).getD [] else [], tables := if mode = 2 then (s.slotTables h (mqTslot r) (smQ d.w)).filterMap id else [], epoch := d.t.epochOf (clDomain k) }
      ∧ (s.portBound h false ((ps.filter fun p => !p.write).flatMap Span.groups) = false) ∧ s.portBound h true ((ps.filter Span.write).flatMap
      Span.groups) = false ∧ (s.chan (64 * h + smOut d.w)).queue.length < 8 ∧ s.fget (hdr_DRAIN 0x12) (64 * h + smOut d.w) ≠ 1 ∧ s.fget (hdr_DRAIN
      0x17) h ≠ 1 ∧ mode = 5) ∧
    (∃ (c h i : Nat) (e : Issued) (m : Move) (x : Ctx) (j : Job) (k : Collection) (s : State) (o : MOut), s.issueOf c h i = some e ∧ e.cls = 0x22
      ∧ (s.chan (64 * h + smOut e.word)).run = some m ∧ s.ctx? c = some x ∧ m.job = some j ∧ sget? s.near.collections (65536 * x.req.fn + mqColl
      m.record) = some k ∧ m.ctx = c ∧ m.ser = e.ser ∧ s.ungranted c e.ser = false ∧ s.fget (hdr_STATE 0x12) (64 * h + smOut e.word) = 2 ∧ s.fget
      (hdr_STATE 0x17) h = 2 ∧ s.injectLeft 0x17 h 1 = 0 ∧ s.injectLeft 0x17 h 3 = 0 ∧ s.injectLeft 0x17 h 8 = 0 ∧ s.listFault m = none ∧ s.mergeOut
      m j k.bytes = some o ∧ s.mergeReadFault c h x m j k.bytes o = none) ∧
    (∃ (c h : Nat) (d : Desc) (k : List Byte) (s : State), s.nextDesc c h 0x23 = .go d ∧ s.collection c d.x (eaColl d.w) = some k ∧ bits d.w 98 6
      = 0 ∧ eaNeigh d.w = 0xFF ∧ bit d.w 29 = false ∧ eaVisible d.w ≤ clRecords k ∧ s.sanitizing = false ∧ s.fget glob_MEDIA_MODE 0 ≠ 1 ∧
      ((s.ftl.domains.filter fun p => p.2.live).length < 4096)) :=
  ⟨⟨0, 0, 2 * 2 ^ 22 + 64, 0, d0 task0 (0x22 + 0 * 2 ^ 12 + 2 ^ 15), _, _, _, _, near0 (withData task0 (0x22 + 0 * 2 ^ 12 + 2 ^ 15) (mrec 1 2 0 0 0
    0 0 0 0 0)), by decide +kernel, by decide +kernel, by decide +kernel, rfl, by decide +kernel, rfl, rfl, rfl, by decide +kernel,
    by decide +kernel, by decide +kernel, by decide +kernel, by decide +kernel, by decide +kernel⟩,
   ⟨0, 0, 2 * 2 ^ 22 + 64, 1, d0 task0 (0x22 + 1 * 2 ^ 12 + 2 ^ 15), _, _, _, _, near0 (withData task0 (0x22 + 1 * 2 ^ 12 + 2 ^ 15) (mrec 0 0 1 1
    26 0 8 0 0 0)), by decide +kernel, by decide +kernel, by decide +kernel, rfl, by decide +kernel, rfl, rfl, rfl, by decide +kernel,
    by decide +kernel, by decide +kernel, by decide +kernel, by decide +kernel, by decide +kernel⟩,
   ⟨0, 0, 2 * 2 ^ 22 + 64, 2, d0 task0 (0x22 + 2 * 2 ^ 12 + 2 ^ 15), _, _, _, _, near0 (withData task0 (0x22 + 2 * 2 ^ 12 + 2 ^ 15) (mrec 3 1 1 1
    32 0 0 63 10 0)), by decide +kernel, by decide +kernel, by decide +kernel, rfl, by decide +kernel, rfl, rfl, rfl, by decide +kernel,
    by decide +kernel, by decide +kernel, by decide +kernel, by decide +kernel, by decide +kernel⟩,
   ⟨0, 0, 2 * 2 ^ 22 + 64, 3, d0 task0 (0x22 + 3 * 2 ^ 12 + 2 ^ 15), _, _, _, _, near0 (withData task0 (0x22 + 3 * 2 ^ 12 + 2 ^ 15) (mrec 2 0 1 1
    32 0 0 0 0 0)), by decide +kernel, by decide +kernel, by decide +kernel, rfl, by decide +kernel, rfl, rfl, rfl, by decide +kernel,
    by decide +kernel, by decide +kernel, by decide +kernel, by decide +kernel, by decide +kernel⟩,
   ⟨0, 0, 2 * 2 ^ 22 + 64, 4, d0 task0 (0x22 + 4 * 2 ^ 12 + 2 ^ 15), _, _, _, _, near0 (withData task0 (0x22 + 4 * 2 ^ 12 + 2 ^ 15) (mrec 2 0 1 0 0
    8 0 0 0 1)), by decide +kernel, by decide +kernel, by decide +kernel, rfl, by decide +kernel, rfl, rfl, rfl, by decide +kernel,
    by decide +kernel, by decide +kernel, by decide +kernel, by decide +kernel, by decide +kernel⟩,
   ⟨0, 0, 2 * 2 ^ 22 + 64, 5, d0 task0 (0x22 + 5 * 2 ^ 12 + 2 ^ 15), _, _, _, _, near0 (withData task0 (0x22 + 5 * 2 ^ 12 + 2 ^ 15) (mrec 0 0 0 1
    32 0 8 0 0 0)), by decide +kernel, by decide +kernel, by decide +kernel, rfl, by decide +kernel, rfl, rfl, rfl, by decide +kernel,
    by decide +kernel, by decide +kernel, by decide +kernel, by decide +kernel, by decide +kernel⟩,
   ⟨0, 0, 1, issued 0x22 (0x22 + 1 * 2 ^ 12 + 2 ^ 15), job0 (0x22 + 1 * 2 ^ 12 + 2 ^ 15) (mrec 0 0 1 1 26 0 8 0 0 0), runCtx (flying 0x22 (0x22 + 1
    * 2 ^ 12 + 2 ^ 15)), { prog := filt0, tables := [], epoch := 0 }, { bytes := coll1, ctx := 0, valid := true }, chan0 [] (some (job0 (0x22 + 1 *
    2 ^ 12 + 2 ^ 15) (mrec 0 0 1 1 26 0 8 0 0 0))) (near0 (runs (flying 0x22 (0x22 + 1 * 2 ^ 12 + 2 ^ 15)) 0)), _, by decide +kernel,
    by decide +kernel, rfl, rfl, rfl, rfl, by decide +kernel, by decide +kernel, by decide +kernel, by decide +kernel, by decide +kernel,
    by decide +kernel, by decide +kernel, by decide +kernel, by decide +kernel, rfl, by decide +kernel⟩,
   ⟨0, 0, d0 task0 (0x23 + 5 * 2 ^ 12 + 0xFF * 2 ^ 30 + 2 ^ 38), coll1, near0 (runs task0 (0x23 + 5 * 2 ^ 12 + 0xFF * 2 ^ 30 + 2 ^ 38)),
    by decide +kernel, rfl, by decide +kernel, by decide +kernel, by decide +kernel, by decide +kernel, by decide +kernel, by decide +kernel,
    by decide +kernel⟩⟩

/-- Each clause of TierAndBatchCommandsComplete has a state and operands that meet its hypotheses. -/
theorem witness_TierAndBatchCommandsComplete :
    (∃ (k a : Nat) (cmd : CmdId) (s : State), k < 8 ∧ a < stackBytes ∧ s.planesOn = true ∧ s.injectLeft 0x16 k 2 = 0 ∧ s.armed 0x16 k [3, 8] =
      none ∧ s.takes cmd = true) ∧
    (∃ (t : Nat) (s : State), s.tiers.marked.contains t = true ∧ s.pageFree t = true ∧ 64 ≤ t % 24576 ∧ s.fget hbm_PPR_USED (t / 24576) < s.fget
      hbm_PPR_TOTAL (t / 24576) ∧ s.fget hbm_PPR_USED (t / 24576) < 255) ∧
    (∃ (k p : Nat) (s : State), k < 8 ∧ p < 64 ∧ s.planesOn = true ∧ s.pcRetired k p = false ∧ s.units.retiring.contains (pcKey k p) = true) ∧
    (∃ (s : State), s.planesOn = true ∧ s.tiers.decayTick + ticksMs (max 1 (s.fget glob_HEAT_DECAY_MS 0)) ≤ s.tick) ∧
    (∃ (s : State), s.planesOn = true ∧ s.tiers.placeTick + ticksMs 100 ≤ s.tick) ∧
    (∃ (tk : Nat) (c : PlacedCopy) (s : State), sget? s.tiers.copies tk = some c ∧ c.done = false ∧ s.placing = true) ∧
    (∃ (c : Nat) (x : Ctx) (b : Batch) (m : Mem) (s : State), s.ctx? c = some x ∧ sget? s.tiers.batches c = some b ∧ b.begun = some m ∧ reqFld m
      (t1Addr b.reqPage) 8 = b.step) ∧
    (∃ (c : Nat) (x : Ctx) (b : Batch) (m : Mem) (s : State), s.ctx? c = some x ∧ sget? s.tiers.batches c = some b ∧ b.begun = some m ∧ reqFld m
      (t1Addr b.reqPage) 8 = b.step + 1 ∧ requestOk b m (t1Addr b.reqPage) = true) :=
  ⟨⟨7, stackBytes - 1, adm, live, by decide +kernel⟩,
   ⟨64, { up with tiers := { up.tiers with marked := [64] } }, by decide +kernel⟩,
   ⟨7, 63, { up with units := { up.units with retiring := [pcKey 7 63] } }, by decide +kernel⟩,
   ⟨{ up with tick := up.tiers.decayTick + ticksMs (max 1 (up.fget glob_HEAT_DECAY_MS 0)) }, by decide +kernel⟩,
   ⟨{ up with tick := ticksMs 100 }, by decide +kernel⟩,
   ⟨5, { t1 := 80, done := false, period := 0 }, on [(hdr_STATE 0, 0, 2)]
    { live with tiers := { up.tiers with copies := [(5, { t1 := 80, done := false, period := 0 })] } }, by decide +kernel⟩,
   ⟨0, runCtx task0, batch0 up.tiers.hbm, up.tiers.hbm, batching up.tiers.hbm, by decide +kernel⟩,
   ⟨0, runCtx task0, batch0 (up.tiers.hbm.writeL (t1Addr 72) [1]), up.tiers.hbm.writeL (t1Addr 72) [1], batching (up.tiers.hbm.writeL (t1Addr 72)
    [1]), by decide +kernel⟩⟩

/-- Each clause of PuuCommandsComplete has a state and operands that meet its hypotheses. -/
theorem witness_PuuCommandsComplete :
    (∃ (c h a : Nat) (d : Desc) (s : State), s.nextDesc c h 0x28 = .go d ∧ bits d.w 36 68 = 0 ∧ puTensors d.w ≠ 0 ∧ puTensors d.w ≤ 64 ∧
      s.tableSource d (puTabSel d.w) (puTabOff d.w) (64 * (puTensors d.w + 1)) = some a ∧ a % 64 = 0 ∧ s.variant = .x ∧ s.fget (hdr_STATE 0x18) h =
      2 ∧ d.x.req.unit h 5 = true ∧ s.tensorCheck d (s.sbRead h a (64 * (puTensors d.w + 1))) = none ∧ s.portBound h false (s.puuGroups (s.sbRead h
      a (64 * (puTensors d.w + 1)))) = false ∧ s.fget (hdr_DRAIN 0x18) h ≠ 1) ∧
    (∃ (h : Nat) (k : PuuStep) (ks : List PuuStep) (t : Task) (s : State), s.puuSteps h = k :: ks ∧ (s.ctx? k.ctx).bind Ctx.task = some t ∧ s.fget
      (hdr_STATE 0x18) h = 2 ∧ s.ungranted k.ctx k.ser = false ∧ s.injectLeft 0x18 h 1 = 0 ∧ s.stepFault h k = none ∧ s.stepRoom k.table = true ∧
      (s.stepReads k.table).any s.iuFails = false ∧ s.stepStopped h k t = none) ∧
    (∃ (h e pos info : Nat) (inB : Bool) (k : PuuStep) (ks : List PuuStep) (t : Task) (s : State), s.puuSteps h = k :: ks ∧ (s.ctx? k.ctx).bind
      Ctx.task = some t ∧ e < tabCount k.table ∧ teFrozen (tabEntry k.table e) = false ∧ info = e % 64 + 64 * b2n inB + 256 * (pos % 2 ^ 24)) ∧
    (∃ (h : Nat) (s : State), s.hostUp = true ∧ Sys2Proof.Machine.present s.variant 0x18 h = true ∧ s.fget glob_TEST_MODE 0 = 1 ∧ s.fget
      (hdr_OWNER_CONTEXT 0x18) h = 0xFF ∧ s.fget puu_SELF_TEST_BUSY h = 0) ∧
    (∃ (h : Nat) (s : State), Sys2Proof.Machine.present s.variant 0x18 h = true ∧ s.fget puu_SELF_TEST_BUSY h ≠ 0 ∧ s.fget (hdr_STATE 0x18) h = 4
      ∧ s.units.retiring.contains (pageNo 0x18 h) = false) :=
  ⟨⟨0, 0, 2 * 2 ^ 22 + 64, d0 task0 (0x28 + 2 ^ 29), on [(hdr_STATE 0x18, 0, 2)] (withData task0 (0x28 + 2 ^ 29) tab0), by decide +kernel⟩,
   ⟨0, puu0, [], task0, stepping, by decide +kernel⟩,
   ⟨0, 0, 5, 64 + 256 * 5, true, puu0, [], task0, stepping, by decide +kernel⟩,
   ⟨1, on [(glob_TEST_MODE, 0, 1)] up, by decide +kernel⟩,
   ⟨1, on [(puu_SELF_TEST_BUSY, 1, 1), (hdr_STATE 0x18, 1, 4)] up, by decide +kernel⟩⟩

/-- Each clause of FlashCommandsComplete has a state and operands that meet its hypotheses. -/
theorem witness_FlashCommandsComplete :
    (∃ (c np b pos l : Nat) (ls : List Nat) (s0 s : State), colanderFitted s.variant c = true ∧ np ≠ 0 ∧ np ≤ 6 ∧ s.toProgram c ≠ [] ∧
      s.packageRetired c = false ∧ s.ftl.ready = true ∧ s.openNext c 0 true = some ((b, pos), s0) ∧ s0.wordlines c b pos (min np (ceilDiv
      (s.toProgram c).length 3)) = l :: ls ∧ s0.keysHere c ((s.toProgram c).take (3 * (l :: ls).length)) = true ∧ s0.dieRefuses c (locDie l) = none
      ∧ s0.dieOp c (locDie l) = none ∧ s0.injectLeft 0x22 0 3 = 0 ∧ (∀ m ∈ l :: ls, (s0.block (m / 2048)).st < 2 ∧ (s0.block (m / 2048)).next =
      locPage m)) ∧
    (∃ (c d k b key l : Nat) (mine : Nat → Bool) (s : State), colanderFitted s.variant c = true ∧ d < 16 ∧ k < 6 ∧ b < 2208 ∧ key = blockKey c d k
      b ∧ (s.block key).st ≠ 0 ∧ (s.block key).st ≠ 4 ∧ 3 ≤ (s.block key).next ∧ s.ftl.failed.contains key = false ∧ l = key * 2048 + ((s.block
      key).next - 3) ∧ (∀ m, mine m = (decide (l ≤ m) && decide (m < l + 3))) ∧ (∃ y ∈ s.ftl.staging, y.loc.any mine = true)) ∧
    (∃ (seq l : Nat) (x : Staged) (s : State), s.stagedSeq seq = some x ∧ x.loc = some l ∧ s.stripeDone l = true ∧ s.dieOp (locCol l) (locDie l) =
      none) ∧
    (∃ (c d b k key : Nat) (s : State), colanderFitted s.variant c = true ∧ d < 16 ∧ b < 2208 ∧ k < 6 ∧ key = blockKey c d k b ∧ (∀ m ∈
      s.validLocs, m / 2048 ≠ key) ∧ s.isOpen c b = false ∧ s.dieRefuses c d = none ∧ (s.block key).st ≠ 4 ∧ s.power.brownOut = false ∧ s.dieOp c d
      = none) ∧
    (∃ (c d b k key : Nat) (s : State) (o : DieOp), colanderFitted s.variant c = true ∧ d < 16 ∧ b < 2208 ∧ k < 6 ∧ key = blockKey c d k b ∧ (∀ m
      ∈ s.validLocs, m / 2048 ≠ key) ∧ s.isOpen c b = false ∧ s.dieRefuses c d = none ∧ (s.block key).st ≠ 4 ∧ s.power.brownOut = false ∧ s.dieOp c
      d = some o ∧ o.kind = 2 ∧ o.blocks = [key] ∧ o.suspendedAt = none) ∧
    (∃ (c d k b p l : Nat) (s0 s : State) (x : Page), colanderFitted s.variant c = true ∧ d < 16 ∧ k < 6 ∧ b < 2208 ∧ p < 1152 ∧ s.fget (hdr_STATE
      0x21) c = 2 ∧ (s.dieRetired c d && s.nand.relocated.contains (16 * c + d)) = false ∧ s.channelStep c d ≠ 3 ∧ (s.block (blockKey c d k b)).st ≠
      4 ∧ s.suspendFor c d = some s0 ∧ l = mkLoc c d k b p ∧ sget? s.nand.pages l = some x ∧ s.keyMissing c x.iu = false ∧ s.ladderStep l 0 = 0) ∧
    (∃ (c d k b p l : Nat) (s0 s : State), colanderFitted s.variant c = true ∧ d < 16 ∧ k < 6 ∧ b < 2208 ∧ p < 1152 ∧ s.fget (hdr_STATE 0x21) c =
      2 ∧ (s.dieRetired c d && s.nand.relocated.contains (16 * c + d)) = false ∧ s.channelStep c d ≠ 3 ∧ (s.block (blockKey c d k b)).st ≠ 4 ∧
      s.suspendFor c d = some s0 ∧ l = mkLoc c d k b p ∧ sget? s.nand.pages l = none ∧ s.readsErased l = true) ∧
    (∃ (c slot first n ns : Nat) (s : State), s.rangeOf slot = some (ns, first, n) ∧ colanderFitted s.variant c = true ∧ 64 ≤ slot ∧ slot < 72 ∧
      s.fget (hdr_STATE 0x21) c = 2 ∧ s.ftl.keysLoaded.contains (128 * c + slot) = false ∧ s.lockedAt ns first false = false) ∧
    (∃ (c d t : Nat) (o : DieOp) (s : State), s.dieOp c d = some o ∧ o.suspendedAt = some t ∧ (o.kind = 2 → s.power.brownOut = false)) ∧
    (∃ (c d : Nat) (s : State), colanderFitted s.variant c = true ∧ d < 16 ∧ s.dieRetired c d = false ∧ sget? s.nand.timeouts (16 * c + d) = none) ∧
    (∃ (c d : Nat) (s : State) (t : Nat), colanderFitted s.variant c = true ∧ d < 16 ∧ s.dieRetired c d = false ∧ sget? s.nand.timeouts (16 * c +
      d) = some t ∧ s.tick < t + secTicks) ∧
    (∃ (c d : Nat) (s : State), colanderFitted s.variant c = true ∧ d < 16 ∧ s.dieRetired c d = false ∧ s.channelDead c d = false ∧ s.dieOp c d =
      none ∧ (∀ (t : Nat) (x : Int), sget? s.nand.zq (16 * c + d) = some (t, x) → t + secTicks ≤ s.tick ∨ 160 < (s.nandTemp c - x).natAbs)) ∧
    (∃ (c d : Nat) (s : State), colanderFitted s.variant c = true ∧ d < 16 ∧ (∀ t, sget? s.nand.tempTick (16 * c + d) = some t → t + secTicks ≤
      s.tick)) :=
  ⟨⟨0, 1, 5, 0, mkLoc 0 0 0 5 0, [], (((flash [staged0 0 none []] [] 0).openNext 0 0 true).getD ((0, 0), live)).2, flash [staged0 0 none []] [] 0,
    by decide +kernel⟩,
   ⟨0, 0, 0, 5, blockKey 0 0 0 5, mkLoc 0 0 0 5 0, fun m => decide (mkLoc 0 0 0 5 0 ≤ m) && decide (m < mkLoc 0 0 0 5 0 + 3), flash [staged0 0
    (some (mkLoc 0 0 0 5 0)) []] [] 3, by decide +kernel, by decide +kernel, by decide +kernel, by decide +kernel, rfl, by decide +kernel,
    by decide +kernel, by decide +kernel, by decide +kernel, by decide +kernel, fun _ => rfl, by decide +kernel⟩,
   ⟨0, mkLoc 0 0 0 5 0, staged0 0 (some (mkLoc 0 0 0 5 0)) [], flash [staged0 0 (some (mkLoc 0 0 0 5 0)) []] [] 3, by decide +kernel⟩,
   ⟨63, 15, 2207, 5, blockKey 63 15 5 2207, live, by decide +kernel⟩,
   ⟨63, 15, 2207, 5, blockKey 63 15 5 2207, nandWith fun n =>
    { n with ops := [(16 * 63 + 15, { kind := 2, blocks := [blockKey 63 15 5 2207], since := 0, suspends := 0, suspendedAt := none })] },
    { kind := 2, blocks := [blockKey 63 15 5 2207], since := 0, suspends := 0, suspendedAt := none }, by decide +kernel⟩,
   ⟨0, 0, 0, 5, 0, mkLoc 0 0 0 5 0, flash [] [] 3, flash [] [] 3, page0, by decide +kernel⟩,
   ⟨0, 0, 0, 5, 4, mkLoc 0 0 0 5 4, flash [] [] 3, flash [] [] 3, by decide +kernel⟩,
   ⟨0, 64, 0, 2 ^ 21, 2, ranged, by decide +kernel⟩,
   ⟨0, 0, 0, { kind := 2, blocks := [], since := 0, suspends := 1, suspendedAt := some 0 }, nandWith fun n =>
    { n with ops := [(0, { kind := 2, blocks := [], since := 0, suspends := 1, suspendedAt := some 0 })] }, by decide +kernel⟩,
   ⟨63, 15, live, by decide +kernel⟩,
   ⟨63, 15, nandWith fun n => { n with timeouts := [(16 * 63 + 15, 0)] }, 0, by decide +kernel⟩,
   ⟨63, 15, live, by decide +kernel, by decide +kernel, by decide +kernel, by decide +kernel, by decide +kernel, fun t x => all_none (P := fun q =>
    q.1 + secTicks ≤ live.tick ∨ 160 < (live.nandTemp 63 - q.2).natAbs) (by decide +kernel) (t, x)⟩,
   ⟨63, 15, live, by decide +kernel, by decide +kernel, all_none (by decide +kernel)⟩⟩

/-- Each clause of TranslationAndRetirementCommandsComplete has a state and operands that meet its hypotheses. -/
theorem witness_TranslationAndRetirementCommandsComplete :
    (∃ (s : State), s.ftl.ready = true ∧ s.ftl.records ≠ 0 ∧ (64 * mib ≤ s.ftl.sinceFlush ∨ s.fget64 ftl_FLUSH_TICK_LO ftl_FLUSH_TICK_HI 0 +
      ticksMs 50 ≤ s.tick)) ∧
    (∃ (s : State), s.ftl.ready = true) ∧
    (∃ (seg : Nat) (s : State), s.ftl.ready = true ∧ seg < mapSegments s.variant) ∧
    (∃ (c : Nat) (s : State), colanderFitted s.variant c = true ∧ s.collects = true ∧ s.ftl.collecting.contains c = false ∧ s.packageRetired c =
      false ∧ (s.freeSbs c).length < 8) ∧
    (∃ (c : Nat) (s : State), s.ftl.collecting.contains c = true ∧ 12 ≤ (s.freeSbs c).length) ∧
    (∃ (iu src : Nat) (p : Page) (u : State) (s : State), s.collects = true ∧ s.moving src = true ∧ ((s.mapEntry iu).st = 2 → (s.mapEntry iu).loc
      ≠ src) ∧ sget? s.nand.pages src = some p ∧ p.iu = iu ∧ s.copyPage iu src (locCol src) = some u) ∧
    (∃ (iu l : Nat) (s : State) (u : State), s.collects = true ∧ (s.mapEntry iu).st = 2 ∧ (s.mapEntry iu).loc = l ∧ (s.moving l = true ∨ l / 2048
      ∈ s.ftl.refresh ∨ locCol l ∈ s.ftl.evacuating) ∧ s.copyPage iu l (if s.packageRetired (locCol l) then s.packageOf (iuTier iu) else locCol l) =
      some u) ∧
    (∃ (c b : Nat) (s : State), colanderFitted s.variant c = true ∧ s.collects = true ∧ s.packageRetired c = false ∧ s.refreshDue c b = true ∧
      s.isOpen c b = false ∧ s.validIn c b = []) ∧
    (∃ (c dest tk : Nat) (tks : List Nat) (u : State) (s : State), colanderFitted s.variant c = true ∧ s.ftl.ready = true ∧ s.sanitizing = false ∧
      s.ftl.evacuating.contains c = true ∧ s.leaving c = tk :: tks ∧ s.takerOf tk = some dest ∧ s.moveTier tk dest = some u) ∧
    (∃ (c ch : Nat) (s : State), colanderFitted s.variant c = true ∧ ch < 8 ∧ s.nand.dead.contains (8 * c + ch) = false ∧ sget s.nand.rateStep (8
      * c + ch) 0 < 3 ∧ (3 ≤ ((sget s.nand.retrains (8 * c + ch) []).filter fun t => decide (s.tick < t + hourTicks)).length) ∧ sget s.nand.rateStep
      (8 * c + ch) 0 < 2) ∧
    (∃ (c ch : Nat) (s : State), colanderFitted s.variant c = true ∧ ch < 8 ∧ s.nand.dead.contains (8 * c + ch) = false ∧ sget s.nand.rateStep (8
      * c + ch) 0 < 3 ∧ (3 ≤ ((sget s.nand.retrains (8 * c + ch) []).filter fun t => decide (s.tick < t + hourTicks)).length) ∧ sget s.nand.rateStep
      (8 * c + ch) 0 = 2) ∧
    (∃ (c d : Nat) (s : State), s.nand.condemned.contains (16 * c + d) = true ∧ d < 16 ∧ s.dieRetired c d = false ∧ colanderFitted s.variant c =
      true) ∧
    (∃ (c d : Nat) (s : State), s.dieRetired c d = true ∧ s.nand.relocated.contains (16 * c + d) = false ∧ (∀ m ∈ s.validLocs, locCol m = c →
      locDie m ≠ d)) ∧
    (∃ (c : Nat) (s : State), colanderFitted s.variant c = true ∧ s.packageRetired c = false ∧ s.packageFails c = true) ∧
    (∃ (c : Nat) (s : State), s.ftl.evacuating.contains c = true ∧ s.leaving c = [] ∧ (∀ l ∈ s.validLocs, locCol l = c → c ∈ s.ftl.unreach ∨ ∀ p,
      sget? s.nand.pages l = some p → (s.mapEntry p.iu).st = 2)) :=
  ⟨⟨{ ftlWith (fun f => { f with records := 1 }) with tick := ticksMs 50 }, by decide +kernel⟩,
   ⟨live, by decide +kernel⟩,
   ⟨12223, live, by decide +kernel⟩,
   ⟨0, closed0, by decide +kernel, by decide +kernel, by decide +kernel, by decide +kernel, few_free⟩,
   ⟨0, ftlWith fun f => { f with collecting := [0] }, by decide +kernel, freeSbs_of_first _ _ 12 (by decide +kernel)⟩,
   ⟨iuKey 2 0, mkLoc 0 0 0 5 0, page0, ((victim0 1).copyPage (iuKey 2 0) (mkLoc 0 0 0 5 0) 0).getD live, victim0 1, by decide +kernel,
    by decide +kernel, by decide +kernel, by decide +kernel, by decide +kernel, some_getD live (by decide +kernel)⟩,
   ⟨iuKey 2 0, mkLoc 0 0 0 5 0, victim0 2, ((victim0 2).copyPage (iuKey 2 0) (mkLoc 0 0 0 5 0) (if (victim0 2).packageRetired (locCol (mkLoc 0 0 0
    5 0)) then (victim0 2).packageOf (iuTier (iuKey 2 0)) else locCol (mkLoc 0 0 0 5 0))).getD live, by decide +kernel, by decide +kernel,
    by decide +kernel, by decide +kernel, some_getD live (by decide +kernel)⟩,
   ⟨0, 5, ftlWith fun f => { f with refresh := [blockKey 0 0 0 5] }, by decide +kernel⟩,
   ⟨0, 2, tierKey 2 0, [], (leaver.moveTier (tierKey 2 0) 2).getD live, leaver, by decide +kernel, by decide +kernel, by decide +kernel,
    by decide +kernel, by decide +kernel, by decide +kernel, some_getD live (by decide +kernel)⟩,
   ⟨0, 7, nandWith fun n => { n with retrains := [(7, [0, 0, 0])], rateStep := [(7, 1)] }, by decide +kernel⟩,
   ⟨0, 7, nandWith fun n => { n with retrains := [(7, [0, 0, 0])], rateStep := [(7, 2)] }, by decide +kernel⟩,
   ⟨0, 15, nandWith fun n => { n with condemned := [15] }, by decide +kernel⟩,
   ⟨0, 0, on [(col_DIE_RETIRED, 0, 1)] live, by decide +kernel⟩,
   ⟨0, ftlWith fun f => { f with unreach := [0] }, by decide +kernel⟩,
   ⟨63, ftlWith fun f => { f with evacuating := [63] }, by decide +kernel⟩⟩

/-- Each clause of LinkAndRetirementEventsComplete has a state and operands that meet its hypotheses. -/
theorem witness_LinkAndRetirementEventsComplete :
    (∃ (k lane tries : Nat) (s : State), s.laneThere k lane = true ∧ (s.link k).lanes.getD lane 2 = 0 ∧ tries ≤ 16) ∧
    (∃ (k lane : Nat) (s : State), s.laneThere k lane = true ∧ (s.link k).lanes.getD lane 2 = 0) ∧
    (∃ (k lane sp : Nat) (s : State), s.laneThere k lane = true ∧ (s.link k).idle = some sp ∧ (s.link k).lanes.getD lane 2 ≠ 2 ∧ lane ≠ sp ∧
      s.lanePermanent k lane = true) ∧
    (∃ (k lane : Nat) (s : State), s.laneThere k lane = true ∧ (s.link k).lanes.getD lane 2 = 0 ∧ (s.link k).idle = none ∧ s.lanePermanent k lane
      = true) ∧
    (∃ (k : Nat) (s : State), colanderFitted s.variant k = true ∧ s.fget (hdr_STATE 0x21) k = 4 ∧ s.ftl.unreach.contains k = false ∧ s.injectLeft
      0x21 k 3 = 0 ∧ s.fget (hdr_FIRST_INJECTED 0x21) k = 0 ∧ (∀ b < 2, ∀ x ∈ sget (s.dropColander k).rel.events (65536 * 11 + (2 * k + b)) [], x +
      dayTicks ≤ (s.dropColander k).tick)) ∧
    (∃ (s : State), s.rel.hobFault = false) ∧
    (∃ (h : Nat) (s : State), h < 2 ∧ s.rel.hobFault = false) ∧
    (∃ (i : Nat) (s : State), s.units.retiring.contains i = true ∧ i < 34 ∧ (∀ r < 4, s.regionOwner i r = 0xFF) ∧ s.fget (hdr_STATE 0x11) i ≠ 5) ∧
    (∃ (i g : Nat) (s : State), i < 2 ∧ g < 48 ∧ s.units.retiring.contains (groupKey i g) = true ∧ s.fget (sb_GROUP_OWNER g) i = 0xFF ∧
      s.groupProgram i g = false) ∧
    (∃ (c i : Nat) (s : State), s.units.retiring.contains (pageNo c i) = true ∧ c ≠ 0x11 ∧ c ≠ 0x15 ∧ c ≠ 0x21 ∧ s.unitFree c i = true ∧ s.fget
      (hdr_STATE c) i ≠ 5) :=
  ⟨⟨63, 0, 16, up, by decide +kernel⟩,
   ⟨63, 0, up, by decide +kernel⟩,
   ⟨63, 0, 2, linked [0, 0, 1] [2, 0, 0], by decide +kernel⟩,
   ⟨63, 0, linked [0, 0, 2] [2, 0, 0], by decide +kernel⟩,
   ⟨63, on [(hdr_STATE 0x21, 63, 4)] up, by decide +kernel⟩,
   ⟨up, by decide +kernel⟩,
   ⟨1, up, by decide +kernel⟩,
   ⟨33, { up with units := { up.units with retiring := [33] } }, by decide +kernel⟩,
   ⟨1, 47, { up with units := { up.units with retiring := [groupKey 1 47] } }, by decide +kernel⟩,
   ⟨0x12, 127, { up with units := { up.units with retiring := [pageNo 0x12 127] } }, by decide +kernel⟩⟩

/-- Each clause of ScourerPassesComplete has a state and operands that meet its hypotheses. -/
theorem witness_ScourerPassesComplete :
    (∃ (c d k b wl : Nat) (s u : State), s.scours false = true ∧ d < 16 ∧ k < 6 ∧ b < 2208 ∧ (s.block (blockKey c d k b)).st ≠ 0 ∧ (s.block
      (blockKey c d k b)).st ≠ 4 ∧ 3 * wl + 3 ≤ (s.block (blockKey c d k b)).next ∧ s.dieRetired c d = false ∧ s.ownRead (blockKey c d k b * 2048 +
      3 * wl) = some u) ∧
    (∃ (iu l : Nat) (s u : State), s.scours false = true ∧ ((s.mapEntry iu).st = 1 ∨ (s.mapEntry iu).st = 2) ∧ (s.mapEntry iu).loc = l ∧ s.ownRead
      l = some u ∧ s.ladderStep l 0 = 0) ∧
    (∃ (t a : Nat) (s : State), s.scours true = true ∧ t < 8 * 24576 ∧ s.stackRetired (t / 24576) = false ∧ s.tiers.retired.contains t = false ∧ a
      < tierBytes ∧ s.injectLeft 0x16 (t / 24576) 2 = 0) ∧
    (∃ (i g a : Nat) (s : State), s.scours true = true ∧ i < 2 ∧ g < 48 ∧ s.fget (sb_GROUP_OWNER g) i = 0xFF ∧ s.groupProgram i g = false ∧
      s.groupRetired i g = false ∧ a < 2 ^ 22) ∧
    (∃ (seg : Nat) (s : State), s.scours true = true ∧ seg < mapSegments s.variant) ∧
    (∃ (h i : Nat) (s : State), i = 17 * h + 16 ∧ s.scours true = true ∧ h < 2 ∧ s.fget (hdr_IN_SERVICE 0x11) i ≠ 1 ∧ s.fget (hdr_STATE 0x11) i =
      0) ∧
    (∃ (k sp : Nat) (s : State), (s.link k).idle = some sp ∧ s.scours true = true ∧ colanderFitted s.variant k = true) ∧
    (∃ (fn id u : Nat) (k : Collection) (m : Domain) (old new : List Nat) (s : State), sget? s.near.collections (65536 * fn + id) = some k ∧ sget?
      s.ftl.domains (clDomain k.bytes) = some m ∧ s.scours false = true ∧ s.fget glob_MEDIA_MODE 0 = 0 ∧ k.valid = true ∧ m.live = true ∧ m.repair =
      true ∧ m.neighCol < clColumns k.bytes ∧ s.repairNext k.bytes m = some u ∧ s.slotsFree 1 = true ∧ old = neighbours ((s.recValue k.bytes m.epoch
      m.neighCol u).getD []) ∧ new = s.repairList k.bytes m.epoch m.neighCol u old ∧ ((∃ x, s.pendingOf (recPlace k.bytes m.neighCol u).1 = some x ∧
      x.repair = false) ∨ s.iuFails (recPlace k.bytes m.neighCol u).1 = true)) ∧
    (∃ (fn id u : Nat) (k : Collection) (m : Domain) (old new : List Nat) (s : State), sget? s.near.collections (65536 * fn + id) = some k ∧ sget?
      s.ftl.domains (clDomain k.bytes) = some m ∧ s.scours false = true ∧ s.fget glob_MEDIA_MODE 0 = 0 ∧ k.valid = true ∧ m.live = true ∧ m.repair =
      true ∧ m.neighCol < clColumns k.bytes ∧ s.repairNext k.bytes m = some u ∧ s.slotsFree 1 = true ∧ old = neighbours ((s.recValue k.bytes m.epoch
      m.neighCol u).getD []) ∧ new = s.repairList k.bytes m.epoch m.neighCol u old ∧ (∀ x, s.pendingOf (recPlace k.bytes m.neighCol u).1 = some x →
      x.repair = true) ∧ s.iuFails (recPlace k.bytes m.neighCol u).1 = false ∧ new = old) ∧
    (∃ (fn id u : Nat) (k : Collection) (m : Domain) (old new : List Nat) (s : State), sget? s.near.collections (65536 * fn + id) = some k ∧ sget?
      s.ftl.domains (clDomain k.bytes) = some m ∧ s.scours false = true ∧ s.fget glob_MEDIA_MODE 0 = 0 ∧ k.valid = true ∧ m.live = true ∧ m.repair =
      true ∧ m.neighCol < clColumns k.bytes ∧ s.repairNext k.bytes m = some u ∧ s.slotsFree 1 = true ∧ old = neighbours ((s.recValue k.bytes m.epoch
      m.neighCol u).getD []) ∧ new = s.repairList k.bytes m.epoch m.neighCol u old ∧ (∀ x, s.pendingOf (recPlace k.bytes m.neighCol u).1 = some x →
      x.repair = true) ∧ s.iuFails (recPlace k.bytes m.neighCol u).1 = false ∧ new ≠ old) :=
  ⟨⟨0, 0, 0, 5, 0, flash [] [] 3, ((flash [] [] 3).ownRead (mkLoc 0 0 0 5 0)).getD live, by decide +kernel, by decide +kernel, by decide +kernel,
    by decide +kernel, by decide +kernel, by decide +kernel, by decide +kernel, by decide +kernel, some_getD live (by decide +kernel)⟩,
   ⟨iuKey 2 0, mkLoc 0 0 0 5 0, victim0 1, ((victim0 1).ownRead (mkLoc 0 0 0 5 0)).getD live, by decide +kernel, by decide +kernel,
    by decide +kernel, some_getD live (by decide +kernel), by decide +kernel⟩,
   ⟨8 * 24576 - 1, tierBytes - 1, live, by decide +kernel⟩,
   ⟨1, 47, 2 ^ 22 - 1, live, by decide +kernel⟩,
   ⟨12223, live, by decide +kernel⟩,
   ⟨1, 33, live, by decide +kernel⟩,
   ⟨63, 2, live, by decide +kernel⟩,
   ⟨0, 5, 0, { bytes := edge0 255 4, ctx := 64, valid := true }, dom0, _, _,
    { edges 255 4 [] with ftl := { (edges 255 4 []).ftl with map := [((recPlace (edge0 255 4) 3 0).1, { st := 3, loc := 0 })] } },
    by decide +kernel, by decide +kernel, by decide +kernel, by decide +kernel, by decide +kernel, by decide +kernel, by decide +kernel,
    by decide +kernel, by decide +kernel, by decide +kernel, rfl, rfl, Or.inr (by decide +kernel)⟩,
   ⟨0, 5, 0, { bytes := edge0 255 4, ctx := 64, valid := true }, dom0, _, _, edges 255 4 [], by decide +kernel, by decide +kernel,
    by decide +kernel, by decide +kernel, by decide +kernel, by decide +kernel, by decide +kernel, by decide +kernel, by decide +kernel,
    by decide +kernel, rfl, rfl, all_none (by decide +kernel), by decide +kernel, by decide +kernel⟩,
   ⟨0, 5, 1, { bytes := edge0 4 5, ctx := 64, valid := true }, dom0, _, _, edges 4 5 [staged0 4 none [1]], by decide +kernel, by decide +kernel,
    by decide +kernel, by decide +kernel, by decide +kernel, by decide +kernel, by decide +kernel, by decide +kernel, by decide +kernel,
    by decide +kernel, rfl, rfl, all_none (by decide +kernel), by decide +kernel, by decide +kernel⟩⟩

/-- Each clause of KettleAndRecorderCommandsComplete has a state and operands that meet its hypotheses. -/
theorem witness_KettleAndRecorderCommandsComplete :
    (∃ (s : State), s.kettleOn = true ∧ s.kettle.sampleTick + 64 ≤ s.tick) ∧
    (∃ (n : Nat) (s : State), s.kettleOn = true ∧ rails.contains n = true) ∧
    (∃ (t : Nat) (s : State), s.power.clearSince = some t ∧ s.power.trip = true ∧ t + ticksMs 1000 ≤ s.tick) ∧
    (∃ (v : Nat) (s : State), s.kettleOn = true ∧ s.hostUp = true ∧ (v = 0 ∨ (400 ≤ v ∧ v ≤ 2000))) ∧
    (∃ (s : State), s.kettleOn = true ∧ s.kettle.capCount ≠ 0 ∧ s.kettle.capSince + ticksMs 100 ≤ s.tick ∧ s.fget kettle_POWER_CAP 0 = 0) ∧
    (∃ (e : RecEntry) (s : State), nextEntry s.kettle.waiting = some e ∧ s.kettleOn = true) ∧
    (∃ (s : State), s.kettleOn = true ∧ s.fget rec_FROZEN 0 = 0) ∧
    (∃ (s : State), s.hostUp = true ∧ s.fget rec_FROZEN 0 = 0) ∧
    (∃ (s : State), s.hostUp = true ∧ s.fget rec_FROZEN 0 = 1 ∧ s.fget rec_FREEZE_CAUSE 0 = 6) ∧
    (∃ (k : Nat) (s : State), s.kettle.persistWait = true ∧ s.readySlot = some k) ∧
    (∃ (eid : Nat) (s : State), s.mctpUp = true ∧ eid ≠ 0 ∧ eid < 0xFF) :=
  ⟨⟨{ up with tick := 64 }, by decide +kernel⟩,
   ⟨231, up, by decide +kernel⟩,
   ⟨0, { up with tick := ticksMs 1000, power := { up.power with clearSince := some 0, trip := true } }, by decide +kernel⟩,
   ⟨0, { up with tick := ticksMs 1000, power := { up.power with clearSince := some 0, trip := true } }, by decide +kernel⟩,
   ⟨{ up with tick := ticksMs 100, kettle := { up.kettle with capCount := 1, capSum := 5 } }, by decide +kernel⟩,
   ⟨entry0, { up with kettle := { up.kettle with waiting := [entry0] } }, by decide +kernel⟩,
   ⟨up, by decide +kernel⟩,
   ⟨up, by decide +kernel⟩,
   ⟨on [(rec_FROZEN, 0, 1), (rec_FREEZE_CAUSE, 0, 6)] up, by decide +kernel⟩,
   ⟨0, on [(rec_SLOT 0, 0, 0)] { up with kettle := { up.kettle with persistWait := true } }, by decide +kernel⟩,
   ⟨0xFE, up, by decide +kernel⟩⟩

/-- Each clause of EflashCommandsComplete has a state and operands that meet its hypotheses. -/
theorem witness_EflashCommandsComplete :
    (∃ (a : Nat) (s : State), s.kettleOn = true ∧ rangeOk a 1 = true ∧ regionOfSector (a / 512) ≠ 1 ∧ a / 512 ∉ s.eflash.bad ∧ s.incomplete (a /
      512) = false) ∧
    (∃ (a need : Nat) (s : State), s.kettleOn = true ∧ rangeOk a 1 = true ∧ 2 ≤ regionOfSector (a / 512) ∧ a / 512 ∉ s.eflash.bad ∧
      s.power.brownOut = false ∧ s.incomplete (a / 512) = false ∧ s.untracked (a / 512) = false ∧ s.eword a = erasedWord ∧ need ≤ 1) ∧
    (∃ (x need : Nat) (s : State), s.kettleOn = true ∧ 16 ≤ x ∧ x < 2048 ∧ x ∉ s.eflash.bad ∧ s.power.brownOut = false ∧ need ≤ 1) ∧
    (∃ (x n : Nat) (s : State), s.kettleOn = true ∧ 1 ≤ n ∧ n ≤ 8 ∧ x + n ≤ 2048 ∧ regionOfSector x = regionOfSector (x + n - 1) ∧ (∀ y, x ≤ y → y
      < x + n → y ∉ s.eflash.bad ∧ s.incomplete y = false) ∧ (∀ w, 512 * x ≤ w → w < 512 * (x + n) → s.eword w = erasedWord)) ∧
    (∃ (x n : Nat) (s : State) (w : Nat), s.kettleOn = true ∧ 1 ≤ n ∧ n ≤ 8 ∧ x + n ≤ 2048 ∧ regionOfSector x = regionOfSector (x + n - 1) ∧ (∀ y,
      x ≤ y → y < x + n → y ∉ s.eflash.bad ∧ s.incomplete y = false) ∧ 512 * x ≤ w ∧ w < 512 * (x + n) ∧ s.eword w ≠ erasedWord ∧ (∀ v, 512 * x ≤ v
      → v < w → s.eword v = erasedWord)) ∧
    (∃ (s : State), s.kettleOn = true ∧ s.power.brownOut = false ∧ 3 * configHalfWords ≤ 4 * s.eflash.configUsed) :=
  ⟨⟨1048575, up, by decide +kernel⟩,
   ⟨40960, 1, up, by decide +kernel⟩,
   ⟨2047, 1, up, by decide +kernel⟩,
   ⟨2047, 1, up, by decide +kernel⟩,
   ⟨2047, 1, { up with eflash := { up.eflash with words := [(512 * 2047 + 5, 7)] } }, 512 * 2047 + 5, by decide +kernel⟩,
   ⟨{ up with eflash := { up.eflash with configUsed := 54144 } }, by decide +kernel⟩⟩

/-- Each clause of ManagementRequestsComplete has a state and operands that meet its hypotheses. -/
theorem witness_ManagementRequestsComplete :
    (∃ (cmd : CmdId) (cns nsid : Nat) (d : List Byte) (s : State), s.takes cmd = true ∧ cmd.rsvd = false ∧ s.idData cmd.fn cns nsid = some d) ∧
    (∃ (cmd : CmdId) (lid lsi lsp off n : Nat) (d : List Byte) (s : State), s.takes cmd = true ∧ cmd.rsvd = false ∧ (lid = 0xC2 → lsp ≠ 1 ∧ lsp ≠
      2) ∧ off % 4 = 0 ∧ n % 4 = 0 ∧ n ≠ 0 ∧ n ≤ 2 ^ 21 ∧ s.logPage cmd.fn lid lsi lsp = .ok d) ∧
    (∃ (cmd : CmdId) (off n : Nat) (s : State), s.takes cmd = true ∧ cmd.rsvd = false ∧ cmd.fn = 0 ∧ off % 4 = 0 ∧ n % 4 = 0 ∧ n ≠ 0 ∧ n ≤ 2 ^ 21) ∧
    (∃ (cmd : CmdId) (s : State), s.takes cmd = true ∧ s.turnedAway cmd true = false ∧ cmd.fn = 0) ∧
    (∃ (cmd : CmdId) (r : List Byte) (rs : List (List Byte)) (s : State), s.takes cmd = true ∧ cmd.rsvd = false ∧ cmd.fn = 0 ∧ s.kettle.miOut = r
      :: rs) ∧
    (∃ (t : Transport) (s : State), s.reaches t = true ∧ s.kettleOn = true) ∧
    (∃ (t : Transport) (s : State), s.reaches t = true ∧ s.kettleOn = true) :=
  ⟨⟨adm, 0x01, 0, live.idController 0, live, by decide +kernel, by decide +kernel, rfl⟩,
   ⟨adm, 0x00, 0, 0, 0, 2 ^ 21, supportedLogs 0, live, by decide +kernel, by decide +kernel, by decide +kernel, by decide +kernel,
    by decide +kernel, by decide +kernel, by decide +kernel, rfl⟩,
   ⟨adm, 0, 2 ^ 21, live, by decide +kernel⟩,
   ⟨adm, live, by decide +kernel⟩,
   ⟨adm, [1], [], { live with kettle := { live.kettle with miOut := [[1]] } }, by decide +kernel⟩,
   ⟨.vdm, vdm, by decide +kernel⟩,
   ⟨.smbus, up, by decide +kernel⟩⟩

/-- Each clause of FirmwareUpdateCommandsComplete has a state and operands that meet its hypotheses. -/
theorem witness_FirmwareUpdateCommandsComplete :
    (∃ (cmd : CmdId) (off : Nat) (data : List Byte) (s : State), s.takes cmd = true ∧ s.turnedAway cmd true = false ∧ cmd.fn = 0 ∧ s.fget
      glob_UPDATE_OWNER 0 ≠ 2 ∧ off + data.length ≤ packageMax ∧ ((s.boot.pieces.any fun p => decide (off < p.1 + p.2) && decide (p.1 < off +
      data.length)) = false)) ∧
    (∃ (cmd : CmdId) (fs k : Nat) (s keyed bad : State), s.takes cmd = true ∧ s.turnedAway cmd true = false ∧ cmd.fn = 0 ∧ s.fget
      glob_UPDATE_OWNER 0 ≠ 2 ∧ fs ≤ 2 ∧ k = (if fs = 0 then s.otherSlot else fs) ∧ k ≠ s.boot.runSlot ∧ bad = s.endUpdate.complete cmd 1 0x07 ∧
      keyed = (s.applyKeys s.stagedImage).elim bad (fun t => t.endUpdate.succeed cmd)) ∧
    (∃ (cmd : CmdId) (fs k : Nat) (s : State), s.takes cmd = true ∧ s.turnedAway cmd true = false ∧ cmd.fn = 0 ∧ s.fget glob_UPDATE_OWNER 0 ≠ 2 ∧
      (s.stagedOk && keyPackage s.stagedImage) = false ∧ fs ≤ 2 ∧ k = (if fs = 0 then s.otherSlot else fs) ∧ k ≠ s.boot.runSlot ∧ (s.fwSlot
      k).committed = true ∧ (s.fwSlot k).failed = false) ∧
    (∃ (cmd : CmdId) (ca : Nat) (s keyed : State), s.takes cmd = true ∧ s.turnedAway cmd true = false ∧ cmd.fn = 0 ∧ ca < 2 ∧ s.fget
      glob_UPDATE_OWNER 0 ≠ 2 ∧ keyed = (s.applyKeys s.stagedImage).elim (s.endUpdate.complete cmd 1 0x07) (fun t => t.endUpdate.succeed cmd)) ∧
    (∃ (s : State), s.mctpUp = true ∧ s.fget glob_UPDATE_OWNER 0 = 0) ∧
    (∃ (s : State), s.mctpUp = true ∧ s.fget glob_UPDATE_OWNER 0 = 2) ∧
    (∃ (off k : Nat) (data : List Byte) (u : State) (s : State), s.boot.pldmSlot = some k ∧ s.mctpUp = true ∧ s.fget glob_UPDATE_OWNER 0 = 2 ∧ 256
      ≤ data.length ∧ data.length ≤ 1024 ∧ off + data.length ≤ packageMax ∧ u = s.pldmPut off data ∧ u.pldmWhole = false) ∧
    (∃ (off k : Nat) (data : List Byte) (u : State) (s : State), s.boot.pldmSlot = some k ∧ s.mctpUp = true ∧ s.fget glob_UPDATE_OWNER 0 = 2 ∧ 256
      ≤ data.length ∧ data.length ≤ 1024 ∧ off + data.length ≤ packageMax ∧ u = s.pldmPut off data ∧ u.pldmWhole = true ∧ s.boot.romRecovery =
      false) ∧
    (∃ (k : Nat) (s : State), s.boot.pldmSlot = some k ∧ s.mctpUp = true ∧ (s.fwSlot k).committed = true ∧ (s.fwSlot k).failed = false) ∧
    (∃ (s : State), s.mctpUp = true ∧ s.fget glob_UPDATE_OWNER 0 = 2) :=
  ⟨⟨adm, packageMax - 4, [1, 2, 3, 4], live, by decide +kernel⟩,
   ⟨adm, 2, 2, live, _, _, by decide +kernel, by decide +kernel, by decide +kernel, by decide +kernel, by decide +kernel, by decide +kernel,
    by decide +kernel, rfl, rfl⟩,
   ⟨adm, 2, 2, { live with boot := { live.boot with slotB := FwSlot.factory } }, by decide +kernel⟩,
   ⟨adm, 1, live, _, by decide +kernel, by decide +kernel, by decide +kernel, by decide +kernel, by decide +kernel, rfl⟩,
   ⟨up, by decide +kernel⟩,
   ⟨on [(glob_UPDATE_OWNER, 0, 2)] up, by decide +kernel⟩,
   ⟨13, 2, List.replicate 256 0, _, pldm, by decide +kernel, by decide +kernel, by decide +kernel, by decide +kernel, by decide +kernel,
    by decide +kernel, rfl, by decide +kernel⟩,
   ⟨0, 2, List.replicate 8 0 ++ [0, 1, 0, 0] ++ List.replicate 244 0, _, pldm, by decide +kernel, by decide +kernel, by decide +kernel,
    by decide +kernel, by decide +kernel, by decide +kernel, rfl, by decide +kernel, by decide +kernel⟩,
   ⟨2, pldm, by decide +kernel⟩,
   ⟨pldm, by decide +kernel⟩⟩

/-- Each clause of LinkAndFunctionCommandsComplete has a state and operands that meet its hypotheses. -/
theorem witness_LinkAndFunctionCommandsComplete :
    (∃ (width rate : Nat) (s : State), s.planesOn = true ∧ s.host.belowMin = false ∧ (width = 4 ∨ width = 8 ∨ width = 16) ∧ widthAvoiding
      s.host.lanesRetired ≠ 0 ∧ 1 ≤ rate ∧ rate ≤ 3) ∧
    (∃ (width : Nat) (s : State), s.planesOn = true ∧ s.host.belowMin = false ∧ (width = 4 ∨ width = 8 ∨ width = 16) ∧ widthAvoiding
      s.host.lanesRetired ≠ 0 ∧ s.host.lowTries < 3) ∧
    (∃ (lane : Nat) (s : State), s.planesOn = true ∧ lane < 16) ∧
    (∃ (lane : Nat) (s : State), s.planesOn = true ∧ lane < 16 ∧ s.host.lanesRetired.contains lane = false ∧ s.laneUsed lane = false) ∧
    (∃ (lane : Nat) (s : State), s.planesOn = true ∧ lane < 16 ∧ s.host.lanesRetired.contains lane = false ∧ s.laneUsed lane = true) ∧
    (∃ (s : State), s.planesOn = true) ∧
    (∃ (fn : Nat) (s : State), s.power.perst = false ∧ (s.fnEnabled fn = true ∨ fn = 33) ∧ (s.planesOn = false ∨ s.host.trained = false)) ∧
    (∃ (fn : Nat) (s : State), s.power.perst = false ∧ (s.fnEnabled fn = true ∨ fn = 33) ∧ s.planesOn = true ∧ s.host.trained = true ∧
      s.host.linkUp = true) ∧
    (∃ (fn iv : Nat) (s : State), sget s.host.aggr (qKey fn iv) 0 ≠ 0 ∧ sget s.host.aggrTick (qKey fn iv) 0 + ticksUs (100 * ((s.ctrl fn).feature
      0x08 / 256 % 256)) ≤ s.tick) ∧
    (∃ (fn : Nat) (s : State), s.hostUp = true ∧ s.fnEnabled fn = true ∧ (s.ctrl fn).en = false) ∧
    (∃ (fn : Nat) (s : State), s.hostUp = true ∧ (s.ctrl fn).en = true ∧ fn = 0) ∧
    (∃ (fn : Nat) (s : State), s.hostUp = true ∧ (s.ctrl fn).en = true ∧ fn ≠ 0) ∧
    (∃ (fn : Nat) (s : State), s.hostUp = true ∧ (s.ctrl fn).en = true ∧ (s.ctrl fn).shst = 0 ∧ s.shutCtxs fn = []) ∧
    (∃ (fn : Nat) (s : State) (c : Nat) (x : Ctx), s.hostUp = true ∧ (s.ctrl fn).en = true ∧ (s.ctrl fn).shst = 0 ∧ s.shutCtxs fn = [c] ∧ s.ctx? c
      = some x ∧ x.task = none) ∧
    (∃ (fn : Nat) (s : State), s.hostUp = true ∧ s.fnEnabled fn = true ∧ fn ≠ 0 ∧ fn ≠ 33) ∧
    (∃ (s : State), s.hostUp = true) ∧
    (∃ (s : State), s.power.controlUp = true ∧ s.power.brownOut = false ∧ s.ftl.ready = false ∧ s.fget (hdr_STATE 0) 0 ≠ 4 ∧ (∀ c ∈ s.packages,
      s.fget (hdr_STATE 0x21) c ≠ 1)) :=
  ⟨⟨16, 3, up, by decide +kernel⟩,
   ⟨16, up, by decide +kernel⟩,
   ⟨15, up, by decide +kernel⟩,
   ⟨15, { up with host := { up.host with width := 8 } }, by decide +kernel⟩,
   ⟨15, up, by decide +kernel⟩,
   ⟨up, by decide +kernel⟩,
   ⟨33, { up with host := { up.host with trained := false } }, by decide +kernel⟩,
   ⟨0, up, by decide +kernel⟩,
   ⟨0, 3, { up with host := { up.host with aggr := [(qKey 0 3, 1)] } }, by decide +kernel⟩,
   ⟨0, up, by decide +kernel⟩,
   ⟨0, live, by decide +kernel⟩,
   ⟨32, up.setCtrl 32 { up.ctrl 32 with en := true, rdy := true }, by decide +kernel⟩,
   ⟨0, live, by decide +kernel⟩,
   ⟨0, withCtx ctx0 live, 0, ctx0, by decide +kernel⟩,
   ⟨32, { up with host := { up.host with numVfs := 32 } }, by decide +kernel⟩,
   ⟨up, by decide +kernel⟩,
   ⟨up, by decide +kernel⟩⟩

/-- Each clause of TimeAndFabricCommandsComplete has a state and operands that meet its hypotheses. -/
theorem witness_TimeAndFabricCommandsComplete :
    (∃ (p dom : Nat) (la : Int) (s : State), s.ptpRuns p = true ∧ s.rxCorrupt p = false ∧ -3 ≤ la ∧ la ≤ 3 ∧ dom = s.fget eth_DOMAIN p) ∧
    (∃ (p dom sender : Nat) (ls : Int) (s : State), s.ptpRuns p = true ∧ s.rxCorrupt p = false ∧ -7 ≤ ls ∧ ls ≤ 0 ∧ dom = s.fget eth_DOMAIN p ∧
      (s.ptp p).master = some sender ∧ s.steers p = false) ∧
    (∃ (p : Nat) (s : State), s.ptpRuns p = true ∧ (s.fget eth_DELAY_MECH p = 1 ∨ (s.ptp p).sync.isSome = true) ∧ (s.ptp p).sent = none) ∧
    (∃ (p sender : Nat) (ld t3 : Int) (s : State) (q : Int × Int), s.ptpRuns p = true ∧ s.rxCorrupt p = false ∧ (s.ptp p).sent = some t3 ∧ s.fget
      eth_DELAY_MECH p = 0 ∧ -7 ≤ ld ∧ (s.ptp p).master = some sender ∧ (s.ptp p).sync = some q) ∧
    (∃ (p : Nat) (t3 : Int) (s : State), s.ptpRuns p = true ∧ s.rxCorrupt p = false ∧ (s.ptp p).sent = some t3 ∧ s.fget eth_DELAY_MECH p = 1) ∧
    (∃ (p dom : Nat) (s : State), s.ptpRuns p = true ∧ s.rxCorrupt p = false ∧ dom = s.fget eth_DOMAIN p ∧ s.fget eth_DELAY_MECH p = 1) ∧
    (∃ (p : Nat) (s : State), Sys2Proof.Machine.present s.variant 0x31 p = true ∧ s.kettleOn = true ∧ s.portSilent p = true) ∧
    (∃ (t : Nat) (s : State), s.source = 0 ∧ s.activePort ≠ s.prefPort ∧ s.ptpRuns s.prefPort = true ∧ (s.ptp s.prefPort).meetsSince = some t ∧ t
      + ticksMs 60000 ≤ s.tick) ∧
    (∃ (s : State), s.planesOn = true ∧ s.fget front_PTM_ENABLED 0 ≠ 0 ∧ s.fget front_RATE 0 ≠ 0 ∧ s.fget glob_TIME_SOURCE_REQUEST 0 = 1 ∧
      s.time.ptmTick + ticksMs (s.fget time_PTM_INTERVAL_MS 0) ≤ s.tick) ∧
    (∃ (v : Nat) (s : State), s.hostUp = true ∧ (v = 1 ∨ v = 2) ∧ v = s.source) ∧
    (∃ (v : Nat) (s : State), s.hostUp = true ∧ (v = 1 ∨ v = 2) ∧ v ≠ s.source) ∧
    (∃ (s : State), s.kettleOn = true ∧ s.time.ppsSec < s.time.dtc / 2 ^ 48 / 1000000000 ∧ s.fget time_PPS_OUT_MODE 0 = 1) ∧
    (∃ (cyc : Nat) (x : Int) (s : State), s.variant = .x ∧ s.kettleOn = true ∧ x = (s.dtcRead - (2097152 * cyc : Nat)) % (1000000000 * unitNs) ∧ 2
      * x < 1000000000 * unitNs) ∧
    (∃ (t : Nat) (s : State), s.time.ppsIn = some t ∧ t + ticksMs 2000 ≤ s.tick) ∧
    (∃ (p : Nat) (s : State), Sys2Proof.Machine.present s.variant 0x31 p = true ∧ s.kettleOn = true ∧ s.fget eth_PORT_RETIRED p ≠ 1 ∧ s.portUp p =
      true) ∧
    (∃ (p speed : Nat) (s : State), Sys2Proof.Machine.present s.variant 0x31 p = true ∧ s.planesOn = true ∧ s.fget eth_PORT_RETIRED p ≠ 1 ∧
      s.portUp p = false ∧ (s.fget glob_PS_EFFECTIVE 0 ≠ 4 ∨ p = s.activePort) ∧ (speed = 1 ∨ speed = 2)) ∧
    (∃ (p : Nat) (s : State), s.portRuns p = true ∧ s.rxCorrupt p = false) ∧
    (∃ (p target : Nat) (v6 : Bool) (s : State), s.portRuns p = true ∧ s.rxCorrupt p = false ∧ s.ownAddr p v6 = some target) ∧
    (∃ (p prio : Nat) (s : State), s.portRuns p = true ∧ s.rxCorrupt p = false ∧ s.fget eth_PFC_EN p ≠ 0 ∧ prio = s.fget eth_PFC_PRIO p) :=
  ⟨⟨1, 0, 3, ported id, by decide +kernel⟩,
   ⟨1, 0, 77, -7, on [(glob_TIME_SOURCE, 0, 0)] (ported fun x => { x with master := some 77 }), by decide +kernel⟩,
   ⟨1, ported fun x => { x with sync := some (1, 2) }, by decide +kernel⟩,
   ⟨1, 77, -7, 60, ported fun x => { x with master := some 77, sync := some (1, 2), sent := some 60 }, (1, 2), by decide +kernel⟩,
   ⟨1, 60, on [(eth_DELAY_MECH, 1, 1)] (ported fun x => { x with sent := some 60 }), by decide +kernel⟩,
   ⟨1, 0, on [(eth_DELAY_MECH, 1, 1)] (ported id), by decide +kernel⟩,
   ⟨1, ported fun x => { x with master := some 77 }, by decide +kernel⟩,
   ⟨0, on [(eth_PTP_PREF, 1, 1), (glob_TIME_SOURCE, 0, 0)] (ported fun x => { x with meetsSince := some 0 }), by decide +kernel⟩,
   ⟨on [(front_PTM_ENABLED, 0, 1), (front_RATE, 0, 3), (glob_TIME_SOURCE_REQUEST, 0, 1)] (ported id), by decide +kernel⟩,
   ⟨2, on [(glob_TIME_SOURCE, 0, 2)] up, by decide +kernel⟩,
   ⟨1, on [(glob_TIME_SOURCE, 0, 2)] up, by decide +kernel⟩,
   ⟨on [(time_PPS_OUT_MODE, 0, 1)] (timing fun x => { x with dtc := 2 ^ 48 * 1000000000 }), by decide +kernel⟩,
   ⟨0, _, up, by decide +kernel, by decide +kernel, rfl, by decide +kernel⟩,
   ⟨0, timing fun x => { x with ppsIn := some 0 }, by decide +kernel⟩,
   ⟨1, ported id, by decide +kernel⟩,
   ⟨1, 2, up, by decide +kernel⟩,
   ⟨1, ported id, by decide +kernel⟩,
   ⟨1, 10, false, addressed, by decide +kernel⟩,
   ⟨1, 3, on [(eth_PFC_EN, 1, 1), (eth_PFC_PRIO, 1, 3)] (ported id), by decide +kernel⟩⟩

/-- Each clause of UnfittedColandersAreAbsent has a state and operands that meet its hypotheses. -/
theorem witness_UnfittedColandersAreAbsent :
    (∃ (p : Nat), p < 64) ∧
    (∃ (h : Nat), h < 2) ∧
    (∃ (s : State) (p : Nat), s.variant = .c ∧ ((16 ≤ p ∧ p ≤ 31) ∨ (48 ≤ p ∧ p ≤ 63))) :=
  ⟨⟨63, by decide +kernel⟩,
   ⟨1, by decide +kernel⟩,
   ⟨{ up with variant := .c }, 63, by decide +kernel⟩⟩

/-- Each clause of BadAccessesReadOnesAndCount has a state and operands that meet its hypotheses. -/
theorem witness_BadAccessesReadOnesAndCount :
    (∃ (a : Nat) (s : State), s.hostUp = true ∧ accessOk s.variant a 64 = true ∧ rwPair (addrClass a) (addrOff a) = false) ∧
    (∃ (a : Nat) (s u v : State), s.pageOn (addrClass a) (addrInst a) = true ∧ accessOk s.variant a 64 = true ∧ u = (s.accessed 8 (addrClass a)
      (addrInst a)).readOnce (addrClass a) (addrInst a) (addrOff a) ∧ v = u.readOnce (addrClass a) (addrInst a) (addrOff a + 4)) ∧
    (∃ (a size : Nat) (s : State) (f : Field) (i : Nat), s.hostUp = true ∧ accessOk s.variant a size = false ∧ f.key i ≠ glob_BAD_ACCESS_COUNT.key
      0) ∧
    (∃ (a size : Nat) (write : Bool) (s : State), s.hostUp = true ∧ accessOk s.variant a size = false ∧ write = false ∧ size ≠ 64) ∧
    (∃ (a size : Nat) (write : Bool) (s : State), s.hostUp = true ∧ accessOk s.variant a size = false ∧ write = false ∧ size = 64) ∧
    (∃ (a size : Nat) (write : Bool) (s : State), s.hostUp = true ∧ accessOk s.variant a size = false ∧ write = true) :=
  ⟨⟨0x290, up, by decide +kernel⟩,
   ⟨0x2B8, up, _, _, by decide +kernel, by decide +kernel, rfl, rfl⟩,
   ⟨0x294, 64, up, glob_MEDIA_MODE, 0, by decide +kernel⟩,
   ⟨0x294, 16, false, up, by decide +kernel⟩,
   ⟨0x294, 64, false, up, by decide +kernel⟩,
   ⟨0x294, 64, true, up, by decide +kernel⟩⟩

/-- Each clause of FirstErrorOfAPageIsCaptured has a state and operands that meet its hypotheses. -/
theorem witness_FirstErrorOfAPageIsCaptured :
    (∃ (s : State) (c i b info : Nat), c < 256 ∧ i < 256 ∧ b < 32 ∧ s.injectLeft c i b = 0 ∧ info < 2 ^ 32 ∧ bit (s.fget (hdr_ERR_STATUS c) i) b =
      false ∧ s.fget (hdr_FIRST_VALID c) i = 0) ∧
    (∃ (s : State) (c i b info : Nat), c < 256 ∧ i < 256 ∧ b < 32 ∧ s.injectLeft c i b = 0 ∧ info < 2 ^ 32 ∧ (bit (s.fget (hdr_ERR_STATUS c) i) b
      = true ∨ s.fget (hdr_FIRST_VALID c) i = 1)) :=
  ⟨⟨up, 255, 255, 31, 2 ^ 32 - 1, by decide +kernel⟩,
   ⟨on [(hdr_FIRST_VALID 255, 255, 1)] up, 255, 255, 31, 2 ^ 32 - 1, by decide +kernel⟩⟩

/-- Each clause of TileSumsSaturateBlockByBlock has a state and operands that meet its hypotheses. -/
theorem witness_TileSumsSaturateBlockByBlock :
    ∃ (w : Nat), mmFp w = false :=
  ⟨0, by decide +kernel⟩

/-- Each clause of CodeDistancesAreTableSums has a state and operands that meet its hypotheses. -/
theorem witness_CodeDistancesAreTableSums :
    (∃ (m : Nat), m ≤ 128) ∧
    (∃ (a b : Nat × Nat × Nat), a.1 < b.1) :=
  ⟨⟨128, by decide +kernel⟩,
   ⟨(0, 1, 0), (1, 0, 0), by decide +kernel⟩⟩

/-- Each clause of RankedListsAreSortedWithoutDuplicates has a state and operands that meet its hypotheses. -/
theorem witness_RankedListsAreSortedWithoutDuplicates :
    (∃ (a b : LEnt), (dec32 a.dist).isNan = false ∧ (dec32 b.dist).isNan = false) ∧
    (∃ (a b : LEnt), (dec32 a.dist).isNan = false ∧ (dec32 b.dist).isNan = true) ∧
    (∃ (a b : LEnt), (dec32 a.dist).isNan = true ∧ (dec32 b.dist).isNan = true) ∧
    (∃ (d : Nat), (dec32 d).isNan = false ∧ dec32 d ≠ dec32 0x7F800000) ∧
    (∃ (d : Nat), (dec32 d).isNan = false ∧ dec32 d ≠ dec32 0xFF800000) :=
  ⟨⟨ent 0x80000000, ent 0, by decide +kernel⟩,
   ⟨ent 0x7F800000, ent 0x7FC00000, by decide +kernel⟩,
   ⟨ent 0xFFC00000, ent 0x7FC00000, by decide +kernel⟩,
   ⟨0x7F7FFFFF, by decide +kernel⟩,
   ⟨0x7F800000, by decide +kernel⟩⟩

/-- Each clause of UserCapacityIsFixed has a state and operands that meet its hypotheses. -/
theorem witness_UserCapacityIsFixed :
    (∃ (s : State), s.variant = .c) ∧
    (∃ (s : State), s.variant ≠ .c) :=
  ⟨⟨{ up with variant := .c }, by decide +kernel⟩,
   ⟨up, by decide +kernel⟩⟩

/-- Each clause of RoundingGeneratorIsXorshift has a state and operands that meet its hypotheses. -/
theorem witness_RoundingGeneratorIsXorshift :
    (∃ (n seed : Nat) (j : Nat), seed < 2 ^ 64 ∧ j < n) ∧
    (∃ (n seed r : Nat), seed < 2 ^ 64 ∧ r ∈ (lfsrRun n seed).1) :=
  ⟨⟨1, 2 ^ 64 - 1, 0, by decide +kernel⟩,
   ⟨1, 2 ^ 64 - 1, (lfsrRun 1 (2 ^ 64 - 1)).1.headD 0, by decide +kernel⟩⟩

/-- Each clause of SuperblocksOpenLeastWornFirst has a state and operands that meet its hypotheses. -/
theorem witness_SuperblocksOpenLeastWornFirst :
    (∃ (s : State) (c stream b pos : Nat), sget? s.ftl.openSb (4 * c + stream) = some (b, pos) ∧ (s.locAt c b pos).isSome = true) ∧
    (∃ (s : State) (c stream : Nat), (∀ b pos, sget? s.ftl.openSb (4 * c + stream) = some (b, pos) → s.locAt c b pos = none) ∧ s.leastWorn c =
      none) ∧
    (∃ (s : State) (c stream : Nat) (b : Nat), (∀ b pos, sget? s.ftl.openSb (4 * c + stream) = some (b, pos) → s.locAt c b pos = none) ∧
      s.leastWorn c = some b) ∧
    (∃ (s : State) (c b : Nat) (x : Nat), s.leastWorn c = some b ∧ x < 2208 ∧ s.sbFree c x = true) :=
  ⟨⟨ftlWith fun f => { f with openSb := [(0, (5, 0))] }, 0, 0, 5, 0, by decide +kernel⟩,
   ⟨closed0, 0, 0, none_open 0 0 (by simp only [closed0, ftlWith]; decide +kernel), leastWorn_none (freeSbs_none closed0 0 (by simp only [closed0,
    ftlWith]))⟩,
   ⟨live, 0, 0, (live.leastWorn 0).getD 0, none_open 0 0 (by decide +kernel), some_getD 0 (leastWorn_some live 0 (by decide +kernel))⟩,
   ⟨live, 0, (live.leastWorn 0).getD 0, 2207, some_getD 0 (leastWorn_some live 0 (by decide +kernel)), by decide +kernel, by decide +kernel⟩⟩

/-- Each clause of EmptyQueuePassesOneTick has a state and operands that meet its hypotheses. -/
theorem witness_EmptyQueuePassesOneTick :
    ∃ (s : State), s.pending = [] ∧ s.power.kettleUp = true :=
  ⟨up, by decide +kernel⟩

/-- Each clause of EveryStepKeepsCanonicalForm has a state and operands that meet its hypotheses. -/
theorem witness_EveryStepKeepsCanonicalForm :
    ∃ (s : State), s.Canon :=
  ⟨{ live with pending := [.mediaReady 0] }, by decide +kernel, by decide +kernel, by decide +kernel, by decide +kernel, by decide +kernel⟩

/-- Each clause of NamespaceBytesReadBackAsWritten has a state and operands that meet its hypotheses. -/
theorem witness_NamespaceBytesReadBackAsWritten :
    ∃ (off a : Nat) (bs : List Byte), off + bs.length ≤ 2 ^ 54 ∧ a < 2 ^ 54 :=
  ⟨2 ^ 54 - 1, 2 ^ 54 - 1, [1], by decide +kernel⟩

/-- Each clause of DeallocatedBytesReadZero has a state and operands that meet its hypotheses. -/
theorem witness_DeallocatedBytesReadZero :
    ∃ (off n a : Nat), off + n ≤ 2 ^ 54 ∧ a < 2 ^ 54 :=
  ⟨2 ^ 54 - 1, 1, 2 ^ 54 - 1, by decide +kernel⟩

end Sys2Proof.Tests
end

section
/-!
How frames compose: one change after another, a branch, a fold, the update of one or two parts of the state record, and a command that
answers the state so reached.
-/

namespace Sys2Proof.Machine

/-! ### Frames that carry their own list of parts -/

/-- A state is within no part of itself. -/
theorem Frame.same {s : State} : Frame [] s s := .refl _ _

/-- One change after another: the parts of both. -/
theorem Frame.trans {ps qs : List Part} {s t u : State} (h : Frame ps s t) (k : Frame qs t u) : Frame (ps ++ qs) s u :=
  ⟨fun p hp => (h.1 p fun c => hp (List.mem_append_left _ c)).trans (k.1 p fun c => hp (List.mem_append_right _ c)), fun c => k.2 (h.2 c)⟩

theorem Frame.within {ps qs : List Part} {s t : State} (h : Frame qs s t) (hq : qs ⊆ ps) : Frame ps s t :=
  h.then hq (.refl _ _)

/-- A further change, of parts that are listed. -/
theorem Frame.after {ps qs : List Part} {s t u : State} (k : Frame qs t u) (hq : qs ⊆ ps) (h : Frame ps s t) : Frame ps s u :=
  k.then hq h

/-- A branch changes the parts that its two sides change. -/
theorem Frame.cond {ps qs : List Part} {s a b : State} {c : Prop} [Decidable c] (h : Frame ps s a) (k : Frame qs s b) :
    Frame (ps ++ qs) s (if c then a else b) :=
  .ite (h.then (List.subset_append_left ..) (.refl _ _)) (k.then (List.subset_append_right ..) (.refl _ _))

/-- A fold of changes of the same parts. -/
theorem Frame.fold {α : Type} {ps : List Part} {s : State} {f : State → α → State} {l : List α}
    (hf : ∀ (t : State) (a : α), Frame ps t (f t a)) :
    Frame ps s (l.foldl f s) := .foldl hf (.refl _ _) l

/-! ### The frame of a record update -/

section
variable {x : State}

theorem Frame.inReg {v : RegFn} : Frame [.reg] x { x with reg := v } := .setReg (by decide) (.refl _ _)
theorem Frame.inPower {v : Power} : Frame [.power] x { x with power := v } := .setPower (by decide) (.refl _ _)
theorem Frame.inArb {v : Arb} : Frame [.arb] x { x with arb := v } := .setArb (by decide) (.refl _ _)
theorem Frame.inKettle {v : Kettle} : Frame [.kettle] x { x with kettle := v } := .setKettle (by decide) (.refl _ _)
theorem Frame.inEflash {v : EFlash} : Frame [.eflash] x { x with eflash := v } := .setEflash (by decide) (.refl _ _)
theorem Frame.inUnits {v : Units} : Frame [.units] x { x with units := v } := .setUnits (by decide) (.refl _ _)
theorem Frame.inTime {v : TimeState} : Frame [.time] x { x with time := v } := .setTime (by decide) (.refl _ _)
theorem Frame.inFtl {v : Ftl} : Frame [.ftl] x { x with ftl := v } := .setFtl (by decide) (.refl _ _)
theorem Frame.inNear {v : Near} : Frame [.near] x { x with near := v } := .setNear (by decide) (.refl _ _)
theorem Frame.inSnilo {v : SniloState} : Frame [.snilo] x { x with snilo := v } := .setSnilo (by decide) (.refl _ _)
theorem Frame.inRel {v : Reliab} : Frame [.rel] x { x with rel := v } := .setRel (by decide) (.refl _ _)
theorem Frame.inFreeCount {v : Nat} : Frame [.freeCount] x { x with freeCount := v } := .setFreeCount (by decide) (.refl _ _)

/-! An update of a part that holds a memory, and leaves the memory. -/

theorem Frame.inTiers {v : Tiers} (h : v.hbm = x.tiers.hbm) : Frame [.tiers] x { x with tiers := v } :=
  .setTiersOf (by decide) h (.refl _ _)
theorem Frame.inCp {v : Compute} (h : v.sb = x.cp.sb) : Frame [.cp] x { x with cp := v } :=
  .setCpOf (by decide) h (.refl _ _)
theorem Frame.inHost {v : HostIf} (h : v.mem = x.host.mem) : Frame [.host] x { x with host := v } :=
  .setHostOf (by decide) h (.refl _ _)
theorem Frame.inBoot {v : Boot} (h : v.image = x.boot.image) : Frame [.boot] x { x with boot := v } :=
  .setBootOf (by decide) h (.refl _ _)
theorem Frame.inNand {v : Nand} (h : v.pages = x.nand.pages) : Frame [.nand] x { x with nand := v } :=
  .setNandOf (by decide) h (.refl _ _)

/-! An update of two parts at once. -/

theorem Frame.inPowerTiers {v : Power} {w : Tiers} (h : w.hbm = x.tiers.hbm) :
    Frame [.power, .tiers] x { x with power := v, tiers := w } :=
  .setTiersOf (x := { x with power := v }) (by decide) h (.setPower (by decide) (.refl _ _))
theorem Frame.inArbHost {v : Arb} {w : HostIf} (h : w.mem = x.host.mem) : Frame [.arb, .host] x { x with arb := v, host := w } :=
  .setHostOf (x := { x with arb := v }) (by decide) h (.setArb (by decide) (.refl _ _))
theorem Frame.inFtlHost {v : Ftl} {w : HostIf} (h : w.mem = x.host.mem) : Frame [.ftl, .host] x { x with ftl := v, host := w } :=
  .setHostOf (x := { x with ftl := v }) (by decide) h (.setFtl (by decide) (.refl _ _))
theorem Frame.inFtlNear {v : Ftl} {w : Near} : Frame [.ftl, .near] x { x with ftl := v, near := w } :=
  .setNear (x := { x with ftl := v }) (by decide) (.setFtl (by decide) (.refl _ _))
theorem Frame.inEflashTiers {v : EFlash} {w : Tiers} (h : w.hbm = x.tiers.hbm) :
    Frame [.eflash, .tiers] x { x with eflash := v, tiers := w } :=
  .setTiersOf (x := { x with eflash := v }) (by decide) h (.setEflash (by decide) (.refl _ _))

/-- An update of the translation and of the tiers that keeps HBM in canonical form. -/
theorem Frame.inFtlTiersHbm {v : Ftl} {w : Tiers} (hm : Memory.wf x.tiers.hbm = true → Memory.wf w.hbm = true) :
    Frame [.ftl, .tiers, .hbm] x { x with ftl := v, tiers := w } :=
  .memTiers (x := { x with ftl := v }) (by decide) (by decide) hm (.setFtl (by decide) (.refl _ _))

end

/-! ### A command's frame -/

theorem Runs.stay {ps : List Part} {s : State} : Runs ps s (.next s) := .next (.refl _ _)

/-- A command that answers a state reached within parts that are listed. -/
theorem Runs.of {ps qs : List Part} {s t : State} (hq : qs ⊆ ps) (h : Frame qs s t) : Runs ps s (.next t) :=
  .next (h.within hq)

theorem Runs.within {ps qs : List Part} {s : State} {r : Res} (h : Runs qs s r) (hq : qs ⊆ ps) : Runs ps s r :=
  h.then hq (.refl _ _)

end Sys2Proof.Machine
end

section
/-!
What each command leaves unchanged: one lemma for each row of the command table, with the parts of the state that its frame obligation lists.
-/

namespace Sys2Proof.Machine

/-! ### The commands of power, reset, link and start-up -/

theorem execPowerOnStart_runs (inp : StartInput) (s : State) :
    Runs [.regs, .tick, .freeCount, .reg, .power, .arb, .kettle, .boot, .eflash, .host, .cp, .units, .tiers, .time, .ftl, .nand,
      .near, .snilo, .rel, .hbm, .sb, .hostMem, .image, .pages] s (execPowerOnStart inp s) := by
  unfold execPowerOnStart
  exact .ite .stay (.of (by decide) <| (State.startUp_frame ..).trans <| State.smartAdd_frame ..)

theorem execInputSwitchClose_runs (s : State) : Runs [.power] s (execInputSwitchClose s) := by
  unfold execInputSwitchClose
  exact .of (by decide) Frame.inPower

theorem execPrsntBOpen_runs (mv : Nat) (whole : Bool) (s : State) :
    Runs [.regs, .freeCount, .reg, .power, .arb, .kettle, .boot, .host, .cp, .units, .tiers, .time, .ftl, .nand, .near, .snilo,
      .hbm, .sb, .hostMem, .image, .pages] s (execPrsntBOpen mv whole s) := by
  unfold execPrsntBOpen
  exact .ite (.of (by decide) <| Frame.inPower.trans <| State.brownOutSeq_frame ..) (.of (by decide) Frame.inPower)

theorem execBrownOut_runs (mv : Nat) (whole : Bool) (s : State) :
    Runs [.regs, .freeCount, .reg, .power, .arb, .kettle, .boot, .host, .cp, .units, .tiers, .time, .ftl, .nand, .near, .snilo,
      .hbm, .sb, .hostMem, .image, .pages] s (execBrownOut mv whole s) := by
  unfold execBrownOut
  exact .ite .stay (.of (by decide) (State.brownOutSeq_frame ..))

theorem execInputOverVoltage_runs (mv : Nat) (whole : Bool) (s : State) :
    Runs [.regs, .freeCount, .reg, .power, .arb, .kettle, .boot, .host, .cp, .units, .tiers, .time, .ftl, .nand, .near, .snilo,
      .hbm, .sb, .hostMem, .image, .pages] s (execInputOverVoltage mv whole s) := by
  unfold execInputOverVoltage
  exact .ite .stay (.of (by decide) <| Frame.inPower.trans <| State.brownOutSeq_frame ..)

theorem execInputOverCurrent_runs (ma mv : Nat) (whole : Bool) (s : State) :
    Runs [.regs, .freeCount, .reg, .power, .arb, .kettle, .boot, .host, .cp, .units, .tiers, .time, .ftl, .nand, .near, .snilo,
      .hbm, .sb, .hostMem, .image, .pages] s (execInputOverCurrent ma mv whole s) := by
  unfold execInputOverCurrent
  exact .ite .stay (.of (by decide) <| Frame.inPower.trans <| State.brownOutSeq_frame ..)

theorem execBrownOutRecovery_runs (mv : Nat) (bad fails : Bool) (s : State) :
    Runs [.regs, .reg, .power, .kettle, .boot, .units, .tiers, .ftl, .near] s (execBrownOutRecovery mv bad fails s) := by
  unfold execBrownOutRecovery
  exact .ite .stay (.ite (.of (by decide) <| Frame.inPower.trans <| State.recEv_frame ..) (.of (by decide) <| Frame.inPower.trans <|
    (State.startControl_frame ..).trans <| State.recEv_frame ..))

theorem execHoldUpBankExhausted_runs (s : State) : Runs [.regs, .power, .kettle, .tiers] s (execHoldUpBankExhausted s) := by
  unfold execHoldUpBankExhausted
  exact .ite .stay (.of (by decide) <| (State.persist_frame ..).trans <| (Frame.inPowerTiers (by rfl)))

theorem execBrownOutOpHoldExpiry_runs (s : State) : Runs [.regs, .power] s (execBrownOutOpHoldExpiry s) := by
  unfold execBrownOutOpHoldExpiry
  split
  · exact .ite .stay (.of (by decide) <| Frame.inPower.trans <| State.driveOp_frame ..)
  · exact .stay

theorem execPerstAssert_runs (hot : Bool) (s : State) :
    Runs [.regs, .freeCount, .reg, .power, .arb, .kettle, .boot, .host, .cp, .units, .tiers, .time, .ftl, .nand, .near, .snilo,
      .hbm, .sb, .hostMem, .image, .pages] s (execPerstAssert s hot) := by
  unfold execPerstAssert
  extract_lets +onlyGivenNames -merge src s0
  have hs0 : Frame _ s s0 := Frame.inPower
  exact .ite .stay (.ite (.of (by decide) hs0) (.of (by decide) <| hs0.trans <| (State.stagingFlush_frame ..).trans <|
    (State.flush_frame ..).trans <| (State.setPs_frame ..).trans <| Frame.inFtl.trans <| (State.planeReset_frame ..).trans <|
    State.driveOp_frame ..))

theorem execPerstDeassert_runs (bad fails : Bool) (s : State) :
    Runs [.regs, .reg, .power, .kettle, .boot, .units, .tiers, .ftl, .near] s (execPerstDeassert bad fails s) := by
  unfold execPerstDeassert
  exact .ite (.of (by decide) Frame.inPower) (.of (by decide) <| (Frame.cond (Frame.inPower.trans <|
    State.chooseSlot_frame ..) Frame.inPower).trans <| State.startControl_frame ..)

theorem execPcieLinkTrained_runs (width rate : Nat) (s : State) :
    Runs [.regs, .freeCount, .reg, .arb, .kettle, .host, .units, .time] s (execPcieLinkTrained width rate s) := by
  unfold execPcieLinkTrained
  extract_lets +onlyGivenNames w
  refine .ite .stay ?_
  extract_lets +onlyGivenNames s1
  have hs1 : Frame _ s s1 := Frame.cond (State.fbump_frame ..) .same
  exact .ite (.of (by decide) <| hs1.trans <| State.linkAt_frame ..) (.ite (.of (by decide) <| (Frame.inHost (by rfl)).trans <|
    (State.linkDown_frame ..).trans <| State.fbump_frame ..) (.of (by decide) <| (Frame.inHost (by rfl)).trans <| (Frame.inHost (by rfl)).trans <|
    (State.linkAt_frame ..).trans <| State.err_frame ..))

theorem execPcieLaneRetire_runs (lane : Nat) (eq : Bool) (s : State) :
    Runs [.regs, .freeCount, .reg, .arb, .kettle, .eflash, .host, .units, .time] s (execPcieLaneRetire lane eq s) := by
  unfold execPcieLaneRetire
  extract_lets +onlyGivenNames n
  refine .ite .stay ?_
  extract_lets +onlyGivenNames -merge src s1
  have hs1 : Frame _ s s1 := (Frame.inHost (by rfl)).trans <| State.recordRetirement_frame ..
  exact .ite (.of (by decide) hs1) (.ite (.of (by decide) <| hs1.trans <| State.linkDown_frame ..)
    (.of (by decide) <| hs1.trans <| (State.fbump_frame ..).trans <| State.linkAt_frame ..))

theorem execPcieUncorrectableTlp_runs (ctx : Option (Nat × Nat × Nat)) (cmd : Option CmdId) (s : State) :
    Runs [.regs, .freeCount, .reg, .arb, .kettle, .host, .cp, .units, .tiers, .ftl, .near, .hbm, .sb, .hostMem]
      s (execPcieUncorrectableTlp ctx cmd s) := by
  unfold execPcieUncorrectableTlp
  refine .ite .stay ?_
  extract_lets +onlyGivenNames s1
  have hs1 : Frame _ s s1 := State.err_frame ..
  extract_lets +onlyGivenNames s2
  have hs2 : Frame [.regs, .freeCount, .reg, .arb, .kettle, .host, .cp, .units, .tiers, .ftl, .near, .hbm, .sb, .hostMem] s s2 := by
    unfold s2
    split
    · exact (hs1.trans <| State.faultCtx_frame ..).within (by decide)
    · exact hs1.within (by decide)
  split
  · exact .of (by decide) (Frame.cond (hs2.trans <| State.complete_frame ..) hs2)
  · exact .of (by decide) hs2

theorem execControllerEnable_runs (fn : Nat) (crime wrr : Bool) (asqs acqs : Nat) (s : State) :
    Runs [.host] s (execControllerEnable fn crime wrr s asqs acqs) := by
  unfold execControllerEnable
  exact .ite .stay (.of (by decide) <| (State.setCtrl_frame ..).trans <| State.adminQueues_frame ..)

theorem execControllerReset_runs (fn : Nat) (s : State) :
    Runs [.regs, .freeCount, .reg, .power, .arb, .kettle, .boot, .host, .cp, .units, .tiers, .ftl, .near, .hbm, .sb, .hostMem,
      .image] s (execControllerReset fn s) := by
  unfold execControllerReset
  exact .ite .stay (.ite (.of (by decide) (State.controllerReset_frame ..)) (.of (by decide) <| (State.dropFnCtxs_frame ..).trans <|
    (State.resetFn_frame ..).trans <| State.dropCollections_frame ..))

theorem execShutdownNotification_runs (fn : Nat) (s : State) :
    Runs [.regs, .freeCount, .reg, .arb, .kettle, .host, .cp, .units, .tiers, .ftl, .near, .hbm, .sb, .hostMem]
      s (execShutdownNotification fn s) := by
  unfold execShutdownNotification
  extract_lets +onlyGivenNames c
  refine .ite .stay ?_
  extract_lets +onlyGivenNames s1
  have hs1 : Frame _ s s1 := State.setCtrl_frame ..
  extract_lets +onlyGivenNames s2
  have hs2 : Frame ([.host] ++ [.cp]) s s2 := by
    refine hs1.trans (.fold fun t k => ?_)
    split
    · exact .ite (State.preemptCtx_frame ..) (.refl ..)
    · exact .refl ..
  exact .of (by decide) (Frame.cond (hs2.trans <| State.finishShutdown_frame ..) hs2)

theorem execFunctionLevelReset_runs (fn : Nat) (s : State) :
    Runs [.regs, .freeCount, .reg, .arb, .kettle, .host, .cp, .units, .tiers, .ftl, .near, .hbm, .sb, .hostMem]
      s (execFunctionLevelReset fn s) := by
  unfold execFunctionLevelReset
  exact .ite .stay (.ite (.of (by decide) (State.setPci_frame ..)) (.ite (.of (by decide) <|
    (Frame.fold fun _ _ => State.fnReset_frame ..).trans <| (Frame.inHost (by rfl)))
    (.of (by decide) <| (State.fnReset_frame ..).trans <| State.setPci_frame ..)))

theorem execMediaReady_runs (journal : Nat) (s : State) :
    Runs [.regs, .freeCount, .reg, .arb, .kettle, .boot, .host, .units, .ftl] s (execMediaReady journal s) := by
  unfold execMediaReady
  exact .ite .stay (.of (by decide) <| (State.rebuilt_frame ..).trans <| State.mediaUp_frame ..)

theorem execWatchdogExpiry_runs (op : Nat) (whole : Bool) (inp : StartInput) (s : State) :
    Runs [.regs, .tick, .freeCount, .reg, .power, .arb, .kettle, .boot, .eflash, .host, .cp, .units, .tiers, .time, .ftl, .nand,
      .near, .snilo, .rel, .hbm, .sb, .hostMem, .image, .pages] s (execWatchdogExpiry op whole inp s) := by
  unfold execWatchdogExpiry
  refine .ite .stay ?_
  extract_lets +onlyGivenNames -merge src s0
  have hs0 : Frame _ s s0 := (Frame.inBoot (by rfl))
  refine .ite (.of (by decide) <| hs0.trans <| State.startUp_frame ..) ?_
  extract_lets +onlyGivenNames s1
  have hs1 : Frame _ s s1 := Frame.cond (hs0.trans <| State.stagingFlush_frame ..) hs0
  exact .of (by decide) <| hs1.trans <| (State.ringNow_frame ..).trans <| (State.freeze_frame ..).trans <| (State.persist_frame ..).trans <|
    (State.planeReset_frame ..).trans <| State.startUp_frame ..

theorem execWatchdogKick_runs (s : State) : Runs [.boot] s (execWatchdogKick s) := by
  unfold execWatchdogKick
  exact .ite (.of (by decide) (Frame.inBoot (by rfl))) .stay

theorem execHeartbeatReport_runs (src : Nat) (s : State) : Runs [.boot] s (execHeartbeatReport src s) := by
  unfold execHeartbeatReport
  exact .ite .stay (.of (by decide) (Frame.inBoot (by rfl)))

theorem execThermalShutdownRelease_runs (bad fails : Bool) (s : State) :
    Runs [.regs, .reg, .power, .kettle, .boot, .units, .tiers, .ftl, .near] s (execThermalShutdownRelease bad fails s) := by
  unfold execThermalShutdownRelease
  split
  · exact .stay
  · exact .ite .stay (.of (by decide) <| Frame.inPower.trans <| State.startControl_frame ..)

theorem execPlannedKettleRestart_runs (inp : StartInput) (s : State) :
    Runs [.regs, .tick, .freeCount, .reg, .power, .arb, .kettle, .boot, .eflash, .host, .cp, .units, .tiers, .time, .ftl, .nand,
      .near, .snilo, .rel, .hbm, .sb, .hostMem, .image, .pages] s (execPlannedKettleRestart inp s) := by
  unfold execPlannedKettleRestart
  exact .ite .stay (.of (by decide) <| (Frame.cond (State.stagingFlush_frame ..) .same).trans <| (State.planeReset_frame ..).trans <|
    State.startUp_frame ..)

theorem execPcieLinkReplay_runs (lane : Nat) (s : State) :
    Runs [.regs, .reg, .arb, .kettle, .host, .units, .rel] s (execPcieLinkReplay lane s) := by
  unfold execPcieLinkReplay
  exact .ite .stay (.of (by decide) <| (State.err_frame ..).trans <| State.countEvent_frame ..)

theorem execPcieConfigurationWrite_runs (what v : Nat) (fn : Nat) (s : State) :
    Runs [.regs, .freeCount, .reg, .arb, .kettle, .host, .cp, .units, .tiers, .time, .ftl, .near, .hbm, .sb, .hostMem]
      s (execPcieConfigurationWrite what v s fn) := by
  unfold execPcieConfigurationWrite
  exact .ite .stay (.ite (.of (by decide) (Frame.inHost (by rfl))) (.ite .stay (.of (by decide) <| (Frame.inHost (by rfl)).trans <|
    State.configure_frame ..)))

theorem execInterruptCoalescingTimeout_runs (fn iv : Nat) (s : State) :
    Runs [.reg, .kettle, .host, .units] s (execInterruptCoalescingTimeout fn iv s) := by
  unfold execInterruptCoalescingTimeout
  exact .ite .stay (.of (by decide) <| (Frame.inHost (by rfl)).trans <| State.pcie_frame ..)

/-! ### The commands of modes and register pages -/

theorem execOpRequestWrite_runs (v : Nat) (s : State) : Runs [.regs, .power] s (execOpRequestWrite v s) := by
  unfold execOpRequestWrite
  exact .ite .stay (.of (by decide) <| (State.fset_frame ..).trans <| State.driveOp_frame ..)

theorem execBoostAllowWrite_runs (v : Bool) (s : State) : Runs [.regs, .power] s (execBoostAllowWrite v s) := by
  unfold execBoostAllowWrite
  exact .ite .stay (.of (by decide) <| (State.fset_frame ..).trans <| (State.trackOp5_frame ..).trans <| State.driveOp_frame ..)

theorem execRampComplete_runs (s : State) : Runs [.regs, .reg, .power, .kettle] s (execRampComplete s) := by
  unfold execRampComplete
  split
  · exact .stay
  · exact .ite .stay (.ite (.of (by decide) <| (State.settleRamp_frame ..).trans <| State.driveOp_frame ..)
      (.of (by decide) <| (State.settleRamp_frame ..).trans <|
    (State.driveOp_frame ..).trans <| (State.setPs_frame ..).trans <| State.fset_frame ..))

theorem execOp5ConditionFail_runs (s : State) : Runs [.regs, .power] s (execOp5ConditionFail s) := by
  unfold execOp5ConditionFail
  exact .ite .stay (.of (by decide) <| (State.trackOp5_frame ..).trans <| State.driveOp_frame ..)

theorem execOp5HoldExpiry_runs (s : State) : Runs [.regs, .power] s (execOp5HoldExpiry s) := by
  unfold execOp5HoldExpiry
  exact .ite (.of (by decide) (State.driveOp_frame ..)) .stay

theorem execRateWindowEnd_runs (c inst n : Nat) (s : State) :
    Runs [.regs, .reg, .arb, .kettle, .host, .units] s (execRateWindowEnd c inst n s) := by
  unfold execRateWindowEnd
  split
  · exact .stay
  · refine .ite .stay ?_
    extract_lets +onlyGivenNames k m e s1
    have hs1 : Frame _ s s1 := (State.fset_frame ..).trans <| State.fset_frame ..
    extract_lets +onlyGivenNames -merge src s2
    have hs2 : Frame _ s s2 := hs1.trans <| Frame.inReg
    exact .ite (.of (by decide) <| hs2.trans <| Frame.inKettle.trans <| State.err_frame ..) (.of (by decide) <| hs2.trans <| Frame.inKettle)

theorem execHandshakeStall_runs (c inst r info ctx : Nat) (whole : Bool) (s : State) :
    Runs [.regs, .freeCount, .reg, .arb, .kettle, .host, .cp, .units, .tiers, .ftl, .near, .hbm, .sb, .hostMem]
      s (execHandshakeStall c inst r info ctx whole s) := by
  unfold execHandshakeStall
  extract_lets +onlyGivenNames inj
  refine .ite .stay (.ite (.of (by decide) (State.drainFault_frame ..)) (.ite (.of (by decide) (Frame.cond (State.griddleFault_frame ..)
    (State.regionFault_frame ..))) ?_))
  extract_lets +onlyGivenNames who s1
  have hs1 : Frame _ s s1 := Frame.cond (State.faultUnit_frame ..) (State.err_frame ..)
  exact .of (by decide) (Frame.cond ((Frame.cond hs1 (hs1.trans <| State.classify_frame ..)).trans <| State.faultCtx_frame ..) (Frame.cond hs1
    (hs1.trans <| State.classify_frame ..)))

theorem execArbiterGrant_runs (cp inst : Nat) (new : List (Nat × Nat × Nat)) (together : Bool) (s : State) :
    Runs [.freeCount, .reg, .arb, .cp] s (execArbiterGrant cp inst new s together) := by
  unfold execArbiterGrant
  refine .ite .stay ?_
  extract_lets +onlyGivenNames ws l
  split
  next k s1 h =>
    have hs1 : Frame _ s s1 := (State.withRequests_frame ..).trans <| (State.draw_frame _).snd h
    split
    · exact .of (by decide) <| hs1.trans <| (State.grant_frame ..).trans <| State.noteGrant_frame ..
    · exact .of (by decide) (State.withRequests_frame ..)

theorem execLockstepSlot_runs (cp inst sl : Nat) (new : List (Nat × Nat × Nat)) (s : State) :
    Runs [.regs, .reg, .arb, .kettle, .cp] s (execLockstepSlot cp inst sl new s) := by
  unfold execLockstepSlot
  exact .ite .stay (.of (by decide) <| (State.withRequests_frame ..).trans <| (Frame.fold fun _ _ => State.slip_frame ..).trans <|
    State.grantSlot_frame ..)

theorem execDetModeRequestWrite_runs (v : Bool) (s : State) : Runs [.regs] s (execDetModeRequestWrite v s) := by
  unfold execDetModeRequestWrite
  exact .ite .stay (.of (by decide) <| (State.fset_frame ..).trans <| State.fset_frame ..)

theorem execDetModeToLockstep_runs (s : State) : Runs [.regs, .reg, .arb, .kettle] s (execDetModeToLockstep s) := by
  unfold execDetModeToLockstep
  exact .ite (.of (by decide) (State.switchDet_frame ..)) .stay

theorem execDetModeToFree_runs (s : State) : Runs [.regs, .reg, .arb, .kettle] s (execDetModeToFree s) := by
  unfold execDetModeToFree
  exact .ite (.of (by decide) (State.switchDet_frame ..)) .stay

theorem execArm_runs (s : State) : Runs [.regs, .arb] s (execArm s) := by
  unfold execArm
  exact .ite .stay (.of (by decide) <| (State.fset_frame ..).trans <| (State.fset64_frame ..).trans <| (State.fset_frame ..).trans <|
    (State.fset_frame ..).trans <| (State.fset_frame ..).trans <| Frame.inArb)

theorem execLockstepArmTick_runs (s : State) : Runs [.regs, .arb] s (execLockstepArmTick s) := by
  unfold execLockstepArmTick
  split
  · exact .ite .stay (.of (by decide) <| (State.fset64_frame ..).trans <| (State.fset_frame ..).trans <| Frame.inArb)
  · exact .stay

theorem execBadAccess_runs (a size : Nat) (write : Bool) (s : State) :
    Runs [.regs, .reg, .arb, .kettle, .units] s (execBadAccess a size write s) := by
  unfold execBadAccess
  exact .ite .stay (State.access_frame (by decide) (fun s => (Frame.cond (State.fbump_frame ..) ((State.fbump_frame ..).trans <|
    State.answer_frame ..)).within (by decide)))

theorem execRegisterWrite_runs (a v : Nat) (wide : Bool) (s : State) :
    Runs [.regs, .freeCount, .reg, .arb, .kettle, .host, .units] s (execRegisterWrite a v wide s) := by
  unfold execRegisterWrite
  extract_lets +onlyGivenNames c i off
  exact .ite .stay (State.access_frame (by decide) (fun s => (Frame.cond (State.writeWord_frame ..)
    (Frame.cond ((State.writeWord_frame ..).trans <| State.commitPair_frame ..) ((State.writeWord_frame ..).trans <|
    State.writeWord_frame ..))).within (by decide)))

theorem execReadLoLatch_runs (a : Nat) (wide : Bool) (s : State) :
    Runs [.regs, .reg, .arb, .kettle, .host, .units] s (execReadLoLatch a wide s) := by
  unfold execReadLoLatch
  exact .ite .stay (State.access_frame (by decide) (fun s => (Frame.cond (State.readTwice_frame ..) (State.readOnce_frame ..)).within (by decide)))

theorem execReadClear_runs (a : Nat) (s : State) : Runs [.regs, .reg, .arb, .kettle, .host, .units] s (execReadClear a s) := by
  unfold execReadClear
  exact .ite .stay (State.access_frame (by decide) (fun s => (State.readOnce_frame ..).within (by decide)))

theorem execPairHiWrite_runs (a v : Nat) (s : State) : Runs [.regs, .reg, .arb, .kettle, .units] s (execPairHiWrite a v s) := by
  unfold execPairHiWrite
  exact .ite .stay (State.access_frame (by decide) (fun s => (State.commitPair_frame ..).within (by decide)))

theorem execProxyReadTimeout_runs (inst off : Nat) (s : State) :
    Runs [.regs, .reg, .arb, .kettle, .host, .units, .rel] s (execProxyReadTimeout inst off s) := by
  unfold execProxyReadTimeout
  exact .ite .stay (.of (by decide) <| Frame.inReg.trans <| (State.answer_frame ..).trans <| (State.setLink_frame ..).trans <|
    State.unreached_frame ..)

theorem execProxyWriteDropped_runs (inst : Nat) (s : State) :
    Runs [.regs, .reg, .arb, .kettle, .host, .units, .rel] s (execProxyWriteDropped inst s) := by
  unfold execProxyWriteDropped
  exact .ite .stay (.of (by decide) <| (State.setLink_frame ..).trans <| State.unreached_frame ..)

theorem execEnableWrite_runs (c inst : Nat) (v : Bool) (s : State) :
    Runs [.regs, .reg, .arb, .kettle, .host, .units] s (execEnableWrite c inst v s) := by
  unfold execEnableWrite
  extract_lets +onlyGivenNames st
  refine .ite .stay (.ite (.of (by decide) (Frame.cond .same (State.configReject_frame ..))) (.ite .stay (.ite (.of (by decide) (Frame.cond
    (State.configReject_frame ..) (State.putControl_frame ..))) ?_)))
  extract_lets +onlyGivenNames s1
  have hs1 : Frame _ s s1 := State.putControl_frame ..
  exact .ite (.of (by decide) (Frame.cond (hs1.trans <| State.toStarting_frame ..) hs1)) (.ite
    (.of (by decide) <| hs1.trans <| State.fset_frame ..) (.ite (.of (by decide) (Frame.cond hs1 (hs1.trans <| State.toState_frame ..)))
    (.of (by decide) <| hs1.trans <| State.fset_frame ..)))

theorem execDrainWrite_runs (c inst : Nat) (v : Bool) (s : State) :
    Runs [.regs, .reg, .arb, .kettle, .host, .units] s (execDrainWrite c inst v s) := by
  unfold execDrainWrite
  exact .ite .stay (.ite (.of (by decide) (Frame.cond .same (State.configReject_frame ..))) (.ite .stay
    (.of (by decide) (State.putControl_frame ..))))

theorem execPageReset_runs (c inst : Nat) (s : State) :
    Runs [.regs, .reg, .arb, .kettle, .host, .units, .ftl, .near] s (execPageReset c inst s) := by
  unfold execPageReset
  exact .ite .stay (.ite (.of (by decide) (State.resetErrors_frame ..)) (.ite (.of (by decide) (State.configReject_frame ..)) (.ite .stay (.ite
    (.of (by decide) (State.fset_frame ..)) (.of (by decide) (State.resetUnit_frame ..))))))

theorem execUnitStartComplete_runs (c inst : Nat) (ok : Bool) (s : State) :
    Runs [.regs, .reg, .arb, .kettle, .host, .cp, .units, .tiers, .ftl, .near, .hbm, .sb] s (execUnitStartComplete c inst ok s) := by
  unfold execUnitStartComplete
  refine .ite .stay (.ite (.of (by decide) (State.faultUnit_frame ..)) (.ite .stay (.ite (.of (by decide) <| (State.showCheck_frame ..).trans <|
    (State.setRegionState_frame ..).trans <| State.moveFaulted_frame ..) ?_)))
  extract_lets +onlyGivenNames s0
  have hs0 : Frame _ s s0 := Frame.cond (State.showCheck_frame ..) .same
  extract_lets +onlyGivenNames s1
  have hs1 : Frame _ s s1 := hs0.trans <| (State.startUnit_frame ..).trans <| State.toState_frame ..
  exact .ite (.of (by decide) <| hs1.trans <| Frame.inReg.trans <| State.resetUnit_frame ..) (.ite
    (.of (by decide) <| hs1.trans <| Frame.inReg.trans <| (State.fset_frame ..).trans <| State.toState_frame ..)
    (.of (by decide) <| hs1.trans <| Frame.inReg))

theorem execStartLimitExpiry_runs (c inst : Nat) (s : State) :
    Runs [.regs, .reg, .arb, .kettle, .host, .units] s (execStartLimitExpiry c inst s) := by
  unfold execStartLimitExpiry
  exact .ite (.of (by decide) (State.faultUnit_frame ..)) .stay

theorem execDrainComplete_runs (c inst : Nat) (s : State) :
    Runs [.regs, .reg, .kettle, .units, .ftl, .near] s (execDrainComplete c inst s) := by
  unfold execDrainComplete
  exact .ite .stay (.ite (.of (by decide) <| (State.toState_frame ..).trans <| State.resetUnit_frame ..) (.ite
    (.of (by decide) <| (State.toState_frame ..).trans <| (State.fset_frame ..).trans <| State.toStarting_frame ..)
    (.of (by decide) (State.toState_frame ..))))

theorem execErrStatusClear_runs (c inst mask : Nat) (fv : Bool) (s : State) : Runs [.regs] s (execErrStatusClear c inst mask fv s) := by
  unfold execErrStatusClear
  exact .ite .stay (.of (by decide) (Frame.cond ((State.fset_frame ..).trans <| State.fset_frame ..) (State.fset_frame ..)))

theorem execErrorCapture_runs (c inst b info ctx : Nat) (s : State) :
    Runs [.regs, .reg, .arb, .kettle, .host, .units] s (execErrorCapture c inst b info ctx s) := by
  unfold execErrorCapture
  exact .ite .stay (.ite (.of (by decide) (State.err_frame ..)) (.ite (.of (by decide) (State.faultUnit_frame ..)) .stay))

theorem execInjectGo_runs (c inst : Nat) (s : State) : Runs [.regs, .reg, .arb, .kettle, .host, .units] s (execInjectGo c inst s) := by
  unfold execInjectGo
  exact .ite .stay (.ite (.of (by decide) (State.configReject_frame ..)) (.ite .stay
    (.of (by decide) <| (State.fset_frame ..).trans <| Frame.inReg)))

theorem execSnapshotTrigger_runs (c inst : Nat) (s : State) : Runs [.regs, .reg] s (execSnapshotTrigger c inst s) := by
  unfold execSnapshotTrigger
  exact .ite .stay (.ite (.of (by decide) (State.fset_frame ..)) (.of (by decide) <| (State.fset_frame ..).trans <| Frame.inReg))

theorem execGlobalSnapshotTrigger_runs (s : State) : Runs [.regs, .reg] s (execGlobalSnapshotTrigger s) := by
  unfold execGlobalSnapshotTrigger
  exact .ite .stay (.of (by decide) <| (State.fset_frame ..).trans <| Frame.inReg)

theorem execSnapshotCapture_runs (s : State) : Runs [.regs, .reg, .kettle] s (execSnapshotCapture s) := by
  unfold execSnapshotCapture
  exact .of (by decide) (State.captureDue_frame ..)

theorem execTimeSourceRequestWrite_runs (v : Nat) (s : State) :
    Runs [.regs, .freeCount, .reg, .arb, .kettle, .host, .units, .time] s (execTimeSourceRequestWrite v s) := by
  unfold execTimeSourceRequestWrite
  refine .ite .stay (.ite (.of (by decide) (State.rejectMode_frame ..)) ?_)
  extract_lets +onlyGivenNames s1
  have hs1 : Frame _ s s1 := State.fset_frame ..
  refine .ite (.of (by decide) hs1) ?_
  extract_lets +onlyGivenNames s2
  have hs2 : Frame _ s s2 := hs1.trans <| State.enterHoldover_frame ..
  refine .ite ?_ (.of (by decide) hs2)
  split
  · exact .of (by decide) <| hs2.trans <| (State.lockSource_frame ..).trans <| State.activatePort_frame ..
  · exact .of (by decide) hs2

theorem execTestModeEnter_runs (key : Nat) (s : State) : Runs [.regs, .reg, .arb, .kettle, .host, .units] s (execTestModeEnter key s) := by
  unfold execTestModeEnter
  exact .ite .stay (.ite (.of (by decide) (State.rejectMode_frame ..)) (.ite (.of (by decide) (State.rejectMode_frame ..)) (.ite
    (.of (by decide) (State.rejectMode_frame ..)) (.of (by decide) <| (State.fset_frame ..).trans <| (State.fset_frame ..).trans <|
    State.recEv_frame ..))))

theorem execTestModeLeave_runs (s : State) :
    Runs [.regs, .freeCount, .reg, .arb, .kettle, .host, .cp, .units, .tiers, .ftl, .near, .hbm, .sb, .hostMem] s (execTestModeLeave s) := by
  unfold execTestModeLeave
  exact .ite .stay (.of (by decide) (State.endTest_frame ..))

/-! ### The commands of queues, administration and power states -/

theorem execSqDoorbell_runs (fn q tail : Nat) (s : State) :
    Runs [.regs, .reg, .power, .kettle, .host, .units] s (execSqDoorbell fn q tail s) := by
  unfold execSqDoorbell
  split
  · exact .stay
  · exact .ite .stay (.of (by decide) (Frame.cond ((Frame.inHost (by rfl)).trans <| (State.pcie_frame ..).trans <| (State.wake_frame ..).trans <|
    State.fbump_frame ..) ((Frame.inHost (by rfl)).trans <| (State.pcie_frame ..).trans <| State.wake_frame ..)))

theorem execCqDoorbell_runs (fn q n : Nat) (s : State) : Runs [.reg, .kettle, .host, .units] s (execCqDoorbell fn q n s) := by
  unfold execCqDoorbell
  split
  · exact .stay
  · exact .of (by decide) (Frame.cond ((Frame.inHost (by rfl)).trans <| (State.pcie_frame ..).trans <|
      (Frame.fold fun _ _ => State.place_frame ..)) .same)

theorem execCommandFetch_runs (cid : Nat) (slm : Bool) (s : State) :
    Runs [.reg, .arb, .kettle, .host, .units] s (execCommandFetch cid slm s) := by
  unfold execCommandFetch
  split
  · exact .stay
  · split
    · exact .stay
    · split
      · exact .stay
      · extract_lets +onlyGivenNames credit
        exact .of (by decide) (Frame.cond ((Frame.inHost (by rfl)).trans <| (State.pcie_frame ..).trans <|
          State.complete_frame ..) ((Frame.inHost (by rfl)).trans <| State.pcie_frame ..))

theorem execOverloadRaise_runs (k : Nat) (s : State) : Runs [.regs, .reg, .arb, .kettle, .host, .units] s (execOverloadRaise k s) := by
  unfold execOverloadRaise
  split
  · exact .stay
  · exact .ite .stay (.of (by decide) <| (Frame.inHost (by rfl)).trans <| (State.err_frame ..).trans <| (State.recEv_frame ..).trans <|
      State.aer_frame ..)

theorem execOverloadClear_runs (k : Nat) (s : State) : Runs [.regs, .reg, .arb, .kettle, .host, .units] s (execOverloadClear k s) := by
  unfold execOverloadClear
  split
  · exact .stay
  · exact .ite .stay (.of (by decide) <| (Frame.inHost (by rfl)).trans <| (State.recEv_frame ..).trans <| State.aer_frame ..)

theorem execIdentify_runs (cmd : CmdId) (cns nsid : Nat) (s : State) :
    Runs [.reg, .arb, .kettle, .host, .units] s (execIdentify cmd cns nsid s) := by
  unfold execIdentify
  refine .ite .stay (.ite (.of (by decide) (State.turnAway_frame ..)) ?_)
  split
  · exact .of (by decide) (State.succeed_frame ..)
  · exact .of (by decide) (State.complete_frame ..)

theorem execGetLogPage_runs (cmd : CmdId) (lid lsi lsp off n : Nat) (rae : Bool) (s : State) :
    Runs [.reg, .arb, .kettle, .host, .cp, .units] s (execGetLogPage cmd lid lsi lsp off n rae s) := by
  unfold execGetLogPage
  refine .ite .stay (.ite (.of (by decide) (State.turnAway_frame ..)) (.ite (.of (by decide) (State.complete_frame ..)) ?_))
  split
  · exact .of (by decide) (State.complete_frame ..)
  · extract_lets +onlyGivenNames s1
    have hs1 : Frame _ s s1 := (State.readPair_frame ..).trans <| (State.noteLogRead_frame ..).trans <| State.succeed_frame ..
    exact .of (by decide) (Frame.cond hs1 (hs1.trans <| State.rearmLog_frame ..))

theorem execFloorRatioOpenInterval_runs (cmd : CmdId) (off n : Nat) (s : State) :
    Runs [.reg, .arb, .kettle, .host, .units] s (execFloorRatioOpenInterval cmd off n s) := by
  unfold execFloorRatioOpenInterval
  exact .ite .stay (.ite (.of (by decide) (State.turnAway_frame ..)) (.of (by decide) (State.floorCommand_frame ..)))

theorem execFloorRatioCloseInterval_runs (cmd : CmdId) (off n : Nat) (s : State) :
    Runs [.reg, .arb, .kettle, .host, .units] s (execFloorRatioCloseInterval cmd off n s) := by
  unfold execFloorRatioCloseInterval
  exact .ite .stay (.ite (.of (by decide) (State.turnAway_frame ..)) (.of (by decide) (State.floorCommand_frame ..)))

theorem execGetFeatures_runs (cmd : CmdId) (fid cdw11 : Nat) (s : State) :
    Runs [.reg, .arb, .kettle, .host, .units] s (execGetFeatures cmd fid cdw11 s) := by
  unfold execGetFeatures
  refine .ite .stay (.ite (.of (by decide) (State.turnAway_frame ..)) ?_)
  split
  · exact .of (by decide) (State.succeed_frame ..)
  · exact .of (by decide) (State.complete_frame ..)

theorem execSetFeatures_runs (cmd : CmdId) (fid cdw11 : Nat) (data : List Byte) (s : State) :
    Runs [.reg, .arb, .kettle, .host, .units] s (execSetFeatures cmd fid cdw11 data s) := by
  unfold execSetFeatures
  extract_lets +onlyGivenNames fn
  exact .ite .stay (.ite (.of (by decide) (State.turnAway_frame ..)) (.ite (.of (by decide) (State.complete_frame ..)) (.ite
    (.of (by decide) (State.complete_frame ..)) (.ite (.of (by decide) <| (State.setFeature_frame ..).trans <| State.succeed_frame ..) (.ite
    (.of (by decide) <| (State.setFeature_frame ..).trans <| State.succeed_frame ..) (.ite (.ite (.of (by decide) (State.complete_frame ..))
    (.of (by decide) <| (State.setFeature_frame ..).trans <| State.succeed_frame ..)) (.ite
    (.of (by decide) <| (Frame.fold fun _ _ => State.setFeature_frame ..).trans <| (State.setFeature_frame ..).trans <| State.succeed_frame ..)
    (.of (by decide) <| (State.setFeature_frame ..).trans <| State.succeed_frame ..))))))))

theorem execSetFeaturesPowerManagement_runs (cmd : CmdId) (ps : Nat) (s : State) :
    Runs [.regs, .reg, .power, .arb, .kettle, .host, .units] s (execSetFeaturesPowerManagement cmd ps s) := by
  unfold execSetFeaturesPowerManagement
  exact .ite .stay (.ite (.of (by decide) (State.turnAway_frame ..)) (.ite (.of (by decide) (State.complete_frame ..))
    (.of (by decide) <| (State.requestPs_frame ..).trans <| State.succeed_frame ..)))

theorem execSetFeaturesContextQuota_runs (cmd : CmdId) (vf quota : Nat) (s : State) :
    Runs [.reg, .arb, .kettle, .host, .units] s (execSetFeaturesContextQuota cmd vf quota s) := by
  unfold execSetFeaturesContextQuota
  exact .ite .stay (.ite (.of (by decide) (State.turnAway_frame ..)) (.ite (.of (by decide) (State.complete_frame ..))
    (.of (by decide) <| (Frame.inHost (by rfl)).trans <| State.succeed_frame ..)))

theorem execCreateIoSq_runs (cmd : CmdId) (q size cq prio : Nat) (compute : Bool) (ctx low : Nat) (s : State) :
    Runs [.reg, .arb, .kettle, .host, .cp, .units] s (execCreateIoSq cmd q size cq prio compute ctx low s) := by
  unfold execCreateIoSq
  extract_lets +onlyGivenNames fn k mk
  have hmk (c : Option Nat) (t : State) : Frame _ t (mk c t) := (Frame.inHost (by rfl)).trans <| State.succeed_frame ..
  refine .ite .stay (.ite (.of (by decide) (State.turnAway_frame ..)) (.ite (.of (by decide) (State.complete_frame ..)) (.ite
    (.of (by decide) (State.complete_frame ..)) (.ite (.of (by decide) (State.complete_frame ..)) (.ite (.of (by decide) (State.complete_frame ..))
    (.ite (.of (by decide) (hmk ..)) ?_))))))
  split
  · exact .of (by decide) (State.complete_frame ..)
  · exact .ite (.of (by decide) (State.complete_frame ..)) (.ite (.of (by decide) (State.complete_frame ..))
      (.of (by decide) <| (State.setCtx_frame ..).trans <| hmk ..))

theorem execCreateIoCq_runs (cmd : CmdId) (q size : Nat) (ien : Bool) (iv : Nat) (s : State) :
    Runs [.reg, .arb, .kettle, .host, .units] s (execCreateIoCq cmd q size ien iv s) := by
  unfold execCreateIoCq
  exact .ite .stay (.ite (.of (by decide) (State.turnAway_frame ..)) (.ite (.of (by decide) (State.complete_frame ..)) (.ite
    (.of (by decide) (State.complete_frame ..)) (.ite (.of (by decide) (State.complete_frame ..))
    (.of (by decide) <| (Frame.inHost (by rfl)).trans <| State.succeed_frame ..)))))

theorem execDeleteIoSq_runs (cmd : CmdId) (q : Nat) (s : State) : Runs [.reg, .arb, .kettle, .host, .units] s (execDeleteIoSq cmd q s) := by
  unfold execDeleteIoSq
  extract_lets +onlyGivenNames fn
  refine .ite .stay (.ite (.of (by decide) (State.turnAway_frame ..)) ?_)
  split
  · exact .of (by decide) (State.complete_frame ..)
  · exact .ite (.of (by decide) (State.complete_frame ..)) (.of (by decide) <| (Frame.fold fun _ _ => State.complete_frame ..).trans <|
      (Frame.inHost (by rfl)).trans <|
    State.succeed_frame ..)

theorem execDeleteIoCq_runs (cmd : CmdId) (q : Nat) (s : State) : Runs [.reg, .arb, .kettle, .host, .units] s (execDeleteIoCq cmd q s) := by
  unfold execDeleteIoCq
  exact .ite .stay (.ite (.of (by decide) (State.turnAway_frame ..)) (.ite (.of (by decide) (State.complete_frame ..)) (.ite
    (.of (by decide) (State.complete_frame ..)) (.of (by decide) <| (Frame.inHost (by rfl)).trans <| State.succeed_frame ..))))

theorem execAbort_runs (cmd : CmdId) (sqid cid : Nat) (s : State) :
    Runs [.regs, .reg, .arb, .kettle, .host, .cp, .units] s (execAbort cmd sqid cid s) := by
  unfold execAbort
  extract_lets +onlyGivenNames fn target
  refine .ite .stay (.ite (.of (by decide) (State.turnAway_frame ..)) (.ite (.of (by decide) (State.complete_frame ..)) ?_))
  split
  · exact .of (by decide) (State.abortMissed_frame ..)
  · split
    · exact .of (by decide) (State.abortMissed_frame ..)
    · split
      · exact .of (by decide) (State.abortMissed_frame ..)
      · exact .of (by decide) <| (State.setCtrl_frame ..).trans <| State.setCtx_frame ..
    · exact .of (by decide) <| (State.complete_frame ..).trans <| (State.afterCatch_frame ..).trans <| (State.fbump_frame ..).trans <|
      State.complete_frame ..
    · exact .of (by decide) (State.abortMissed_frame ..)
    · exact .of (by decide) <| (State.complete_frame ..).trans <| (State.fbump_frame ..).trans <| State.complete_frame ..

theorem execAbortTimeout_runs (cmd : CmdId) (s : State) :
    Runs [.regs, .reg, .arb, .kettle, .host, .cp, .units] s (execAbortTimeout cmd s) := by
  unfold execAbortTimeout
  extract_lets +onlyGivenNames k
  split
  · exact .stay
  · exact .ite .stay (.of (by decide) <| (Frame.cond (State.setCtrl_frame ..) ((State.setCtrl_frame ..).trans <| (Frame.inCp (by rfl)))).trans <|
    State.abortMissed_frame ..)

theorem execAsyncEventRequest_runs (cmd : CmdId) (s : State) :
    Runs [.reg, .arb, .kettle, .host, .units] s (execAsyncEventRequest cmd s) := by
  unfold execAsyncEventRequest
  extract_lets +onlyGivenNames c
  refine .ite .stay (.ite (.of (by decide) (State.turnAway_frame ..)) (.ite (.of (by decide) (State.complete_frame ..)) ?_))
  split
  · exact .of (by decide) <| (State.setCtrl_frame ..).trans <| State.complete_frame ..
  · exact .of (by decide) <| (State.setCtrl_frame ..).trans <| State.freeIntake_frame ..

theorem execAsyncEventPost_runs (fn type info : Nat) (s : State) :
    Runs [.reg, .arb, .kettle, .host, .units] s (execAsyncEventPost fn type info s) := by
  unfold execAsyncEventPost
  exact .ite .stay (.ite (.of (by decide) (State.aerWarn_frame ..)) (.ite (.of (by decide) (State.aer_frame ..)) .stay))

theorem execNvmeMiSend_runs (cmd : CmdId) (r : MiRequest) (s : State) :
    Runs [.reg, .arb, .kettle, .host, .units] s (execNvmeMiSend cmd r s) := by
  unfold execNvmeMiSend
  exact .ite .stay (.ite (.of (by decide) (State.complete_frame ..)) (.ite (.of (by decide) (State.turnAway_frame ..))
    (.of (by decide) <| (State.miServe_frame ..).trans <| Frame.inKettle.trans <| State.succeed_frame ..)))

theorem execNvmeMiReceive_runs (cmd : CmdId) (n : Nat) (s : State) :
    Runs [.reg, .arb, .kettle, .host, .units] s (execNvmeMiReceive cmd n s) := by
  unfold execNvmeMiReceive
  refine .ite .stay (.ite (.of (by decide) (State.complete_frame ..)) (.ite (.of (by decide) (State.turnAway_frame ..)) ?_))
  split
  · exact .of (by decide) (State.succeed_frame ..)
  · exact .of (by decide) <| Frame.inKettle.trans <| State.succeed_frame ..

theorem execResumeContext_runs (cmd : CmdId) (c : Nat) (discard : Bool) (s : State) :
    Runs [.reg, .arb, .kettle, .host, .cp, .units] s (execResumeContext cmd c discard s) := by
  unfold execResumeContext
  refine .ite .stay (.ite (.of (by decide) (State.turnAway_frame ..)) ?_)
  split
  · exact .of (by decide) (State.complete_frame ..)
  · exact .ite (.of (by decide) (State.complete_frame ..)) (.ite (.of (by decide) (State.complete_frame ..)) (.ite
      (.of (by decide) (State.complete_frame ..)) (.ite (.of (by decide)
    (State.complete_frame ..)) (.of (by decide) <| (Frame.cond ((State.serveIntake_frame ..).trans <|
    (Frame.fold fun _ _ => State.complete_frame ..)) (State.serveIntake_frame ..)).trans <| (State.setCtx_frame ..).trans <|
    State.succeed_frame ..))))

theorem execTearDownContext_runs (cmd : CmdId) (c : Nat) (s : State) :
    Runs [.regs, .freeCount, .reg, .arb, .kettle, .host, .cp, .units, .tiers, .near, .hbm, .sb, .hostMem] s (execTearDownContext cmd c s) := by
  unfold execTearDownContext
  refine .ite .stay (.ite (.of (by decide) (State.turnAway_frame ..)) ?_)
  split
  · exact .of (by decide) (State.complete_frame ..)
  · refine .ite (.of (by decide) (State.complete_frame ..)) ?_
    refine .ite (.of (by decide) (State.complete_frame ..)) ?_
    extract_lets +onlyGivenNames s1
    have hs1 : Frame _ s s1 := (State.holdAdmin_frame ..).trans <| State.startTear_frame ..
    split
    · exact .of (by decide) <| hs1.trans <| State.setCtx_frame ..
    · exact .of (by decide) hs1

theorem execTimeQuery_runs (cmd : CmdId) (s : State) : Runs [.reg, .arb, .kettle, .host, .units] s (execTimeQuery cmd s) := by
  unfold execTimeQuery
  exact .ite .stay (.ite (.of (by decide) (State.turnAway_frame ..)) (.of (by decide) <| (State.serve_frame ..).trans <| State.succeed_frame ..))

theorem execAdminUnsupported_runs (cmd : CmdId) (s : State) : Runs [.reg, .arb, .kettle, .host, .units] s (execAdminUnsupported cmd s) := by
  unfold execAdminUnsupported
  exact .ite .stay (.of (by decide) (State.complete_frame ..))

theorem execExecuteProgram_runs (cmd : CmdId) (nsid cdw10 cdw11 limit cdw13 : Nat) (dptr : List (Nat × Nat)) (s : State) :
    Runs [.regs, .reg, .arb, .kettle, .host, .cp, .units] s (execExecuteProgram cmd nsid cdw10 cdw11 limit cdw13 dptr s) := by
  unfold execExecuteProgram
  exact State.onCompute_frame (by decide) (fun c x => ((State.holdCompute_frame ..).trans <| State.nowWaits_frame ..).within (by decide))

theorem execLoadProgram_runs (cmd : CmdId) (nsid slot off : Nat) (data : List Byte) (s : State) :
    Runs [.regs, .reg, .arb, .kettle, .host, .cp, .units] s (execLoadProgram cmd nsid slot off data s) := by
  unfold execLoadProgram
  exact State.onCompute_frame (by decide) (fun c x => (State.queueOp_frame ..).within (by decide))

theorem execProgramActivationManagement_runs (cmd : CmdId) (nsid slot : Nat) (on : Bool) (s : State) :
    Runs [.regs, .reg, .arb, .kettle, .host, .cp, .units] s (execProgramActivationManagement cmd nsid slot on s) := by
  unfold execProgramActivationManagement
  exact State.onCompute_frame (by decide) (fun c x => (State.queueOp_frame ..).within (by decide))

theorem execMemoryRangeSetManagement_runs (cmd : CmdId) (nsid set : Nat) (rs : List (Nat × Nat × Nat)) (s : State) :
    Runs [.regs, .reg, .arb, .kettle, .host, .cp, .units] s (execMemoryRangeSetManagement cmd nsid set rs s) := by
  unfold execMemoryRangeSetManagement
  exact State.onCompute_frame (by decide) (fun c x => (State.queueOp_frame ..).within (by decide))

theorem execApstIdleExpiry_runs (s : State) : Runs [.regs, .reg, .power, .kettle, .host] s (execApstIdleExpiry s) := by
  unfold execApstIdleExpiry
  exact .ite (.of (by decide) (State.requestPs_frame ..)) .stay

theorem execPsEntryStart_runs (s : State) : Runs [.regs, .arb, .host] s (execPsEntryStart s) := by
  unfold execPsEntryStart
  split
  · exact .stay
  · exact .ite .stay (.of (by decide) <| (State.fset_frame ..).trans <| (State.fset_frame ..).trans <| (Frame.inArbHost (by rfl)))

theorem execPsEntryComplete_runs (s : State) :
    Runs [.regs, .freeCount, .reg, .power, .arb, .kettle, .host, .units, .tiers, .time, .ftl, .near] s (execPsEntryComplete s) := by
  unfold execPsEntryComplete
  split
  · exact .stay
  · refine .ite .stay ?_
    extract_lets +onlyGivenNames s1
    have hs1 : Frame _ s s1 := (State.flush_frame ..).trans <| (State.setPs_frame ..).trans <| (State.fbump_frame ..).trans <|
      State.selfRefresh_frame ..
    extract_lets +onlyGivenNames s2
    have hs2 : Frame _ s s2 := Frame.cond (hs1.trans <| State.enterPs4_frame ..) hs1
    exact .of (by decide) (Frame.cond (hs2.trans <| (State.fset_frame ..).trans <| (Frame.inHost (by rfl)).trans <|
      State.beginExit_frame ..) (hs2.trans <| (State.fset_frame ..).trans <| (Frame.inHost (by rfl))))

theorem execPsExitComplete_runs (s : State) : Runs [.regs, .reg, .power, .kettle, .host] s (execPsExitComplete s) := by
  unfold execPsExitComplete
  exact .ite .stay (.of (by decide) <| (State.setPs_frame ..).trans <| (State.fset_frame ..).trans <| (State.selfRefresh_frame ..).trans <|
    (Frame.inHost (by rfl)).trans <| State.driveOp_frame ..)

/-! ### The commands of NVM and namespaces -/

theorem execMediaReadOnlyEntry_runs (s : State) :
    Runs [.regs, .reg, .arb, .kettle, .eflash, .host, .units, .ftl] s (execMediaReadOnlyEntry s) := by
  unfold execMediaReadOnlyEntry
  exact .ite (.of (by decide) <| (State.refreshMargin_frame ..).trans <| State.enterReadOnly_frame ..) .stay

theorem execNamespaceManagement_runs (cmd : CmdId) (create slm : Bool) (nsid size lbaf pset : Nat) (s : State) :
    Runs [.regs, .freeCount, .reg, .arb, .kettle, .host, .cp, .units, .tiers, .ftl, .near, .hbm, .sb, .hostMem]
      s (execNamespaceManagement cmd create slm nsid size lbaf pset s) := by
  unfold execNamespaceManagement
  exact State.onAdmin_frame (by decide) ((Frame.cond ((State.pcie_frame ..).trans <| State.createNs_frame ..) (Frame.cond
    (State.complete_frame ..) (Frame.cond (State.complete_frame ..) ((Frame.fold fun _ _ => State.deleteNs_frame ..).trans <|
    (State.flush_frame ..).trans <| State.succeed_frame ..)))).within (by decide))

theorem execNamespaceAttachment_runs (cmd : CmdId) (nsid : Nat) (attach : Bool) (fns : List Nat) (s : State) :
    Runs [.regs, .freeCount, .reg, .arb, .kettle, .host, .units, .tiers, .ftl] s (execNamespaceAttachment cmd nsid attach fns s) := by
  unfold execNamespaceAttachment
  refine State.onAdmin_frame (by decide) ?_
  split
  · exact (Frame.cond (State.complete_frame ..) (State.complete_frame ..)).within (by decide)
  · exact (Frame.cond (State.complete_frame ..) (Frame.cond (State.complete_frame ..) (Frame.cond
    (State.complete_frame ..) ((Frame.cond ((State.pcie_frame ..).trans <| (State.putNs_frame ..).trans <|
    State.dropNsCopies_frame ..) ((State.pcie_frame ..).trans <| State.putNs_frame ..)).trans <| (State.nsChanged_frame ..).trans <|
    (State.flush_frame ..).trans <| State.succeed_frame ..)))).within (by decide)

theorem execFormatNvm_runs (cmd : CmdId) (nsid lbaf ses : Nat) (s : State) :
    Runs [.regs, .freeCount, .reg, .arb, .kettle, .host, .cp, .units, .tiers, .ftl, .near, .hbm, .sb, .hostMem]
      s (execFormatNvm cmd nsid lbaf ses s) := by
  unfold execFormatNvm
  exact State.onAdmin_frame (by decide) ((Frame.cond (State.complete_frame ..) (Frame.cond (State.complete_frame ..) (Frame.cond
    (State.complete_frame ..) ((Frame.fold fun _ _ => State.formatNs_frame ..).trans <| (State.flush_frame ..).trans <|
    State.succeed_frame ..)))).within (by decide))

theorem execSanitize_runs (cmd : CmdId) (action pattern : Nat) (noDealloc : Bool) (s : State) :
    Runs [.regs, .freeCount, .reg, .arb, .kettle, .eflash, .host, .cp, .units, .tiers, .ftl, .near, .hbm, .sb, .hostMem]
      s (execSanitize cmd action pattern noDealloc s) := by
  unfold execSanitize
  refine .ite .stay (.ite (.of (by decide) (State.complete_frame ..)) (.ite (.of (by decide) (State.turnAway_frame ..)) (.ite
    (.of (by decide) (State.complete_frame ..)) (.ite (.of (by decide) (State.complete_frame ..)) (.ite
    (.of (by decide) (State.complete_frame ..)) ?_)))))
  extract_lets +onlyGivenNames s1
  have hs1 : Frame _ s s1 := (State.faultMoves_frame ..).trans <| (State.faultSteps_frame ..).trans <| State.dropCopies_frame ..
  extract_lets +onlyGivenNames -merge src src1 s2
  have hs2 : Frame _ s s2 := hs1.trans <| .inFtlTiersHbm fun h => wf_foldl _ (fun m t hm => wf_fill m _ _ _ hm) _ h _
  exact .of (by decide) <| hs2.trans <| (State.fset_frame ..).trans <| (State.setMedia_frame ..).trans <| State.succeed_frame ..

theorem execSanitizeProgress_runs (s : State) : Runs [.regs, .freeCount, .reg, .ftl] s (execSanitizeProgress s) := by
  unfold execSanitizeProgress
  exact .ite .stay (.of (by decide) <| Frame.inFtl.trans <| State.flush_frame ..)

theorem execSanitizeComplete_runs (s : State) :
    Runs [.regs, .freeCount, .reg, .arb, .kettle, .eflash, .host, .units, .tiers, .ftl, .nand, .pages] s (execSanitizeComplete s) := by
  unfold execSanitizeComplete
  refine .ite .stay ?_
  extract_lets +onlyGivenNames nvm s1
  have hs1 : Frame _ s s1 := Frame.fold fun _ _ => State.unmapNs_frame ..
  extract_lets +onlyGivenNames s2
  have hs2 : Frame _ s s2 := hs1.trans <| (Frame.fold fun _ _ => State.newKey_frame ..)
  extract_lets +onlyGivenNames s3
  have hs3 : Frame _ s s3 := (Frame.cond (hs2.trans <| State.scrambleAll_frame ..) (hs2.trans <| State.eraseAll_frame ..)).trans <|
    State.dropCopies_frame ..
  exact .of (by decide) <| hs3.trans <| (Frame.inFtlHost (by rfl)).trans <| (State.flush_frame ..).trans <| (State.refreshMargin_frame ..).trans <|
    (State.fset_frame ..).trans <| (State.setMedia_frame ..).trans <| State.aer_frame ..

theorem execSanitizeFail_runs (info : Nat) (s : State) :
    Runs [.regs, .reg, .arb, .kettle, .eflash, .host, .units] s (execSanitizeFail info s) := by
  unfold execSanitizeFail
  exact .ite .stay (.of (by decide) <| (State.setMedia_frame ..).trans <| (State.err_frame ..).trans <| State.fset_frame ..)

theorem execSecuritySend_runs (cmd : CmdId) (proto : Nat) (m : OpalMethod) (auth : Bool) (data : List Byte) (s : State) :
    Runs [.regs, .freeCount, .reg, .arb, .kettle, .host, .units, .tiers, .ftl] s (execSecuritySend cmd proto m auth data s) := by
  unfold execSecuritySend
  refine State.onAdmin_frame (by decide) ?_
  extract_lets +onlyGivenNames s0
  have hs0 : Frame _ s s0 := State.pcie_frame ..
  extract_lets +onlyGivenNames s1
  have hs1 : Frame [.regs, .freeCount, .reg, .arb, .kettle, .host, .units, .tiers, .ftl] s s1 := by
    unfold s1
    refine .ite (hs0.within (by decide)) ?_
    split
    · exact hs0.within (by decide)
    · exact (hs0.trans <| (State.lockRange_frame ..).trans <| State.flush_frame ..).within (by decide)
    · exact (hs0.trans <| (State.defineRange_frame ..).trans <| State.flush_frame ..).within (by decide)
    · exact (hs0.trans <| (State.genKey_frame ..).trans <| State.flush_frame ..).within (by decide)
  exact (Frame.cond (State.complete_frame ..) (hs1.trans <| Frame.inFtl.trans <| State.succeed_frame ..)).within (by decide)

theorem execSecurityReceive_runs (cmd : CmdId) (proto : Nat) (s : State) :
    Runs [.reg, .arb, .kettle, .host, .units, .ftl] s (execSecurityReceive cmd proto s) := by
  unfold execSecurityReceive
  refine .ite .stay (.ite (.of (by decide) (State.complete_frame ..)) (.ite (.of (by decide) (State.turnAway_frame ..)) (.ite
    (.of (by decide) (State.complete_frame ..)) (.ite (.of (by decide) (State.succeed_frame ..)) ?_))))
  split
  · exact .of (by decide) (State.succeed_frame ..)
  · exact .of (by decide) <| Frame.inFtl.trans <| State.succeed_frame ..

theorem execCollectionDescriptorSet_runs (cmd : CmdId) (id c : Nat) (data : List Byte) (s : State) :
    Runs [.reg, .arb, .kettle, .host, .units, .ftl, .near] s (execCollectionDescriptorSet cmd id c data s) := by
  unfold execCollectionDescriptorSet
  extract_lets +onlyGivenNames k d
  refine .ite .stay (.ite (.of (by decide) (State.turnAway_frame ..)) ?_)
  split
  · exact .of (by decide) (State.complete_frame ..)
  · exact .ite (.of (by decide) (State.complete_frame ..)) (.ite (.of (by decide) (State.complete_frame ..)) (.ite
      (.of (by decide) <| (State.pcie_frame ..).trans <|
    Frame.inNear.trans <| State.succeed_frame ..) (.ite (.of (by decide) (State.complete_frame ..))
    (.of (by decide) <| (State.pcie_frame ..).trans <| Frame.inFtlNear.trans <| State.succeed_frame ..))))

theorem execCollectionDescriptorGet_runs (cmd : CmdId) (id : Nat) (s : State) :
    Runs [.reg, .arb, .kettle, .host, .units] s (execCollectionDescriptorGet cmd id s) := by
  unfold execCollectionDescriptorGet
  refine .ite .stay (.ite (.of (by decide) (State.turnAway_frame ..)) ?_)
  split
  · exact .of (by decide) (State.succeed_frame ..)
  · exact .of (by decide) (State.complete_frame ..)

theorem execNvmRead_runs (cmd : CmdId) (ns slba nlb : Nat) (lr hard : Bool) (s : State) :
    Runs [.regs, .reg, .arb, .kettle, .host, .cp, .units, .tiers] s (execNvmRead cmd ns slba nlb lr hard s) := by
  unfold execNvmRead
  refine State.onRange_frame (by decide) (fun off n => ?_)
  split
  · exact (State.readFails_frame ..).within (by decide)
  · exact (Frame.cond (State.readFails_frame ..) ((State.hostReads_frame ..).trans <| (State.heatT2_frame ..).trans <|
    (State.smartAdd_frame ..).trans <| (State.smartAdd_frame ..).trans <| State.succeed_frame ..)).within (by decide)

theorem execNvmWrite_runs (cmd : CmdId) (ns slba : Nat) (data : List Byte) (s : State) :
    Runs [.regs, .reg, .arb, .kettle, .host, .cp, .units, .tiers, .ftl] s (execNvmWrite cmd ns slba data s) := by
  unfold execNvmWrite
  extract_lets +onlyGivenNames b
  refine State.onRange_frame (by decide) (fun off n => ?_)
  split
  · exact (State.readFails_frame ..).within (by decide)
  · exact (Frame.cond (State.waitSlots_frame ..) ((State.copiesOnWrite_frame ..).trans <| (State.nvmWrite_frame ..).trans <|
    (State.pcie_frame ..).trans <| (State.smartAdd_frame ..).trans <| (State.smartAdd_frame ..).trans <| State.succeed_frame ..)).within (by decide)

theorem execNvmFlush_runs (cmd : CmdId) (ns : Nat) (s : State) :
    Runs [.regs, .reg, .arb, .kettle, .host, .cp, .units] s (execNvmFlush cmd ns s) := by
  unfold execNvmFlush
  refine State.onNs_frame (by decide) ?_
  split
  · exact .of (by decide) (State.complete_frame ..)
  · exact .of (by decide) (State.succeed_frame ..)

theorem execNvmWriteZeroes_runs (cmd : CmdId) (ns slba nlb : Nat) (s : State) :
    Runs [.regs, .freeCount, .reg, .arb, .kettle, .host, .cp, .units, .tiers, .ftl] s (execNvmWriteZeroes cmd ns slba nlb s) := by
  unfold execNvmWriteZeroes
  refine State.onRange_frame (by decide) (fun off n => ?_)
  split
  · exact (State.readFails_frame ..).within (by decide)
  · exact (Frame.cond (State.waitSlots_frame ..) ((State.clearRange_frame ..).trans <| State.succeed_frame ..)).within (by decide)

theorem execDatasetManagementDeallocate_runs (cmd : CmdId) (ns : Nat) (ad : Bool) (rs : List (Nat × Nat)) (s : State) :
    Runs [.regs, .freeCount, .reg, .arb, .kettle, .host, .cp, .units, .tiers, .ftl] s (execDatasetManagementDeallocate cmd ns ad rs s) := by
  unfold execDatasetManagementDeallocate
  refine State.onNs_frame (by decide) ?_
  split
  · exact .of (by decide) (State.complete_frame ..)
  · extract_lets +onlyGivenNames l
    extract_lets +onlyGivenNames s0
    have hs0 : Frame _ s s0 := State.pcie_frame ..
    refine .ite (.of (by decide) <| hs0.trans <| State.succeed_frame ..) (.ite (.of (by decide) (State.complete_frame ..)) (.ite
      (.of (by decide) (State.complete_frame ..)) (.ite (.of (by decide) (State.complete_frame ..)) ?_)))
    split
    · exact .of (by decide) (State.readFails_frame ..)
    · exact .ite (.of (by decide) (State.waitSlots_frame ..)) (.of (by decide) <| hs0.trans <|
        (Frame.fold fun _ _ => State.clearRange_frame ..).trans <|
      State.succeed_frame ..)

theorem execNvmCompare_runs (cmd : CmdId) (ns slba : Nat) (data : List Byte) (lr hard : Bool) (s : State) :
    Runs [.regs, .reg, .arb, .kettle, .host, .cp, .units] s (execNvmCompare cmd ns slba data lr hard s) := by
  unfold execNvmCompare
  extract_lets +onlyGivenNames b
  refine State.onRange_frame (by decide) (fun off n => ?_)
  split
  · exact (State.readFails_frame ..).within (by decide)
  · exact (Frame.cond (State.readFails_frame ..) (Frame.cond ((State.hostReads_frame ..).trans <| (State.pcie_frame ..).trans <|
    (State.smartAdd_frame ..).trans <| State.succeed_frame ..) ((State.hostReads_frame ..).trans <| (State.pcie_frame ..).trans <|
    (State.smartAdd_frame ..).trans <| State.complete_frame ..))).within (by decide)

theorem execNvmVerify_runs (cmd : CmdId) (ns slba nlb : Nat) (lr hard : Bool) (s : State) :
    Runs [.regs, .reg, .arb, .kettle, .host, .cp, .units] s (execNvmVerify cmd ns slba nlb s lr hard) := by
  unfold execNvmVerify
  refine State.onRange_frame (by decide) (fun off n => ?_)
  split
  · exact (State.readFails_frame ..).within (by decide)
  · exact (Frame.cond (State.readFails_frame ..) ((State.hostReads_frame ..).trans <| State.succeed_frame ..)).within (by decide)

theorem execSlmRead_runs (cmd : CmdId) (ns off n : Nat) (s : State) :
    Runs [.regs, .reg, .arb, .kettle, .host, .cp, .units, .tiers] s (execSlmRead cmd ns off n s) := by
  unfold execSlmRead
  extract_lets +onlyGivenNames ps r s1
  have hs1 : Frame _ s s1 := (State.piecesRead_frame ..).trans <| (Frame.fold fun _ _ => State.heatT1_frame ..)
  exact State.onSlm_frame (by decide) ((Frame.cond (hs1.trans <| State.succeed_frame ..) (hs1.trans <| State.complete_frame ..)).within (by decide))

theorem execSlmWrite_runs (cmd : CmdId) (ns off : Nat) (data : List Byte) (s : State) :
    Runs [.regs, .reg, .arb, .kettle, .host, .cp, .units, .tiers, .hbm] s (execSlmWrite cmd ns off data s) := by
  unfold execSlmWrite
  exact State.onSlm_frame (by decide) (((State.writePieces_frame ..).trans <| (State.pcie_frame ..).trans <|
    State.succeed_frame ..).within (by decide))

/-! ### The commands of firmware -/

theorem execFirmwareImageDownload_runs (cmd : CmdId) (off : Nat) (data : List Byte) (s : State) :
    Runs [.regs, .reg, .arb, .kettle, .boot, .host, .units, .image] s (execFirmwareImageDownload cmd off data s) := by
  unfold execFirmwareImageDownload
  extract_lets +onlyGivenNames n
  refine .ite .stay (.ite (.of (by decide) (State.complete_frame ..)) (.ite (.of (by decide) (State.turnAway_frame ..)) (.ite
    (.of (by decide) (State.complete_frame ..)) (.ite (.of (by decide) (State.complete_frame ..)) (.ite
    (.of (by decide) (State.complete_frame ..)) ?_)))))
  extract_lets +onlyGivenNames s1
  have hs1 : Frame _ s s1 := (State.pcie_frame ..).trans <| (State.fset_frame ..).trans <| State.fset_frame ..
  refine .next <| (State.succeed_frame ..).after (by decide) ?_
  exact (hs1.within (by decide)).memBoot (by decide) (by decide) (wf_writeL _ _ _)

theorem execFirmwareCommitWrite_runs (cmd : CmdId) (fs : Nat) (whole : Bool) (s : State) :
    Runs [.regs, .reg, .arb, .kettle, .boot, .eflash, .host, .cp, .units, .image] s (execFirmwareCommitWrite cmd fs whole s) := by
  unfold execFirmwareCommitWrite
  exact .ite .stay (.ite (.of (by decide) (State.turnAway_frame ..)) (.of (by decide) (State.commitImage_frame ..)))

theorem execFirmwareCommitWriteActivate_runs (cmd : CmdId) (fs : Nat) (whole : Bool) (s : State) :
    Runs [.regs, .reg, .arb, .kettle, .boot, .eflash, .host, .cp, .units, .image] s (execFirmwareCommitWriteActivate cmd fs whole s) := by
  unfold execFirmwareCommitWriteActivate
  exact .ite .stay (.ite (.of (by decide) (State.turnAway_frame ..)) (.of (by decide) (State.commitImage_frame ..)))

theorem execFirmwareCommitActivate_runs (cmd : CmdId) (fs : Nat) (s : State) :
    Runs [.regs, .reg, .arb, .kettle, .boot, .host, .units] s (execFirmwareCommitActivate cmd fs s) := by
  unfold execFirmwareCommitActivate
  extract_lets +onlyGivenNames k
  exact .ite .stay (.ite (.of (by decide) (State.complete_frame ..)) (.ite (.of (by decide) (State.turnAway_frame ..)) (.ite
    (.of (by decide) (State.complete_frame ..)) (.ite (.of (by decide) (State.complete_frame ..)) (.ite (.of (by decide) (State.complete_frame ..))
    (.ite (.of (by decide) (Frame.cond (State.complete_frame ..) (State.succeed_frame ..))) (.ite (.of (by decide) (State.complete_frame ..))
    (.of (by decide) <| (State.slotEvent_frame ..).trans <| (State.showBoot_frame ..).trans <| State.succeed_frame ..))))))))

theorem execKeyPackageCommit_runs (cmd : CmdId) (ca : Nat) (s : State) :
    Runs [.regs, .reg, .arb, .kettle, .boot, .eflash, .host, .cp, .units, .image] s (execKeyPackageCommit cmd ca s) := by
  unfold execKeyPackageCommit
  exact .ite .stay (.ite (.of (by decide) (State.complete_frame ..)) (.ite (.of (by decide) (State.turnAway_frame ..)) (.ite
    (.of (by decide) (State.complete_frame ..)) (.ite .stay (.ite (.of (by decide) (State.complete_frame ..))
    (.of (by decide) (State.commitImage_frame ..)))))))

theorem execMctpSetEndpointId_runs (eid : Nat) (s : State) : Runs [.kettle] s (execMctpSetEndpointId eid s) := by
  unfold execMctpSetEndpointId
  exact .ite .stay (.ite (.of (by decide) (State.mctpAnswer_frame ..)) (.of (by decide) <| Frame.inKettle.trans <| State.mctpAnswer_frame ..))

theorem execNvmeMiRequest_runs (t : Transport) (r : MiRequest) (s : State) : Runs [.reg, .arb, .kettle] s (execNvmeMiRequest t r s) := by
  unfold execNvmeMiRequest
  exact .ite .stay (.of (by decide) <| (State.miServe_frame ..).trans <| State.mctpSend_frame ..)

theorem execPldmPlatformRequest_runs (t : Transport) (r : PldmRequest) (s : State) : Runs [.kettle] s (execPldmPlatformRequest t r s) := by
  unfold execPldmPlatformRequest
  exact .ite .stay (.of (by decide) <| (State.pldmServe_frame ..).trans <| State.mctpSend_frame ..)

theorem execPldmRequestUpdate_runs (s : State) : Runs [.regs, .kettle] s (execPldmRequestUpdate s) := by
  unfold execPldmRequestUpdate
  exact .ite .stay (.ite (.of (by decide) (State.mctpAnswer_frame ..)) (.ite (.of (by decide) (State.mctpAnswer_frame ..))
    (.of (by decide) <| (State.fset_frame ..).trans <| (State.fset_frame ..).trans <| State.mctpAnswer_frame ..)))

theorem execPldmUpdateComponent_runs (comp : Nat) (s : State) :
    Runs [.regs, .kettle, .boot, .image] s (execPldmUpdateComponent comp s) := by
  unfold execPldmUpdateComponent
  exact .ite .stay (.ite (.of (by decide) (State.mctpAnswer_frame ..)) (.ite (.of (by decide) (State.mctpAnswer_frame ..)) (.of (by decide) <|
    (State.beginPldm_frame ..).trans <| State.mctpAnswer_frame ..)))

theorem execPldmFirmwareData_runs (off : Nat) (data : List Byte) (whole : Bool) (s : State) :
    Runs [.regs, .boot, .image] s (execPldmFirmwareData off data whole s) := by
  unfold execPldmFirmwareData
  split
  · exact .stay
  · extract_lets +onlyGivenNames n
    refine .ite .stay ?_
    extract_lets +onlyGivenNames s1
    have hs1 : Frame _ s s1 := State.pldmPut_frame ..
    exact .ite (.of (by decide) hs1) (.ite (.of (by decide) (Frame.cond (hs1.trans <| (State.writeSlot_frame ..).trans <|
      (State.endUpdate_frame ..).trans <| (Frame.inBoot (by rfl))) (hs1.trans <| (State.writeSlot_frame ..).trans <| State.endUpdate_frame ..)))
      (.of (by decide) <| hs1.trans <| (Frame.inBoot (by rfl)).trans <| State.endUpdate_frame ..))

theorem execPldmActivateFirmware_runs (now : Bool) (s : State) : Runs [.regs, .kettle, .boot] s (execPldmActivateFirmware now s) := by
  unfold execPldmActivateFirmware
  refine .ite .stay ?_
  split
  · exact .of (by decide) (State.mctpAnswer_frame ..)
  · exact .ite (.of (by decide) (State.mctpAnswer_frame ..)) (.of (by decide) <| (State.slotEvent_frame ..).trans <|
      (State.showBoot_frame ..).trans <|
    (Frame.inBoot (by rfl)).trans <| State.mctpAnswer_frame ..)

theorem execPldmCancelUpdate_runs (s : State) : Runs [.regs, .kettle, .boot, .image] s (execPldmCancelUpdate s) := by
  unfold execPldmCancelUpdate
  exact .ite .stay (.ite (.of (by decide) (State.mctpAnswer_frame ..)) (.of (by decide) <| (Frame.inBoot (by rfl)).trans <|
    (State.endUpdate_frame ..).trans <| State.mctpAnswer_frame ..))

/-! ### The commands of contexts and tasks -/

theorem execTaskStart_runs (c : Nat) (s : State) :
    Runs [.regs, .freeCount, .reg, .arb, .kettle, .host, .cp, .units, .tiers, .ftl, .near, .hbm, .sb, .hostMem] s (execTaskStart c s) := by
  unfold execTaskStart
  split
  · exact .stay
  · split
    · exact .stay
    · refine .ite .stay ?_
      split
      · exact .stay
      next t h =>
        extract_lets +onlyGivenNames s1
        have hs1 : Frame _ s s1 := (State.grantedLoad_frame _ _ _ _ _ h).trans <| State.count_frame ..
        extract_lets +onlyGivenNames x1
        split
        · exact .of (by decide) <| hs1.trans <| State.runHeld_frame ..
        · exact .of (by decide) <| hs1.trans <| State.startTask_frame ..
        · exact .stay

theorem execTaskEnd_runs (c : Nat) (s : State) :
    Runs [.regs, .freeCount, .reg, .arb, .kettle, .host, .cp, .units, .tiers, .ftl, .near, .hbm, .sb, .hostMem] s (execTaskEnd c s) := by
  unfold execTaskEnd
  split
  · exact .stay
  · refine .ite .stay ?_
    split
    · exact .of (by decide) (State.faultCtx_frame ..)
    · extract_lets +onlyGivenNames res
      extract_lets +onlyGivenNames s1
      have hs1 : Frame _ s s1 := (State.advances_frame ..).trans <| (State.yieldUnits_frame ..).trans <| State.dropWork_frame ..
      exact .of (by decide) <| hs1.trans <| (State.postTask_frame ..).trans <| (State.missAborts_frame ..).trans <|
        (State.afterTask_frame ..).trans <| State.prune_frame ..

theorem execTaskFault_runs (c h code idx case ucls uinst : Nat) (s : State) :
    Runs [.regs, .freeCount, .reg, .arb, .kettle, .host, .cp, .units, .tiers, .ftl, .near, .hbm, .sb, .hostMem]
      s (execTaskFault c h code idx case ucls uinst s) := by
  unfold execTaskFault
  split
  · exact .of (by decide) (State.faultCtx_frame ..)
  · exact .of (by decide) (State.faultCtx_frame ..)

theorem execTaskTimeout_runs (c : Nat) (s : State) :
    Runs [.regs, .freeCount, .reg, .arb, .kettle, .host, .cp, .units, .tiers, .ftl, .near, .hbm, .sb, .hostMem] s (execTaskTimeout c s) := by
  unfold execTaskTimeout
  split
  · exact .stay
  · exact .ite (.of (by decide) (State.faultCtx_frame ..)) .stay

theorem execBarrier_runs (c h : Nat) (s : State) :
    Runs [.regs, .freeCount, .reg, .arb, .kettle, .host, .cp, .units, .tiers, .ftl, .near, .hbm, .sb, .hostMem] s (execBarrier c h s) := by
  unfold execBarrier
  exact State.onDesc_frame (by decide) (fun d => (Frame.cond (State.descFault_frame ..) (State.pass_frame ..)).within (by decide))

theorem execBarrierRelease_runs (c h : Nat) (s : State) : Runs [.cp] s (execBarrierRelease c h s) := by
  unfold execBarrierRelease
  split
  · split
    · exact .of (by decide) (Frame.cond (State.setCtx_frame ..) .same)
    · exact .stay
  · exact .stay

theorem execSemWait_runs (c h : Nat) (s : State) :
    Runs [.regs, .freeCount, .reg, .arb, .kettle, .host, .cp, .units, .tiers, .ftl, .near, .hbm, .sb, .hostMem] s (execSemWait c h s) := by
  unfold execSemWait
  exact State.onDesc_frame (by decide) (fun d => (Frame.cond (State.descFault_frame ..) (Frame.cond (State.descFault_frame ..)
    (Frame.cond ((Frame.cond (State.setSems_frame ..) .same).trans <| State.pass_frame ..) (State.pass_frame ..)))).within (by decide))

theorem execSemWaitSatisfied_runs (c h : Nat) (s : State) : Runs [.cp] s (execSemWaitSatisfied c h s) := by
  unfold execSemWaitSatisfied
  split
  · split
    · exact .ite (.of (by decide) <| (Frame.cond (State.setSems_frame ..) .same).trans <| State.setCtx_frame ..) .stay
    · exact .stay
  · exact .stay

theorem execSemSignal_runs (c h : Nat) (s : State) :
    Runs [.regs, .freeCount, .reg, .arb, .kettle, .host, .cp, .units, .tiers, .ftl, .near, .hbm, .sb, .hostMem] s (execSemSignal c h s) := by
  unfold execSemSignal
  exact State.onDesc_frame (by decide) (fun d => (Frame.cond (State.descFault_frame ..) (Frame.cond (State.descFault_frame ..)
    (Frame.cond ((State.pass_frame ..).trans <| State.signalEffect_frame ..) (State.pass_frame ..)))).within (by decide))

theorem execSemSignalEffect_runs (c h inst : Nat) (s : State) :
    Runs [.regs, .freeCount, .reg, .arb, .kettle, .host, .cp, .units, .tiers, .ftl, .near, .hbm, .sb, .hostMem]
      s (execSemSignalEffect c h inst s) := by
  unfold execSemSignalEffect
  split
  · exact .stay
  · split
    · exact .of (by decide) (State.signalEffect_frame ..)
    · exact .stay

theorem execYield_runs (c h : Nat) (s : State) :
    Runs [.regs, .freeCount, .reg, .arb, .kettle, .host, .cp, .units, .tiers, .ftl, .near, .hbm, .sb, .hostMem] s (execYield c h s) := by
  unfold execYield
  exact State.onDesc_frame (by decide) (fun d => (Frame.cond (State.descFault_frame ..) (Frame.cond (State.descFault_frame ..)
    (State.pass_frame ..))).within (by decide))

theorem execYieldDrained_runs (c : Nat) (s : State) :
    Runs [.regs, .freeCount, .reg, .arb, .kettle, .host, .cp, .units, .tiers, .ftl, .near, .hbm, .sb, .hostMem] s (execYieldDrained c s) := by
  unfold execYieldDrained
  split
  · exact .stay
  · extract_lets +onlyGivenNames yielding
    refine .ite .stay ?_
    extract_lets +onlyGivenNames h0 at0
    refine .ite (.of (by decide) (State.faultCtx_frame ..)) ?_
    extract_lets +onlyGivenNames t1 s1
    have hs1 : Frame _ s s1 := State.yieldUnits_frame ..
    extract_lets +onlyGivenNames t2 s2
    have hs2 : Frame _ s s2 := hs1.trans <| State.setCtx_frame ..
    exact .ite (.of (by decide) <| hs2.trans <| State.stopCaught_frame ..) (.ite (.of (by decide) <| hs2.trans <| State.setCtx_frame ..) (.ite
      (.of (by decide) <| hs2.trans <| (State.err_frame ..).trans <| State.faultCtx_frame ..) (.of (by decide) hs2)))

theorem execRepeat_runs (c h : Nat) (s : State) :
    Runs [.regs, .freeCount, .reg, .arb, .kettle, .host, .cp, .units, .tiers, .ftl, .near, .hbm, .sb, .hostMem] s (execRepeat c h s) := by
  unfold execRepeat
  exact State.onDesc_frame (by decide) (fun d => (Frame.cond (State.descFault_frame ..) (Frame.cond ((State.pass_frame ..).trans <|
    State.setTask_frame ..) (State.pass_frame ..))).within (by decide))

theorem execBatchStep_runs (c : Nat) (s : State) :
    Runs [.regs, .freeCount, .reg, .arb, .kettle, .host, .cp, .units, .tiers, .ftl, .near, .hbm, .sb, .hostMem] s (execBatchStep c s) := by
  unfold execBatchStep
  split
  · split
    · exact .stay
    · extract_lets +onlyGivenNames a
      extract_lets +onlyGivenNames i
      extract_lets +onlyGivenNames -merge src s0
      have hs0 : Frame _ s s0 := (Frame.inTiers (by rfl))
      extract_lets +onlyGivenNames step
      refine .ite (.of (by decide) <| hs0.trans <| State.tableReady_frame ..) (.ite (.of (by decide) <| hs0.trans <| (State.err_frame ..).trans <|
        State.faultCtx_frame ..) ?_)
      extract_lets +onlyGivenNames b0 l j d
      extract_lets +onlyGivenNames -merge src b1
      extract_lets +onlyGivenNames -merge src s1
      have hs1 : Frame _ s s1 := hs0.trans <| (Frame.inTiers (by rfl))
      exact .of (by decide) <| hs1.trans <| (State.writeTable_frame ..).trans <| (State.tableReady_frame ..).trans <|
        (State.fset64_frame ..).trans <| (State.fset64_frame ..).trans <| (State.fbump_frame ..).trans <| State.fset_frame ..
  · exact .stay

theorem execCreateContext_runs (v : Nat) (s : State) :
    Runs [.regs, .reg, .arb, .kettle, .host, .cp, .units, .tiers, .hbm, .hostMem] s (execCreateContext v s) := by
  unfold execCreateContext
  exact State.onCmd_frame (by decide) (((Frame.cond (State.createContext_frame ..) (State.pcie_frame ..)).trans <|
    State.cmdDone_frame ..).within (by decide))

theorem execCmdTearDown_runs (v : Nat) (s : State) :
    Runs [.regs, .freeCount, .reg, .arb, .kettle, .host, .cp, .units, .tiers, .near, .hbm, .sb, .hostMem] s (execCmdTearDown v s) := by
  unfold execCmdTearDown
  refine State.onCmd_frame (by decide) ?_
  refine .ite ((State.cmdDone_frame ..).within (by decide)) ?_
  split
  · exact (State.cmdDone_frame ..).within (by decide)
  · refine .ite ((State.cmdDone_frame ..).within (by decide)) ?_
    extract_lets +onlyGivenNames s1
    have hs1 : Frame _ s s1 := (State.startTear_frame ..).trans <| State.fset_frame ..
    extract_lets +onlyGivenNames s2
    have hs2 : Frame _ s s2 := hs1.trans <| (State.fset_frame ..).trans <| (State.fset_frame ..).trans <| State.fset_frame ..
    split
    · exact (hs2.trans <| State.setCtx_frame ..).within (by decide)
    · exact hs2.within (by decide)

theorem execCmdPreempt_runs (v : Nat) (force : Bool) (s : State) :
    Runs [.regs, .reg, .arb, .kettle, .host, .cp, .units] s (execCmdPreempt v force s) := by
  unfold execCmdPreempt
  refine State.onCmd_frame (by decide) ?_
  extract_lets +onlyGivenNames f
  refine .ite ((State.cmdDone_frame ..).within (by decide)) ?_
  split
  · exact (State.cmdDone_frame ..).within (by decide)
  · split
    · exact (State.cmdDone_frame ..).within (by decide)
    · exact (Frame.cond (State.cmdDone_frame ..) (Frame.cond (State.cmdDone_frame ..) ((State.preemptCtx_frame ..).trans <|
      State.cmdDone_frame ..))).within (by decide)

theorem execCmdSetPolicy_runs (v : Nat) (s : State) : Runs [.regs, .reg, .arb, .kettle, .host, .cp, .units] s (execCmdSetPolicy v s) := by
  unfold execCmdSetPolicy
  refine State.onCmd_frame (by decide) ?_
  extract_lets +onlyGivenNames r ok
  refine .ite ((State.cmdDone_frame ..).within (by decide)) (.ite ((State.cmdDone_frame ..).within (by decide)) ?_)
  split
  · exact (State.cmdDone_frame ..).within (by decide)
  · exact (Frame.cond (State.cmdDone_frame ..) ((State.setCtx_frame ..).trans <| (State.pcie_frame ..).trans <|
    State.cmdDone_frame ..)).within (by decide)

theorem execContextLoad_runs (c : Nat) (s : State) : Runs [.regs, .arb, .cp, .units] s (execContextLoad c s) := by
  unfold execContextLoad
  split
  · exact .stay
  · exact .ite .stay (.of (by decide) <| (State.displace_frame ..).trans <| State.withLoads_frame ..)

theorem execPreemptDecision_runs (c : Nat) (s : State) : Runs [.cp] s (execPreemptDecision c s) := by
  unfold execPreemptDecision
  split
  · exact .stay
  · exact .ite (.of (by decide) (State.preemptCtx_frame ..)) (.ite (.of (by decide) (State.setCtx_frame ..)) .stay)

theorem execForceAfterExpiry_runs (c : Nat) (s : State) : Runs [.cp] s (execForceAfterExpiry c s) := by
  unfold execForceAfterExpiry
  split
  · exact .stay
  · exact .ite (.of (by decide) (State.setCtx_frame ..)) .stay

theorem execForcedPreempt_runs (c : Nat) (s : State) :
    Runs [.regs, .reg, .arb, .kettle, .cp, .units, .snilo] s (execForcedPreempt c s) := by
  unfold execForcedPreempt
  split
  · exact .stay
  · refine .ite .stay ?_
    extract_lets +onlyGivenNames s0
    have hs0 : Frame _ s s0 := (State.serveIntake_frame ..).trans <| State.recEv_frame ..
    extract_lets +onlyGivenNames ended
    split
    · exact .of (by decide) <| hs0.trans <| State.setCtx_frame ..
    · refine .ite (.of (by decide) <| hs0.trans <| State.setCtx_frame ..) ?_
      extract_lets +onlyGivenNames s1
      have hs1 : Frame _ s s1 := hs0.trans <| State.dropWork_frame ..
      exact .of (by decide) <| hs1.trans <| (Frame.fold fun _ _ => State.endReq_frame ..).trans <| (Frame.inCp (by rfl)).trans <|
        State.setCtx_frame ..

theorem execContextSaveComplete_runs (c : Nat) (s : State) :
    Runs [.regs, .freeCount, .reg, .arb, .kettle, .host, .cp, .units, .tiers, .ftl, .near, .hbm, .sb, .hostMem]
      s (execContextSaveComplete c s) := by
  unfold execContextSaveComplete
  split
  · exact .stay
  · split
    · exact .stay
    · exact .ite .stay (.ite (.of (by decide) (State.saveFault_frame ..)) (.of (by decide) <| (State.clearSlots_frame ..).trans <|
      (State.dropWork_frame ..).trans <| (State.releaseHome_frame ..).trans <| (State.setCtx_frame ..).trans <|
      (State.count_frame ..).trans <| State.noteSwitch_frame ..))

theorem execContextRestore_runs (c : Nat) (s : State) :
    Runs [.regs, .freeCount, .reg, .arb, .kettle, .host, .cp, .units, .tiers, .ftl, .near, .hbm, .sb, .hostMem]
      s (execContextRestore c s) := by
  unfold execContextRestore
  split
  · exact .stay
  · split
    · refine .ite .stay ?_
      split
      · exact .stay
      next g h =>
        have hg := State.grantedLoad_frame _ _ _ _ _ h
        refine .ite (.of (by decide) <| hg.trans <| (State.err_frame ..).trans <| State.faultCtx_frame ..) ?_
        extract_lets +onlyGivenNames s1
        have hs1 : Frame _ s s1 := hg.trans <| (State.takeHome_frame ..).trans <| (State.restoreSb_frame ..).trans <|
          (State.restoreTiles_frame ..).trans <| State.setSems_frame ..
        exact .of (by decide) <| hs1.trans <| (Frame.inCp (by rfl)).trans <| (State.countLoad_frame ..).trans <| State.setCtx_frame ..
    · exact .stay

theorem execContextRestoreComplete_runs (c : Nat) (s : State) :
    Runs [.regs, .freeCount, .reg, .arb, .kettle, .host, .cp, .units, .tiers, .ftl, .near, .hbm, .sb, .hostMem]
      s (execContextRestoreComplete c s) := by
  unfold execContextRestoreComplete
  split
  · exact .stay
  · split
    · exact .ite .stay (.ite (.of (by decide) (State.saveFault_frame ..)) (.of (by decide) <| (State.setCtx_frame ..).trans <|
        State.noteSwitch_frame ..))
    · exact .stay

/-! ### The commands of compute and movement -/

theorem execGriddleMm_runs (c h : Nat) (s : State) :
    Runs [.regs, .freeCount, .reg, .arb, .kettle, .host, .cp, .units, .tiers, .ftl, .near, .hbm, .sb, .hostMem] s (execGriddleMm c h s) := by
  unfold execGriddleMm
  refine State.onDesc_frame (by decide) (fun d => ?_)
  extract_lets +onlyGivenNames w g
  refine .ite ((State.descFault_frame ..).within (by decide)) ?_
  split
  · exact (State.descFault_frame ..).within (by decide)
  · extract_lets +onlyGivenNames r
    refine .ite ((State.descFault_frame ..).within (by decide)) (.ite ((State.descFault_frame ..).within (by decide))
      (.ite ((State.descFault_frame ..).within (by decide)) (.ite ((State.descFault_frame ..).within (by decide))
      (.ite ((State.descFault_frame ..).within (by decide)) (.ite (.refl ..) ?_)))))
    split
    · exact (Frame.cond ((State.err_frame ..).trans <| State.descFault_frame ..) ((State.setRegion_frame ..).trans <|
      State.issue_frame ..)).within (by decide)
    · exact ((State.setRegion_frame ..).trans <| State.issue_frame ..).within (by decide)

theorem execGriddlePassComplete_runs (inst r : Nat) (s : State) :
    Runs [.regs, .freeCount, .reg, .arb, .kettle, .host, .cp, .units, .tiers, .ftl, .near, .hbm, .sb, .hostMem]
      s (execGriddlePassComplete inst r s) := by
  unfold execGriddlePassComplete
  split
  · exact .stay
  · refine .ite .stay ?_
    split
    · exact .of (by decide) (State.passInjected_frame ..)
    · exact .of (by decide) <| (Frame.cond .same (State.passInjected_frame ..)).trans <| State.runPass_frame ..

theorem execGriddleCheckError_runs (inst r kind info : Nat) (whole : Bool) (s : State) :
    Runs [.regs, .freeCount, .reg, .arb, .kettle, .host, .cp, .units, .tiers, .ftl, .near, .hbm, .sb, .hostMem]
      s (execGriddleCheckError inst r kind info whole s) := by
  unfold execGriddleCheckError
  exact .ite .stay (.of (by decide) (State.checkError_frame ..))

theorem execStreamMismatch_runs (inst r port : Nat) (s : State) :
    Runs [.regs, .freeCount, .reg, .arb, .kettle, .host, .cp, .units, .tiers, .ftl, .near, .hbm, .sb, .hostMem]
      s (execStreamMismatch inst r port s) := by
  unfold execStreamMismatch
  split
  · exact .stay
  · exact .of (by decide) (State.mismatch_frame ..)

theorem execGriddleSelfCheck_runs (inst r : Nat) (s : State) : Runs [.regs, .units] s (execGriddleSelfCheck inst r s) := by
  unfold execGriddleSelfCheck
  exact .ite .stay (.ite (.of (by decide) (Frame.cond (State.startCheck_frame ..) .same)) (.ite
    (.of (by decide) (State.startCheck_frame ..)) .stay))

theorem execGriddleSelfCheckDone_runs (inst outcome row col : Nat) (s : State) :
    Runs [.regs, .reg, .arb, .kettle, .host, .units] s (execGriddleSelfCheckDone inst outcome row col s) := by
  unfold execGriddleSelfCheckDone
  refine .ite .stay ?_
  extract_lets +onlyGivenNames kind r ok isRow isCol s1
  have hs1 : Frame _ s s1 := State.showCheck_frame ..
  clear_value s1 ok isRow isCol r kind
  split
  · exact .of (by decide) hs1
  · exact .of (by decide) (Frame.cond hs1 (hs1.trans <| (State.setRegionState_frame ..).trans <| State.moveFaulted_frame ..))
  · exact .ite (.of (by decide) <| hs1.trans <| State.markLine_frame ..) (.ite (.of (by decide) <| hs1.trans <| State.markLine_frame ..) (.ite
      (.of (by decide) <| hs1.trans <|
    State.markRetiring_frame ..) (.ite (.of (by decide) <| hs1.trans <| State.endCommit_frame ..) (.of (by decide) (Frame.cond (hs1.trans <|
    State.regionClean_frame ..) hs1)))))

theorem execSelfCheckGo_runs (inst : Nat) (s : State) : Runs [.regs, .reg, .arb, .kettle, .host, .units] s (execSelfCheckGo inst s) := by
  unfold execSelfCheckGo
  exact .ite .stay (.ite (.of (by decide) (State.startCheck_frame ..)) (.of (by decide) (State.configReject_frame ..)))

theorem execSpareRowCommit_runs (inst : Nat) (s : State) :
    Runs [.regs, .reg, .arb, .kettle, .eflash, .host, .units] s (execSpareRowCommit inst s) := by
  unfold execSpareRowCommit
  refine .ite ?_ .stay
  extract_lets +onlyGivenNames s0
  have hs0 : Frame _ s s0 := State.putControl_frame ..
  exact .ite (.of (by decide) hs0) (.of (by decide) <| hs0.trans <| Frame.inUnits.trans <| (State.fset_frame ..).trans <|
    (State.recordRetirement_frame ..).trans <| (State.spareSwitched_frame ..).trans <| State.startCheck_frame ..)

theorem execGriddleRetire_runs (inst : Nat) (s : State) :
    Runs [.regs, .reg, .arb, .kettle, .eflash, .host, .units] s (execGriddleRetire inst s) := by
  unfold execGriddleRetire
  exact .ite (.of (by decide) (State.retireGriddle_frame ..)) .stay

theorem execDrainCfg_runs (c h : Nat) (s : State) :
    Runs [.regs, .freeCount, .reg, .arb, .kettle, .host, .cp, .units, .tiers, .ftl, .near, .hbm, .sb, .hostMem] s (execDrainCfg c h s) := by
  unfold execDrainCfg
  refine State.onDesc_frame (by decide) (fun d => ?_)
  extract_lets +onlyGivenNames w g
  refine .ite ((State.descFault_frame ..).within (by decide)) ?_
  split
  · exact (State.descFault_frame ..).within (by decide)
  · exact (Frame.cond (State.descFault_frame ..) (Frame.cond (State.descFault_frame ..) (Frame.cond (State.descFault_frame ..) (Frame.cond
    (State.waitPorts_frame ..) (Frame.cond ((State.setRegion_frame ..).trans <| (State.bind_frame ..).trans <|
    State.issue_frame ..) ((State.setRegion_frame ..).trans <| State.pass_frame ..)))))).within (by decide)

theorem execDrainTableLoadDone_runs (inst r : Nat) (s : State) :
    Runs [.regs, .freeCount, .reg, .arb, .kettle, .host, .cp, .units, .tiers, .ftl, .near, .hbm, .sb, .hostMem]
      s (execDrainTableLoadDone inst r s) := by
  unfold execDrainTableLoadDone
  extract_lets +onlyGivenNames x
  split
  · exact .stay
  · exact .ite .stay (.of (by decide) <| (State.setRegion_frame ..).trans <| State.descDone_frame ..)

theorem execDrainTileStart_runs (inst r : Nat) (s : State) : Runs [.regs, .units] s (execDrainTileStart inst r s) := by
  unfold execDrainTileStart
  extract_lets +onlyGivenNames x
  split
  · exact .stay
  · exact .ite .stay (.ite (.of (by decide) <| (State.setRegion_frame ..).trans <| (State.fset64_frame ..).trans <| (State.fset_frame ..).trans <|
    (State.fset_frame ..).trans <| State.fset_frame ..) (.of (by decide) (State.setRegion_frame ..)))

theorem execDrainTileComplete_runs (inst r : Nat) (s : State) :
    Runs [.regs, .freeCount, .reg, .arb, .kettle, .host, .cp, .units, .tiers, .ftl, .near, .rel, .hbm, .sb, .hostMem]
      s (execDrainTileComplete inst r s) := by
  unfold execDrainTileComplete
  split
  · exact .stay
  · extract_lets +onlyGivenNames dr
    refine .ite .stay ?_
    split
    · split
      next k s1 h => exact .of (by decide) <| ((State.draw_frame _).snd h).trans <| State.drainFault_frame ..
    · split
      next k t h =>
        have ht : Frame _ s t := (State.draw_frame _).snd h
        extract_lets +onlyGivenNames s1
        have hs1 : Frame _ s s1 := Frame.cond .same (ht.trans <| State.err_frame ..)
        split
        · exact .of (by decide) <| hs1.trans <| State.endDrain_frame ..
        · refine .ite .stay ?_
          split
          next s2 bad h2 =>
            have hs2 : Frame _ s s2 := hs1.trans <| (State.whiskInjected_frame ..).fst h2
            exact .of (by decide) (Frame.cond hs2 (hs2.trans <| State.endDrain_frame ..))

theorem execDrainError_runs (inst r kind pos : Nat) (whole : Bool) (s : State) :
    Runs [.regs, .freeCount, .reg, .arb, .kettle, .host, .cp, .units, .tiers, .ftl, .near, .hbm, .sb, .hostMem]
      s (execDrainError inst r kind pos whole s) := by
  unfold execDrainError
  extract_lets +onlyGivenNames x c
  refine .ite .stay (.ite (.of (by decide) (State.err_frame ..)) (.ite (.of (by decide) (State.drainFault_frame ..)) ?_))
  apply Runs.ite
  · split
    · exact .stay
    · exact .ite .stay (.of (by decide) (State.stopDrain_frame ..))
  · refine .ite ?_ .stay
    split
    · exact .stay
    · exact .ite .stay (.of (by decide) <| (State.err_frame ..).trans <| (State.setRegion_frame ..).trans <| State.faultCtx_frame ..)

theorem execLadleMove_runs (c h : Nat) (s : State) :
    Runs [.regs, .freeCount, .reg, .arb, .kettle, .host, .cp, .units, .tiers, .ftl, .near, .hbm, .sb, .hostMem] s (execLadleMove c h s) := by
  unfold execLadleMove
  refine State.onDesc_frame (by decide) (fun d => ?_)
  extract_lets +onlyGivenNames w i
  split
  · exact (State.descFault_frame ..).within (by decide)
  · extract_lets +onlyGivenNames r
    extract_lets +onlyGivenNames m
    refine .ite ((State.descFault_frame ..).within (by decide)) ?_
    split
    · exact ((Frame.cond ((Frame.cond .same (State.err_frame ..)).trans <| State.err_frame ..) (Frame.cond .same
      (State.err_frame ..))).trans <| State.descFault_frame ..).within (by decide)
    · exact (Frame.cond ((State.waitPorts_frame ..).trans <| State.fset_frame ..) (Frame.cond
      (State.fset_frame ..) ((Frame.cond ((State.fset_frame ..).trans <| (State.bind_frame ..).trans <| (State.bind_frame ..).trans <|
      (State.markFill_frame ..).trans <| (State.takeWriter_frame ..).trans <| (State.issueShadow_frame ..).trans <|
      State.noteColl_frame ..) ((State.fset_frame ..).trans <| (State.bind_frame ..).trans <| (State.bind_frame ..).trans <|
      (State.markFill_frame ..).trans <| (State.takeWriter_frame ..).trans <| State.issueShadow_frame ..)).trans <|
      (State.setChan_frame ..).trans <| State.issue_frame ..))).within (by decide)

theorem execLadleMoveStart_runs (ch : Nat) (s : State) :
    Runs [.regs, .freeCount, .reg, .arb, .kettle, .host, .cp, .units, .tiers, .ftl, .near, .snilo, .hbm, .sb, .hostMem]
      s (execLadleMoveStart ch s) := by
  unfold execLadleMoveStart
  extract_lets +onlyGivenNames q
  split
  · refine .ite .stay (.ite (.ite (.of (by decide) (State.setChan_frame ..)) .stay) ?_)
    extract_lets +onlyGivenNames s1
    have hs1 : Frame _ s s1 := State.noteLate_frame ..
    refine .ite (.of (by decide) hs1) ?_
    extract_lets +onlyGivenNames s2
    have hs2 : Frame _ s s2 := hs1.trans <| (State.setChan_frame ..).trans <| State.noteMove_frame ..
    extract_lets +onlyGivenNames s3
    have hs3 : Frame [.regs, .freeCount, .reg, .arb, .kettle, .host, .cp, .units, .tiers, .ftl, .near, .snilo, .hbm, .sb, .hostMem] s s3 := by
      unfold s3
      split
      · exact (Frame.cond (hs2.trans <| (State.fset64_frame ..).trans <| State.fset_frame ..) hs2).within (by decide)
      · exact hs2.within (by decide)
    exact .of (by decide) (Frame.cond (hs3.trans <| State.t3Send_frame ..) (Frame.cond (hs3.trans <| State.feedPort_frame ..) hs3))
  · exact .stay

theorem execLadleMoveComplete_runs (ch : Nat) (s : State) :
    Runs [.regs, .freeCount, .reg, .arb, .kettle, .eflash, .host, .cp, .units, .tiers, .ftl, .near, .snilo, .rel, .hbm, .sb,
      .hostMem] s (execLadleMoveComplete ch s) := by
  unfold execLadleMoveComplete
  split
  · exact .stay
  · extract_lets +onlyGivenNames cs
    refine .ite .stay ?_
    split
    next h => exact .of (by decide) (State.moveStopped_frame _ _ _ _ h)
    · split
      next n t h =>
        exact .of (by decide) <| ((State.draw_frame _).snd h).trans <| (State.colanderHit_frame ..).trans <| State.faultCtx_frame ..
    · split
      next s1 halted h =>
        have hs1 : Frame _ s s1 := (State.colanderFlips_frame ..).trans <| (State.moveInjected_frame ..).fst h
        exact .ite (.of (by decide) hs1) (.ite (.of (by decide) <| hs1.trans <| State.endPortMove_frame ..)
          (.of (by decide) <| hs1.trans <| State.endMemoryMove_frame ..))

theorem execLadleHalt_runs (ch addr : Nat) (staging : Bool) (s : State) :
    Runs [.regs, .freeCount, .reg, .arb, .kettle, .host, .cp, .units, .tiers, .ftl, .near, .rel, .hbm, .sb, .hostMem]
      s (execLadleHalt ch addr staging s) := by
  unfold execLadleHalt
  split
  · exact .stay
  · extract_lets +onlyGivenNames k
    exact .ite .stay (.ite (.ite (.of (by decide) (State.haltChan_frame ..)) (.of (by decide) (Frame.cond ((State.haltChan_frame ..).trans <|
      (State.countEvent_frame ..).trans <| State.condemnUnit_frame ..) ((State.haltChan_frame ..).trans <| State.countEvent_frame ..))))
      (.ite .stay (.ite (.of (by decide) (State.haltChan_frame ..)) (.of (by decide) (State.haltChan_frame ..)))))

theorem execSbReadError_runs (h a : Nat) (double : Bool) (user ch : Nat) (s : State) :
    Runs [.regs, .freeCount, .reg, .arb, .kettle, .eflash, .host, .cp, .units, .tiers, .ftl, .near, .hbm, .sb, .hostMem]
      s (execSbReadError h a double user ch s) := by
  unfold execSbReadError
  refine .ite .stay (.ite (.of (by decide) (State.sbCorrect_frame ..)) ?_)
  extract_lets +onlyGivenNames s2
  have hs2 : Frame _ s s2 := State.sbFail_frame ..
  apply Runs.ite
  · split
    · exact .of (by decide) <| hs2.trans <| State.haltChan_frame ..
    · exact .of (by decide) hs2
  · refine .ite ?_ (.of (by decide) hs2)
    split
    · exact .of (by decide) <| hs2.trans <| State.faultCtx_frame ..
    · exact .of (by decide) hs2

theorem execWhisk_runs (c h : Nat) (s : State) :
    Runs [.regs, .freeCount, .reg, .arb, .kettle, .host, .cp, .units, .tiers, .ftl, .near, .hbm, .sb, .hostMem] s (execWhisk c h s) := by
  unfold execWhisk
  exact State.onDesc_frame (by decide) (fun d => (Frame.cond (State.descFault_frame ..) (Frame.cond (State.descFault_frame ..) (Frame.cond
    (State.descFault_frame ..) (Frame.cond ((State.err_frame ..).trans <| State.descFault_frame ..) (Frame.cond (State.descFault_frame ..)
    (Frame.cond (State.waitPorts_frame ..) ((State.setWhisk_frame ..).trans <| State.pass_frame ..))))))).within (by decide))

theorem execWhiskCheckError_runs (inst kind info : Nat) (s : State) :
    Runs [.regs, .freeCount, .reg, .arb, .kettle, .host, .cp, .units, .tiers, .ftl, .near, .rel, .hbm, .sb, .hostMem]
      s (execWhiskCheckError inst kind info s) := by
  unfold execWhiskCheckError
  exact .ite .stay (.ite (.of (by decide) (State.err_frame ..)) (.of (by decide) (State.whiskFault_frame ..)))

/-! ### The commands of tiers, parameter update and search -/

theorem execHbmReadError_runs (k a outcome : Nat) (parity : Bool) (user n : Nat) (cmd : CmdId) (s : State) :
    Runs [.regs, .freeCount, .reg, .arb, .kettle, .eflash, .host, .cp, .units, .tiers, .ftl, .near, .rel, .hbm, .sb, .hostMem]
      s (execHbmReadError k a outcome parity user n cmd s) := by
  unfold execHbmReadError
  extract_lets +onlyGivenNames t par
  refine .ite .stay (.ite (.of (by decide) (Frame.cond ((State.err_frame ..).trans <| State.rowCorrected_frame ..) (State.err_frame ..))) ?_)
  extract_lets +onlyGivenNames who s1
  have hs1 : Frame _ s s1 := (State.err_frame ..).trans <| State.hbmLost_frame ..
  split
  · split
    · exact .of (by decide) <| hs1.trans <| State.haltChan_frame ..
    · exact .of (by decide) hs1
  · split
    · exact .of (by decide) <| hs1.trans <| State.saveFault_frame ..
    · exact .of (by decide) hs1
  · exact .of (by decide) (Frame.cond (hs1.trans <| State.complete_frame ..) hs1)
  · exact .of (by decide) hs1
  · exact .of (by decide) <| hs1.trans <| State.dropCopies_frame ..

theorem execHbmRowRepair_runs (t : Nat) (bankLeft : Bool) (s : State) :
    Runs [.regs, .reg, .arb, .kettle, .eflash, .host, .units, .tiers] s (execHbmRowRepair t bankLeft s) := by
  unfold execHbmRowRepair
  extract_lets +onlyGivenNames k
  refine .ite .stay ?_
  extract_lets +onlyGivenNames -merge src s1
  have hs1 : Frame _ s s1 := (Frame.inTiers (by rfl))
  exact .ite (.of (by decide) <| hs1.trans <| (State.fbump_frame ..).trans <| (State.fset_frame ..).trans <| (State.writeConfig_frame ..).trans <|
    State.spareSwitched_frame ..) (.of (by decide) <| hs1.trans <| (Frame.inEflashTiers (by rfl)).trans <| (State.err_frame ..).trans <|
    State.recEv_frame ..)

theorem execHbmPseudoChannelRetire_runs (k p : Nat) (train : Bool) (s : State) :
    Runs [.regs, .reg, .arb, .kettle, .eflash, .host, .units, .tiers] s (execHbmPseudoChannelRetire k p s train) := by
  unfold execHbmPseudoChannelRetire
  exact .ite .stay (.of (by decide) <| (Frame.cond (State.fsetBit_frame ..) (State.fsetBit_frame ..)).trans <|
    (State.recordRetirement_frame ..).trans <| (State.smartAdd_frame ..).trans <| State.dropCopies_frame ..)

theorem execHeatDecay_runs (s : State) : Runs [.tiers] s (execHeatDecay s) := by
  unfold execHeatDecay
  exact .ite .stay (.of (by decide) (Frame.inTiers (by rfl)))

theorem execPlacementPeriod_runs (s : State) : Runs [.regs, .tiers, .hbm] s (execPlacementPeriod s) := by
  unfold execPlacementPeriod
  refine .ite .stay ?_
  extract_lets +onlyGivenNames old s0
  have hs0 : Frame _ s s0 := Frame.cond (State.dropCopies_frame ..) .same
  exact .of (by decide) (Frame.cond (hs0.trans <| (Frame.inTiers (by rfl)).trans <| promoteAll_frame ..) (hs0.trans <| (Frame.inTiers (by rfl))))

theorem execPlacementCopyComplete_runs (tk : Nat) (s : State) : Runs [.regs, .reg, .kettle, .tiers] s (execPlacementCopyComplete tk s) := by
  unfold execPlacementCopyComplete
  split
  · exact .stay
  · refine .ite .stay ?_
    extract_lets +onlyGivenNames ius s1
    have hs1 : Frame _ s s1 := (State.countReads_frame ..).trans <| State.work_frame ..
    clear_value s1
    exact .of (by decide) <| hs1.trans <| (Frame.inTiers (by rfl)).trans <| State.fset64_frame ..

theorem execWindowPageReady_runs (ch page : Nat) (s : State) :
    Runs [.regs, .freeCount, .reg, .arb, .kettle, .host, .cp, .units, .tiers, .ftl, .near, .hbm, .sb, .hostMem]
      s (execWindowPageReady ch page s) := by
  unfold execWindowPageReady
  split
  · exact .stay
  · extract_lets +onlyGivenNames h
    refine .ite .stay ?_
    split
    next hst => exact .of (by decide) (State.moveStopped_frame _ _ _ _ hst)
    · exact .of (by decide) <| (State.dstWrite_frame ..).trans <| (State.setMark_frame ..).trans <| State.setChan_frame ..

theorem execPuuStep_runs (c h : Nat) (s : State) :
    Runs [.regs, .freeCount, .reg, .arb, .kettle, .host, .cp, .units, .tiers, .ftl, .near, .hbm, .sb, .hostMem] s (execPuuStep c h s) := by
  unfold execPuuStep
  refine State.onDesc_frame (by decide) (fun d => ?_)
  have hfault (code case ucls uinst : Nat) :
      Frame [.regs, .freeCount, .reg, .arb, .kettle, .host, .cp, .units, .tiers, .ftl, .near, .hbm, .sb, .hostMem] s
        (s.descFault d code case ucls uinst) := (State.descFault_frame ..).within (by decide)
  extract_lets +onlyGivenNames n
  refine .ite (hfault ..) ?_
  split
  · exact hfault ..
  · refine .ite (hfault ..) (.ite (hfault ..) (.ite (hfault ..) (.ite (hfault ..)
      (.ite (hfault ..) ?_))))
    extract_lets +onlyGivenNames t
    split
    · exact ((Frame.cond (State.err_frame ..) .same).trans <| State.descFault_frame ..).within (by decide)
    · refine .ite ((State.waitPorts_frame ..).within (by decide)) (.ite (.refl ..) ?_)
      extract_lets +onlyGivenNames layer k nvm ws s1
      have hs1 : Frame _ s s1 := (State.markFrozen_frame ..).trans <| (State.bind_frame ..).trans <| State.takeWriter_frame ..
      extract_lets +onlyGivenNames s2
      have hs2 : Frame _ s s2 := hs1.trans <| State.setPuu_frame ..
      extract_lets +onlyGivenNames s3
      have hs3 : Frame _ s s3 := hs2.trans <| (State.issue_frame ..).trans <| State.noteStep_frame ..
      extract_lets +onlyGivenNames s4
      have hs4 : Frame [.cp] s3 s4 := by
        unfold s4
        split
        · exact State.setCtx_frame ..
        · exact .refl ..
      exact (hs3.trans <| Frame.cond (hs4.trans <| State.showStep_frame ..) hs4).within (by decide)

theorem execPuuStepComplete_runs (h : Nat) (s : State) :
    Runs [.regs, .freeCount, .reg, .arb, .kettle, .host, .cp, .units, .tiers, .ftl, .near, .rel, .hbm, .sb, .hostMem]
      s (execPuuStepComplete h s) := by
  unfold execPuuStepComplete
  split
  · exact .stay
  · split
    · exact .stay
    · refine .ite .stay ?_
      split
      next hst => exact .of (by decide) (State.stepStopped_frame _ _ _ _ _ hst)
      · exact .of (by decide) <| (State.runStep_frame ..).trans <| (State.endStep_frame ..).trans <| State.descDone_frame ..

theorem execPuuStepFault_runs (h kind e : Nat) (inB : Bool) (pos : Nat) (s : State) :
    Runs [.regs, .freeCount, .reg, .arb, .kettle, .host, .cp, .units, .tiers, .ftl, .near, .rel, .hbm, .sb, .hostMem]
      s (execPuuStepFault h kind e inB pos s) := by
  unfold execPuuStepFault
  split
  · exact .stay
  · extract_lets +onlyGivenNames f
    split
    · exact .of (by decide) (State.failStep_frame ..)
    · exact .stay

theorem execPuuSelfTestGo_runs (h : Nat) (s : State) : Runs [.regs, .reg, .arb, .kettle, .host, .units] s (execPuuSelfTestGo h s) := by
  unfold execPuuSelfTestGo
  exact .ite .stay (.ite (.of (by decide) (State.beginSelfTest_frame ..)) (.of (by decide) (State.configReject_frame ..)))

theorem execPuuSelfTestDone_runs (h us : Nat) (ok : Bool) (s : State) :
    Runs [.regs, .reg, .arb, .kettle, .eflash, .host, .units] s (execPuuSelfTestDone h us ok s) := by
  unfold execPuuSelfTestDone
  refine .ite .stay ?_
  extract_lets +onlyGivenNames s1
  have hs1 : Frame _ s s1 := (State.fset_frame ..).trans <| (State.fset_frame ..).trans <| State.fset_frame ..
  extract_lets +onlyGivenNames s2
  have hs2 : Frame _ s s2 := hs1.trans <| (State.fbump_frame ..).trans <| State.fset_frame ..
  extract_lets +onlyGivenNames st
  refine .ite (.of (by decide) (Frame.cond (hs2.trans <| (State.fset_frame ..).trans <| (State.toState_frame ..).trans <|
    (State.toState_frame ..).trans <| State.toState_frame ..) hs2)) ?_
  extract_lets +onlyGivenNames again
  extract_lets +onlyGivenNames -merge src s3
  have hs3 : Frame _ s s3 := hs2.trans <| Frame.inUnits
  extract_lets +onlyGivenNames s4
  have hs4 : Frame _ s s4 := (Frame.cond (hs3.trans <| (State.err_frame ..).trans <| State.fset_frame ..) (hs3.trans <|
    State.faultUnit_frame ..))
  exact .ite (.of (by decide) <| hs4.trans <| (State.err_frame ..).trans <| (State.recordRetirement_frame ..).trans <| State.toRetired_frame ..)
    (.of (by decide) hs4)

theorem execFilterLoad_runs (c h : Nat) (s : State) :
    Runs [.regs, .freeCount, .reg, .arb, .kettle, .host, .cp, .units, .tiers, .ftl, .near, .hbm, .sb, .hostMem] s (execFilterLoad c h s) := by
  unfold execFilterLoad
  refine State.onMode_frame (by decide) (fun d => ?_)
  refine .ite ((State.descFault_frame ..).within (by decide)) ?_
  split
  · exact (State.descFault_frame ..).within (by decide)
  · exact (Frame.cond (State.descFault_frame ..) (Frame.cond (State.descFault_frame ..) (Frame.cond (State.waitPorts_frame ..)
    (Frame.inNear.trans <| (State.bind_frame ..).trans <| State.issue_frame ..)))).within (by decide)

theorem execFilterCount_runs (c h : Nat) (s : State) :
    Runs [.regs, .freeCount, .reg, .arb, .kettle, .host, .cp, .units, .tiers, .ftl, .near, .hbm, .sb, .hostMem] s (execFilterCount c h s) := by
  unfold execFilterCount
  exact (State.filterIssue_frame ..).within (by decide)

theorem execFilterBitmap_runs (c h : Nat) (s : State) :
    Runs [.regs, .freeCount, .reg, .arb, .kettle, .host, .cp, .units, .tiers, .ftl, .near, .hbm, .sb, .hostMem] s (execFilterBitmap c h s) := by
  unfold execFilterBitmap
  exact (State.filterIssue_frame ..).within (by decide)

theorem execFilterGather_runs (c h : Nat) (s : State) :
    Runs [.regs, .freeCount, .reg, .arb, .kettle, .host, .cp, .units, .tiers, .ftl, .near, .hbm, .sb, .hostMem] s (execFilterGather c h s) := by
  unfold execFilterGather
  exact (State.filterIssue_frame ..).within (by decide)

theorem execSkimScanLoadTables_runs (c h : Nat) (s : State) :
    Runs [.regs, .freeCount, .reg, .arb, .kettle, .host, .cp, .units, .tiers, .ftl, .near, .hbm, .sb, .hostMem]
      s (execSkimScanLoadTables c h s) := by
  unfold execSkimScanLoadTables
  refine State.onMode_frame (by decide) (fun d => ?_)
  extract_lets +onlyGivenNames n
  refine .ite ((State.descFault_frame ..).within (by decide)) ?_
  split
  · exact (State.descFault_frame ..).within (by decide)
  · extract_lets +onlyGivenNames gs
    refine .ite ((State.descFault_frame ..).within (by decide)) ?_
    split
    · exact (State.descFault_frame ..).within (by decide)
    · exact (Frame.cond (State.descFault_frame ..) (Frame.cond (State.waitPorts_frame ..) (Frame.inNear.trans <|
      (State.bind_frame ..).trans <| State.issue_frame ..))).within (by decide)

theorem execSkimScanScan_runs (c h : Nat) (s : State) :
    Runs [.regs, .freeCount, .reg, .arb, .kettle, .host, .cp, .units, .tiers, .ftl, .near, .hbm, .sb, .hostMem] s (execSkimScanScan c h s) := by
  unfold execSkimScanScan
  refine State.onMode_frame (by decide) (fun d => ?_)
  refine .ite ((State.descFault_frame ..).within (by decide)) ?_
  split
  · exact (State.descFault_frame ..).within (by decide)
  · extract_lets +onlyGivenNames r
    extract_lets +onlyGivenNames n ts len
    refine .ite ((State.descFault_frame ..).within (by decide)) ?_
    split
    · exact (State.descFault_frame ..).within (by decide)
    · split
      · exact .refl ..
      · exact (State.queueOut_frame ..).within (by decide)

theorem execColanderDescriptorComplete_runs (c h inst : Nat) (s : State) :
    Runs [.regs, .freeCount, .reg, .arb, .kettle, .eflash, .host, .cp, .units, .tiers, .ftl, .near, .rel, .hbm, .sb, .hostMem]
      s (execColanderDescriptorComplete c h inst s) := by
  unfold execColanderDescriptorComplete
  split
  · exact .stay
  · refine .ite .stay (.ite (.of (by decide) (Frame.cond (State.descDone_frame ..) .same)) ?_)
    extract_lets +onlyGivenNames out ch
    split
    · split
      · refine .ite .stay ?_
        extract_lets +onlyGivenNames r cs
        split
        · split
          next n t hd =>
            exact .of (by decide) <| ((State.draw_frame _).snd hd).trans <| (State.colanderHit_frame ..).trans <| State.faultCtx_frame ..
        · exact .of (by decide) <| (State.endOutput_frame ..).trans <| State.endMove_frame ..
      · exact .stay
    · exact .stay

theorem execColanderRunFault_runs (c h inst kind col info : Nat) (s : State) :
    Runs [.regs, .freeCount, .reg, .arb, .kettle, .eflash, .host, .cp, .units, .tiers, .ftl, .near, .rel, .hbm, .sb, .hostMem]
      s (execColanderRunFault c h inst kind col info s) := by
  unfold execColanderRunFault
  split
  · extract_lets +onlyGivenNames run near shown f
    clear_value f
    split
    · exact .stay
    · exact .of (by decide) <| (State.colanderHit_frame ..).trans <| State.faultCtx_frame ..
  · exact .stay

theorem execSkimMergeTables_runs (c h : Nat) (s : State) :
    Runs [.regs, .freeCount, .reg, .arb, .kettle, .host, .cp, .units, .tiers, .ftl, .near, .hbm, .sb, .hostMem] s (execSkimMergeTables c h s) := by
  unfold execSkimMergeTables
  exact (State.mergeIssue_frame ..).within (by decide)

theorem execSkimMergeMerge_runs (c h : Nat) (s : State) :
    Runs [.regs, .freeCount, .reg, .arb, .kettle, .host, .cp, .units, .tiers, .ftl, .near, .hbm, .sb, .hostMem] s (execSkimMergeMerge c h s) := by
  unfold execSkimMergeMerge
  exact (State.mergeIssue_frame ..).within (by decide)

theorem execSkimMergeExpand_runs (c h : Nat) (s : State) :
    Runs [.regs, .freeCount, .reg, .arb, .kettle, .host, .cp, .units, .tiers, .ftl, .near, .hbm, .sb, .hostMem] s (execSkimMergeExpand c h s) := by
  unfold execSkimMergeExpand
  exact (State.mergeIssue_frame ..).within (by decide)

theorem execSkimMergeRerank_runs (c h : Nat) (s : State) :
    Runs [.regs, .freeCount, .reg, .arb, .kettle, .host, .cp, .units, .tiers, .ftl, .near, .hbm, .sb, .hostMem] s (execSkimMergeRerank c h s) := by
  unfold execSkimMergeRerank
  exact (State.mergeIssue_frame ..).within (by decide)

theorem execSkimMergeRescan_runs (c h : Nat) (s : State) :
    Runs [.regs, .freeCount, .reg, .arb, .kettle, .host, .cp, .units, .tiers, .ftl, .near, .hbm, .sb, .hostMem] s (execSkimMergeRescan c h s) := by
  unfold execSkimMergeRescan
  exact (State.mergeIssue_frame ..).within (by decide)

theorem execSkimMergeFetch_runs (c h : Nat) (s : State) :
    Runs [.regs, .freeCount, .reg, .arb, .kettle, .host, .cp, .units, .tiers, .ftl, .near, .hbm, .sb, .hostMem] s (execSkimMergeFetch c h s) := by
  unfold execSkimMergeFetch
  exact (State.mergeIssue_frame ..).within (by decide)

theorem execSkimMergeComplete_runs (c h inst check : Nat) (s : State) :
    Runs [.regs, .freeCount, .reg, .arb, .kettle, .host, .cp, .units, .tiers, .ftl, .near, .rel, .hbm, .sb, .hostMem]
      s (execSkimMergeComplete c h inst check s) := by
  unfold execSkimMergeComplete
  split
  · extract_lets +onlyGivenNames ch
    split
    · exact .stay
    · split
      · extract_lets +onlyGivenNames k r flt
        have hflt (code case info : Nat) (bs : List Nat) : Runs [.regs, .freeCount, .reg, .arb, .kettle, .host, .cp, .units, .tiers, .ftl,
            .near, .hbm, .sb, .hostMem] s (flt code case info bs) := .of (by decide) <| (Frame.cond .same (State.err_frame ..)).trans <|
            State.faultCtx_frame ..
        refine .ite .stay (.ite .stay (.ite (.of (by decide) <| (Frame.cond .same (Frame.cond ((State.countEvent_frame ..).trans <|
          State.condemnUnit_frame ..) (State.countEvent_frame ..))).trans <| (State.err_frame ..).trans <| State.faultCtx_frame ..) ?_))
        split
        · exact (hflt ..).within (by decide)
        · split
          · exact .of (by decide) <| (State.fbump_frame ..).trans <| State.faultCtx_frame ..
          · split
            · exact (hflt ..).within (by decide)
            · exact .of (by decide) <| (State.endMerge_frame ..).trans <| State.endMove_frame ..
      · exact .stay
  · exact .stay

theorem execEpochAdvance_runs (c h : Nat) (s : State) :
    Runs [.regs, .freeCount, .reg, .arb, .kettle, .host, .cp, .units, .tiers, .ftl, .near, .hbm, .sb, .hostMem] s (execEpochAdvance c h s) := by
  unfold execEpochAdvance
  refine State.onDesc_frame (by decide) (fun d => ?_)
  extract_lets +onlyGivenNames w k? bad
  refine .ite ((State.descFault_frame ..).within (by decide)) ?_
  clear_value bad k?
  split
  · exact (State.descFault_frame ..).within (by decide)
  · exact (Frame.cond (State.descFault_frame ..) (Frame.cond (State.descFault_frame ..) (Frame.cond
      (State.descFault_frame ..) ((State.pass_frame ..).trans <| State.noteColl_frame ..)))).within (by decide)

/-! ### The commands of flash and translation -/

theorem execFlashProgram_runs (c np : Nat) (done : Bool) (s : State) :
    Runs [.regs, .freeCount, .reg, .arb, .kettle, .host, .units, .ftl, .nand, .pages] s (execFlashProgram c np done s) := by
  unfold execFlashProgram
  extract_lets +onlyGivenNames xs
  refine .ite .stay ?_
  split
  · exact .stay
  next b pos s0 h =>
    have hs0 := State.openNext_frame _ _ _ _ _ _ h
    split
    · exact .stay
    · extract_lets +onlyGivenNames all d
      refine .ite (.of (by decide) <| hs0.trans <| (State.flashStatus_frame ..).trans <| State.err_frame ..) ?_
      have hclosed (l : Nat) (st : Nat) : Frame _ s ((s0.flashStatus l st).closeSb c 0 b) :=
        hs0.trans <| (State.flashStatus_frame ..).trans <| State.closeSb_frame ..
      split
      · exact .of (by decide) (hclosed ..)
      · exact .ite .stay (.ite (.of (by decide) <| hs0.trans <| (State.err_frame ..).trans <| (State.flashStatus_frame ..).trans <|
          State.closeSb_frame ..) (.ite (.of (by decide) (hclosed ..)) (.ite (.of (by decide) (hclosed ..))
          (.of (by decide) (Frame.cond (hs0.trans <| (State.programWls_frame ..).trans <| State.setPos_frame ..) (hs0.trans <|
          (State.programWls_frame ..).trans <| (State.setPos_frame ..).trans <| State.setDieOp_frame ..))))))

theorem execFlashProgramFail_runs (c d k b : Nat) (s : State) :
    Runs [.regs, .freeCount, .reg, .kettle, .ftl, .nand, .pages] s (execFlashProgramFail c d k b s) := by
  unfold execFlashProgramFail
  exact .ite .stay (.ite .stay (.of (by decide) (State.failProgram_frame ..)))

theorem execFlashErase_runs (c d b : Nat) (planes : List Nat) (outcome : Nat) (bad : List Nat) (s : State) :
    Runs [.regs, .freeCount, .reg, .kettle, .ftl, .nand, .pages] s (execFlashErase c d b planes outcome bad s) := by
  unfold execFlashErase
  extract_lets +onlyGivenNames ks l
  refine .ite .stay ?_
  split
  · exact .of (by decide) (State.flashStatus_frame ..)
  · extract_lets +onlyGivenNames own
    exact .ite (.of (by decide) (State.flashStatus_frame ..)) (.ite (.of (by decide) (State.flashStatus_frame ..)) (.ite
      (.of (by decide) (Frame.cond (State.flashStatus_frame ..) .same)) (.ite (.of (by decide) (State.setDieOp_frame ..))
      (.of (by decide) <| (State.setDieOp_frame ..).trans <| (Frame.fold fun _ _ => (Frame.cond ((State.flashStatus_frame ..).trans <|
      State.markBad_frame ..) (State.eraseBlock_frame ..))).trans <| State.countErase_frame ..))))

theorem execFlashRead_runs (c d k b p step member : Nat) (own : Bool) (s : State) :
    Runs [.regs, .reg, .arb, .kettle, .host, .units, .ftl, .nand] s (execFlashRead c d k b p step member own s) := by
  unfold execFlashRead
  extract_lets +onlyGivenNames l key
  refine .ite .stay (.ite (.of (by decide) (State.flashStatus_frame ..)) (.ite (.of (by decide) (State.flashStatus_frame ..)) (.ite (.of (by decide)
    (State.flashStatus_frame ..)) ?_)))
  split
  · refine .ite (.of (by decide) <| (State.flashStatus_frame ..).trans <| State.err_frame ..) ?_
    split
    · exact .stay
    next s0 h =>
      extract_lets +onlyGivenNames inj st s1
      have hs1 : Frame _ s s1 := (State.suspendFor_frame _ _ _ _ h).trans <| State.countRead_frame ..
      apply Runs.ite
      · extract_lets +onlyGivenNames s2
        have hs2 : Frame _ s s2 := hs1.trans <| (State.err_frame ..).trans <| (State.flashStatus_frame ..).trans <| State.suspect_frame ..
        exact .of (by decide) (Frame.cond (hs2.trans <| State.condemn_frame ..) hs2)
      · extract_lets +onlyGivenNames s2
        have hs2 : Frame _ s s2 := (Frame.cond (hs1.trans <| State.countOwn_frame ..) hs1).trans <| State.suspect_frame ..
        refine .ite (.of (by decide) hs2) ?_
        extract_lets +onlyGivenNames s3
        have hs3 : Frame _ s s3 := hs2.trans <| (State.err_frame ..).trans <| State.flashStatus_frame ..
        extract_lets +onlyGivenNames s4
        have hs4 : Frame _ s s4 := Frame.cond (hs3.trans <| State.setOffset_frame ..) hs3
        extract_lets +onlyGivenNames s5
        have hs5 : Frame [.regs, .reg, .arb, .kettle, .host, .units, .ftl, .nand] s s5 :=
          (Frame.cond (hs4.trans <| State.report_frame ..) hs4).within (by decide)
        exact .of (by decide) (Frame.cond (hs5.trans <| State.countStep6_frame ..) hs5)
  · split
    · exact .stay
    next s0 h =>
      have hread (st : Nat) : Frame _ s ((s0.countRead key).flashStatus l st) :=
        (State.suspendFor_frame _ _ _ _ h).trans <| (State.countRead_frame ..).trans <| State.flashStatus_frame ..
      exact .of (by decide) (Frame.cond (hread ..) (hread ..))

theorem execFlashKeyLoad_runs (c slot : Nat) (s : State) : Runs [.ftl] s (execFlashKeyLoad c slot s) := by
  unfold execFlashKeyLoad
  split
  · exact .stay
  · exact .ite .stay (.of (by decide) Frame.inFtl)

theorem execProgramEraseResume_runs (c d : Nat) (s : State) : Runs [.nand] s (execProgramEraseResume c d s) := by
  unfold execProgramEraseResume
  split
  · exact .stay
  · exact .ite .stay (.of (by decide) (State.setDieOp_frame ..))

theorem execDieTimeout_runs (c d : Nat) (s : State) : Runs [.regs, .reg, .arb, .kettle, .host, .units, .nand] s (execDieTimeout c d s) := by
  unfold execDieTimeout
  exact .ite .stay (.ite (.of (by decide) <| (Frame.inNand (by rfl)).trans <| (State.setDieOp_frame ..).trans <|
    (State.flashStatus_frame ..).trans <| State.condemn_frame ..) (.of (by decide) <| (Frame.inNand (by rfl)).trans <| State.err_frame ..))

theorem execZqCalibration_runs (c d : Nat) (s : State) : Runs [.nand] s (execZqCalibration c d s) := by
  unfold execZqCalibration
  exact .ite .stay (.of (by decide) (Frame.inNand (by rfl)))

theorem execThresholdTemperatureUpdate_runs (c d : Nat) (term : Int) (s : State) :
    Runs [.nand] s (execThresholdTemperatureUpdate c d term s) := by
  unfold execThresholdTemperatureUpdate
  exact .ite .stay (.of (by decide) (Frame.inNand (by rfl)))

theorem execOnfiChannelStepDown_runs (c ch : Nat) (ok : Bool) (s : State) :
    Runs [.regs, .reg, .arb, .kettle, .eflash, .host, .units, .nand] s (execOnfiChannelStepDown c ch ok s) := by
  unfold execOnfiChannelStepDown
  extract_lets +onlyGivenNames k
  refine .ite .stay ?_
  extract_lets +onlyGivenNames st
  exact .ite (.ite (.of (by decide) (State.err_frame ..)) (.of (by decide) <| (Frame.inNand (by rfl)).trans <| (State.fclrBit_frame ..).trans <|
    (State.fsetBit_frame ..).trans <| (State.fsetBit_frame ..).trans <| State.refreshMargin_frame ..)) (.ite
    (.of (by decide) <| (Frame.inNand (by rfl)).trans <| State.err_frame ..) (.ite
    (.of (by decide) <| (Frame.inNand (by rfl)).trans <| (State.fsetBit_frame ..).trans <| State.recordRetirement_frame ..)
    (.of (by decide) <| (Frame.inNand (by rfl)).trans <| Frame.inEflash)))

theorem execDieRetire_runs (c d : Nat) (s : State) :
    Runs [.regs, .reg, .arb, .kettle, .eflash, .host, .units, .ftl, .nand] s (execDieRetire c d s) := by
  unfold execDieRetire
  exact .ite .stay (.of (by decide) <| (State.fsetBit_frame ..).trans <| (State.recordRetirement_frame ..).trans <|
    (State.unplace_frame ..).trans <| (State.closeAll_frame ..).trans <| State.refreshMargin_frame ..)

theorem execDieRelocationComplete_runs (c d : Nat) (s : State) : Runs [.nand] s (execDieRelocationComplete c d s) := by
  unfold execDieRelocationComplete
  exact .ite .stay (.of (by decide) (Frame.inNand (by rfl)))

theorem execPackageRetire_runs (c : Nat) (s : State) :
    Runs [.regs, .freeCount, .reg, .arb, .kettle, .eflash, .host, .units, .ftl] s (execPackageRetire c s) := by
  unfold execPackageRetire
  exact .ite .stay (.of (by decide) (Frame.cond ((State.dropPackage_frame ..).trans <| State.enterReadOnly_frame ..) (State.dropPackage_frame ..)))

theorem execPackageEvacuationComplete_runs (c : Nat) (s : State) :
    Runs [.regs, .freeCount, .reg, .kettle, .ftl] s (execPackageEvacuationComplete c s) := by
  unfold execPackageEvacuationComplete
  exact .ite .stay (.of (by decide) <| Frame.inFtl.trans <| (State.toRetired_frame ..).trans <| (State.refreshMargin_frame ..).trans <|
    State.flush_frame ..)

theorem execStagingSlotCommit_runs (seq : Nat) (s : State) :
    Runs [.regs, .freeCount, .reg, .ftl, .nand, .pages] s (execStagingSlotCommit seq s) := by
  unfold execStagingSlotCommit
  split
  · exact .stay
  · split
    · exact .stay
    · exact .ite .stay (.of (by decide) <| (State.setDieOp_frame ..).trans <| (State.commitStaged_frame ..).trans <| State.settleBad_frame ..)

theorem execJournalFlush_runs (s : State) : Runs [.regs, .freeCount, .reg, .ftl] s (execJournalFlush s) := by
  unfold execJournalFlush
  exact .ite (.of (by decide) (State.flush_frame ..)) .stay

theorem execJournalForcedFlush_runs (s : State) : Runs [.regs, .freeCount, .reg, .ftl] s (execJournalForcedFlush s) := by
  unfold execJournalForcedFlush
  exact .ite (.of (by decide) (State.flush_frame ..)) .stay

theorem execMapEccReload_runs (seg : Nat) (s : State) : Runs [.regs, .reg, .arb, .kettle, .host, .units] s (execMapEccReload seg s) := by
  unfold execMapEccReload
  exact .ite (.of (by decide) (State.err_frame ..)) .stay

theorem execGcCopyCommit_runs (iu src : Nat) (s : State) :
    Runs [.regs, .freeCount, .reg, .kettle, .ftl, .nand, .pages] s (execGcCopyCommit iu src s) := by
  unfold execGcCopyCommit
  extract_lets +onlyGivenNames suspect
  refine .ite .stay ?_
  split
  next h => exact .of (by decide) <| (State.copyPage_frame _ _ _ _ _ h).trans <| State.settleBad_frame ..
  · exact .stay

theorem execGcStart_runs (c : Nat) (s : State) : Runs [.ftl] s (execGcStart c s) := by
  unfold execGcStart
  exact .ite .stay (.of (by decide) Frame.inFtl)

theorem execGcStop_runs (c : Nat) (s : State) : Runs [.ftl] s (execGcStop c s) := by
  unfold execGcStop
  exact .ite .stay (.of (by decide) Frame.inFtl)

theorem execRetentionRefresh_runs (c b : Nat) (s : State) :
    Runs [.regs, .freeCount, .reg, .kettle, .ftl, .nand, .pages] s (execRetentionRefresh c b s) := by
  unfold execRetentionRefresh
  refine .ite .stay ?_
  extract_lets +onlyGivenNames s1
  have hs1 : Frame [.regs, .freeCount, .reg, .kettle, .ftl, .nand, .pages] s s1 :=
    Frame.fold fun t p => .ite (.refl ..) (.getD (fun u h => State.copyPage_frame _ _ _ _ u h) (.refl ..))
  exact .of (by decide) <| hs1.trans <| Frame.inFtl.trans <| State.settleBad_frame ..

theorem execPackageShed_runs (c : Nat) (s : State) :
    Runs [.regs, .freeCount, .reg, .arb, .kettle, .eflash, .host, .units, .ftl, .nand, .pages] s (execPackageShed c s) := by
  unfold execPackageShed
  extract_lets +onlyGivenNames evac
  refine .ite .stay (.ite (.of (by decide) (Frame.cond Frame.inFtl .same)) ?_)
  extract_lets +onlyGivenNames -merge src s0
  have hs0 : Frame _ s s0 := Frame.cond .same Frame.inFtl
  split
  · exact .of (by decide) hs0
  · split
    · exact .of (by decide) (Frame.cond hs0 (hs0.trans <| Frame.inFtl.trans <| State.enterReadOnly_frame ..))
    · refine .ite (.of (by decide) <| hs0.trans <| Frame.inFtl.trans <| State.enterReadOnly_frame ..) (.next ?_)
      exact .getD (fun u h => (hs0.trans <| State.moveTier_frame _ _ _ u h).within (by decide)) (hs0.within (by decide))

theorem execSuspectIuRelocate_runs (iu : Nat) (ok : Bool) (s : State) :
    Runs [.regs, .freeCount, .reg, .arb, .kettle, .host, .units, .ftl, .nand, .pages] s (execSuspectIuRelocate iu ok s) := by
  unfold execSuspectIuRelocate
  extract_lets +onlyGivenNames e
  refine .ite .stay (.ite ?_ (.of (by decide) <| (State.setMap_frame ..).trans <| (State.err_frame ..).trans <| State.settleBad_frame ..))
  split
  next h => exact .of (by decide) <| (State.copyPage_frame _ _ _ _ _ h).trans <| State.settleBad_frame ..
  · exact .stay

/-! ### The commands of reliability and management -/

theorem execPantryLaneReplay_runs (k lane tries : Nat) (two : Bool) (s : State) :
    Runs [.regs, .reg, .arb, .kettle, .host, .units, .rel] s (execPantryLaneReplay k lane tries two s) := by
  unfold execPantryLaneReplay
  exact .ite .stay (.of (by decide) (Frame.cond ((State.setLink_frame ..).trans <| (State.count_frame ..).trans <|
    State.err_frame ..) ((State.setLink_frame ..).trans <| (State.count_frame ..).trans <| (State.err_frame ..).trans <|
    State.setLink_frame ..)))

theorem execPantryLaneSpare_runs (k lane us : Nat) (s : State) :
    Runs [.regs, .reg, .arb, .kettle, .eflash, .host, .units, .rel] s (execPantryLaneSpare k lane us s) := by
  unfold execPantryLaneSpare
  split
  · exact .stay
  · exact .ite .stay (.of (by decide) <| (State.retireLane_frame ..).trans <| State.showSpareLane_frame ..)

theorem execPantryLinkDegrade_runs (k lane us : Nat) (s : State) :
    Runs [.regs, .reg, .arb, .kettle, .eflash, .host, .units, .ftl, .rel] s (execPantryLinkDegrade k lane us s) := by
  unfold execPantryLinkDegrade
  extract_lets +onlyGivenNames l
  refine .ite .stay ?_
  extract_lets +onlyGivenNames h s1
  have hs1 : Frame _ s s1 := (State.retireLane_frame ..).trans <| State.classify_frame ..
  exact .ite (.of (by decide) <| hs1.trans <| (State.fsetBit_frame ..).trans <| State.err_frame ..)
    (.of (by decide) <| hs1.trans <| (State.err_frame ..).trans <| State.packageLost_frame ..)

theorem execColanderSelfCheck_runs (k : Nat) (residue read readOk engOk : Bool) (s : State) :
    Runs [.regs, .freeCount, .reg, .arb, .kettle, .eflash, .host, .cp, .units, .tiers, .ftl, .near, .rel, .hbm, .sb, .hostMem]
      s (execColanderSelfCheck k residue read readOk engOk s) := by
  unfold execColanderSelfCheck
  extract_lets +onlyGivenNames st
  refine .ite .stay ?_
  extract_lets +onlyGivenNames inj s1
  have hs1 : Frame _ s s1 := (Frame.cond (State.faultUnit_frame ..) .same).trans <| State.dropColander_frame ..
  refine .ite (.of (by decide) <| hs1.trans <| State.restartColander_frame ..) (.ite
    (.of (by decide) <| hs1.trans <| State.retireReadPath_frame ..) (.ite (.of (by decide) <| hs1.trans <| (State.retireEngines_frame ..).trans <|
    State.restartColander_frame ..) ?_))
  extract_lets +onlyGivenNames recent
  exact .ite (.of (by decide) <| hs1.trans <| State.retireReadPath_frame ..) (.ite
    (.of (by decide) <| hs1.trans <| (State.retireEngines_frame ..).trans <| State.restartColander_frame ..)
    (.of (by decide) <| hs1.trans <| (State.countEvent_frame ..).trans <| State.restartColander_frame ..))

theorem execHobLinkFault_runs (cs : List Nat) (s : State) :
    Runs [.regs, .freeCount, .reg, .arb, .kettle, .eflash, .host, .cp, .units, .tiers, .ftl, .near, .rel, .hbm, .sb, .hostMem]
      s (execHobLinkFault cs s) := by
  unfold execHobLinkFault
  refine .ite .stay ?_
  extract_lets +onlyGivenNames -merge src s1
  have hs1 : Frame _ s s1 := Frame.inRel
  extract_lets +onlyGivenNames s2
  have hs2 : Frame _ s s2 := hs1.trans <| (State.recordRetirement_frame ..).trans <| (State.recordRetirement_frame ..).trans <|
    State.smartAdd_frame ..
  refine .next (.foldl (fun t c => ?_) (hs2.within (by decide)) cs)
  split
  · exact (Frame.cond (State.faultCtx_frame ..) .same).within (by decide)
  · exact .refl ..

theorem execHobLinkLaneRepair_runs (h : Nat) (s : State) :
    Runs [.regs, .reg, .arb, .kettle, .host, .units] s (execHobLinkLaneRepair h s) := by
  unfold execHobLinkLaneRepair
  exact .ite .stay (.of (by decide) (State.err_frame ..))

theorem execUnitRetirement_runs (c inst g : Nat) (s : State) :
    Runs [.regs, .reg, .arb, .kettle, .eflash, .host, .units] s (execUnitRetirement c inst g s) := by
  unfold execUnitRetirement
  exact .ite (.ite (.of (by decide) (State.retireGriddle_frame ..)) .stay) (.ite (.ite .stay
    (.of (by decide) <| Frame.inUnits.trans <| State.sbRetire_frame ..)) (.ite .stay
    (.of (by decide) <| Frame.inUnits.trans <| (State.recordRetirement_frame ..).trans <| (State.toRetired_frame ..).trans <| State.err_frame ..)))

theorem execNandPatrol_runs (c d k b wl : Nat) (weak : Bool) (offs : Nat) (s : State) :
    Runs [.regs, .reg, .kettle, .ftl, .nand, .rel] s (execNandPatrol c d k b wl weak offs s) := by
  unfold execNandPatrol
  extract_lets +onlyGivenNames key l x
  refine .ite .stay ?_
  split
  · exact .stay
  next s1 h =>
    extract_lets +onlyGivenNames s2
    have hs2 : Frame _ s s2 := (State.ownRead_frame _ _ _ h).trans <|
      Frame.fold fun _ _ => (State.countOwn_frame ..).trans <| State.countRead_frame ..
    exact .of (by decide) <| (Frame.cond (hs2.trans <| State.setOffset_frame ..) hs2).trans <| State.visit_frame ..

theorem execMediaScan_runs (iu step : Nat) (s : State) :
    Runs [.regs, .reg, .arb, .kettle, .host, .units, .ftl, .nand, .rel] s (execMediaScan iu step s) := by
  unfold execMediaScan
  extract_lets +onlyGivenNames e
  refine .ite .stay ?_
  split
  · exact .stay
  next s0 h =>
    extract_lets +onlyGivenNames c key inj st info s1
    have hs1 : Frame _ s s1 := (State.ownRead_frame _ _ _ h).trans <| (State.countOwn_frame ..).trans <| (State.countRead_frame ..).trans <|
      State.visit_frame ..
    refine .ite (.of (by decide) <| hs1.trans <| (State.err_frame ..).trans <| (State.flashStatus_frame ..).trans <| State.suspect_frame ..) ?_
    extract_lets +onlyGivenNames s2
    have hs2 : Frame _ s s2 := hs1.trans <| State.suspect_frame ..
    refine .ite (.of (by decide) hs2) ?_
    extract_lets +onlyGivenNames s3
    have hs3 : Frame _ s s3 := hs2.trans <| (State.err_frame ..).trans <| (State.flashStatus_frame ..).trans <| State.report_frame ..
    extract_lets +onlyGivenNames s4
    have hs4 : Frame _ s s4 := Frame.cond (hs3.trans <| State.setOffset_frame ..) hs3
    exact .of (by decide) (Frame.cond (hs4.trans <| State.countStep6_frame ..) hs4)

theorem execHbmScrub_runs (t a outcome : Nat) (s : State) :
    Runs [.regs, .reg, .arb, .kettle, .eflash, .host, .units, .tiers, .rel] s (execHbmScrub t a outcome s) := by
  unfold execHbmScrub
  extract_lets +onlyGivenNames k
  refine .ite .stay ?_
  extract_lets +onlyGivenNames s1
  have hs1 : Frame _ s s1 := State.visit_frame ..
  exact .ite (.of (by decide) hs1) (.ite (.of (by decide) (Frame.cond (hs1.trans <| (State.err_frame ..).trans <|
    State.rowCorrected_frame ..) (hs1.trans <| State.err_frame ..))) (.of (by decide) <| hs1.trans <| (State.err_frame ..).trans <|
    State.hbmLost_frame ..))

theorem execSramScrub_runs (col : Bool) (inst g a outcome : Nat) (s : State) :
    Runs [.regs, .reg, .arb, .kettle, .eflash, .host, .cp, .units, .rel, .sb] s (execSramScrub col inst g a outcome s) := by
  unfold execSramScrub
  refine .ite .stay ?_
  apply Runs.ite
  · refine .ite .stay ?_
    extract_lets +onlyGivenNames s1
    have hs1 : Frame _ s s1 := State.visit_frame ..
    exact .ite (.of (by decide) hs1) (.ite (.of (by decide) (Frame.cond (hs1.trans <| (State.err_frame ..).trans <| Frame.inUnits.trans <|
      State.colRemap_frame ..) (hs1.trans <| (State.err_frame ..).trans <| Frame.inUnits)))
      (.of (by decide) <| hs1.trans <| State.colSram_frame ..))
  · refine .ite .stay ?_
    extract_lets +onlyGivenNames s1
    have hs1 : Frame _ s s1 := (State.visit_frame ..).trans <| State.sbRemapDue_frame ..
    exact .of (by decide) (Frame.cond hs1 (Frame.cond (hs1.trans <| State.sbCorrect_frame ..) (hs1.trans <| State.sbFail_frame ..)))

theorem execLpddr5xScrub_runs (seg outcome : Nat) (s : State) :
    Runs [.regs, .reg, .arb, .kettle, .host, .units, .rel] s (execLpddr5xScrub seg outcome s) := by
  unfold execLpddr5xScrub
  exact .ite .stay (.of (by decide) (Frame.cond (State.visit_frame ..) (Frame.cond ((State.visit_frame ..).trans <|
    State.err_frame ..) ((State.visit_frame ..).trans <| State.err_frame ..))))

theorem execSpareGriddleCheck_runs (h : Nat) (ok : Bool) (s : State) :
    Runs [.regs, .reg, .arb, .kettle, .eflash, .host, .units, .rel] s (execSpareGriddleCheck h ok s) := by
  unfold execSpareGriddleCheck
  exact .ite .stay (.of (by decide) (Frame.cond ((State.visit_frame ..).trans <| State.showCheck_frame ..) ((State.visit_frame ..).trans <|
    (State.showCheck_frame ..).trans <| (State.recordRetirement_frame ..).trans <| State.toRetired_frame ..)))

theorem execSpareLaneCheck_runs (k : Nat) (ok : Bool) (s : State) :
    Runs [.regs, .reg, .arb, .kettle, .eflash, .host, .units, .rel] s (execSpareLaneCheck k ok s) := by
  unfold execSpareLaneCheck
  extract_lets +onlyGivenNames l
  split
  · exact .stay
  · exact .ite .stay (.ite (.of (by decide) (State.visit_frame ..)) (.of (by decide) <| (State.visit_frame ..).trans <|
      (State.setLink_frame ..).trans <|
    (State.recordRetirement_frame ..).trans <| State.err_frame ..))

theorem execEdgeRepairPass_runs (fn id u : Nat) (s : State) : Runs [.regs, .reg, .kettle, .ftl, .rel] s (execEdgeRepairPass fn id u s) := by
  unfold execEdgeRepairPass
  split
  · exact .stay
  · extract_lets +onlyGivenNames d
    extract_lets +onlyGivenNames dom
    split
    · exact .stay
    · exact .ite .stay (.ite (.of (by decide) (State.repaired_frame ..)) (.of (by decide) (Frame.cond
      (State.repairVisit_frame ..) ((State.repairVisit_frame ..).trans <| State.writeList_frame ..))))

theorem execSensorSample_runs (vals : List (Nat × Int × Bool)) (hs : List (Nat × Nat × Nat)) (idle : List Nat) (s : State) :
    Runs [.regs, .freeCount, .reg, .power, .arb, .kettle, .boot, .host, .cp, .units, .tiers, .time, .ftl, .nand, .near, .snilo,
      .hbm, .sb, .hostMem, .image, .pages] s (execSensorSample vals hs idle s) := by
  unfold execSensorSample
  refine .ite .stay ?_
  extract_lets +onlyGivenNames s1
  have hs1 : Frame _ s s1 := State.takeSamples_frame ..
  extract_lets +onlyGivenNames s2
  have hs2 : Frame _ s s2 := hs1.trans <| (State.countUnits_frame ..).trans <| State.countUnits_frame ..
  exact .of (by decide) <| hs2.trans <| (State.sampleLines_frame ..).trans <| (Frame.fold fun _ _ => State.floorAnswer_frame ..).trans <|
    Frame.inKettle.trans <| State.checkThermal_frame ..

theorem execRailMonitorRecalibrate_runs (n : Nat) (s : State) : Runs [.kettle] s (execRailMonitorRecalibrate n s) := by
  unfold execRailMonitorRecalibrate
  exact .ite .stay (.of (by decide) Frame.inKettle)

theorem execThermalTripClear_runs (s : State) : Runs [.regs, .reg, .power, .kettle] s (execThermalTripClear s) := by
  unfold execThermalTripClear
  split
  · exact .stay
  · exact .ite .stay (.of (by decide) <| Frame.inPower.trans <| (State.fset_frame ..).trans <| (State.fset_frame ..).trans <|
    (State.recEv_frame ..).trans <| (State.pldmEvent_frame ..).trans <| State.driveOp_frame ..)

theorem execPowerCapWrite_runs (v : Nat) (pldm : Bool) (s : State) :
    Runs [.regs, .reg, .power, .arb, .kettle, .host, .units] s (execPowerCapWrite v pldm s) := by
  unfold execPowerCapWrite
  exact .ite .stay (.ite (.ite (.of (by decide) <| (State.setCap_frame ..).trans <| Frame.inKettle) (.of (by decide) (State.setCap_frame ..))) (.ite
    (.of (by decide) Frame.inKettle) (.of (by decide) (State.configReject_frame ..))))

theorem execPowerCapWindow_runs (s : State) : Runs [.regs, .reg, .power, .arb, .kettle, .host, .units] s (execPowerCapWindow s) := by
  unfold execPowerCapWindow
  refine .ite .stay ?_
  extract_lets +onlyGivenNames a100 l
  extract_lets +onlyGivenNames -merge src src1 s1
  have hs1 : Frame _ s s1 := (State.fset_frame ..).trans <| Frame.inKettle
  extract_lets +onlyGivenNames cap p
  exact .ite (.of (by decide) hs1) (.ite (.ite (.of (by decide) <| hs1.trans <| (State.setCeiling_frame ..).trans <| State.driveOp_frame ..) (.ite
    (.of (by decide) hs1) (.of (by decide) <| hs1.trans <| (State.setCeiling_frame ..).trans <| State.err_frame ..))) (.ite
    (.of (by decide) <| hs1.trans <| (State.setCeiling_frame ..).trans <| State.driveOp_frame ..) (.of (by decide) hs1)))

theorem execRecorderEntryAccept_runs (s : State) : Runs [.regs, .reg, .arb, .kettle, .host, .units] s (execRecorderEntryAccept s) := by
  unfold execRecorderEntryAccept
  split
  · exact .stay
  · exact .ite .stay (.of (by decide) <| Frame.inKettle.trans <| (State.ringTake_frame ..).trans <| State.enterDropped_frame ..)

theorem execRecorderFreeze_runs (cause : Nat) (s : State) : Runs [.regs, .reg, .kettle] s (execRecorderFreeze cause s) := by
  unfold execRecorderFreeze
  exact .ite .stay (.of (by decide) (State.freeze_frame ..))

theorem execHostFreeze_runs (both : Bool) (s : State) : Runs [.regs, .reg, .arb, .kettle, .host, .units] s (execHostFreeze both s) := by
  unfold execHostFreeze
  exact .ite .stay (.ite (.of (by decide) (State.configReject_frame ..)) (.ite .stay (.of (by decide) (State.freeze_frame ..))))

theorem execUnfreeze_runs (both : Bool) (s : State) : Runs [.regs, .reg, .arb, .kettle, .host, .units] s (execUnfreeze both s) := by
  unfold execUnfreeze
  exact .ite .stay (.ite (.of (by decide) (State.configReject_frame ..)) (.ite (.of (by decide) (State.unfreeze_frame ..)) .stay))

theorem execRecordPersist_runs (whole : Bool) (s : State) : Runs [.regs, .kettle] s (execRecordPersist whole s) := by
  unfold execRecordPersist
  exact .of (by decide) (State.persist_frame ..)

theorem execPantryLaneLossOfLock_runs (k lane us : Nat) (ok : Bool) (s : State) :
    Runs [.regs, .reg, .arb, .kettle, .host, .units, .rel] s (execPantryLaneLossOfLock k lane us ok s) := by
  unfold execPantryLaneLossOfLock
  exact .ite .stay (.of (by decide) <| (Frame.cond ((State.retrained_frame ..).trans <| (State.err_frame ..).trans <| State.countEvent_frame ..)
    (State.retrained_frame ..)).trans <| State.showRetraining_frame ..)

theorem execEflashRead_runs (a n : Nat) (errs : List (Nat × Nat)) (s : State) :
    Runs [.regs, .freeCount, .eflash] s (execEflashRead a n errs s) := by
  unfold execEflashRead
  refine .ite .stay (.ite (.of (by decide) (State.romAnswer_frame ..)) ?_)
  extract_lets +onlyGivenNames ws ecc bad fixed flags s1
  have hs1 : Frame _ s s1 := Frame.cond (State.fbump_frame ..) .same
  refine .ite (.of (by decide) (State.romAnswer_frame ..)) ?_
  split
  · exact .of (by decide) <| hs1.trans <| State.romAnswer_frame ..
  · exact .of (by decide) <| hs1.trans <| Frame.inFreeCount.trans <| State.romAnswer_frame ..

theorem execEflashProgram_runs (a : Nat) (data : List Nat) (pulseVerify : Bool) (maxPulses : Nat) (record handler : Bool)
    (need failAt : Nat) (cut : Bool) (s : State) :
    Runs [.regs, .freeCount, .eflash] s (execEflashProgram a data pulseVerify maxPulses record handler need failAt s cut) := by
  unfold execEflashProgram
  extract_lets +onlyGivenNames ws
  refine .ite .stay ?_
  split
  · exact .of (by decide) (State.romAnswer_frame ..)
  · extract_lets +onlyGivenNames clear
    extract_lets +onlyGivenNames short
    split
    · exact .of (by decide) (State.romAnswer_frame ..)
    · extract_lets +onlyGivenNames raises
      split
      · exact .of (by decide) (State.romAnswer_frame ..)
      · exact .ite (.of (by decide) <| (Frame.fold fun _ _ => State.cutProgram_frame ..).trans <| State.romAnswer_frame ..) (.of (by decide) <|
        (Frame.fold fun _ _ => (Frame.cond .same (State.draw_frame ..)).trans <| State.programWord_frame ..).trans <|
        (Frame.fold fun _ _ => State.verified_frame ..).trans <| State.romAnswer_frame ..)

theorem execEflashErase_runs (x n : Nat) (pulseVerify : Bool) (maxPulses : Nat) (record handler : Bool) (need failing : Nat) (cut : Bool)
    (s : State) : Runs [.regs, .reg, .arb, .kettle, .eflash, .host, .units]
      s (execEflashErase x n pulseVerify maxPulses record handler need failing s cut) := by
  unfold execEflashErase
  extract_lets +onlyGivenNames xs good
  refine .ite .stay ?_
  split
  · exact .of (by decide) (State.romAnswer_frame ..)
  · refine .ite (.of (by decide) <| (Frame.fold fun _ _ => State.beginErase_frame ..).trans <| State.romAnswer_frame ..) ?_
    extract_lets +onlyGivenNames lim ok one
    have hone (t : State) (y : Nat) : Frame _ t (one t y) := Frame.cond ((State.beginErase_frame ..).trans <| (State.endErase_frame ..).trans <|
      State.verified_frame ..) ((State.beginErase_frame ..).trans <| State.verified_frame ..)
    exact .of (by decide) <| (Frame.fold hone).trans <| State.romAnswer_frame ..

theorem execEflashBlankCheck_runs (x n : Nat) (s : State) : Runs [.freeCount, .eflash] s (execEflashBlankCheck x n s) := by
  unfold execEflashBlankCheck
  refine .ite .stay (.ite (.of (by decide) (State.romAnswer_frame ..)) (.ite (.of (by decide) (State.romAnswer_frame ..)) ?_))
  extract_lets +onlyGivenNames s1
  have hs1 : Frame _ s s1 := Frame.cond Frame.inFreeCount .same
  split
  · exact .of (by decide) <| hs1.trans <| State.romAnswer_frame ..
  · exact .of (by decide) <| hs1.trans <| State.romAnswer_frame ..

theorem execConfigStoreCompaction_runs (s : State) : Runs [.eflash] s (execConfigStoreCompaction s) := by
  unfold execConfigStoreCompaction
  exact .ite .stay (.of (by decide) Frame.inEflash)

/-! ### The commands of time and fabric -/

theorem execPtpSyncReceived_runs (p dom sender : Nat) (logSync : Int) (t1 cyc : Nat) (s : State) :
    Runs [.regs, .freeCount, .reg, .arb, .kettle, .host, .units, .time] s (execPtpSyncReceived p dom sender logSync t1 cyc s) := by
  unfold execPtpSyncReceived
  refine .ite .stay (.ite (.of (by decide) (State.rxLost_frame ..)) (.ite (.of (by decide) <| (State.rx_frame ..).trans <| State.discard_frame ..)
    (.ite (.of (by decide) (State.rx_frame ..)) ?_)))
  extract_lets +onlyGivenNames off m s1
  have hs1 : Frame _ s s1 := State.takeSync_frame ..
  exact .ite (.of (by decide) hs1) (.ite (.of (by decide) (Frame.cond (hs1.trans <| State.losePort_frame ..) (hs1.trans <|
    (State.ptpLost_frame ..).trans <| (State.loseSource_frame ..).trans <| State.steer_frame ..)))
    (.of (by decide) (Frame.cond (hs1.trans <| (State.steer_frame ..).trans <| State.activatePort_frame ..) (hs1.trans <| State.steer_frame ..))))

theorem execPtpAnnounceReceived_runs (p dom sender : Nat) (logAnn : Int) (data : List Nat) (s : State) :
    Runs [.regs, .reg, .arb, .kettle, .host, .units, .time] s (execPtpAnnounceReceived p dom sender logAnn data s) := by
  unfold execPtpAnnounceReceived
  exact .ite .stay (.ite (.of (by decide) (State.rxLost_frame ..)) (.ite (.of (by decide) <| (State.rx_frame ..).trans <| State.discard_frame ..)
    (.ite (.of (by decide) (State.rx_frame ..)) (.of (by decide) <| (State.rx_frame ..).trans <| State.select_frame ..))))

theorem execPtpDelayResponse_runs (p sender : Nat) (logDelay : Int) (a b cyc : Nat) (s : State) :
    Runs [.regs, .freeCount, .reg, .arb, .kettle, .host, .units, .time] s (execPtpDelayResponse p sender logDelay a b cyc s) := by
  unfold execPtpDelayResponse
  extract_lets +onlyGivenNames x
  refine .ite .stay (.ite (.of (by decide) (State.rxLost_frame ..)) (.ite (.of (by decide) <| (State.rx_frame ..).trans <|
    State.discard_frame ..) ?_))
  split
  · exact .of (by decide) (State.rx_frame ..)
  · extract_lets +onlyGivenNames d
    clear_value d
    split
    · exact .of (by decide) (State.rx_frame ..)
    · exact .of (by decide) <| (Frame.cond (State.serve_frame ..) .same).trans <| (State.rx_frame ..).trans <| State.takeDelay_frame ..

theorem execPtpPdelayRequest_runs (p dom cyc cycOut : Nat) (s : State) :
    Runs [.regs, .reg, .arb, .kettle, .host, .units, .time] s (execPtpPdelayRequest p dom cyc cycOut s) := by
  unfold execPtpPdelayRequest
  exact .ite .stay (.ite (.of (by decide) (State.rxLost_frame ..)) (.ite (.of (by decide) (State.rx_frame ..))
    (.of (by decide) <| (State.serve_frame ..).trans <| (State.serve_frame ..).trans <| (State.rx_frame ..).trans <| (State.tx_frame ..).trans <|
    State.tx_frame ..)))

theorem execPtpSourceLoss_runs (p : Nat) (s : State) :
    Runs [.regs, .freeCount, .reg, .arb, .kettle, .host, .units, .time] s (execPtpSourceLoss p s) := by
  unfold execPtpSourceLoss
  exact .ite .stay (.of (by decide) <| (State.losePort_frame ..).trans <| State.refreshRoles_frame ..)

theorem execPtpPreferredReturn_runs (s : State) : Runs [.regs] s (execPtpPreferredReturn s) := by
  unfold execPtpPreferredReturn
  extract_lets +onlyGivenNames p
  refine .ite .stay ?_
  split
  · exact .ite (.of (by decide) (State.activatePort_frame ..)) .stay
  · exact .stay

theorem execPtmDialog_runs (ok : Bool) (root delay ago : Nat) (s : State) :
    Runs [.regs, .freeCount, .reg, .arb, .kettle, .host, .units, .time] s (execPtmDialog ok root delay ago s) := by
  unfold execPtmDialog
  exact .ite .stay (.ite (.of (by decide) (Frame.cond (Frame.inTime.trans <| State.losePtm_frame ..) Frame.inTime))
    (.of (by decide) <| Frame.inTime.trans <| (State.count_frame ..).trans <| State.steer_frame ..))

theorem execPpsOutEdge_runs (s : State) : Runs [.time] s (execPpsOutEdge s) := by
  unfold execPpsOutEdge
  exact .ite .stay (.of (by decide) Frame.inTime)

theorem execPpsInEdge_runs (cyc : Nat) (s : State) : Runs [.regs, .freeCount, .reg, .arb, .time] s (execPpsInEdge cyc s) := by
  unfold execPpsInEdge
  refine .ite .stay ?_
  extract_lets +onlyGivenNames sec
  exact .of (by decide) <| (Frame.cond ((State.serve_frame ..).trans <| State.draw_frame ..) (State.serve_frame ..)).trans <|
    (State.roundNs_frame ..).trans <| (State.fset_frame ..).trans <| (State.fset_frame ..).trans <| Frame.inTime

theorem execPpsInMissing_runs (s : State) : Runs [.regs, .reg, .arb, .kettle, .host, .units, .time] s (execPpsInMissing s) := by
  unfold execPpsInMissing
  split
  · exact .ite .stay (.of (by decide) <| Frame.inTime.trans <| (State.fset_frame ..).trans <| State.err_frame ..)
  · exact .stay

theorem execEthernetLinkDown_runs (p : Nat) (lane : Option Nat) (s : State) :
    Runs [.regs, .freeCount, .reg, .arb, .kettle, .eflash, .host, .units, .time, .rel] s (execEthernetLinkDown p lane s) := by
  unfold execEthernetLinkDown
  refine .ite .stay ?_
  extract_lets +onlyGivenNames s1
  have hs1 : Frame _ s s1 := Frame.cond (State.dropPort_frame ..) .same
  split
  · exact .of (by decide) hs1
  · refine .ite (.of (by decide) hs1) ?_
    extract_lets +onlyGivenNames k l
    extract_lets +onlyGivenNames -merge src s2
    have hs2 : Frame _ s s2 := hs1.trans <| Frame.inRel.trans <| State.err_frame ..
    exact .ite (.of (by decide) hs2) (.of (by decide) <| hs2.trans <| (State.fsetBit_frame ..).trans <| (State.fset_frame ..).trans <|
      State.recordRetirement_frame ..)

theorem execEthernetLinkUp_runs (p speed medium : Nat) (s : State) : Runs [.regs] s (execEthernetLinkUp p speed medium s) := by
  unfold execEthernetLinkUp
  exact .ite .stay (.of (by decide) <| (State.fset_frame ..).trans <| (State.fset_frame ..).trans <| (State.fset_frame ..).trans <|
    State.refreshRoles_frame ..)

theorem execEthernetFrameDiscard_runs (p kind lane n : Nat) (s : State) :
    Runs [.regs, .reg, .arb, .kettle, .host, .units] s (execEthernetFrameDiscard p kind lane n s) := by
  unfold execEthernetFrameDiscard
  exact .ite .stay (.ite (.of (by decide) (State.rxLost_frame ..)) (.ite (.of (by decide) <| (State.rx_frame ..).trans <|
    (State.discard_frame ..).trans <| State.ethBytes_frame ..) (.ite (.of (by decide) <| (State.rx_frame ..).trans <|
    (State.ethBytes_frame ..).trans <| State.err_frame ..) (.of (by decide) (State.rxLost_frame ..)))))

theorem execSniloReadReq_runs (port src a n : Nat) (full : Bool) (s : State) :
    Runs [.regs, .reg, .power, .arb, .kettle, .host, .units, .tiers] s (execSniloReadReq port src a n full s) := by
  unfold execSniloReadReq
  refine .ite .stay (.ite (.of (by decide) (State.rxLost_frame ..)) ?_)
  extract_lets +onlyGivenNames s1
  have hs1 : Frame _ s s1 := State.frame_frame ..
  extract_lets +onlyGivenNames s2
  have hs2 : Frame _ s s2 := hs1.trans <| (State.wake_frame ..).trans <| State.serve_frame ..
  refine .ite (.of (by decide) <| hs1.trans <| State.fbump_frame ..) ?_
  split
  · exact .of (by decide) <| hs2.trans <| (State.t3Served_frame ..).trans <| (State.count_frame ..).trans <| (State.countUnits_frame ..).trans <|
    State.frame_frame ..
  · exact .of (by decide) <| hs2.trans <| State.frame_frame ..

theorem execSniloReadRsp_runs (tag : Nat) (data : List Byte) (port src : Nat) (s : State) :
    Runs [.regs, .reg, .arb, .kettle, .host, .units, .snilo] s (execSniloReadRsp tag data s port src) := by
  unfold execSniloReadRsp
  refine .ite .stay (.ite (.of (by decide) (State.rxLost_frame ..)) ?_)
  split
  · exact .of (by decide) (State.frame_frame ..)
  · exact .of (by decide) <| (State.endReq_frame ..).trans <| (State.count_frame ..).trans <| (State.setPiece_frame ..).trans <|
    (State.noteRtt_frame ..).trans <| State.frame_frame ..

theorem execSniloNak_runs (tag reason : Nat) (port src : Nat) (s : State) :
    Runs [.regs, .freeCount, .reg, .arb, .kettle, .host, .cp, .units, .tiers, .ftl, .near, .snilo, .hbm, .sb, .hostMem]
      s (execSniloNak tag reason s port src) := by
  unfold execSniloNak
  refine .ite .stay (.ite (.of (by decide) (State.rxLost_frame ..)) ?_)
  split
  · exact .of (by decide) (State.frame_frame ..)
  · extract_lets +onlyGivenNames s0
    have hs0 : Frame _ s s0 := State.frame_frame ..
    extract_lets +onlyGivenNames s1
    have hs1 : Frame _ s s1 := hs0.trans <| (State.fbump_frame ..).trans <| (State.fset_frame ..).trans <| State.fset_frame ..
    exact .ite (.of (by decide) <| hs1.trans <| (State.err_frame ..).trans <| (State.endReq_frame ..).trans <| State.t3Halt_frame ..)
      (.of (by decide) <| hs1.trans <| State.err_frame ..)

theorem execSniloRetransmit_runs (ch port credit via : Nat) (s : State) :
    Runs [.regs, .reg, .arb, .kettle, .host, .units, .snilo] s (execSniloRetransmit ch port credit via s) := by
  unfold execSniloRetransmit
  split
  · exact .stay
  · exact .ite .stay (.of (by decide) <| Frame.inSnilo.trans <| (State.fbump_frame ..).trans <| State.frame_frame ..)

theorem execSniloRemoteTimeout_runs (ch port credit : Nat) (s : State) :
    Runs [.regs, .freeCount, .reg, .arb, .kettle, .host, .cp, .units, .tiers, .ftl, .near, .snilo, .hbm, .sb, .hostMem]
      s (execSniloRemoteTimeout ch port credit s) := by
  unfold execSniloRemoteTimeout
  split
  · exact .stay
  · exact .ite .stay (.of (by decide) <| (State.endReq_frame ..).trans <| (State.err_frame ..).trans <| State.t3Halt_frame ..)

theorem execSniloCreditsEnd_runs (ch : Nat) (s : State) : Runs [.regs, .snilo] s (execSniloCreditsEnd ch s) := by
  unfold execSniloCreditsEnd
  exact .ite .stay (.of (by decide) (Frame.fold fun _ _ => State.endReq_frame ..))

theorem execLoadPeers_runs (s : State) : Runs [.regs, .reg, .arb, .kettle, .host, .units, .snilo] s (execLoadPeers s) := by
  unfold execLoadPeers
  refine .ite .stay ?_
  extract_lets +onlyGivenNames f n s0
  have hs0 : Frame _ s s0 := State.fset_frame ..
  refine .ite (.of (by decide) <| hs0.trans <| State.loadDone_frame ..) ?_
  extract_lets +onlyGivenNames es good
  extract_lets +onlyGivenNames -merge src s1
  have hs1 : Frame _ s s1 := hs0.trans <| Frame.inSnilo
  extract_lets +onlyGivenNames s2
  have hs2 : Frame _ s s2 := hs1.trans <| (State.work_frame ..).trans <| State.refreshReady_frame ..
  exact .of (by decide) (Frame.cond (hs2.trans <| State.loadDone_frame ..) (hs2.trans <| State.loadDone_frame ..))

theorem execLoadExports_runs (s : State) : Runs [.regs, .reg, .arb, .kettle, .host, .units, .snilo] s (execLoadExports s) := by
  unfold execLoadExports
  refine .ite .stay ?_
  extract_lets +onlyGivenNames f n s0
  have hs0 : Frame _ s s0 := State.fset_frame ..
  refine .ite (.of (by decide) <| hs0.trans <| State.loadDone_frame ..) ?_
  extract_lets +onlyGivenNames es good t s1
  have hs1 : Frame _ s s1 := hs0.trans <| State.work_frame ..
  exact .ite (.of (by decide) <| hs1.trans <| State.loadDone_frame ..) (.of (by decide) (Frame.cond (hs1.trans <| Frame.inSnilo.trans <|
    (State.fset_frame ..).trans <| State.loadDone_frame ..) (hs1.trans <| Frame.inSnilo.trans <| (State.fset_frame ..).trans <|
    State.loadDone_frame ..)))

theorem execClearExports_runs (s : State) : Runs [.regs, .reg, .arb, .kettle, .host, .units, .snilo] s (execClearExports s) := by
  unfold execClearExports
  exact .ite .stay (.of (by decide) <| Frame.inSnilo.trans <| (State.fset_frame ..).trans <| (State.fset_frame ..).trans <| State.loadDone_frame ..)

theorem execSledIdWrite_runs (v : Nat) (s : State) : Runs [.regs, .reg, .arb, .kettle, .host, .units] s (execSledIdWrite v s) := by
  unfold execSledIdWrite
  exact .ite .stay (.ite (.of (by decide) <| (State.fset_frame ..).trans <| State.refreshReady_frame ..)
    (.of (by decide) (State.configReject_frame ..)))

theorem execPtpDelayRequestSend_runs (p cyc : Nat) (s : State) : Runs [.reg, .arb, .time] s (execPtpDelayRequestSend p cyc s) := by
  unfold execPtpDelayRequestSend
  exact .ite .stay (.of (by decide) <| (State.serve_frame ..).trans <| (State.setPtp_frame ..).trans <| State.tx_frame ..)

theorem execArpNeighborDiscovery_runs (p target : Nat) (v6 : Bool) (n m : Nat) (s : State) :
    Runs [.regs, .reg, .arb, .kettle, .host, .units, .time] s (execArpNeighborDiscovery p target v6 n m s) := by
  unfold execArpNeighborDiscovery
  exact .ite .stay (.ite (.of (by decide) (State.rxLost_frame ..)) (.ite (.of (by decide) <| (State.rx_frame ..).trans <|
    (State.ethBytes_frame ..).trans <| State.tx_frame ..) (.of (by decide) <| (State.rx_frame ..).trans <| (State.ethBytes_frame ..).trans <|
    State.discard_frame ..)))

theorem execPfcFrame_runs (p prio : Nat) (pause : Bool) (s : State) :
    Runs [.regs, .reg, .arb, .kettle, .host, .units, .time] s (execPfcFrame p prio pause s) := by
  unfold execPfcFrame
  exact .ite .stay (.ite (.of (by decide) (State.rxLost_frame ..)) (.ite (.of (by decide) <| (State.rx_frame ..).trans <|
    (State.discard_frame ..).trans <| State.ethBytes_frame ..) (.of (by decide) <| (State.rx_frame ..).trans <| (State.ethBytes_frame ..).trans <|
    Frame.inTime)))

end Sys2Proof.Machine
end

section
/-!
The obligations on frames and on canonical form (R8, R54, R223, R275).
-/

namespace Sys2Proof.Machine

/-- Settles O51: one frame lemma for each row of the family. -/
theorem modeAndPageFrames : Obligations.ModeAndPageFrames :=
  ⟨execOpRequestWrite_runs, execBoostAllowWrite_runs, execRampComplete_runs, execOp5ConditionFail_runs, execOp5HoldExpiry_runs,
   execRateWindowEnd_runs, execHandshakeStall_runs, execArbiterGrant_runs, execLockstepSlot_runs, execDetModeRequestWrite_runs,
   execDetModeToLockstep_runs, execDetModeToFree_runs, execArm_runs, execLockstepArmTick_runs, execBadAccess_runs, execRegisterWrite_runs,
   execReadLoLatch_runs, execReadClear_runs, execPairHiWrite_runs, execProxyReadTimeout_runs, execProxyWriteDropped_runs, execEnableWrite_runs,
   execDrainWrite_runs, execPageReset_runs, execUnitStartComplete_runs, execStartLimitExpiry_runs, execDrainComplete_runs, execErrStatusClear_runs,
   execErrorCapture_runs, execInjectGo_runs, execSnapshotTrigger_runs, execGlobalSnapshotTrigger_runs, execSnapshotCapture_runs,
   execTimeSourceRequestWrite_runs, execTestModeEnter_runs, execTestModeLeave_runs⟩

/-- What a command may change: every part of the state but the queue and the variant. -/
def Part.written : List Part :=
  [.regs, .tick, .freeCount, .reg, .power, .arb, .kettle, .boot, .eflash, .host, .cp, .units, .tiers, .time, .ftl, .nand, .near, .snilo, .rel, .hbm,
    .sb, .hostMem, .image, .pages]

/-- Whatever the command, it answers a next state that keeps the queue, the variant and canonical form. -/
theorem exec_runs (c : Instr) (s : State) : Runs Part.written s (exec c s) :=
  match c with
  | .powerOnStart .. => (execPowerOnStart_runs ..).within (by decide)
  | .inputSwitchClose => (execInputSwitchClose_runs ..).within (by decide)
  | .prsntBOpen .. => (execPrsntBOpen_runs ..).within (by decide)
  | .brownOut .. => (execBrownOut_runs ..).within (by decide)
  | .inputOverVoltage .. => (execInputOverVoltage_runs ..).within (by decide)
  | .inputOverCurrent .. => (execInputOverCurrent_runs ..).within (by decide)
  | .brownOutRecovery .. => (execBrownOutRecovery_runs ..).within (by decide)
  | .holdUpBankExhausted => (execHoldUpBankExhausted_runs ..).within (by decide)
  | .brownOutOpHoldExpiry => (execBrownOutOpHoldExpiry_runs ..).within (by decide)
  | .perstAssert .. => (execPerstAssert_runs ..).within (by decide)
  | .perstDeassert .. => (execPerstDeassert_runs ..).within (by decide)
  | .pcieLinkTrained .. => (execPcieLinkTrained_runs ..).within (by decide)
  | .pcieLaneRetire .. => (execPcieLaneRetire_runs ..).within (by decide)
  | .pcieUncorrectableTlp .. => (execPcieUncorrectableTlp_runs ..).within (by decide)
  | .controllerEnable .. => (execControllerEnable_runs ..).within (by decide)
  | .controllerReset .. => (execControllerReset_runs ..).within (by decide)
  | .shutdownNotification .. => (execShutdownNotification_runs ..).within (by decide)
  | .functionLevelReset .. => (execFunctionLevelReset_runs ..).within (by decide)
  | .mediaReady .. => (execMediaReady_runs ..).within (by decide)
  | .watchdogExpiry .. => (execWatchdogExpiry_runs ..).within (by decide)
  | .watchdogKick => (execWatchdogKick_runs ..).within (by decide)
  | .heartbeatReport .. => (execHeartbeatReport_runs ..).within (by decide)
  | .opRequestWrite .. => (execOpRequestWrite_runs ..).within (by decide)
  | .boostAllowWrite .. => (execBoostAllowWrite_runs ..).within (by decide)
  | .rampComplete => (execRampComplete_runs ..).within (by decide)
  | .op5ConditionFail => (execOp5ConditionFail_runs ..).within (by decide)
  | .op5HoldExpiry => (execOp5HoldExpiry_runs ..).within (by decide)
  | .rateWindowEnd .. => (execRateWindowEnd_runs ..).within (by decide)
  | .handshakeStall .. => (execHandshakeStall_runs ..).within (by decide)
  | .arbiterGrant .. => (execArbiterGrant_runs ..).within (by decide)
  | .lockstepSlot .. => (execLockstepSlot_runs ..).within (by decide)
  | .detModeRequestWrite .. => (execDetModeRequestWrite_runs ..).within (by decide)
  | .detModeToLockstep => (execDetModeToLockstep_runs ..).within (by decide)
  | .detModeToFree => (execDetModeToFree_runs ..).within (by decide)
  | .arm => (execArm_runs ..).within (by decide)
  | .lockstepArmTick => (execLockstepArmTick_runs ..).within (by decide)
  | .badAccess .. => (execBadAccess_runs ..).within (by decide)
  | .registerWrite .. => (execRegisterWrite_runs ..).within (by decide)
  | .readLoLatch .. => (execReadLoLatch_runs ..).within (by decide)
  | .readClear .. => (execReadClear_runs ..).within (by decide)
  | .pairHiWrite .. => (execPairHiWrite_runs ..).within (by decide)
  | .proxyReadTimeout .. => (execProxyReadTimeout_runs ..).within (by decide)
  | .proxyWriteDropped .. => (execProxyWriteDropped_runs ..).within (by decide)
  | .enableWrite .. => (execEnableWrite_runs ..).within (by decide)
  | .drainWrite .. => (execDrainWrite_runs ..).within (by decide)
  | .pageReset .. => (execPageReset_runs ..).within (by decide)
  | .unitStartComplete .. => (execUnitStartComplete_runs ..).within (by decide)
  | .startLimitExpiry .. => (execStartLimitExpiry_runs ..).within (by decide)
  | .drainComplete .. => (execDrainComplete_runs ..).within (by decide)
  | .errStatusClear .. => (execErrStatusClear_runs ..).within (by decide)
  | .errorCapture .. => (execErrorCapture_runs ..).within (by decide)
  | .injectGo .. => (execInjectGo_runs ..).within (by decide)
  | .snapshotTrigger .. => (execSnapshotTrigger_runs ..).within (by decide)
  | .globalSnapshotTrigger => (execGlobalSnapshotTrigger_runs ..).within (by decide)
  | .snapshotCapture => (execSnapshotCapture_runs ..).within (by decide)
  | .timeSourceRequestWrite .. => (execTimeSourceRequestWrite_runs ..).within (by decide)
  | .testModeEnter .. => (execTestModeEnter_runs ..).within (by decide)
  | .testModeLeave => (execTestModeLeave_runs ..).within (by decide)
  | .mediaReadOnlyEntry => (execMediaReadOnlyEntry_runs ..).within (by decide)
  | .sqDoorbell .. => (execSqDoorbell_runs ..).within (by decide)
  | .cqDoorbell .. => (execCqDoorbell_runs ..).within (by decide)
  | .commandFetch .. => (execCommandFetch_runs ..).within (by decide)
  | .overloadRaise .. => (execOverloadRaise_runs ..).within (by decide)
  | .overloadClear .. => (execOverloadClear_runs ..).within (by decide)
  | .identify .. => (execIdentify_runs ..).within (by decide)
  | .getLogPage .. => (execGetLogPage_runs ..).within (by decide)
  | .floorRatioOpenInterval .. => (execFloorRatioOpenInterval_runs ..).within (by decide)
  | .floorRatioCloseInterval .. => (execFloorRatioCloseInterval_runs ..).within (by decide)
  | .getFeatures .. => (execGetFeatures_runs ..).within (by decide)
  | .setFeatures .. => (execSetFeatures_runs ..).within (by decide)
  | .setFeaturesPowerManagement .. => (execSetFeaturesPowerManagement_runs ..).within (by decide)
  | .setFeaturesContextQuota .. => (execSetFeaturesContextQuota_runs ..).within (by decide)
  | .createIoSq .. => (execCreateIoSq_runs ..).within (by decide)
  | .createIoCq .. => (execCreateIoCq_runs ..).within (by decide)
  | .deleteIoSq .. => (execDeleteIoSq_runs ..).within (by decide)
  | .deleteIoCq .. => (execDeleteIoCq_runs ..).within (by decide)
  | .abort .. => (execAbort_runs ..).within (by decide)
  | .abortTimeout .. => (execAbortTimeout_runs ..).within (by decide)
  | .asyncEventRequest .. => (execAsyncEventRequest_runs ..).within (by decide)
  | .asyncEventPost .. => (execAsyncEventPost_runs ..).within (by decide)
  | .namespaceManagement .. => (execNamespaceManagement_runs ..).within (by decide)
  | .namespaceAttachment .. => (execNamespaceAttachment_runs ..).within (by decide)
  | .formatNvm .. => (execFormatNvm_runs ..).within (by decide)
  | .sanitize .. => (execSanitize_runs ..).within (by decide)
  | .sanitizeProgress => (execSanitizeProgress_runs ..).within (by decide)
  | .sanitizeComplete => (execSanitizeComplete_runs ..).within (by decide)
  | .sanitizeFail .. => (execSanitizeFail_runs ..).within (by decide)
  | .firmwareImageDownload .. => (execFirmwareImageDownload_runs ..).within (by decide)
  | .firmwareCommitWrite .. => (execFirmwareCommitWrite_runs ..).within (by decide)
  | .firmwareCommitWriteActivate .. => (execFirmwareCommitWriteActivate_runs ..).within (by decide)
  | .firmwareCommitActivate .. => (execFirmwareCommitActivate_runs ..).within (by decide)
  | .keyPackageCommit .. => (execKeyPackageCommit_runs ..).within (by decide)
  | .securitySend .. => (execSecuritySend_runs ..).within (by decide)
  | .securityReceive .. => (execSecurityReceive_runs ..).within (by decide)
  | .nvmeMiSend .. => (execNvmeMiSend_runs ..).within (by decide)
  | .nvmeMiReceive .. => (execNvmeMiReceive_runs ..).within (by decide)
  | .resumeContext .. => (execResumeContext_runs ..).within (by decide)
  | .tearDownContext .. => (execTearDownContext_runs ..).within (by decide)
  | .collectionDescriptorSet .. => (execCollectionDescriptorSet_runs ..).within (by decide)
  | .collectionDescriptorGet .. => (execCollectionDescriptorGet_runs ..).within (by decide)
  | .timeQuery .. => (execTimeQuery_runs ..).within (by decide)
  | .adminUnsupported .. => (execAdminUnsupported_runs ..).within (by decide)
  | .nvmRead .. => (execNvmRead_runs ..).within (by decide)
  | .nvmWrite .. => (execNvmWrite_runs ..).within (by decide)
  | .nvmFlush .. => (execNvmFlush_runs ..).within (by decide)
  | .nvmWriteZeroes .. => (execNvmWriteZeroes_runs ..).within (by decide)
  | .datasetManagementDeallocate .. => (execDatasetManagementDeallocate_runs ..).within (by decide)
  | .nvmCompare .. => (execNvmCompare_runs ..).within (by decide)
  | .nvmVerify .. => (execNvmVerify_runs ..).within (by decide)
  | .slmRead .. => (execSlmRead_runs ..).within (by decide)
  | .slmWrite .. => (execSlmWrite_runs ..).within (by decide)
  | .executeProgram .. => (execExecuteProgram_runs ..).within (by decide)
  | .loadProgram .. => (execLoadProgram_runs ..).within (by decide)
  | .programActivationManagement .. => (execProgramActivationManagement_runs ..).within (by decide)
  | .memoryRangeSetManagement .. => (execMemoryRangeSetManagement_runs ..).within (by decide)
  | .apstIdleExpiry => (execApstIdleExpiry_runs ..).within (by decide)
  | .psEntryStart => (execPsEntryStart_runs ..).within (by decide)
  | .psEntryComplete => (execPsEntryComplete_runs ..).within (by decide)
  | .psExitComplete => (execPsExitComplete_runs ..).within (by decide)
  | .taskStart .. => (execTaskStart_runs ..).within (by decide)
  | .taskEnd .. => (execTaskEnd_runs ..).within (by decide)
  | .taskFault .. => (execTaskFault_runs ..).within (by decide)
  | .taskTimeout .. => (execTaskTimeout_runs ..).within (by decide)
  | .barrier .. => (execBarrier_runs ..).within (by decide)
  | .barrierRelease .. => (execBarrierRelease_runs ..).within (by decide)
  | .semWait .. => (execSemWait_runs ..).within (by decide)
  | .semWaitSatisfied .. => (execSemWaitSatisfied_runs ..).within (by decide)
  | .semSignal .. => (execSemSignal_runs ..).within (by decide)
  | .semSignalEffect .. => (execSemSignalEffect_runs ..).within (by decide)
  | .yield .. => (execYield_runs ..).within (by decide)
  | .yieldDrained .. => (execYieldDrained_runs ..).within (by decide)
  | .repeat .. => (execRepeat_runs ..).within (by decide)
  | .griddleMm .. => (execGriddleMm_runs ..).within (by decide)
  | .griddlePassComplete .. => (execGriddlePassComplete_runs ..).within (by decide)
  | .griddleCheckError .. => (execGriddleCheckError_runs ..).within (by decide)
  | .streamMismatch .. => (execStreamMismatch_runs ..).within (by decide)
  | .griddleSelfCheck .. => (execGriddleSelfCheck_runs ..).within (by decide)
  | .griddleSelfCheckDone .. => (execGriddleSelfCheckDone_runs ..).within (by decide)
  | .selfCheckGo .. => (execSelfCheckGo_runs ..).within (by decide)
  | .spareRowCommit .. => (execSpareRowCommit_runs ..).within (by decide)
  | .griddleRetire .. => (execGriddleRetire_runs ..).within (by decide)
  | .drainCfg .. => (execDrainCfg_runs ..).within (by decide)
  | .drainTableLoadDone .. => (execDrainTableLoadDone_runs ..).within (by decide)
  | .drainTileStart .. => (execDrainTileStart_runs ..).within (by decide)
  | .drainTileComplete .. => (execDrainTileComplete_runs ..).within (by decide)
  | .drainError .. => (execDrainError_runs ..).within (by decide)
  | .ladleMove .. => (execLadleMove_runs ..).within (by decide)
  | .ladleMoveStart .. => (execLadleMoveStart_runs ..).within (by decide)
  | .ladleMoveComplete .. => (execLadleMoveComplete_runs ..).within (by decide)
  | .ladleHalt .. => (execLadleHalt_runs ..).within (by decide)
  | .sbReadError .. => (execSbReadError_runs ..).within (by decide)
  | .whisk .. => (execWhisk_runs ..).within (by decide)
  | .whiskCheckError .. => (execWhiskCheckError_runs ..).within (by decide)
  | .hbmReadError .. => (execHbmReadError_runs ..).within (by decide)
  | .hbmRowRepair .. => (execHbmRowRepair_runs ..).within (by decide)
  | .hbmPseudoChannelRetire .. => (execHbmPseudoChannelRetire_runs ..).within (by decide)
  | .heatDecay => (execHeatDecay_runs ..).within (by decide)
  | .placementPeriod => (execPlacementPeriod_runs ..).within (by decide)
  | .placementCopyComplete .. => (execPlacementCopyComplete_runs ..).within (by decide)
  | .windowPageReady .. => (execWindowPageReady_runs ..).within (by decide)
  | .batchStep .. => (execBatchStep_runs ..).within (by decide)
  | .createContext .. => (execCreateContext_runs ..).within (by decide)
  | .cmdTearDown .. => (execCmdTearDown_runs ..).within (by decide)
  | .cmdPreempt .. => (execCmdPreempt_runs ..).within (by decide)
  | .cmdSetPolicy .. => (execCmdSetPolicy_runs ..).within (by decide)
  | .contextLoad .. => (execContextLoad_runs ..).within (by decide)
  | .preemptDecision .. => (execPreemptDecision_runs ..).within (by decide)
  | .forceAfterExpiry .. => (execForceAfterExpiry_runs ..).within (by decide)
  | .forcedPreempt .. => (execForcedPreempt_runs ..).within (by decide)
  | .contextSaveComplete .. => (execContextSaveComplete_runs ..).within (by decide)
  | .contextRestore .. => (execContextRestore_runs ..).within (by decide)
  | .contextRestoreComplete .. => (execContextRestoreComplete_runs ..).within (by decide)
  | .puuStep .. => (execPuuStep_runs ..).within (by decide)
  | .puuStepComplete .. => (execPuuStepComplete_runs ..).within (by decide)
  | .puuStepFault .. => (execPuuStepFault_runs ..).within (by decide)
  | .puuSelfTestGo .. => (execPuuSelfTestGo_runs ..).within (by decide)
  | .puuSelfTestDone .. => (execPuuSelfTestDone_runs ..).within (by decide)
  | .filterLoad .. => (execFilterLoad_runs ..).within (by decide)
  | .filterCount .. => (execFilterCount_runs ..).within (by decide)
  | .filterBitmap .. => (execFilterBitmap_runs ..).within (by decide)
  | .filterGather .. => (execFilterGather_runs ..).within (by decide)
  | .skimScanLoadTables .. => (execSkimScanLoadTables_runs ..).within (by decide)
  | .skimScanScan .. => (execSkimScanScan_runs ..).within (by decide)
  | .colanderDescriptorComplete .. => (execColanderDescriptorComplete_runs ..).within (by decide)
  | .colanderRunFault .. => (execColanderRunFault_runs ..).within (by decide)
  | .skimMergeTables .. => (execSkimMergeTables_runs ..).within (by decide)
  | .skimMergeMerge .. => (execSkimMergeMerge_runs ..).within (by decide)
  | .skimMergeExpand .. => (execSkimMergeExpand_runs ..).within (by decide)
  | .skimMergeRerank .. => (execSkimMergeRerank_runs ..).within (by decide)
  | .skimMergeRescan .. => (execSkimMergeRescan_runs ..).within (by decide)
  | .skimMergeFetch .. => (execSkimMergeFetch_runs ..).within (by decide)
  | .skimMergeComplete .. => (execSkimMergeComplete_runs ..).within (by decide)
  | .epochAdvance .. => (execEpochAdvance_runs ..).within (by decide)
  | .flashProgram .. => (execFlashProgram_runs ..).within (by decide)
  | .flashProgramFail .. => (execFlashProgramFail_runs ..).within (by decide)
  | .flashErase .. => (execFlashErase_runs ..).within (by decide)
  | .flashRead .. => (execFlashRead_runs ..).within (by decide)
  | .flashKeyLoad .. => (execFlashKeyLoad_runs ..).within (by decide)
  | .programEraseResume .. => (execProgramEraseResume_runs ..).within (by decide)
  | .dieTimeout .. => (execDieTimeout_runs ..).within (by decide)
  | .zqCalibration .. => (execZqCalibration_runs ..).within (by decide)
  | .thresholdTemperatureUpdate .. => (execThresholdTemperatureUpdate_runs ..).within (by decide)
  | .onfiChannelStepDown .. => (execOnfiChannelStepDown_runs ..).within (by decide)
  | .dieRetire .. => (execDieRetire_runs ..).within (by decide)
  | .dieRelocationComplete .. => (execDieRelocationComplete_runs ..).within (by decide)
  | .packageRetire .. => (execPackageRetire_runs ..).within (by decide)
  | .packageEvacuationComplete .. => (execPackageEvacuationComplete_runs ..).within (by decide)
  | .stagingSlotCommit .. => (execStagingSlotCommit_runs ..).within (by decide)
  | .journalFlush => (execJournalFlush_runs ..).within (by decide)
  | .journalForcedFlush => (execJournalForcedFlush_runs ..).within (by decide)
  | .mapEccReload .. => (execMapEccReload_runs ..).within (by decide)
  | .gcCopyCommit .. => (execGcCopyCommit_runs ..).within (by decide)
  | .gcStart .. => (execGcStart_runs ..).within (by decide)
  | .gcStop .. => (execGcStop_runs ..).within (by decide)
  | .retentionRefresh .. => (execRetentionRefresh_runs ..).within (by decide)
  | .packageShed .. => (execPackageShed_runs ..).within (by decide)
  | .suspectIuRelocate .. => (execSuspectIuRelocate_runs ..).within (by decide)
  | .pantryLaneReplay .. => (execPantryLaneReplay_runs ..).within (by decide)
  | .pantryLaneSpare .. => (execPantryLaneSpare_runs ..).within (by decide)
  | .pantryLinkDegrade .. => (execPantryLinkDegrade_runs ..).within (by decide)
  | .colanderSelfCheck .. => (execColanderSelfCheck_runs ..).within (by decide)
  | .hobLinkFault .. => (execHobLinkFault_runs ..).within (by decide)
  | .hobLinkLaneRepair .. => (execHobLinkLaneRepair_runs ..).within (by decide)
  | .unitRetirement .. => (execUnitRetirement_runs ..).within (by decide)
  | .nandPatrol .. => (execNandPatrol_runs ..).within (by decide)
  | .mediaScan .. => (execMediaScan_runs ..).within (by decide)
  | .hbmScrub .. => (execHbmScrub_runs ..).within (by decide)
  | .sramScrub .. => (execSramScrub_runs ..).within (by decide)
  | .lpddr5xScrub .. => (execLpddr5xScrub_runs ..).within (by decide)
  | .spareGriddleCheck .. => (execSpareGriddleCheck_runs ..).within (by decide)
  | .spareLaneCheck .. => (execSpareLaneCheck_runs ..).within (by decide)
  | .edgeRepairPass .. => (execEdgeRepairPass_runs ..).within (by decide)
  | .sensorSample .. => (execSensorSample_runs ..).within (by decide)
  | .railMonitorRecalibrate .. => (execRailMonitorRecalibrate_runs ..).within (by decide)
  | .thermalTripClear => (execThermalTripClear_runs ..).within (by decide)
  | .thermalShutdownRelease .. => (execThermalShutdownRelease_runs ..).within (by decide)
  | .powerCapWrite .. => (execPowerCapWrite_runs ..).within (by decide)
  | .powerCapWindow => (execPowerCapWindow_runs ..).within (by decide)
  | .recorderEntryAccept => (execRecorderEntryAccept_runs ..).within (by decide)
  | .recorderFreeze .. => (execRecorderFreeze_runs ..).within (by decide)
  | .hostFreeze .. => (execHostFreeze_runs ..).within (by decide)
  | .unfreeze .. => (execUnfreeze_runs ..).within (by decide)
  | .recordPersist .. => (execRecordPersist_runs ..).within (by decide)
  | .mctpSetEndpointId .. => (execMctpSetEndpointId_runs ..).within (by decide)
  | .nvmeMiRequest .. => (execNvmeMiRequest_runs ..).within (by decide)
  | .pldmPlatformRequest .. => (execPldmPlatformRequest_runs ..).within (by decide)
  | .pldmRequestUpdate => (execPldmRequestUpdate_runs ..).within (by decide)
  | .pldmUpdateComponent .. => (execPldmUpdateComponent_runs ..).within (by decide)
  | .pldmFirmwareData .. => (execPldmFirmwareData_runs ..).within (by decide)
  | .pldmActivateFirmware .. => (execPldmActivateFirmware_runs ..).within (by decide)
  | .pldmCancelUpdate => (execPldmCancelUpdate_runs ..).within (by decide)
  | .plannedKettleRestart .. => (execPlannedKettleRestart_runs ..).within (by decide)
  | .eflashRead .. => (execEflashRead_runs ..).within (by decide)
  | .eflashProgram .. => (execEflashProgram_runs ..).within (by decide)
  | .eflashErase .. => (execEflashErase_runs ..).within (by decide)
  | .eflashBlankCheck .. => (execEflashBlankCheck_runs ..).within (by decide)
  | .configStoreCompaction => (execConfigStoreCompaction_runs ..).within (by decide)
  | .ptpSyncReceived .. => (execPtpSyncReceived_runs ..).within (by decide)
  | .ptpAnnounceReceived .. => (execPtpAnnounceReceived_runs ..).within (by decide)
  | .ptpDelayResponse .. => (execPtpDelayResponse_runs ..).within (by decide)
  | .ptpPdelayRequest .. => (execPtpPdelayRequest_runs ..).within (by decide)
  | .ptpSourceLoss .. => (execPtpSourceLoss_runs ..).within (by decide)
  | .ptpPreferredReturn => (execPtpPreferredReturn_runs ..).within (by decide)
  | .ptmDialog .. => (execPtmDialog_runs ..).within (by decide)
  | .ppsOutEdge => (execPpsOutEdge_runs ..).within (by decide)
  | .ppsInEdge .. => (execPpsInEdge_runs ..).within (by decide)
  | .ppsInMissing => (execPpsInMissing_runs ..).within (by decide)
  | .ethernetLinkDown .. => (execEthernetLinkDown_runs ..).within (by decide)
  | .ethernetLinkUp .. => (execEthernetLinkUp_runs ..).within (by decide)
  | .ethernetFrameDiscard .. => (execEthernetFrameDiscard_runs ..).within (by decide)
  | .sniloReadReq .. => (execSniloReadReq_runs ..).within (by decide)
  | .sniloReadRsp .. => (execSniloReadRsp_runs ..).within (by decide)
  | .sniloNak .. => (execSniloNak_runs ..).within (by decide)
  | .sniloRetransmit .. => (execSniloRetransmit_runs ..).within (by decide)
  | .sniloRemoteTimeout .. => (execSniloRemoteTimeout_runs ..).within (by decide)
  | .sniloCreditsEnd .. => (execSniloCreditsEnd_runs ..).within (by decide)
  | .loadPeers => (execLoadPeers_runs ..).within (by decide)
  | .loadExports => (execLoadExports_runs ..).within (by decide)
  | .clearExports => (execClearExports_runs ..).within (by decide)
  | .sledIdWrite .. => (execSledIdWrite_runs ..).within (by decide)
  | .pantryLaneLossOfLock .. => (execPantryLaneLossOfLock_runs ..).within (by decide)
  | .pcieLinkReplay .. => (execPcieLinkReplay_runs ..).within (by decide)
  | .ptpDelayRequestSend .. => (execPtpDelayRequestSend_runs ..).within (by decide)
  | .arpNeighborDiscovery .. => (execArpNeighborDiscovery_runs ..).within (by decide)
  | .pfcFrame .. => (execPfcFrame_runs ..).within (by decide)
  | .pcieConfigurationWrite .. => (execPcieConfigurationWrite_runs ..).within (by decide)
  | .interruptCoalescingTimeout .. => (execInterruptCoalescingTimeout_runs ..).within (by decide)

/-- A tick on an empty queue keeps them too. -/
theorem State.passTick_within (s : State) : Frame Part.written s s.passTick := s.passTick_frame.within (by decide)

/-- What lies within `Part.written` keeps canonical form, the queue and the variant. -/
theorem Frame.keeps {s t : State} (h : Frame Part.written s t) (hc : s.Canon) : t.Canon ∧ t.pending = s.pending ∧ t.variant = s.variant :=
  ⟨h.2 hc, h.1 .pending (by decide), h.1 .variant (by decide)⟩

/-- Settles O46: a step is a tick on the empty queue, or the command at its front executed on the state without it. -/
theorem everyStepKeepsCanonicalForm : Obligations.EveryStepKeepsCanonicalForm := by
  intro s hc
  cases hp : s.pending with
  | nil =>
    obtain ⟨hc', hq, hv⟩ := s.passTick_within.keeps hc
    exact ⟨s.passTick, by simp [step, hp], hc', by simp [hq, hp], hv⟩
  | cons c rest =>
    obtain ⟨t, ht, hf⟩ := exec_runs c { s with pending := rest }
    obtain ⟨hc', hq, hv⟩ := hf.keeps hc
    exact ⟨t, by simpa [step, hp] using ht, hc', hq, hv⟩

end Sys2Proof.Machine
end

section
/-!
The state after reset and the Colanders that the MF-3072-C lacks (R3, R10, R20, R574, R575).
-/

namespace Sys2Proof.Machine

/-! ### The state after reset -/

/-- After reset no register is listed, so each field reads as its table's reset value. -/
theorem fget_reset (f : Field) (i : Nat) : State.reset.fget f i = f.dflt i := rfl

/-- A memory that lists nothing reads 0 everywhere. -/
theorem read_empty (a : Nat) : Mem.empty.read a = 0 := rfl

/-- Settles O44: the values named are those of the register tables. -/
theorem resetHoldsTheTablesValues : Obligations.ResetHoldsTheTablesValues :=
  ⟨rfl, fget_reset, fun a => ⟨read_empty a, read_empty a, read_empty a⟩, (fget_reset ..).trans (by decide), (fget_reset ..).trans (by decide),
    (fget_reset ..).trans (by decide), (fget_reset ..).trans (by decide)⟩

/-- Settles O45: the register store and the memories list nothing. -/
theorem resetIsCanonical : Obligations.ResetIsCanonical :=
  ⟨rfl, wf_empty, wf_empty, wf_empty, wf_empty⟩

/-! ### Colander positions -/

theorem colanderFitted_c (p : Nat) : colanderFitted .c p = true ↔ p ≤ 15 ∨ (32 ≤ p ∧ p ≤ 47) := by
  simp only [colanderFitted, Bool.or_eq_true, Bool.and_eq_true, decide_eq_true_eq]
  omega

theorem present_colander {p : Nat} (v : Variant) (hp : p < 64) : Sys2Proof.Machine.present v 0x21 p = colanderFitted v p := by
  simp [Sys2Proof.Machine.present, instancesOf, hp]

/-- An absent page reads 0 and takes no write (R4, R56). -/
theorem readWord_of_absent {s : State} {c i : Nat} (h : Sys2Proof.Machine.present s.variant c i = false) (off : Nat) : s.readWord c i off = 0 := by
  simp [State.readWord, h]

theorem writeWord_of_absent {s : State} {c i : Nat} (h : Sys2Proof.Machine.present s.variant c i = false) (off v : Nat) :
    s.writeWord c i off v = s := by
  simp [State.writeWord, h]

/-- Settles O33: a position that is not fitted has no page, and an absent page reads 0 and takes no write. -/
theorem unfittedColandersAreAbsent : Obligations.UnfittedColandersAreAbsent := by
  refine ⟨fun p _ => colanderFitted_c p, by decide, fun s p off v hv hp => ?_⟩
  have habs : Sys2Proof.Machine.present s.variant 0x21 p = false := by
    rw [present_colander _ (by omega), hv, ← Bool.not_eq_true, colanderFitted_c]
    omega
  exact ⟨habs, readWord_of_absent habs off, writeWord_of_absent habs off v⟩

end Sys2Proof.Machine
end

section
/-!
What the accesses of the register function do (R4, R8, R9, R56, R57, R75, R77).
-/

namespace Sys2Proof.Machine

/-! ### The path of an access -/

theorem accessOk_narrow (v : Variant) (a : Nat) : accessOk v a 32 = true ↔ a % 4 = 0 := by
  simp [accessOk]

theorem accessOk_wide (v : Variant) (a : Nat) : accessOk v a 64 = true ↔
    a % 8 = 0 ∧ (Sys2Proof.Machine.present v (addrClass a) (addrInst a) = false ∨ (loOffsets (addrClass a)).contains (addrOff a) = true) := by
  simp [accessOk]

theorem State.pageOn_iff (s : State) (c i : Nat) : s.pageOn c i = true ↔ s.hostUp = true ∧ Sys2Proof.Machine.present s.variant c i = true := by
  simp [State.pageOn]

/-- While host software reaches the device, an access has its effect on the state in which its path is crossed. -/
theorem State.access_of_hostUp {s : State} (h : s.hostUp = true) (n c i : Nat) (f : State → State) :
    s.access n c i f = .next (f (s.accessed n c i)) := by
  simp [State.access, h]

@[simp] theorem State.accessed_variant (s : State) (n c i : Nat) : (s.accessed n c i).variant = s.variant :=
  (s.accessed_frame n c i).1 .variant (by decide)

@[simp] theorem State.accessed_tick (s : State) (n c i : Nat) : (s.accessed n c i).tick = s.tick :=
  (s.accessed_frame n c i).1 .tick (by decide)

@[simp] theorem State.readOnce_tick (s : State) (c i off : Nat) : (s.readOnce c i off).tick = s.tick :=
  (s.readOnce_frame c i off).1 .tick (by decide)

/-! ### Fields cleared by a read -/

/-- Clearing fields of a page is no change of the register function. -/
theorem foldl_fset_zero_reg (fs : List Field) (i : Nat) (s : State) : (fs.foldl (fun (t : State) f => t.fset f i 0) s).reg = s.reg := by
  induction fs generalizing s with
  | nil => rfl
  | cons f fs ih => exact ih _

/-- A field that reads 0 still does after fields of its page are cleared. -/
theorem foldl_fset_zero_keeps (fs : List Field) (i : Nat) {s : State} {g : Field} (h : s.fget g i = 0) :
    (fs.foldl (fun (t : State) f => t.fset f i 0) s).fget g i = 0 := by
  induction fs generalizing s with
  | nil => exact h
  | cons f fs ih => exact ih (by simp [State.fget_fset, h])

/-- Each of the fields cleared reads 0. -/
theorem foldl_fset_zero_fget {fs : List Field} (i : Nat) (s : State) {g : Field} (hg : g ∈ fs) :
    (fs.foldl (fun (t : State) f => t.fset f i 0) s).fget g i = 0 := by
  induction fs generalizing s with
  | nil => cases hg
  | cons f fs ih =>
    cases hg with
    | head => exact foldl_fset_zero_keeps fs i (by simp)
    | tail _ hg => exact ih _ hg

/-! ### One word read (R8, R9, R56) -/

theorem State.readOnce_of_absent {s : State} {c i : Nat} (h : Sys2Proof.Machine.present s.variant c i = false) (off : Nat) :
    s.readOnce c i off = s.answer [0] := by
  simp [State.readOnce, h]

/-- A read of two words of an absent page returns 0 for each. -/
theorem State.readTwice_of_absent {s : State} {c i : Nat} (h : Sys2Proof.Machine.present s.variant c i = false) (off : Nat) :
    s.readTwice c i off = s.answer [0, 0] := by
  have h1 : Sys2Proof.Machine.present (s.answer [0]).variant c i = false := h
  rw [State.readTwice, State.readOnce_of_absent h, State.readOnce_of_absent h1]
  rfl

section
variable {s : State} {c i off : Nat} (hp : Sys2Proof.Machine.present s.variant c i = true) (hdtc : ¬ (c = 0x02 ∧ off = 0x100))
include hp hdtc

/-- A read of a word of a present page, DTC_NS apart, returns the word. -/
theorem State.readOnce_readData : (s.readOnce c i off).reg.readData = [s.readWord c i off] := by
  simp only [State.readOnce, hp, hdtc, not_true_eq_false, if_false, foldl_fset_zero_reg]
  split <;> split <;> rfl

/-- A read of LO latches HI. -/
theorem State.readOnce_latch (hlo : (loOffsets c).contains off = true) :
    sget? (s.readOnce c i off).reg.latch (wordKey c i off) = some (s.pageWord c i (off + 4)) := by
  simp only [State.readOnce, hp, hdtc, hlo, not_true_eq_false, if_false, if_true, foldl_fset_zero_reg]
  split <;> simp [State.rearm, State.setCtrl]

/-- A read leaves the RC fields of its word 0. -/
theorem State.readOnce_rc {f : Field} (hf : f ∈ fieldsOf c) (hoff : f.off = off) (hrc : f.acc = .rc) : (s.readOnce c i off).fget f i = 0 := by
  simp only [State.readOnce, hp, hdtc, not_true_eq_false, if_false]
  exact foldl_fset_zero_fget i _ (by simp [hf, hoff, hrc])

end

/-! ### The commands -/

section
variable {a : Nat} {s : State}

/-- A narrow read of a LO word is a read of that word. -/
theorem execReadLoLatch_narrow (hu : s.hostUp = true) (ha : a % 4 = 0) (hlo : (loOffsets (addrClass a)).contains (addrOff a) = true) :
    execReadLoLatch a false s = .next ((s.accessed 4 (addrClass a) (addrInst a)).readOnce (addrClass a) (addrInst a) (addrOff a)) := by
  have hok := (accessOk_narrow s.variant a).2 ha
  simp only [execReadLoLatch, Bool.false_eq_true, if_false, hok, hlo, not_true_eq_false, false_and, and_false, or_false]
  exact State.access_of_hostUp hu ..

/-- A wide read that the register function accepts reads both words. -/
theorem execReadLoLatch_wide (hu : s.hostUp = true) (hok : accessOk s.variant a 64 = true) :
    execReadLoLatch a true s = .next ((s.accessed 8 (addrClass a) (addrInst a)).readTwice (addrClass a) (addrInst a) (addrOff a)) := by
  unfold execReadLoLatch
  rw [if_neg]
  · exact State.access_of_hostUp hu ..
  · obtain ⟨-, habs | hlo⟩ := (accessOk_wide s.variant a).1 hok
    · simp [hok, habs]
    · simp [hok, List.contains_iff_mem.1 hlo]

theorem execReadClear_aligned (hu : s.hostUp = true) (ha : a % 4 = 0) :
    execReadClear a s = .next ((s.accessed 4 (addrClass a) (addrInst a)).readOnce (addrClass a) (addrInst a) (addrOff a)) := by
  have hok := (accessOk_narrow s.variant a).2 ha
  simp only [execReadClear, hok, not_true_eq_false, if_false]
  exact State.access_of_hostUp hu ..

end

/-- Settles O5: each command is its access, and an access of a device that is up acts on the state it is counted in. -/
theorem registerAccessCommandsComplete : Obligations.RegisterAccessCommandsComplete := by
  refine ⟨?badAccess, ?writeNarrow, ?writeWide, ?pairHi, ?readLo, ?readWide, ?readClear, ?absent, ?proxyRead, ?proxyWrite⟩
  case badAccess =>
    intro a size s hu hbad
    constructor <;> simp [exec, execBadAccess, hbad, State.access_of_hostUp hu]
  case writeNarrow =>
    intro a v s hu ha
    simp [exec, execRegisterWrite, (accessOk_narrow s.variant a).2 ha, State.access_of_hostUp hu]
  case writeWide =>
    rintro a v s u hu hok rfl
    simp [exec, execRegisterWrite, hok, State.access_of_hostUp hu]
  case pairHi =>
    intro a v s hu ha hoff
    have hge : ¬ (a % 4 ≠ 0 ∨ addrOff a < 4) := by omega
    simp only [exec, execPairHiWrite, hge, if_false, State.access_of_hostUp hu]
  case readLo =>
    rintro a s u hon ha hdtc hlo rfl
    obtain ⟨hu, hp⟩ := (s.pageOn_iff ..).1 hon
    rw [← s.accessed_variant 4 (addrClass a) (addrInst a)] at hp
    exact ⟨_, execReadLoLatch_narrow hu ha hlo, State.readOnce_readData hp hdtc, State.readOnce_latch hp hdtc hlo⟩
  case readWide =>
    intro a s hon hok
    exact execReadLoLatch_wide ((s.pageOn_iff ..).1 hon).1 hok
  case readClear =>
    rintro a s u hon ha hdtc rfl
    obtain ⟨hu, hp⟩ := (s.pageOn_iff ..).1 hon
    rw [← s.accessed_variant 4 (addrClass a) (addrInst a)] at hp
    exact ⟨_, execReadClear_aligned hu ha, State.readOnce_readData hp hdtc, fun f hf hoff hrc => State.readOnce_rc hp hdtc hf hoff hrc, by simp⟩
  case absent =>
    intro a s hu habs
    have hacc (n : Nat) : Sys2Proof.Machine.present (s.accessed n (addrClass a) (addrInst a)).variant (addrClass a) (addrInst a) = false := by
      rw [State.accessed_variant, habs]
    constructor
    · intro ha
      exact (execReadClear_aligned hu ha).trans (by rw [State.readOnce_of_absent (hacc 4)])
    · intro ha
      exact (execReadLoLatch_wide hu ((accessOk_wide ..).2 ⟨ha, .inl habs⟩)).trans (by rw [State.readTwice_of_absent (hacc 8)])
  case proxyRead =>
    intro k off s hon hoff hlt
    refine ⟨_, rfl, ?_⟩
    have hreach : ¬ (¬ s.pageOn 0x21 k = true ∨ off % 4 ≠ 0 ∨ 4096 ≤ off) := by simp [hon, hoff, hlt]
    exact if_neg hreach
  case proxyWrite =>
    intro k s hon
    simp [exec, execProxyWriteDropped, hon]

end Sys2Proof.Machine
end

section
/-!
The obligation on the frames of power, reset, link and start-up (R20, R49, R101, R102, R519, R527, R567).
-/

namespace Sys2Proof.Machine

/-- Settles O50: one frame lemma for each row of the family. -/
theorem powerLinkAndStartFrames : Obligations.PowerLinkAndStartFrames :=
  ⟨execPowerOnStart_runs, execInputSwitchClose_runs, execPrsntBOpen_runs, execBrownOut_runs, execInputOverVoltage_runs,
   execInputOverCurrent_runs, execBrownOutRecovery_runs, execHoldUpBankExhausted_runs, execBrownOutOpHoldExpiry_runs, execPerstAssert_runs,
   execPerstDeassert_runs, execPcieLinkTrained_runs, execPcieLaneRetire_runs, execPcieUncorrectableTlp_runs, execControllerEnable_runs,
   execControllerReset_runs, execShutdownNotification_runs, execFunctionLevelReset_runs, execMediaReady_runs, execWatchdogExpiry_runs,
   execWatchdogKick_runs, execHeartbeatReport_runs, execThermalShutdownRelease_runs, execPlannedKettleRestart_runs, execPcieLinkReplay_runs,
   execPcieConfigurationWrite_runs, execInterruptCoalescingTimeout_runs⟩

end Sys2Proof.Machine
end

section
/-!
What PERST#, the watchdog and the restarts do (R20, R49, R442, R488, R519, R520, R523, R526, R527).
-/

namespace Sys2Proof.Machine

section
variable {s : State}

/-- PERST# asserted to a running control plane, or a hot reset over a link that is up, goes through (R20, R442). -/
theorem execPerstAssert_of_controlUp {hot : Bool} (hp : s.power.perst = false) (hc : s.power.controlUp = true)
    (hl : hot = true → s.host.linkUp = true) : ∃ u : State,
    u = ((({ s with power := { s.power with perst := true } } : State).stagingFlush.flush).setPs 0) ∧
    execPerstAssert s hot = .next (({ u with ftl := { u.ftl with clean := true } } : State).planeReset.driveOp) := by
  have hgo : ¬ (hot = true ∧ ¬ s.host.linkUp = true) := fun h => h.2 (hl h.1)
  have hup : ¬ (s.power.perst = true ∨ ¬ s.power.controlUp = true) := by simp [hp, hc]
  refine ⟨_, rfl, ?_⟩
  unfold execPerstAssert
  rw [if_neg hgo, if_neg hup]

/-- PERST# released with nothing else holding the planes: a pending slot takes over, and the control plane starts (R519, R523). -/
theorem execPerstDeassert_of_released (bad fails : Bool) (hp : s.power.perst = true) (hk : s.power.kettleUp = true)
    (hc : s.power.controlUp = false) (hb : s.power.brownOut = false) (ht : s.power.thermalOff = false) (hr : s.boot.restart = 0) : ∃ u : State,
    u = ({ s with power := { s.power with perst := false } } : State) ∧
    execPerstDeassert bad fails s = .next ((if u.pendingSlot.isSome then u.chooseSlot else u).startControl 4 bad fails) := by
  refine ⟨_, rfl, if_neg ?_⟩
  simp [hp, hk, hc, hb, ht, hr]

section
variable (op : Nat) (w : Bool) (inp : StartInput) (hd : s.boot.wdtAt ≤ s.tick)
include hd

/-- The watchdog runs out over a Kettle that the ROM could not start (R520, R526). -/
theorem execWatchdogExpiry_of_kettleDown (hk : s.power.kettleUp = false) (hr : s.boot.romFault = true ∨ s.boot.romRecovery = true) :
    execWatchdogExpiry op w inp s =
      .next (({ s with boot := { s.boot with wdtExpiries := s.boot.wdtExpiries + 1 } } : State).startUp 1 inp) := by
  have hruns : ¬ (s.tick < s.boot.wdtAt ∨ ¬ (s.power.kettleUp = true ∨ s.boot.romFault = true ∨ s.boot.romRecovery = true)) := by
    simp [hd, hr]
  have hdown : ¬ s.power.kettleUp = true := by simp [hk]
  exact (if_neg hruns).trans (if_pos hdown)

/-- The watchdog runs out over a running Kettle: flush, record, freeze and reset come before the start-up (R526, R527). -/
theorem execWatchdogExpiry_of_kettleUp (hk : s.power.kettleUp = true) : ∃ u v : State,
    u = ({ s with boot := { s.boot with wdtExpiries := s.boot.wdtExpiries + 1 } } : State) ∧
    v = (if u.power.controlUp then u.stagingFlush else u).ringNow 0x01 0x0605
      (le (s.wdtStage + 65536 * s.silentSource + 16777216 * (op % 4)) 4) true ∧
    execWatchdogExpiry op w inp s = .next (((v.freeze 1).persist w).planeReset.startUp 1 inp) := by
  have hruns : ¬ (s.tick < s.boot.wdtAt ∨ ¬ (s.power.kettleUp = true ∨ s.boot.romFault = true ∨ s.boot.romRecovery = true)) := by
    simp [hd, hk]
  have hup : ¬ ¬ s.power.kettleUp = true := not_not_intro hk
  exact ⟨_, _, rfl, rfl, (if_neg hruns).trans (if_neg hup)⟩

end

end

/-- Settles O2: each event passes its guards, and its row's effect follows. -/
theorem resetAndWatchdogCommandsComplete : Obligations.ResetAndWatchdogCommandsComplete := by
  refine ⟨?perstAssert, ?perstDeassert, ?expiry, ?kick, ?heartbeat, ?plannedRestart, ?thermalRelease⟩
  case perstAssert =>
    intro hot s hp hc hl
    exact execPerstAssert_of_controlUp hp hc hl
  case perstDeassert =>
    intro bad fails s hp hk hc hb ht hr
    exact execPerstDeassert_of_released bad fails hp hk hc hb ht hr
  case expiry =>
    intro op w inp s hd
    exact ⟨execWatchdogExpiry_of_kettleDown op w inp hd, execWatchdogExpiry_of_kettleUp op w inp hd⟩
  case kick =>
    intro s hk hbeats
    refine if_pos ⟨hk, ?_⟩
    simpa only [List.all_eq_true, decide_eq_true_eq] using hbeats
  case heartbeat =>
    intro src v s hb
    exact if_neg (by simp [hb])
  case plannedRestart =>
    intro inp s hr
    exact if_neg hr
  case thermalRelease =>
    intro bad fails n s hn ht hb hd
    have hover : ¬ (¬ s.power.thermalOff = true ∨ s.power.brownOut = true ∨ s.tick < n + ticksMs 60000) := by simp [ht, hb, hd]
    simp only [exec, execThermalShutdownRelease, hn, hover, if_false]

end Sys2Proof.Machine
end

section
/-!
What the PCIe link, the controllers, the functions and the end of the rebuild do (R101 to R107, R116, R135, R443).
-/

namespace Sys2Proof.Machine

/-! ### The retired lanes

Of the host part, an error touches controllers, completions and interrupts, never the lanes. -/

/-- A change that does not touch the host part leaves the retired lanes. -/
theorem Frame.lanesRetired {ps : List Part} {s t : State} (h : Frame ps s t) (hp : Part.host ∉ ps) :
    t.host.lanesRetired = s.host.lanesRetired :=
  congrArg HostIf.lanesRetired (h.1 .host hp)

theorem State.interrupt_lanesRetired (s : State) (fn iv : Nat) (admin : Bool) :
    (s.interrupt fn iv admin).host.lanesRetired = s.host.lanesRetired := by
  unfold State.interrupt
  extract_lets f off k
  split
  · exact ((State.pcie_frame ..).lanesRetired (by decide)).trans rfl
  · rfl

theorem State.place_lanesRetired (s : State) (c : Cpl) : (s.place c).host.lanesRetired = s.host.lanesRetired := by
  unfold State.place
  extract_lets k
  split
  · rfl
  · split
    · extract_lets +onlyGivenNames s1
      split
      · exact (State.interrupt_lanesRetired ..).trans rfl
      · rfl
    · rfl

theorem State.complete_lanesRetired (s : State) (c : CmdId) (sct sc dw0 dw1 : Nat) (data : List Byte) :
    (s.complete c sct sc dw0 dw1 data).host.lanesRetired = s.host.lanesRetired := by
  unfold State.complete
  extract_lets +onlyGivenNames s0
  have hs0 : s0.host.lanesRetired = s.host.lanesRetired := calc
    s0.host.lanesRetired = _ := (State.pcie_frame ..).lanesRetired (by decide)
    _ = (s.serve 5 0 0).host.lanesRetired := State.place_lanesRetired ..
    _ = s.host.lanesRetired := (State.serve_frame ..).lanesRetired (by decide)
  extract_lets +onlyGivenNames -merge src sq
  have hsq : sq.host.lanesRetired = s.host.lanesRetired := by
    unfold sq
    split <;> exact hs0
  extract_lets +onlyGivenNames -merge s1
  have hs1 : s1.host.lanesRetired = s.host.lanesRetired := by
    unfold s1
    split <;> exact hsq
  extract_lets
  split <;> exact hs1

theorem State.aer_lanesRetired (s : State) (fn type info who : Nat) :
    (s.aer fn type info who).host.lanesRetired = s.host.lanesRetired := by
  have hpost : (s.aerPost fn type info who).host.lanesRetired = s.host.lanesRetired := by
    unfold State.aerPost
    extract_lets c
    split
    · rfl
    · split
      · rfl
      · exact State.complete_lanesRetired ..
  unfold State.aer
  split
  · exact hpost
  · rfl

theorem State.err_lanesRetired (s : State) (c i : Nat) (bs : List Nat) (info ctx : Nat) (inj : Bool) :
    (s.err c i bs info ctx inj).host.lanesRetired = s.host.lanesRetired := by
  unfold State.err
  extract_lets s1
  have hs1 : s1.host.lanesRetired = s.host.lanesRetired := (Frame.fold fun _ _ => State.errBit_frame ..).lanesRetired (by decide)
  split
  · exact (State.aer_lanesRetired ..).trans hs1
  · exact hs1

@[simp] theorem State.recordRetirement_lanesRetired (s : State) (c i sub : Nat) :
    (s.recordRetirement c i sub).host.lanesRetired = s.host.lanesRetired := by
  have hshow (t : State) (code : Nat) (p vs : List Nat) :
      ((t.recEv c i code p).pldmEvent vs).host.lanesRetired = t.host.lanesRetired :=
    ((State.recEv_frame ..).trans (State.pldmEvent_frame ..)).lanesRetired (by decide)
  unfold State.recordRetirement
  split
  · exact (hshow ..).trans rfl
  · exact (hshow ..).trans (State.err_lanesRetired ..)

/-! ### The link -/

section
variable {s : State} (hon : s.planesOn = true)
include hon

section
variable {width : Nat} (hlow : s.host.belowMin = false) (hw : width = 4 ∨ width = 8 ∨ width = 16)
  (hfree : widthAvoiding s.host.lanesRetired ≠ 0)
include hlow hw hfree

/-- A training that settles passes the guards: some width is left for the link. -/
theorem pcieLinkTrained_takes {rate : Nat} (h1 : 1 ≤ rate) (h4 : rate ≤ 4) : ¬ (¬ s.planesOn = true ∨ s.host.belowMin = true ∨
    ¬ (width = 4 ∨ width = 8 ∨ width = 16) ∨ rate = 0 ∨ 4 < rate ∨ min width (widthAvoiding s.host.lanesRetired) = 0) := by
  have hmin : min width (widthAvoiding s.host.lanesRetired) ≠ 0 := by omega
  simp [hon, hlow, hw, hmin]
  omega

/-- At 32 GT/s or more the link is up at the width that the retired lanes allow (R101 to R103). -/
theorem execPcieLinkTrained_of_rate {rate : Nat} (h1 : 1 ≤ rate) (h3 : rate ≤ 3) : execPcieLinkTrained width rate s =
    .next ((if s.host.trained = true then s.fbump front_RETRAIN_COUNT 0 1 else s).linkAt
      (min width (widthAvoiding s.host.lanesRetired)) rate) := by
  have hne : rate ≠ 4 := by omega
  exact (if_neg (pcieLinkTrained_takes hon hlow hw hfree h1 (by omega))).trans (if_pos hne)

/-- Below 32 GT/s the link retrains, three times at most (R102). -/
theorem execPcieLinkTrained_of_low (ht : s.host.lowTries < 3) : execPcieLinkTrained width 4 s =
    .next ((({ s with host := { s.host with lowTries := s.host.lowTries + 1 } } : State).linkDown).fbump front_RETRAIN_COUNT 0 1) := by
  have htry : s.host.lowTries + 1 ≤ 3 := ht
  unfold execPcieLinkTrained
  rw [if_neg (pcieLinkTrained_takes hon hlow hw hfree (by decide) (by decide)), if_neg (not_not_intro rfl), if_pos htry]

end

/-- A lane that failed equalisation is recorded as retired; the rest follows from whether the link uses it (R103). -/
theorem execPcieLaneRetire_of_eq {lane : Nat} (hl : lane < 16) (hnew : s.host.lanesRetired.contains lane = false) {w : Nat} {u : State}
    (hw : w = min (widthAvoiding (lane :: s.host.lanesRetired)) s.host.width)
    (hu : u = ({ s with host := { s.host with lanesRetired := lane :: s.host.lanesRetired } } : State).recordRetirement 0x03 0 lane) :
    execPcieLaneRetire lane true s = if ¬ s.laneUsed lane = true then .next u else if w = 0 then .next u.linkDown
      else .next ((u.fbump front_RETRAIN_COUNT 0 1).linkAt w (s.fget front_RATE 0)) := by
  have hgo (n : Nat) : ¬ (¬ s.planesOn = true ∨ 16 ≤ lane ∨ s.host.lanesRetired.contains lane = true ∨ ¬ (true = true ∨ 64 < n)) := by
    rw [hnew]
    simp [hon, hl]
  have hret : u.host.lanesRetired = lane :: s.host.lanesRetired := by rw [hu, State.recordRetirement_lanesRetired]
  unfold execPcieLaneRetire
  rw [if_neg (hgo _), ← hu]
  simp only [hret, ← hw]

end

/-! ### Controllers, functions and media ready -/

/-- No context that a function's shutdown reaches holds a task. -/
def State.shutIdle (s : State) (fn : Nat) : Prop := ∀ c ∈ s.shutCtxs fn, ∀ x, s.ctx? c = some x → x.task = none

section
variable {s : State} {fn : Nat}

/-- Replacing a controller touches no context. -/
theorem State.shutIdle_setCtrl (k : Ctrl) (h : s.shutIdle fn) : (s.setCtrl fn k).shutIdle fn := h

/-- With no task to wait for, a shutdown is due at once (R107). -/
theorem State.shutDue_of_shutIdle (h : s.shutIdle fn) : s.shutDue fn = true := by
  refine (Bool.or_eq_true ..).mpr (.inr (List.all_eq_true.mpr fun c hc => ?_))
  split
  · next x hx => simp [h c hc x hx]
  · rfl

/-- A shutdown that finds no task pre-empts none, and ends at once (R107). -/
theorem execShutdownNotification_of_shutIdle (hu : s.hostUp = true) (hen : (s.ctrl fn).en = true) (hs : (s.ctrl fn).shst = 0)
    (hidle : s.shutIdle fn) :
    execShutdownNotification fn s = .next ((s.setCtrl fn { s.ctrl fn with shst := 1, shutTick := s.tick }).finishShutdown fn) := by
  have hgo : ¬ (¬ s.hostUp = true ∨ ¬ (s.ctrl fn).en = true ∨ (s.ctrl fn).shst ≠ 0) := by simp [hu, hen, hs]
  unfold execShutdownNotification
  extract_lets +onlyGivenNames c
  rw [if_neg hgo]
  extract_lets s1 s2
  have hidle1 : s1.shutIdle fn := State.shutIdle_setCtrl _ hidle
  have hs2 : s2 = s1 := by
    refine List.foldlRecOn (motive := (· = s1)) _ _ rfl fun t ht k hk => ?_
    subst ht
    split
    · next x hx => exact if_neg (by simp [hidle1 k hk x hx])
    · rfl
  rw [hs2, if_pos (State.shutDue_of_shutIdle hidle1)]

end

/-- Settles O31: each event passes its guards; a shutdown that finds no task waits for none. -/
theorem linkAndFunctionCommandsComplete : Obligations.LinkAndFunctionCommandsComplete := by
  refine ⟨?trained, ?replay, ?laneRetire, ?tlp, ?configWrite, ?coalescing, ?enable, ?reset, ?shutdown, ?flr, ?flrRegister, ?mediaReady⟩
  case trained =>
    intro width rate s hon hlow hw hfree
    exact ⟨_, rfl, execPcieLinkTrained_of_rate hon hlow hw hfree, execPcieLinkTrained_of_low hon hlow hw hfree⟩
  case replay =>
    intro lane s hon hl
    have hgo : ¬ (¬ s.planesOn = true ∨ 16 ≤ lane) := by simp [hon, hl]
    exact if_neg hgo
  case laneRetire =>
    intro lane s hon hl hnew
    have hrun := execPcieLaneRetire_of_eq hon hl hnew rfl rfl
    refine ⟨_, _, rfl, rfl, fun hunused => hrun.trans (if_pos (by simp [hunused])), fun hused => hrun.trans ?_⟩
    rw [if_neg (not_not_intro hused)]
    split <;> rfl
  case tlp =>
    intro s hon
    exact if_neg (not_not_intro hon)
  case configWrite =>
    intro fn what v s hp hfn
    have hgo : ¬ (s.power.perst = true ∨ ¬ (s.fnEnabled fn = true ∨ fn = 33)) := by simp [hp, hfn]
    constructor
    · intro hdown
      have hretry : ¬ s.planesOn = true ∨ ¬ s.host.trained = true := by simpa using hdown
      exact (if_neg hgo).trans (if_pos hretry)
    · intro hon htr hup
      have htaken : ¬ (¬ s.planesOn = true ∨ ¬ s.host.trained = true) := by simp [hon, htr]
      exact (if_neg hgo).trans ((if_neg htaken).trans (if_neg (not_not_intro hup)))
  case coalescing =>
    intro fn iv s hn hd
    have hdue : ¬ (sget s.host.aggr (qKey fn iv) 0 = 0 ∨
      s.tick < sget s.host.aggrTick (qKey fn iv) 0 + ticksUs (100 * ((s.ctrl fn).feature 0x08 / 256 % 256))) := by simp [hn, hd]
    exact if_neg hdue
  case enable =>
    intro fn asqs acqs crime wrr s hu hfn hen
    have hgo : ¬ (¬ s.hostUp = true ∨ ¬ s.fnEnabled fn = true ∨ (s.ctrl fn).en = true) := by simp [hu, hfn, hen]
    exact if_neg hgo
  case reset =>
    intro fn s hu hen
    have hgo : ¬ (¬ s.hostUp = true ∨ ¬ (s.ctrl fn).en = true) := by simp [hu, hen]
    exact ⟨fun h0 => (if_neg hgo).trans (if_pos h0), fun h0 => (if_neg hgo).trans (if_neg h0)⟩
  case shutdown =>
    intro fn s hu hen hs
    refine ⟨_, rfl, fun hnone => ?_, fun c x hone hx htask => ?_⟩
    · exact execShutdownNotification_of_shutIdle hu hen hs (by simp [State.shutIdle, hnone])
    · exact execShutdownNotification_of_shutIdle hu hen hs (by simp [State.shutIdle, hone, hx, htask])
  case flr =>
    intro fn s hu hfn h0 h33
    have hgo : ¬ (¬ s.hostUp = true ∨ ¬ (s.fnEnabled fn = true ∨ fn = 33)) := by simp [hu, hfn]
    exact (if_neg hgo).trans ((if_neg h33).trans (if_neg h0))
  case flrRegister =>
    intro s hu
    have hgo : ¬ (¬ s.hostUp = true ∨ ¬ (s.fnEnabled 33 = true ∨ 33 = 33)) := by simp [hu]
    exact (if_neg hgo).trans (if_pos rfl)
  case mediaReady =>
    intro j s hc hb hr hst hpk
    have hgo : ¬ (¬ s.power.controlUp = true ∨ s.power.brownOut = true ∨ s.ftl.ready = true ∨ s.fget (hdr_STATE 0) 0 = 4 ∨
      s.packages.any (fun c => s.fget (hdr_STATE 0x21) c = 1) = true) := by simpa [hc, hb, hr, hst] using hpk
    exact if_neg hgo

end Sys2Proof.Machine
end

section
/-!
What register fields read after an event is recorded, and after a 64-bit value is set (R8, R495, R497).
-/

namespace Sys2Proof.Machine

/-- Recording an event changes no field but the count of dropped entries (R497). -/
theorem State.recEv_fget (s : State) (c i code : Nat) (payload : List Nat) (ctx : Nat) (inj safety : Bool) {g : Field} {j : Nat}
    (hlo : g.key j ≠ rec_DROPPED_LO.key 0) (hhi : g.key j ≠ rec_DROPPED_HI.key 0) :
    (s.recEv c i code payload ctx inj safety).fget g j = s.fget g j := by
  unfold State.recEv State.recPush
  split
  · rw [State.count_fget, State.fget_fset64, if_neg hhi, if_neg hlo]
    rfl
  · rfl

/-- Two fields of a page at different places of it are held at different keys. -/
theorem Field.key_ne {f g : Field} (i : Nat) (hcls : f.cls = g.cls) (hplace : f.off * 32 + f.lsb ≠ g.off * 32 + g.lsb) : f.key i ≠ g.key i := by
  unfold Field.key
  omega

/-- A LO and a HI field of 32 bits each hold a value cut to 64 bits (R8). -/
theorem State.fget64_fset64_self (s : State) {lo hi : Field} {i : Nat} (hne : lo.key i ≠ hi.key i) (hlo : lo.width = 32) (hhi : hi.width = 32)
    (v : Nat) : (s.fset64 lo hi i v).fget64 lo hi i = v % 2 ^ 64 := by
  simp only [State.fget64, State.fget_fset64, if_neg hne, if_true, hlo, hhi]
  omega

theorem State.fget64_fset_ne (s : State) {f lo hi : Field} {i j : Nat} (hlo : lo.key j ≠ f.key i) (hhi : hi.key j ≠ f.key i) (v : Nat) :
    (s.fset f i v).fget64 lo hi j = s.fget64 lo hi j := by
  simp only [State.fget64, State.fget_fset_ne _ _ _ _ _ _ hlo, State.fget_fset_ne _ _ _ _ _ _ hhi]

end Sys2Proof.Machine
end

section
/-!
What a grant does at an arbiter, in FREE mode and in a LOCKSTEP slot (R44 to R47).
-/

namespace Sys2Proof.Machine

/-! ### One grant -/

/-- A request is the same as itself. -/
theorem ArbReq.same_self (r : ArbReq) : r.same r = true := by
  simp [ArbReq.same, ArbReq.at]

theorem ArbReq.at_iff {cp inst : Nat} {r : ArbReq} : r.at cp inst = true ↔ r.cp = cp ∧ r.inst = inst := by
  simp [ArbReq.at]

/-- A grant takes one request out of those waiting. -/
theorem State.grant_waiting_length (s : State) {r : ArbReq} {ws : List ArbReq} (hr : r ∈ ws) :
    (s.grant r ws).arb.waiting.length + 1 = ws.length := by
  have hpos : 0 < ws.length := List.length_pos_of_mem hr
  have herase : (ws.eraseP r.same).length = ws.length - 1 := List.length_eraseP_of_mem hr r.same_self
  simp only [State.grant, List.length_map, herase]
  omega

/-- A grant shows its party, with the present tick, at the place of the request. -/
theorem State.grant_lastGrant (s : State) (r : ArbReq) (ws : List ArbReq) :
    sget? (s.grant r ws).arb.lastGrant (4096 * r.cp + r.inst) = some (r.party, s.tick) := by
  simp [State.grant]

@[simp] theorem State.grant_tick (s : State) (r : ArbReq) (ws : List ArbReq) : (s.grant r ws).tick = s.tick :=
  (s.grant_frame r ws).1 .tick (by decide)

@[simp] theorem State.noteGrant_arb (s : State) (r : ArbReq) : (s.noteGrant r).arb = s.arb :=
  (s.noteGrant_frame r).1 .arb (by decide)

@[simp] theorem State.noteGrant_tick (s : State) (r : ArbReq) : (s.noteGrant r).tick = s.tick :=
  (s.noteGrant_frame r).1 .tick (by decide)

/-! ### FREE mode (R44, R45) -/

/-- A request whose party was not granted while another party's request waited (R44). -/
def ArbReq.Admitted (l : List ArbReq) (r : ArbReq) : Prop := r ∈ l ∧ ∀ q ∈ l, q.party = r.party ∨ r.party ∉ q.passed

/-- The requests that may be granted next: the admitted ones, and of these, where there are any, those that lost to one presented at the same
instant (R44, R45). -/
theorem mem_freeChoices {l : List ArbReq} {r : ArbReq} :
    r ∈ freeChoices l ↔ r.Admitted l ∧ ((∃ q : ArbReq, q.Admitted l ∧ q.owed = true) → r.owed = true) := by
  unfold freeChoices
  extract_lets ok owed
  have hok (q : ArbReq) : q ∈ ok ↔ q.Admitted l := by simp [ok, ArbReq.Admitted]
  have howed (q : ArbReq) : q ∈ owed ↔ q.Admitted l ∧ q.owed = true := List.mem_filter.trans (and_congr_left' (hok q))
  by_cases hsome : ∃ q : ArbReq, q.Admitted l ∧ q.owed = true
  · obtain ⟨q, hq⟩ := hsome
    have hne : ¬ owed.isEmpty = true := fun h => List.ne_nil_of_mem ((howed q).mpr hq) (List.isEmpty_iff.mp h)
    rw [if_neg hne, howed]
    exact and_congr_right fun _ => ⟨fun h _ => h, fun h => h ⟨q, hq⟩⟩
  · have hnil : owed.isEmpty = true :=
      List.isEmpty_iff.mpr (List.eq_nil_iff_forall_not_mem.mpr fun q hq => hsome ⟨q, (howed q).mp hq⟩)
    rw [if_pos hnil, hok]
    exact ⟨fun h => ⟨h, fun k => absurd k hsome⟩, And.left⟩

/-- In FREE mode the free value picks one of the requests that may be granted. -/
theorem execArbiterGrant_of_free {cp inst : Nat} {new : List (Nat × Nat × Nat)} {together : Bool} {s : State}
    (hfree : s.fget glob_DET_MODE_EFFECTIVE 0 = 0) (hne : freeChoices ((s.present cp inst new together).filter (ArbReq.at cp inst)) ≠ []) :
    ∃ r ∈ freeChoices ((s.present cp inst new together).filter (ArbReq.at cp inst)), execArbiterGrant cp inst new s together =
      .next (((s.withRequests (s.present cp inst new together) together).draw.2.grant r (s.present cp inst new together)).noteGrant r) := by
  have hmode : ¬ s.fget glob_DET_MODE_EFFECTIVE 0 = 1 := by simp [hfree]
  unfold execArbiterGrant
  rw [if_neg hmode]
  extract_lets ws l
  have hpick : (s.withRequests ws together).draw.1 % l.length < l.length := Nat.mod_lt _ (List.length_pos_iff.mpr hne)
  refine ⟨l[(s.withRequests ws together).draw.1 % l.length], List.getElem_mem hpick, ?_⟩
  simp only [List.getElem?_eq_getElem hpick]
  rfl

/-! ### LOCKSTEP slots (R46, R47) -/

/-- A request of the owner of a slot, at its place, whose due frame is at tick `t0` or before. -/
def ArbReq.readyAt (cp inst owner t0 : Nat) (r : ArbReq) : Bool :=
  r.at cp inst && r.party == owner && decide (r.due / cpFrame cp * cpFrame cp ≤ t0)

section
variable {cp inst owner t0 : Nat}

theorem ArbReq.readyAt_place {r : ArbReq} (h : r.readyAt cp inst owner t0 = true) : r.cp = cp ∧ r.inst = inst ∧ r.party = owner := by
  simp only [ArbReq.readyAt, Bool.and_eq_true, beq_iff_eq, ArbReq.at_iff] at h
  obtain ⟨⟨⟨hcp, hinst⟩, hparty⟩, -⟩ := h
  exact ⟨hcp, hinst, hparty⟩

/-- The oldest request that is ready takes one of the services of a slot. -/
theorem State.grantSlot_of_ready {s : State} {r : ArbReq} (h : s.arb.waiting.find? (ArbReq.readyAt cp inst owner t0) = some r) (n : Nat) :
    s.grantSlot cp inst owner t0 (n + 1) = ((s.grant r s.arb.waiting).noteGrant r).grantSlot cp inst owner t0 n := by
  unfold ArbReq.readyAt at h
  simp only [State.grantSlot, h]

/-- With no request ready the rest of a slot passes unused. -/
theorem State.grantSlot_of_none {s : State} (h : s.arb.waiting.find? (ArbReq.readyAt cp inst owner t0) = none) (n : Nat) :
    s.grantSlot cp inst owner t0 n = s := by
  cases n with
  | zero => rfl
  | succ n =>
    unfold ArbReq.readyAt at h
    simp only [State.grantSlot, h]

/-- A slot serves no more requests than its services. -/
theorem State.grantSlot_waiting_length (s : State) (n : Nat) :
    ∃ k ≤ n, (s.grantSlot cp inst owner t0 n).arb.waiting.length + k = s.arb.waiting.length := by
  induction n generalizing s with
  | zero => exact ⟨0, le_rfl, rfl⟩
  | succ n ih =>
    cases hfind : s.arb.waiting.find? (ArbReq.readyAt cp inst owner t0) with
    | none => exact ⟨0, Nat.zero_le _, by rw [State.grantSlot_of_none hfind]; rfl⟩
    | some r =>
      rw [State.grantSlot_of_ready hfind]
      obtain ⟨k, hk, hlen⟩ := ih ((s.grant r s.arb.waiting).noteGrant r)
      have hone := s.grant_waiting_length (List.mem_of_find?_eq_some hfind)
      rw [State.noteGrant_arb] at hlen
      exact ⟨k + 1, by omega, by omega⟩

/-- Further services of a slot are its owner's too: the party shown stays. -/
theorem State.grantSlot_lastGrant {s : State} (n : Nat) (h : sget? s.arb.lastGrant (4096 * cp + inst) = some (owner, s.tick)) :
    sget? (s.grantSlot cp inst owner t0 n).arb.lastGrant (4096 * cp + inst) = some (owner, s.tick) := by
  induction n generalizing s with
  | zero => exact h
  | succ n ih =>
    cases hfind : s.arb.waiting.find? (ArbReq.readyAt cp inst owner t0) with
    | none => rwa [State.grantSlot_of_none hfind]
    | some r =>
      obtain ⟨rfl, rfl, rfl⟩ := ArbReq.readyAt_place (List.find?_some hfind)
      rw [State.grantSlot_of_ready hfind]
      have hshown := s.grant_lastGrant r s.arb.waiting
      simpa using ih (s := (s.grant r s.arb.waiting).noteGrant r) (by simpa using hshown)

/-- A slot with a request ready serves one request of its owner at least, and shows the owner. -/
theorem State.grantSlot_serves {s : State} {r : ArbReq} (hready : s.arb.waiting.find? (ArbReq.readyAt cp inst owner t0) = some r) {n : Nat}
    (hn : 1 ≤ n) : sget? (s.grantSlot cp inst owner t0 n).arb.lastGrant (4096 * cp + inst) = some (owner, s.tick) ∧
      ∃ k, 1 ≤ k ∧ k ≤ n ∧ (s.grantSlot cp inst owner t0 n).arb.waiting.length + k = s.arb.waiting.length := by
  obtain ⟨m, rfl⟩ := Nat.exists_eq_add_of_le' hn
  obtain ⟨rfl, rfl, rfl⟩ := ArbReq.readyAt_place (List.find?_some hready)
  rw [State.grantSlot_of_ready hready]
  constructor
  · have hshown := s.grant_lastGrant r s.arb.waiting
    simpa using State.grantSlot_lastGrant m (s := (s.grant r s.arb.waiting).noteGrant r) (by simpa using hshown)
  · obtain ⟨k, hk, hlen⟩ := State.grantSlot_waiting_length (cp := r.cp) (inst := r.inst) (owner := r.party) (t0 := t0)
      ((s.grant r s.arb.waiting).noteGrant r) m
    have hone := s.grant_waiting_length (List.mem_of_find?_eq_some hready)
    rw [State.noteGrant_arb] at hlen
    exact ⟨k + 1, by omega, by omega, by omega⟩

/-- A slot of a frame that starts on time serves its owner, from a state that differs from the presentation's by slips alone (R46, R47). -/
theorem execLockstepSlot_of_slot {sl : Nat} {new : List (Nat × Nat × Nat)} {s : State} (hmode : s.fget glob_DET_MODE_EFFECTIVE 0 = 1)
    (hsl : sl < cpSlots cp) (hinst : inst < cpInstances cp) (htime : s.tick / cpFrame cp * cpFrame cp + sl * cpSlotNs cp / 1024 = s.tick) :
    ∃ u : State, u.arb = (s.withRequests (s.present cp inst new false) false).arb ∧ u.tick = s.tick ∧ execLockstepSlot cp inst sl new s =
      .next (u.grantSlot cp inst (slotOwner cp (s.frameNo cp (s.tick / cpFrame cp * cpFrame cp)) sl) (s.tick / cpFrame cp * cpFrame cp)
        (cpPerSlot cp)) := by
  have hgo : ¬ (s.fget glob_DET_MODE_EFFECTIVE 0 = 0 ∨ cpSlots cp ≤ sl ∨ cpInstances cp ≤ inst ∨
      s.tick / cpFrame cp * cpFrame cp + sl * cpSlotNs cp / 1024 ≠ s.tick) := by
    simp [hmode, htime, hsl, hinst]
  refine ⟨_, ?arb, ?tick, if_neg hgo⟩
  case arb => exact (Frame.fold fun _ _ => State.slip_frame ..).1 .arb (by decide)
  case tick => exact (Frame.fold fun _ _ => State.slip_frame ..).1 .tick (by decide)

end

theorem one_le_cpPerSlot (cp : Nat) : 1 ≤ cpPerSlot cp := by
  unfold cpPerSlot
  split <;> decide

/-- Settles O4: in FREE mode the free value picks among the admitted requests, and in a LOCKSTEP slot each service is one grant of the owner. -/
theorem arbitersGrantOneRequest : Obligations.ArbitersGrantOneRequest := by
  constructor
  · intro cp inst new together s hfree hne
    obtain ⟨r, hr, hrun⟩ := execArbiterGrant_of_free hfree hne
    obtain ⟨⟨hmem, hpassed⟩, howes⟩ := mem_freeChoices.mp hr
    obtain ⟨hws, hat⟩ := List.mem_filter.mp hmem
    obtain ⟨rfl, rfl⟩ := ArbReq.at_iff.mp hat
    obtain ⟨t, ht, hframe⟩ := execArbiterGrant_runs r.cp r.inst new together s
    have htick : t.tick = s.tick := hframe.1 .tick (by decide)
    have hregs : t.regs = s.regs := hframe.1 .regs (by decide)
    refine ⟨r, t, ht, hws, rfl, rfl, ?passed, ?owed, ?shown, ?remaining, fun _ => hregs, htick⟩
    case passed => exact fun q hq hcp hinst => hpassed q (List.mem_filter.mpr ⟨hq, ArbReq.at_iff.mpr ⟨hcp, hinst⟩⟩)
    case owed =>
      rintro ⟨q, hq, howed⟩
      exact howes ⟨q, (mem_freeChoices.mp hq).1, howed⟩
    all_goals
      obtain rfl := Host.Outcome.next.inj (ht.symm.trans hrun)
      rw [State.noteGrant_arb]
    case shown => exact State.grant_lastGrant ..
    case remaining => exact State.grant_waiting_length _ hws
  · intro cp inst sl new s r hmode hsl hinst htime hfind
    obtain ⟨u, harb, htick, hrun⟩ := execLockstepSlot_of_slot (new := new) hmode hsl hinst htime
    have hready : u.arb.waiting.find? (ArbReq.readyAt cp inst (slotOwner cp (s.frameNo cp (s.tick / cpFrame cp * cpFrame cp)) sl)
        (s.tick / cpFrame cp * cpFrame cp)) = some r := by
      rw [harb]
      exact hfind
    obtain ⟨-, -, hparty⟩ := ArbReq.readyAt_place (List.find?_some hready)
    obtain ⟨hshown, k, hk, hle, hlen⟩ := State.grantSlot_serves hready (one_le_cpPerSlot cp)
    refine ⟨_, k, hrun, ?_, ?_, hparty, hk, hle, ?_⟩
    · exact Eq.trans ((u.grantSlot_frame ..).1 .tick (by decide)) htick
    · simpa only [hparty, htick] using hshown
    · exact hlen.trans (congrArg (fun a : Arb => a.waiting.length) harb)

end Sys2Proof.Machine
end

section
/-!
What the operating point, the determinism mode and the rate monitors do (R36 to R39, R48, R84).
-/

namespace Sys2Proof.Machine

section
variable {s : State}

/-! ### Operating point -/

/-- A ramp that settles puts its point in force (R38). -/
theorem State.settleRamp_opEffective (s : State) (p : Nat) : (s.settleRamp p).fget glob_OP_EFFECTIVE 0 = p % 8 := by
  have hstop : ((s.fset glob_OP_EFFECTIVE 0 p).stopRamp).fget glob_OP_EFFECTIVE 0 = p % 8 :=
    (State.fget_fset_ne _ glob_IN_TRANSITION glob_OP_EFFECTIVE 0 0 0 (by decide)).trans (State.fget_fset_self ..)
  unfold State.settleRamp
  extract_lets old s1
  split
  · exact hstop
  · exact (State.recEv_fget _ _ _ _ _ _ _ _ (by decide) (by decide)).trans hstop

/-- A ramp that settles is in progress no more. -/
theorem State.settleRamp_rampTo (s : State) (p : Nat) : (s.settleRamp p).power.rampTo = none := by
  unfold State.settleRamp
  extract_lets old s1
  split
  · rfl
  · exact congrArg Power.rampTo ((State.recEv_frame ..).1 .power (by decide))

/-- RAMP_COMPLETE over a ramp that has run to its end (R38, R87). -/
theorem execRampComplete_of_over {p : Nat} (hto : s.power.rampTo = some p) (hover : s.rampOver p = true) {u : State}
    (hu : u = (s.settleRamp p).driveOp) :
    execRampComplete s = .next (if u.power.rampTo.isSome ∨ 3 ≤ u.fget glob_PS_EFFECTIVE 0 then u
      else (u.setPs u.host.psLast).fset glob_PS_IN_TRANSITION 0 (b2n u.host.psTarget.isSome)) := by
  have hgo : ¬ ¬ s.rampOver p = true := not_not_intro hover
  simp only [execRampComplete, hto, if_neg hgo, ← hu]
  split <;> rfl

/-! ### Rate monitors -/

/-- A window with handshakes shows their rate, is not STALE, and is followed by the next without a gap (R39). -/
theorem execRateWindowEnd_of_handshakes {c inst n t0 : Nat} (hp : Sys2Proof.Machine.present s.variant c inst = true)
    (hk : s.power.kettleUp = true) (hinj : s.injectLeft c inst 0 = 0) (hn : n ≠ 0) (hw : s.windowStart c inst = some t0)
    (hover : t0 + 1024 ≤ s.tick) : ∃ t, execRateWindowEnd c inst n s = .next t ∧
      t.fget (hdr_RATE_MHS c) inst = min 65535 (n * 1000 / 1048576) ∧ t.fget (hdr_STALE c) inst = 0 ∧
      sget? t.reg.emptyWindows (pageNo c inst) = none ∧
      sget? t.reg.windowAt (pageNo c inst) = some (t0 + (s.tick - t0) / 1024 * 1024) := by
  have hgo : ¬ (¬ Sys2Proof.Machine.present s.variant c inst = true ∨ ¬ s.kettleOn = true ∨ s.tick < t0 + 1024) := by
    simp [hp, State.kettleOn, hk, hover]
  have hstale : (hdr_RATE_MHS c).key inst ≠ (hdr_STALE c).key inst := Field.key_ne inst rfl (by simp [hdr_RATE_MHS, hdr_STALE])
  have hrate : min 65535 (n * 1000 / 1048576) < 2 ^ 16 := by omega
  unfold execRateWindowEnd
  rw [hw]
  dsimp -zeta only
  rw [if_neg hgo]
  extract_lets k m e s1 regSrc s2 kettleSrc s3
  have hm : m = n := if_pos hinj
  have he : e = 0 := if_pos (hm ▸ hn)
  have hlive : ¬ e = 2 := by rw [he]; decide
  refine ⟨s3, if_neg hlive, ?rate, ?stale, ?empty, (sget?_sput ..).trans (if_pos rfl)⟩
  case rate =>
    have hs1 : s1.fget (hdr_RATE_MHS c) inst = min 65535 (m * 1000 / 1048576) % 2 ^ 16 :=
      (State.fget_fset_ne _ _ _ _ _ _ hstale).trans (State.fget_fset_self ..)
    exact hs1.trans (by rw [hm, Nat.mod_eq_of_lt hrate])
  case stale => exact (State.fget_fset_self _ _ _ (b2n (decide (2 ≤ e)))).trans (by rw [he]; rfl)
  case empty =>
    have hs2 : s2.reg.emptyWindows = serase s1.reg.emptyWindows k := if_pos he
    exact (congrArg (sget? · k) hs2).trans ((sget?_serase ..).trans (if_pos rfl))

/-! ### Determinism mode -/

theorem b2n_bne (m n : Nat) : b2n (m != n) = if m = n then 0 else 1 := by
  by_cases h : m = n <;> simp [b2n, h]

/-- ARM in LOCKSTEP clears the slips and schedules a run (R48). -/
theorem execArm_of_lockstep (hu : s.hostUp = true) (hdet : s.fget glob_DET_MODE_EFFECTIVE 0 = 1) : ∃ t, execArm s = .next t ∧
    t.arb.armAt = some ((s.tick / 32 + 1) * 32) ∧ t.fget glob_ARMED 0 = 0 ∧ t.fget64 glob_SLIP_COUNT_LO glob_SLIP_COUNT_HI 0 = 0 ∧
    t.arb.waiting = s.arb.waiting ∧ t.power = s.power ∧ t.host = s.host ∧ t.cp = s.cp := by
  have hgo : ¬ (¬ s.hostUp = true ∨ s.fget glob_DET_MODE_EFFECTIVE 0 = 0) := by simp [hu, hdet]
  unfold execArm
  rw [if_neg hgo]
  extract_lets s1 s2
  have harmed : s2.fget glob_ARMED 0 = 0 := by
    simp [s2, s1, State.fget_fset, State.fget_fset64, Field.key, glob_ARMED, glob_SLIP_COUNT_LO, glob_SLIP_COUNT_HI, glob_SLIP_CP,
      glob_SLIP_PARTY, glob_SLIP_INSTANCE]
  have hslips : s2.fget64 glob_SLIP_COUNT_LO glob_SLIP_COUNT_HI 0 = 0 :=
    (State.fget64_fset_ne _ (by decide) (by decide) _).trans <| (State.fget64_fset_ne _ (by decide) (by decide) _).trans <|
      (State.fget64_fset_ne _ (by decide) (by decide) _).trans <| State.fget64_fset64_self _ (by decide) rfl rfl 0
  exact ⟨_, rfl, rfl, harmed, hslips, rfl, rfl, rfl, rfl⟩

/-- The arm tick, once reached, arms the run (R48). -/
theorem execLockstepArmTick_of_due {a : Nat} (ha : s.arb.armAt = some a) (hdue : a ≤ s.tick) : ∃ t, execLockstepArmTick s = .next t ∧
    t.fget glob_ARMED 0 = 1 ∧ t.fget64 glob_ARM_TICK_LO glob_ARM_TICK_HI 0 = a % 2 ^ 64 ∧ t.arb.armAt = none := by
  have hgo : ¬ s.tick < a := Nat.not_lt.mpr hdue
  unfold execLockstepArmTick
  rw [ha]
  refine ⟨_, if_neg hgo, ?armed, ?armTick, rfl⟩
  case armed => exact State.fget_fset_self ..
  case armTick =>
    have hset : ((s.fset64 glob_ARM_TICK_LO glob_ARM_TICK_HI 0 (a % 2 ^ 64)).fset glob_ARMED 0 1).fget64 glob_ARM_TICK_LO glob_ARM_TICK_HI 0 =
        a % 2 ^ 64 % 2 ^ 64 :=
      (State.fget64_fset_ne _ (by decide) (by decide) _).trans (State.fget64_fset64_self _ (by decide) rfl rfl _)
    exact hset.trans (Nat.mod_mod ..)

end

/-- Settles O3: each command passes its guards, and its row's effect follows. -/
theorem operatingPointAndModeCommandsComplete : Obligations.OperatingPointAndModeCommandsComplete := by
  refine ⟨?opRequest, ?boostAllow, ?ramp, ?op5Fail, ?op5Hold, ?detRequest, ?toLockstep, ?toFree, ?arm, ?armTick, ?rate⟩
  case opRequest =>
    intro v s hu hv
    have hmod : v % 8 = v := Nat.mod_eq_of_lt (by omega)
    have hgo : ¬ (¬ s.hostUp = true ∨ 6 ≤ v % 8) := by simp [hu, hmod, hv]
    exact (if_neg hgo).trans (by rw [hmod])
  case boostAllow =>
    intro v s hu
    exact if_neg (not_not_intro hu)
  case ramp =>
    intro p s hto hover
    exact ⟨_, rfl, s.settleRamp_opEffective p, s.settleRamp_rampTo p, execRampComplete_of_over hto hover rfl⟩
  case op5Fail =>
    intro s hfails
    exact if_neg (by simp [hfails])
  case op5Hold =>
    intro s hready
    exact if_pos hready
  case detRequest =>
    intro v s hu
    exact (if_neg (not_not_intro hu)).trans (by rw [b2n_bne])
  case toLockstep =>
    intro s hdet hreq hidle
    exact if_pos ⟨hdet, hreq, hidle⟩
  case toFree =>
    intro s hdet hreq
    exact if_pos ⟨hdet, hreq⟩
  case arm =>
    intro s hu hdet
    exact execArm_of_lockstep hu hdet
  case armTick =>
    intro a s ha hdue
    exact execLockstepArmTick_of_due ha hdue
  case rate =>
    intro c inst n t0 s hp hk hinj hn hw hover _ _
    exact execRateWindowEnd_of_handshakes hp hk hinj hn hw hover

end Sys2Proof.Machine
end

section
/-!
What error capture, injection, handshake stalls, snapshots and test mode do (R51, R69 to R74, R94, R95).
-/

namespace Sys2Proof.Machine

section
variable {s : State}

/-! ### Errors -/

/-- Bits of ERR_STATUS written 1 clear, and FIRST_VALID with them where it is written 1 (R9, R70). -/
theorem execErrStatusClear_of_pageOn {c inst : Nat} (mask : Nat) (fv : Bool) (hp : s.pageOn c inst = true) : ∃ t,
    execErrStatusClear c inst mask fv s = .next t ∧
    t.fget (hdr_ERR_STATUS c) inst = (s.fget (hdr_ERR_STATUS c) inst - Nat.land (s.fget (hdr_ERR_STATUS c) inst) mask) % 2 ^ 32 ∧
    t.fget (hdr_FIRST_VALID c) inst = (if fv then 0 else s.fget (hdr_FIRST_VALID c) inst) ∧ t.reg = s.reg ∧ t.kettle = s.kettle := by
  have hkey : (hdr_FIRST_VALID c).key inst ≠ (hdr_ERR_STATUS c).key inst := Field.key_ne inst rfl (by simp [hdr_FIRST_VALID, hdr_ERR_STATUS])
  refine ⟨_, if_neg (not_not_intro hp), ?_⟩
  cases fv with
  | false => exact ⟨State.fget_fset_self .., State.fget_fset_ne _ _ _ _ _ _ hkey, rfl, rfl⟩
  | true => exact ⟨(State.fget_fset_ne _ _ _ _ _ _ hkey.symm).trans (State.fget_fset_self ..), State.fget_fset_self .., rfl, rfl⟩

/-! ### Injection -/

/-- INJECT_GO in test mode arms a bit on which the page's injection acts (R72). -/
theorem execInjectGo_of_testMode {c inst : Nat} (hp : s.pageOn c inst = true) (htest : s.fget glob_TEST_MODE 0 = 1) (hinj : injectable c = true)
    (hbit : (injectBits c).contains (s.fget (hdr_INJECT_BIT c) inst) = true) : ∃ t, execInjectGo c inst s = .next t ∧
    (pageNo c inst, s.fget (hdr_INJECT_BIT c) inst, max 1 (s.fget (hdr_INJECT_COUNT c) inst)) ∈ t.reg.inject ∧
    t.fget (hdr_INJECT_PENDING c) inst = 1 ∧ t.kettle = s.kettle := by
  have htaken : ¬ (s.fget glob_TEST_MODE 0 = 0 ∨ ¬ injectable c = true) := by simp [htest, hinj]
  refine ⟨_, (if_neg (not_not_intro hp)).trans ((if_neg htaken).trans (if_neg (not_not_intro hbit))), ?_, ?_, rfl⟩
  · exact List.mem_append_right _ (List.mem_singleton_self _)
  · exact State.fget_fset_self s (hdr_INJECT_PENDING c) inst 1

/-! ### Handshake stalls -/

/-- A stall of a unit with unit states that no context owns faults the unit, and, not injected, counts as a permanent fault (R51). -/
theorem execHandshakeStall_of_unowned {c inst r info ctx : Nat} {whole : Bool} (hp : Sys2Proof.Machine.present s.variant c inst = true)
    (hstall : s.stalled c inst r whole = true) (hst : hasState c = true) (hg : c ≠ 0x11) (hd : c ≠ 0x14) (hpuu : c ≠ 0x18) (hcol : c ≠ 0x21)
    (hinj : s.injectLeft c inst 1 = 0) (hown : 64 ≤ s.ownerShown c inst) (hctx : 64 ≤ ctx) :
    execHandshakeStall c inst r info ctx whole s = .next ((s.faultUnit c inst 1 info ctx).classify (pageNo c inst)) := by
  have hgo : ¬ (¬ Sys2Proof.Machine.present s.variant c inst = true ∨ ¬ s.stalled c inst r whole = true) := by simp [hp, hstall]
  have hperm : ¬ ((s.injectLeft c inst 1 != 0) = true ∨ ¬ hasState c = true ∨ c = 0x21 ∨ c = 0x18) := by simp [hinj, hst, hcol, hpuu]
  unfold execHandshakeStall
  extract_lets inj who s1 s2
  have hwho : who = ctx := if_neg (Nat.not_lt.mpr hown)
  have hs1 : s1 = s.faultUnit c inst 1 info ctx := (if_pos hst).trans (by rw [hwho])
  have hs2 : s2 = s1.classify (pageNo c inst) := if_neg hperm
  rw [if_neg hgo, if_neg hd, if_neg hg, hwho, if_neg (Nat.not_lt.mpr hctx), hs2, hs1]

/-! ### Snapshots -/

/-- A page's snapshot waits with the tick of its trigger (R73). -/
theorem execSnapshotTrigger_of_pageOn {c inst : Nat} (hp : s.pageOn c inst = true) (hc : c ≠ 0) (hall : s.reg.snapAll = none)
    (hwait : sget? s.reg.snapWait (pageNo c inst) = none) : ∃ t, execSnapshotTrigger c inst s = .next t ∧
    t.reg.snapWait = sput s.reg.snapWait (pageNo c inst) s.tick ∧ t.fget (hdr_SNAP_BUSY c) inst = 1 ∧ t.reg.live = s.reg.live := by
  have hgo : ¬ (¬ s.pageOn c inst = true ∨ c = 0) := by simp [hp, hc]
  have hnew : ¬ (s.reg.snapAll.isSome = true ∨ (sget? s.reg.snapWait (pageNo c inst)).isSome = true) := by simp [hall, hwait]
  exact ⟨_, (if_neg hgo).trans (if_neg hnew), rfl, State.fget_fset_self s (hdr_SNAP_BUSY c) inst 1, rfl⟩

/-- A device-wide snapshot waits for 16 ticks (R74). -/
theorem execGlobalSnapshotTrigger_of_hostUp (hu : s.hostUp = true) (hall : s.reg.snapAll = none) : ∃ t,
    execGlobalSnapshotTrigger s = .next t ∧ t.reg.snapAll = some (s.tick + 16) ∧ t.fget (hdr_SNAP_BUSY 0) 0 = 1 := by
  have hgo : ¬ (¬ s.hostUp = true ∨ s.reg.snapAll.isSome = true) := by simp [hu, hall]
  exact ⟨_, if_neg hgo, rfl, State.fget_fset_self s (hdr_SNAP_BUSY 0) 0 1⟩

/-- With every trigger before this tick, every page that waits captures (R73). -/
theorem State.captureDue_of_earlier (hall : s.reg.snapAll = none) (hdue : ∀ p ∈ s.reg.snapWait, p.2 < s.tick) : s.captureDue =
    s.reg.snapWait.foldl (fun (u : State) (p : Nat × Nat) => u.capturePage s.tick (p.1 / 256) (p.1 % 256))
      { s with reg := { s.reg with snapWait := [] } } := by
  have htaken : (s.reg.snapWait.filter fun p => decide (p.2 < s.tick)) = s.reg.snapWait := by simpa using hdue
  have hleft : (s.reg.snapWait.filter fun p => !decide (p.2 < s.tick)) = [] := by simpa using hdue
  unfold State.captureDue
  rw [hall]
  simp only [htaken, hleft]

/-- At its boundary the device-wide snapshot takes every present page (R74). -/
theorem State.captureDue_of_all {n : Nat} (hall : s.reg.snapAll = some n) (hn : n ≤ s.tick) : s.captureDue =
    (presentPages s.variant).foldl (fun (u : State) (p : Nat × Nat) => u.capturePage n p.1 p.2)
      { s with reg := { s.reg with snapAll := none } } := by
  unfold State.captureDue
  rw [hall]
  exact if_neg (Nat.not_lt.mpr hn)

/-! ### Test mode -/

/-- Test mode is entered with its key, no context and normal media (R94). -/
theorem execTestModeEnter_of_key (hu : s.hostUp = true) (hoff : s.fget glob_TEST_MODE 0 = 0) (hctxs : s.cp.ctxs = [])
    (hmedia : s.fget glob_MEDIA_MODE 0 ≠ 2) : ∃ t, execTestModeEnter 0x7E57 s = .next t ∧ t.fget glob_TEST_MODE 0 = 1 ∧
    t.fget glob_TEST_MODE_REQUEST 0 = 1 ∧ t.units = s.units := by
  have hgo : ¬ (¬ s.hostUp = true ∨ s.fget glob_TEST_MODE 0 = 1) := by simp [hu, hoff]
  refine ⟨_, (if_neg hgo).trans ((if_neg (not_not_intro rfl)).trans ((if_neg (not_not_intro hctxs)).trans (if_neg hmedia))), ?_, ?_, ?_⟩
  · exact (State.recEv_fget _ _ _ _ _ _ _ _ (by decide) (by decide)).trans (State.fget_fset_self ..)
  · refine (State.recEv_fget _ _ _ _ _ _ _ _ (by decide) (by decide)).trans ?_
    exact (State.fget_fset_ne _ _ _ _ _ _ (by decide)).trans (State.fget_fset_self ..)
  · exact (State.recEv_frame ..).1 .units (by decide)

end

/-- Settles O7: each command passes its guards, and its row's effect follows. -/
theorem errorInjectionSnapshotTestCommandsComplete : Obligations.ErrorInjectionSnapshotTestCommandsComplete := by
  refine ⟨?errClear, ?corrected, ?unlisted, ?inject, ?stall, ?pageSnapshot, ?deviceSnapshot, ?capture, ?captureAll, ?testEnter, ?testLeave⟩
  case errClear =>
    intro c inst mask fv s hp
    exact execErrStatusClear_of_pageOn mask fv hp
  case corrected =>
    intro c inst info ctx s hp hcor
    exact (if_neg (not_not_intro hp)).trans (if_pos ⟨rfl, hcor⟩)
  case unlisted =>
    intro c inst info ctx s hp hst hg hd hon
    have hseven : ¬ (7 = 2 ∧ corrects c = true) := by simp
    exact (if_neg (not_not_intro hp)).trans ((if_neg hseven).trans (if_pos ⟨rfl, hst, hg, hd, .inr (.inl hon)⟩))
  case inject =>
    intro c inst s hp htest hinj hbit
    exact execInjectGo_of_testMode hp htest hinj hbit
  case stall =>
    intro c inst r info ctx whole s hp hstall hst hg hd hpuu hcol hinj hown hctx
    exact execHandshakeStall_of_unowned hp hstall hst hg hd hpuu hcol hinj hown hctx
  case pageSnapshot =>
    intro c inst s hp hc hall hwait
    exact execSnapshotTrigger_of_pageOn hp hc hall hwait
  case deviceSnapshot =>
    intro s hu hall
    exact execGlobalSnapshotTrigger_of_hostUp hu hall
  case capture =>
    intro s hall hdue
    exact congrArg Host.Outcome.next (State.captureDue_of_earlier hall hdue)
  case captureAll =>
    intro n s hall hn
    exact congrArg Host.Outcome.next (State.captureDue_of_all hall hn)
  case testEnter =>
    intro s hu hoff hctxs hmedia
    exact execTestModeEnter_of_key hu hoff hctxs hmedia
  case testLeave =>
    intro s hu _
    exact ⟨_, if_neg (not_not_intro hu), rfl⟩

end Sys2Proof.Machine
end

section
/-!
Which accesses the register function takes, and what a bad one does (R57).
-/

namespace Sys2Proof.Machine

/-! ### The accesses taken -/

theorem accessOk_iff (v : Variant) (a size : Nat) : accessOk v a size = true ↔ (size = 32 ∧ a % 4 = 0) ∨
    (size = 64 ∧ a % 8 = 0 ∧ (Sys2Proof.Machine.present v (addrClass a) (addrInst a) = false ∨ addrOff a ∈ loOffsets (addrClass a))) := by
  simp [accessOk, and_assoc]

/-- A wide write that the register function accepts, but for a RW pair, writes both words. -/
theorem execRegisterWrite_wide {a : Nat} {s : State} (v : Nat) (hu : s.hostUp = true) (hok : accessOk s.variant a 64 = true)
    (hpair : rwPair (addrClass a) (addrOff a) = false) :
    execRegisterWrite a v true s = .next (((s.accessed 8 (addrClass a) (addrInst a)).writeWord (addrClass a) (addrInst a) (addrOff a)
      (v % 2 ^ 32)).writeWord (addrClass a) (addrInst a) (addrOff a + 4) (v / 2 ^ 32 % 2 ^ 32)) := by
  simp [execRegisterWrite, hok, State.access_of_hostUp hu, hpair]

/-! ### A bad access -/

/-- The global page is direct: an access counted there crosses nothing. -/
theorem State.cross_global (s : State) : s.cross 0 0 = s := by
  simp [State.cross]

/-- An access of the global page is counted as PCIe payload, which is no register field. -/
theorem State.accessed_global_fget (s : State) (n : Nat) (g : Field) (j : Nat) : (s.accessed n 0 0).fget g j = s.fget g j := by
  rw [State.accessed, State.cross_global]
  rfl

theorem State.accessed_global_latches (s : State) (n : Nat) : (s.accessed n 0 0).reg.latch = s.reg.latch ∧
    (s.accessed n 0 0).reg.pairLo = s.reg.pairLo ∧ (s.accessed n 0 0).reg.readData = s.reg.readData := by
  rw [State.accessed, State.cross_global]
  exact ⟨rfl, rfl, rfl⟩

/-- What a bad access leaves: its count, and, where it reads, ones. -/
theorem execBadAccess_of_refused {a size : Nat} {s : State} (write : Bool) (hu : s.hostUp = true) (hbad : accessOk s.variant a size = false) :
    execBadAccess a size write s = .next (if write then (s.accessed (size / 8) 0 0).fbump glob_BAD_ACCESS_COUNT 0 1
      else ((s.accessed (size / 8) 0 0).fbump glob_BAD_ACCESS_COUNT 0 1).answer
        (if size = 64 then [0xFFFFFFFF, 0xFFFFFFFF] else [0xFFFFFFFF])) := by
  simp only [execBadAccess, hbad, Bool.false_eq_true, if_false, State.access_of_hostUp hu]

/-- Settles O34: the register function's table of accesses, and a bad access, whose only field is its count. -/
theorem badAccessesReadOnesAndCount : Obligations.BadAccessesReadOnesAndCount := by
  refine ⟨accessOk_iff, ?writeWide, ?readWide, ?bad⟩
  case writeWide =>
    intro a v s hu hok hpair
    exact execRegisterWrite_wide v hu hok hpair
  case readWide =>
    rintro a s u v hon hok rfl rfl
    exact execReadLoLatch_wide ((s.pageOn_iff ..).1 hon).1 hok
  case bad =>
    intro a size write s hu hbad
    obtain ⟨hlatch, hpairLo, hdata⟩ := s.accessed_global_latches (size / 8)
    have hcount : ((s.accessed (size / 8) 0 0).fbump glob_BAD_ACCESS_COUNT 0 1).fget glob_BAD_ACCESS_COUNT 0 =
        min (s.fget glob_BAD_ACCESS_COUNT 0 + 1) (2 ^ glob_BAD_ACCESS_COUNT.width - 1) := by
      rw [State.fget_fbump_self, State.accessed_global_fget]
    have hother (f : Field) (i : Nat) (hf : f.key i ≠ glob_BAD_ACCESS_COUNT.key 0) :
        ((s.accessed (size / 8) 0 0).fbump glob_BAD_ACCESS_COUNT 0 1).fget f i = s.fget f i := by
      rw [State.fget_fbump_ne _ _ _ _ _ _ hf, State.accessed_global_fget]
    refine ⟨_, execBadAccess_of_refused write hu hbad, ?_⟩
    cases write with
    | false => exact ⟨hcount, hother, fun _ hsize => if_neg hsize, fun _ hsize => if_pos hsize, nofun, hlatch, hpairLo⟩
    | true => exact ⟨hcount, hother, nofun, nofun, fun _ => hdata, hlatch, hpairLo⟩

end Sys2Proof.Machine
end

section
/-!
The unit states: what the writes of CONTROL, a start and a drain do to a unit that no context owns (R62 to R68).
-/

namespace Sys2Proof.Machine

section
variable {c inst : Nat} {s : State}

/-! ### Writes of CONTROL (R64 to R68) -/

section
variable (hon : s.pageOn c inst = true) (hst : hasState c = true) (hfree : s.controlHeld c inst = false)
include hon hst hfree

/-- A write of ENABLE that is taken acts by the unit's state. -/
theorem execEnableWrite_taken (v : Bool) : execEnableWrite c inst v s =
    if s.fget (hdr_STATE c) inst = 5 then .next s
    else if s.fget (hdr_STATE c) inst = 4 then .next (if v then s.configReject c inst else s.putControl hdr_ENABLE c inst false)
    else if s.fget (hdr_STATE c) inst = 0 then
      .next (if v then (s.putControl hdr_ENABLE c inst v).toStarting c inst else s.putControl hdr_ENABLE c inst v)
    else if s.fget (hdr_STATE c) inst = 1 then .next ((s.putControl hdr_ENABLE c inst v).fset (hdr_DISABLE_PENDING c) inst (b2n (!v)))
    else if s.fget (hdr_STATE c) inst = 2 then
      .next (if v then s.putControl hdr_ENABLE c inst v else (s.putControl hdr_ENABLE c inst v).toState c inst 3)
    else .next ((s.putControl hdr_ENABLE c inst v).fset (hdr_ENABLE_PENDING c) inst (b2n v)) := by
  simp only [execEnableWrite, hon, hst, hfree, not_true_eq_false, or_self, if_false, Bool.false_eq_true]

theorem execDrainWrite_taken (v : Bool) (hretired : s.fget (hdr_STATE c) inst ≠ 5) :
    execDrainWrite c inst v s = .next (s.putControl hdr_DRAIN c inst v) := by
  simp only [execDrainWrite, hon, hst, hfree, hretired, not_true_eq_false, or_self, if_false, Bool.false_eq_true]

theorem execPageReset_taken (hnone : s.fget (hdr_RESET_PENDING c) inst ≠ 1) (hretired : s.fget (hdr_STATE c) inst ≠ 5) :
    execPageReset c inst s = if s.fget (hdr_STATE c) inst = 1 ∨ s.fget (hdr_STATE c) inst = 3 then .next (s.fset (hdr_RESET_PENDING c) inst 1)
      else .next (s.resetUnit c inst) := by
  simp only [execPageReset, hon, hst, hfree, hnone, hretired, not_true_eq_false, or_self, if_false, Bool.false_eq_true]

end

/-- A write of DRAIN sets it in the unit's page, in a Griddle's as in any other (R219). -/
theorem State.putControl_drain (v : Bool) : (s.putControl hdr_DRAIN c inst v).fget (hdr_DRAIN c) inst = b2n v := by
  have hbit : b2n v % 2 ^ (hdr_DRAIN c).width = b2n v := by cases v <;> rfl
  unfold State.putControl
  split
  case isTrue hgrid =>
    subst hgrid
    rw [State.fget_fset_ne _ _ _ _ _ _ (by simp only [Field.key, hdr_DRAIN]; omega), State.fget_fset_self, hbit]
  case isFalse => rw [State.fget_fset_self, hbit]

/-- A write of DRAIN is no change of STATE. -/
theorem State.putControl_state (v : Bool) : (s.putControl hdr_DRAIN c inst v).fget (hdr_STATE c) inst = s.fget (hdr_STATE c) inst := by
  have hkey (d : Nat) : (hdr_STATE c).key inst ≠ (hdr_DRAIN d).key inst := by
    simp only [Field.key, hdr_STATE, hdr_DRAIN]
    omega
  unfold State.putControl
  split
  · rw [State.fget_fset_ne _ _ _ _ _ _ (hkey _), State.fget_fset_ne _ _ _ _ _ _ (hkey _)]
  · rw [State.fget_fset_ne _ _ _ _ _ _ (hkey _)]

/-! ### Starts and drains (R62 to R65) -/

/-- A unit other than a Griddle, Drain or PUU whose start ends in time is ON as its start leaves it, then takes what is pending. -/
theorem execUnitStartComplete_inTime (hp : Sys2Proof.Machine.present s.variant c inst = true) (hst : hasState c = true) (hd : c ≠ 0x14)
    (hpuu : c ≠ 0x18) (hg : c ≠ 0x11) (hstarting : s.fget (hdr_STATE c) inst = 1) (htime : s.startLate c inst = false) : ∃ u v : State,
    u = (s.startUnit c inst).toState c inst 2 ∧ v = { u with reg := { u.reg with startTick := serase u.reg.startTick (pageNo c inst) } } ∧
    execUnitStartComplete c inst true s = .next (if v.fget (hdr_RESET_PENDING c) inst = 1 then v.resetUnit c inst
      else if v.fget (hdr_DISABLE_PENDING c) inst = 1 then (v.fset (hdr_DISABLE_PENDING c) inst 0).toState c inst 3 else v) := by
  refine ⟨_, _, rfl, rfl, ?_⟩
  simp only [execUnitStartComplete, hp, hst, hd, hpuu, hg, hstarting, htime, not_true_eq_false, ne_eq, or_self, false_and, if_false,
    Bool.false_eq_true, apply_ite Host.Outcome.next]

/-- A Griddle whose self-check fails as it starts is FAULTED with cause 12 (R193). -/
theorem execUnitStartComplete_checkFailed (hp : Sys2Proof.Machine.present s.variant 0x11 inst = true)
    (hstarting : s.fget (hdr_STATE 0x11) inst = 1) (htime : s.startLate 0x11 inst = false) (hcheck : s.startChecked inst false = false) :
    execUnitStartComplete 0x11 inst false s =
      .next (((s.showCheck inst 0 false false 0x1FF).setRegionState inst 0 4).moveFaulted 0x11 inst 12) := by
  simp [execUnitStartComplete, hp, hstarting, htime, hcheck, hasState]

/-- A unit that is STARTING past its limit is late. -/
theorem State.startLate_of_due {n : Nat} (htick : sget? s.reg.startTick (pageNo c inst) = some n) (hstarting : s.fget (hdr_STATE c) inst = 1)
    (hdue : n + ticksMs (startLimitMs c) ≤ s.tick) : s.startLate c inst = true := by
  simp [State.startLate, htick, hstarting, hdue]

/-- A unit that has drained is OFF, then takes what is pending. -/
theorem execDrainComplete_idle (hp : Sys2Proof.Machine.present s.variant c inst = true) (hd : c ≠ 0x14)
    (hdraining : s.fget (hdr_STATE c) inst = 3) (hidle : s.unitBusy c inst = false) : ∃ u : State, u = s.toState c inst 0 ∧
    execDrainComplete c inst s = .next (if u.fget (hdr_RESET_PENDING c) inst = 1 then u.resetUnit c inst
      else if u.fget (hdr_ENABLE_PENDING c) inst = 1 then (u.fset (hdr_ENABLE_PENDING c) inst 0).toStarting c inst else u) := by
  refine ⟨_, rfl, ?_⟩
  simp only [execDrainComplete, hp, hd, hdraining, hidle, not_true_eq_false, ne_eq, or_self, if_false, Bool.false_eq_true,
    apply_ite Host.Outcome.next]

end

/-- Settles O6: each command passes its guards, and its row of Table 03-4 follows. -/
theorem unitStateCommandsComplete : Obligations.UnitStateCommandsComplete := by
  refine ⟨?enableOff, ?disableOn, ?enableFaulted, ?drain, ?reset, ?started, ?checkFailed, ?startLate, ?drained⟩
  case enableOff =>
    intro c inst s hon hst hfree hoff
    exact (execEnableWrite_taken hon hst hfree true).trans (by simp [hoff])
  case disableOn =>
    intro c inst s hon hst hfree hstate
    exact (execEnableWrite_taken hon hst hfree false).trans (by simp [hstate])
  case enableFaulted =>
    intro c inst s hon hst hfree hfaulted
    exact (execEnableWrite_taken hon hst hfree true).trans (by simp [hfaulted])
  case drain =>
    intro c inst v s hon hst hfree hretired
    exact ⟨_, execDrainWrite_taken hon hst hfree v hretired, State.putControl_drain v, State.putControl_state v,
      (State.putControl_frame ..).1 .units (by decide)⟩
  case reset =>
    intro c inst s hon hst hfree hnone
    constructor
    · intro hstate
      exact (execPageReset_taken hon hst hfree hnone (by omega)).trans (if_neg (by omega))
    · intro hstate
      exact (execPageReset_taken hon hst hfree hnone (by omega)).trans (if_pos hstate)
  case started =>
    intro c inst s hp hst hd hpuu hg hstarting htime
    exact execUnitStartComplete_inTime hp hst hd hpuu hg hstarting htime
  case checkFailed =>
    intro inst s hp hstarting htime hcheck
    exact execUnitStartComplete_checkFailed hp hstarting htime hcheck
  case startLate =>
    intro c inst n s htick hstarting hdue
    exact if_pos (State.startLate_of_due htick hstarting hdue)
  case drained =>
    intro c inst s hp hd hdraining hidle
    exact execDrainComplete_idle hp hd hdraining hidle

end Sys2Proof.Machine
end

section
/-!
One error event of a page: its bit, its count and the capture of the first error (R69, R70).
-/

namespace Sys2Proof.Machine

/-! ### Bits of a number -/

theorem bit_eq_testBit (v b : Nat) : bit v b = v.testBit b := by
  simp only [bit, Nat.testBit_eq_decide_div_mod_eq]
  rfl

/-- A bit that has been set reads 1, where the field has that bit. -/
theorem bit_setBit_mod {v b w : Nat} (hb : b < w) : bit (setBit v b % 2 ^ w) b = true := by
  rw [bit_eq_testBit, Nat.testBit_mod_two_pow, setBit, bit_eq_testBit]
  split
  case isTrue hset => simp [hb, hset]
  case isFalse hclear => simp [hb, Nat.add_comm v, Nat.testBit_two_pow_add_eq, hclear]

/-! ### The fields of a capture -/

/-- Two fields of a page are held at one key exactly where they stand at one place of it. -/
theorem Field.key_eq_iff {f g : Field} (i : Nat) (hcls : f.cls = g.cls) : f.key i = g.key i ↔ f.off * 32 + f.lsb = g.off * 32 + g.lsb := by
  unfold Field.key
  omega

/-- A field below the recorder's count of dropped entries stands elsewhere than that count. -/
theorem Field.key_ne_dropped {g : Field} (i : Nat) (hoff : g.off < 0x11c) (hlsb : g.lsb < 32) :
    g.key i ≠ rec_DROPPED_LO.key 0 ∧ g.key i ≠ rec_DROPPED_HI.key 0 := by
  simp only [Field.key, rec_DROPPED_LO, rec_DROPPED_HI]
  omega

/-- The fields of a page that show its first error (R70). -/
def captureFields (c : Nat) : List Field :=
  [hdr_FIRST_VALID c, hdr_FIRST_BIT c, hdr_FIRST_INJECTED c, hdr_ERR_FIRST_INFO c, hdr_ERR_FIRST_TICK_LO c, hdr_ERR_FIRST_TICK_HI c]

/-- They stand in the page's header, apart from ERR_STATUS and ERR_COUNT. -/
theorem captureFields_place {c : Nat} {g : Field} (hg : g ∈ captureFields c) :
    g.cls = c ∧ g.off < 0x11c ∧ g.lsb < 32 ∧ g.off ≠ 20 ∧ g.off ≠ 56 := by
  simp only [captureFields, List.mem_cons, List.not_mem_nil, or_false] at hg
  obtain rfl | rfl | rfl | rfl | rfl | rfl := hg <;>
    simp [hdr_FIRST_VALID, hdr_FIRST_BIT, hdr_FIRST_INJECTED, hdr_ERR_FIRST_INFO, hdr_ERR_FIRST_TICK_LO, hdr_ERR_FIRST_TICK_HI]

theorem errStatus_key_ne_errCount (c i : Nat) : (hdr_ERR_STATUS c).key i ≠ (hdr_ERR_COUNT c).key i :=
  Field.key_ne i rfl (by simp [hdr_ERR_STATUS, hdr_ERR_COUNT])

/-- Two states that agree on these fields show the same first error. -/
theorem captureFields_agree {s t : State} {c i : Nat} (h : ∀ g ∈ captureFields c, t.fget g i = s.fget g i) :
    t.fget (hdr_FIRST_VALID c) i = s.fget (hdr_FIRST_VALID c) i ∧ t.fget (hdr_FIRST_BIT c) i = s.fget (hdr_FIRST_BIT c) i ∧
    t.fget (hdr_FIRST_INJECTED c) i = s.fget (hdr_FIRST_INJECTED c) i ∧ t.fget (hdr_ERR_FIRST_INFO c) i = s.fget (hdr_ERR_FIRST_INFO c) i ∧
    t.fget64 (hdr_ERR_FIRST_TICK_LO c) (hdr_ERR_FIRST_TICK_HI c) i = s.fget64 (hdr_ERR_FIRST_TICK_LO c) (hdr_ERR_FIRST_TICK_HI c) i := by
  simp only [captureFields, List.forall_mem_cons] at h
  obtain ⟨hvalid, hbit, hinjected, hinfo, hticklo, htickhi, -⟩ := h
  exact ⟨hvalid, hbit, hinjected, hinfo, by rw [State.fget64, State.fget64, hticklo, htickhi]⟩

/-- The capture that an error event takes: of the page's first error, where none is held and the bit goes from 0 to 1, and else none. -/
def State.captureFirst (s : State) (c i b info ctx : Nat) (inj : Bool) : State :=
  if bit (s.fget (hdr_ERR_STATUS c) i) b = false ∧ s.fget (hdr_FIRST_VALID c) i = 0 then s.capture c i b info ctx inj else s

section
variable {s : State} {c i b info ctx : Nat} {inj : Bool}

theorem State.capture_tick :
    (s.capture c i b info ctx inj).fget64 (hdr_ERR_FIRST_TICK_LO c) (hdr_ERR_FIRST_TICK_HI c) i = s.tick % 2 ^ 64 := by
  have hvalidLo : (hdr_ERR_FIRST_TICK_LO c).key i ≠ (hdr_FIRST_VALID c).key i := Field.key_ne i rfl (by simp [hdr_ERR_FIRST_TICK_LO, hdr_FIRST_VALID])
  have hvalidHi : (hdr_ERR_FIRST_TICK_HI c).key i ≠ (hdr_FIRST_VALID c).key i := Field.key_ne i rfl (by simp [hdr_ERR_FIRST_TICK_HI, hdr_FIRST_VALID])
  have hloHi : (hdr_ERR_FIRST_TICK_LO c).key i ≠ (hdr_ERR_FIRST_TICK_HI c).key i :=
    Field.key_ne i rfl (by simp [hdr_ERR_FIRST_TICK_LO, hdr_ERR_FIRST_TICK_HI])
  rw [State.capture, State.fget64_fset_ne _ hvalidLo hvalidHi, State.fget64_fset64_self _ hloHi rfl rfl, Nat.mod_mod]

/-- The capture shows the error that it took. -/
theorem State.capture_shows (hb : b < 32) (hinfo : info < 2 ^ 32) :
    (s.capture c i b info ctx inj).fget (hdr_FIRST_VALID c) i = 1 ∧ (s.capture c i b info ctx inj).fget (hdr_FIRST_BIT c) i = b ∧
    (s.capture c i b info ctx inj).fget (hdr_FIRST_INJECTED c) i = b2n inj ∧
    (s.capture c i b info ctx inj).fget (hdr_ERR_FIRST_INFO c) i = info := by
  have hinj : b2n inj < 2 := by cases inj <;> decide
  simpa [State.capture, State.fget_fset, State.fget_fset64, Field.key_eq_iff, hdr_FIRST_VALID, hdr_FIRST_BIT, hdr_FIRST_INJECTED,
    hdr_FIRST_CONTEXT, hdr_ERR_FIRST_INFO, hdr_ERR_FIRST_TICK_LO, hdr_ERR_FIRST_TICK_HI, Nat.mod_eq_of_lt hb, Nat.mod_eq_of_lt hinj] using hinfo

theorem State.captureFirst_of_first (hclear : bit (s.fget (hdr_ERR_STATUS c) i) b = false) (hvalid : s.fget (hdr_FIRST_VALID c) i = 0) :
    s.captureFirst c i b info ctx inj = s.capture c i b info ctx inj := if_pos ⟨hclear, hvalid⟩

theorem State.captureFirst_of_held (h : bit (s.fget (hdr_ERR_STATUS c) i) b = true ∨ s.fget (hdr_FIRST_VALID c) i = 1) :
    s.captureFirst c i b info ctx inj = s := by
  refine if_neg ?_
  rintro ⟨hclear, hvalid⟩
  simp [hclear, hvalid] at h

/-- A capture is no change of ERR_COUNT. -/
theorem State.captureFirst_errCount : (s.captureFirst c i b info ctx inj).fget (hdr_ERR_COUNT c) i = s.fget (hdr_ERR_COUNT c) i := by
  unfold State.captureFirst
  split
  · simp [State.capture, State.fget_fset, State.fget_fset64, Field.key_eq_iff, hdr_ERR_COUNT, hdr_FIRST_VALID, hdr_FIRST_BIT,
      hdr_FIRST_INJECTED, hdr_FIRST_CONTEXT, hdr_ERR_FIRST_INFO, hdr_ERR_FIRST_TICK_LO, hdr_ERR_FIRST_TICK_HI]
  · rfl

/-! ### One error event -/

variable (hunarmed : s.injectLeft c i b = 0)
include hunarmed

/-- Where no injection is armed on the bit, an error event takes the capture of a first error, sets the bit and counts; of the register fields
nothing else changes but the count of dropped recorder entries (R69, R70). -/
theorem State.errBit_fget {g : Field} {j : Nat} (hlo : g.key j ≠ rec_DROPPED_LO.key 0) (hhi : g.key j ≠ rec_DROPPED_HI.key 0) :
    (s.errBit c i b info ctx inj).fget g j =
      (((s.captureFirst c i b info ctx inj).fsetBit (hdr_ERR_STATUS c) i b).fbump (hdr_ERR_COUNT c) i 1).fget g j := by
  simp only [State.errBit, State.captureFirst, hunarmed, if_true, bne_self_eq_false, Bool.or_false, Bool.not_eq_true]
  generalize (if bit (s.fget (hdr_ERR_STATUS c) i) b = false ∧ s.fget (hdr_FIRST_VALID c) i = 0 then s.capture c i b info ctx inj else s) = u
  have hreport : Frame [.kettle] u (if b = 5 then (u.smartAdd 16 1).pldmEvent [1, c, i] else u) :=
    .ite (((u.smartAdd_frame 16 1).trans (State.pldmEvent_frame _ _)).within (by decide)) (.refl _ _)
  generalize (if b = 5 then (u.smartAdd 16 1).pldmEvent [1, c, i] else u) = v at hreport
  have hregs : v.regs = u.regs := hreport.1 .regs (by decide)
  have hcounted : ((v.fsetBit (hdr_ERR_STATUS c) i b).fbump (hdr_ERR_COUNT c) i 1).fget g j =
      ((u.fsetBit (hdr_ERR_STATUS c) i b).fbump (hdr_ERR_COUNT c) i 1).fget g j := by
    simp only [State.fbump, State.fsetBit, State.fget, State.fset, hregs]
  split
  · rw [State.recEv_fget _ _ _ _ _ _ _ _ hlo hhi, hcounted]
  · exact hcounted

/-- The bit of the event is set. -/
theorem State.errBit_sets (hb : b < 32) : bit ((s.errBit c i b info ctx inj).fget (hdr_ERR_STATUS c) i) b = true := by
  obtain ⟨hlo, hhi⟩ := Field.key_ne_dropped (g := hdr_ERR_STATUS c) i (by simp [hdr_ERR_STATUS]) (by simp [hdr_ERR_STATUS])
  rw [State.errBit_fget hunarmed hlo hhi, State.fget_fbump_ne _ _ _ _ _ _ (errStatus_key_ne_errCount c i), State.fsetBit, State.fget_fset_self]
  exact bit_setBit_mod hb

/-- The event is counted. -/
theorem State.errBit_counts : (s.errBit c i b info ctx inj).fget (hdr_ERR_COUNT c) i =
    min (s.fget (hdr_ERR_COUNT c) i + 1) (2 ^ (hdr_ERR_COUNT c).width - 1) := by
  obtain ⟨hlo, hhi⟩ := Field.key_ne_dropped (g := hdr_ERR_COUNT c) i (by simp [hdr_ERR_COUNT]) (by simp [hdr_ERR_COUNT])
  rw [State.errBit_fget hunarmed hlo hhi, State.fget_fbump_self, State.fsetBit,
    State.fget_fset_ne _ _ _ _ _ _ (errStatus_key_ne_errCount c i).symm, State.captureFirst_errCount]

/-- What the page shows of its first error is the capture's, where the event is the first one, and stays otherwise. -/
theorem State.errBit_captureFields {g : Field} (hg : g ∈ captureFields c) : (s.errBit c i b info ctx inj).fget g i =
    (s.captureFirst c i b info ctx inj).fget g i := by
  obtain ⟨hcls, hoff, hlsb, hstatus, hcount⟩ := captureFields_place hg
  obtain ⟨hlo, hhi⟩ := Field.key_ne_dropped i hoff hlsb
  have hkeyStatus : g.key i ≠ (hdr_ERR_STATUS c).key i := Field.key_ne i hcls (by simp only [hdr_ERR_STATUS]; omega)
  have hkeyCount : g.key i ≠ (hdr_ERR_COUNT c).key i := Field.key_ne i hcls (by simp only [hdr_ERR_COUNT]; omega)
  rw [State.errBit_fget hunarmed hlo hhi, State.fget_fbump_ne _ _ _ _ _ _ hkeyCount, State.fsetBit, State.fget_fset_ne _ _ _ _ _ _ hkeyStatus]

end

/-- Settles O35: the event sets and counts its bit, and what the page shows of its first error is the capture's or as before. -/
theorem firstErrorOfAPageIsCaptured : Obligations.FirstErrorOfAPageIsCaptured := by
  intro s c i b info ctx inj _ _ hb hunarmed hinfo
  have hshown := captureFields_agree fun g hg => State.errBit_captureFields (info := info) (ctx := ctx) (inj := inj) hunarmed hg
  refine ⟨_, rfl, State.errBit_sets hunarmed hb, State.errBit_counts hunarmed, ?first, ?held⟩
  case first =>
    intro hclear hvalid
    obtain ⟨hone, hbit, hinjected, htook⟩ := State.capture_shows (s := s) (c := c) (i := i) (ctx := ctx) (inj := inj) hb hinfo
    rwa [State.captureFirst_of_first hclear hvalid, hone, hbit, hinjected, htook, State.capture_tick] at hshown
  case held =>
    intro hheld
    rwa [State.captureFirst_of_held hheld] at hshown

end Sys2Proof.Machine
end

section
/-!
What the commands of a compute queue do, and the power states (R86, R87, R115, R127, R128, R140 to R146).
-/

namespace Sys2Proof.Machine

/-! ### Compute commands (R115, R144 to R146) -/

section
variable {s : State} {cmd : CmdId} {q : Sq} {x : Ctx} {c : Nat} (ht : s.takes cmd = true) (hplain : cmd.rsvd = false)
  (hq : s.sq? cmd.fn cmd.sq = some q) (hbound : q.ctx = some c) (hx : s.ctx? c = some x) (hslot : s.ctxSlots c < 256)
include ht hplain hq hbound hx hslot

/-- A command that its queue takes, with its queue bound to an existing context and a free slot, has its effect on that context. -/
theorem State.onCompute_of_bound (f : Nat → Ctx → State) : s.onCompute cmd 1 none f = .next (f c x) := by
  have hroom : ¬ (256 ≤ s.ctxSlots c ∧ ¬ s.host.intake.any (fun k => k.cmd == plainId cmd) = true) := fun h => absurd h.1 (by omega)
  simp only [State.onCompute, ht, hq, hbound, hx, hroom, hplain, if_true, if_false, Option.isSome_none, Bool.false_eq_true, ne_eq,
    not_true_eq_false]

/-- EXECUTE_PROGRAM with no reserved bit set is held, with its fields, and its context waits for its load (R146). -/
theorem execExecuteProgram_of_bound {cdw10 cdw11 : Nat} (limit : Nat) (dptr : List (Nat × Nat)) (hrsvd : bits cdw10 8 8 = 0)
    (hlen : cdw11 < 8192) : execExecuteProgram cmd 1 cdw10 cdw11 limit 0 dptr s = .next ((s.holdCompute cmd c (some
      { cmd := cmd, slot := cdw10 % 256, timeLimit := limit, argLen := cdw11, dptr := dptr, mrs := cdw10 / 65536 % 65536, arg := [] })
      none).nowWaits c x) := by
  have htaken : ¬ (bits cdw10 8 8 ≠ 0 ∨ cdw11 / 8192 ≠ 0 ∨ (0 : Nat) ≠ 0) := by simp [hrsvd, Nat.div_eq_of_lt hlen]
  simp only [execExecuteProgram, htaken, if_false, Nat.mod_eq_of_lt hlen]
  exact State.onCompute_of_bound ht hplain hq hbound hx hslot _

end

/-! ### What reports leave of the host part

An error, an event or a completion touches controllers, completion queues, intake, completions and interrupts. -/

/-- The host part without what a report touches. -/
def State.hostApart (s : State) : HostIf :=
  { s.host with ctrls := [], cqs := [], intake := [], cpls := [], held := [], irqs := [], aggr := [], aggrTick := [], idleSince := 0 }

theorem Frame.hostApart {ps : List Part} {s t : State} (h : Frame ps s t) (hp : Part.host ∉ ps) : t.hostApart = s.hostApart := by
  rw [State.hostApart, State.hostApart, h.1 .host hp]

theorem State.psWake_of_hostApart {s t : State} (h : t.hostApart = s.hostApart) : t.host.psWake = s.host.psWake := by
  change t.hostApart.psWake = s.hostApart.psWake
  rw [h]

theorem State.interrupt_hostApart (s : State) (fn iv : Nat) (admin : Bool) : (s.interrupt fn iv admin).hostApart = s.hostApart := by
  unfold State.interrupt
  extract_lets f off k
  split
  · exact ((State.pcie_frame ..).hostApart (by decide)).trans rfl
  · rfl

theorem State.place_hostApart (s : State) (c : Cpl) : (s.place c).hostApart = s.hostApart := by
  unfold State.place
  extract_lets k
  split
  · rfl
  · split
    · extract_lets +onlyGivenNames s1
      split
      · exact (State.interrupt_hostApart ..).trans rfl
      · rfl
    · rfl

theorem State.complete_hostApart (s : State) (c : CmdId) (sct sc dw0 dw1 : Nat) (data : List Byte) :
    (s.complete c sct sc dw0 dw1 data).hostApart = s.hostApart := by
  unfold State.complete
  extract_lets +onlyGivenNames s0
  have hplaced : s0.hostApart = s.hostApart := calc
    _ = _ := (State.pcie_frame ..).hostApart (by decide)
    _ = (s.serve 5 0 0).hostApart := State.place_hostApart ..
    _ = s.hostApart := (State.serve_frame ..).hostApart (by decide)
  extract_lets +onlyGivenNames -merge src sq
  have hstamped : sq.hostApart = s.hostApart := by
    unfold sq
    split <;> exact hplaced
  extract_lets +onlyGivenNames -merge s1
  have hcounted : s1.hostApart = s.hostApart := by
    unfold s1
    split <;> exact hstamped
  extract_lets
  split <;> exact hcounted

theorem State.aer_hostApart (s : State) (fn type info who : Nat) : (s.aer fn type info who).hostApart = s.hostApart := by
  have hpost : (s.aerPost fn type info who).hostApart = s.hostApart := by
    unfold State.aerPost
    extract_lets c
    split
    · rfl
    · split
      · rfl
      · exact State.complete_hostApart ..
  unfold State.aer
  split
  · exact hpost
  · rfl

theorem State.err_hostApart (s : State) (c i : Nat) (bs : List Nat) (info ctx : Nat) (inj : Bool) :
    (s.err c i bs info ctx inj).hostApart = s.hostApart := by
  unfold State.err
  extract_lets s1
  have hbits : s1.hostApart = s.hostApart := (Frame.fold fun _ _ => State.errBit_frame ..).hostApart (by decide)
  split
  · exact (State.aer_hostApart ..).trans hbits
  · exact hbits

/-! ### The loss of a port's time source -/

theorem State.ptpLost_hostApart (s : State) (p : Nat) (change : Bool) : (s.ptpLost p change).hostApart = s.hostApart := by
  unfold State.ptpLost
  split
  · exact (State.recEv_frame ..).hostApart (by decide)
  · exact State.err_hostApart ..

theorem State.loseSource_hostApart (s : State) : s.loseSource.hostApart = s.hostApart := by
  unfold State.loseSource
  split
  · rfl
  · exact (State.err_hostApart ..).trans ((s.enterHoldover_frame.trans (State.fbump_frame ..)).hostApart (by decide))

theorem State.losePort_hostApart (s : State) (p : Nat) : (s.losePort p).hostApart = s.hostApart := by
  unfold State.losePort
  extract_lets +onlyGivenNames x s1 s2 q
  have hcleared : s2.hostApart = s.hostApart := rfl
  split
  · split
    · exact (State.ptpLost_hostApart ..).trans hcleared
    · exact hcleared
  · split
    · calc
        _ = ((s2.fbump time_LOCK_LOSSES 0 1).ptpLost p true).hostApart := (State.activatePort_frame ..).hostApart (by decide)
        _ = (s2.fbump time_LOCK_LOSSES 0 1).hostApart := State.ptpLost_hostApart ..
        _ = s.hostApart := hcleared
    · calc
        _ = (s2.ptpLost p false).hostApart := State.loseSource_hostApart ..
        _ = s2.hostApart := State.ptpLost_hostApart ..
        _ = s.hostApart := hcleared

/-! ### Power states (R86, R87, R127, R128) -/

theorem State.powerPorts_hostApart (s : State) : s.powerPorts.hostApart = s.hostApart := by
  unfold State.powerPorts
  extract_lets +onlyGivenNames p s1
  split
  · rfl
  · exact (State.refreshRoles_frame ..).hostApart (by decide) |>.trans ((State.losePort_hostApart ..).trans rfl)

theorem State.enterPs4_hostApart (s : State) : s.enterPs4.hostApart = s.hostApart :=
  (State.powerPorts_hostApart _).trans rfl

section
variable {s : State}

/-- The idle time of a power state has passed: the state that its entry of the table names is requested (R128). -/
theorem execApstIdleExpiry_of_idle {now e : Nat} (hnow : now = s.fget glob_PS_EFFECTIVE 0) (he : e = s.featureOr 0 (0xC00 + now) 0)
    (hon : s.featureOr 0 0x0C 0 = 1) (hms : e / 256 % 2 ^ 24 ≠ 0) (hps : e / 8 % 32 = 3 ∨ e / 8 % 32 = 4) (hdeeper : now < e / 8 % 32)
    (hrests : s.operational = true ∧ s.host.psTarget = none ∨ now = 3 ∧ s.host.psEntering = false ∧ s.host.psExiting = false)
    (hidle : s.nothingOutstanding = true) (hpassed : s.host.idleSince + ticksMs (e / 256 % 2 ^ 24) ≤ s.tick) :
    execApstIdleExpiry s = .next (s.requestPs (e / 8 % 32)) := by
  subst hnow he
  refine if_pos ⟨hon, hms, hps, hdeeper, ?_, hidle, hpassed⟩
  simpa [and_assoc] using hrests

section
variable {p : Nat} (htarget : s.host.psTarget = some p)
include htarget

/-- Nothing is outstanding: the entry to the state requested starts (R87). -/
theorem execPsEntryStart_of_idle (hentering : s.host.psEntering = false) (hexiting : s.host.psExiting = false)
    (hdeeper : s.fget glob_PS_EFFECTIVE 0 < p) (hidle : s.nothingOutstanding = true) : ∃ u : State,
    u = (s.fset glob_PS_IN_TRANSITION 0 1).fset glob_ARMED 0 0 ∧
    execPsEntryStart s = .next { u with host := { u.host with psEntering := true }, arb := { u.arb with armAt := none } } := by
  have hgo : ¬ (s.host.psEntering = true ∨ s.host.psExiting = true ∨ p ≤ s.fget glob_PS_EFFECTIVE 0 ∨ ¬ s.nothingOutstanding = true) := by
    simp [hentering, hexiting, hidle, hdeeper]
  refine ⟨_, rfl, ?_⟩
  simp only [execPsEntryStart, htarget, hgo, if_false]

/-- The entry completes: the state is in force with HBM in self-refresh, and PS4 loses what it loses (R86). -/
theorem execPsEntryComplete_of_entering (hentering : s.host.psEntering = true)
    (hsanitize : s.fget glob_MEDIA_MODE 0 = 2 → s.fget glob_MEDIA_CAUSE 0 ≠ 4) (hwake : s.host.psWake = false) : ∃ u v : State,
    u = (((s.flush).setPs p).fbump front_PS_ENTRY_COUNT 0 1).selfRefresh true ∧ v = (if p = 4 then u.enterPs4 else u) ∧
    execPsEntryComplete s =
      .next { v.fset glob_PS_IN_TRANSITION 0 0 with host := { v.host with psEntering := false, psWake := false } } := by
  refine ⟨_, _, rfl, rfl, ?_⟩
  have hgo : ¬ (¬ s.host.psEntering = true ∨ s.fget glob_MEDIA_MODE 0 = 2 ∧ s.fget glob_MEDIA_CAUSE 0 = 4) := by
    simpa [hentering] using hsanitize
  simp only [execPsEntryComplete, htarget, hgo, if_false]
  refine congrArg _ (if_neg ?_)
  have hrefreshed : ((((s.flush).setPs p).fbump front_PS_ENTRY_COUNT 0 1).selfRefresh true).hostApart = s.hostApart :=
    (((s.flush_frame.trans (State.setPs_frame ..)).trans (State.fbump_frame ..)).trans (State.selfRefresh_frame ..)).hostApart (by decide)
  generalize (((s.flush).setPs p).fbump front_PS_ENTRY_COUNT 0 1).selfRefresh true = u at hrefreshed
  have hentered : (if p = 4 then u.enterPs4 else u).hostApart = s.hostApart := by
    split
    · exact u.enterPs4_hostApart.trans hrefreshed
    · exact hrefreshed
  simp [State.psWake_of_hostApart hentered, hwake]

end

end

/-- Settles O10: each command is taken by its queue, each power event passes its guards, and its row's effect follows. -/
theorem computeQueueAndPowerStateCommandsComplete : Obligations.ComputeQueueAndPowerStateCommandsComplete := by
  refine ⟨?execute, ?load, ?activation, ?ranges, ?apst, ?entryStart, ?entryComplete, ?exitComplete⟩
  case execute =>
    intro cmd cdw10 cdw11 limit c dptr q x s ht hplain hq hbound hx hslot hrsvd hlen
    exact execExecuteProgram_of_bound ht hplain hq hbound hx hslot limit dptr hrsvd hlen
  case load =>
    intro cmd slot off c data q x s ht hplain hq hbound hx hslot
    exact State.onCompute_of_bound ht hplain hq hbound hx hslot _
  case activation =>
    intro cmd slot c on q x s ht hplain hq hbound hx hslot
    exact State.onCompute_of_bound ht hplain hq hbound hx hslot _
  case ranges =>
    intro cmd set c rs q x s ht hplain hq hbound hx hslot
    exact State.onCompute_of_bound ht hplain hq hbound hx hslot _
  case apst =>
    intro now e s hnow he hon hms hps hdeeper hrests hidle hpassed
    exact execApstIdleExpiry_of_idle hnow he hon hms hps hdeeper hrests hidle hpassed
  case entryStart =>
    intro p s htarget hentering hexiting hdeeper hidle
    obtain ⟨u, hu, hrun⟩ := execPsEntryStart_of_idle htarget hentering hexiting hdeeper hidle
    refine ⟨_, hrun, ?host, ?transition, ?armed, rfl, ?cp⟩ <;> subst hu
    case host => rfl
    case transition => exact (State.fget_fset_ne _ glob_ARMED glob_PS_IN_TRANSITION 0 0 0 (by decide)).trans (State.fget_fset_self ..)
    case armed => exact State.fget_fset_self ..
    case cp => rfl
  case entryComplete =>
    intro p s htarget hentering hsanitize hwake
    obtain ⟨u, v, hu, rfl, hrun⟩ := execPsEntryComplete_of_entering htarget hentering hsanitize hwake
    exact ⟨u, _, hu, hrun, rfl, rfl, rfl⟩
  case exitComplete =>
    intro s hexiting hstarting
    have hgo : ¬ (¬ s.host.psExiting = true ∨ ((List.range 34).any fun i => s.fget (hdr_STATE 0x11) i == 1) = true) := by
      simp only [hexiting, hstarting, not_true_eq_false, Bool.false_eq_true, or_self, not_false_eq_true]
    exact ⟨_, rfl, if_neg hgo⟩

end Sys2Proof.Machine
end

section
/-!
What the events of device time and of the Ethernet ports do (R92, R534 to R543, R546, R553).
-/

namespace Sys2Proof.Machine

/-! ### Frames received -/

/-- A frame that a running port receives, with no injected error waiting for it, has its effect. -/
theorem res_of_frame_taken {runs corrupt : Bool} {a b r : Res} (hr : runs = true) (hc : corrupt = false) :
    (if ¬ runs = true then a else if corrupt = true then b else r) = r := by
  simp [hr, hc]

section
variable {s : State} {p : Nat} (hruns : s.ptpRuns p = true) (hclean : s.rxCorrupt p = false)

/-! ### PTP (R534, R535, R537 to R539) -/

section
include hruns hclean

/-- An Announce of the port's domain, with an interval that the port takes, enters the masters heard (R535, R537). -/
theorem execPtpAnnounceReceived_of_domain {dom : Nat} (sender : Nat) {la : Int} (data : List Nat) (hlo : -3 ≤ la) (hhi : la ≤ 3)
    (hdom : dom = s.fget eth_DOMAIN p) :
    execPtpAnnounceReceived p dom sender la data s = .next ((s.rx p).select p ((s.ptp p).hear sender la data s.tick)) := by
  have hinterval : ¬ (la < -3 ∨ 3 < la) := by omega
  exact (res_of_frame_taken hruns hclean).trans ((if_neg hinterval).trans (if_neg (not_not_intro hdom)))

/-- A Sync of the selected master on a port that does not steer is measured (R534, R538). -/
theorem execPtpSyncReceived_of_standby {dom sender : Nat} {ls : Int} (t1 cyc : Nat) (hlo : -7 ≤ ls) (hhi : ls ≤ 0)
    (hdom : dom = s.fget eth_DOMAIN p) (hmaster : (s.ptp p).master = some sender) (hsteers : s.steers p = false) :
    execPtpSyncReceived p dom sender ls t1 cyc s = .next (s.takeSync p ls t1 cyc) := by
  have hinterval : ¬ (ls < -7 ∨ 0 < ls) := by omega
  have hselected : ¬ (dom ≠ s.fget eth_DOMAIN p ∨ (s.ptp p).master ≠ some sender) := by simp [hdom, hmaster]
  have hstandby : ¬ s.steers p = true := by simp [hsteers]
  exact (res_of_frame_taken hruns hclean).trans ((if_neg hinterval).trans ((if_neg hselected).trans (if_pos hstandby)))

section
variable {t3 : Int} (hsent : (s.ptp p).sent = some t3)
include hsent

/-- In E2E the answer of the selected master to the request sent gives the path delay, once a Sync was measured (R537). -/
theorem execPtpDelayResponse_e2e {sender : Nat} {ld : Int} {q : Int × Int} (a b cyc : Nat) (hmech : s.fget eth_DELAY_MECH p = 0)
    (hinterval : -7 ≤ ld) (hmaster : (s.ptp p).master = some sender) (hsync : (s.ptp p).sync = some q) :
    execPtpDelayResponse p sender ld a b cyc s =
      .next ((s.rx p).takeDelay p ld (((q.2 - q.1) + ((a * 25 : Nat) - t3)) / 2)) := by
  have htaken : ¬ (s.fget eth_DELAY_MECH p = 0 ∧ ld < -7) := by omega
  refine (res_of_frame_taken hruns hclean).trans ((if_neg htaken).trans ?_)
  simp only [hsent, hmech, hmaster, hsync, zero_ne_one, if_false, ne_eq, not_true_eq_false, Option.map_some]

/-- In P2P the peer's answer to the request sent gives the path delay (R537). -/
theorem execPtpDelayResponse_p2p (sender : Nat) (ld : Int) (a b cyc : Nat) (hmech : s.fget eth_DELAY_MECH p = 1) :
    execPtpDelayResponse p sender ld a b cyc s =
      .next (((s.serve 5 0 1).rx p).takeDelay p ld ((s.stamp p cyc false - t3 - ((b * 25 : Nat) - (a * 25 : Nat) : Int)) / 2)) := by
  have htaken : ¬ (s.fget eth_DELAY_MECH p = 0 ∧ ld < -7) := by omega
  refine (res_of_frame_taken hruns hclean).trans ((if_neg htaken).trans ?_)
  simp only [hsent, hmech, if_true]

end

/-- A Pdelay_Req of the port's domain is answered in P2P (R537). -/
theorem execPtpPdelayRequest_of_p2p {dom : Nat} (cyc cycOut : Nat) (hdom : dom = s.fget eth_DOMAIN p) (hmech : s.fget eth_DELAY_MECH p = 1) :
    execPtpPdelayRequest p dom cyc cycOut s =
      .next (((((s.serve 5 0 1).serve 5 0 1).rx p).tx p 3 (s.stamp p cyc false)).tx p 10 (s.stamp p cycOut true)) := by
  have hanswered : ¬ (dom ≠ s.fget eth_DOMAIN p ∨ s.fget eth_DELAY_MECH p ≠ 1) := by simp [hdom, hmech]
  exact (res_of_frame_taken hruns hclean).trans (if_neg hanswered)

end

/-- A port that waits for no answer sends its delay request, in E2E once a Sync was measured (R537, R538). -/
theorem execPtpDelayRequestSend_of_due (cyc : Nat) (hruns : s.ptpRuns p = true)
    (hready : s.fget eth_DELAY_MECH p = 1 ∨ (s.ptp p).sync.isSome = true) (hsent : (s.ptp p).sent = none) : ∃ u : State,
    u = (s.serve 5 0 1).setPtp p { s.ptp p with sent := some (s.stamp p cyc true), sentTick := s.tick } ∧
    execPtpDelayRequestSend p cyc s = .next (u.tx p (if s.fget eth_DELAY_MECH p = 1 then 2 else 1) (s.stamp p cyc true)) := by
  refine ⟨_, rfl, if_neg ?_⟩
  obtain hmech | hsync := hready
  · simp [hruns, hmech, hsent]
  · simp [hruns, Option.ne_none_iff_isSome.mpr hsync, hsent]

/-- The preferred port, having met the lock criterion for 60 s, becomes the active one (R539). -/
theorem execPtpPreferredReturn_of_met {t : Nat} (hsource : s.source = 0) (hactive : s.activePort ≠ s.prefPort)
    (hruns : s.ptpRuns s.prefPort = true) (hmeets : (s.ptp s.prefPort).meetsSince = some t) (hdue : t + ticksMs 60000 ≤ s.tick) :
    execPtpPreferredReturn s = .next (s.activatePort s.prefPort) := by
  have hgo : ¬ (s.source ≠ 0 ∨ s.activePort = s.prefPort ∨ ¬ s.ptpRuns s.prefPort = true) := by simp [hsource, hactive, hruns]
  simp only [execPtpPreferredReturn, hgo, if_false, hmeets, hdue, if_true]

/-! ### PTM and the source in force (R92, R540) -/

/-- A PTM dialog that is due and succeeds is measured and steers (R540). -/
theorem execPtmDialog_of_due (root delay ago : Nat) (hon : s.planesOn = true) (hen : s.fget front_PTM_ENABLED 0 ≠ 0)
    (hrate : s.fget front_RATE 0 ≠ 0) (hreq : s.fget glob_TIME_SOURCE_REQUEST 0 = 1)
    (hdue : s.time.ptmTick + ticksMs (s.fget time_PTM_INTERVAL_MS 0) ≤ s.tick) : ∃ (off : Int) (m : Measured) (u : State),
    off = s.dtcRead - (ago * 25 : Nat) - ((root * 1638400 + delay * 25 : Nat) : Int) ∧ m = s.time.ptm.add off ∧
    u = { s with time := { s.time with ptmTick := s.tick, ptmFails := 0, ptm := m } } ∧
    execPtmDialog true root delay ago s = .next ((u.count 0x02 0 1 1).steer 1 off m 250) := by
  have hgo : ¬ (¬ s.planesOn = true ∨ s.fget front_PTM_ENABLED 0 = 0 ∨ s.fget front_RATE 0 = 0 ∨ s.fget glob_TIME_SOURCE_REQUEST 0 ≠ 1 ∨
      s.tick < s.time.ptmTick + ticksMs (s.fget time_PTM_INTERVAL_MS 0)) := by
    simp [hon, hen, hrate, hreq, hdue]
  exact ⟨_, _, _, rfl, rfl, rfl, (if_neg hgo).trans (if_neg (not_not_intro rfl))⟩

/-- A request of PTM or of HOLDOVER is taken; where it is not the source in force, HOLDOVER is entered (R92). -/
theorem execTimeSourceRequestWrite_of_noPtp {v : Nat} (hu : s.hostUp = true) (hv : v = 1 ∨ v = 2) :
    execTimeSourceRequestWrite v s = if v = s.source then .next (s.fset glob_TIME_SOURCE_REQUEST 0 v)
      else .next (s.fset glob_TIME_SOURCE_REQUEST 0 v).enterHoldover := by
  have hnames : ¬ (¬ s.hostUp = true ∨ 2 < v) := not_or.mpr ⟨not_not_intro hu, by omega⟩
  have hnoPtp : ¬ v = 0 := by omega
  simp only [execTimeSourceRequestWrite, hnames, hnoPtp, false_and, if_false]

/-! ### 1PPS (R541, R553) -/

/-- The counter has reached a later second, and an edge is driven (R541). -/
theorem execPpsOutEdge_of_second (hk : s.kettleOn = true) (hsec : s.time.ppsSec < s.time.dtc / 2 ^ 48 / 1000000000)
    (hmode : s.fget time_PPS_OUT_MODE 0 = 1) : execPpsOutEdge s =
      .next { s with time := { s.time with ppsSec := s.time.dtc / 2 ^ 48 / 1000000000, ppsOut := some s.tick } } := by
  have hgo : ¬ (¬ s.kettleOn = true ∨ s.time.dtc / 2 ^ 48 / 1000000000 ≤ s.time.ppsSec) :=
    not_or.mpr ⟨not_not_intro hk, Nat.not_le.mpr hsec⟩
  simp only [execPpsOutEdge, hgo, if_false, hmode, decide_true, Bool.true_or, if_true]

/-- An edge nearer to the second before it shows its offset from that second (R541). -/
theorem execPpsInEdge_of_late {x : Int} (cyc : Nat) (hv : s.variant = .x) (hk : s.kettleOn = true)
    (hx : x = (s.dtcRead - (2097152 * cyc : Nat)) % (1000000000 * unitNs)) (hnear : 2 * x < 1000000000 * unitNs) :
    ∃ (r : Int × State) (u : State), r = (s.serve 5 0 1).roundNs x ∧
      u = (r.2.fset time_PPS_IN_OFFSET 0 (ns32 r.1)).fset time_PPS_IN_VALID 0 1 ∧
      execPpsInEdge cyc s = .next { u with time := { u.time with ppsIn := some s.tick } } := by
  subst hx
  have hgo : ¬ (s.variant ≠ .x ∨ ¬ s.kettleOn = true) := by simp [hv, hk]
  refine ⟨_, _, rfl, rfl, (if_neg hgo).trans ?_⟩
  simp only [hnear.ne, hnear, if_false, if_true]

/-- No edge for 2 s after one was seen is reported (R553). -/
theorem execPpsInMissing_of_due {t : Nat} (hin : s.time.ppsIn = some t) (hdue : t + ticksMs 2000 ≤ s.tick) :
    execPpsInMissing s = .next ((({ s with time := { s.time with ppsIn := none } } : State).fset time_PPS_IN_VALID 0 0).err 0x02 0 [11]
      (s.fget time_PPS_IN_OFFSET 0)) := by
  simp only [execPpsInMissing, hin, Nat.not_lt.mpr hdue, if_false]

/-! ### The Ethernet ports (R542, R543, R546) -/

section
variable (hpresent : Sys2Proof.Machine.present s.variant 0x31 p = true) (hkept : s.fget eth_PORT_RETIRED p ≠ 1)
include hpresent hkept

/-- The link of a port in service that is up goes down (R543). -/
theorem execEthernetLinkDown_of_up (hk : s.kettleOn = true) (hup : s.portUp p = true) :
    execEthernetLinkDown p none s = .next (s.dropPort p) := by
  have hgo : ¬ (¬ Sys2Proof.Machine.present s.variant 0x31 p = true ∨ ¬ s.kettleOn = true ∨ s.fget eth_PORT_RETIRED p = 1) := by
    simp [hpresent, hk, hkept]
  simp only [execEthernetLinkDown, hgo, if_false, hup, if_true]

/-- The link of a port in service that is powered comes up (R542, R543). -/
theorem execEthernetLinkUp_of_down {speed : Nat} (medium : Nat) (hon : s.planesOn = true) (hdown : s.portUp p = false)
    (hpower : s.fget glob_PS_EFFECTIVE 0 ≠ 4 ∨ p = s.activePort) (hspeed : speed = 1 ∨ speed = 2) :
    execEthernetLinkUp p speed medium s =
      .next (((s.fset eth_LINK_UP p 1).fset eth_SPEED p speed).fset eth_MEDIUM p (medium % 2)).refreshRoles := by
  have hpowered : ¬ (s.fget glob_PS_EFFECTIVE 0 = 4 ∧ p ≠ s.activePort) := by omega
  refine if_neg ?_
  simp only [hpresent, hkept, hon, hdown, hspeed, hpowered, not_true_eq_false, Bool.false_eq_true, or_self, not_false_eq_true]

end

section
variable (hcarries : s.portRuns p = true)
include hcarries hclean

/-- A request for the port's own address is answered (R542). -/
theorem execArpNeighborDiscovery_of_own {target : Nat} {v6 : Bool} (n m : Nat) (hown : s.ownAddr p v6 = some target) :
    execArpNeighborDiscovery p target v6 n m s = .next (((s.rx p).ethBytes p (n + m)).tx p 16 (target : Int)) :=
  (res_of_frame_taken hcarries hclean).trans (if_pos hown)

/-- A PFC frame of the enabled priority pauses the port or lets it go on (R542). -/
theorem execPfcFrame_of_enabled {prio : Nat} (pause : Bool) (hen : s.fget eth_PFC_EN p ≠ 0) (hprio : prio = s.fget eth_PFC_PRIO p) :
    ∃ u : State, u = (s.rx p).ethBytes p 46 ∧ execPfcFrame p prio pause s = .next { u with time := { u.time with
      paused := if pause then p :: s.time.paused.filter (· ≠ p) else s.time.paused.filter (· ≠ p) } } := by
  have htaken : ¬ (s.fget eth_PFC_EN p = 0 ∨ prio ≠ s.fget eth_PFC_PRIO p) := by simp [hen, hprio]
  exact ⟨_, rfl, (res_of_frame_taken hcarries hclean).trans (if_neg htaken)⟩

end

end

/-- Settles O32: each event passes its guards, and its row's effect follows. -/
theorem timeAndFabricCommandsComplete : Obligations.TimeAndFabricCommandsComplete := by
  refine ⟨?announce, ?sync, ?delayRequest, ?delayResponse, ?pdelayRequest, ?sourceLoss, ?preferredReturn, ?ptm, ?sourceRequest, ?ppsOut, ?ppsIn,
    ?ppsMissing, ?linkDown, ?linkUp, ?discard, ?arp, ?pfc⟩
  case announce =>
    intro p dom sender la data s hruns hclean hlo hhi hdom
    exact execPtpAnnounceReceived_of_domain hruns hclean sender data hlo hhi hdom
  case sync =>
    intro p dom sender t1 cyc ls s hruns hclean hlo hhi hdom hmaster hsteers
    exact execPtpSyncReceived_of_standby hruns hclean t1 cyc hlo hhi hdom hmaster hsteers
  case delayRequest =>
    intro p cyc s hruns hready hsent
    exact execPtpDelayRequestSend_of_due cyc hruns hready hsent
  case delayResponse =>
    intro p sender a b cyc ld t3 s hruns hclean hsent
    refine ⟨fun q hmech hinterval hmaster hsync => ?_, fun hmech => ?_⟩
    · exact execPtpDelayResponse_e2e hruns hclean hsent a b cyc hmech hinterval hmaster hsync
    · exact execPtpDelayResponse_p2p hruns hclean hsent sender ld a b cyc hmech
  case pdelayRequest =>
    intro p dom cyc cycOut s hruns hclean hdom hmech
    exact execPtpPdelayRequest_of_p2p hruns hclean cyc cycOut hdom hmech
  case sourceLoss =>
    intro p s hpresent hk hsilent
    have hgo : ¬ (¬ Sys2Proof.Machine.present s.variant 0x31 p = true ∨ ¬ s.kettleOn = true ∨ ¬ s.portSilent p = true) := by
      simp [hpresent, hk, hsilent]
    exact if_neg hgo
  case preferredReturn =>
    intro t s hsource hactive hruns hmeets hdue
    exact execPtpPreferredReturn_of_met hsource hactive hruns hmeets hdue
  case ptm =>
    intro root delay ago s hon hen hrate hreq hdue
    exact execPtmDialog_of_due root delay ago hon hen hrate hreq hdue
  case sourceRequest =>
    intro v s hu hv
    have hrun := execTimeSourceRequestWrite_of_noPtp hu hv
    exact ⟨fun heq => hrun.trans (if_pos heq), fun hne => hrun.trans (if_neg hne)⟩
  case ppsOut =>
    intro s hk hsec hmode
    exact execPpsOutEdge_of_second hk hsec hmode
  case ppsIn =>
    intro cyc x s hv hk hx hnear
    exact execPpsInEdge_of_late cyc hv hk hx hnear
  case ppsMissing =>
    intro t s hin hdue
    exact ⟨_, rfl, execPpsInMissing_of_due hin hdue⟩
  case linkDown =>
    intro p s hpresent hk hkept hup
    exact execEthernetLinkDown_of_up hpresent hkept hk hup
  case linkUp =>
    intro p speed medium s hpresent hon hkept hdown hpower hspeed
    exact execEthernetLinkUp_of_down hpresent hkept medium hon hdown hpower hspeed
  case discard =>
    intro p lane n s hcarries hclean
    exact ⟨res_of_frame_taken hcarries hclean, res_of_frame_taken hcarries hclean, res_of_frame_taken hcarries hclean⟩
  case arp =>
    intro p target n m v6 s hcarries hclean hown
    exact execArpNeighborDiscovery_of_own hclean hcarries n m hown
  case pfc =>
    intro p prio s hcarries hclean hen hprio
    obtain ⟨u, rfl, hpause⟩ := execPfcFrame_of_enabled hclean hcarries true hen hprio
    obtain ⟨u, rfl, hresume⟩ := execPfcFrame_of_enabled hclean hcarries false hen hprio
    exact ⟨_, rfl, hpause, hresume⟩

end Sys2Proof.Machine
end

section
/-!
What the commands of the PUUs do (R93, R321 to R328).
-/

namespace Sys2Proof.Machine

/-! ### Descriptors -/

/-- A descriptor that its sequencer can issue has its meaning. -/
theorem State.onDesc_of_go {s : State} {c h k : Nat} {d : Desc} (hd : s.nextDesc c h k = .go d) (f : Desc → State) :
    s.onDesc c h k f = .next (f d) := by
  simp only [State.onDesc, hd]

/-! ### The queue of a PUU (R323) -/

/-- A change of no unit leaves the steps of every PUU. -/
theorem Frame.puuSteps {ps : List Part} {s t : State} (h : Frame ps s t) (hp : Part.units ∉ ps) (i : Nat) : t.puuSteps i = s.puuSteps i := by
  rw [State.puuSteps, State.puuSteps, h.1 .units hp]

@[simp] theorem State.setPuu_puuSteps_self (s : State) (h : Nat) (q : List PuuStep) : (s.setPuu h q).puuSteps h = q := by
  simp [State.setPuu, State.puuSteps]

@[simp] theorem State.bind_puuSteps (s : State) (d : Desc) (write : Bool) (gs : List Nat) (i : Nat) :
    (s.bind d write gs).puuSteps i = s.puuSteps i := rfl

@[simp] theorem State.issue_puuSteps (s : State) (d : Desc) (dst : Nat) (pin : Bool) (i : Nat) :
    (s.issue d dst pin).puuSteps i = s.puuSteps i :=
  ((State.setTask_frame ..).puuSteps (by decide) i).trans rfl

/-- The first step issued after a resumption is queued: later steps no longer run at LAYER grain for it (R93). -/
def State.clearResumed (s : State) (c : Nat) : State :=
  match s.ctx? c with
  | some x => s.setCtx c { x with resumed := false }
  | none => s

theorem State.clearResumed_frame (s : State) (c : Nat) : Frame [.cp] s (s.clearResumed c) := by
  unfold State.clearResumed
  split
  · exact State.setCtx_frame ..
  · exact .refl _ _

/-- A step that passed its checks enters its PUU's queue: its marks take effect, its ports are bound, and its descriptor is issued (R321 to R324). -/
def State.queueStep (s : State) (c h : Nat) (d : Desc) (k : PuuStep) : State :=
  let ws := ((tabEntries k.table).flatMap s.teRegions).map TRegion.span
  let nvm : Bool := (tabEntries k.table).any fun e => !teFrozen e && teState e == 4
  let s1 := ((s.markFrozen k.table).bind d false (s.puuGroups k.table)).takeWriter c ws
  let s2 := s1.setPuu h (s1.puuSteps h ++ [k])
  let s3 := ((s2.issue d (if nvm then 4 else 15) true).noteStep c k.table).clearResumed c
  if s.puuSteps h = [] then s3.showStep h else s3

/-- The page shows a step at once where no other step runs. -/
theorem State.showFirst_frame (s : State) (h : Nat) (p : Prop) [Decidable p] : Frame [.regs] s (if p then s.showStep h else s) :=
  .ite (State.showStep_frame ..) (.refl _ _)

theorem State.queueStep_puuSteps (s : State) (c h : Nat) (d : Desc) (k : PuuStep) :
    (s.queueStep c h d k).puuSteps h = s.puuSteps h ++ [k] := by
  unfold State.queueStep
  extract_lets ws nvm s1 s2 s3
  have hmarked : s1.puuSteps h = s.puuSteps h := calc
    _ = ((s.markFrozen k.table).bind d false (s.puuGroups k.table)).puuSteps h := (State.takeWriter_frame ..).puuSteps (by decide) h
    _ = s.puuSteps h := (State.markFrozen_frame ..).puuSteps (by decide) h
  calc
    _ = s3.puuSteps h := (State.showFirst_frame ..).puuSteps (by decide) h
    _ = (s2.issue d (if nvm then 4 else 15) true).puuSteps h :=
      ((State.noteStep_frame ..).trans (State.clearResumed_frame ..)).puuSteps (by decide) h
    _ = s1.puuSteps h ++ [k] := by simp [s2]
    _ = s.puuSteps h ++ [k] := by rw [hmarked]

theorem State.queueStep_tiers (s : State) (c h : Nat) (d : Desc) (k : PuuStep) :
    (s.queueStep c h d k).tiers = (s.markFrozen k.table).tiers := by
  unfold State.queueStep
  extract_lets ws nvm s1 s2 s3
  have hqueued : Frame _ (s.markFrozen k.table) s2 :=
    ((State.bind_frame ..).trans (State.takeWriter_frame ..)).trans (State.setPuu_frame ..)
  have hissued : Frame _ s2 s3 := ((State.issue_frame ..).trans (State.noteStep_frame ..)).trans (State.clearResumed_frame ..)
  exact ((hqueued.trans hissued).trans (State.showFirst_frame ..)).1 .tiers (by decide)

section
variable {s : State}

/-- A PUU_STEP that passes the checks of Table 12-7 on a PUU that its context holds is queued (R323, R324). -/
theorem execPuuStep_of_checked {c h a : Nat} {d : Desc} (hd : s.nextDesc c h 0x28 = .go d) (hrsvd : bits d.w 36 68 = 0)
    (hsome : puTensors d.w ≠ 0) (hfits : puTensors d.w ≤ 64)
    (hsource : s.tableSource d (puTabSel d.w) (puTabOff d.w) (64 * (puTensors d.w + 1)) = some a) (haligned : a % 64 = 0)
    (hv : s.variant = .x) (hon : s.fget (hdr_STATE 0x18) h = 2) (hheld : d.x.req.unit h 5 = true)
    (hchecks : s.tensorCheck d (s.sbRead h a (64 * (puTensors d.w + 1))) = none)
    (hports : s.portBound h false (s.puuGroups (s.sbRead h a (64 * (puTensors d.w + 1)))) = false)
    (hdrain : s.fget (hdr_DRAIN 0x18) h ≠ 1) : ∃ k : PuuStep,
    k = { ctx := c, index := d.i, ser := d.t.ser, table := s.sbRead h a (64 * (puTensors d.w + 1)), layer := s.grainForced || d.x.resumed } ∧
    execPuuStep c h s = .next (s.queueStep c h d k) := by
  refine ⟨_, rfl, (State.onDesc_of_go hd _).trans (congrArg _ ?_)⟩
  have hshape : ¬ (bits d.w 36 68 ≠ 0 ∨ puTensors d.w = 0 ∨ 64 < puTensors d.w) := by
    simp only [hrsvd]
    omega
  have hbase : ¬ a % 64 ≠ 0 := not_not_intro haligned
  simp only [hshape, hsource, hbase, hv, hon, hheld, hchecks, hports, hdrain, if_false, ne_eq, not_true_eq_false, Bool.false_eq_true]
  rfl

/-! ### Completion and faults (R325, R326) -/

section
variable {h : Nat} {k : PuuStep} {ks : List PuuStep} {t : Task} (hsteps : s.puuSteps h = k :: ks) (htask : (s.ctx? k.ctx).bind Ctx.task = some t)
include hsteps htask

/-- The running step of a PUU that is ON, with nothing in its way, leaves what it computed, and its unit (R326). -/
theorem execPuuStepComplete_of_clean (hon : s.fget (hdr_STATE 0x18) h = 2) (hgranted : s.ungranted k.ctx k.ser = false)
    (hstall : s.injectLeft 0x18 h 1 = 0) (hdata : s.stepFault h k = none) (hroom : s.stepRoom k.table = true)
    (hreads : (s.stepReads k.table).any s.iuFails = false) (hstopped : s.stepStopped h k t = none) :
    execPuuStepComplete h s = .next (((s.runStep h k t).endStep h).descDone k.ctx k.ser) := by
  simp only [execPuuStepComplete, hsteps, htask, hon, hgranted, hstall, hdata, hroom, hreads, hstopped, ne_eq, not_true_eq_false,
    Option.isSome_none, Bool.false_eq_true, or_self, if_false]

/-- A residue mismatch at an entry that is updated stops the step there. -/
theorem execPuuStepFault_of_residue {e : Nat} (inB : Bool) (pos : Nat) (hentry : e < tabCount k.table)
    (hupdated : teFrozen (tabEntry k.table e) = false) :
    execPuuStepFault h 3 e inB pos s = .next (s.failStep h k t 3 0x50 e inB pos) := by
  simp [execPuuStepFault, hsteps, htask, hupdated, Nat.not_le.mpr hentry]

end

/-- A residue mismatch writes the tensors before it, faults the context and reruns the self-test (R325, R328). -/
theorem State.failStep_residue (h : Nat) (k : PuuStep) (t : Task) (e : Nat) (b : Bool) (r : Nat) : ∃ (info : Nat) (u v : State),
    info = e % 64 + 64 * b2n b + 256 * (r % 2 ^ 24) ∧
    u = (if b ∨ ¬ k.layer then s.updateTensors h k (t.regs h) ((tabEntries k.table).zipIdx.filter fun x => !teFrozen x.1 && x.2 < e) else s) ∧
    v = (((u.fset puu_TENSOR h e).fset puu_RECORD h r).fset puu_PASS h (b2n b)).err 0x18 h [9] info k.ctx ∧
    s.failStep h k t 3 0x50 e b r = ((v.faultCtx k.ctx
      { code := 0x50, index := k.index, hob := h, ucls := 0x18, uinst := h, info := info }).beginSelfTest h) :=
  ⟨_, _, _, rfl, rfl, rfl, rfl⟩

/-! ### Self-test (R328) -/

/-- A self-test that begins is shown as running, and as neither done nor passed. -/
theorem State.beginSelfTest_shows (s : State) (h : Nat) : (s.beginSelfTest h).fget puu_SELF_TEST_BUSY h = 1 ∧
    (s.beginSelfTest h).fget puu_SELF_TEST_DONE h = 0 ∧ (s.beginSelfTest h).fget puu_SELF_TEST_PASS h = 0 := by
  simp [State.beginSelfTest, State.fget_fset, Field.key_eq_iff, puu_SELF_TEST_BUSY, puu_SELF_TEST_DONE, puu_SELF_TEST_PASS]

/-- In test mode, an unowned PUU that runs no self-test begins one. -/
theorem execPuuSelfTestGo_of_testMode {h : Nat} (hu : s.hostUp = true) (hp : Sys2Proof.Machine.present s.variant 0x18 h = true)
    (htest : s.fget glob_TEST_MODE 0 = 1) (howner : s.fget (hdr_OWNER_CONTEXT 0x18) h = 0xFF) (hidle : s.fget puu_SELF_TEST_BUSY h = 0) :
    execPuuSelfTestGo h s = .next (s.beginSelfTest h) := by
  have hgo : ¬ (¬ s.hostUp = true ∨ ¬ Sys2Proof.Machine.present s.variant 0x18 h = true) := by simp [hu, hp]
  exact (if_neg hgo).trans (if_pos ⟨htest, howner, hidle⟩)

/-- A field of a unit's page stands elsewhere than the recorder's count of dropped entries. -/
theorem Field.key_ne_dropped_of_cls {g : Field} (j : Nat) (hcls : 5 < g.cls) :
    g.key j ≠ rec_DROPPED_LO.key 0 ∧ g.key j ≠ rec_DROPPED_HI.key 0 := by
  simp only [Field.key, rec_DROPPED_LO, rec_DROPPED_HI]
  omega

/-- Of the fields of a unit's page, a change of STATE touches STATE alone; the recorder's entry touches none. -/
theorem State.toState_fget (s : State) (c i n : Nat) {g : Field} {j : Nat} (hcls : 5 < g.cls) :
    (s.toState c i n).fget g j = (s.fset (hdr_STATE c) i n).fget g j := by
  obtain ⟨hlo, hhi⟩ := Field.key_ne_dropped_of_cls j hcls
  unfold State.toState
  extract_lets old s1
  split
  · exact State.recEv_fget _ _ _ _ _ _ _ _ hlo hhi
  · rfl

/-- A self-test that matches its signature is shown as ended and passed, and a FAULTED unit that is not to be retired is ON again. -/
theorem execPuuSelfTestDone_of_passed {h : Nat} (us : Nat) (hp : Sys2Proof.Machine.present s.variant 0x18 h = true)
    (hbusy : s.fget puu_SELF_TEST_BUSY h ≠ 0) (hfaulted : s.fget (hdr_STATE 0x18) h = 4)
    (hkept : s.units.retiring.contains (pageNo 0x18 h) = false) : ∃ u : State,
    u = ((((s.fset puu_SELF_TEST_BUSY h 0).fset puu_SELF_TEST_DONE h 1).fset puu_SELF_TEST_PASS h 1).fbump puu_SELF_TEST_RUNS h 1).fset
      puu_SELF_TEST_US h us ∧
    execPuuSelfTestDone h us true s =
      .next ((((u.fset (hdr_FAULT_CAUSE 0x18) h 0).toState 0x18 h 0).toState 0x18 h 1).toState 0x18 h 2) := by
  have hgo : ¬ (¬ Sys2Proof.Machine.present s.variant 0x18 h = true ∨ s.fget puu_SELF_TEST_BUSY h = 0) := by simp [hp, hbusy]
  refine ⟨_, rfl, (if_neg hgo).trans (congrArg _ (if_pos ⟨?_, ?_⟩))⟩
  · simpa [State.fbump, State.fget_fset, Field.key_eq_iff, hdr_STATE, puu_SELF_TEST_BUSY, puu_SELF_TEST_DONE, puu_SELF_TEST_PASS,
      puu_SELF_TEST_RUNS, puu_SELF_TEST_US] using hfaulted
  · simpa using hkept

end

/-- Settles O22: each command passes its guards, and its row's effect follows. -/
theorem puuCommandsComplete : Obligations.PuuCommandsComplete := by
  refine ⟨?step, ?complete, ?residue, ?selfTestGo, ?selfTestDone⟩
  case step =>
    intro c h a d s hd hrsvd hsome hfits hsource haligned hv hon hheld hchecks hports hdrain
    obtain ⟨_, rfl, hrun⟩ := execPuuStep_of_checked hd hrsvd hsome hfits hsource haligned hv hon hheld hchecks hports hdrain
    exact ⟨_, hrun, ⟨_, rfl, rfl, rfl, rfl, rfl, s.queueStep_puuSteps ..⟩, congrArg Tiers.frozen (s.queueStep_tiers ..)⟩
  case complete =>
    intro h k ks t s hsteps htask hon hgranted hstall hdata hroom hreads hstopped
    exact execPuuStepComplete_of_clean hsteps htask hon hgranted hstall hdata hroom hreads hstopped
  case residue =>
    rintro h e pos info inB k ks t s hsteps htask hentry hupdated rfl
    obtain ⟨_, u, v, rfl, hu, hv, hfail⟩ := s.failStep_residue h k t e inB pos
    exact ⟨u, v, hu, hv, (execPuuStepFault_of_residue hsteps htask inB pos hentry hupdated).trans (congrArg _ hfail)⟩
  case selfTestGo =>
    intro h s hu hp htest howner hidle
    exact ⟨_, execPuuSelfTestGo_of_testMode hu hp htest howner hidle, s.beginSelfTest_shows h⟩
  case selfTestDone =>
    intro h us s hp hbusy hfaulted hkept
    obtain ⟨u, hu, hrun⟩ := execPuuSelfTestDone_of_passed us hp hbusy hfaulted hkept
    refine ⟨_, hrun, ?state, ?busy, ?pass⟩
    case state => simp [State.toState_fget, hdr_STATE]
    all_goals
      subst hu
      simp [State.toState_fget, State.fbump, State.fget_fset, Field.key_eq_iff, hdr_STATE, hdr_FAULT_CAUSE, puu_SELF_TEST_BUSY,
        puu_SELF_TEST_DONE, puu_SELF_TEST_PASS, puu_SELF_TEST_RUNS, puu_SELF_TEST_US]

end Sys2Proof.Machine
end

section
/-!
The obligations on the frames of the host interface (R105 to R145, R444, R454).
-/

namespace Sys2Proof.Machine

/-- Settles O52: one frame lemma for each row of the family. -/
theorem queueAdminAndPowerStateFrames : Obligations.QueueAdminAndPowerStateFrames :=
  ⟨execSqDoorbell_runs, execCqDoorbell_runs, execCommandFetch_runs, execOverloadRaise_runs, execOverloadClear_runs, execIdentify_runs,
   execGetLogPage_runs, execFloorRatioOpenInterval_runs, execFloorRatioCloseInterval_runs, execGetFeatures_runs, execSetFeatures_runs,
   execSetFeaturesPowerManagement_runs, execSetFeaturesContextQuota_runs, execCreateIoSq_runs, execCreateIoCq_runs, execDeleteIoSq_runs,
   execDeleteIoCq_runs, execAbort_runs, execAbortTimeout_runs, execAsyncEventRequest_runs, execAsyncEventPost_runs, execNvmeMiSend_runs,
   execNvmeMiReceive_runs, execResumeContext_runs, execTearDownContext_runs, execTimeQuery_runs, execAdminUnsupported_runs,
   execExecuteProgram_runs, execLoadProgram_runs, execProgramActivationManagement_runs, execMemoryRangeSetManagement_runs,
   execApstIdleExpiry_runs, execPsEntryStart_runs, execPsEntryComplete_runs, execPsExitComplete_runs⟩

/-- Settles O53: one frame lemma for each row of the family. -/
theorem nvmAndNamespaceFrames : Obligations.NvmAndNamespaceFrames :=
  ⟨execMediaReadOnlyEntry_runs, execNamespaceManagement_runs, execNamespaceAttachment_runs, execFormatNvm_runs, execSanitize_runs,
   execSanitizeProgress_runs, execSanitizeComplete_runs, execSanitizeFail_runs, execSecuritySend_runs, execSecurityReceive_runs,
   execCollectionDescriptorSet_runs, execCollectionDescriptorGet_runs, execNvmRead_runs, execNvmWrite_runs, execNvmFlush_runs,
   execNvmWriteZeroes_runs, execDatasetManagementDeallocate_runs, execNvmCompare_runs, execNvmVerify_runs, execSlmRead_runs,
   execSlmWrite_runs⟩

end Sys2Proof.Machine
end

section
/-!
What doorbells, the fetch, the queue commands, Abort and the overload events do (R114, R115, R118, R121 to R123, R128, R143, R145).
-/

namespace Sys2Proof.Machine

/-! ### What admits a command -/

/-- An admin command that its controller takes, and does not turn away, has its effect (R106, R134). -/
theorem State.admin_of_taken {s : State} {cmd : CmdId} {changes : Bool} {r : Res} (ht : s.takes cmd = true)
    (hk : s.turnedAway cmd changes = false) :
    (if ¬ s.takes cmd = true then .next s else if s.turnedAway cmd changes = true then .next (s.turnAway cmd) else r) = r :=
  res_of_frame_taken ht hk

/-! ### Doorbells (R114, R128) -/

/-- Payload over PCIe changes nothing of the host part. -/
@[simp] theorem State.pcie_host (s : State) (c n : Nat) : (s.pcie c n).host = s.host := (s.pcie_frame c n).1 .host (by decide)

@[simp] theorem State.pcie_fget (s : State) (c n : Nat) (g : Field) (i : Nat) : (s.pcie c n).fget g i = s.fget g i :=
  congrArg (fun m => sget m (g.key i) (g.dflt i)) ((s.pcie_frame c n).1 .regs (by decide))

/-- In an operational state a doorbell wakes nothing (R128). -/
theorem State.wake_of_operational {s : State} (hentering : s.host.psEntering = false) (hps : s.fget glob_PS_EFFECTIVE 0 < 3) : s.wake = s := by
  simp [State.wake, hentering, Nat.not_le.mpr hps]

section
variable {s : State} {fn q : Nat}

/-- A submission doorbell in an operational state moves the tail (R114). -/
theorem execSqDoorbell_of_operational {k : Sq} {tail : Nat} (hq : s.sq? fn q = some k) (hready : (s.ctrl fn).rdy = true)
    (hlink : s.linkUp = true) (htail : tail < k.size) (hentering : s.host.psEntering = false) (hps : s.fget glob_PS_EFFECTIVE 0 < 3) :
    execSqDoorbell fn q tail s =
      .next (({ s with host := { s.host with sqs := sput s.host.sqs (qKey fn q) { k with tail := tail } } } : State).pcie 64 4) := by
  have hgo : ¬ (¬ (s.ctrl fn).rdy = true ∨ ¬ s.linkUp = true ∨ k.size ≤ tail) := by simp [hready, hlink, htail]
  simp only [execSqDoorbell, hq, hgo, if_false]
  refine congrArg _ ((if_neg (by simp [hentering])).trans (State.wake_of_operational ?_ ?_))
  · exact (congrArg HostIf.psEntering (State.pcie_host ..)).trans hentering
  · exact (State.pcie_fget ..).trans_lt hps

/-- A completion doorbell over a link that is up frees the entries taken and places what was held (R114). -/
theorem execCqDoorbell_of_linkUp {k : Cq} {n : Nat} (hq : sget? s.host.cqs (qKey fn q) = some k) (hlink : s.linkUp = true) (hn : n ≤ k.used) :
    ∃ u : State,
      u = ({ s with host := { s.host with cqs := sput s.host.cqs (qKey fn q) { k with used := k.used - n }
                                          cpls := dropCpls s (qKey fn q) n s.host.cpls
                                          held := [] } } : State).pcie 64 4 ∧
      execCqDoorbell fn q n s = .next (s.host.held.foldl (fun (t : State) (c : Cpl) => t.place c) u) := by
  refine ⟨_, rfl, ?_⟩
  simp only [execCqDoorbell, hq, Nat.min_eq_left hn, hlink, if_true]

/-! ### Fetch (R115, R118) -/

/-- The command at the head of the queue picked enters intake (R115, R118). -/
theorem execCommandFetch_of_pick {b cls : Nat} {fresh : Bool} {k : Sq} (cid : Nat) (slm : Bool) (hturn : s.turn = some (fn, b))
    (hpick : s.pickQueue fn = some (q, cls, fresh)) (hq : s.sq? fn q = some k) (hbound : k.ctx ≠ some 64) : ∃ u : State,
    u.host.intake.map Intake.cmd = s.host.intake.map Intake.cmd ++ [{ fn := fn, sq := q, cid := cid }] ∧
    sget? u.host.sqs (qKey fn q) = some { k with head := (k.head + 1) % k.size } ∧ u.host.lastFn = fn ∧ u.host.burst = b + 1 ∧
    execCommandFetch cid slm s = .next (u.pcie 64 64) := by
  simp only [execCommandFetch, hturn, hpick, hq, hbound, if_false]
  refine ⟨_, ?intake, ?head, ?lastFn, ?burst, rfl⟩
  case intake => simp
  case head => simp
  case lastFn => rfl
  case burst => rfl

/-! ### Overload, and an Abort that expires (R121, R122) -/

/-- Saturation sustained for 10 s raises the overload of its class (R121). -/
theorem execOverloadRaise_of_sustained {k n : Nat} (hsince : sget? s.host.satSince k = some n) (hsat : s.saturated k = true)
    (hnew : s.host.sustained.contains k = false) (hdue : n + ticksMs 10000 ≤ s.tick) : execOverloadRaise k s =
      .next (((({ s with host := { s.host with sustained := k :: s.host.sustained } } : State).err 0x03 0 [9] k).recEv 0x03 0 0x0401
        [1, if k < 64 then k else 0xFF]).aer 0 7 2) := by
  have hgo : ¬ (¬ s.saturated k = true ∨ s.host.sustained.contains k = true ∨ s.tick < n + ticksMs 10000) := by
    simp only [hsat, hnew, Nat.not_lt.mpr hdue, not_true_eq_false, Bool.false_eq_true, or_self, not_false_eq_true]
  simp only [execOverloadRaise, hsince, hgo, if_false]

/-- A second without saturation clears the overload of its class (R121). -/
theorem execOverloadClear_of_unsaturated {k n : Nat} (hsince : sget? s.host.unsatSince k = some n) (hsat : s.saturated k = false)
    (hraised : s.host.sustained.contains k = true) (hdue : n + ticksMs 1000 ≤ s.tick) : execOverloadClear k s =
      .next ((({ s with host := { s.host with sustained := s.host.sustained.filter (· ≠ k) } } : State).recEv 0x03 0 0x0401
        [0, if k < 64 then k else 0xFF]).aer 0 7 2) := by
  have hgo : ¬ (s.saturated k = true ∨ ¬ s.host.sustained.contains k = true ∨ s.tick < n + ticksMs 1000) := by
    simp only [hsat, hraised, Nat.not_lt.mpr hdue, not_true_eq_false, Bool.false_eq_true, or_self, not_false_eq_true]
  simp only [execOverloadClear, hsince, hgo, if_false]

/-- An outstanding Abort 2 ms old, the only one of its controller, is outstanding no more and completes as missed (R122). -/
theorem execAbortTimeout_of_due {cmd : CmdId} {a : CmdId × CmdId × Nat} (haborts : (s.ctrl cmd.fn).aborts = [a]) (ha : a.1 = cmd)
    (hdue : a.2.2 + ticksMs 2 ≤ s.tick) : ∃ u : State,
    u.host = (s.setCtrl cmd.fn { s.ctrl cmd.fn with aborts := [] }).host ∧ u.regs = s.regs ∧
    execAbortTimeout cmd s = .next (u.abortMissed cmd) := by
  have hfind : [a].find? (fun b => b.1 == cmd) = some a := by simp [ha]
  have hrest : [a].filter (· ≠ a) = [] := by simp
  simp only [execAbortTimeout, haborts, hfind, Nat.not_lt.mpr hdue, if_false, hrest, List.any_nil, Bool.false_eq_true]
  refine ⟨_, ?host, ?regs, rfl⟩ <;> rfl

end

/-! ### Queues and Abort (R114, R122, R123, R143, R145) -/

section
variable {s : State} {cmd : CmdId} (ht : s.takes cmd = true) (hk : s.turnedAway cmd true = false)
include ht hk

section
variable {q size : Nat} (hmin : 2 ≤ size) (hmax : size ≤ 65536)
include hmin hmax

/-- CREATE_IO_CQ with a free identifier, a legal size and a vector of the function (R114). -/
theorem execCreateIoCq_of_legal {iv : Nat} {ien : Bool} (hid : s.queueId cmd.fn q true = true) (hfree : sget? s.host.cqs (qKey cmd.fn q) = none)
    (hvector : ien = true → iv < maxVectors cmd.fn) : execCreateIoCq cmd q size ien iv s = .next (({ s with host := { s.host with
      cqs := sput s.host.cqs (qKey cmd.fn q) { size := size, ien := ien, iv := iv, used := 0 } } } : State).succeed cmd) := by
  have hlegal : ¬ (¬ s.queueId cmd.fn q true = true ∨ (sget? s.host.cqs (qKey cmd.fn q)).isSome = true) := by simp [hid, hfree]
  have hsize : ¬ (size < 2 ∨ 65536 < size) := by omega
  have hiv : ¬ (ien = true ∧ maxVectors cmd.fn ≤ iv) := fun h => Nat.not_le.mpr (hvector h.1) h.2
  exact (State.admin_of_taken ht hk).trans <| (if_neg hlegal).trans <| (if_neg hsize).trans (if_neg hiv)

/-- CREATE_IO_SQ with a free identifier, an existing completion queue and a legal size; a compute queue binds to a context of the function that has
none (R114, R143). -/
theorem execCreateIoSq_of_legal {cq ctx : Nat} (prio : Nat) (hid : s.queueId cmd.fn q false = true)
    (hfree : sget? s.host.sqs (qKey cmd.fn q) = none) (hcq : (sget? s.host.cqs (qKey cmd.fn cq)).isSome = true) (hadmin : cq ≠ 0) :
    execCreateIoSq cmd q size cq prio false ctx 0 s = .next (({ s with host := { s.host with
      sqs := sput s.host.sqs (qKey cmd.fn q) { size := size, cq := cq, prio := prio % 4, ctx := none, tail := 0, head := 0 } } } :
      State).succeed cmd) ∧
    ∀ x : Ctx, s.ctx? ctx = some x → x.req.fn = cmd.fn → x.sq = none → ∃ u : State,
      u = s.setCtx ctx { x with sq := some (qKey cmd.fn q) } ∧
      execCreateIoSq cmd q size cq prio true ctx 0 s = .next (({ u with host := { u.host with
        sqs := sput u.host.sqs (qKey cmd.fn q) { size := size, cq := cq, prio := prio % 4, ctx := some ctx, tail := 0, head := 0 } } } :
        State).succeed cmd) := by
  have hlegal : ¬ (¬ s.queueId cmd.fn q false = true ∨ (sget? s.host.sqs (qKey cmd.fn q)).isSome = true) := by simp [hid, hfree]
  have hposts : ¬ ((sget? s.host.cqs (qKey cmd.fn cq)).isNone = true ∨ cq = 0) := by simpa [hadmin, Option.isSome_iff_ne_none] using hcq
  have hsize : ¬ (size < 2 ∨ 65536 < size) := by omega
  refine ⟨?plain, fun x hx hfn hunbound => ⟨_, rfl, ?compute⟩⟩
  case plain =>
    exact (State.admin_of_taken ht hk).trans <| (if_neg hlegal).trans <| (if_neg hposts).trans <| (if_neg hsize).trans <|
      (if_neg (not_not_intro rfl)).trans (if_pos Bool.false_ne_true)
  case compute =>
    refine (State.admin_of_taken ht hk).trans <| (if_neg hlegal).trans <| (if_neg hposts).trans <| (if_neg hsize).trans <|
      (if_neg (not_not_intro rfl)).trans <| (if_neg (not_not_intro rfl)).trans ?_
    simp only [hx, hfn, hunbound, ne_eq, not_true_eq_false, if_false, Option.isSome_none, Bool.false_eq_true]

end

/-- DELETE_IO_SQ of a queue without an existing context: the commands fetched from it complete as aborted, and it is gone (R145, log 22). -/
theorem execDeleteIoSq_of_unbound {q : Nat} {k : Sq} (hio : q ≠ 0) (hq : s.sq? cmd.fn q = some k) (hbound : k.ctx = none ∨ k.ctx = some 64) :
    ∃ u : State,
      u = (s.host.intake.filter fun e => e.cmd.fn == cmd.fn && e.cmd.sq == q).foldl (fun (t : State) (e : Intake) => t.complete e.cmd 0 0x08) s ∧
      execDeleteIoSq cmd q s =
        .next (({ u with host := { u.host with sqs := serase u.host.sqs (qKey cmd.fn q) } } : State).succeed cmd) := by
  have hfree : ¬ k.ctx.any (· < 64) = true := by rcases hbound with h | h <;> simp [h]
  refine ⟨_, rfl, (State.admin_of_taken ht hk).trans ?_⟩
  simp only [hio, hq, hfree, if_false, Bool.false_eq_true]

/-- DELETE_IO_CQ of a queue that no submission queue names (R114). -/
theorem execDeleteIoCq_of_unnamed {q : Nat} (hio : q ≠ 0) (hq : (sget? s.host.cqs (qKey cmd.fn q)).isSome = true)
    (hnamed : (s.host.sqs.any fun p => p.1 / 65536 == cmd.fn && p.1 % 65536 != 0 && p.2.cq == q) = false) :
    execDeleteIoCq cmd q s = .next (({ s with host := { s.host with
      cqs := serase s.host.cqs (qKey cmd.fn q)
      cpls := s.host.cpls.filter fun c => s.cqKeyOf c ≠ qKey cmd.fn q
      held := s.host.held.filter fun c => s.cqKeyOf c ≠ qKey cmd.fn q } } : State).succeed cmd) := by
  have hexists : ¬ (q = 0 ∨ (sget? s.host.cqs (qKey cmd.fn q)).isNone = true) := by simpa [hio, Option.isSome_iff_ne_none] using hq
  exact (State.admin_of_taken ht hk).trans <| (if_neg hexists).trans (if_neg (by simp only [hnamed, Bool.false_eq_true, not_false_eq_true]))

section
variable {sqid cid : Nat} (hroom : (s.ctrl cmd.fn).aborts.length < 4)
include hroom

/-- An Abort of a command that is not held misses it (R122). -/
theorem execAbort_of_unheld
    (hfind : (s.host.intake.find? fun e => e.cmd == ({ fn := cmd.fn, sq := sqid, cid := cid } : CmdId) && !e.done) = none) :
    execAbort cmd sqid cid s = .next (s.abortMissed cmd) := by
  refine (State.admin_of_taken ht hk).trans <| (if_neg (Nat.not_le.mpr hroom)).trans ?_
  simp only [hfind]

section
variable {e : Intake}
  (hfind : (s.host.intake.find? fun e => e.cmd == ({ fn := cmd.fn, sq := sqid, cid := cid } : CmdId) && !e.done) = some e)
include hfind

/-- A compute command that waits in intake is caught, and leaves its context's queue (R123). -/
theorem execAbort_of_waiting_compute {c : Nat} (hbegun : e.begun = false) (hkind : e.kind = .compute c) : execAbort cmd sqid cid s =
    .next ((((s.complete { fn := cmd.fn, sq := sqid, cid := cid } 0 0x07).afterCatch c { fn := cmd.fn, sq := sqid, cid := cid }).fbump
      front_ABORT_CAUGHT 0 1).complete cmd 0 0 0) := by
  refine (State.admin_of_taken ht hk).trans <| (if_neg (Nat.not_le.mpr hroom)).trans ?_
  simp only [hfind, hkind, hbegun]

/-- An NVM or SLM command that waits in intake is caught (R123). -/
theorem execAbort_of_waiting_data (hbegun : e.begun = false) (hkind : e.kind = .nvm ∨ e.kind = .slm) : execAbort cmd sqid cid s =
    .next (((s.complete { fn := cmd.fn, sq := sqid, cid := cid } 0 0x07).fbump front_ABORT_CAUGHT 0 1).complete cmd 0 0 0) := by
  refine (State.admin_of_taken ht hk).trans <| (if_neg (Nat.not_le.mpr hroom)).trans ?_
  rcases hkind with hkind | hkind <;> simp only [hfind, hkind, hbegun]

/-- The Abort of a compute command that runs stays outstanding, and its context waits for a cheap point (R122). -/
theorem execAbort_of_running_compute {c : Nat} {x : Ctx} (hbegun : e.begun = true) (hkind : e.kind = .compute c) (hx : s.ctx? c = some x) :
    execAbort cmd sqid cid s = .next ((s.setCtrl cmd.fn { s.ctrl cmd.fn with
      aborts := (s.ctrl cmd.fn).aborts ++ [(cmd, { fn := cmd.fn, sq := sqid, cid := cid }, s.tick)] }).setCtx c { x with abortWait := true }) := by
  refine (State.admin_of_taken ht hk).trans <| (if_neg (Nat.not_le.mpr hroom)).trans ?_
  simp only [hfind, hkind, hbegun, hx]

/-- An Abort of an admin command, or of a data command that has begun, misses it (R122). -/
theorem execAbort_of_missed (hkind : e.kind = .admin ∨ e.begun = true ∧ (e.kind = .nvm ∨ e.kind = .slm)) :
    execAbort cmd sqid cid s = .next (s.abortMissed cmd) := by
  refine (State.admin_of_taken ht hk).trans <| (if_neg (Nat.not_le.mpr hroom)).trans ?_
  rcases hkind with hkind | ⟨hbegun, hkind | hkind⟩
  · simp only [hfind, hkind]
  · simp only [hfind, hkind, hbegun]
  · simp only [hfind, hkind, hbegun]

end

end

end

/-- Settles O8: each command is taken, each event passes its guards, and its row's effect follows. -/
theorem queueAndFetchCommandsComplete : Obligations.QueueAndFetchCommandsComplete := by
  refine ⟨?sqDoorbell, ?cqDoorbell, ?fetch, ?createCq, ?createSq, ?deleteSq, ?deleteCq, ?abort, ?abortTimeout, ?raise, ?clear⟩
  case sqDoorbell =>
    intro fn q tail k s hq hready hlink htail hentering hps
    refine ⟨_, execSqDoorbell_of_operational hq hready hlink htail hentering hps, ?_, State.pcie_host ..⟩
    simp [State.sq?]
  case cqDoorbell =>
    intro fn q n k s hq hlink hn
    exact execCqDoorbell_of_linkUp hq hlink hn
  case fetch =>
    intro cid slm fn b q cls fresh k s hturn hpick hq hbound
    obtain ⟨u, hintake, hhead, hlast, hburst, hrun⟩ := execCommandFetch_of_pick cid slm hturn hpick hq hbound
    refine ⟨_, hrun, ?_⟩
    rw [State.pcie_host]
    exact ⟨hintake, hhead, hlast, hburst⟩
  case createCq =>
    intro cmd q size iv ien s ht hk hid hfree hmin hmax hvector
    exact execCreateIoCq_of_legal ht hk hmin hmax hid hfree hvector
  case createSq =>
    intro cmd q size cq prio ctx s ht hk hid hfree hcq hadmin hmin hmax
    exact execCreateIoSq_of_legal ht hk hmin hmax prio hid hfree hcq hadmin
  case deleteSq =>
    intro cmd q k s ht hk hio hq hbound
    exact execDeleteIoSq_of_unbound ht hk hio hq hbound
  case deleteCq =>
    intro cmd q s ht hk hio hq hnamed
    exact execDeleteIoCq_of_unnamed ht hk hio hq hnamed
  case abort =>
    rintro cmd target sqid cid f s ht hk hroom rfl hfind
    refine ⟨?caught, ?caughtData, ?waits, ?missed⟩
    case caught =>
      rintro e c rfl hbegun hkind
      exact execAbort_of_waiting_compute ht hk hroom hfind hbegun hkind
    case caughtData =>
      rintro e rfl hbegun hkind
      exact execAbort_of_waiting_data ht hk hroom hfind hbegun hkind
    case waits =>
      rintro e c x rfl hbegun hkind hx
      exact execAbort_of_running_compute ht hk hroom hfind hbegun hkind hx
    case missed =>
      rintro (rfl | ⟨e, rfl, hkind⟩)
      · exact execAbort_of_unheld ht hk hroom hfind
      · exact execAbort_of_missed ht hk hroom hfind hkind
  case abortTimeout =>
    intro cmd a s haborts ha hdue
    exact execAbortTimeout_of_due haborts ha hdue
  case raise =>
    intro k n s hsince hsat hnew hdue
    exact execOverloadRaise_of_sustained hsince hsat hnew hdue
  case clear =>
    intro k n s hsince hsat hraised hdue
    exact execOverloadClear_of_unsaturated hsince hsat hraised hdue

end Sys2Proof.Machine
end

section
/-!
What the commands of features, events and contexts do (R112, R116, R117, R128 to R130, R133, R164, R165).
-/

namespace Sys2Proof.Machine

/-! ### A context put into teardown (R165) -/

@[simp] theorem State.setCtx_ctx? (s : State) (c : Nat) (x : Ctx) : (s.setCtx c x).ctx? c = some x := by
  simp [State.setCtx, State.ctx?]

/-- A teardown that starts leaves the context TEARING_DOWN, with the commands that already waited for one (R165). -/
theorem State.startTear_ctx? {s : State} {c : Nat} {x : Ctx} (hx : s.ctx? c = some x) (hst : x.st ≠ .tearingDown) :
    ∃ y : Ctx, (s.startTear c).ctx? c = some y ∧ y.st = .tearingDown ∧ y.tearCmds = x.tearCmds := by
  simp only [State.startTear, hx, hst, if_false, State.setCtx_ctx?]
  exact ⟨_, rfl, rfl, rfl⟩

/-- Holding an admin command changes no context. -/
theorem State.holdAdmin_ctx? (s : State) (cmd : CmdId) (c : Nat) : (s.holdAdmin cmd).ctx? c = s.ctx? c :=
  congrArg (fun cp : Compute => sget? cp.ctxs c) ((s.holdAdmin_frame cmd).1 .cp (by decide))

/-! ### Features and events (R116, R117, R128, R133) -/

section
variable {s : State} {cmd : CmdId} (ht : s.takes cmd = true)
include ht

section
variable (hk : s.turnedAway cmd true = false)
include hk

/-- Arbitration, Interrupt Coalescing and Asynchronous Event Configuration are stored whole (R116). -/
theorem execSetFeatures_of_whole {fid : Nat} (v : Nat) (data : List Byte) (hfid : fid = 0x01 ∨ fid = 0x08 ∨ fid = 0x0B) :
    execSetFeatures cmd fid v data s = .next ((s.setFeature cmd.fn fid v).succeed cmd) := by
  have hown : ¬ (¬ s.takes cmd = true ∨ fid = 0x02 ∨ fid = 0xC0) := by
    simp only [ht, not_true_eq_false, false_or]
    omega
  have hplain : plainFeature fid = true := by rcases hfid with rfl | rfl | rfl <;> rfl
  have hwhole : fid ≠ 0x0E ∧ fid ≠ 0x07 ∧ fid ≠ 0x04 ∧ fid ≠ 0x09 ∧ fid ≠ 0x0C := by omega
  simp only [execSetFeatures, hown, hk, hplain, hwhole, if_false, not_true_eq_false, Bool.false_eq_true]

/-- A Context Quota that keeps the sum at 64 or less, and is not below what the function holds, is set (R117). -/
theorem execSetFeaturesContextQuota_of_bounded {vf quota : Nat} (hfn : cmd.fn = 0) (hvf : vf < 32)
    (hsum : ((s.host.quota.filter fun p => p.1 ≠ vf).map Prod.snd).sum + quota ≤ 64) (hheld : (s.ctxsOf (vf + 1)).length ≤ quota) :
    execSetFeaturesContextQuota cmd vf quota s =
      .next (({ s with host := { s.host with quota := sput s.host.quota vf quota } } : State).succeed cmd) := by
  refine (State.admin_of_taken ht hk).trans (if_neg ?_)
  omega

/-- A power state that exists is requested (R128). -/
theorem execSetFeaturesPowerManagement_of_state {ps : Nat} (hps : ps ≤ 4) :
    execSetFeaturesPowerManagement cmd ps s = .next ((s.requestPs ps).succeed cmd) :=
  (State.admin_of_taken ht hk).trans (if_neg (Nat.not_lt.mpr hps))

section
variable {c : Nat} {x : Ctx} (hx : s.ctx? c = some x) (hc : c < 64) (hfn : x.req.fn = cmd.fn)
include hx hc hfn

/-- A frozen context of the function, with its log read and a task's fault, is resumed at crossing point 1 (R164). -/
theorem execResumeContext_of_frozen (hst : x.st = .frozen) (hread : x.logRead = true) (hsev : x.severity = 1) : ∃ (u : State) (y : Ctx),
    u = s.serveIntake c x ∧ y = { x with
      st := (if (u.heldOf c).isEmpty then .idle else .waiting)
      waitSince := s.tick
      severity := 0
      resumed := true
      log := { x.log with state := 0 } } ∧
    execResumeContext cmd c false s = .next ((u.setCtx c y).succeed cmd) := by
  have howned : ¬ (64 ≤ c ∨ x.req.fn ≠ cmd.fn ∨ x.st = .tearingDown) := by simp [hc, hfn, hst]
  have hfrozen : ¬ x.st ≠ .frozen := not_not_intro hst
  have htask : ¬ x.severity = 2 := by omega
  refine ⟨_, _, rfl, rfl, (State.admin_of_taken ht hk).trans ?_⟩
  simp only [hx, howned, hfrozen, hread, htask, if_false, not_true_eq_false, Bool.false_eq_true]

/-- A context of the function is put into TEARING_DOWN, and the command waits for the teardown's end (R165). -/
theorem execTearDownContext_of_owned (hst : x.st ≠ .tearingDown) : ∃ (y : Ctx) (u : State),
    execTearDownContext cmd c s = .next (u.setCtx c y) ∧ y.st = .tearingDown ∧ y.tearCmds = x.tearCmds ++ [cmd] := by
  have howned : ¬ (64 ≤ c ∨ x.req.fn ≠ cmd.fn) := by simp [hc, hfn]
  obtain ⟨y, hy, htearing, hcmds⟩ := State.startTear_ctx? ((s.holdAdmin_ctx? cmd c).trans hx) hst
  refine ⟨{ y with tearCmds := y.tearCmds ++ [cmd] }, (s.holdAdmin cmd).startTear c, (State.admin_of_taken ht hk).trans ?_, htearing,
    congrArg (· ++ [cmd]) hcmds⟩
  simp only [hx, howned, hst, if_false, hy]

end

end

section
variable (hk : s.turnedAway cmd false = false)
include hk

/-- A feature that can be read is returned (R116). -/
theorem execGetFeatures_of_read {fid v d : Nat} {bs : List Byte} (hread : s.readFeature cmd.fn fid v = some (d, bs)) :
    execGetFeatures cmd fid v s = .next (s.succeed cmd d bs) := by
  refine (State.admin_of_taken ht hk).trans ?_
  simp only [hread]

section
variable (hroom : (s.ctrl cmd.fn).aerReqs.length < 8)
include hroom

/-- An event request that finds no event kept is outstanding (R133). -/
theorem execAsyncEventRequest_of_none (hkept : (s.ctrl cmd.fn).aerKept = []) : execAsyncEventRequest cmd s =
    .next ((s.setCtrl cmd.fn { s.ctrl cmd.fn with aerReqs := (s.ctrl cmd.fn).aerReqs ++ [cmd] }).freeIntake cmd) := by
  refine (State.admin_of_taken ht hk).trans <| (if_neg (Nat.not_le.mpr hroom)).trans ?_
  simp only [hkept]

/-- An event request that finds an event kept is answered with it (R133). -/
theorem execAsyncEventRequest_of_kept {e : Nat × Nat × Nat} {es : List (Nat × Nat × Nat)} (hkept : (s.ctrl cmd.fn).aerKept = e :: es) :
    execAsyncEventRequest cmd s =
      .next ((s.setCtrl cmd.fn { s.ctrl cmd.fn with aerKept := es, aerSent := e :: (s.ctrl cmd.fn).aerSent }).complete cmd 0 0
        (e.1 + 256 * e.2.1 + 65536 * aerLid e.1 e.2.1) 0) := by
  refine (State.admin_of_taken ht hk).trans <| (if_neg (Nat.not_le.mpr hroom)).trans ?_
  simp only [hkept]

end

end

end

/-- An event of the standard types arises for a function that exists: it is posted or kept as its configuration gives (R133). -/
theorem execAsyncEventPost_of_enabled {s : State} {fn info : Nat} (hfn : s.fnEnabled fn = true) :
    (info < 8 → execAsyncEventPost fn 1 info s = .next (s.aerWarn fn info)) ∧
    (info < 3 → execAsyncEventPost fn 2 info s = .next (s.aer fn 2 info)) := by
  have hgo : ¬ ¬ s.fnEnabled fn = true := not_not_intro hfn
  refine ⟨fun hwarn => ?_, fun hnotice => ?_⟩
  · exact (if_neg hgo).trans (if_pos ⟨rfl, hwarn⟩)
  · exact (if_neg hgo).trans <| (if_neg (by simp)).trans (if_pos ⟨rfl, hnotice⟩)

/-- Settles O9: each command is taken, and its row's effect follows. -/
theorem featureEventAndContextCommandsComplete : Obligations.FeatureEventAndContextCommandsComplete := by
  refine ⟨?setFeature, ?getFeature, ?quota, ?power, ?eventRequest, ?eventPost, ?resume, ?tearDown, ?timeQuery, ?unsupported⟩
  case setFeature =>
    intro cmd fid v data s ht hk hfid
    exact execSetFeatures_of_whole ht hk v data hfid
  case getFeature =>
    intro cmd fid v d bs s ht hk hread
    exact execGetFeatures_of_read ht hk hread
  case quota =>
    intro cmd vf quota s ht hk hfn hvf hsum hheld
    exact execSetFeaturesContextQuota_of_bounded ht hk hfn hvf hsum hheld
  case power =>
    intro cmd ps s ht hk hps
    exact execSetFeaturesPowerManagement_of_state ht hk hps
  case eventRequest =>
    intro cmd s ht hk hroom
    exact ⟨execAsyncEventRequest_of_none ht hk hroom, fun e es hkept => execAsyncEventRequest_of_kept ht hk hroom hkept⟩
  case eventPost =>
    intro fn info s hfn
    exact execAsyncEventPost_of_enabled hfn
  case resume =>
    rintro cmd c x s u ht hk hx hc hfn hst hread hsev rfl
    obtain ⟨_, y, rfl, hy, hrun⟩ := execResumeContext_of_frozen ht hk hx hc hfn hst hread hsev
    exact ⟨y, hy, hrun⟩
  case tearDown =>
    intro cmd c x s ht hk hx hc hfn hst
    obtain ⟨y, u, hrun, htearing, hcmds⟩ := execTearDownContext_of_owned ht hk hx hc hfn hst
    exact ⟨y, _, hrun, u.setCtx_ctx? c y, htearing, hcmds⟩
  case timeQuery =>
    intro cmd s ht hk
    exact State.admin_of_taken ht hk
  case unsupported =>
    intro cmd s ht
    exact if_neg (not_not_intro ht)

end Sys2Proof.Machine
end

section
/-!
What the data commands of NVM and SLM queues do (R110, R113, R124, R125, R436, R438, R444, R445).
-/

namespace Sys2Proof.Machine

section
variable {s : State} {cmd : CmdId} (ht : s.takes cmd = true) (hk : s.turnedAway cmd false = false) (hq : s.computeQueue cmd = false)
include ht hk hq

/-! ### What admits a data command -/

/-- A command of an NVM or SLM queue that is taken, and not turned away, has its effect (R106, R134). -/
theorem State.onNs_of_taken (r : Res) : s.onNs cmd r = r := by
  simp only [State.onNs, hq, Bool.false_eq_true, if_false, State.admin_of_taken ht hk]

section
variable {ns : Nat} (hns : s.nsRefuse cmd.fn ns .nvm = none)
include hns

/-- NVM_FLUSH (R125): every completed write is already safe. -/
theorem execNvmFlush_of_attached : execNvmFlush cmd ns s = .next (s.succeed cmd) := by
  simp only [execNvmFlush, State.onNs_of_taken ht hk hq, hns]

section
variable {slba nlb off n : Nat} (hrange : s.blockRange ns slba nlb = some (off, n))
include hrange

/-- A command on a range inside an attached namespace that no limit, mode or lock stops does its work on the bytes (R113, R458). -/
theorem State.onRange_of_free {write limit : Bool} (hlock : s.rangeLocked ns off n write = false)
    (hmode : write = true → s.fget glob_MEDIA_MODE 0 ≠ 1) (hlimit : limit = true → n ≤ 2 ^ 21) (f : Nat → Nat → State) :
    s.onRange cmd ns slba nlb write limit f = .next (f off n) := by
  have hshort : ¬ (limit = true ∧ 2 ^ 21 < n) := fun h => Nat.not_lt.mpr (hlimit h.1) h.2
  have hwritable : ¬ (write = true ∧ s.fget glob_MEDIA_MODE 0 = 1) := fun h => hmode h.1 h.2
  simp only [State.onRange, State.onNs_of_taken ht hk hq, hns, hrange, hshort, hwritable, hlock, if_false, Bool.false_eq_true]

/-! ### NVM commands -/

section
variable (hlock : s.rangeLocked ns off n false = false) (hgood : s.badIu ns off n = none)
include hlock hgood

/-- NVM_READ returns the newest bytes of the range (R113, R444). -/
theorem execNvmRead_of_readable (hn : n ≤ 2 ^ 21) : execNvmRead cmd ns slba nlb false false s =
    .next (((((s.hostReads ns off n).heatT2 ns off n 0).smartAdd 1 n).smartAdd 3 1).succeed cmd 0 (s.nvmRead ns off n)) := by
  refine (State.onRange_of_free ht hk hq hns hrange hlock nofun (fun _ => hn) _).trans ?_
  simp only [hgood, Bool.false_eq_true, and_self, if_false]

/-- NVM_VERIFY reads the range and returns nothing (R113). -/
theorem execNvmVerify_of_readable : execNvmVerify cmd ns slba nlb s false false = .next ((s.hostReads ns off n).succeed cmd) := by
  refine (State.onRange_of_free ht hk hq hns hrange hlock nofun (limit := false) nofun _).trans ?_
  simp only [hgood, Bool.false_eq_true, and_self, if_false]

end

section
variable (hmode : s.fget glob_MEDIA_MODE 0 ≠ 1) (hlock : s.rangeLocked ns off n true = false) (hgood : s.badPart ns off n = none)
  (hroom : s.canStage ns off n (partialIus ns off n).length = true)
include hmode hlock hgood hroom

/-- NVM_WRITE_ZEROES clears its range (R444). -/
theorem execNvmWriteZeroes_of_writable : execNvmWriteZeroes cmd ns slba nlb s = .next ((s.clearRange ns off n).succeed cmd) := by
  refine (State.onRange_of_free ht hk hq hns hrange hlock (fun _ => hmode) (limit := false) nofun _).trans ?_
  simp only [hgood, hroom, not_true_eq_false, if_false]

/-- Deallocate of one range clears it (R113, R444). -/
theorem execDatasetManagementDeallocate_of_writable :
    execDatasetManagementDeallocate cmd ns true [(slba, nlb)] s = .next (((s.pcie 64 16).clearRange ns off n).succeed cmd) := by
  have hranges : [(slba, nlb)].filterMap (fun r => s.blockRange ns r.1 r.2) = [(off, n)] := by simp [hrange]
  simp only [execDatasetManagementDeallocate, State.onNs_of_taken ht hk hq, hns, hranges, hmode, hlock, hgood, hroom, List.length_singleton,
    List.any_cons, List.any_nil, List.findSome?_cons, List.findSome?_nil, List.map_cons, List.map_nil, List.sum_cons, List.sum_nil,
    List.foldl_cons, List.foldl_nil, Nat.add_zero, Nat.mul_one, Bool.or_false, Bool.not_true, Bool.false_eq_true, not_true_eq_false, ne_eq,
    if_false]

end

end

section
variable {slba off n : Nat} {data : List Byte} {x : Namespace} (hx : sget? s.host.namespaces ns = some x)
  (hrange : s.blockRange ns slba (ceilDiv data.length (lbaBytes x.lbaf)) = some (off, n)) (hn : n ≤ 2 ^ 21)
include hx hrange hn

/-- NVM_WRITE with free staging slots is accepted and acknowledged (R436 to R438). -/
theorem execNvmWrite_of_writable (hmode : s.fget glob_MEDIA_MODE 0 ≠ 1) (hlock : s.rangeLocked ns off n true = false)
    (hgood : s.badPart ns off n = none) (hroom : s.canStage ns off n (iusOf ns off n).length = true) : execNvmWrite cmd ns slba data s =
      .next (((((s.copiesOnWrite (iusOf ns off n)).nvmWrite ns off
        (data ++ List.replicate (n - data.length) 0) false).pcie 64 n).smartAdd 2 n).smartAdd 4 1 |>.succeed cmd) := by
  simp only [execNvmWrite, hx]
  refine (State.onRange_of_free ht hk hq hns hrange hlock (fun _ => hmode) (fun _ => hn) _).trans ?_
  simp only [hgood, hroom, not_true_eq_false, if_false]

/-- NVM_COMPARE answers whether the bytes of the range are the host's (R113, log 22). -/
theorem execNvmCompare_of_readable (hlock : s.rangeLocked ns off n false = false) (hgood : s.badIu ns off n = none) :
    execNvmCompare cmd ns slba data false false s =
      .next (if s.nvmRead ns off n = data ++ List.replicate (n - data.length) 0
        then (((s.hostReads ns off n).pcie 64 n).smartAdd 3 1).succeed cmd
        else (((s.hostReads ns off n).pcie 64 n).smartAdd 3 1).complete cmd 2 0x85) := by
  simp only [execNvmCompare, hx]
  refine (State.onRange_of_free ht hk hq hns hrange hlock nofun (fun _ => hn) _).trans ?_
  simp only [hgood, Bool.false_eq_true, and_self, if_false]

end

end

/-! ### SLM commands -/

section
variable {ns off n : Nat} {x : Namespace} (hns : s.nsRefuse cmd.fn ns .slm = none) (hx : sget? s.host.namespaces ns = some x)
include hns hx

/-- An SLM command on a range inside an attached namespace has its effect (R113). -/
theorem State.onSlm_of_inside (hin : off + n ≤ x.bytes) (hn : n ≤ 2 ^ 21) (f : State) : s.onSlm cmd ns off n f = .next f := by
  have hrange : ¬ (x.bytes < off + n ∨ 2 ^ 21 < n) := by omega
  simp only [State.onSlm, State.onNs_of_taken ht hk hq, hns, hx, hrange, if_false]

/-- SLM_READ of pieces that can all be read returns their bytes (R113). -/
theorem execSlmRead_of_readable (hin : off + n ≤ x.bytes) (hn : n ≤ 2 ^ 21) (hread : (s.piecesRead (s.slmPieces ns off n)).1 = true) :
    ∃ u : State,
      u = (s.slmPieces ns off n).foldl (fun (t : State) (p : Nat × Nat) => t.heatT1 p.1 p.2) (s.piecesRead (s.slmPieces ns off n)).2 ∧
      execSlmRead cmd ns off n s =
        .next (u.succeed cmd 0 ((s.slmPieces ns off n).flatMap fun p => s.tiers.hbm.readN p.1 p.2)) :=
  ⟨_, rfl, (State.onSlm_of_inside ht hk hq hns hx hin hn _).trans (congrArg _ (if_pos hread))⟩

end

end

/-- Settles O11: each command is taken on its range, and its row's effect follows. -/
theorem nvmCommandsComplete : Obligations.NvmCommandsComplete := by
  refine ⟨?readVerify, ?writeCompare, ?flush, ?clear, ?slmRead, ?slmWrite⟩
  case readVerify =>
    intro cmd ns slba nlb off n s ht hk hq hns hrange hlock hgood
    exact ⟨execNvmRead_of_readable ht hk hq hns hrange hlock hgood, execNvmVerify_of_readable ht hk hq hns hrange hlock hgood⟩
  case writeCompare =>
    intro cmd ns slba off n data x s ht hk hq hns hx hrange hn
    exact ⟨execNvmWrite_of_writable ht hk hq hns hx hrange hn, execNvmCompare_of_readable ht hk hq hns hx hrange hn⟩
  case flush =>
    intro cmd ns s ht hk hq hns
    exact execNvmFlush_of_attached ht hk hq hns
  case clear =>
    intro cmd ns slba nlb off n s ht hk hq hns hrange hmode hlock hgood hroom
    exact ⟨execNvmWriteZeroes_of_writable ht hk hq hns hrange hmode hlock hgood hroom,
      execDatasetManagementDeallocate_of_writable ht hk hq hns hrange hmode hlock hgood hroom⟩
  case slmRead =>
    intro cmd ns off n x s ht hk hq hns hx hin hn hread
    exact execSlmRead_of_readable ht hk hq hns hx hin hn hread
  case slmWrite =>
    intro cmd ns off data x s ht hk hq hns hx hin hn
    exact State.onSlm_of_inside ht hk hq hns hx hin hn _

end Sys2Proof.Machine
end

section
/-!
What the commands of namespaces, Format, Sanitize, security and collections do (R88, R108 to R111, R126, R338, R452 to R458).
-/

namespace Sys2Proof.Machine

/-! ### What admits a command of the physical function -/

section
variable {s : State} {cmd : CmdId} (ht : s.takes cmd = true) (hfn : cmd.fn = 0)
include ht hfn

/-- An admin command of the physical function that is taken, and not turned away, has its effect (R106, R112, R134). -/
theorem State.physical_of_taken {changes : Bool} {r : Res} (hk : s.turnedAway cmd changes = false) :
    (if ¬ s.takes cmd = true then .next s else if cmd.fn ≠ 0 then .next (s.complete cmd 0 0x01)
      else if s.turnedAway cmd changes = true then .next (s.turnAway cmd) else r) = r :=
  (if_neg (not_not_intro ht)).trans <| (if_neg (not_not_intro hfn)).trans (if_neg (by simp [hk]))

section
variable (hk : s.turnedAway cmd false = false)
include hk

/-- SECURITY_RECEIVE returns the oldest response that waits (R457). -/
theorem execSecurityReceive_of_waiting {r : List Byte} {rs : List (List Byte)} (hout : s.ftl.opalOut = r :: rs) :
    execSecurityReceive cmd 1 s = .next (({ s with ftl := { s.ftl with opalOut := rs } } : State).succeed cmd 0 r) := by
  refine (State.physical_of_taken ht hfn hk).trans <| (if_neg (by omega)).trans <| (if_neg (by omega)).trans ?_
  simp only [hout]

section
variable (hs : s.sanitizing = false)
include hs

/-- With no sanitize, a command that changes namespaces has its effect (R91). -/
theorem State.onAdmin_of_taken (f : State) : s.onAdmin cmd f = .next f :=
  (State.physical_of_taken ht hfn hk).trans (if_neg (by simp [hs]))

/-! ### Namespaces and Format (R108 to R111, R126, R431, R456) -/

/-- One namespace that exists is deleted; an SLM namespace only with no context (R109, R110). -/
theorem execNamespaceManagement_deletes {nsid : Nat} (slm : Bool) (size lbaf pset : Nat) (hctxs : nsid < 66 ∨ s.cp.ctxs = [])
    (hone : nsid ≠ 0xFFFFFFFF) (hns : (sget? s.host.namespaces nsid).isSome = true) :
    execNamespaceManagement cmd false slm nsid size lbaf pset s = .next (((s.deleteNs nsid).flush).succeed cmd) := by
  have hexists : ¬ (nsid ≠ 0xFFFFFFFF ∧ (sget? s.host.namespaces nsid).isNone = true) :=
    not_and_of_not_right _ (by simpa [Option.isSome_iff_ne_none] using hns)
  have hunused : ¬ (s.cp.ctxs ≠ [] ∧ [nsid].any (66 ≤ ·) = true) := by
    rcases hctxs with h | h <;> simp [h]
  refine (State.onAdmin_of_taken ht hfn hk hs _).trans (congrArg _ ?_)
  simp only [hone, hexists, hunused, if_false, Bool.false_eq_true, List.foldl_cons, List.foldl_nil]

/-- A namespace is attached at an enabled function that does not hold it (R111). -/
theorem execNamespaceAttachment_attaches {nsid f : Nat} {n : Namespace} (hns : sget? s.host.namespaces nsid = some n)
    (hf : s.fnEnabled f = true) (hnew : n.attached.contains f = false) : execNamespaceAttachment cmd nsid true [f] s =
      .next (((((s.pcie 64 4096).putNs nsid { n with attached := n.attached ++ [f] }).nsChanged
        ([f].filter (· ≠ 0)) nsid).flush).succeed cmd) := by
  have hlist : ¬ ([f].isEmpty = true ∨ [f].any (fun f => !s.fnEnabled f) = true) := by simp [hf]
  have hall : ¬ (true = true ∧ [f].any n.attached.contains = true) := by simpa using hnew
  have hdups : [f].eraseDups = [f] := by simp [List.eraseDups_cons]
  have hheld : (n.attached ++ [f]).isEmpty = false := by simp
  refine (State.onAdmin_of_taken ht hfn hk hs _).trans (congrArg _ ?_)
  rw [hns]
  refine (if_neg hlist).trans <| (if_neg hall).trans <| (if_neg (fun h => h.1 rfl)).trans ?_
  simp only [hdups, hheld, if_true, if_false, Bool.false_eq_true]

/-- One NVM namespace is formatted (R456). -/
theorem execFormatNvm_formats {nsid lbaf ses : Nat} (hmode : s.fget glob_MEDIA_MODE 0 ≠ 1) (hses : ses ≤ 2) (hlbaf : lbaf ≤ 1)
    (hone : nsid ≠ 0xFFFFFFFF) (hnvm : ((s.host.namespaces.filter fun p => p.2.kind == .nvm).map Prod.fst).contains nsid = true) :
    execFormatNvm cmd nsid lbaf ses s = .next (((s.formatNs lbaf ses nsid).flush).succeed cmd) := by
  have hformat : ¬ (1 < lbaf ∨ nsid ≠ 0xFFFFFFFF ∧
      ¬ ((s.host.namespaces.filter fun p => p.2.kind == .nvm).map Prod.fst).contains nsid = true) :=
    not_or.mpr ⟨Nat.not_lt.mpr hlbaf, fun h => h.2 hnvm⟩
  refine (State.onAdmin_of_taken ht hfn hk hs _).trans <| congrArg _ <| (if_neg hmode).trans <| (if_neg (Nat.not_lt.mpr hses)).trans <|
    (if_neg hformat).trans ?_
  simp only [hone, if_false, List.foldl_cons, List.foldl_nil]

/-! ### Sanitize and security (R126, R454, R457, R458) -/

/-- SANITIZE of a known action starts, and media mode is SANITIZING (R126, R454). -/
theorem execSanitize_starts {action : Nat} (pattern : Nat) (hmin : 1 ≤ action) (hmax : action ≤ 3) (hmode : s.fget glob_MEDIA_MODE 0 ≠ 1) :
    ∃ u v : State,
      u = ((s.faultMoves false Move.usesMedia 0x06 16).faultSteps PuuStep.usesMedia 0x06 16).dropCopies (fun _ => true) ∧
      v = { u with tiers := { u.tiers with hbm := u.slmPages.foldl (fun (m : Mem) (k : Nat) => m.fill (t1Addr k) tierBytes none) u.tiers.hbm }
                   ftl := { u.ftl with sanAction := action
                                       sanPattern := pattern % 2 ^ 32
                                       sanSteps := 0
                                       collecting := []
                                       shedding := none
                                       refresh := [] } } ∧
      execSanitize cmd action pattern false s = .next (((v.fset ftl_REBUILD_STATE 0 4).setMedia 2 4).succeed cmd) := by
  have hknown : ¬ (action = 0 ∨ 3 < action ∨ false = true) := by simp only [Bool.false_eq_true, or_false]; omega
  have hidle : ¬ (s.sanitizing = true ∧ s.fget glob_MEDIA_CAUSE 0 ≠ 5) := by simp [hs]
  have hwritable : ¬ (s.fget glob_MEDIA_MODE 0 = 1 ∧ action ≠ 1) := fun h => hmode h.1
  exact ⟨_, _, rfl, rfl, (State.physical_of_taken ht hfn hk).trans <| (if_neg hknown).trans <| (if_neg hidle).trans (if_neg hwritable)⟩

/-- SECURITY_SEND of a locking method that the session admits sets the range's locks, and its response waits (R457, R458). -/
theorem execSecuritySend_locks {proto : Nat} (k : Nat) (rd wr : Bool) (data : List Byte) (hproto : proto ≤ 2) : ∃ u : State,
    u = ((s.pcie 64 data.length).lockRange k rd wr).flush ∧ execSecuritySend cmd proto (.lock k rd wr) true data s =
      .next (({ u with ftl := { u.ftl with opalOut := u.ftl.opalOut ++ [Config.opalResponse data] } } : State).succeed cmd) :=
  ⟨_, rfl, (State.onAdmin_of_taken ht hfn hk hs _).trans (congrArg _ (if_neg (Nat.not_lt.mpr hproto)))⟩

end

end

end

/-- An NVM namespace of whole units that fits takes the lowest free identifier (R109, R431). -/
theorem State.createNs_of_room {s : State} (cmd : CmdId) {size lbaf pset ns : Nat} (hsize : size ≠ 0) (hunits : size % 2 ^ 21 = 0)
    (hlbaf : lbaf ≤ 1) (hpset : pset ≤ 2) (hfree : s.freeNsid .nvm = some ns) (hroom : s.roomFor pset (size / 2 ^ 21) = true) :
    ∃ x : Namespace,
      x = { kind := .nvm, units := size / 2 ^ 21, lbaf := lbaf, pset := pset, attached := [], pages := [], rdLocked := false, wrLocked := false } ∧
      s.createNs cmd false size lbaf pset = ((s.putNs ns x).flush).succeed cmd ns := by
  have hfits : ¬ (size % 2 ^ 21 ≠ 0 ∨ ¬ s.roomFor pset (size / 2 ^ 21) = true) := by simp only [hunits, hroom]; simp
  refine ⟨_, rfl, ?_⟩
  simp only [State.createNs, hsize, hfree, hfits, Nat.not_lt.mpr hlbaf, Nat.not_lt.mpr hpset, if_false, Bool.false_eq_true]

/-! ### The course of a sanitize (R455) -/

section
variable {s : State} (hruns : s.sanRuns = true)
include hruns

/-- One more part of a sanitize is done, and journalled (R455). -/
theorem execSanitizeProgress_of_running (hleft : s.ftl.sanSteps < 255) : execSanitizeProgress s =
    .next (({ s with ftl := { s.ftl with sanSteps := s.ftl.sanSteps + 1 } } : State).flush) :=
  if_neg (by simp [hruns, hleft])

/-- The last part of a sanitize ends it with every namespace unlocked, and media mode leaves SANITIZING (R88, R454). -/
theorem execSanitizeComplete_of_last (hlast : 255 ≤ s.ftl.sanSteps) : ∃ u : State,
    u.ftl.sanAction = 0 ∧ u.ftl.sanSteps = 256 ∧ u.ftl.sanDone = true ∧
    (∀ p ∈ u.host.namespaces, p.2.rdLocked = false ∧ p.2.wrLocked = false) ∧
    execSanitizeComplete s = .next (((((u.flush).refreshMargin).fset ftl_REBUILD_STATE 0 0).setMedia (if u.roCauseNow = 0 then 0 else 1)
      u.roCauseNow).aer 0 2 2) := by
  have hgo : ¬ (¬ s.sanRuns = true ∨ s.ftl.sanSteps < 255) := by simp [hruns, hlast]
  refine ⟨_, ?action, ?steps, ?done, ?unlocked, if_neg hgo⟩
  case action => rfl
  case steps => rfl
  case done => rfl
  case unlocked =>
    intro p hp
    obtain ⟨_, _, rfl⟩ := List.mem_map.mp hp
    exact ⟨rfl, rfl⟩

end

/-! ### Collections (R338) -/

@[simp] theorem State.pcie_near (s : State) (c n : Nat) : (s.pcie c n).near = s.near := (s.pcie_frame c n).1 .near (by decide)

/-- A valid descriptor for a context of the function, of a collection that no task reads, is set (R338). -/
theorem execCollectionDescriptorSet_of_valid {s : State} {cmd : CmdId} {id c : Nat} {data d : List Byte} {x : Ctx} (ht : s.takes cmd = true)
    (hk : s.turnedAway cmd true = false) (hx : s.ctx? c = some x) (hc : c < 64) (hfn : x.req.fn = cmd.fn)
    (hunused : s.collInUse cmd.fn (id % 65536) = false) (hd : d = (data ++ List.replicate 4096 0).take 4096) (hcols : clColumns d ≠ 0)
    (hvalid : s.collValid cmd.fn x d = true) (hroom : s.near.collections.length < 4096) : ∃ u : State,
      u.near.collections = sput s.near.collections (65536 * cmd.fn + id % 65536) { bytes := d, ctx := c, valid := true } ∧
      execCollectionDescriptorSet cmd id c data s = .next (u.succeed cmd) := by
  subst hd
  have howned : ¬ (64 ≤ c ∨ x.req.fn ≠ cmd.fn) := by simp [hc, hfn]
  have hfits : ¬ ((sget? s.near.collections (65536 * cmd.fn + id % 65536)).isNone = true ∧ 4096 ≤ s.near.collections.length) :=
    fun h => Nat.not_le.mpr hroom h.2
  simp only [execCollectionDescriptorSet, ht, hk, hx, howned, hunused, hcols, hvalid, hfits, not_true_eq_false, or_self, if_false,
    Bool.false_eq_true]
  refine ⟨_, ?_, rfl⟩
  simp only [State.pcie_near]

/-- Settles O12: each command is taken on the physical function, and its row's effect follows. -/
theorem namespaceSecurityAndCollectionCommandsComplete : Obligations.NamespaceSecurityAndCollectionCommandsComplete := by
  refine ⟨?create, ?delete, ?attach, ?format, ?readOnly, ?sanitize, ?progress, ?complete, ?fail, ?send, ?receive, ?setCollection, ?getCollection⟩
  case create =>
    intro cmd nsid size lbaf pset ns s ht hfn hk hs hsize hunits hlbaf hpset hfree hroom
    obtain ⟨x, hx, hcreated⟩ := State.createNs_of_room cmd hsize hunits hlbaf hpset hfree hroom
    exact ⟨x, hx, (State.onAdmin_of_taken ht hfn hk hs _).trans (congrArg _ hcreated)⟩
  case delete =>
    intro cmd slm nsid size lbaf pset s ht hfn hk hs hctxs hone hns
    exact execNamespaceManagement_deletes ht hfn hk hs slm size lbaf pset hctxs hone hns
  case attach =>
    intro cmd nsid f n s ht hfn hk hs hns hf hnew
    exact execNamespaceAttachment_attaches ht hfn hk hs hns hf hnew
  case format =>
    intro cmd nsid lbaf ses n s ht hfn hk hs hmode hses hlbaf hone hnvm
    exact execFormatNvm_formats ht hfn hk hs hmode hses hlbaf hone hnvm
  case readOnly =>
    intro s hmode hmargin
    exact if_pos ⟨hmode, hmargin⟩
  case sanitize =>
    intro cmd action pattern s ht hfn hk hmin hmax hs hmode
    exact execSanitize_starts ht hfn hk hs pattern hmin hmax hmode
  case progress =>
    intro s hruns hleft
    exact execSanitizeProgress_of_running hruns hleft
  case complete =>
    intro s hruns hlast
    exact execSanitizeComplete_of_last hruns hlast
  case fail =>
    intro info s hruns
    exact if_neg (not_not_intro hruns)
  case send =>
    intro cmd proto k rd wr data s ht hfn hk hs hproto
    exact execSecuritySend_locks ht hfn hk hs k rd wr data hproto
  case receive =>
    intro cmd r rs s ht hfn hk hout
    exact execSecurityReceive_of_waiting ht hfn hk hout
  case setCollection =>
    intro cmd id c data x s ht hk hx hc hfn hunused hcols hvalid hroom
    obtain ⟨u, hu, hrun⟩ := execCollectionDescriptorSet_of_valid ht hk hx hc hfn hunused rfl hcols hvalid hroom
    exact ⟨u, _, hu, rfl, hrun⟩
  case getCollection =>
    intro cmd id k s ht hk hcoll
    refine (State.admin_of_taken ht hk).trans ?_
    simp only [hcoll]

end Sys2Proof.Machine
end

section
/-!
What Identify, log pages, and NVMe-MI and PLDM requests do (R105, R112, R131, R132, R481 to R484, R494).
-/

namespace Sys2Proof.Machine

/-- A command with no reserved field set, and that changes no state, is not turned away (R91, R134). -/
theorem State.turnedAway_of_plain {cmd : CmdId} (s : State) (hplain : cmd.rsvd = false) : s.turnedAway cmd false = false := by
  simp [State.turnedAway, hplain]

/-- A Get Log Page that opens or closes the host interval waits for the next sample boundary (R494). -/
theorem State.floorCommand_of_physical (s : State) {cmd : CmdId} {off n : Nat} (opens : Bool) (hfn : cmd.fn = 0) (hoff : off % 4 = 0)
    (hlen : n % 4 = 0) (hsome : n ≠ 0) (hmax : n ≤ 2 ^ 21) : s.floorCommand cmd opens off n =
      { s with kettle := { s.kettle with floorWait := s.kettle.floorWait ++ [(cmd, opens, off, n)] } } :=
  if_neg (by omega)

section
variable {s : State} {cmd : CmdId} (ht : s.takes cmd = true) (hplain : cmd.rsvd = false)
include ht hplain

/-- IDENTIFY returns the structure that CNS names (R105). -/
theorem execIdentify_of_data {cns nsid : Nat} {d : List Byte} (hd : s.idData cmd.fn cns nsid = some d) :
    execIdentify cmd cns nsid s = .next (s.succeed cmd 0 d) := by
  refine (State.admin_of_taken ht (s.turnedAway_of_plain hplain)).trans ?_
  simp only [hd]

/-- GET_LOG_PAGE returns the bytes asked of a log that the function may read, and re-arms it unless RAE is set (R131, R132). -/
theorem execGetLogPage_of_readable {lid lsi lsp off n : Nat} {d : List Byte} (rae : Bool) (hinterval : lid = 0xC2 → lsp ≠ 1 ∧ lsp ≠ 2)
    (hoff : off % 4 = 0) (hlen : n % 4 = 0) (hsome : n ≠ 0) (hmax : n ≤ 2 ^ 21) (hd : s.logPage cmd.fn lid lsi lsp = .ok d) : ∃ u : State,
      u = ((s.readPair lid lsp).noteLogRead cmd.fn lid lsi off n).succeed cmd 0 (logSlice d off n) ∧
      execGetLogPage cmd lid lsi lsp off n rae s = .next (if rae then u else u.rearmLog cmd.fn lid lsi) := by
  have hgo : ¬ (¬ s.takes cmd = true ∨ lid = 0xC2 ∧ (lsp = 1 ∨ lsp = 2)) :=
    not_or.mpr ⟨not_not_intro ht, fun h => (hinterval h.1).elim fun h1 h2 => h.2.elim h1 h2⟩
  have hslice : ¬ (off % 4 ≠ 0 ∨ n % 4 ≠ 0 ∨ n = 0 ∨ 2 ^ 21 < n) := by omega
  refine ⟨_, rfl, ?_⟩
  simp only [execGetLogPage, hgo, s.turnedAway_of_plain hplain, hslice, hd, if_false, Bool.false_eq_true]

/-- NVME_MI_RECEIVE returns the oldest response not yet fetched (R112). -/
theorem execNvmeMiReceive_of_waiting {r : List Byte} {rs : List (List Byte)} (n : Nat) (hfn : cmd.fn = 0) (hout : s.kettle.miOut = r :: rs) :
    execNvmeMiReceive cmd n s = .next (({ s with kettle := { s.kettle with miOut := rs } } : State).succeed cmd 0 (r.take n)) := by
  refine (State.physical_of_taken ht hfn (s.turnedAway_of_plain hplain)).trans ?_
  simp only [hout]

end

/-- Settles O29: each command is taken, each request reaches the Kettle, and its row's effect follows. -/
theorem managementRequestsComplete : Obligations.ManagementRequestsComplete := by
  refine ⟨?identify, ?logPage, ?interval, ?miSend, ?miReceive, ?mi, ?pldm⟩
  case identify =>
    intro cmd cns nsid d s ht hplain hd
    exact execIdentify_of_data ht hplain hd
  case logPage =>
    intro cmd lid lsi lsp off n d s ht hplain hinterval hoff hlen hsome hmax hd
    obtain ⟨u, hu, hkept⟩ := execGetLogPage_of_readable ht hplain true hinterval hoff hlen hsome hmax hd
    obtain ⟨_, rfl, hrearmed⟩ := execGetLogPage_of_readable ht hplain false hinterval hoff hlen hsome hmax hd
    exact ⟨u, hu, hkept, hu ▸ hrearmed⟩
  case interval =>
    intro cmd off n s ht hplain hfn hoff hlen hsome hmax
    have hwaits (opens : Bool) := s.floorCommand_of_physical opens hfn hoff hlen hsome hmax
    have hk := s.turnedAway_of_plain hplain
    exact ⟨(State.admin_of_taken ht hk).trans (congrArg _ (hwaits true)), (State.admin_of_taken ht hk).trans (congrArg _ (hwaits false))⟩
  case miSend =>
    intro cmd r s ht hk hfn
    exact ⟨_, rfl, State.physical_of_taken ht hfn hk⟩
  case miReceive =>
    intro cmd n r rs s ht hplain hfn hout
    exact execNvmeMiReceive_of_waiting ht hplain n hfn hout
  case mi =>
    intro t r s hreach hon
    exact if_neg (by simp [hreach, hon])
  case pldm =>
    intro t r s hreach hon
    exact if_neg (by simp [hreach, hon])

end Sys2Proof.Machine
end

section
/-!
What the commands of a task and its control descriptors do (R144, R148 to R159, R288).
-/

namespace Sys2Proof.Machine

/-! ### Semaphores -/

/-- A store reads nothing at the keys erased from it, and the rest as before. -/
theorem sget?_foldl_serase {α : Type} (ns : List Nat) (m : Store α) (k : Nat) :
    sget? (ns.foldl serase m) k = if k ∈ ns then none else sget? m k := by
  induction ns generalizing m with
  | nil => simp
  | cons n ns ih =>
    rw [List.foldl_cons, ih, sget?_serase]
    by_cases hk : k ∈ ns <;> simp [hk]

/-- A semaphore that was set holds its value. -/
@[simp] theorem State.setSems_sem_self (s : State) (n v : Nat) : (s.setSems [(n, v)]).sem n = v := by
  by_cases hv : v = 0
  · simp [State.setSems, State.sem, sget, sget?_serase, hv]
  · simp [State.setSems, State.sem, hv]

/-- Semaphores set to 0 read 0. -/
theorem State.setSems_sem_of_zeroed (s : State) {ns : List Nat} {n : Nat} (hn : n ∈ ns) : (s.setSems (ns.map fun n => (n, 0))).sem n = 0 := by
  simp [State.setSems, State.sem, sget, List.foldl_map, sget?_foldl_serase, hn]

@[simp] theorem State.setCtx_sem (s : State) (c : Nat) (x : Ctx) (n : Nat) : (s.setCtx c x).sem n = s.sem n := rfl
@[simp] theorem State.count_sem (s : State) (c i n k m : Nat) : (s.count c i n k).sem m = s.sem m := rfl

/-! ### Task start (R144, R148) -/

/-- A task whose checks passed runs with its registers loaded, and the semaphores of its context read 0 (R148). -/
theorem State.runTask_running (s : State) (c : Nat) (x : Ctx) (t : Task) : ∃ z : Ctx,
    (s.runTask c x t).ctx? c = some z ∧ z.st = .running ∧ z.task = some t ∧ ∀ n ∈ x.req.semsOf, (s.runTask c x t).sem n = 0 :=
  ⟨_, (s.stageProgram x t.exec).setCtx_ctx? c _, rfl, rfl, fun _ hn => State.setSems_sem_of_zeroed _ hn⟩

/-- A command whose image is active and whose checks pass starts its task (R148). -/
theorem State.startTask_of_checked {s : State} {c : Nat} {x : Ctx} {i : Intake} {e : ExecCmd} {late : Bool} {v : State}
    (hv : v = s.beginTask c x i (s.withArg e) late) (himage : v.imageActive e.slot x.req.fn = true)
    (hchecks : v.loadCheck x (s.withArg e) = none) : s.startTask c x i e late = v.runTask c x (s.taskOf x (s.withArg e) late) := by
  subst hv
  have hslot : (s.withArg e).slot = e.slot := rfl
  simp only [State.startTask, hslot, himage, hchecks, Bool.true_eq_false, if_false]

section
variable {s g u : State} {c : Nat} {x y : Ctx} {i : Intake} {is : List Intake} (hx : s.ctx? c = some x) (hheld : s.heldOf c = i :: is)
  (hmay : s.mayGrant c x i = true) (hgrant : s.grantedLoad c x i.tick = some g) (hu : u = g.count 0x04 0 0 1) (hy : y = (u.ctx? c).getD x)
include hx hheld hmay hgrant hu hy

/-- A granted command without descriptors takes effect (R144). -/
theorem execTaskStart_of_op {op : QueueOp} (hop : i.op = some op) : execTaskStart c s = .next (u.runHeld c y i op) := by
  subst hu hy
  simp only [execTaskStart, hx, hheld, hmay, hgrant, hop, not_true_eq_false, if_false]

/-- A granted Execute Program starts its task (R148). -/
theorem execTaskStart_of_exec {e : ExecCmd} (hop : i.op = none) (he : i.exec = some e) :
    execTaskStart c s = .next (u.startTask c y i e (s.lateLoad c x i.tick)) := by
  subst hu hy
  simp only [execTaskStart, hx, hheld, hmay, hgrant, hop, he, not_true_eq_false, if_false]

end

/-! ### Control descriptors that their sequencer can issue (R154) -/

section
variable {s : State} {c h : Nat} {d : Desc}

/-- A BARRIER with fields in range stops its sequencer. -/
theorem execBarrier_of_valid (hd : s.nextDesc c h 0x01 = .go d) (hrsvd : bits d.w 20 84 = 0) :
    execBarrier c h s = .next (s.pass d fun t => t.setWait h (.barrier (bits d.w 12 8))) :=
  (State.onDesc_of_go hd _).trans (congrArg _ (if_neg (not_not_intro hrsvd)))

/-- A YIELD with fields in range and live sizes within the program's maxima stops its sequencer. -/
theorem execYield_of_valid (hd : s.nextDesc c h 0x04 = .go d) (hrsvd : bits d.w 44 60 = 0)
    (hsb : bits d.w 12 16 ≤ pgLiveSb (s.imageOf d.t.exec.slot)) (hacc : bits d.w 28 16 ≤ pgLiveAcc (s.imageOf d.t.exec.slot)) :
    execYield c h s = .next (s.pass d fun t => t.setWait h (.yielding (bits d.w 12 16) (bits d.w 28 16))) := by
  have hfits : ¬ (pgLiveSb (s.imageOf d.t.exec.slot) < bits d.w 12 16 ∨ pgLiveAcc (s.imageOf d.t.exec.slot) < bits d.w 28 16) :=
    not_or.mpr ⟨hsb.not_gt, hacc.not_gt⟩
  exact (State.onDesc_of_go hd _).trans (congrArg _ ((if_neg (not_not_intro hrsvd)).trans (if_neg hfits)))

/-- A SEM_WAIT with fields in range, on a semaphore that its context holds, turns on the semaphore's value alone. -/
theorem execSemWait_of_valid (hd : s.nextDesc c h 0x02 = .go d) (hrsvd : bits d.w 39 65 = 0) (hown : bits d.w 12 10 / 512 = h)
    (hholds : d.x.req.holdsSem (bits d.w 12 10) = true) : execSemWait c h s = .next (if bits d.w 22 16 ≤ s.sem (bits d.w 12 10) then
      (if bit d.w 38 then s.setSems [(bits d.w 12 10, s.sem (bits d.w 12 10) - bits d.w 22 16)] else s).pass d
        fun t => t.waitPassed h (bit d.w 38)
    else s.pass d fun t => t.setWait h (.sem (bits d.w 12 10) (bits d.w 22 16) (bit d.w 38))) := by
  have hfields : ¬ (bits d.w 39 65 ≠ 0 ∨ bits d.w 12 10 / 512 ≠ h) := by simp [hrsvd, hown]
  have hpasses : (bits d.w 22 16 = 0 ∨ bits d.w 22 16 ≤ s.sem (bits d.w 12 10)) = (bits d.w 22 16 ≤ s.sem (bits d.w 12 10)) :=
    propext (or_iff_right_of_imp fun h0 => h0 ▸ Nat.zero_le _)
  refine (State.onDesc_of_go hd _).trans (congrArg _ ?_)
  simp only [hfields, hholds, hpasses, not_true_eq_false, if_false]

/-- A SEM_SIGNAL with fields in range reaches the semaphore block, where it takes effect at once with its watched work complete. -/
theorem execSemSignal_of_valid {g : Signal} (hd : s.nextDesc c h 0x03 = .go d) (hbit : bit d.w 39 = false) (hrsvd : bits d.w 48 56 = 0)
    (hholds : d.x.req.holdsSem (bits d.w 12 10) = true) (hrelease : bit d.w 38 = true → (d.t.regs h).heldSem ≠ 0)
    (hg : g = { hob := h, index := d.i, sem := bits d.w 12 10, value := bits d.w 22 16, release := bit d.w 38, mask := bits d.w 40 8,
                ser := d.t.ser }) : ∃ u : State, u = (s.pass d fun t => { t with signals := t.signals ++ [g] }) ∧
      execSemSignal c h s = .next (if d.t.watchDone h g.mask g.ser then u.signalEffect c g else u) := by
  subst hg
  have hfields : ¬ (bit d.w 39 = true ∨ bits d.w 48 56 ≠ 0 ∨ (bit d.w 38 = true ∧ (d.t.regs h).heldSem = 0)) := by
    simpa [hbit, hrsvd] using hrelease
  exact ⟨_, rfl, (State.onDesc_of_go hd _).trans (congrArg _ ((if_neg hfields).trans (if_neg (not_not_intro hholds))))⟩

section
variable {n left it : Nat} {active : Bool} {r : TaskRegs} (hd : s.nextDesc c h 0x05 = .go d) (hlow : bits d.w 50 6 = 0)
  (hhigh : bits d.w 80 24 = 0) (hback : bits d.w 12 16 < d.i) (hr : r = d.t.regs h) (hn : n = bits d.w 48 2)
  (hactive : active = r.loopActive.getD n false) (hfrom : active = true → r.loopFrom.getD n 0 = d.i)
  (hleft : left = (if active then r.loops.getD n 0 else bits d.w 28 20)) (hit : it = (if active then r.iters.getD n 0 else 0))
include hd hlow hhigh hback hr hn hactive hfrom hleft hit

/-- A REPEAT with fields in range, of a level that is free or its own, jumps back while its count lasts and then passes. -/
theorem execRepeat_of_valid : execRepeat c h s = .next (if 0 < left then
      (s.pass d).setTask c (d.t.setRegs h { r with
        loops := setAt r.loops n (left - 1)
        loopActive := setAt r.loopActive n true
        loopFrom := setAt r.loopFrom n d.i
        iters := setAt r.iters n (it + 1)
        paceOffset := (r.paceOffset + bits d.w 56 24) % 2 ^ 40
        issueIndex := bits d.w 12 16 })
    else s.pass d fun t => t.setRegs h { t.regs h with
      loops := setAt r.loops n 0
      loopActive := setAt r.loopActive n false
      iters := setAt r.iters n 0 }) := by
  subst hleft hit hactive hn hr
  have hfields : ¬ (bits d.w 50 6 ≠ 0 ∨ bits d.w 80 24 ≠ 0 ∨ d.i ≤ bits d.w 12 16 ∨
      ((d.t.regs h).loopActive.getD (bits d.w 48 2) false = true ∧ (d.t.regs h).loopFrom.getD (bits d.w 48 2) 0 ≠ d.i)) := by
    simpa [hlow, hhigh, hback] using hfrom
  exact (State.onDesc_of_go hd _).trans (congrArg _ (if_neg hfields))

end

end

/-! ### Signals that take effect, and waits that end (R154) -/

@[simp] theorem Task.setRegs_signals (t : Task) (h : Nat) (r : TaskRegs) : (t.setRegs h r).signals = t.signals := by
  unfold Task.setRegs
  split <;> rfl

/-- A sequencer that its context uses stands at a YIELD. -/
theorem Task.atYield_of_wait {t : Task} {r : Request} {h sb acc : Nat} (hh : h < 2) (huses : r.uses h = true) (hwait : t.wait h = .yielding sb acc) :
    t.atYield r = true :=
  List.any_eq_true.mpr ⟨h, List.mem_range.mpr hh, by simp [huses, hwait]⟩

section
variable {s : State} {c h : Nat} {x : Ctx} {t : Task} (hrun : s.runningTask c = some (x, t))
include hrun

/-- A signal that no fault stops adds its value to its semaphore and leaves the signals that wait. -/
theorem State.signalEffect_of_valid {g : Signal} (hlink : s.rel.hobFault = true → g.sem / 512 = g.hob)
    (hsum : s.sem g.sem + g.value ≤ 65535) (hrelease : g.release = true → (t.regs g.hob).heldSem ≠ 0) : ∃ (y : Ctx) (t1 : Task),
      (s.signalEffect c g).sem g.sem = s.sem g.sem + g.value ∧ sget? (s.signalEffect c g).cp.ctxs c = some y ∧
      y.task = some t1 ∧ t1.signals = t.signals.erase g := by
  have hreached : ¬ (s.rel.hobFault = true ∧ g.sem / 512 ≠ g.hob) := fun k => k.2 (hlink k.1)
  have hfree : ¬ (g.release = true ∧ (Task.regs { t with signals := t.signals.erase g } g.hob).heldSem = 0) := fun k => hrelease k.1 k.2
  simp only [State.signalEffect, hrun, hreached, hsum.not_gt, hfree, if_false]
  refine ⟨_, _, by simp, State.setCtx_ctx? .., rfl, ?_⟩
  split
  · exact Task.setRegs_signals ..
  · rfl

/-- The oldest deferred signal of a descriptor takes effect once its watched work has completed. -/
theorem execSemSignalEffect_of_found {i : Nat} {g : Signal}
    (hfound : (t.signals.find? fun k => k.hob == h && k.index == i && t.watchDone h k.mask k.ser) = some g) :
    execSemSignalEffect c h i s = .next (s.signalEffect c g) := by
  simp only [execSemSignalEffect, hrun, hfound]

/-- A barrier whose watched work has completed lets its sequencer go on. -/
theorem execBarrierRelease_of_watchDone {m : Nat} (hwait : t.wait h = .barrier m) (hdone : t.watchDone h m t.ser = true) :
    execBarrierRelease c h s = .next (s.setCtx c { x with task := some (t.setWait h .none) }) := by
  simp only [execBarrierRelease, hrun, hwait, hdone, if_true]

/-- A wait whose semaphore has come to hold its value passes. -/
theorem execSemWaitSatisfied_of_value {n v : Nat} {acq : Bool} (hwait : t.wait h = .sem n v acq) (hvalue : v ≤ s.sem n) :
    execSemWaitSatisfied c h s = .next ((if acq then s.setSems [(n, s.sem n - v)] else s).setCtx c
      { x with task := some (t.waitPassed h acq) }) := by
  simp only [execSemWaitSatisfied, hrun, hwait, hvalue, if_true]

/-! ### A YIELD that has drained (R154, R288) -/

section
variable {sb acc : Nat} {t2 : Task} {u : State} (hdrained : (List.range 2).all (t.drained x.req) = true) (hh : h < 2)
  (huses : x.req.uses h = true) (hwait : t.wait h = .yielding sb acc) (hheld0 : (t.regs 0).heldSem = 0) (hheld1 : (t.regs 1).heldSem = 0)
  (hcredits : s.creditsHeld c = false)
  (ht2 : t2 = { t.passYield x.req with checkpoint := some ((s.yieldUnits c).checkpointOf c x (t.passYield x.req)) })
  (hu : u = (s.yieldUnits c).setCtx c { x with task := some t2 })
include hdrained hh huses hwait hheld0 hheld1 hcredits ht2 hu

/-- A drained YIELD with nothing held open leaves the task at its checkpoint, where a caught Abort stops it, a pending pre-emption stops and saves it,
an error of the save area faults it, and else it goes on. -/
theorem execYieldDrained_of_drained : ∃ (t3 : Task) (index hob : Nat),
    t3 = { t2 with
      ranTicks := t2.ranTicks + (s.tick - t2.loadTick)
      slipped := t2.slipped || s.fget glob_DET_MODE_EFFECTIVE 0 == 1 } ∧
    execYieldDrained c s = .next (if x.abortWait then u.stopCaught c x t2
      else if x.preempt ≠ 0 then
        u.setCtx c { x with task := some t3, saved := some (u.saveOf c x t3 false), preemptTick := s.tick }
      else if x.req.forceable ∧ u.saveLost x then (u.err 0x04 0 [8] (c + 65536 * 0x5F) c).faultCtx c
        { code := 0x5F, index := index, hob := hob }
      else u) := by
  subst hu ht2
  have hstands : ¬ (¬ (List.range 2).all (t.drained x.req) = true ∨ ¬ t.atYield x.req = true) :=
    not_or.mpr ⟨not_not_intro hdrained, not_not_intro (Task.atYield_of_wait hh huses hwait)⟩
  have hclosed : ¬ ((t.regs 0).heldSem + (t.regs 1).heldSem ≠ 0 ∨ s.creditsHeld c = true) := by simp [hheld0, hheld1, hcredits]
  simp only [execYieldDrained, hrun, apply_ite Host.Outcome.next]
  exact ⟨_, _, _, rfl, (if_neg hstands).trans (if_neg hclosed)⟩

end

/-! ### The end of a task (R150, R155) -/

/-- A task with nothing in flight, whose advances nothing bars, posts its completion with its flags and RESULT, and its home stays loaded until a
waiter needs it. -/
theorem execTaskEnd_of_done {res : Nat} {u : State} (hdone : s.taskDone x t = true) (hbarred : t.advances ≠ [] → s.advanceBarred = none)
    (hres : res = (if x.req.pairing = 2 then (t.regs t.lastRes).result else (t.regs x.req.pairing).result))
    (hu : u = ((((s.advances c x t).yieldUnits c).dropWork c).postTask t 0 0 t.flagsOf res).missAborts t.exec.cmd) :
    execTaskEnd c s = .next ((u.afterTask c ((u.ctx? c).getD x) t).prune) := by
  subst hu hres
  simp only [execTaskEnd, hrun, hdone, not_true_eq_false, if_false]
  split
  next hadv hbar =>
    have hfree := hbarred (by simp [hadv])
    simp [hfree] at hbar
  · rfl

/-- A task that has run for its TIME_LIMIT faults. -/
theorem execTaskTimeout_of_passed (hlimit : t.exec.timeLimit ≠ 0) (hpassed : ticksMs t.exec.timeLimit ≤ t.ranTicks + (s.tick - t.loadTick)) :
    execTaskTimeout c s = .next (s.faultCtx c { code := 0x07, index := 0xFFFF, hob := x.req.hobs.headD 0 }) := by
  simp only [execTaskTimeout, hrun]
  exact if_pos ⟨hlimit, hpassed⟩

end

/-- A fault that a unit reports faults its context, where its sequencer does not stand at a class that Table 06-6 does not list (R152, R159). -/
theorem execTaskFault_of_listed {s : State} {c h : Nat} (code idx case ucls uinst : Nat) (hclass : s.badClass c h = none) :
    execTaskFault c h code idx case ucls uinst s =
      .next (s.faultCtx c { code := code, index := idx, case := case, hob := h, ucls := ucls, uinst := uinst }) := by
  simp only [execTaskFault, hclass]

/-- Settles O14: each command is granted or its descriptor issued, its fields pass their checks, and its row's effect follows. -/
theorem taskAndControlDescriptorsComplete : Obligations.TaskAndControlDescriptorsComplete := by
  refine ⟨?start, ?barrier, ?barrierRelease, ?semWait, ?semWaitSatisfied, ?semSignal, ?semSignalEffect, ?yield, ?yieldDrained, ?repeats, ?taskEnd,
    ?taskFault, ?taskTimeout⟩
  case start =>
    intro c x y i is g u s hx hheld hmay hgrant hu hy
    refine ⟨fun op hop => execTaskStart_of_op hx hheld hmay hgrant hu hy hop, fun e v hop he hv himage hchecks => ?_⟩
    have hstarts := execTaskStart_of_exec hx hheld hmay hgrant hu hy hop he
    rw [State.startTask_of_checked hv himage hchecks] at hstarts
    obtain ⟨z, hz, hst, htask, hsems⟩ := v.runTask_running c y (u.taskOf y (u.withArg e) (s.lateLoad c x i.tick))
    exact ⟨_, z, _, hstarts, hz, hst, htask, rfl, rfl, rfl, rfl, rfl, hsems⟩
  case barrier =>
    intro c h d s hd hrsvd
    exact execBarrier_of_valid hd hrsvd
  case barrierRelease =>
    intro c h m x t s hrun hwait hdone
    exact execBarrierRelease_of_watchDone hrun hwait hdone
  case semWait =>
    intro c h d s hd hrsvd hown hholds
    have hwait := execSemWait_of_valid hd hrsvd hown hholds
    refine ⟨fun hvalue hacquire => hwait.trans ?_, fun hvalue hacquire => hwait.trans ?_, fun hshort => hwait.trans ?_⟩
    · simp only [hvalue, hacquire, if_true]
    · simp only [hvalue, hacquire, if_true, Bool.false_eq_true, if_false]
    · simp only [hshort.not_ge, if_false]
  case semWaitSatisfied =>
    intro c h n v acq x t s hrun hwait hvalue
    exact execSemWaitSatisfied_of_value hrun hwait hvalue
  case semSignal =>
    intro c h d g s hd hbit hrsvd hholds hrelease hg
    exact execSemSignal_of_valid hd hbit hrsvd hholds hrelease hg
  case semSignalEffect =>
    intro c h i x t g s hrun hlink hfound hsum hrelease
    obtain ⟨y, t1, hsem, hy, htask, hsignals⟩ := State.signalEffect_of_valid hrun hlink hsum hrelease
    exact ⟨_, y, t1, execSemSignalEffect_of_found hrun hfound, hsem, hy, htask, hsignals⟩
  case yield =>
    intro c h d s hd hrsvd hsb hacc
    exact execYield_of_valid hd hrsvd hsb hacc
  case yieldDrained =>
    intro c h x t t2 sb acc u s hrun hdrained hh huses hwait hheld0 hheld1 hcredits ht2 hu
    obtain ⟨t3, index, hob, -, hyields⟩ := execYieldDrained_of_drained hrun hdrained hh huses hwait hheld0 hheld1 hcredits ht2 hu
    refine ⟨fun habort hpreempt harea => hyields.trans ?_, fun habort hpreempt => ?_⟩
    · have hwritten : ¬ (x.req.forceable = true ∧ u.saveLost x = true) := fun k => by simp [harea k.1] at k
      simp only [habort, hpreempt, hwritten, Bool.false_eq_true, ne_eq, not_true_eq_false, if_false]
    · simp only [habort, hpreempt, Bool.false_eq_true, if_false, ne_eq, not_false_eq_true, if_true] at hyields
      exact ⟨_, _, hyields, State.setCtx_ctx? .., rfl, rfl⟩
  case repeats =>
    intro c h n left it active d r s hd hlow hhigh hback hr hn hactive hfrom hleft hit
    have hrepeats := execRepeat_of_valid hd hlow hhigh hback hr hn hactive hfrom hleft hit
    exact ⟨fun hlasts => hrepeats.trans (congrArg _ (if_pos hlasts)), fun hover => hrepeats.trans (congrArg _ (if_neg hover.not_gt))⟩
  case taskEnd =>
    intro c res x t u s hrun hdone hbarred hres hu
    exact execTaskEnd_of_done hrun hdone hbarred hres hu
  case taskFault =>
    intro c h code idx case ucls uinst s hclass
    exact execTaskFault_of_listed code idx case ucls uinst hclass
  case taskTimeout =>
    intro c x t s hrun hlimit hpassed
    exact execTaskTimeout_of_passed hrun hlimit hpassed

end Sys2Proof.Machine
end

section
/-!
The obligation on the frames of contexts, tasks and control descriptors (R148 to R155, R278 to R302).
-/

namespace Sys2Proof.Machine

/-- Settles O55: one frame lemma for each row of the family. -/
theorem contextAndTaskFrames : Obligations.ContextAndTaskFrames :=
  ⟨execTaskStart_runs, execTaskEnd_runs, execTaskFault_runs, execTaskTimeout_runs, execBarrier_runs, execBarrierRelease_runs, execSemWait_runs,
   execSemWaitSatisfied_runs, execSemSignal_runs, execSemSignalEffect_runs, execYield_runs, execYieldDrained_runs, execRepeat_runs,
   execBatchStep_runs, execCreateContext_runs, execCmdTearDown_runs, execCmdPreempt_runs, execCmdSetPolicy_runs, execContextLoad_runs,
   execPreemptDecision_runs, execForceAfterExpiry_runs, execForcedPreempt_runs, execContextSaveComplete_runs, execContextRestore_runs,
   execContextRestoreComplete_runs⟩

end Sys2Proof.Machine
end

section
/-!
The obligation on the frames of Griddles, Drains, Ladles and Whisks (R174, R179, R215 to R244).
-/

namespace Sys2Proof.Machine

/-- Settles O56: one frame lemma for each row of the family. -/
theorem computeAndMovementFrames : Obligations.ComputeAndMovementFrames :=
  ⟨execGriddleMm_runs, execGriddlePassComplete_runs, execGriddleCheckError_runs, execStreamMismatch_runs, execGriddleSelfCheck_runs,
   execGriddleSelfCheckDone_runs, execSelfCheckGo_runs, execSpareRowCommit_runs, execGriddleRetire_runs, execDrainCfg_runs,
   execDrainTableLoadDone_runs, execDrainTileStart_runs, execDrainTileComplete_runs, execDrainError_runs, execLadleMove_runs,
   execLadleMoveStart_runs, execLadleMoveComplete_runs, execLadleHalt_runs, execSbReadError_runs, execWhisk_runs,
   execWhiskCheckError_runs⟩

end Sys2Proof.Machine
end

section
/-!
What a page's own fields read after its error events and a self-check (R69, R71, R72, R191), and what the commands of the Griddles do (R173 to R189).
-/

namespace Sys2Proof.Machine

/-! ### The fields of a page past its header -/

/-- A change of no register leaves every field. -/
theorem Frame.fget {ps : List Part} {s t : State} (h : Frame ps s t) (hp : Part.regs ∉ ps) (g : Field) (j : Nat) : t.fget g j = s.fget g j := by
  have hregs : t.regs = s.regs := h.1 .regs hp
  rw [State.fget, State.fget, hregs]

/-- A field of a unit's page that stands past the header of R59. -/
structure Field.PastHeader (g : Field) : Prop where
  unit : 5 < g.cls
  past : 0x100 ≤ g.off
  inPage : g.off < 4096
  inWord : g.lsb < 32

/-- A field of a header is held at another key. -/
theorem Field.PastHeader.key_ne {g f : Field} (hg : g.PastHeader) (hoff : f.off < 0x100) (hlsb : f.lsb < 32) (i j : Nat) : g.key j ≠ f.key i := by
  obtain ⟨-, hpast, hpage, hword⟩ := hg
  simp only [Field.key]
  omega

section
variable {g : Field} (hg : g.PastHeader) {j : Nat}
include hg

/-- A header field that is set leaves the fields past the header. -/
theorem State.fset_fget_pastHeader (s : State) {f : Field} (i v : Nat) (hoff : f.off < 0x100) (hlsb : f.lsb < 32) :
    (s.fset f i v).fget g j = s.fget g j := s.fget_fset_ne _ _ _ _ _ (hg.key_ne hoff hlsb i j)

theorem State.recEv_fget_pastHeader (s : State) (c i code : Nat) (payload : List Nat) (ctx : Nat) (inj safety : Bool) :
    (s.recEv c i code payload ctx inj safety).fget g j = s.fget g j :=
  let ⟨hlo, hhi⟩ := Field.key_ne_dropped_of_cls j hg.unit
  s.recEv_fget _ _ _ _ _ _ _ hlo hhi

theorem State.blockEvent_fget_pastHeader (s : State) (c i n info : Nat) (ok : Bool) (ctx : Nat) :
    (s.blockEvent c i n info ok ctx).fget g j = s.fget g j := by
  unfold State.blockEvent
  split
  · exact State.recEv_fget_pastHeader hg ..
  · rfl

theorem State.useInject_fget_pastHeader (s : State) (c i b k : Nat) : (s.useInject c i b k).fget g j = s.fget g j := by
  unfold State.useInject
  extract_lets
  split
  · rfl
  · exact State.fset_fget_pastHeader hg _ _ _ (by simp [hdr_INJECT_PENDING]) (by simp [hdr_INJECT_PENDING])

theorem State.capture_fget_pastHeader (s : State) (c i b info ctx : Nat) (inj : Bool) : (s.capture c i b info ctx inj).fget g j = s.fget g j := by
  simp [State.capture, State.fset64, State.fset_fget_pastHeader hg, hdr_FIRST_VALID, hdr_FIRST_BIT, hdr_FIRST_INJECTED, hdr_FIRST_CONTEXT,
    hdr_ERR_FIRST_INFO, hdr_ERR_FIRST_TICK_LO, hdr_ERR_FIRST_TICK_HI]

/-- An error event of any page changes header fields alone, apart from the recorder's count (R69 to R72). -/
theorem State.errBit_fget_pastHeader (s : State) (c i b info ctx : Nat) (inj : Bool) : (s.errBit c i b info ctx inj).fget g j = s.fget g j := by
  unfold State.errBit
  extract_lets rising inj1 s0 s1 s2
  have hinjected : s0.fget g j = s.fget g j := by
    unfold s0
    split
    · rfl
    · exact s.useInject_fget_pastHeader hg ..
  have hcaptured : s1.fget g j = s0.fget g j := by
    unfold s1
    split
    · exact s0.capture_fget_pastHeader hg ..
    · rfl
  have hreport : Frame [.kettle] s1 (if b = 5 then (s1.smartAdd 16 1).pldmEvent [1, c, i] else s1) :=
    .ite (((s1.smartAdd_frame 16 1).trans (State.pldmEvent_frame _ _)).within (by decide)) (.refl _ _)
  have hcounted : s2.fget g j = s1.fget g j := by
    simp only [s2, State.fbump, State.fsetBit]
    rw [State.fset_fget_pastHeader hg _ _ _ (by simp [hdr_ERR_COUNT]) (by simp [hdr_ERR_COUNT]),
      State.fset_fget_pastHeader hg _ _ _ (by simp [hdr_ERR_STATUS]) (by simp [hdr_ERR_STATUS]), hreport.fget (by decide)]
  have hshown : s2.fget g j = s.fget g j := hcounted.trans (hcaptured.trans hinjected)
  split
  · exact (s2.recEv_fget_pastHeader hg ..).trans hshown
  · exact hshown

theorem State.err_fget_pastHeader (s : State) (c i : Nat) (bs : List Nat) (info ctx : Nat) (inj : Bool) :
    (s.err c i bs info ctx inj).fget g j = s.fget g j := by
  have hbits : (bs.foldl (fun t b => t.errBit c i b info ctx inj) s).fget g j = s.fget g j := by
    induction bs generalizing s with
    | nil => rfl
    | cons b bs ih => exact (ih _).trans (s.errBit_fget_pastHeader hg ..)
  unfold State.err
  extract_lets s1
  split
  · exact ((State.aer_frame ..).fget (by decide) g j).trans hbits
  · exact hbits

/-- Past the header, a self-check that ends sets the five fields of its result, and nothing else (R191). -/
theorem State.showCheck_fget (s : State) (i r : Nat) (ok isRow : Bool) (whr : Nat) : (s.showCheck i r ok isRow whr).fget g j =
    (((((s.fset grid_SELF_CHECK_BUSY i 0).fset grid_SELF_CHECK_DONE i 1).fset grid_SELF_CHECK_PASS i (b2n ok)).fset grid_SELF_CHECK_IS_ROW i
      (b2n isRow)).fset grid_SELF_CHECK_WHERE i whr).fget g j := by
  unfold State.showCheck
  extract_lets info s1 s2 s3
  have hblock : s3.fget g j = (if ok then s2 else s2.err 0x11 i [12] info).fget g j := State.blockEvent_fget_pastHeader hg ..
  refine hblock.trans ?_
  split
  · rfl
  · exact s2.err_fget_pastHeader hg ..

end

/-! ### Regions -/

@[simp] theorem State.setRegion_region_self (s : State) (i r : Nat) (x : Region) : (s.setRegion i r x).region i r = x := by
  simp [State.setRegion, State.region]

@[simp] theorem State.count_region (s : State) (c j n k i r : Nat) : (s.count c j n k).region i r = s.region i r := rfl

@[simp] theorem State.countMacs_region (s : State) (g c f n i r : Nat) : (s.countMacs g c f n).region i r = s.region i r := rfl

theorem getD_setAt {α : Type} {l : List α} {n : Nat} (h : n < l.length) (v d : α) : (setAt l n v).getD n d = v := by
  induction l generalizing n with
  | nil => exact absurd h (Nat.not_lt_zero n)
  | cons x l ih =>
    cases n with
    | zero => rfl
    | succ n => exact ih (Nat.lt_of_succ_lt_succ h)

/-- No region of a Griddle is owned, as the commands of the sparing firmware ask it. -/
theorem State.unowned_all {s : State} {i : Nat} (h : ∀ r < 4, s.regionOwner i r = 0xFF) :
    ((List.range 4).all fun r => s.regionOwner i r = 0xFF) = true := by
  simpa using h

/-! ### Passes (R173 to R180) -/

/-- A GRIDDLE_MM that meets every check of Table 07-7 and no Whisk is issued to its region. -/
theorem execGriddleMm_of_checked {s : State} {c h i : Nat} {d : Desc} (hd : s.nextDesc c h 0x10 = .go d)
    (hfields : mmFieldsOk (s.descMode d.x h (mmGriddle d.w)) d.w = true)
    (hgriddle : s.checkGriddle c d.x h (mmGriddle d.w) (mmRegion d.w) = .ok i) (hladle : s.holdsLadle c h (mmALadle d.w) = true)
    (hpre : mmAccum d.w = 2 → s.holdsLadle c h (mmPreLadle d.w) = true) (hformat : mmFormatCase d.w = 0)
    (hsettings : mmSettingsOk (s.region i (mmRegion d.w)) d.w = true)
    (hweights : mmWeightFmt (s.region i (mmRegion d.w)) d.w = some (mmWFmt d.w)) (haccum : mmAccumOk (s.region i (mmRegion d.w)) d.w = true)
    (hopen : s.fget (hdr_DRAIN 0x11) i ≠ 1) (hwhisk : mmDrain d.w = true → s.drainWhisk c h (mmGriddle d.w) (mmRegion d.w) = none) :
    execGriddleMm c h s =
      .next ((s.setRegion i (mmRegion d.w) ((s.region i (mmRegion d.w)).issuePass d.i d.t.ser d.w)).issue d) := by
  have hheld : ¬ (¬ s.holdsLadle c h (mmALadle d.w) = true ∨ mmAccum d.w = 2 ∧ ¬ s.holdsLadle c h (mmPreLadle d.w) = true) := by
    simpa [hladle] using hpre
  have halone : (if mmDrain d.w then s.drainWhisk c h (mmGriddle d.w) (mmRegion d.w) else none) = none := by
    split
    case isTrue hdrain => exact hwhisk hdrain
    case isFalse => rfl
  refine (State.onDesc_of_go hd _).trans (congrArg _ ?_)
  simp only [hfields, hgriddle, hheld, hformat, hsettings, hweights, haccum, hopen, halone, not_true_eq_false, ne_eq, if_false]

/-- A pass that enters its share leaves the queue; the share is OPEN, and the descriptor complete, or it is DRAINING and handed over (R173, R176). -/
theorem State.runPass_enters (s : State) {i r : Nat} {p : Pass} (f : Feed) (pre : Option Feed)
    (hshare : mmTile p.word < (s.region i r).tiles.length) : ∃ u : State,
    (u.region i r).passes = (s.region i r).passes.tail ∧
    ((u.region i r).tiles.getD (mmTile p.word) { st := 0, fp := false, entries := [] }).st = (if mmDrain p.word then 2 else 1) ∧
    (u.region i r).hands.length = (s.region i r).hands.length + (if mmDrain p.word then 1 else 0) ∧
    s.runPass i r p f pre = if mmDrain p.word then u else u.descDone (s.regionOwner i r) p.ser := by
  refine ⟨_, ?passes, ?share, ?hands, rfl⟩ <;> rw [State.count_region, State.count_region, State.countMacs_region, State.setRegion_region_self]
  case passes => split <;> rfl
  case share => split <;> exact congrArg TileShare.st (getD_setAt hshare _ _)
  case hands =>
    split
    · exact List.length_append
    · rfl

/-- The front pass of a region that is ON, with its streams and weights in place and no injection armed, enters its share. -/
theorem execGriddlePassComplete_of_ready {s : State} {i r : Nat} {p : Pass} {f : Feed} {pre : Option Feed}
    (hready : (s.region i r).passReady = some (p, f, pre)) (hon : s.fget (hdr_STATE 0x11) i = 2) (hstall : s.injectLeft 0x11 i 1 = 0)
    (harmed : s.armed 0x11 i [3, 8, 9, 11] = none) (hcorrected : s.injectLeft 0x11 i 2 = 0) :
    execGriddlePassComplete i r s = .next (s.runPass i r p f pre) := by
  simp only [execGriddlePassComplete, hready, hon, hstall, harmed, hcorrected, ne_eq, not_true_eq_false, or_self, if_false, if_true]

/-- What a check error of a Griddle causes follows where its page is present. -/
theorem execGriddleCheckError_of_present {s : State} {i kind : Nat} (r info : Nat) (whole : Bool)
    (hp : Sys2Proof.Machine.present s.variant 0x11 i = true) (hkind : kind = 2 ∨ kind = 3 ∨ kind = 8 ∨ kind = 9) :
    execGriddleCheckError i r kind info whole s = .next (s.checkError i r kind info whole) := by
  refine if_neg ?_
  rintro (habsent | hother)
  · exact habsent hp
  · omega

/-- A parity or residue error that one region can confine faults it (R184). -/
theorem State.checkError_confined (s : State) {i kind : Nat} (r info : Nat) (hkind : kind = 8 ∨ kind = 9) :
    s.checkError i r kind info false = s.regionFault i r [kind] kind 0x40 (s.region i r).frontIndex info := by
  obtain rfl | rfl := hkind <;> rfl

/-- A stream that does not match the pass or drain in its way has the effect of a mismatch. -/
theorem execStreamMismatch_of_met {s : State} {i r port index tile ch : Nat} (hmet : s.mismatchAt i r port = some (index, tile, ch)) :
    execStreamMismatch i r port s = .next (s.mismatch i r port index tile ch) := by
  unfold execStreamMismatch
  rw [hmet]

/-- A mismatch at the west edge or the preload port discards the front pass and empties its share, and the context faults (R180). -/
theorem State.mismatch_of_pass (s : State) {port : Nat} (i r index tile ch : Nat) (hport : port < 2) : ∃ u : State,
    u = ((s.setRegion i r { s.region i r with
      passes := (s.region i r).passes.tail
      tiles := setAt (s.region i r).tiles tile { st := 0, fp := false, entries := [] } }).err 0x11 i [11] (gridInfo 0 0 r tile 0)
        (s.regionOwner i r)).err 0x12 (64 * (i / 17) + ch) [11] 0 (s.regionOwner i r) ∧
    s.mismatch i r port index tile ch = u.faultCtx (s.regionOwner i r)
      { code := 0x41, index := index, hob := i / 17, ucls := 0x11, uinst := i, info := gridInfo 0 0 r tile 0 } := by
  refine ⟨_, rfl, ?_⟩
  simp only [State.mismatch, hport, if_true]

/-! ### Self-checks (R185, R191) -/

/-- A self-check that starts is shown as running, and not as done. -/
theorem State.startCheck_shows (s : State) (i : Nat) (k : SelfCheck) : (s.startCheck i k).fget grid_SELF_CHECK_BUSY i = 1 ∧
    (s.startCheck i k).fget grid_SELF_CHECK_DONE i = 0 ∧ sget? (s.startCheck i k).units.checking i = some k := by
  have hfields (g : Field) : (s.startCheck i k).fget g i = ((s.fset grid_SELF_CHECK_BUSY i 1).fset grid_SELF_CHECK_DONE i 0).fget g i := rfl
  refine ⟨?busy, ?done, ?kind⟩
  case kind => simp [State.startCheck]
  all_goals simp [hfields, State.fget_fset, Field.key_eq_iff, grid_SELF_CHECK_BUSY, grid_SELF_CHECK_DONE]

/-- A self-check that ends is shown as done, with its result. -/
theorem State.showCheck_shows (s : State) (i r : Nat) (ok isRow : Bool) (whr : Nat) :
    (s.showCheck i r ok isRow whr).fget grid_SELF_CHECK_BUSY i = 0 ∧ (s.showCheck i r ok isRow whr).fget grid_SELF_CHECK_DONE i = 1 ∧
    (s.showCheck i r ok isRow whr).fget grid_SELF_CHECK_PASS i = b2n ok := by
  have hbusy : grid_SELF_CHECK_BUSY.PastHeader := by constructor <;> decide
  have hdone : grid_SELF_CHECK_DONE.PastHeader := by constructor <;> decide
  have hpass : grid_SELF_CHECK_PASS.PastHeader := by constructor <;> decide
  rw [State.showCheck_fget hbusy, State.showCheck_fget hdone, State.showCheck_fget hpass]
  have hbit : b2n ok % 2 = b2n ok := by cases ok <;> rfl
  simpa [State.fget_fset, Field.key_eq_iff, grid_SELF_CHECK_BUSY, grid_SELF_CHECK_DONE, grid_SELF_CHECK_PASS, grid_SELF_CHECK_IS_ROW,
    grid_SELF_CHECK_WHERE] using hbit

/-- A unit that has been classified is among those to be retired. -/
theorem State.classify_retiring (s : State) (k : Nat) : (s.classify k).units.retiring.contains k = true := by
  unfold State.classify
  split
  · assumption
  · simp

section
variable {s : State} {i r : Nat}

/-- Sparing firmware checks a FAULTED region that no context owns, in a Griddle that is neither RETIRED nor STARTING. -/
theorem execGriddleSelfCheck_of_faulted (hp : Sys2Proof.Machine.present s.variant 0x11 i = true) (hfaulted : s.regionState i r = 4)
    (howner : s.regionOwner i r = 0xFF) (hidle : s.fget grid_SELF_CHECK_BUSY i ≠ 1) (hretired : s.fget (hdr_STATE 0x11) i ≠ 5)
    (hstarting : s.fget (hdr_STATE 0x11) i ≠ 1) : execGriddleSelfCheck i r s = .next (s.startCheck i (.region r)) := by
  simp only [execGriddleSelfCheck, hp, hfaulted, howner, hidle, hretired, hstarting, not_true_eq_false, or_self, and_self, if_false, if_true]

/-- In test mode, the host's check of an unowned region starts. -/
theorem execSelfCheckGo_of_testMode (hp : Sys2Proof.Machine.present s.variant 0x11 i = true) (hregion : r = s.fget grid_SELF_CHECK_REGION i)
    (htest : s.fget glob_TEST_MODE 0 = 1) (hexists : r < s.fget grid_REGIONS i) (howner : s.regionOwner i r = 0xFF)
    (hidle : s.fget grid_SELF_CHECK_BUSY i = 0) : execSelfCheckGo i s = .next (s.startCheck i (.host r)) := by
  subst hregion
  exact (if_neg (not_not_intro hp)).trans (if_pos ⟨htest, hexists, howner, hidle⟩)

/-- A check that a host ran and that found no fault only shows its result. -/
theorem execGriddleSelfCheckDone_of_host (row col : Nat) (hbusy : s.fget grid_SELF_CHECK_BUSY i ≠ 0)
    (hkind : sget? s.units.checking i = some (.host r)) :
    execGriddleSelfCheckDone i 0 row col s = .next (s.showCheck i r true false 0x1FF) := by
  simp [execGriddleSelfCheckDone, hbusy, sget, hkind]

/-- A check of sparing firmware's that did not complete calls for the Griddle's retirement. -/
theorem execGriddleSelfCheckDone_of_incomplete (row col : Nat) (hbusy : s.fget grid_SELF_CHECK_BUSY i ≠ 0)
    (hkind : sget? s.units.checking i = some (.region r)) :
    execGriddleSelfCheckDone i 4 row col s = .next ((s.showCheck i r false false 0x1FF).markRetiring i) := by
  simp [execGriddleSelfCheckDone, hbusy, sget, hkind]

/-! ### Spare lines and retirement (R186 to R189) -/

/-- With a spare pending in an unowned Griddle that runs no check, the page is drained, and what follows waits for it to be idle. -/
theorem execSpareRowCommit_of_pending (hpending : s.fget grid_SPARE_PENDING i = 1) (hunowned : ∀ r < 4, s.regionOwner i r = 0xFF)
    (hretired : s.fget (hdr_STATE 0x11) i ≠ 5) (hidle : s.fget grid_SELF_CHECK_BUSY i = 0) {u v : State} {used : Nat}
    {marked : List Field → List Nat} (hu : u = s.putControl hdr_DRAIN 0x11 i true)
    (hmarked : marked = fun fs => (fs.map fun f => u.fget f i).filter (· ≠ 0x1FF))
    (hused : used = (marked badRows).length + (marked badCols).length)
    (hv : v = { u with units := { u.units with lineMap := sput u.units.lineMap i (marked badRows, marked badCols) } }) :
    execSpareRowCommit i s = if u.griddleBusy i then .next u else
      .next ((((v.fset (hdr_SUB_USED 0x11) i used).recordRetirement 0x11 i used).spareSwitched 0x11 i 0 used used).startCheck i .commit) := by
  subst hv hused hmarked hu
  exact if_pos ⟨hpending, State.unowned_all hunowned, hretired, hidle⟩

/-- A Griddle classified for retirement retires once no region is owned. -/
theorem execGriddleRetire_of_unowned (hclassified : s.units.retiring.contains i = true) (hunowned : ∀ r < 4, s.regionOwner i r = 0xFF)
    (hretired : s.fget (hdr_STATE 0x11) i ≠ 5) : execGriddleRetire i s = .next (s.retireGriddle i) :=
  if_pos ⟨hclassified, State.unowned_all hunowned, hretired⟩

end

/-- Settles O15: each command passes its guards, and its row's effect follows. -/
theorem griddleCommandsComplete : Obligations.GriddleCommandsComplete := by
  refine ⟨?mm, ?pass, ?checkError, ?mismatch, ?selfCheck, ?selfCheckGo, ?selfCheckDone, ?spareCommit, ?retire⟩
  case mm =>
    intro c h i d _ s hd hfields hgriddle hr hladle hpre hformat hsettings hweights haccum hopen hwhisk
    subst hr
    exact execGriddleMm_of_checked hd hfields hgriddle hladle hpre hformat hsettings hweights haccum hopen hwhisk
  case pass =>
    intro i r p f pre s hready hon hstall harmed hcorrected htwo hshare
    obtain ⟨u, hpasses, hst, hhands, hran⟩ := s.runPass_enters (r := r) f pre (htwo ▸ hshare)
    exact ⟨u, hpasses, hst, hhands, (execGriddlePassComplete_of_ready hready hon hstall harmed hcorrected).trans (congrArg _ hran)⟩
  case checkError =>
    intro i r info whole s hp
    refine ⟨execGriddleCheckError_of_present r info whole hp (.inl rfl), fun kind hkind => ?_⟩
    exact (execGriddleCheckError_of_present r info false hp (by omega)).trans (congrArg _ (s.checkError_confined r info hkind))
  case mismatch =>
    intro i r port index tile ch s hmet hport
    obtain ⟨u, hu, hfault⟩ := s.mismatch_of_pass i r index tile ch hport
    exact ⟨u, hu, (execStreamMismatch_of_met hmet).trans (congrArg _ hfault)⟩
  case selfCheck =>
    intro i r s hp hfaulted howner hidle hretired hstarting
    exact ⟨_, execGriddleSelfCheck_of_faulted hp hfaulted howner hidle hretired hstarting, s.startCheck_shows i _⟩
  case selfCheckGo =>
    intro i r s hp hregion htest hexists howner hidle
    exact ⟨_, execSelfCheckGo_of_testMode hp hregion htest hexists howner hidle, s.startCheck_shows i _⟩
  case selfCheckDone =>
    intro i r row col s hbusy
    constructor
    · intro hkind
      exact ⟨_, execGriddleSelfCheckDone_of_host row col hbusy hkind, s.showCheck_shows i r true false 0x1FF⟩
    · intro hkind
      obtain ⟨hended, -⟩ := s.showCheck_shows i r false false 0x1FF
      exact ⟨_, execGriddleSelfCheckDone_of_incomplete row col hbusy hkind, ((State.classify_frame ..).fget (by decide) _ _).trans hended,
        State.classify_retiring ..⟩
  case spareCommit =>
    intro i used marked u s hpending hunowned hretired hidle hu hmarked hused
    have hrun := execSpareRowCommit_of_pending hpending hunowned hretired hidle hu hmarked hused rfl
    exact ⟨fun hbusy => hrun.trans (if_pos hbusy), fun hdrained => ⟨_, rfl, hrun.trans (by simp [hdrained])⟩⟩
  case retire =>
    intro i s hclassified hunowned hretired
    exact execGriddleRetire_of_unowned hclassified hunowned hretired

end Sys2Proof.Machine
end

section
/-!
What the Pantry links, the self-checks of Colanders, the Hob-to-Hob link and the retirements do (R189, R463 to R470).
-/

namespace Sys2Proof.Machine

/-! ### Pantry links (R463, R466, R467) -/

section
variable {s : State} {k lane : Nat} (hlane : s.laneThere k lane = true)
include hlane

/-- A unit of an active lane that is replayed within its 16 replays is counted, in the link, the hub page and its error bits (R463). -/
theorem execPantryLaneReplay_of_cured {tries : Nat} (two : Bool) (hactive : (s.link k).lanes.getD lane 2 = 0) (htries : tries ≤ 16) :
    execPantryLaneReplay k lane tries two s =
      .next (((s.setLink k { s.link k with replays := satAdd (s.link k).replays 1 0xFFFFFFFF }).count 0x20 (k / 32) 2 1).err 0x20 (k / 32)
        [if two then 3 else 2] (hubInfo k lane)) := by
  simp only [execPantryLaneReplay, hlane, hactive, htries, not_true_eq_false, ne_eq, or_self, or_true, if_false, if_true]

/-- An active lane whose link has not yet retrained stays in training, one more failure against it (R463). -/
theorem execPantryLaneLossOfLock_of_failed (us : Nat) (hactive : (s.link k).lanes.getD lane 2 = 0) : execPantryLaneLossOfLock k lane us false s =
    .next ((s.retrained k us { s.link k with
      lanes := setAt (s.link k).lanes lane 3
      failed := setAt (s.link k).failed lane ((s.link k).failed.getD lane 0 + 1) }).showRetraining k) := by
  simp only [execPantryLaneLossOfLock, hlane, hactive, not_true_eq_false, ne_eq, false_and, or_self, Bool.false_eq_true, if_false]

/-- A permanent lane gives way to the link's idle spare (R466). -/
theorem execPantryLaneSpare_of_idle {sp : Nat} (us : Nat) (hidle : (s.link k).idle = some sp) (hgood : (s.link k).lanes.getD lane 2 ≠ 2)
    (hother : lane ≠ sp) (hperm : s.lanePermanent k lane = true) :
    execPantryLaneSpare k lane us s = .next ((s.retireLane k lane us (some sp)).showSpareLane k lane sp) := by
  simp only [execPantryLaneSpare, hidle, hlane, hgood, hother, hperm, not_true_eq_false, or_self, if_false]

/-- Without a spare, a permanent lane is retired and its package is to be: the link goes on with the lanes that are left, or is lost (R467). -/
theorem execPantryLinkDegrade_of_noSpare (us : Nat) (hactive : (s.link k).lanes.getD lane 2 = 0) (hnone : (s.link k).idle = none)
    (hperm : s.lanePermanent k lane = true) {u : State} (hu : u = (s.retireLane k lane us none).classify (pageNo 0x21 k)) :
    execPantryLinkDegrade k lane us s = .next (if (setAt (s.link k).lanes lane 2).any (fun x => x == 0 || x == 3)
      then (u.fsetBit hub_DEGRADED (k / 32) (k % 32)).err 0x20 (k / 32) [5, 9] (hubInfo k lane)
      else (u.err 0x20 (k / 32) [5] (hubInfo k lane)).packageLost k) := by
  subst hu
  have htaken : ¬ (¬ s.laneThere k lane = true ∨ (s.link k).lanes.getD lane 2 = 2 ∨ (s.link k).lanes.getD lane 2 = 4 ∨
      (s.link k).idle.isSome = true ∨ ¬ s.lanePermanent k lane = true) := by
    simp [hlane, hactive, hnone, hperm, -List.getD_eq_getElem?_getD]
  simp only [execPantryLinkDegrade, htaken, if_false, apply_ite Host.Outcome.next]

end

/-! ### Colanders (R468) -/

/-- No event of a rule's channel lies within a window of the present tick. -/
theorem any_recent_eq_false {s : State} {l : List Nat} {window : Nat} (h : ∀ x ∈ l, x + window ≤ s.tick) :
    (l.any fun t => decide (s.tick < t + window)) = false := by
  simpa using h

/-- A FAULTED Colander in reach that passes its self-check, with no such event in the 24 hours before, starts again: the event was a transient. -/
theorem execColanderSelfCheck_of_transient {s : State} {k : Nat} (read : Bool) (hfitted : colanderFitted s.variant k = true)
    (hfaulted : s.fget (hdr_STATE 0x21) k = 4) (hreach : s.ftl.unreach.contains k = false) (hunarmed : s.injectLeft 0x21 k 3 = 0)
    (hreal : s.fget (hdr_FIRST_INJECTED 0x21) k = 0)
    (hold : ∀ b < 2, ∀ x ∈ sget (s.dropColander k).rel.events (65536 * 11 + (2 * k + b)) [], x + dayTicks ≤ (s.dropColander k).tick) :
    execColanderSelfCheck k false read true true s =
      .next (((s.dropColander k).countEvent 11 (2 * k + b2n read) dayTicks).2.restartColander k) := by
  have htaken : ¬ (¬ colanderFitted s.variant k = true ∨ ¬ (s.fget (hdr_STATE 0x21) k = 4 ∨ false = true ∧ s.fget (hdr_STATE 0x21) k = 2) ∨
      s.ftl.unreach.contains k = true) := by
    simp only [hfitted, hfaulted, hreach, not_true_eq_false, true_or, or_self, Bool.false_eq_true, not_false_eq_true]
  have hengines := any_recent_eq_false (hold 0 (by omega))
  have hread := any_recent_eq_false (hold 1 (by omega))
  rw [Nat.add_zero] at hengines
  refine (if_neg htaken).trans ?_
  simp [hunarmed, hreal, hengines, hread]

/-! ### The Hob-to-Hob link (R463, R470) -/

/-- A fault of the Hob-to-Hob link with no transfer in flight is shown on both Hobs' pages (R470; the model's choice, log 78). -/
theorem execHobLinkFault_of_idle {s : State} (hup : s.rel.hobFault = false) {u : State}
    (hu : u = { s with rel := { s.rel with hobFault := true } }) :
    execHobLinkFault [] s = .next (((u.recordRetirement 0x10 0 0).recordRetirement 0x10 1 0).smartAdd 16 1) := by
  subst hu
  exact if_neg (by simp [hup])

/-- A lane repair of a Hob-to-Hob link that is up is counted (R463). -/
theorem execHobLinkLaneRepair_of_up {s : State} {h : Nat} (hhob : h < 2) (hup : s.rel.hobFault = false) :
    execHobLinkLaneRepair h s = .next (s.err 0x10 h [2]) := if_neg (by simp [hhob, hup])

/-! ### Retirement (R189, R465) -/

section
variable {s : State} {i : Nat} (g : Nat)

/-- UNIT_RETIREMENT of a Griddle is its own operation. -/
theorem execUnitRetirement_griddle (hclassified : s.units.retiring.contains i = true) (hi : i < 34)
    (hunowned : ∀ r < 4, s.regionOwner i r = 0xFF) (hretired : s.fget (hdr_STATE 0x11) i ≠ 5) :
    execUnitRetirement 0x11 i g s = .next (s.retireGriddle i) :=
  (if_pos rfl).trans (if_pos ⟨hclassified, hi, State.unowned_all hunowned, hretired⟩)

/-- UNIT_RETIREMENT of a Shared Buffer retires one of its groups that is unowned and that no bank program holds. -/
theorem execUnitRetirement_sharedBuffer (hi : i < 2) (hg : g < 48) (hclassified : s.units.retiring.contains (groupKey i g) = true)
    (howner : s.fget (sb_GROUP_OWNER g) i = 0xFF) (hprogram : s.groupProgram i g = false) : execUnitRetirement 0x15 i g s =
    .next (({ s with units := { s.units with retiring := s.units.retiring.filter (· ≠ groupKey i g) } } : State).sbRetire i g) := by
  refine ((if_neg (by decide)).trans (if_pos rfl)).trans (if_neg ?_)
  simp only [hclassified, howner, hprogram, not_true_eq_false, ne_eq, Bool.false_eq_true, or_self, or_false]
  omega

/-- UNIT_RETIREMENT of any other unit records it, moves it to RETIRED and shows that no spare takes its place. -/
theorem execUnitRetirement_other {c : Nat} (hclassified : s.units.retiring.contains (pageNo c i) = true) (hgriddle : c ≠ 0x11)
    (hbuffer : c ≠ 0x15) (hpackage : c ≠ 0x21) (hfree : s.unitFree c i = true) (hretired : s.fget (hdr_STATE c) i ≠ 5) {u : State}
    (hu : u = { s with units := { s.units with retiring := s.units.retiring.filter (· ≠ pageNo c i) } }) :
    execUnitRetirement c i g s = .next (((u.recordRetirement c i 0).toRetired c i).err c i [5]) := by
  subst hu
  simp only [execUnitRetirement, hgriddle, hbuffer, hpackage, hclassified, hfree, hretired, not_true_eq_false, or_self, if_false]

end

/-- Settles O25: each event passes its guards, and its row's effect follows. -/
theorem linkAndRetirementEventsComplete : Obligations.LinkAndRetirementEventsComplete := by
  refine ⟨?replay, ?lossOfLock, ?spare, ?degrade, ?colander, ?hobFault, ?hobRepair, ?griddle, ?sharedBuffer, ?other⟩
  case replay =>
    intro k lane tries two s hlane hactive htries
    exact ⟨_, rfl, execPantryLaneReplay_of_cured hlane two hactive htries⟩
  case lossOfLock =>
    intro k lane us s hlane hactive
    exact ⟨_, rfl, execPantryLaneLossOfLock_of_failed hlane us hactive⟩
  case spare =>
    intro k lane us sp s hlane hidle hgood hother hperm
    exact execPantryLaneSpare_of_idle hlane us hidle hgood hother hperm
  case degrade =>
    intro k lane us s hlane hactive hnone hperm
    exact ⟨_, rfl, execPantryLinkDegrade_of_noSpare hlane us hactive hnone hperm rfl⟩
  case colander =>
    intro k read s hfitted hfaulted hreach hunarmed hreal hold
    exact execColanderSelfCheck_of_transient read hfitted hfaulted hreach hunarmed hreal hold
  case hobFault =>
    intro s hup
    exact ⟨_, rfl, execHobLinkFault_of_idle hup rfl⟩
  case hobRepair =>
    intro h s hhob hup
    exact execHobLinkLaneRepair_of_up hhob hup
  case griddle =>
    intro i g s hclassified hi hunowned hretired
    exact execUnitRetirement_griddle g hclassified hi hunowned hretired
  case sharedBuffer =>
    intro i g s hi hg hclassified howner hprogram
    exact execUnitRetirement_sharedBuffer g hi hg hclassified howner hprogram
  case other =>
    intro c i g s hclassified hgriddle hbuffer hpackage hfree hretired
    exact ⟨_, rfl, execUnitRetirement_other g hclassified hgriddle hbuffer hpackage hfree hretired rfl⟩

end Sys2Proof.Machine
end

section
/-!
The K-tile sum of an integer pass, block by block (R198 to R201).
-/

namespace Sys2Proof.Machine

/-! ### Saturation -/

/-- Saturation to a signed width, by the three places of the value. -/
theorem satTo_eq (W : Nat) (v : Int) : satTo W v =
    if v < -2 ^ (W - 1) then (-2 ^ (W - 1), true) else if 2 ^ (W - 1) - 1 < v then (2 ^ (W - 1) - 1, true) else (v, false) := by
  unfold satTo clampI
  split
  case isTrue hlow => exact Prod.ext rfl (decide_eq_true (by simpa using hlow.ne'))
  case isFalse =>
    split
    case isTrue hhigh => exact Prod.ext rfl (decide_eq_true (by simpa using hhigh.ne))
    case isFalse => exact Prod.ext rfl (decide_eq_false (by simp))

/-- What saturation leaves is within the width. -/
theorem satTo_bounds (W : Nat) (v : Int) : -2 ^ (W - 1) ≤ (satTo W v).1 ∧ (satTo W v).1 ≤ 2 ^ (W - 1) - 1 := by
  have hpos : (0 : Int) < 2 ^ (W - 1) := by positivity
  rw [satTo_eq]
  split
  · exact ⟨le_rfl, by omega⟩
  · split
    · exact ⟨by omega, le_rfl⟩
    · omega

/-- The hand-over of a sum to the 32 bits of a tile entry (R201). -/
theorem satTo_tile (v : Int) :
    satTo 32 v = (max (-2 ^ 31) (min (2 ^ 31 - 1) v), decide (v < -2 ^ 31 ∨ 2 ^ 31 - 1 < v)) := by
  rw [satTo_eq]
  split
  case isTrue hlow => exact Prod.ext (by omega) (decide_eq_true (.inl hlow)).symm
  case isFalse hlow =>
    split
    case isTrue hhigh => exact Prod.ext (by omega) (decide_eq_true (.inr hhigh)).symm
    case isFalse hhigh => exact Prod.ext (by omega) (decide_eq_false (not_or.mpr ⟨hlow, hhigh⟩)).symm

/-! ### One block after another -/

/-- The value v_b of block `b` of 32 rows, rounded onto the grid 2^g (R198, R199). -/
def blockValue (g : Int) (xs ws : List Fv) (b : Nat) : Int :=
  ((blockSum ((xs.drop (32 * b)).take 32) ((ws.drop (32 * b)).take 32)).scale (-g)).round .rne

/-- One saturating addition to a sum with its SAT flag (R200). -/
def satStep (W : Nat) (a : Int × Bool) (v : Int) : Int × Bool :=
  if a.1 + v < -2 ^ (W - 1) then (-2 ^ (W - 1), true)
  else if 2 ^ (W - 1) - 1 < a.1 + v then (2 ^ (W - 1) - 1, true) else (a.1 + v, a.2)

/-- The model's addition of a block: the sum saturates, and the flag stays once it is set. -/
theorem satStep_eq_satTo (W : Nat) (a : Int × Bool) (v : Int) :
    satStep W a v = ((satTo W (a.1 + v)).1, a.2 || (satTo W (a.1 + v)).2) := by
  rw [satTo_eq, satStep]
  split
  · simp
  · split <;> simp

/-- Later blocks are the blocks of the rows after the first 32. -/
theorem blockValue_succ (g : Int) (xs ws : List Fv) (b : Nat) :
    blockValue g xs ws (b + 1) = blockValue g (xs.drop 32) (ws.drop 32) b := by
  simp only [blockValue, List.drop_drop, Nat.mul_succ, Nat.add_comm]

/-- The blocks of a list with a row: the first, and those of the rest. -/
theorem map_blockValue_of_ne_nil (g : Int) {xs : List Fv} (ws : List Fv) (h : xs ≠ []) :
    (List.range ((xs.length + 31) / 32)).map (blockValue g xs ws) = blockValue g xs ws 0 ::
      (List.range (((xs.drop 32).length + 31) / 32)).map (blockValue g (xs.drop 32) (ws.drop 32)) := by
  have hcount : (xs.length + 31) / 32 = ((xs.drop 32).length + 31) / 32 + 1 := by
    have hrows : 0 < xs.length := List.length_pos_iff.mpr h
    rw [List.length_drop]
    omega
  rw [hcount, List.range_succ_eq_map, List.map_cons, List.map_map]
  exact congrArg _ (List.map_congr_left fun b _ => blockValue_succ g xs ws b)

/-- The K-tile sum adds the block values in row order, each addition saturating (R200). -/
theorem intKSum_eq_foldl (W : Nat) (g : Int) {f : Nat} {xs : List Fv} (ws : List Fv) (a : Int × Bool) (hf : xs.length ≤ f) :
    intKSum W g f xs ws a = ((List.range ((xs.length + 31) / 32)).map (blockValue g xs ws)).foldl (satStep W) a := by
  induction f generalizing xs ws a with
  | zero =>
    obtain rfl := List.length_eq_zero_iff.mp (Nat.le_zero.mp hf)
    rfl
  | succ f ih =>
    by_cases hrows : xs = []
    · subst hrows
      rfl
    · have hrest : (xs.drop 32).length ≤ f := by
        rw [List.length_drop]
        omega
      rw [map_blockValue_of_ne_nil g ws hrows, List.foldl_cons, satStep_eq_satTo, ← ih _ _ hrest, intKSum]
      exact if_neg (by simpa using hrows)

/-- The sum stays within its width (R200). -/
theorem foldl_satStep_bounds (W : Nat) (vs : List Int) {a : Int × Bool} (ha : -2 ^ (W - 1) ≤ a.1 ∧ a.1 ≤ 2 ^ (W - 1) - 1) :
    -2 ^ (W - 1) ≤ (vs.foldl (satStep W) a).1 ∧ (vs.foldl (satStep W) a).1 ≤ 2 ^ (W - 1) - 1 := by
  induction vs generalizing a with
  | nil => exact ha
  | cons v vs ih => exact ih (by rw [satStep_eq_satTo]; exact satTo_bounds W _)

/-- An entry after a pass of an integer domain: the K-tile sum added to the entry, and the SAT flags of both (R200, R201). -/
theorem passEntry_of_integer {w W : Nat} (g : Int) (t : Entry) (xs ws : List Fv) (nf : Bool) (hint : mmFp w = false)
    (hW : W = if mmAcc16 w then 16 else 32) {k : Int × Bool}
    (hk : k = ((List.range ((xs.length + 31) / 32)).map (blockValue g xs ws)).foldl (satStep W) (0, false)) :
    (passEntry w g t xs ws nf).v = unsigned (max (-2 ^ 31) (min (2 ^ 31 - 1) (signed t.v 32 + k.1))) 32 ∧
    (passEntry w g t xs ws nf).sat =
      (t.sat || k.2 || decide (signed t.v 32 + k.1 < -2 ^ 31 ∨ 2 ^ 31 - 1 < signed t.v 32 + k.1)) := by
  have hsum : intKSum W g (xs.length + 1) xs ws (0, false) = k := (intKSum_eq_foldl W g ws _ (Nat.le_succ _)).trans hk.symm
  subst hW
  simp only [passEntry, hint, hsum, satTo_tile, Bool.false_eq_true, if_false, and_self]

/-- Settles O36: the model's sum by blocks is the fold of the saturating additions over the block values. -/
theorem tileSumsSaturateBlockByBlock : Obligations.TileSumsSaturateBlockByBlock := by
  intro w g t xs ws nf hint
  obtain ⟨hvalue, hsat⟩ := passEntry_of_integer g t xs ws nf hint rfl rfl
  have hstart : (0 : Int) < 2 ^ ((if mmAcc16 w then 16 else 32) - 1) := by positivity
  obtain ⟨hlow, hhigh⟩ := foldl_satStep_bounds (if mmAcc16 w then 16 else 32)
    ((List.range ((xs.length + 31) / 32)).map (blockValue g xs ws)) (a := (0, false))
    ⟨Int.neg_nonpos_of_nonneg hstart.le, Int.le_sub_one_of_lt hstart⟩
  exact ⟨_, _, _, rfl, rfl, rfl, hlow, hhigh, hvalue, hsat⟩

end Sys2Proof.Machine
end

section
/-!
The generator of stochastic rounding on 64-bit words (R211, R212).
-/

namespace Sys2Proof.Machine

/-- One step of the procedure of R212 on a 64-bit word. -/
def xorshift (x : BitVec 64) : BitVec 64 :=
  let a := x ^^^ (x <<< 13)
  let b := a ^^^ (a >>> 7)
  b ^^^ (b <<< 17)

/-- The seed of R212 on 64-bit words. -/
def seedWord (x : BitVec 64) (k : Nat) : BitVec 64 :=
  let y := x ^^^ (BitVec.ofNat 64 k * 0x9e3779b97f4a7c15#64)
  if y = 0 then 0x9e3779b97f4a7c15#64 else y

/-- A word exclusive-ored with itself shifted left, on numbers. -/
theorem toNat_xor_shiftLeft (x : BitVec 64) (n : Nat) : (x ^^^ (x <<< n)).toNat = Nat.xor x.toNat (x.toNat * 2 ^ n % 2 ^ 64) := by
  rw [BitVec.toNat_xor, BitVec.toNat_shiftLeft, Nat.shiftLeft_eq]
  rfl

/-- A word exclusive-ored with itself shifted right, on numbers. -/
theorem toNat_xor_ushiftRight (x : BitVec 64) (n : Nat) : (x ^^^ (x >>> n)).toNat = Nat.xor x.toNat (x.toNat / 2 ^ n) := by
  rw [BitVec.toNat_xor, BitVec.toNat_ushiftRight, Nat.shiftRight_eq_div_pow]
  rfl

/-- The model's step is the procedure's on words. -/
theorem lfsrStep_toNat (x : BitVec 64) : lfsrStep x.toNat = (xorshift x).toNat := by
  simp only [lfsrStep, xorshift, toNat_xor_shiftLeft, toNat_xor_ushiftRight]

/-- The model's seed is the procedure's on words. -/
theorem lfsrSeed_toNat (x : BitVec 64) (k : Nat) : lfsrSeed x.toNat k = (seedWord x k).toNat := by
  have hword : Nat.xor x.toNat (k * lfsrMul % 2 ^ 64) = (x ^^^ (BitVec.ofNat 64 k * 0x9e3779b97f4a7c15#64)).toNat := by
    rw [BitVec.toNat_xor, BitVec.toNat_mul, BitVec.toNat_ofNat, Nat.mod_mul_mod]
    rfl
  have hzero (y : BitVec 64) : y.toNat = 0 ↔ y = 0 := BitVec.toNat_inj (y := 0)
  simp only [lfsrSeed, seedWord, hword, apply_ite BitVec.toNat, hzero]
  rfl

/-- A step from a state of 64 bits is a state of 64 bits. -/
theorem lfsrStep_lt {s : Nat} (h : s < 2 ^ 64) : lfsrStep s < 2 ^ 64 := by
  have hword := lfsrStep_toNat (BitVec.ofNat 64 s)
  rw [BitVec.toNat_ofNat, Nat.mod_eq_of_lt h] at hword
  exact hword ▸ (xorshift _).isLt

/-- Every state that follows a state of 64 bits has 64 bits. -/
theorem iterate_lfsrStep_lt {s : Nat} (h : s < 2 ^ 64) (n : Nat) : lfsrStep^[n] s < 2 ^ 64 := by
  induction n generalizing s with
  | zero => exact h
  | succ n ih => exact ih (lfsrStep_lt h)

/-- The values handed out are the top 16 bits of the states that follow the seed. -/
theorem lfsrRun_values (n s : Nat) : (lfsrRun n s).1 = (List.range n).map fun j => lfsrStep^[j + 1] s / 2 ^ 48 := by
  induction n generalizing s with
  | zero => rfl
  | succ n ih =>
    rw [List.range_succ_eq_map, List.map_cons, List.map_map, lfsrRun, ih]
    rfl

/-- The state that a run leaves is as many steps on as it has elements. -/
theorem lfsrRun_state (n s : Nat) : (lfsrRun n s).2 = lfsrStep^[n] s := by
  induction n generalizing s with
  | zero => rfl
  | succ n ih => exact ih (lfsrStep s)

/-- Settles O40: the model's numbers are those of the procedure on words, and a run lists the states that follow its seed. -/
theorem roundingGeneratorIsXorshift : Obligations.RoundingGeneratorIsXorshift := by
  refine ⟨?step, ?seed, ?run⟩
  case step =>
    intro x
    exact ⟨by rw [lfsrStep_toNat, BitVec.ofNat_toNat, BitVec.setWidth_eq]; rfl, lfsrStep_lt x.isLt⟩
  case seed =>
    intro x k
    rw [lfsrSeed_toNat, BitVec.ofNat_toNat, BitVec.setWidth_eq]
    rfl
  case run =>
    intro n seed hseed
    rw [lfsrRun_values]
    refine ⟨by simp, lfsrRun_state n seed, fun j hj => by simp [hj], fun r hr => ?_⟩
    obtain ⟨j, -, rfl⟩ := List.mem_map.mp hr
    have hstate := iterate_lfsrStep_lt hseed (j + 1)
    omega

end Sys2Proof.Machine
end

section
/-!
What the commands of the Drains and the Whisks do (R204 to R218, R241 to R245).
-/

namespace Sys2Proof.Machine

/-! ### Regions and ports -/

/-- A change of no unit leaves every region. -/
theorem Frame.region {ps : List Part} {s t : State} (h : Frame ps s t) (hp : Part.units ∉ ps) (i r : Nat) : t.region i r = s.region i r := by
  rw [State.region, State.region, h.1 .units hp]

/-- Free values that are used up leave a region that is replaced. -/
theorem State.setRegion_freeCount_region_self (s : State) (i r n : Nat) (x : Region) :
    State.region { s.setRegion i r x with freeCount := n } i r = x := s.setRegion_region_self i r x

@[simp] theorem State.fset_region (s : State) (f : Field) (j v i r : Nat) : (s.fset f j v).region i r = s.region i r := rfl

@[simp] theorem State.fset64_region (s : State) (lo hi : Field) (j v i r : Nat) : (s.fset64 lo hi j v).region i r = s.region i r := rfl

/-- A descriptor that needs no port of the Shared Buffer finds none bound. -/
@[simp] theorem State.portBound_nil (s : State) (h : Nat) (write : Bool) : s.portBound h write [] = false := by
  simp [State.portBound]

/-! ### DRAIN_CFG and its tables (R207, R214 to R216) -/

/-- A DRAIN_CFG that meets the checks of Table 08-7, loads no table and meets no Whisk puts its settings in force and passes. -/
theorem execDrainCfg_of_checked {s : State} {c h i : Nat} {d : Desc} (hd : s.nextDesc c h 0x11 = .go d)
    (hfields : dcFieldsOk (s.descMode d.x h (dcGriddle d.w)) d.w = true)
    (hgriddle : s.checkGriddle c d.x h (dcGriddle d.w) (dcRegion d.w) = .ok i) (hbarred : s.cfgBarred h d.w = false)
    (hladle : s.holdsLadle c h (dcOutLadle d.w) = true) (hsum : dcRowSum d.w = 0) (hscale : dcRowScale d.w = 0)
    (hact : dcLoadAct d.w = false) (hchan : dcLoadCh d.w = false)
    (hwhisk : s.drainWhisk c h (dcGriddle d.w) (dcRegion d.w) = none) {r : Region} (hr : r = s.region i (dcRegion d.w)) :
    execDrainCfg c h s = .next ((s.setRegion i (dcRegion d.w)
      { r with cfg := some d.w, acc := if dcAccSet d.w then some (dcAcc d.w) else r.acc }).pass d) := by
  subst hr
  refine (State.onDesc_of_go hd _).trans (congrArg _ ?_)
  simp only [hfields, hgriddle, hbarred, hladle, hsum, hscale, hact, hchan, hwhisk, State.portBound_nil, Bool.or_self, not_true_eq_false, ne_eq,
    false_and, or_self, Bool.false_eq_true, if_false]

/-- The oldest load of a region that no earlier drain blocks, with a table that R207 allows, fills its slots, and its DRAIN_CFG completes. -/
theorem execDrainTableLoadDone_of_free {s : State} {i r : Nat} {l : TableLoad} {ls : List TableLoad} (hloads : (s.region i r).loads = l :: ls)
    (hfree : (s.region i r).loadBlocked l = false) (htable : dcLoadAct l.word = true → actTableOk (s.loadAct l) = true) {y : Region}
    (hy : y = { s.region i r with
      loads := ls
      act := if dcLoadAct l.word then setAt (s.region i r).act (cfgSlot l.word) (some (s.loadAct l)) else (s.region i r).act
      chan := if dcLoadCh l.word then setAt (s.region i r).chan (cfgSlot l.word) (some (s.loadChan l)) else (s.region i r).chan }) :
    execDrainTableLoadDone i r s = .next ((s.setRegion i r y).descDone (s.regionOwner i r) l.ser) := by
  subst hy
  have hgoes : ¬ ((s.region i r).loadBlocked l = true ∨ (dcLoadAct l.word = true ∧ ¬ actTableOk (s.loadAct l) = true)) := by
    simpa [hfree] using htable
  simp only [execDrainTableLoadDone, hloads, hgoes, if_false]

/-! ### The drain of a tile share (R212, R215 to R217) -/

section
variable {s : State} {i r : Nat} {hd : Handover} {hs : List Handover} (hhands : (s.region i r).hands = hd :: hs)
include hhands

/-- The oldest hand-over of a region that is ON begins where no earlier load of its slot is unfinished, and shows its seed with ROUND = 1. -/
theorem execDrainTileStart_of_waiting (hwaits : hd.begun = false) (hon : s.fget (hdr_STATE 0x11) i = 2)
    (hloaded : ((s.region i r).loads.any fun l => l.ser < hd.ser && cfgSlot l.word == cfgSlot hd.cfg) = false) {u : State}
    (hu : u = s.setRegion i r { s.region i r with hands := { hd with begun := true } :: hs }) :
    execDrainTileStart i r s = .next (if dcRound hd.cfg then
      (((u.fset64 drain_SR_SEED_LO drain_SR_SEED_HI i (s.drainSeed i r hd)).fset drain_SR_REGION i r).fset drain_SR_TILE i hd.tile).fset
        drain_SR_COUNT i hd.count
    else u) := by
  subst hu
  simp only [execDrainTileStart, hhands, hwaits, hon, hloaded, Bool.false_eq_true, ne_eq, not_true_eq_false, or_self, if_false,
    apply_ite Host.Outcome.next]

/-- A begun drain that is ready, with no marked entry to stop it, no Whisk and no injection armed, ends. -/
theorem execDrainTileComplete_of_ready (hready : s.drainReady i r hd (s.drainOf i r hd).out.length = true)
    (hmarks : dcNfFault hd.cfg = true → (s.drainOf i r hd).nfs.contains true = false) (hstall : s.injectLeft 0x14 i 1 = 0)
    (harmed : s.armed 0x14 i [3, 9] = none) (hcorrected : s.injectLeft 0x14 i 2 = 0)
    (hwhisk : s.drainWhisk (s.regionOwner i r) (i / 17) (s.fget (hdr_LOGICAL_INDEX 0x11) i) r = none) :
    execDrainTileComplete i r s = .next (s.endDrain i r hd) := by
  have hmarked : ¬ (dcNfFault hd.cfg = true ∧ (s.drainOf i r hd).nfs.contains true = true) :=
    fun k => Bool.false_ne_true ((hmarks k.1).symm.trans k.2)
  simp only [execDrainTileComplete, hhands, hready, hmarked, hstall, harmed, hcorrected, hwhisk, not_true_eq_false, ne_eq, or_self, if_false, if_true]

end

/-- The seed registers of a Drain hold a seed that is set, whatever else of the drain is shown with it (R212). -/
theorem State.drainSeed_shown (s : State) (i r tile count seed : Nat) :
    ((((s.fset64 drain_SR_SEED_LO drain_SR_SEED_HI i seed).fset drain_SR_REGION i r).fset drain_SR_TILE i tile).fset
      drain_SR_COUNT i count).fget64 drain_SR_SEED_LO drain_SR_SEED_HI i = seed % 2 ^ 64 := by
  have hkept (t : State) (f : Field) (v : Nat) (hcls : f.cls = 0x14) (hoff : f.off = 0x138) :
      (t.fset f i v).fget64 drain_SR_SEED_LO drain_SR_SEED_HI i = t.fget64 drain_SR_SEED_LO drain_SR_SEED_HI i :=
    State.fget64_fset_ne _ (Field.key_ne i hcls.symm (by simp only [drain_SR_SEED_LO, hoff]; omega))
      (Field.key_ne i hcls.symm (by simp only [drain_SR_SEED_HI, hoff]; omega)) v
  have hhalves : drain_SR_SEED_LO.key i ≠ drain_SR_SEED_HI.key i := Field.key_ne i rfl (by decide)
  rw [hkept _ drain_SR_COUNT _ rfl rfl, hkept _ drain_SR_TILE _ rfl rfl, hkept _ drain_SR_REGION _ rfl rfl]
  exact State.fget64_fset64_self s hhalves rfl rfl seed

/-- A drain that ends drops its hand-over and empties its share, and its GRIDDLE_MM completes (R176). -/
theorem State.endDrain_releases (s : State) (i r : Nat) (hd : Handover) : ∃ u : State,
    (u.region i r).hands = (s.region i r).hands.tail ∧
    (u.region i r).tiles = setAt (s.region i r).tiles hd.tile { st := 0, fp := false, entries := [] } ∧
    s.endDrain i r hd = u.descDone (s.regionOwner i r) hd.ser := by
  refine ⟨_, ?hands, ?tiles, rfl⟩ <;>
    rw [Frame.region (.cond .same (State.useInject_frame ..)) (by decide), Frame.region (State.countDrained_frame ..) (by decide),
      State.setRegion_freeCount_region_self] <;>
    rfl

/-! ### Errors of a Drain (R218) -/

/-- A corrected table error of a Drain that is fitted sets its bit. -/
theorem execDrainError_corrected {s : State} {i : Nat} (r pos : Nat) (whole : Bool) (hp : Sys2Proof.Machine.present s.variant 0x14 i = true) :
    execDrainError i r 2 pos whole s = .next (s.err 0x14 i [2] ((s.region i r).drainPlace r pos) (s.regionOwner i r)) :=
  (if_neg (not_not_intro hp)).trans (if_pos rfl)

/-- An uncorrectable table word or a residue of a Drain that is fitted is a fault of the Drain. -/
theorem execDrainError_uncorrected {s : State} {i kind : Nat} (r pos : Nat) (whole : Bool) (hp : Sys2Proof.Machine.present s.variant 0x14 i = true)
    (hkind : kind = 3 ∨ kind = 9) : execDrainError i r kind pos whole s = .next (s.drainFault i r kind pos whole) :=
  (if_neg (not_not_intro hp)).trans <| (if_neg (by omega)).trans (if_pos hkind)

/-- A fault of a Drain that one region can confine faults it, and the Drain page mirrors the move of its Griddle's. -/
theorem State.drainFault_confined (s : State) {i r kind pos : Nat} (hkind : kind = 3 ∨ kind = 9) {x : Region} (hx : x = s.region i r) {u : State}
    (hu : u = (s.err 0x14 i [kind, 11] (x.drainPlace r pos) (s.regionOwner i r)).blockEvent 0x14 i 0 (x.drainPlace r pos) false
      (s.regionOwner i r)) :
    s.drainFault i r kind pos false = (u.regionFault i r [] 13 0x42 x.drainIndex (x.drainPlace r pos) (s.injectLeft 0x14 i kind != 0)).mirrorFault
      s i kind := by
  subst hu hx
  have hcode : ¬ kind = 1 := by omega
  simp only [State.drainFault, hcode, Bool.false_eq_true, if_false, if_true, List.foldl_cons, List.foldl_nil]

/-! ### The Whisks (R244, R245) -/

/-- A WHISK that meets its checks and loads no table, and attaches the Whisk to no Drain, takes its settings and passes. -/
theorem execWhisk_of_checked {s : State} {c h i : Nat} {d : Desc} (hi : i = 4 * h + whUnit d.w) (hd : s.nextDesc c h 0x19 = .go d)
    (hfields : whFieldsOk d.w = true) (hidle : s.whiskBusy h (whUnit d.w) = false) (hload : whLoad d.w = false)
    (htables : (whSmooth d.w = true ∨ whSigns d.w = true) → (s.whisk i).loaded = true) (hon : s.fget (hdr_STATE 0x13) i = 2)
    (hattach : whAttach d.w ≠ 2) (hformat : whAttach d.w = 1 → isMx (whOutFmt d.w) = false)
    (hlength : whAttach d.w = 1 → whVlen d.w % rotLen (whRot d.w) = 0) (howner : s.fget (hdr_OWNER_CONTEXT 0x13) i = c) :
    execWhisk c h s = .next ((s.setWhisk i { s.whisk i with cfg := if whAttach d.w = 0 then none else some d.w }).pass d) := by
  subst hi
  have hneeds : ¬ ((whSmooth d.w = true ∨ whSigns d.w = true) ∧ ¬ (s.whisk (4 * h + whUnit d.w)).loaded = true) := fun k => k.2 (htables k.1)
  have houtput : (if whAttach d.w = 1 then isMx (whOutFmt d.w) else false) = false := by
    split
    case isTrue hmove => exact hformat hmove
    case isFalse => rfl
  have hblocks : ¬ (whAttach d.w = 1 ∧ whVlen d.w % rotLen (whRot d.w) ≠ 0) := fun k => k.2 (hlength k.1)
  refine (State.onDesc_of_go hd _).trans (congrArg _ ?_)
  simp only [hfields, hidle, hload, hneeds, hon, hattach, houtput, hblocks, howner, State.portBound_nil, Bool.or_false, not_true_eq_false, ne_eq,
    false_and, and_false, or_self, Bool.false_eq_true, if_false]

/-- A corrected table error of a Whisk that is fitted sets its bit. -/
theorem execWhiskCheckError_corrected {s : State} {i : Nat} (info : Nat) (hp : Sys2Proof.Machine.present s.variant 0x13 i = true) :
    execWhiskCheckError i 2 info s = .next (s.err 0x13 i [2] info (s.fget (hdr_OWNER_CONTEXT 0x13) i)) :=
  (if_neg (by simp [hp])).trans (if_pos rfl)

/-- A residue of a Whisk that is fitted sets its bit and faults the owner. -/
theorem execWhiskCheckError_residue {s : State} {i : Nat} (info : Nat) (hp : Sys2Proof.Machine.present s.variant 0x13 i = true) :
    execWhiskCheckError i 8 info s = .next ((s.err 0x13 i [8] info (s.fget (hdr_OWNER_CONTEXT 0x13) i)).faultCtx
      (s.fget (hdr_OWNER_CONTEXT 0x13) i) { code := 0x48, index := 0xFFFF, hob := i / 4, ucls := 0x13, uinst := i, info := info }) :=
  (if_neg (by simp [hp])).trans (if_neg (by decide))

/-- Settles O16: each command passes its guards, and its row's effect follows. -/
theorem drainAndWhiskCommandsComplete : Obligations.DrainAndWhiskCommandsComplete := by
  refine ⟨?config, ?tableLoad, ?start, ?complete, ?corrected, ?uncorrected, ?whisk, ?whiskError⟩
  case config =>
    intro c h i d r s hd hfields hgriddle hr hbarred hladle hsum hscale hact hchan hwhisk
    exact execDrainCfg_of_checked hd hfields hgriddle hbarred hladle hsum hscale hact hchan hwhisk hr
  case tableLoad =>
    intro i r x y l ls s hx hloads hfree htable hy
    subst hx
    exact execDrainTableLoadDone_of_free hloads hfree htable hy
  case start =>
    intro i r x hd hs s hx hhands hwaits hon hloaded
    subst hx
    have hstarts := execDrainTileStart_of_waiting hhands hwaits hon hloaded rfl
    cases hround : dcRound hd.cfg with
    | true => exact ⟨_, hstarts.trans (congrArg _ (if_pos hround)), by simp, fun _ => State.drainSeed_shown .., by simp⟩
    | false => exact ⟨_, hstarts.trans (congrArg _ (if_neg (by simp [hround]))), by simp, by simp, fun _ => rfl⟩
  case complete =>
    intro i r x hd hs s hx hhands hready hmarks hstall harmed hcorrected hwhisk htile htwo
    subst hx
    obtain ⟨u, hreleased, hemptied, hends⟩ := s.endDrain_releases i r hd
    refine ⟨u, ?hands, ?share, ?runs⟩
    case hands => exact hreleased.trans (congrArg List.tail hhands)
    case share => rw [hemptied, getD_setAt (htwo ▸ htile)]
    case runs => exact (execDrainTileComplete_of_ready hhands hready hmarks hstall harmed hcorrected hwhisk).trans (congrArg _ hends)
  case corrected =>
    intro i r pos whole s hp
    exact execDrainError_corrected r pos whole hp
  case uncorrected =>
    intro i r pos kind x u s hp hkind hx hu
    exact (execDrainError_uncorrected r pos false hp hkind).trans (congrArg _ (s.drainFault_confined hkind hx hu))
  case whisk =>
    intro c h d s hd hfields hidle hload htables hon hattach hformat hlength howner
    exact execWhisk_of_checked rfl hd hfields hidle hload htables hon hattach hformat hlength howner
  case whiskError =>
    intro i info s hp
    exact ⟨execWhiskCheckError_corrected info hp, execWhiskCheckError_residue info hp⟩

end Sys2Proof.Machine
end

section
/-!
What the commands of the Ladles and of the Shared Buffer do (R224 to R240, R262).
-/

namespace Sys2Proof.Machine

/-! ### Channels and window pages -/

@[simp] theorem State.setChan_chan_self (s : State) (ch : Nat) (q : Channel) : (s.setChan ch q).chan ch = q := by
  simp [State.setChan, State.chan]

@[simp] theorem State.setChan_mark (s : State) (ch t : Nat) (q : Channel) : (s.setChan ch q).mark t = s.mark t := rfl

@[simp] theorem State.setMark_mark_self (s : State) (t : Nat) (k : Mark) : (s.setMark t k).mark t = k := by
  simp [State.setMark, State.mark]

/-- A move that names no Whisk goes through none. -/
theorem State.moveWhiskUnit_of_noWhisk (s : State) {m : Move} (hwhisk : mvWhisk m.word = 0) : s.moveWhiskUnit m = none :=
  if_pos (.inr hwhisk)

/-! ### Issue and start (R224, R228, R237) -/

/-- A LADLE_MOVE that passes its checks, with its ports, its window pages and its channel free, is queued and issued. -/
theorem execLadleMove_of_checked {s : State} {c h a i : Nat} {d : Desc} {m : Move} (hd : s.nextDesc c h 0x18 = .go d)
    (hsource : s.tableSource d (mvSel d.w) (mvRecOff d.w) 128 = some a) (hi : i = 64 * h + mvChan d.w)
    (hm : m = { hob := h, index := d.i, ctx := c, ser := d.t.ser, word := d.w, record := s.sbRead h a 128, iters := (d.t.regs h).moveIters,
                base := (d.t.regs h).base, mrs := (d.t.regs h).mrs, out := [], due := d.due, job := none, sent := 0, rx := [], filled := [] })
    (hfields : moveFieldsOk d.w m.record = true) (hchecks : s.moveCheck d m = none) (hkind : rcSrcKind m.record ≠ 5)
    {ps : List Span} (hps : ps = m.spans (s.moveWhisk h d.w)) (hreads : s.portBound h false (sbGroups ps false) = false)
    (hwrites : s.portBound h true (sbGroups ps true) = false) {fills : List Nat} (hfills : fills = (ps.filter Span.write).flatMap s.windowsOf)
    (hwindows : fills.any s.fillPending = false) (hopen : s.fget (hdr_DRAIN 0x12) i ≠ 1) (hroom : (s.chan i).queue.length < 8)
    {u : State} (hu : u = ((s.fset ladle_WAIT_CAUSE i 0).bind d false (sbGroups ps false)).bind d true (sbGroups ps true)) :
    execLadleMove c h s = .next (((((u.markFill h fills).takeWriter c ps).issueShadow d m (s.moveWhisk h d.w)).setChan i
      { s.chan i with queue := (s.chan i).queue ++ [m] }).issue d (rcDstKind m.record) (s.batchOf c ps)) := by
  subst hi hm hu hfills hps
  have hfull : ¬ 8 ≤ (s.chan (64 * h + mvChan d.w)).queue.length := Nat.not_le.mpr hroom
  refine (State.onDesc_of_go hd _).trans (congrArg _ ?_)
  simp only [hsource, hfields, hchecks, hkind, hreads, hwrites, hwindows, hopen, hfull, not_true_eq_false, Bool.false_eq_true, or_self, if_false]

section
variable {s : State} {ch : Nat} {m : Move} {ms : List Move} (hqueue : (s.chan ch).queue = m :: ms) (hidle : (s.chan ch).run = none)
  (hon : s.fget (hdr_STATE 0x12) ch = 2) (hhalted : s.fget ladle_HALTED ch ≠ 1) (hwhisk : s.whiskHeld m = false)
  (hopen : s.moveDrained m = false) (hdue : s.fget glob_DET_MODE_EFFECTIVE 0 = 1 → m.due ≤ s.tick)
include hqueue hidle hon hhalted hwhisk hopen hdue

/-- The oldest output of a job, once its turn has come, starts on an idle channel with nothing in its way. -/
theorem execLadleMoveStart_of_job (hjob : m.job.isSome = true) (hturn : s.jobTurn m = true) :
    execLadleMoveStart ch s = .next (s.setChan ch { queue := ms, run := some m }) := by
  have hdued : ¬ (s.fget glob_DET_MODE_EFFECTIVE 0 = 1 ∧ s.tick < m.due) := fun k => (hdue k.1).not_gt k.2
  simp only [execLadleMoveStart, hqueue, hidle, hon, hhalted, hwhisk, hopen, hdued, hjob, hturn, ne_eq, not_true_eq_false, Bool.false_eq_true,
    or_self, if_false, if_true]

/-- The oldest queued move starts on an idle channel with nothing in its way; one to a port, whose source can be read, puts its stream there. -/
theorem execLadleMoveStart_of_move (hjob : m.job = none) (hkind : rcSrcKind m.record ≠ 6) (hunit : mvWhisk m.word = 0)
    (hsource : rcDstPort m.record = true → s.sourceOk m = true) {u : State}
    (hu : u = ((s.noteLate m).setChan ch { queue := ms, run := some m }).noteMove m) :
    execLadleMoveStart ch s = .next (if rcDstPort m.record then u.feedPort m else u) := by
  subst hu
  have hdued : ¬ (s.fget glob_DET_MODE_EFFECTIVE 0 = 1 ∧ s.tick < m.due) := fun k => (hdue k.1).not_gt k.2
  have hreadable : ¬ (rcDstPort m.record = true ∧ ¬ s.sourceOk m = true) := fun k => k.2 (hsource k.1)
  simp only [execLadleMoveStart, hqueue, hidle, hon, hhalted, hwhisk, hopen, hdued, hjob, hreadable, hkind, State.moveWhiskUnit_of_noWhisk _ hunit,
    ne_eq, not_true_eq_false, not_false_eq_true, true_and, Option.isSome_none, Bool.false_eq_true, or_self, if_false]

end

/-! ### Completion and halts of a running move (R230, R236, R240, R262) -/

/-- A move to memory whose source can be read, with room where it is staged, writes its records in walking order, makes the window pages of its spans
READY, begins the batch step that it requests, and leaves its channel (R230, R236, R262, R270). -/
theorem State.endMemoryMove_of_sourceOk {s : State} (ch : Nat) {m : Move} (hsource : s.sourceOk m = true)
    (hstream : rcSrcPort m.record = true → m.out ≠ [])
    (hroom : s.stagingRoom (rcDstKind m.record) ((m.records.zip (s.moveOut m).1).map fun p => (p.1.2.2, p.2.length)) = true) : ∃ u v w : State,
    u = s.dstWrite m.ctx m.hob (rcDstKind m.record) m.mrs
      (((m.records.zip (s.moveOut m).1).map fun p => (p.1.2.2, p.2)).flatMap (unfilled m.filled)) ∧
    v = (((m.spans (s.moveWhisk m.hob m.word)).filter Span.write).flatMap u.windowsOf).foldl
      (fun (t : State) (p : Nat) => t.setMark p { t.mark p with ready := true }) u ∧
    w = (if v.batchOf m.ctx (m.spans (s.moveWhisk m.hob m.word)) then v.beginBatch m.ctx else v) ∧
    s.endMemoryMove ch m = ((w.countSat m (s.moveOut m).2).countMove ch m ((s.moveOut m).1.map List.length).sum).endMove ch m := by
  refine ⟨_, _, _, rfl, rfl, rfl, ?_⟩
  have hready : ¬ (¬ s.sourceOk m = true ∨ (rcSrcPort m.record = true ∧ m.out.isEmpty = true)) := by simpa [hsource] using hstream
  have hstaged : ¬ ¬ s.stagingRoom (rcDstKind m.record)
      (((m.records.zip (s.moveOut m).1).map fun p => (p.1.2.2, p.2)).map fun w => (w.1, w.2.length)) = true := by
    simpa [Function.comp_def] using hroom
  exact (if_neg hready).trans (if_neg hstaged)

/-- The bytes of a running fill that lie in one window page are written (R262). -/
def State.fillPage (s : State) (m : Move) (page : Nat) : State :=
  s.dstWrite m.ctx m.hob 1 m.mrs ((m.records.zip (s.moveOut m).1).flatMap fun p => p.2.zipIdx.filterMap fun b =>
    if t1Of (p.1.2.2 + b.2) = page then some (p.1.2.2 + b.2, [b.1]) else none)

section
variable {s : State} {ch : Nat} {m : Move} (hrun : (s.chan ch).run = some m)
include hrun

/-- A running move to memory that may transfer, with no injection armed on its way, ends there. -/
theorem execLadleMoveComplete_of_memory (hgoes : s.moveGoes ch m = true) (hmedia : s.moveStopped ch m = none) {cs : List Nat}
    (hcs : cs = (if rcSrcKind m.record = 5 then ((s.moveIus m).map fun iu => s.packageOf (iuTier iu)).eraseDups else []))
    (harmed : s.colanderArmed cs false = none) (hclean : (s.colanderFlips cs m.ctx).moveInjected ch m = (s, false))
    (hport : rcDstPort m.record = false) : execLadleMoveComplete ch s = .next (s.endMemoryMove ch m) := by
  subst hcs
  simp only [execLadleMoveComplete, hrun, hgoes, hmedia, harmed, hclean, hport, not_true_eq_false, Bool.false_eq_true, if_false]

/-- The last byte of a window page that a running fill writes makes the page READY; the move notes that it is filled (R262). -/
theorem execWindowPageReady_of_fill {page : Nat} {hull : Nat × Nat} (hgoes : s.moveGoes ch m = true) (hmedia : s.moveStopped ch m = none)
    (hkind : rcDstKind m.record = 1) (hwindow : (s.mark page).window = true) (hnew : m.filled.contains page = false)
    (hsource : s.sourceOk m = true) (hstream : rcSrcPort m.record = true → m.out ≠ [])
    (hhull : hull = m.hull false (m.dstLen (s.moveWhisk m.hob m.word)))
    (hcovers : (pagesOfRange hull.1 (hull.2 + 1 - hull.1)).contains page = true) {u : State}
    (hu : u = (s.fillPage m page).setMark page { s.mark page with ready := true }) : execWindowPageReady ch page s =
    .next (u.setChan ch { u.chan ch with run := some { m with filled := page :: m.filled } }) := by
  subst hhull hu
  have hready : ¬ (rcSrcPort m.record = true ∧ m.out.isEmpty = true) := by simpa using hstream
  simp only [execWindowPageReady, hrun, hgoes, hmedia, hkind, hwindow, hnew, hsource, hready, hcovers, ne_eq, not_true_eq_false,
    Bool.false_eq_true, or_self, if_false]
  rfl

section
variable (hjob : m.job = none) (hhalted : s.fget ladle_HALTED ch ≠ 1) (addr : Nat)
include hjob hhalted

/-- An uncorrectable error at a source outside the Shared Buffer halts the channel, with the error bits of its kind of source. -/
theorem execLadleHalt_of_source (hkind : rcSrcKind m.record < 7) (hother : rcSrcKind m.record ≠ 0) : execLadleHalt ch addr false s =
    .next (s.haltChan ch addr (rcSrcKind m.record) (sourceCode (rcSrcKind m.record)) [9, 10] m) := by
  have hmemory : ¬ (rcSrcKind m.record = 7 ∨ rcSrcKind m.record = 8) := by omega
  simp only [execLadleHalt, hrun, hjob, hhalted, hmemory, hother, Option.isSome_none, Bool.false_eq_true, or_self, if_false]

/-- An uncorrectable error of the Shared Buffer that a move reads halts its channel. -/
theorem execLadleHalt_of_sharedBuffer (hkind : rcSrcKind m.record = 0) :
    execLadleHalt ch addr false s = .next (s.haltChan ch addr 0 0x22 [9] m) := by
  simp only [execLadleHalt, hrun, hjob, hhalted, hkind, Option.isSome_none, Bool.false_eq_true, OfNat.zero_ne_ofNat, or_self, if_false, if_true]

/-- An injected error of the staging buffer halts the channel, and is no evidence against it (R72). -/
theorem execLadleHalt_of_injectedStaging (hinjected : s.injectLeft 0x12 ch 3 ≠ 0) :
    execLadleHalt ch addr true s = .next (s.haltChan ch addr (rcSrcKind m.record) 0x22 [3, 9] m) := by
  simp only [execLadleHalt, hrun, hjob, hhalted, hinjected, Option.isSome_none, Bool.false_eq_true, or_self, ne_eq, not_false_eq_true, if_false,
    if_true]

end

end

/-! ### Errors of the Shared Buffer (R239) -/

section
variable (s : State) {h a : Nat} (hin : h < 2 ∧ a < 0x0C000000)
include hin

/-- A corrected error at an address of a Shared Buffer is recorded. -/
theorem execSbReadError_corrected (user ch : Nat) : execSbReadError h a false user ch s = .next (s.sbCorrect h a) :=
  (if_neg (by omega)).trans (if_pos (by decide))

/-- An uncorrectable error that no channel and no fetch met is remapped. -/
theorem execSbReadError_unmet (ch : Nat) : execSbReadError h a true 2 ch s = .next (s.sbFail h a [3]) :=
  (if_neg (by omega)).trans rfl

end

/-- Settles O17: each command passes its guards, and its row's effect follows. -/
theorem ladleAndSharedBufferCommandsComplete : Obligations.LadleAndSharedBufferCommandsComplete := by
  refine ⟨?move, ?start, ?complete, ?windowPage, ?halt, ?readError⟩
  case move =>
    intro c h a i d m s hd hsource hi hm hfields hchecks hkind hreads hwrites hwindows hopen hroom
    exact ⟨_, _, rfl, rfl,
      execLadleMove_of_checked hd hsource hi hm hfields hchecks hkind rfl hreads hwrites rfl hwindows hopen hroom rfl⟩
  case start =>
    intro ch m ms s hqueue hidle hon hhalted hwhisk hopen hdue
    refine ⟨?job, ?memory, ?port⟩
    case job =>
      intro hjob hturn
      exact execLadleMoveStart_of_job hqueue hidle hon hhalted hwhisk hopen hdue hjob hturn
    case memory =>
      intro hjob hport hkind hunit
      exact (execLadleMoveStart_of_move hqueue hidle hon hhalted hwhisk hopen hdue hjob hkind hunit (by simp [hport]) rfl).trans
        (congrArg _ (if_neg (by simp [hport])))
    case port =>
      intro hjob hport hkind hunit hsource
      exact (execLadleMoveStart_of_move hqueue hidle hon hhalted hwhisk hopen hdue hjob hkind hunit (fun _ => hsource) rfl).trans
        (congrArg _ (if_pos hport))
  case complete =>
    intro ch m cs s hrun hgoes hmedia hcs harmed hclean hport hsource hstream hroom
    obtain ⟨u, v, w, hu, hv, hw, hends⟩ := State.endMemoryMove_of_sourceOk ch hsource hstream hroom
    exact ⟨u, v, w, hu, hv, hw,
      (execLadleMoveComplete_of_memory hrun hgoes hmedia hcs harmed hclean hport).trans (congrArg _ hends)⟩
  case windowPage =>
    intro ch page m s hrun hgoes hmedia hkind hwindow hnew hsource hstream hcovers
    exact ⟨_, execWindowPageReady_of_fill hrun hgoes hmedia hkind hwindow hnew hsource hstream rfl hcovers rfl, by simp, by simp⟩
  case halt =>
    intro ch addr m s hrun hjob hhalted
    exact ⟨execLadleHalt_of_source hrun hjob hhalted addr, execLadleHalt_of_sharedBuffer hrun hjob hhalted addr,
      execLadleHalt_of_injectedStaging hrun hjob hhalted addr⟩
  case readError =>
    intro h a user ch s hh ha
    exact ⟨execSbReadError_corrected s ⟨hh, ha⟩ user ch, execSbReadError_unmet s ⟨hh, ha⟩ ch⟩

end Sys2Proof.Machine
end

section
/-!
What the passes of the Scourer do (R239, R254, R383, R415, R429, R445, R472 to R474).
-/

namespace Sys2Proof.Machine

/-! ### Patrol and scan of the flash (R415, R445) -/

section
variable {s u : State} (hscours : s.scours false = true)
include hscours

/-- A patrol read of a wordline that is written, on a die that can be read, with no codeword weak, counts three reads of its block. -/
theorem execNandPatrol_of_written {c d k b wl key : Nat} (offs : Nat) (hkey : key = blockKey c d k b) (hplace : d < 16 ∧ k < 6 ∧ b < 2208)
    (hused : (s.block key).st ≠ 0) (hgood : (s.block key).st ≠ 4) (hwritten : 3 * wl + 3 ≤ (s.block key).next)
    (hdie : s.dieRetired c d = false) (hread : s.ownRead (key * 2048 + 3 * wl) = some u) : execNandPatrol c d k b wl false offs s =
    .next (((List.range 3).foldl (fun (t : State) _ => (t.countOwn c).countRead key) u).visit 0 key (7 * 24)) := by
  subst hkey
  obtain ⟨hd, hk, hb⟩ := hplace
  simp only [execNandPatrol, hscours, hd.not_ge, hk.not_ge, hb.not_ge, hused, hgood, hwritten.not_gt, hdie, hread,
    not_true_eq_false, Bool.false_eq_true, or_self, if_false]

/-- A media scan of an IU whose page decodes without the ladder clears its suspicion. -/
theorem execMediaScan_of_decoded {iu l : Nat} (hmapped : (s.mapEntry iu).st = 1 ∨ (s.mapEntry iu).st = 2) (hloc : (s.mapEntry iu).loc = l)
    (hread : s.ownRead l = some u) (hdecodes : s.ladderStep l 0 = 0) : execMediaScan iu 0 s =
    .next ((((u.countOwn (locCol l)).countRead (l / 2048)).visit 1 iu (90 * 24)).suspect l false) := by
  subst hloc
  have hscanned : ¬ (¬ s.scours false = true ∨ ((s.mapEntry iu).st ≠ 1 ∧ (s.mapEntry iu).st ≠ 2)) := by
    simp only [hscours, not_true_eq_false, false_or]
    omega
  refine (if_neg hscanned).trans ?_
  simp [hread, hdecodes]

end

/-! ### Scrubs (R239, R254, R429) -/

section
variable {s : State} (hscours : s.scours true = true)
include hscours

/-- A scrub of an HBM page in service, clean or corrected: the visit is noted, and a corrected sector that is not injected counts against its row. -/
theorem execHbmScrub_of_read {t a : Nat} (hpage : t < 8 * 24576) (hstack : s.stackRetired (t / 24576) = false)
    (hkept : s.tiers.retired.contains t = false) (ha : a < tierBytes) : execHbmScrub t a 0 s = .next (s.visit 3 t 24) ∧
    (s.injectLeft 0x16 (t / 24576) 2 = 0 → execHbmScrub t a 1 s =
      .next (((s.visit 3 t 24).err 0x16 (t / 24576) [2] (hbmInfo (t % 24576 * tierBytes + a))).rowCorrected t)) := by
  have hserved : ¬ (¬ s.scours true = true ∨ 8 ≤ t / 24576 ∨ s.stackRetired (t / 24576) = true ∨ s.tiers.retired.contains t = true ∨
      tierBytes ≤ a) := by
    simp only [hscours, hstack, hkept, ha.not_ge, not_true_eq_false, Bool.false_eq_true, false_or, or_false]
    omega
  exact ⟨(if_neg hserved).trans (if_pos rfl),
    fun hreal => (if_neg hserved).trans ((if_neg (by decide)).trans ((if_pos rfl).trans (congrArg _ (if_pos hreal))))⟩

/-- A scrub of a Shared Buffer group that nothing holds remaps the lines that wait, and records the error of a word that it finds. -/
theorem execSramScrub_of_free {i g a : Nat} (outcome : Nat) (hi : i < 2) (hg : g < 48) (howner : s.fget (sb_GROUP_OWNER g) i = 0xFF)
    (hprogram : s.groupProgram i g = false) (hkept : s.groupRetired i g = false) (ha : a < 2 ^ 22) {u : State}
    (hu : u = (s.visit 4 (64 * i + g) 24).sbRemapDue i g) : execSramScrub false i g a outcome s =
    .next (if outcome = 0 then u else if outcome = 1 then u.sbCorrect i (g * 2 ^ 22 + a) else u.sbFail i (g * 2 ^ 22 + a) [3]) := by
  subst hu
  have hserved : ¬ (2 ≤ i ∨ 48 ≤ g ∨ s.fget (sb_GROUP_OWNER g) i ≠ 0xFF ∨ s.groupProgram i g = true ∨ s.groupRetired i g = true ∨
      2 ^ 22 ≤ a) := by
    simp only [howner, hprogram, hkept, ne_eq, not_true_eq_false, Bool.false_eq_true, false_or]
    omega
  exact (if_neg (not_not_intro hscours)).trans ((if_neg Bool.false_ne_true).trans (if_neg hserved))

/-- A scrub of a segment of the map's array notes the visit, and shows a corrected word. -/
theorem execLpddr5xScrub_of_segment {seg : Nat} (hseg : seg < mapSegments s.variant) :
    execLpddr5xScrub seg 0 s = .next (s.visit 5 seg 24) ∧
    execLpddr5xScrub seg 1 s = .next ((s.visit 5 seg 24).err 0x22 0 [2] (64 * seg)) := by
  have hserved : ¬ (¬ s.scours true = true ∨ mapSegments s.variant ≤ seg) := not_or.mpr ⟨not_not_intro hscours, hseg.not_ge⟩
  exact ⟨(if_neg hserved).trans (congrArg _ (if_pos rfl)),
    (if_neg hserved).trans (congrArg _ ((if_neg Nat.one_ne_zero).trans (if_pos rfl)))⟩

/-! ### Checks of spares (R473) -/

/-- A spare Griddle out of service that passes its check is noted, and shows the result. -/
theorem execSpareGriddleCheck_of_passed {h i : Nat} (hi : i = 17 * h + 16) (hh : h < 2) (hout : s.fget (hdr_IN_SERVICE 0x11) i ≠ 1)
    (hoff : s.fget (hdr_STATE 0x11) i = 0) : execSpareGriddleCheck h true s = .next ((s.visit 6 h 24).showCheck i 0 true false 0x1FF) := by
  subst hi
  have htaken : ¬ (¬ s.scours true = true ∨ 2 ≤ h ∨ s.fget (hdr_IN_SERVICE 0x11) (17 * h + 16) = 1 ∨
      s.fget (hdr_STATE 0x11) (17 * h + 16) ≠ 0) := by
    simp only [hscours, hh.not_ge, hout, hoff, ne_eq, not_true_eq_false, or_self, not_false_eq_true]
  exact (if_neg htaken).trans (congrArg _ (if_pos rfl))

/-- The idle spare lane of a link is trained: one that passes is noted, and one that fails is retired. -/
theorem execSpareLaneCheck_of_idle {k sp : Nat} (hidle : (s.link k).idle = some sp) (hfitted : colanderFitted s.variant k = true) :
    execSpareLaneCheck k true s = .next (s.visit 7 k 24) ∧
    execSpareLaneCheck k false s = .next ((((s.visit 7 k 24).setLink k { s.link k with lanes := setAt (s.link k).lanes sp 4 }).recordRetirement
      0x20 (k / 32) (3 * (k % 32) + sp)).err 0x20 (k / 32) [12] (hubInfo k sp)) := by
  constructor <;>
    simp only [execSpareLaneCheck, hidle, hscours, hfitted, not_true_eq_false, Bool.false_eq_true, or_self, if_false, if_true]

end

/-! ### Edge repair (R383, R385, R474) -/

section
variable {s : State} {fn id u : Nat} {k : Collection} {m : Domain} (hcoll : sget? s.near.collections (65536 * fn + id) = some k)
  (hdom : sget? s.ftl.domains (clDomain k.bytes) = some m) (hscours : s.scours false = true) (hmode : s.fget glob_MEDIA_MODE 0 = 0)
  (hvalid : k.valid = true) (hlive : m.live = true) (hrepair : m.repair = true) (hcol : m.neighCol < clColumns k.bytes)
  (hnext : s.repairNext k.bytes m = some u) (hfree : s.slotsFree 1 = true)
include hcoll hdom hscours hmode hvalid hlive hrepair hcol hnext hfree

/-- The pass goes on past a record whose unit holds a context's pending version, or whose page cannot be read. -/
theorem execEdgeRepairPass_of_barred
    (hbarred : (∃ x, s.pendingOf (recPlace k.bytes m.neighCol u).1 = some x ∧ x.repair = false) ∨
      s.iuFails (recPlace k.bytes m.neighCol u).1 = true) :
    execEdgeRepairPass fn id u s = .next (s.repaired (clDomain k.bytes) m u) := by
  have hpasses : (s.pendingOf (recPlace k.bytes m.neighCol u).1).any (fun v => !v.repair) = true ∨
      s.iuFails (recPlace k.bytes m.neighCol u).1 = true := by
    simpa [Option.any_eq_true] using hbarred
  simp only [execEdgeRepairPass, hcoll, hdom, hscours, hmode, hvalid, hlive, hrepair, hcol.not_ge, hnext, hfree, hpasses, ne_eq, not_true_eq_false,
    or_self, if_false, if_true]

/-- The pass visits the next record, and writes its neighbour list where the repaired list differs from it. -/
theorem execEdgeRepairPass_of_open (hmine : ∀ x, s.pendingOf (recPlace k.bytes m.neighCol u).1 = some x → x.repair = true)
    (hreads : s.iuFails (recPlace k.bytes m.neighCol u).1 = false) {old new : List Nat}
    (hold : old = neighbours ((s.recValue k.bytes m.epoch m.neighCol u).getD [])) (hnew : new = s.repairList k.bytes m.epoch m.neighCol u old)
    {v : State} (hv : v = s.repairVisit (clDomain k.bytes) k.bytes m u) :
    execEdgeRepairPass fn id u s = .next (if new = old then v
      else v.writeList (clDomain k.bytes) k.bytes m u (s.pendingOf (recPlace k.bytes m.neighCol u).1) new) := by
  subst hv hnew hold
  have hopen : ¬ ((s.pendingOf (recPlace k.bytes m.neighCol u).1).any (fun v => !v.repair) = true ∨
      s.iuFails (recPlace k.bytes m.neighCol u).1 = true) := by
    simpa [Option.any_eq_true, hreads] using hmine
  simp only [execEdgeRepairPass, hcoll, hdom, hscours, hmode, hvalid, hlive, hrepair, hcol.not_ge, hnext, hfree, hopen, ne_eq, not_true_eq_false,
    or_self, if_false]

end

/-- Settles O26: each pass meets its guards, and its row's effect follows. -/
theorem scourerPassesComplete : Obligations.ScourerPassesComplete := by
  refine ⟨?patrol, ?scan, ?hbm, ?sram, ?lpddr, ?griddle, ?lane, ?edges⟩
  case patrol =>
    intro c d k b wl offs s u hscours hd hk hb hused hgood hwritten hdie hread
    exact execNandPatrol_of_written hscours offs rfl ⟨hd, hk, hb⟩ hused hgood hwritten hdie hread
  case scan =>
    intro iu l s u hscours hmapped hloc hread hdecodes
    exact execMediaScan_of_decoded hscours hmapped hloc hread hdecodes
  case hbm =>
    intro t a s hscours hpage hstack hkept ha
    exact execHbmScrub_of_read hscours hpage hstack hkept ha
  case sram =>
    intro i g a s hscours hi hg howner hprogram hkept ha
    have hscrubs (outcome : Nat) := execSramScrub_of_free hscours outcome hi hg howner hprogram hkept ha rfl
    exact ⟨(hscrubs 0).trans (congrArg _ (if_pos rfl)), (hscrubs 1).trans (congrArg _ ((if_neg Nat.one_ne_zero).trans (if_pos rfl)))⟩
  case lpddr =>
    intro seg s hscours hseg
    exact execLpddr5xScrub_of_segment hscours hseg
  case griddle =>
    intro h i s hi hscours hh hout hoff
    exact execSpareGriddleCheck_of_passed hscours hi hh hout hoff
  case lane =>
    intro k sp s hidle hscours hfitted
    exact execSpareLaneCheck_of_idle hscours hidle hfitted
  case edges =>
    intro fn id u k m old new s hcoll hdom hscours hmode hvalid hlive hrepair hcol hnext hfree hold hnew
    refine ⟨_, rfl, ?barred, ?visited⟩
    case barred =>
      exact execEdgeRepairPass_of_barred hcoll hdom hscours hmode hvalid hlive hrepair hcol hnext hfree
    case visited =>
      intro hmine hreads
      have hpass := execEdgeRepairPass_of_open hcoll hdom hscours hmode hvalid hlive hrepair hcol hnext hfree hmine hreads hold hnew rfl
      exact ⟨fun hsame => hpass.trans (congrArg _ (if_pos hsame)), fun hdiffers => hpass.trans (congrArg _ (if_neg hdiffers))⟩

end Sys2Proof.Machine
end

section
/-!
The obligation on the frames of HBM, placement, the PUUs, near-flash work and vector search (R254 to R258, R321 to R328, R348, R371 to R387).
-/

namespace Sys2Proof.Machine

/-- Settles O57: one frame lemma for each row of the family. -/
theorem tierUpdateAndSearchFrames : Obligations.TierUpdateAndSearchFrames :=
  ⟨execHbmReadError_runs, execHbmRowRepair_runs, execHbmPseudoChannelRetire_runs, execHeatDecay_runs, execPlacementPeriod_runs,
   execPlacementCopyComplete_runs, execWindowPageReady_runs, execPuuStep_runs, execPuuStepComplete_runs, execPuuStepFault_runs,
   execPuuSelfTestGo_runs, execPuuSelfTestDone_runs, execFilterLoad_runs, execFilterCount_runs, execFilterBitmap_runs, execFilterGather_runs,
   execSkimScanLoadTables_runs, execSkimScanScan_runs, execColanderDescriptorComplete_runs, execColanderRunFault_runs,
   execSkimMergeTables_runs, execSkimMergeMerge_runs, execSkimMergeExpand_runs, execSkimMergeRerank_runs, execSkimMergeRescan_runs,
   execSkimMergeFetch_runs, execSkimMergeComplete_runs, execEpochAdvance_runs⟩

end Sys2Proof.Machine
end

section
/-!
The demotion of a placement copy at the end of a placement period (R252, R258): it counts in DROPS, so a period can change a register.
-/

namespace Sys2Proof.Machine

/-- A stack has no free page where every usable page of it has a user. -/
theorem State.freePages_eq_nil {s : State} {k : Nat}
    (h : ∀ t, t / 24576 = k → s.poolUsable t = true → t ∈ s.slmPages ++ s.ctxPages ++ s.copyPages) : s.freePages k = [] := by
  simp only [State.freePages, List.filter_eq_nil_iff, List.mem_map, List.mem_range]
  rintro _ ⟨g, hg, rfl⟩ hfree
  obtain ⟨husable, hunused⟩ := Bool.and_eq_true_iff.mp hfree
  have hstack : (24576 * k + g) / 24576 = k := by omega
  have hused : 24576 * k + g ∈ (s.slmPages ++ s.ctxPages ++ s.copyPages).filter fun t => t / 24576 == k :=
    List.mem_filter.mpr ⟨h _ hstack husable, beq_iff_eq.mpr hstack⟩
  rw [List.contains_iff_mem.mpr hused] at hunused
  cases hunused

/-- A finished copy that is dropped counts in DROPS (R261). -/
theorem State.dropCopy_fget64_drops {s : State} {tk : Nat} {c : PlacedCopy} (hcopy : sget? s.tiers.copies tk = some c) (hdone : c.done = true) :
    (s.dropCopy tk).fget64 glob_DROPS_LO glob_DROPS_HI 0 = (s.fget64 glob_DROPS_LO glob_DROPS_HI 0 + 1) % 2 ^ 64 := by
  simp only [State.dropCopy, hcopy, hdone, if_true]
  exact State.fget64_fset64_self s (by decide) rfl rfl _

@[simp] theorem State.beginCopy_fget64 (s : State) (tk t : Nat) (lo hi : Field) (i : Nat) :
    (s.beginCopy tk t).fget64 lo hi i = s.fget64 lo hi i := rfl

/-- Nothing is dropped where no tier page meets the condition. -/
theorem State.dropCopies_of_none (s : State) {p : Nat → Bool} (h : ∀ tk, p tk = false) : s.dropCopies p = s := by
  have hnone : (s.tiers.copies.map Prod.fst).filter p = [] := List.filter_eq_nil_iff.mpr fun tk _ => by simp [h]
  rw [State.dropCopies, hnone, List.foldl_nil]

/-- A candidate for a stack without a free page takes the page of the coldest copy there, where it is hotter than that copy (R258). -/
theorem State.promote_of_hotter {s : State} {p c : Nat × Nat} {cs : List (Nat × Nat)} {k : Nat} (hhint : sget s.tiers.hint p.1 0 = k + 1)
    (hfull : s.freePages k = []) (hcold : ((s.copiesByHeat k).filter fun c => s.poolUsable c.2) = c :: cs)
    (hhotter : sget s.tiers.heat1 c.2 0 < p.2) : s.promote p = (true, (s.dropCopy c.1).beginCopy p.1 c.2) := by
  unfold State.promote
  extract_lets hint stack
  have hstack : stack = k := by simp [stack, hint, hhint]
  clear_value stack
  subst hstack
  rw [hfull, hcold]
  exact if_neg hhotter.not_ge

theorem promoteAll_singleton {p : Nat × Nat} {left : Nat} (s : State) (hleft : left ≠ 0) : promoteAll [p] left s = (s.promote p).2 :=
  if_neg hleft

/-- The state as the placement policy of R258 meets it when a period has ended with no copy unfinished. -/
def State.nextPeriod (s : State) : State :=
  { s with tiers := { s.tiers with placeTick := s.tick, period := s.tiers.period + 1 } }

@[simp] theorem State.nextPeriod_fget64 (s : State) (lo hi : Field) (i : Nat) : s.nextPeriod.fget64 lo hi i = s.fget64 lo hi i := rfl

/-- A placement period that leaves no copy unfinished runs the policy over the candidates. -/
theorem execPlacementPeriod_of_finished {s : State} (hplanes : s.planesOn = true) (hdue : s.tiers.placeTick + ticksMs 100 ≤ s.tick)
    (hfinished : ∀ tk c, sget? s.tiers.copies tk = some c → c.done = true) (hplacing : s.placing = true)
    (henabled : s.fget glob_PLACE_ENABLE 0 = 1) :
    execPlacementPeriod s = .next (promoteAll s.candidates (s.fget glob_PROMOTE_MAX 0) s.nextPeriod) := by
  have hbegun : ¬ (¬ s.planesOn = true ∨ s.tick < s.tiers.placeTick + ticksMs 100) := by
    simp [hplanes, hdue]
  unfold execPlacementPeriod
  rw [if_neg hbegun]
  extract_lets +onlyGivenNames old s0
  have hold (tk : Nat) : old tk = false := by
    unfold old
    split
    next c hcopy => simp [hfinished tk c hcopy]
    next => rfl
  have hs0 : s0 = s := (if_pos hplacing).trans (s.dropCopies_of_none hold)
  simp only [hs0]
  exact congrArg _ (if_pos ⟨hplacing, henabled⟩)

/-- A period is over. An SLM namespace and one finished copy, of tier page 0 of NVM namespace 2, fill the pool of stack 0, and tier page 1 of that
namespace, last read through stack 0, is hot enough to be promoted. -/
def demoting : State :=
  let s := State.reset.fset (hdr_STATE 0) 0 2
  { s with
    tick := ticksMs 100
    power := { s.power with controlUp := true, perst := false }
    host := { s.host with
      namespaces := [(2, { kind := .nvm, units := 4, lbaf := 0, pset := 1, attached := [0], pages := [], rdLocked := false, wrLocked := false }),
        (3, { kind := .slm, units := 24511, lbaf := 0, pset := 0, attached := [0], pages := (List.range 24511).map (65 + ·), rdLocked := false,
              wrLocked := false })] }
    tiers := { s.tiers with
      copies := [(tierKey 2 0, { t1 := 64, done := true, period := 0 })]
      heat2 := [(tierKey 2 1, 9)]
      hint := [(tierKey 2 1, 1)] } }

theorem demoting_finished (tk : Nat) (c : PlacedCopy) (hcopy : sget? demoting.tiers.copies tk = some c) : c.done = true := by
  have hone : (if tierKey 2 0 = tk then some { t1 := 64, done := true, period := 0 } else none) = some c := hcopy
  split at hone
  · exact Option.some.inj hone ▸ rfl
  · cases hone

/-- The copy takes page 64 of stack 0, and the SLM namespace each page above it. -/
theorem demoting_freePages : demoting.nextPeriod.freePages 0 = [] := by
  refine State.freePages_eq_nil fun t hstack husable => ?_
  simp only [State.poolUsable, Bool.and_eq_true, decide_eq_true_eq] at husable
  obtain ⟨⟨⟨⟨hpool, -⟩, -⟩, -⟩, -⟩ := husable
  have husers : demoting.nextPeriod.slmPages ++ demoting.nextPeriod.ctxPages ++ demoting.nextPeriod.copyPages =
      (List.range 24511).map (65 + ·) ++ [64] := by
    simp [State.slmPages, State.ctxPages, State.copyPages, State.nextPeriod, demoting, State.reset]
  rw [husers]
  rcases Nat.eq_or_lt_of_le hpool with hfirst | habove
  · exact List.mem_append_right _ (List.mem_singleton.mpr (by omega))
  · exact List.mem_append_left _ (List.mem_map.mpr ⟨t - 65, List.mem_range.mpr (by omega), by omega⟩)

theorem demoting_candidates : demoting.candidates = [(tierKey 2 1, 9)] :=
  List.mergeSort_singleton _

theorem demoting_copiesByHeat :
    ((demoting.nextPeriod.copiesByHeat 0).filter fun c => demoting.nextPeriod.poolUsable c.2) = [(tierKey 2 0, 64)] := by
  have hsorted : demoting.nextPeriod.copiesByHeat 0 = [(tierKey 2 0, 64)] := List.mergeSort_singleton _
  rw [hsorted]
  decide

/-- The period of `demoting` drops the copy and begins one of the hotter page in its place. -/
theorem execPlacementPeriod_demoting :
    execPlacementPeriod demoting = .next ((demoting.nextPeriod.dropCopy (tierKey 2 0)).beginCopy (tierKey 2 1) 64) := by
  rw [execPlacementPeriod_of_finished (by decide) (by decide) demoting_finished (by decide) (by decide), demoting_candidates]
  refine congrArg _ ?_
  exact (promoteAll_singleton _ (by decide)).trans (congrArg _
    (State.promote_of_hotter (by decide) demoting_freePages demoting_copiesByHeat (by decide)))

/-- Refutes O21: the clause of the placement period says that no register changes, and the demotion that makes room for a promotion on a full
stack counts in DROPS (R258). -/
theorem not_tierAndBatchCommandsComplete : ¬ Obligations.TierAndBatchCommandsComplete := by
  rintro ⟨-, -, -, -, hperiod, -, -⟩
  obtain ⟨t, hexec, -, -, hregs⟩ := hperiod demoting (by decide) (by decide)
  have ht : (demoting.nextPeriod.dropCopy (tierKey 2 0)).beginCopy (tierKey 2 1) 64 = t := by
    injection execPlacementPeriod_demoting.symm.trans hexec
  have hcounted : (demoting.nextPeriod.dropCopy (tierKey 2 0)).fget64 glob_DROPS_LO glob_DROPS_HI 0 =
      (demoting.nextPeriod.fget64 glob_DROPS_LO glob_DROPS_HI 0 + 1) % 2 ^ 64 :=
    State.dropCopy_fget64_drops (c := { t1 := 64, done := true, period := 0 }) (by decide) rfl
  have hsame : t.fget64 glob_DROPS_LO glob_DROPS_HI 0 = demoting.fget64 glob_DROPS_LO glob_DROPS_HI 0 := by
    simp only [State.fget64, State.fget, hregs]
  have hbefore : demoting.fget64 glob_DROPS_LO glob_DROPS_HI 0 = 0 := by decide
  rw [← State.beginCopy_fget64 _ (tierKey 2 1) 64, ht, hsame, State.nextPeriod_fget64, hbefore] at hcounted
  omega

end Sys2Proof.Machine
end

section
/-!
The obligations on the frames of firmware, of the flash command path and translation, of reliability and management, and of time and fabric
(R397 to R447, R463 to R525, R532 to R553).
-/

namespace Sys2Proof.Machine

/-- Settles O54: one frame lemma for each row of the family. -/
theorem firmwareFrames : Obligations.FirmwareFrames :=
  ⟨execFirmwareImageDownload_runs, execFirmwareCommitWrite_runs, execFirmwareCommitWriteActivate_runs, execFirmwareCommitActivate_runs,
   execKeyPackageCommit_runs, execMctpSetEndpointId_runs, execNvmeMiRequest_runs, execPldmPlatformRequest_runs, execPldmRequestUpdate_runs,
   execPldmUpdateComponent_runs, execPldmFirmwareData_runs, execPldmActivateFirmware_runs, execPldmCancelUpdate_runs⟩

/-- Settles O58: one frame lemma for each row of the family. -/
theorem flashAndTranslationFrames : Obligations.FlashAndTranslationFrames :=
  ⟨execFlashProgram_runs, execFlashProgramFail_runs, execFlashErase_runs, execFlashRead_runs, execFlashKeyLoad_runs, execProgramEraseResume_runs,
   execDieTimeout_runs, execZqCalibration_runs, execThresholdTemperatureUpdate_runs, execOnfiChannelStepDown_runs, execDieRetire_runs,
   execDieRelocationComplete_runs, execPackageRetire_runs, execPackageEvacuationComplete_runs, execStagingSlotCommit_runs, execJournalFlush_runs,
   execJournalForcedFlush_runs, execMapEccReload_runs, execGcCopyCommit_runs, execGcStart_runs, execGcStop_runs, execRetentionRefresh_runs,
   execPackageShed_runs, execSuspectIuRelocate_runs⟩

/-- Settles O59: one frame lemma for each row of the family. -/
theorem reliabilityAndManagementFrames : Obligations.ReliabilityAndManagementFrames :=
  ⟨execPantryLaneReplay_runs, execPantryLaneSpare_runs, execPantryLinkDegrade_runs, execColanderSelfCheck_runs, execHobLinkFault_runs,
   execHobLinkLaneRepair_runs, execUnitRetirement_runs, execNandPatrol_runs, execMediaScan_runs, execHbmScrub_runs, execSramScrub_runs,
   execLpddr5xScrub_runs, execSpareGriddleCheck_runs, execSpareLaneCheck_runs, execEdgeRepairPass_runs, execSensorSample_runs,
   execRailMonitorRecalibrate_runs, execThermalTripClear_runs, execPowerCapWrite_runs, execPowerCapWindow_runs, execRecorderEntryAccept_runs,
   execRecorderFreeze_runs, execHostFreeze_runs, execUnfreeze_runs, execRecordPersist_runs, execPantryLaneLossOfLock_runs, execEflashRead_runs,
   execEflashProgram_runs, execEflashErase_runs, execEflashBlankCheck_runs, execConfigStoreCompaction_runs⟩

/-- Settles O60: one frame lemma for each row of the family. -/
theorem timeAndFabricFrames : Obligations.TimeAndFabricFrames :=
  ⟨execPtpSyncReceived_runs, execPtpAnnounceReceived_runs, execPtpDelayResponse_runs, execPtpPdelayRequest_runs, execPtpSourceLoss_runs,
   execPtpPreferredReturn_runs, execPtmDialog_runs, execPpsOutEdge_runs, execPpsInEdge_runs, execPpsInMissing_runs, execEthernetLinkDown_runs,
   execEthernetLinkUp_runs, execEthernetFrameDiscard_runs, execSniloReadReq_runs, execSniloReadRsp_runs, execSniloNak_runs,
   execSniloRetransmit_runs, execSniloRemoteTimeout_runs, execSniloCreditsEnd_runs, execLoadPeers_runs, execLoadExports_runs,
   execClearExports_runs, execSledIdWrite_runs, execPtpDelayRequestSend_runs, execArpNeighborDiscovery_runs, execPfcFrame_runs⟩

end Sys2Proof.Machine
end

section
/-!
What one step does: the command at the front of the queue, which always answers, or the passing of a tick (R50).
-/

namespace Sys2Proof.Machine

/-- Settles O42: a step matches on the queue's front. -/
theorem stepRunsTheFrontCommand : Obligations.StepRunsTheFrontCommand := fun _ _ _ => rfl

/-- Settles O47: a command's frame names the state that it answers. -/
theorem everyCommandCompletes : Obligations.EveryCommandCompletes := fun c s =>
  let ⟨t, ht, _⟩ := exec_runs c s
  ⟨t, ht⟩

/-! ### The tick count -/

theorem Frame.tick_eq {ps : List Part} {s t : State} (h : Frame ps s t) (hp : Part.tick ∉ ps) : t.tick = s.tick := h.1 .tick hp

/-- The captures due and the charge of what waits take no time. -/
theorem State.chargeWaits_tick (s : State) : (if s.planesOn = true then s.captureDue.countWaits else s.captureDue).tick = s.tick := by
  split
  · exact ((State.countWaits_frame _).tick_eq (by decide)).trans ((State.captureDue_frame _).tick_eq (by decide))
  · exact (State.captureDue_frame _).tick_eq (by decide)

/-- The time base advances by one tick, whatever step of the time waits. -/
theorem State.advanceTime_tick (s : State) : s.advanceTime.tick = s.tick + 1 := by
  have hstep (dtc : Nat) : ({ s with tick := s.tick + 1, time := { s.time with dtc := dtc } } : State).applyStep.tick = s.tick + 1 :=
    (State.applyStep_frame _).tick_eq (by decide)
  exact hstep _

theorem State.countTicks_warn_tick (s : State) : s.countTicks.warn.tick = s.tick :=
  ((State.warn_frame _).tick_eq (by decide)).trans ((State.countTicks_frame _).tick_eq (by decide))

/-- What ends at a tick boundary takes no time. -/
theorem State.settleAll_tick (s : State) : (if s.planesOn = true then s.trackOverload.settle.letGo else s).updateLed.tick = s.tick := by
  refine ((State.updateLed_frame _).tick_eq (by decide)).trans ?_
  split
  · exact ((State.letGo_frame _).tick_eq (by decide)).trans <| ((State.settle_frame _).tick_eq (by decide)).trans <|
      (State.trackOverload_frame _).tick_eq (by decide)
  · rfl

/-- With the Kettle running outside ROM recovery a pass charges what waits, advances the time base, and ends what ends at the boundary. -/
theorem State.passTick_of_kettleOn {s : State} (hrom : ¬ (s.boot.romFault = true ∨ s.boot.romRecovery = true)) (hon : s.kettleOn = true) :
    ∃ u v : State, u.tick = s.tick ∧ v = u.advanceTime.countTicks.warn ∧
      s.passTick = (if v.planesOn = true then v.trackOverload.settle.letGo else v).updateLed := by
  refine ⟨_, _, s.chargeWaits_tick, rfl, ?_⟩
  rw [State.passTick, if_neg hrom, if_neg (not_not_intro hon)]

/-- In ROM recovery, and with the Kettle running, a pass counts one tick. -/
theorem State.passTick_tick {s : State} (hup : s.boot.romFault = true ∨ s.boot.romRecovery = true ∨ s.kettleOn = true) :
    s.passTick.tick = s.tick + 1 := by
  by_cases hrom : s.boot.romFault = true ∨ s.boot.romRecovery = true
  · rw [State.passTick, if_pos hrom]
    exact (State.updateLed_frame _).tick_eq (by decide)
  · obtain ⟨u, v, hu, hv, hpass⟩ := State.passTick_of_kettleOn hrom (by tauto)
    rw [hpass, State.settleAll_tick, hv, State.countTicks_warn_tick, State.advanceTime_tick, hu]

/-- Settles O43: a tick leaves the queue, and counts with the Kettle up. -/
theorem emptyQueuePassesOneTick : Obligations.EmptyQueuePassesOneTick := by
  intro s hempty
  have hkept : s.passTick.pending = s.pending := s.passTick_frame.1 .pending (by decide)
  exact ⟨by simp [step, hempty], hkept.trans hempty, fun hup => State.passTick_tick (.inr (.inr (by simp [State.kettleOn, hup])))⟩

end Sys2Proof.Machine
end

section
/-!
The bytes of the namespaces: what a host write or a deallocation stages or unmaps in one IU, and so what every byte reads as (R385, R436 to R438,
R444).
-/

namespace Sys2Proof.Machine

/-! ### What the newest content of an IU rests on -/

/-- A search under two conditions is a search under the second among what meets the first. -/
theorem find?_and {α : Type} (p q : α → Bool) (l : List α) : (l.find? fun a => p a && q a) = (l.filter p).find? q := by
  simp [List.find?_filter]

/-- Two states hold the same of an IU: the pages of the flash, the IU's versions, its staged copies and its map entry. -/
structure State.SameIu (s t : State) (iu : Nat) : Prop where
  pages : t.nand.pages = s.nand.pages
  versions : (t.ftl.versions.filter fun v => v.iu == iu) = s.ftl.versions.filter fun v => v.iu == iu
  staging : (t.ftl.staging.filter fun x => x.iu == iu) = s.ftl.staging.filter fun x => x.iu == iu
  entry : t.mapEntry iu = s.mapEntry iu

theorem State.SameIu.refl (s : State) (iu : Nat) : s.SameIu s iu := ⟨rfl, rfl, rfl, rfl⟩

theorem State.SameIu.trans {s t u : State} {iu : Nat} (h : s.SameIu t iu) (k : t.SameIu u iu) : s.SameIu u iu :=
  ⟨k.pages.trans h.pages, k.versions.trans h.versions, k.staging.trans h.staging, k.entry.trans h.entry⟩

section
variable {s t : State} {iu : Nat} (h : s.SameIu t iu)
include h

theorem State.SameIu.isVersion {x : Staged} (hx : x.iu = iu) : t.isVersion x = s.isVersion x := by
  have key (u : State) : u.isVersion x = (u.ftl.versions.filter fun v => v.iu == iu).any fun v => v.seq == x.seq && v.loc.isNone := by
    simp only [State.isVersion, List.any_filter, hx, Bool.and_assoc]
  rw [key, key, h.versions]

theorem State.SameIu.pendingOf : t.pendingOf iu = s.pendingOf iu := by
  simp only [State.pendingOf, find?_and, h.versions]

theorem State.SameIu.published : t.published iu = s.published iu := by
  have hfind : (t.ftl.staging.find? fun x => x.iu == iu && !t.isVersion x) = s.ftl.staging.find? fun x => x.iu == iu && !s.isVersion x := by
    have hsame : (fun x : Staged => x.iu == iu && !t.isVersion x) = fun x => x.iu == iu && !s.isVersion x := by
      funext x
      by_cases hx : x.iu = iu
      · simp [hx, h.isVersion hx]
      · rw [beq_false_of_ne hx, Bool.false_and, Bool.false_and]
    rw [hsame, find?_and, find?_and, h.staging]
  rw [State.published, State.published, hfind, h.entry, h.pages]

theorem State.SameIu.versionContent {v : Version} (hv : v.iu = iu) : t.versionContent v = s.versionContent v := by
  have hfind : (t.ftl.staging.find? fun x => x.iu == v.iu && x.seq == v.seq) = s.ftl.staging.find? fun x => x.iu == v.iu && x.seq == v.seq := by
    simp only [hv, find?_and, h.staging]
  simp only [State.versionContent, hfind, h.pages]

/-- The newest content of an IU is the same in two states that hold the same of it. -/
theorem State.SameIu.newest : t.newest iu = s.newest iu := by
  simp only [State.newest, h.pendingOf, h.published]
  cases hp : s.pendingOf iu with
  | none => rfl
  | some v =>
    have hv : v.iu = iu := by
      have := List.find?_some hp
      simp only [Bool.and_eq_true, beq_iff_eq] at this
      exact this.1
    exact h.versionContent hv

end

/-- What is done to one IU leaves the others. -/
theorem State.dropVersions_sameIu (s : State) {iu k : Nat} (hne : k ≠ iu) : s.SameIu (s.dropVersions iu) k where
  pages := rfl
  versions := by
    simp only [State.dropVersions, List.filter_filter]
    refine List.filter_congr fun v _ => ?_
    by_cases hv : v.iu = k <;> simp [hv, hne]
  staging := by
    simp only [State.dropVersions, List.filter_filter]
    refine List.filter_congr fun x _ => ?_
    by_cases hx : x.iu = k <;> simp [hx, hne]
  entry := rfl

/-- A host write stages one IU, and leaves the others. -/
theorem State.stageIu_sameIu (s : State) {iu k : Nat} (hne : k ≠ iu) (stream : Nat) (data : Mem) (zero : Bool) (gseq gcount : Nat) :
    s.SameIu (s.stageIu iu stream data zero gseq gcount none) k where
  pages := rfl
  versions := rfl
  staging := by
    simp only [State.stageIu, State.fset64_ftl, List.filter_append, List.filter_filter]
    rw [List.filter_singleton, beq_false_of_ne hne.symm, cond_false, List.append_nil]
    refine List.filter_congr fun x _ => ?_
    by_cases hx : x.iu = k <;> simp [hx, hne]
  entry := rfl

/-! ### An IU without versions -/

section
variable {s : State} {iu : Nat} (hunversioned : ∀ v ∈ s.ftl.versions, v.iu ≠ iu)
include hunversioned

/-- Without versions an IU's newest content is the published one. -/
theorem State.newest_of_unversioned : s.newest iu = s.published iu := by
  have hpending : s.pendingOf iu = none := by
    simp only [State.pendingOf, List.find?_eq_none]
    intro v hv
    simp [hunversioned v hv]
  rw [State.newest, hpending]

/-- Without versions no staged copy of an IU is a version. -/
theorem State.isVersion_of_unversioned {x : Staged} (hx : x.iu = iu) : s.isVersion x = false := by
  simp only [State.isVersion, List.any_eq_false]
  intro v hv
  simp [hx, hunversioned v hv]

theorem State.find?_published : (s.ftl.staging.find? fun x => x.iu == iu && !s.isVersion x) = s.ftl.staging.find? fun x => x.iu == iu := by
  congr 1
  funext x
  by_cases hx : x.iu = iu
  · rw [s.isVersion_of_unversioned hunversioned hx, Bool.not_false, Bool.and_true]
  · rw [beq_false_of_ne hx, Bool.false_and]

/-- Its newest content is that of its staged copy. -/
theorem State.newest_of_staged {x : Staged} (hstaged : (s.ftl.staging.find? fun x => x.iu == iu) = some x) : s.newest iu = (1, x.data) := by
  rw [s.newest_of_unversioned hunversioned, State.published, s.find?_published hunversioned, hstaged]

/-- With no staged copy and no map entry its bytes read as zeros. -/
theorem State.newest_of_unmapped (hstaged : (s.ftl.staging.find? fun x => x.iu == iu) = none) (hunmapped : (s.mapEntry iu).st = 0) :
    s.newest iu = (0, Mem.empty) := by
  simp [s.newest_of_unversioned hunversioned, State.published, s.find?_published hunversioned, hstaged, hunmapped]

/-- A host write to an IU without versions leaves one staged copy of it, the newest. -/
theorem State.newest_stageIu (stream : Nat) (data : Mem) (zero : Bool) (gseq gcount : Nat) :
    (s.stageIu iu stream data zero gseq gcount none).newest iu = (1, data) := by
  refine State.newest_of_staged (s := s.stageIu iu stream data zero gseq gcount none)
    (x := ⟨iu, s.nextSeq, stream, data, zero, gseq, gcount, none⟩) hunversioned ?_
  have hothers : ((s.ftl.staging.filter fun y => !(y.iu == iu && !s.isVersion y)).find? fun x => x.iu == iu) = none := by
    simp only [List.find?_eq_none, List.mem_filter]
    rintro y ⟨-, hy⟩ hiu
    simp [s.isVersion_of_unversioned hunversioned (by simpa using hiu), (by simpa using hiu : y.iu = iu)] at hy
  have hstaging : (s.stageIu iu stream data zero gseq gcount none).ftl.staging =
      (s.ftl.staging.filter fun y => !(y.iu == iu && !s.isVersion y)) ++ [⟨iu, s.nextSeq, stream, data, zero, gseq, gcount, none⟩] := rfl
  rw [hstaging, List.find?_append, hothers]
  simp

end

theorem State.dropVersions_unversioned (s : State) (iu : Nat) : ∀ v ∈ (s.dropVersions iu).ftl.versions, v.iu ≠ iu := by
  intro v hv
  simpa using (List.mem_filter.mp hv).2

/-- A whole IU unmapped reads as zeros. -/
theorem State.newest_unmapIu (s : State) (iu : Nat) : (s.unmapIu iu).newest iu = (0, Mem.empty) := by
  refine State.newest_of_unmapped (s.dropVersions_unversioned iu) ?_ ?_
  · simp [State.unmapIu, List.find?_eq_none]
  · simp [State.unmapIu, State.setMap, State.mapEntry, sget, sget?_serase]

/-- The other IUs are as before. -/
theorem State.unmapIu_sameIu (s : State) {iu k : Nat} (hne : k ≠ iu) : s.SameIu (s.unmapIu iu) k where
  pages := rfl
  versions := (s.dropVersions_sameIu hne).versions
  staging := by
    refine Eq.trans ?_ (s.dropVersions_sameIu hne).staging
    simp only [State.unmapIu, State.setMap, List.filter_filter]
    refine List.filter_congr fun x _ => ?_
    by_cases hx : x.iu = k <;> simp [hx, hne]
  entry := by simp [State.unmapIu, State.setMap, State.mapEntry, State.dropVersions, sget, sget?_serase, hne]

/-! ### One byte -/

/-- The newest byte of a namespace at an address (R385). -/
def State.newestByte (s : State) (ns a : Nat) : Byte := (s.newest (iuKey ns (a / 16384))).2.read (a % 16384)

theorem iuNum_iuKey (ns : Nat) {n : Nat} (hn : n < 2 ^ 40) : iuNum (iuKey ns n) = n := by
  simp only [iuNum, iuKey]; omega

theorem iuKey_inj {ns ns' m n : Nat} (hm : m < 2 ^ 40) (hn : n < 2 ^ 40) : iuKey ns m = iuKey ns' n ↔ ns = ns' ∧ m = n := by
  simp only [iuKey]; omega

/-- A read of one byte returns the newest byte. -/
theorem State.nvmRead_one (s : State) (ns : Nat) {a : Nat} (ha : a < 2 ^ 54) : s.nvmRead ns a 1 = [s.newestByte ns a] := by
  have hnum : iuNum (iuKey ns (a / 16384)) = a / 16384 := iuNum_iuKey ns (by omega)
  have hlo : max a (a / 16384 * 16384) = a := by omega
  have hhi : min (a + 1) (a / 16384 * 16384 + 16384) - a = 1 := by omega
  have hiu : iusOf ns a 1 = [iuKey ns (a / 16384)] := by simp [iusOf]
  simp only [State.nvmRead, State.nvmBytes, hiu, List.flatMap_singleton, hnum, hlo, hhi, Mem.readN, State.newestByte]

/-- The IUs that a range meets, by number. -/
def iuNums (off n : Nat) : List Nat := if n = 0 then [] else (List.range ((off + n - 1) / 16384 - off / 16384 + 1)).map (off / 16384 + ·)

theorem mem_iuNums {off n m : Nat} : m ∈ iuNums off n ↔ ∃ a, off ≤ a ∧ a < off + n ∧ a / 16384 = m := by
  constructor
  · intro hm
    refine ⟨max off (m * 16384), ?_⟩
    unfold iuNums at hm
    split at hm
    · exact absurd hm List.not_mem_nil
    · simp only [List.mem_map, List.mem_range] at hm
      omega
  · rintro ⟨a, hlo, hhi, rfl⟩
    rw [iuNums, if_neg (by omega), List.mem_map]
    exact ⟨a / 16384 - off / 16384, List.mem_range.mpr (by omega), by omega⟩

theorem iusOf_eq_map (ns off n : Nat) : iusOf ns off n = (iuNums off n).map (iuKey ns) := by
  simp only [iusOf, iuNums]
  split
  · rfl
  · rw [List.map_map]; rfl

/-- Steps that each write the bytes of a range in one IU write them in all the IUs they take. -/
theorem foldl_newestByte {step : State → Nat → State} {ns off n : Nat} {w : Nat → Byte} {ms : List Nat}
    (hstep : ∀ (t : State) (m ns' a : Nat), m ∈ ms → a < 2 ^ 54 → (step t (iuKey ns m)).newestByte ns' a =
      if ns' = ns ∧ a / 16384 = m ∧ off ≤ a ∧ a < off + n then w a else t.newestByte ns' a)
    (s : State) {ns' a : Nat} (ha : a < 2 ^ 54) : ((ms.map (iuKey ns)).foldl step s).newestByte ns' a =
      if ns' = ns ∧ a / 16384 ∈ ms ∧ off ≤ a ∧ a < off + n then w a else s.newestByte ns' a := by
  induction ms generalizing s with
  | nil => simp
  | cons m ms ih =>
    rw [List.map_cons, List.foldl_cons, ih fun t k ns' a hk => hstep t k ns' a (List.mem_cons_of_mem _ hk), hstep s m ns' a List.mem_cons_self ha]
    by_cases hin : ns' = ns ∧ off ≤ a ∧ a < off + n
    · by_cases hmem : a / 16384 ∈ ms <;> simp [hin, hmem]
    · rw [if_neg (by tauto), if_neg (by tauto), if_neg (by tauto)]

/-- Steps that each write the bytes of a range in one IU write the range. -/
theorem foldl_iusOf_newestByte {step : State → Nat → State} {ns off n : Nat} {w : Nat → Byte}
    (hstep : ∀ (t : State) (m ns' a : Nat), m ∈ iuNums off n → a < 2 ^ 54 → (step t (iuKey ns m)).newestByte ns' a =
      if ns' = ns ∧ a / 16384 = m ∧ off ≤ a ∧ a < off + n then w a else t.newestByte ns' a)
    (s : State) {ns' a : Nat} (ha : a < 2 ^ 54) : ((iusOf ns off n).foldl step s).newestByte ns' a =
      if ns' = ns ∧ off ≤ a ∧ a < off + n then w a else s.newestByte ns' a := by
  rw [iusOf_eq_map, foldl_newestByte hstep s ha]
  have hmem : off ≤ a ∧ a < off + n → a / 16384 ∈ iuNums off n := fun h => mem_iuNums.mpr ⟨a, h.1, h.2, rfl⟩
  exact if_congr (by tauto) rfl rfl

/-! ### One IU of a host write, and of a deallocation -/

/-- One IU replaced by a step that leaves the others. -/
theorem State.newestByte_of_replaced {s t : State} {ns m : Nat} {data : Mem} (hm : m < 2 ^ 40) (hnew : (t.newest (iuKey ns m)).2 = data)
    (hothers : ∀ k, k ≠ iuKey ns m → s.SameIu t k) {ns' a : Nat} (ha : a < 2 ^ 54) :
    t.newestByte ns' a = if ns' = ns ∧ a / 16384 = m then data.read (a % 16384) else s.newestByte ns' a := by
  have hkey := iuKey_inj (ns := ns') (ns' := ns) (m := a / 16384) (by omega) hm
  split
  case isTrue hin => rw [State.newestByte, hkey.mpr hin, hnew]
  case isFalse hout => rw [State.newestByte, (hothers _ (mt hkey.mp hout)).newest, State.newestByte]

/-- The bytes of a write that lie in one IU, merged into it (R438). -/
theorem read_writeL_part (c : Mem) {off m a : Nat} {bs : List Byte} (ham : a / 16384 = m) {lo hi : Nat} (hlo : lo = max off (m * 16384))
    (hhi : hi = min (off + bs.length) (m * 16384 + 16384)) (hmeets : m ∈ iuNums off bs.length) :
    (c.writeL (lo % 16384) ((bs.drop (lo - off)).take (hi - lo))).read (a % 16384) =
      if off ≤ a ∧ a < off + bs.length then bs.getD (a - off) 0 else c.read (a % 16384) := by
  obtain ⟨b, hb, hb', rfl⟩ := mem_iuNums.mp hmeets
  rw [read_writeL, List.length_take, List.length_drop]
  by_cases hin : off ≤ a ∧ a < off + bs.length
  · rw [if_pos hin, if_pos (by omega)]
    simp only [List.getD_eq_getElem?_getD]
    rw [List.getElem?_take_of_lt (by omega), List.getElem?_drop]
    congr 2
    omega
  · rw [if_neg hin, if_neg (by omega)]

/-- A host write's bytes stand in staging (R436 to R438). -/
theorem State.nvmWrite_newestByte (s : State) {ns off : Nat} {bs : List Byte} (zero : Bool) (hend : off + bs.length ≤ 2 ^ 54) {ns' a : Nat}
    (ha : a < 2 ^ 54) : (s.nvmWrite ns off bs false zero).newestByte ns' a =
      if ns' = ns ∧ off ≤ a ∧ a < off + bs.length then bs.getD (a - off) 0 else s.newestByte ns' a := by
  unfold State.nvmWrite
  extract_lets n s0 first s1 acc
  have hs1 : s1.newestByte ns' a = if ns' = ns ∧ off ≤ a ∧ a < off + n then bs.getD (a - off) 0 else s.newestByte ns' a := by
    refine foldl_iusOf_newestByte (w := fun a => bs.getD (a - off) 0) (fun t m ns' a hmeets ha => ?_) s ha
    have hm : m < 2 ^ 40 := by
      obtain ⟨b, _, hb, rfl⟩ := mem_iuNums.mp hmeets
      omega
    extract_lets lo hi data g gs dom t1
    have hothers (k : Nat) (hk : k ≠ iuKey ns m) : t.SameIu (t1.stageIu (iuKey ns m) 0 data zero gs g.length none) k :=
      (t.dropVersions_sameIu hk).trans (t1.stageIu_sameIu hk ..)
    have hnew : (t1.stageIu (iuKey ns m) 0 data zero gs g.length none).newest (iuKey ns m) = (1, data) :=
      State.newest_stageIu (t.dropVersions_unversioned _) ..
    refine (State.newestByte_of_replaced hm (congrArg Prod.snd hnew) hothers ha).trans ?_
    by_cases hin : ns' = ns ∧ a / 16384 = m
    · obtain ⟨rfl, rfl⟩ := hin
      have hpart := read_writeL_part (t.newest (iuKey ns' (a / 16384))).2 rfl (lo := lo) (hi := hi) (by rw [← iuNum_iuKey ns' hm])
        (by rw [← iuNum_iuKey ns' hm]) hmeets
      simpa [State.newestByte] using hpart
    · rw [if_neg hin, if_neg (by tauto)]
  exact hs1

/-- The bytes of a deallocated range are zeros, and every other byte is as before (R444). -/
theorem State.deallocate_newestByte (s : State) {ns off n : Nat} (hend : off + n ≤ 2 ^ 54) {ns' a : Nat} (ha : a < 2 ^ 54) :
    (s.deallocate ns off n).newestByte ns' a = if ns' = ns ∧ off ≤ a ∧ a < off + n then 0 else s.newestByte ns' a := by
  refine foldl_iusOf_newestByte (w := fun _ => 0) (fun t m ns' a hmeets ha => ?_) s ha
  obtain ⟨b, hb, hb', rfl⟩ := mem_iuNums.mp hmeets
  have hm : b / 16384 < 2 ^ 40 := by omega
  extract_lets lo hi
  have hlo : lo = max off (b / 16384 * 16384) := by rw [← iuNum_iuKey ns hm]
  have hhi : hi = min (off + n) (b / 16384 * 16384 + 16384) := by rw [← iuNum_iuKey ns hm]
  split
  case isTrue hwhole =>
    refine (State.newestByte_of_replaced hm (congrArg Prod.snd (t.newest_unmapIu _)) (fun k hk => t.unmapIu_sameIu hk) ha).trans ?_
    exact if_congr (by omega) rfl rfl
  case isFalse hpart =>
    rw [State.nvmWrite_newestByte t true (by rw [List.length_replicate]; omega) ha, List.length_replicate]
    refine (if_congr (by omega) ?_ rfl)
    rw [List.getD_eq_getElem?_getD, List.getElem?_replicate]
    split <;> rfl

/-- Settles O48: the bytes of a host write are staged IU by IU. -/
theorem namespaceBytesReadBackAsWritten : Obligations.NamespaceBytesReadBackAsWritten := by
  intro s ns off a ns' bs zero hend ha
  rw [State.nvmRead_one _ _ ha, State.nvmRead_one _ _ ha, State.nvmWrite_newestByte s zero hend ha]
  split <;> rfl

/-- Settles O49: a whole IU is unmapped, and zeros are written to a part of one. -/
theorem deallocatedBytesReadZero : Obligations.DeallocatedBytesReadZero := by
  intro s ns off n a ns' hend ha
  rw [State.nvmRead_one _ _ ha, State.nvmRead_one _ _ ha, State.deallocate_newestByte s hend ha]
  split <;> rfl

end Sys2Proof.Machine
end

section
/-!
Distances and ranks of vector search: the sums over a table's columns, the two ranking keys as linear orders, and ranked lists (R352, R368).
-/

namespace Sys2Proof.Machine

/-! ### Distances of codes (R352) -/

/-- The nibbles of a byte. -/
theorem nibble_eq (b : Byte) (j : Nat) : b.toNat / 16 ^ (j % 2) % 16 = if j % 2 = 0 then b.toNat % 16 else b.toNat / 16 := by
  have hb := b.isLt
  rcases Nat.mod_two_eq_zero_or_one j with hj | hj
  · simp [hj]
  · simp only [hj, one_ne_zero, if_false, pow_one]
    omega

/-- A sum of bytes over the columns of a table. -/
theorem sum_range_toNat_le (m : Nat) (f : Nat → Byte) : ((List.range m).map fun j => (f j).toNat).sum ≤ 255 * m := by
  refine (List.sum_le_card_nsmul _ 255 fun x hx => ?_).trans (by simp [mul_comm])
  obtain ⟨j, -, rfl⟩ := List.mem_map.mp hx
  have := (f j).isLt
  omega

theorem codeDistance_le (m p : Nat) (tab code : List Byte) : codeDistance (m, p, tab) code ≤ 255 * m := by
  unfold codeDistance
  split
  · exact sum_range_toNat_le m _
  · exact sum_range_toNat_le m _

/-- Settles O37: a sum of at most 128 bytes. -/
theorem codeDistancesAreTableSums : Obligations.CodeDistancesAreTableSums := by
  refine ⟨fun m tab code => rfl, fun m tab code => ?_, fun m p tab code hm => ?_, fun a b hab => ?_⟩
  · simp only [codeDistance, nibble_eq]
    rfl
  · have hle : codeDistance (m, p, tab) code ≤ 32640 := (codeDistance_le m p tab code).trans (by omega)
    exact ⟨hle, Nat.mod_eq_of_lt (by omega)⟩
  · simp only [rankLe, decide_eq_true_eq, decide_eq_false_iff_not]
    omega

/-! ### The ranking keys (R368) -/

/-- A value that is no NaN as an extended real number. -/
noncomputable def Fv.toEReal : Fv → EReal
  | .nan => 0
  | .inf neg => if neg then ⊥ else ⊤
  | .fin neg n d => (((if neg then -n else n : ℝ) / d : ℝ) : EReal)

/-- The rank of an FP32 pattern under the exact key: a NaN after every number. -/
noncomputable def distRank (x : Nat) : WithTop EReal := if (dec32 x).isNan then ⊤ else ((dec32 x).toEReal : EReal)

/-- The denominator of a value is not zero. -/
def Fv.Proper : Fv → Prop
  | .fin _ _ d => 0 < d
  | _ => True

theorem pow2D_pos (k : Int) : 0 < pow2D k := by
  unfold pow2D
  split <;> positivity

theorem Fv.Proper.scale {neg : Bool} {n : Nat} (k : Int) : ((Fv.fin neg n 1).scale k).Proper := by
  simpa [Fv.scale, Fv.Proper] using pow2D_pos k

theorem dec32_proper (x : Nat) : (dec32 x).Proper := by
  simp only [dec32, BinFmt.dec, BinFmt.value]
  split
  · split <;> trivial
  · split <;> exact .scale _

/-- Values that are no NaN compare as the extended real numbers that they are. -/
theorem Fv.lt_iff_toEReal {a b : Fv} (ha : a.Proper) (hb : b.Proper) (hna : a.isNan = false) (hnb : b.isNan = false) :
    Fv.lt a b = true ↔ a.toEReal < b.toEReal := by
  cases a with
  | nan => cases hna
  | inf s =>
    cases b with
    | nan => cases hnb
    | inf t => cases s <;> cases t <;> simp [Fv.lt, Fv.toEReal]
    | fin t m e => cases s <;> simp [Fv.lt, Fv.toEReal]
  | fin s n d =>
    cases b with
    | nan => cases hnb
    | inf t => cases t <;> simp [Fv.lt, Fv.toEReal]
    | fin t m e =>
      have hd : (0 : ℝ) < d := Nat.cast_pos.mpr ha
      have he : (0 : ℝ) < e := Nat.cast_pos.mpr hb
      simp only [Fv.lt, Fv.toEReal, decide_eq_true_eq, EReal.coe_lt_coe_iff, div_lt_div_iff₀ hd he]
      rw [← Int.cast_lt (R := ℝ)]
      cases s <;> cases t <;> simp

theorem dec32_top : dec32 0x7F800000 = .inf false := by decide

theorem dec32_bottom : dec32 0xFF800000 = .inf true := by decide

theorem Fv.lt_top_of_ne {a : Fv} (hnan : a.isNan = false) (hne : a ≠ .inf false) : Fv.lt a (.inf false) = true := by
  cases a with
  | nan => cases hnan
  | inf s => cases s <;> simp_all [Fv.lt]
  | fin s n d => rfl

theorem Fv.bottom_lt_of_ne {a : Fv} (hnan : a.isNan = false) (hne : a ≠ .inf true) : Fv.lt (.inf true) a = true := by
  cases a with
  | nan => cases hnan
  | inf s => cases s <;> simp_all [Fv.lt]
  | fin s n d => rfl

theorem distLt_iff (a b : Nat) : distLt a b = true ↔ distRank a < distRank b := by
  unfold distLt distRank
  cases ha : (dec32 a).isNan <;> cases hb : (dec32 b).isNan <;> simp [ha, hb, Fv.lt_iff_toEReal (dec32_proper a) (dec32_proper b)]

/-- The PQ key orders by D, then by vector ID. -/
theorem entLe_pq_iff (a b : LEnt) : entLe false false a b = true ↔ toLex (a.dq, a.id) ≤ toLex (b.dq, b.id) := by
  simp [entLe, Prod.Lex.le_iff]

/-- The exact key orders by the distance's rank, then by vector ID. -/
theorem entLe_exact_iff (a b : LEnt) : entLe true false a b = true ↔ toLex (distRank a.dist, a.id) ≤ toLex (distRank b.dist, b.id) := by
  have hle : (!distLt b.dist a.dist) = true ↔ distRank a.dist ≤ distRank b.dist := by
    rw [Bool.not_eq_true', ← Bool.not_eq_true, distLt_iff, not_lt]
  simp only [entLe, Bool.false_eq_true, false_and, if_true, if_false, Bool.or_eq_true, Bool.and_eq_true, decide_eq_true_eq, hle, distLt_iff,
    Prod.Lex.le_iff, ofLex_toLex]
  constructor
  · rintro (h | ⟨h, hid⟩)
    · exact .inl h
    · exact h.lt_or_eq.imp_right fun heq => ⟨heq, hid⟩
  · rintro (h | ⟨h, hid⟩)
    · exact .inl h
    · exact .inr ⟨h.le, hid⟩

theorem entLe_total (exact : Bool) (a b : LEnt) : (entLe exact false a b || entLe exact false b a) = true := by
  cases exact
  · simpa only [Bool.or_eq_true, entLe_pq_iff] using le_total _ _
  · simpa only [Bool.or_eq_true, entLe_exact_iff] using le_total _ _

theorem entLe_trans (exact : Bool) {a b c : LEnt} (hab : entLe exact false a b = true) (hbc : entLe exact false b c = true) :
    entLe exact false a c = true := by
  cases exact
  · simp only [entLe_pq_iff] at *
    exact hab.trans hbc
  · simp only [entLe_exact_iff] at *
    exact hab.trans hbc

/-! ### The first entry of each vector ID -/

theorem firstOfIds_sublist (es : List LEnt) (seen : List Nat) : (firstOfIds es seen).Sublist es := by
  induction es generalizing seen with
  | nil => exact .slnil
  | cons e es ih =>
    unfold firstOfIds
    split
    · exact (ih _).cons _
    · exact (ih _).cons_cons _

theorem id_notMem_of_mem_firstOfIds {es : List LEnt} {seen : List Nat} {e : LEnt} (he : e ∈ firstOfIds es seen) : e.id ∉ seen := by
  induction es generalizing seen with
  | nil => cases he
  | cons d es ih =>
    unfold firstOfIds at he
    split at he
    case isTrue => exact ih he
    case isFalse hnew =>
      rcases List.mem_cons.mp he with rfl | he
      · simpa using hnew
      · exact fun hseen => ih he (List.mem_cons_of_mem _ hseen)

theorem firstOfIds_nodup (es : List LEnt) (seen : List Nat) : ((firstOfIds es seen).map LEnt.id).Nodup := by
  induction es generalizing seen with
  | nil => exact List.nodup_nil
  | cons e es ih =>
    unfold firstOfIds
    split
    · exact ih _
    · rw [List.map_cons, List.nodup_cons, List.mem_map]
      exact ⟨fun ⟨d, hd, hid⟩ => id_notMem_of_mem_firstOfIds hd (hid ▸ List.mem_cons_self), ih _⟩

/-- Of sorted entries the one kept for a vector ID ranks no later than any other with the ID. -/
theorem firstOfIds_least {exact : Bool} {es : List LEnt} {seen : List Nat} {x : LEnt} (hsorted : es.Pairwise fun a b => entLe exact false a b = true)
    (hx : x ∈ es) (hnew : x.id ∉ seen) : ∃ e ∈ firstOfIds es seen, e.id = x.id ∧ entLe exact false e x = true := by
  induction es generalizing seen with
  | nil => cases hx
  | cons d es ih =>
    rw [List.pairwise_cons] at hsorted
    unfold firstOfIds
    by_cases hid : d.id = x.id
    · rw [if_neg (by simpa [hid] using hnew)]
      refine ⟨d, List.mem_cons_self, hid, ?_⟩
      rcases List.mem_cons.mp hx with rfl | hx
      · simpa using entLe_total exact x x
      · exact hsorted.1 x hx
    · have hmem : x ∈ es := (List.mem_cons.mp hx).resolve_left fun h => hid (congrArg LEnt.id h.symm)
      split
      · exact ih hsorted.2 hmem hnew
      · obtain ⟨e, he, heid, hle⟩ := ih hsorted.2 hmem (seen := d.id :: seen) (by simp [hnew, Ne.symm hid])
        exact ⟨e, List.mem_cons_of_mem _ he, heid, hle⟩

/-- Settles O38: the keys are linear orders, and ranking keeps of the sorted entries the first of each vector ID. -/
theorem rankedListsAreSortedWithoutDuplicates : Obligations.RankedListsAreSortedWithoutDuplicates := by
  refine ⟨?pq, ?exact, ?nanLast, ?nans, ⟨by decide, by decide⟩, ?top, ?bottom, ?ranked⟩
  case pq =>
    intro a b
    simp [entLe]
  case exact =>
    intro a b ha hb
    simp [entLe, distLt, ha, hb]
  case nanLast =>
    intro a b ha hb
    simp [entLe, distLt, ha, hb]
  case nans =>
    intro a b ha hb
    simp [entLe, distLt, ha, hb]
  case top =>
    intro d hnan hne
    rw [dec32_top] at *
    exact Fv.lt_top_of_ne hnan hne
  case bottom =>
    intro d hnan hne
    rw [dec32_bottom] at *
    exact Fv.bottom_lt_of_ne hnan hne
  case ranked =>
    intro exact es
    have hsorted : (es.mergeSort (entLe exact false)).Pairwise fun a b => entLe exact false a b = true :=
      List.pairwise_mergeSort (le := entLe exact false) (fun _ _ _ => entLe_trans exact) (entLe_total exact) es
    have hsub := firstOfIds_sublist (es.mergeSort (entLe exact false)) []
    exact ⟨hsorted.sublist hsub, firstOfIds_nodup _ _, fun e he => List.mem_mergeSort.mp (hsub.subset he),
      fun x hx => firstOfIds_least hsorted (List.mem_mergeSort.mpr hx) List.not_mem_nil⟩

end Sys2Proof.Machine
end

section
/-!
The user capacity, as Identify Controller reports it, and the superblock that a stream opens (R430, R432, R434, R435, R446).
-/

namespace Sys2Proof.Machine

/-! ### Fields of a data structure -/

@[simp] theorem length_natLE (v n : Nat) : (natLE v n).length = n := by
  induction n generalizing v with
  | zero => rfl
  | succ n ih => simp [natLE, ih]

/-- One field written over a data structure. -/
def patch (b : List Byte) (f : Nat × List Byte) : List Byte := b.take f.1 ++ f.2 ++ b.drop (f.1 + f.2.length)

theorem patched_eq_foldl (kind n : Nat) (fs : List (Nat × List Byte)) :
    patched kind n fs = fs.foldl patch ((List.range n).map (Config.infoByte kind)) := rfl

theorem length_patch {b : List Byte} {f : Nat × List Byte} (h : f.1 + f.2.length ≤ b.length) : (patch b f).length = b.length := by
  simp only [patch, List.length_append, List.length_take, List.length_drop]
  omega

theorem length_foldl_patch {fs : List (Nat × List Byte)} {b : List Byte} (h : ∀ f ∈ fs, f.1 + f.2.length ≤ b.length) :
    (fs.foldl patch b).length = b.length := by
  induction fs generalizing b with
  | nil => rfl
  | cons f fs ih =>
    have hf := length_patch (h f List.mem_cons_self)
    rw [List.foldl_cons, ih (fun g hg => hf ▸ h g (List.mem_cons_of_mem _ hg)), hf]

/-- A field reads back as it was written. -/
theorem slice_patch_self {b : List Byte} {f : Nat × List Byte} (h : f.1 + f.2.length ≤ b.length) :
    ((patch b f).drop f.1).take f.2.length = f.2 := by
  have hlen : (b.take f.1).length = f.1 := by rw [List.length_take]; omega
  rw [patch, List.append_assoc, List.drop_append_of_le_length hlen.ge, List.drop_eq_nil_of_le hlen.le, List.nil_append, List.take_left]

/-- A field written leaves the bytes before and after it. -/
theorem slice_patch_of_disjoint {b : List Byte} {f : Nat × List Byte} {a n : Nat} (h : f.1 + f.2.length ≤ b.length)
    (hapart : a + n ≤ f.1 ∨ f.1 + f.2.length ≤ a) : ((patch b f).drop a).take n = (b.drop a).take n := by
  have hlen : (b.take f.1).length = f.1 := by rw [List.length_take]; omega
  refine List.ext_getElem? fun i => ?_
  simp only [List.getElem?_take, List.getElem?_drop]
  split
  case isFalse => rfl
  case isTrue hi =>
    rcases hapart with hbefore | hafter
    · rw [patch, List.append_assoc, List.getElem?_append_left (by omega), List.getElem?_take_of_lt (by omega)]
    · rw [patch, List.getElem?_append_right (by rw [List.length_append]; omega), List.getElem?_drop, List.length_append, hlen]
      congr 1
      omega

theorem slice_foldl_patch_of_disjoint {fs : List (Nat × List Byte)} {b : List Byte} {a n : Nat}
    (h : ∀ f ∈ fs, f.1 + f.2.length ≤ b.length ∧ (a + n ≤ f.1 ∨ f.1 + f.2.length ≤ a)) :
    ((fs.foldl patch b).drop a).take n = (b.drop a).take n := by
  induction fs generalizing b with
  | nil => rfl
  | cons f fs ih =>
    obtain ⟨hin, hapart⟩ := h f List.mem_cons_self
    rw [List.foldl_cons, ih (fun g hg => length_patch hin ▸ h g (List.mem_cons_of_mem _ hg)), slice_patch_of_disjoint hin hapart]

/-- Of fields written in turn, one that no later field meets reads back. -/
theorem slice_foldl_patch {fs gs : List (Nat × List Byte)} {f : Nat × List Byte} {b : List Byte}
    (hbefore : ∀ g ∈ fs ++ [f], g.1 + g.2.length ≤ b.length)
    (hafter : ∀ g ∈ gs, g.1 + g.2.length ≤ b.length ∧ (f.1 + f.2.length ≤ g.1 ∨ g.1 + g.2.length ≤ f.1)) :
    (((fs ++ f :: gs).foldl patch b).drop f.1).take f.2.length = f.2 := by
  have hlen : (fs.foldl patch b).length = b.length := length_foldl_patch fun g hg => hbefore g (List.mem_append_left _ hg)
  have hf : f.1 + f.2.length ≤ (fs.foldl patch b).length := hlen ▸ hbefore f (by simp)
  rw [List.foldl_append, List.foldl_cons, slice_foldl_patch_of_disjoint (by rw [length_patch hf, hlen]; exact hafter), slice_patch_self hf]

/-! ### Identify Controller (R430, R432) -/

theorem length_partNumber (v : Variant) : (partNumber v).length = 40 := by
  simp [partNumber, ascii]

/-- Bytes 280 to 295 of Identify Controller are the user capacity. -/
theorem State.idController_capacity (s : State) (fn : Nat) : ((s.idController fn).drop 280).take 16 = natLE s.capacity 16 := by
  have hfield := slice_foldl_patch (f := (280, natLE s.capacity 16 ++ natLE s.unallocated 16))
    (b := (List.range 4096).map (Config.infoByte 0x101))
    (fs := [(24, partNumber s.variant), (64, s.revision), (77, natLE 9 1), (84, natLE 30000000 4 ++ natLE 100000 4), (258, natLE 3 1 ++ natLE 7 1),
      (260, natLE 0x04 1), (262, natLE 63 1 ++ natLE 4 1), (265, natLE 1 1 ++ natLE 358 2 ++ natLE 378 2 ++ natLE 0 2)])
    (gs := [(319, natLE 1 1), (328, natLE (if fn = 0 then 7 else 0) 4), (512, natLE 0x66 1 ++ natLE 0x44 1),
      (516, natLE 81 4), (525, natLE 0 1 ++ natLE 63 2 ++ natLE 63 2), (532, natLE 0 2), (2048, psDescriptors), (3072, psMilliwatts)])
    (by simp [length_partNumber, State.revision]) (by simp [psDescriptors, psDescriptor, psMilliwatts])
  have hboth : natLE s.capacity 16 ++ natLE s.unallocated 16 = ((s.idController fn).drop 280).take 32 := by
    rw [List.length_append, length_natLE, length_natLE] at hfield
    exact hfield.symm
  calc ((s.idController fn).drop 280).take 16
      = (((s.idController fn).drop 280).take 32).take 16 := by rw [List.take_take]; rfl
    _ = natLE s.capacity 16 := by rw [← hboth, List.take_append_of_le_length (by simp), List.take_of_length_le (by simp)]

/-- Settles O39: the capacity is a function of the variant, and no later field of Identify Controller meets it. -/
theorem userCapacityIsFixed : Obligations.UserCapacityIsFixed := by
  refine ⟨fun s hv => ?_, fun s hv => ?_, State.idController_capacity⟩
  · simp [userPages, State.capacity, hv]
  · simp [userPages, State.capacity, hv]

/-! ### The superblock that a stream opens (R434, R435, R446) -/

theorem State.mem_freeSbs {s : State} {c b : Nat} : b ∈ s.freeSbs c ↔ b < 2208 ∧ s.sbFree c b = true := by
  simp [State.freeSbs]

theorem State.freeSbs_sorted (s : State) (c : Nat) : (s.freeSbs c).Pairwise (· < ·) := List.pairwise_lt_range.filter _

/-- The superblock to open is the first of the least worn among the free ones. -/
theorem State.leastWorn_eq_argmin (s : State) (c : Nat) : s.leastWorn c = (s.freeSbs c).argmin fun b => sget s.ftl.sbErase (sbKey c b) 0 := by
  unfold State.leastWorn List.argmin
  congr 1
  funext a b
  cases a <;> rfl

theorem State.leastWorn_eq_none {s : State} {c : Nat} : s.leastWorn c = none ↔ ∀ b, b < 2208 → s.sbFree c b = false := by
  rw [State.leastWorn_eq_argmin, List.argmin_eq_none, List.eq_nil_iff_forall_not_mem]
  simp only [State.mem_freeSbs, not_and, Bool.not_eq_true]

/-- In a rising list the earlier of two elements is the lesser. -/
theorem le_of_idxOf_le {l : List Nat} (hl : l.Pairwise (· < ·)) {a b : Nat} (ha : a ∈ l) (hb : b ∈ l)
    (h : l.idxOf a ≤ l.idxOf b) : a ≤ b := by
  have ha' := List.idxOf_lt_length_of_mem ha
  have hb' := List.idxOf_lt_length_of_mem hb
  rw [← List.getElem_idxOf ha', ← List.getElem_idxOf hb']
  rcases h.lt_or_eq with hlt | heq
  · exact (List.pairwise_iff_getElem.mp hl _ _ ha' hb' hlt).le
  · simp only [heq, le_refl]

/-- It is free, and no other free superblock is less worn, or as worn with a lower number. -/
theorem State.leastWorn_least {s : State} {c b : Nat} (h : s.leastWorn c = some b) : b < 2208 ∧ s.sbFree c b = true ∧
    ∀ x, x < 2208 → s.sbFree c x = true → sget s.ftl.sbErase (sbKey c b) 0 < sget s.ftl.sbErase (sbKey c x) 0 ∨
      (sget s.ftl.sbErase (sbKey c b) 0 = sget s.ftl.sbErase (sbKey c x) 0 ∧ b ≤ x) := by
  rw [State.leastWorn_eq_argmin, List.argmin_eq_some_iff] at h
  obtain ⟨hmem, hleast, hfirst⟩ := h
  obtain ⟨hlt, hfree⟩ := State.mem_freeSbs.mp hmem
  refine ⟨hlt, hfree, fun x hx hxfree => ?_⟩
  have hxmem : x ∈ s.freeSbs c := State.mem_freeSbs.mpr ⟨hx, hxfree⟩
  exact (hleast x hxmem).lt_or_eq.imp_right fun heq => ⟨heq, le_of_idxOf_le (s.freeSbs_sorted c) hmem hxmem (hfirst x hxmem heq.ge)⟩

/-- A stream goes on in the superblock that it holds while that has room. -/
theorem State.openNext_of_room {s : State} {c stream b pos : Nat} (j : Bool) (hopen : sget? s.ftl.openSb (4 * c + stream) = some (b, pos))
    (hroom : (s.locAt c b pos).isSome = true) : s.openNext c stream j = some ((b, pos), s) := by
  simp [State.openNext, hopen, hroom]

/-- A stream without room opens the least-worn free superblock, where there is one. -/
theorem State.openNext_of_full {s : State} {c stream : Nat} (j : Bool)
    (hfull : ∀ b pos, sget? s.ftl.openSb (4 * c + stream) = some (b, pos) → s.locAt c b pos = none) : s.openNext c stream j =
      (s.leastWorn c).map fun b => ((b, 0), (if j && s.ftl.stale.contains (4 * c + stream) then s.flush else s).openSuper c stream b) := by
  unfold State.openNext
  cases hopen : sget? s.ftl.openSb (4 * c + stream) with
  | none => rfl
  | some p => simp [hfull p.1 p.2 hopen]

/-- Settles O41: a superblock with room is kept, and the first of the least worn is opened where there is none. -/
theorem superblocksOpenLeastWornFirst : Obligations.SuperblocksOpenLeastWornFirst := by
  refine ⟨fun s c stream b pos j => State.openNext_of_room j, fun s c stream j hfull => ⟨fun hnone => ?_, fun b hb => ?_⟩,
    fun s c => State.leastWorn_eq_none, fun s c b => State.leastWorn_least⟩
  · rw [State.openNext_of_full j hfull, hnone, Option.map_none]
  · rw [State.openNext_of_full j hfull, hb, Option.map_some]

end Sys2Proof.Machine
end

section
/-!
What the commands of the input and its switch do (R82, R562 to R567).
-/

namespace Sys2Proof.Machine

section
variable {s : State}

theorem execPowerOnStart_of_closed (inp : StartInput) (hclosed : s.power.switchClosed = true) (hdown : s.power.kettleUp = false)
    (hrom : s.boot.romRecovery = false) : execPowerOnStart inp s = .next ((s.startUp 0 inp).smartAdd 5 1) :=
  if_neg (by simp [hclosed, hdown, hrom])

/-- The input out of its limits behind a closed switch: the switch opens, and the brown-out sequence starts. -/
theorem execInputOverVoltage_of_over {mv : Nat} (w : Bool) (hover : 60000 < mv) (hclosed : s.power.switchClosed = true) :
    execInputOverVoltage mv w s = .next (({ s with power := { s.power with switchClosed := false } } : State).brownOutSeq mv w) :=
  if_neg (by simp [hover, hclosed])

theorem execInputOverCurrent_of_over {ma : Nat} (mv : Nat) (w : Bool) (hover : 50000 < ma) (hclosed : s.power.switchClosed = true) :
    execInputOverCurrent ma mv w s = .next (({ s with power := { s.power with switchClosed := false } } : State).brownOutSeq mv w) :=
  if_neg (by simp [hover, hclosed])

/-- An input back in its operating range ends the brown-out, and releases the control plane unless a thermal shutdown lasts. -/
theorem execBrownOutRecovery_of_range {mv : Nat} (bad fails : Bool) (hbrown : s.power.brownOut = true) (hup : s.power.kettleUp = true)
    (hseated : s.power.seated = true) (hlow : 46000 ≤ mv) (hhigh : mv ≤ 58000) {u : State} (hu : u = { s with power := { s.power with
      brownOut := false, switchClosed := true, opHoldUntil := some (s.tick + ticksMs 100) } }) : execBrownOutRecovery mv bad fails s =
    .next ((if s.power.thermalOff = true then u else u.startControl 2 bad fails).recEv 0x01 0 0x0604 ([0] ++ le (mv / 10) 2) 0xFF false true) := by
  subst hu
  refine (if_neg (by simp [hbrown, hup, hseated, hlow, hhigh])).trans ?_
  cases hoff : s.power.thermalOff <;> rfl

/-- The hold-up bank exhausted stops the Kettle, and opens the switch. -/
theorem execHoldUpBankExhausted_of_brownOut (hbrown : s.power.brownOut = true) : ∃ t, execHoldUpBankExhausted s = .next t ∧
    t.power.kettleUp = false ∧ t.power.brownOut = false ∧ t.power.switchClosed = false ∧ t.tiers.heat2 = [] :=
  ⟨_, if_neg (not_not_intro hbrown), rfl, rfl, rfl, rfl⟩

theorem execBrownOutOpHoldExpiry_of_due {n : Nat} (hhold : s.power.opHoldUntil = some n) (hdue : n ≤ s.tick) :
    execBrownOutOpHoldExpiry s = .next (({ s with power := { s.power with opHoldUntil := none } } : State).driveOp) := by
  simp only [execBrownOutOpHoldExpiry, hhold, hdue.not_gt, if_false]

end

/-- Settles O1: each event passes its guards, and its row's effect follows. -/
theorem powerInputCommandsComplete : Obligations.PowerInputCommandsComplete := by
  refine ⟨?start, fun s => rfl, ?seat, ?unseat, ?low, ?voltage, ?current, ?recovery, ?exhausted, ?expiry⟩
  case start =>
    intro inp s hclosed hdown hrom
    exact execPowerOnStart_of_closed inp hclosed hdown hrom
  case seat =>
    intro mv w s hclosed
    exact if_pos hclosed
  case unseat =>
    intro mv w s hopen
    exact if_neg (by simp [hopen])
  case low =>
    intro mv w s hlow
    exact if_neg hlow.not_ge
  case voltage =>
    intro mv w s hover hclosed
    exact execInputOverVoltage_of_over w hover hclosed
  case current =>
    intro ma mv w s hover hclosed
    exact execInputOverCurrent_of_over mv w hover hclosed
  case recovery =>
    intro mv bad fails s hbrown hup hseated hlow hhigh
    refine ⟨_, execBrownOutRecovery_of_range bad fails hbrown hup hseated hlow hhigh rfl, fun hoff => ?_, fun hrun => ?_⟩
    · rw [if_pos hoff]
    · rw [if_neg (by simp [hrun])]
  case exhausted =>
    intro s hbrown
    exact execHoldUpBankExhausted_of_brownOut hbrown
  case expiry =>
    intro n s hhold hdue
    exact execBrownOutOpHoldExpiry_of_due hhold hdue

end Sys2Proof.Machine
end

section
/-!
What the ROM routine of the embedded flash does (R506 to R514).
-/

namespace Sys2Proof.Machine

/-! ### The words and the sectors of a request -/

theorem requestWords_one {a : Nat} (hecc : regionOfSector (a / 512) ≠ 1) : requestWords a 1 = [a] := by
  simp [requestWords, hecc]

theorem sectorsOf_singleton (a : Nat) : sectorsOf [a] = [a / 512] := rfl

theorem State.evalue_of_ecc (s : State) {a : Nat} (hecc : regionOfSector (a / 512) ≠ 1) : s.evalue a = (s.eword a, false) := if_neg hecc

/-- Past the first 16 sectors nothing is of the factory region. -/
theorem le_of_two_le_regionOfSector {x : Nat} (h : 2 ≤ regionOfSector x) : 16 ≤ x := by
  by_contra hx
  simp [regionOfSector, Nat.lt_of_not_le hx] at h

/-- A request for one sector outside the factory region starts its pulses, with no brown-out. -/
theorem State.pulseRefused_eq_none {s : State} {x : Nat} (hx : 16 ≤ x) (hgood : x ∉ s.eflash.bad) (hinput : s.power.brownOut = false) :
    s.pulseRefused [x] false false true = none := by
  simp [State.pulseRefused, hx.not_gt, hgood, hinput]

/-! ### The requests -/

section
variable {s : State} (hon : s.kettleOn = true)
include hon

/-- A word of an error-corrected region, of a complete sector, reads as it stands. -/
theorem execEflashRead_of_complete {a : Nat} (hrange : rangeOk a 1 = true) (hecc : regionOfSector (a / 512) ≠ 1) (hgood : a / 512 ∉ s.eflash.bad)
    (hcomplete : s.incomplete (a / 512) = false) :
    execEflashRead a 1 [] s = .next (({ s with freeCount := s.freeCount + 1 } : State).romAnswer 0 0 0 noWord [s.eword a]) := by
  simp [execEflashRead, hon, hrange, requestWords_one hecc, sectorsOf_singleton, s.evalue_of_ecc hecc, hgood, hcomplete, b2n]

/-- An erased word that verifies with its pulse takes its value. -/
theorem execEflashProgram_of_erased {a v need : Nat} (hrange : rangeOk a 1 = true) (hregion : 2 ≤ regionOfSector (a / 512))
    (hgood : a / 512 ∉ s.eflash.bad) (hinput : s.power.brownOut = false) (hcomplete : s.incomplete (a / 512) = false)
    (herased : s.eword a = erasedWord) (hneed : need ≤ 1) : execEflashProgram a [v] false 0 false false need 0 s false =
      .next (((s.setEword a v).verified (a / 512) true).romAnswer 0 need 0 noWord) := by
  have hecc : regionOfSector (a / 512) ≠ 1 := by omega
  have hstarts := State.pulseRefused_eq_none (le_of_two_le_regionOfSector hregion) hgood hinput
  simp [execEflashProgram, hon, hrange, requestWords_one hecc, sectorsOf_singleton, hstarts, hcomplete, hecc, herased, hneed, pulseLimit,
    State.programWord]

/-- A sector outside the factory region is erased. -/
theorem execEflashErase_of_writable {x need : Nat} (hlow : 16 ≤ x) (hhigh : x < 2048) (hgood : x ∉ s.eflash.bad)
    (hinput : s.power.brownOut = false) (hneed : need ≤ 1) : execEflashErase x 1 false 0 false false need 0 s false =
      .next ((((s.beginErase x).endErase x).verified x true).romAnswer 0 need 0 noWord) := by
  have hstarts := State.pulseRefused_eq_none hlow hgood hinput
  simp [execEflashErase, hon, hhigh, hstarts, hneed, pulseLimit]

section
variable {x n : Nat} (hn : 1 ≤ n ∧ n ≤ 8) (hend : x + n ≤ 2048) (hregion : regionOfSector x = regionOfSector (x + n - 1))
  (hsectors : ∀ y, x ≤ y → y < x + n → y ∉ s.eflash.bad ∧ s.incomplete y = false)
include hn hend hregion hsectors

/-- A blank check of complete sectors answers the first word that is not erased, or that there is none. -/
theorem execEflashBlankCheck_of_complete :
    execEflashBlankCheck x n s = .next ((((List.range (512 * n)).map (512 * x + ·)).find? fun w => s.eword w != erasedWord).elim
      (s.romAnswer 0 0 0 noWord) (s.romAnswer 2 0 0 ·)) := by
  have hrange : ¬ (n = 0 ∨ 8 < n ∨ 2048 < x + n ∨ regionOfSector x ≠ regionOfSector (x + n - 1)) := by
    simp only [hregion, ne_eq, not_true_eq_false, or_false]
    omega
  have hgood : ¬ ((List.range n).map (x + ·)).any s.eflash.bad.contains = true := by
    simp only [List.any_map, List.any_eq_true, List.mem_range, Function.comp_apply, List.contains_iff_mem, not_exists, not_and]
    exact fun i hi => (hsectors (x + i) (by omega) (by omega)).1
  have hcomplete : ¬ ((List.range n).map (x + ·)).any s.incomplete = true := by
    simp only [List.any_map, List.any_eq_true, List.mem_range, Function.comp_apply, not_exists, not_and, Bool.not_eq_true]
    exact fun i hi => (hsectors (x + i) (by omega) (by omega)).2
  have hword (w : Nat) (hw : w ∈ (List.range (512 * n)).map (512 * x + ·)) : s.blankWord x w = s.eword w := by
    obtain ⟨i, hi, rfl⟩ := List.mem_map.mp hw
    have := List.mem_range.mp hi
    simp [State.blankWord, (hsectors ((512 * x + i) / 512) (by omega) (by omega)).2]
  have hfind : (((List.range (512 * n)).map (512 * x + ·)).find? fun w => s.blankWord x w != erasedWord) =
      ((List.range (512 * n)).map (512 * x + ·)).find? fun w => s.eword w != erasedWord :=
    List.find?_congr fun w hw => by rw [hword w hw]
  simp only [execEflashBlankCheck, hon, hrange, hgood, hcomplete, hfind, not_true_eq_false, if_false]
  cases ((List.range (512 * n)).map (512 * x + ·)).find? fun w => s.eword w != erasedWord <;> rfl

/-- Every word erased. -/
theorem execEflashBlankCheck_of_blank (hblank : ∀ w, 512 * x ≤ w → w < 512 * (x + n) → s.eword w = erasedWord) :
    execEflashBlankCheck x n s = .next (s.romAnswer 0 0 0 noWord) := by
  have hfind : (((List.range (512 * n)).map (512 * x + ·)).find? fun w => s.eword w != erasedWord) = none := by
    simp only [List.find?_eq_none, List.mem_map, List.mem_range]
    rintro w ⟨i, hi, rfl⟩
    simp [hblank (512 * x + i) (by omega) (by omega)]
  rw [execEflashBlankCheck_of_complete hon hn hend hregion hsectors, hfind, Option.elim_none]

/-- The first word that is not. -/
theorem execEflashBlankCheck_of_programmed {w : Nat} (hlow : 512 * x ≤ w) (hhigh : w < 512 * (x + n)) (hw : s.eword w ≠ erasedWord)
    (hblank : ∀ v, 512 * x ≤ v → v < w → s.eword v = erasedWord) : execEflashBlankCheck x n s = .next (s.romAnswer 2 0 0 w) := by
  have hfind : (((List.range (512 * n)).map (512 * x + ·)).find? fun w => s.eword w != erasedWord) = some w := by
    rw [List.find?_map, Option.map_eq_some_iff]
    refine ⟨w - 512 * x, ?_, by omega⟩
    rw [List.find?_range_eq_some]
    refine ⟨?_, List.mem_range.mpr (by omega), fun j hj => ?_⟩
    · simpa [Nat.add_sub_cancel' hlow] using hw
    · simpa using hblank (512 * x + j) (by omega) (by omega)
  rw [execEflashBlankCheck_of_complete hon hn hend hregion hsectors, hfind, Option.elim_some]

end

/-- A half three-quarters used is compacted. -/
theorem execConfigStoreCompaction_of_used (hinput : s.power.brownOut = false) (hused : 3 * configHalfWords ≤ 4 * s.eflash.configUsed) :
    execConfigStoreCompaction s = .next { s with eflash := { s.eflash with
      configHalf := 1 - s.eflash.configHalf
      configUsed := 16 * (s.eflash.config.length + s.eflash.retirements.length) } } :=
  if_neg (by simp [hon, hinput, hused])

end

/-- Settles O28: each request passes its checks, and its row's effect follows. -/
theorem eflashCommandsComplete : Obligations.EflashCommandsComplete := by
  refine ⟨?read, ?program, ?erase, ?blank, ?compaction⟩
  case read =>
    intro a s hon hrange hecc hgood hcomplete
    exact execEflashRead_of_complete hon hrange hecc hgood hcomplete
  case program =>
    intro a v need s hon hrange hregion hgood hinput hcomplete _ herased hneed
    exact execEflashProgram_of_erased hon hrange hregion hgood hinput hcomplete herased hneed
  case erase =>
    intro x need s hon hlow hhigh hgood hinput hneed
    exact execEflashErase_of_writable hon hlow hhigh hgood hinput hneed
  case blank =>
    intro x n s hon hn1 hn8 hend hregion hsectors
    exact ⟨execEflashBlankCheck_of_blank hon ⟨hn1, hn8⟩ hend hregion hsectors,
      fun w => execEflashBlankCheck_of_programmed hon ⟨hn1, hn8⟩ hend hregion hsectors⟩
  case compaction =>
    intro s hon hinput hused
    exact execConfigStoreCompaction_of_used hon hinput hused

end Sys2Proof.Machine
end

section
/-!
What the commands of the sensors, of the power cap and of the recorder do (R481, R485 to R502).
-/

namespace Sys2Proof.Machine

/-! ### Sensors, the trip and the power cap (R485 to R491) -/

section
variable {s : State}

/-- A sample that is due takes the readings, integrates the energy, and lets the limits act. -/
theorem execSensorSample_of_due (vals : List (Nat × Int × Bool)) (hs : List (Nat × Nat × Nat)) (idle : List Nat) (hon : s.kettleOn = true)
    (hdue : s.kettle.sampleTick + 64 ≤ s.tick) {r u v : State} (hr : r = s.takeSamples vals idle)
    (hu : u = ((r.countUnits 0x01 0 0 ((r.reading 202).toNat * 65536) 10000000).countUnits 0x01 0 1
      ((rails.map r.railEnergy).sum) 1000000000000).sampleLines hs (s.railInvalid || r.railInvalid))
    (hv : v = u.kettle.floorWait.foldl State.floorAnswer u) :
    execSensorSample vals hs idle s = .next ({ v with kettle := { v.kettle with floorWait := [] } } : State).checkThermal := by
  subst hr hu hv
  exact if_neg (by simp [hon, hdue])

theorem execRailMonitorRecalibrate_of_rail {n : Nat} (hon : s.kettleOn = true) (hrail : rails.contains n = true) : execRailMonitorRecalibrate n s =
    .next { s with kettle := { s.kettle with recal := sput s.kettle.recal n (s.tick + 128) } } :=
  if_neg (by simp only [hon, hrail, not_true_eq_false, or_self, not_false_eq_true])

/-- A trip whose sensor has been clear for 1 s ends. -/
theorem execThermalTripClear_of_clear {t n : Nat} (hclear : s.power.clearSince = some t) (htrip : s.power.trip = true)
    (hdue : t + ticksMs 1000 ≤ s.tick) (hn : n = s.fget kettle_TRIP_SENSOR 0) {u v : State}
    (hu : u = { s with power := { s.power with trip := false } })
    (hv : v = (u.fset kettle_THERMAL_CEILING 0 5).fset kettle_THERMAL_STATE 0 (if 358 ≤ s.fget kettle_COMPOSITE_K 0 then 1 else 0)) :
    execThermalTripClear s = .next ((v.recEv 0x01 0 0x0600 ([n, 0] ++ le (unsigned ((s.thermal n).getD 0) 16) 2) 0xFF false true).pldmEvent
      [5, n, 0]).driveOp := by
  subst hn hu hv
  simp only [execThermalTripClear, hclear, htrip, hdue.not_gt, not_true_eq_false, or_self, if_false]

/-- A cap of 0 W, or from 400 W to 2,000 W, is taken over both paths. -/
theorem execPowerCapWrite_of_legal {v : Nat} (hon : s.kettleOn = true) (hup : s.hostUp = true) (hlegal : v = 0 ∨ (400 ≤ v ∧ v ≤ 2000)) :
    execPowerCapWrite v false s = .next (s.setCap v) ∧ execPowerCapWrite v true s = .next ((s.setCap v).mctpAnswer [0]) := by
  have hok : capOk v = true := by simpa [capOk] using hlegal
  constructor
  · simp [execPowerCapWrite, hon, hup, hok]
  · simp [execPowerCapWrite, hon, hok, State.mctpAnswer]

/-- With no cap the end of a window shows the mean input power. -/
theorem execPowerCapWindow_of_uncapped (hon : s.kettleOn = true) (hcount : s.kettle.capCount ≠ 0)
    (hdue : s.kettle.capSince + ticksMs 100 ≤ s.tick) (hcap : s.fget kettle_POWER_CAP 0 = 0) : execPowerCapWindow s =
    .next { s.fset kettle_INPUT_MW 0 (s.kettle.capSum / s.kettle.capCount) with
      kettle := { s.kettle with capSum := 0, capCount := 0, capSince := s.tick } } := by
  have hends : ¬ (¬ s.kettleOn = true ∨ s.kettle.capCount = 0 ∨ s.tick < s.kettle.capSince + ticksMs 100) := by simp [hon, hcount, hdue]
  exact (if_neg hends).trans (if_pos hcap)

/-! ### The recorder (R496 to R499) -/

theorem execRecorderEntryAccept_of_waiting {e : RecEntry} (hnext : nextEntry s.kettle.waiting = some e) (hon : s.kettleOn = true) {u : State}
    (hu : u = { s with kettle := { s.kettle with waiting := s.kettle.waiting.eraseP fun x => x == e } }) :
    execRecorderEntryAccept s = .next ((u.ringTake e).enterDropped e.cls e.inst) := by
  subst hu
  simp only [execRecorderEntryAccept, hnext, hon, not_true_eq_false, if_false]

/-- A recorder that runs is frozen. -/
theorem State.freeze_of_running (cause : Nat) (hruns : s.fget rec_FROZEN 0 = 0) : s.freeze cause = s.freezeRing cause := if_pos hruns

theorem execRecorderFreeze_of_running (hon : s.kettleOn = true) (hruns : s.fget rec_FROZEN 0 = 0) :
    execRecorderFreeze 5 s = .next (s.freezeRing 5) := by
  rw [← State.freeze_of_running 5 hruns]
  exact if_neg (by simp [hon])

theorem execHostFreeze_of_running (hup : s.hostUp = true) (hruns : s.fget rec_FROZEN 0 = 0) : execHostFreeze false s = .next (s.freezeRing 6) := by
  rw [← State.freeze_of_running 6 hruns]
  simp [execHostFreeze, hup, hruns]

/-- UNFREEZE ends the host's own freeze. -/
theorem execUnfreeze_of_hostFrozen (hup : s.hostUp = true) (hfrozen : s.fget rec_FROZEN 0 = 1) (hcause : s.fget rec_FREEZE_CAUSE 0 = 6) :
    execUnfreeze false s = .next (((s.fset rec_FROZEN 0 0).fset rec_FREEZE_CAUSE 0 0).fset rec_SECOND_CAUSE 0 0) := by
  simp [execUnfreeze, hup, hfrozen, hcause, State.unfreeze]

end

section
variable {s : State} {k : Nat} (hwaits : s.kettle.persistWait = true) (hready : s.readySlot = some k)
include hwaits hready

/-- A record write that does not end leaves its slot PARTIAL. -/
theorem State.persist_cut {u : State} (hu : u = { s with kettle := { s.kettle with persistWait := false } }) :
    s.persist false = u.fset (rec_SLOT k) 0 2 := by
  subst hu
  have hslot : State.readySlot { s with kettle := { s.kettle with persistWait := false } } = some k := hready
  simp [State.persist, hwaits, hslot]

/-- A record write that ends leaves its slot WRITTEN, with the ring as it stood. -/
theorem State.persist_whole : (s.persist true).fget (rec_SLOT k) 0 = 1 ∧ sget? (s.persist true).kettle.records k = some s.kettle.ring := by
  have hslot : State.readySlot { s with kettle := { s.kettle with persistWait := false } } = some k := hready
  have hkey : (rec_SLOT k).key 0 ≠ (rec_SEQ k).key 0 := by
    unfold rec_SLOT rec_SEQ
    split <;> decide
  have hwidth : 1 % 2 ^ (rec_SLOT k).width = 1 := by
    unfold rec_SLOT
    split <;> decide
  simp only [State.persist, hwaits, hslot, not_true_eq_false, if_false]
  refine ⟨?_, by simp⟩
  exact (State.fget_fset_ne _ _ _ _ _ _ hkey).trans ((State.fget_fset_self ..).trans hwidth)

end

theorem execMctpSetEndpointId_of_legal {s : State} {eid : Nat} (hup : s.mctpUp = true) (hlow : eid ≠ 0) (hhigh : eid < 0xFF) :
    execMctpSetEndpointId eid s = .next (({ s with kettle := { s.kettle with eid := eid } } : State).mctpAnswer [0, eid]) :=
  (if_neg (by simp [hup])).trans (if_neg (by simp [hlow, hhigh]))

/-- Settles O27: each command passes its guards, and its row's effect follows. -/
theorem kettleAndRecorderCommandsComplete : Obligations.KettleAndRecorderCommandsComplete := by
  refine ⟨?sample, ?recalibrate, ?clear, ?cap, ?window, ?accept, ?freeze, ?hostFreeze, ?unfreeze, ?persist, ?eid⟩
  case sample =>
    intro vals hs idle s hon hdue
    exact ⟨_, _, _, rfl, rfl, rfl, execSensorSample_of_due vals hs idle hon hdue rfl rfl rfl⟩
  case recalibrate =>
    intro n s hon hrail
    exact execRailMonitorRecalibrate_of_rail hon hrail
  case clear =>
    intro t s hclear htrip hdue
    exact ⟨_, _, rfl, rfl, execThermalTripClear_of_clear hclear htrip hdue rfl rfl rfl⟩
  case cap =>
    intro v s hon hup hlegal
    exact execPowerCapWrite_of_legal hon hup hlegal
  case window =>
    intro s hon hcount hdue hcap
    exact execPowerCapWindow_of_uncapped hon hcount hdue hcap
  case accept =>
    intro e s hnext hon
    exact ⟨_, rfl, execRecorderEntryAccept_of_waiting hnext hon rfl⟩
  case freeze =>
    intro s hon hruns
    exact execRecorderFreeze_of_running hon hruns
  case hostFreeze =>
    intro s hup hruns
    exact execHostFreeze_of_running hup hruns
  case unfreeze =>
    intro s hup hfrozen hcause
    exact execUnfreeze_of_hostFrozen hup hfrozen hcause
  case persist =>
    intro k s hwaits hready
    obtain ⟨hslot, hrecord⟩ := State.persist_whole hwaits hready
    exact ⟨_, rfl, congrArg _ (State.persist_cut hwaits hready rfl), _, rfl, hslot, hrecord⟩
  case eid =>
    intro eid s hup hlow hhigh
    exact execMctpSetEndpointId_of_legal hup hlow hhigh

end Sys2Proof.Machine
end

section
/-!
What the commands of firmware updates do, over NVMe and over PLDM (R520 to R525).
-/

namespace Sys2Proof.Machine

/-! ### Updates over NVMe (R521, R525) -/

section
variable {s : State} {cmd : CmdId} (htakes : s.takes cmd = true) (hkept : s.turnedAway cmd true = false) (hfn : cmd.fn = 0)
  (howner : s.fget glob_UPDATE_OWNER 0 ≠ 2)
include htakes hkept hfn howner

/-- A piece inside the package limit that overlaps no other is staged. -/
theorem execFirmwareImageDownload_of_apart {off : Nat} {data : List Byte} (hlimit : off + data.length ≤ packageMax)
    (hapart : (s.boot.pieces.any fun p => decide (off < p.1 + p.2) && decide (p.1 < off + data.length)) = false) {u : State}
    (hu : u = ((s.pcie 64 data.length).fset glob_UPDATE_OWNER 0 1).fset glob_UPDATE_STATE 0 1) : execFirmwareImageDownload cmd off data s =
    .next (({ u with boot := { u.boot with
      pieces := (off, data.length) :: u.boot.pieces, image := u.boot.image.writeL off data } } : State).succeed cmd) := by
  subst hu
  simp only [execFirmwareImageDownload, htakes, hkept, hfn, howner, hlimit.not_gt, hapart, not_true_eq_false, ne_eq, Bool.false_eq_true, if_false]

/-- CA 2 activates a committed slot that does not run. -/
theorem execFirmwareCommitActivate_of_committed {fs k : Nat} (hplain : (s.stagedOk && keyPackage s.stagedImage) = false) (hfs : fs ≤ 2)
    (hk : k = (if fs = 0 then s.otherSlot else fs)) (hother : k ≠ s.boot.runSlot) (hcommitted : (s.fwSlot k).committed = true)
    (hgood : (s.fwSlot k).failed = false) : execFirmwareCommitActivate cmd fs s = .next ((s.slotEvent k 2).showBoot.succeed cmd) := by
  subst hk
  have hfirmware : ¬ (s.stagedOk = true ∧ keyPackage s.stagedImage = true) := by simpa using hplain
  simp only [execFirmwareCommitActivate, htakes, hkept, hfn, howner, hfirmware, hfs.not_gt, hother, hcommitted, hgood, not_true_eq_false, ne_eq,
    Bool.false_eq_true, or_self, if_false]

omit htakes hkept

/-- A key package that passes the checks takes effect, or is an invalid image. -/
theorem State.commitImage_of_keys (fs : Nat) (act whole : Bool) (hok : s.stagedOk = true) (hkeys : keyPackage s.stagedImage = true) :
    s.commitImage cmd fs act whole =
      (s.applyKeys s.stagedImage).elim (s.endUpdate.complete cmd 1 0x07) (fun t => t.endUpdate.succeed cmd) := by
  simp only [State.commitImage, hfn, howner, hok, hkeys, ne_eq, not_true_eq_false, and_self, if_false, if_true]
  cases s.applyKeys s.stagedImage <;> rfl

/-- A firmware package that passes the checks is written to the slot that does not run; one that fails them is an invalid image. -/
theorem State.commitImage_of_firmware {fs k : Nat} (act : Bool) (hfs : fs ≤ 2) (hk : k = (if fs = 0 then s.otherSlot else fs))
    (hother : k ≠ s.boot.runSlot) (hfirmware : ¬ (s.stagedOk = true ∧ keyPackage s.stagedImage = true)) : s.commitImage cmd fs act true =
      if s.stagedOk = true then ((s.writeSlot k s.stagedImage act true).endUpdate).succeed cmd else s.endUpdate.complete cmd 1 0x07 := by
  subst hk
  simp only [State.commitImage, hfn, howner, hfirmware, hfs.not_gt, hother, ne_eq, not_true_eq_false, or_self, if_false, if_true, ite_not]

/-- What a commit of what is staged does, by what it is. -/
theorem State.commitImage_eq {fs k : Nat} (act : Bool) (hfs : fs ≤ 2) (hk : k = (if fs = 0 then s.otherSlot else fs))
    (hother : k ≠ s.boot.runSlot) : s.commitImage cmd fs act true = if s.stagedOk = true then
        (if keyPackage s.stagedImage = true then
          (s.applyKeys s.stagedImage).elim (s.endUpdate.complete cmd 1 0x07) (fun t => t.endUpdate.succeed cmd)
        else ((s.writeSlot k s.stagedImage act true).endUpdate).succeed cmd)
      else s.endUpdate.complete cmd 1 0x07 := by
  by_cases hkeyed : s.stagedOk = true ∧ keyPackage s.stagedImage = true
  · rw [if_pos hkeyed.1, if_pos hkeyed.2, State.commitImage_of_keys hfn howner fs act true hkeyed.1 hkeyed.2]
  · rw [State.commitImage_of_firmware hfn howner act hfs hk hother hkeyed]
    exact if_ctx_congr Iff.rfl (fun hok => (if_neg fun hkeys => hkeyed ⟨hok, hkeys⟩).symm) fun _ => rfl

end

section
variable {s : State} {cmd : CmdId} (htakes : s.takes cmd = true) (hkept : s.turnedAway cmd true = false)
include htakes hkept

theorem execFirmwareCommitWrite_taken (fs : Nat) (whole : Bool) :
    execFirmwareCommitWrite cmd fs whole s = .next (s.commitImage cmd fs false whole) := by
  simp only [execFirmwareCommitWrite, htakes, hkept, not_true_eq_false, Bool.false_eq_true, if_false]

theorem execFirmwareCommitWriteActivate_taken (fs : Nat) (whole : Bool) :
    execFirmwareCommitWriteActivate cmd fs whole s = .next (s.commitImage cmd fs true whole) := by
  simp only [execFirmwareCommitWriteActivate, htakes, hkept, not_true_eq_false, Bool.false_eq_true, if_false]

/-- CA 0 and CA 1 of a key package that passes the checks; nothing of what is staged otherwise. -/
theorem execKeyPackageCommit_taken {ca : Nat} (hfn : cmd.fn = 0) (hca : ca < 2) : execKeyPackageCommit cmd ca s =
    .next (if s.stagedOk = true ∧ keyPackage s.stagedImage = true then s.commitImage cmd 0 false true else s) := by
  have hlow : ¬ 3 ≤ ca := by omega
  have hwrite : ca ≠ 2 := by omega
  simp only [execKeyPackageCommit, htakes, hkept, hfn, hlow, hwrite, not_true_eq_false, ne_eq, Bool.false_eq_true, if_false, ite_not]
  split <;> rfl

end

/-! ### Updates over PLDM (R522, R524) -/

section
variable {s : State} (hup : s.mctpUp = true)
include hup

theorem execPldmRequestUpdate_of_unlocked (howner : s.fget glob_UPDATE_OWNER 0 = 0) :
    execPldmRequestUpdate s = .next (((s.fset glob_UPDATE_OWNER 0 2).fset glob_UPDATE_STATE 0 1).mctpAnswer [0]) := by
  simp [execPldmRequestUpdate, hup, howner]

theorem execPldmUpdateComponent_of_locked (howner : s.fget glob_UPDATE_OWNER 0 = 2) :
    execPldmUpdateComponent 0x3072 s = .next (s.beginPldm.mctpAnswer [0]) := by
  simp [execPldmUpdateComponent, hup, howner]

theorem execPldmCancelUpdate_of_locked (howner : s.fget glob_UPDATE_OWNER 0 = 2) : execPldmCancelUpdate s =
    .next (({ s with boot := { s.boot with pldmSlot := none } } : State).endUpdate.mctpAnswer [0]) := by
  simp [execPldmCancelUpdate, hup, howner]

section
variable {k : Nat} (hslot : s.boot.pldmSlot = some k)
include hslot

/-- A piece of 256 to 1,024 bytes is gathered; the whole package is written where it passes the checks. -/
theorem execPldmFirmwareData_of_locked {off : Nat} {data : List Byte} (howner : s.fget glob_UPDATE_OWNER 0 = 2)
    (hlow : 256 ≤ data.length) (hhigh : data.length ≤ 1024) (hlimit : off + data.length ≤ packageMax) {u : State}
    (hu : u = s.pldmPut off data) :
    (u.pldmWhole = false → execPldmFirmwareData off data true s = .next u) ∧
    (u.pldmWhole = true → s.boot.romRecovery = false → execPldmFirmwareData off data true s =
      .next (if u.packageOk u.stagedImage = true ∧ firmwarePackage u.stagedImage = true then (u.writeSlot k u.stagedImage false true).endUpdate
        else ({ u with boot := { u.boot with pldmSlot := none } } : State).endUpdate)) := by
  subst hu
  have hfits : ¬ (¬ s.mctpUp = true ∨ s.fget glob_UPDATE_OWNER 0 ≠ 2 ∨ data.length < 256 ∨ 1024 < data.length ∨
      packageMax < off + data.length) := by
    simp only [hup, howner, hlow.not_gt, hhigh.not_gt, hlimit.not_gt, not_true_eq_false, ne_eq, or_self, not_false_eq_true]
  constructor
  · intro hpart
    simp only [execPldmFirmwareData, hslot, hfits, hpart, Bool.false_eq_true, not_false_eq_true, if_false, if_true]
  · intro hwhole hrom
    simp only [execPldmFirmwareData, hslot, hfits, hwhole, hrom, not_true_eq_false, Bool.false_eq_true, and_false, if_false]
    split <;> rfl

/-- A committed slot is activated, at once or with the next restart. -/
theorem execPldmActivateFirmware_of_committed (now : Bool) (hcommitted : (s.fwSlot k).committed = true) (hgood : (s.fwSlot k).failed = false)
    {u : State} (hu : u = (s.slotEvent k 2).showBoot) : execPldmActivateFirmware now s = .next (({ u with boot := { u.boot with
      pldmSlot := none, restart := if now then 5 else u.boot.restart } } : State).mctpAnswer [0]) := by
  subst hu
  simp only [execPldmActivateFirmware, hup, hslot, hcommitted, hgood, not_true_eq_false, Bool.false_eq_true, or_self, if_false]

end

end

/-- Settles O30: each command is taken, and its row's effect follows. -/
theorem firmwareUpdateCommandsComplete : Obligations.FirmwareUpdateCommandsComplete := by
  refine ⟨?download, ?commit, ?activate, ?keys, ?request, ?component, ?data, ?activatePldm, ?cancel⟩
  case download =>
    intro cmd off data s htakes hkept hfn howner hlimit hapart
    exact ⟨_, rfl, execFirmwareImageDownload_of_apart htakes hkept hfn howner hlimit hapart rfl⟩
  case commit =>
    intro cmd fs k s keyed bad htakes hkept hfn howner hfs hk hother hbad hkeyed
    rw [hkeyed, hbad]
    exact ⟨(execFirmwareCommitWrite_taken htakes hkept fs true).trans (congrArg _ (State.commitImage_eq hfn howner false hfs hk hother)),
      (execFirmwareCommitWriteActivate_taken htakes hkept fs true).trans (congrArg _ (State.commitImage_eq hfn howner true hfs hk hother))⟩
  case activate =>
    intro cmd fs k s htakes hkept hfn howner hplain hfs hk hother hcommitted hgood
    exact execFirmwareCommitActivate_of_committed htakes hkept hfn howner hplain hfs hk hother hcommitted hgood
  case keys =>
    intro cmd ca s keyed htakes hkept hfn hca howner hkeyed
    rw [hkeyed]
    refine (execKeyPackageCommit_taken htakes hkept hfn hca).trans (congrArg _ ?_)
    exact if_ctx_congr Iff.rfl (fun hkeys => State.commitImage_of_keys hfn howner 0 false true hkeys.1 hkeys.2) fun _ => rfl
  case request =>
    intro s hup howner
    exact execPldmRequestUpdate_of_unlocked hup howner
  case component =>
    intro s hup howner
    exact execPldmUpdateComponent_of_locked hup howner
  case data =>
    intro off k data u s hslot hup howner hlow hhigh hlimit hu
    exact execPldmFirmwareData_of_locked hup hslot howner hlow hhigh hlimit hu
  case activatePldm =>
    intro k now s hslot hup hcommitted hgood
    exact ⟨_, rfl, execPldmActivateFirmware_of_committed hup hslot now hcommitted hgood rfl⟩
  case cancel =>
    intro s hup howner
    exact execPldmCancelUpdate_of_locked hup howner

end Sys2Proof.Machine
end

section
/-!
What the commands of the flash command path do (R336, R397 to R415).
-/

namespace Sys2Proof.Machine

/-! ### Programs (R403, R436) -/

section
variable {s : State} {c : Nat}

/-- A program of the next wordlines of the USER stream that the tracker accepts takes the staged IUs that wait. -/
theorem execFlashProgram_of_accepted {np b pos l : Nat} {ls : List Nat} {s0 : State} (hfitted : colanderFitted s.variant c = true) (hnp : np ≠ 0)
    (hnp6 : np ≤ 6) (hwaits : s.toProgram c ≠ []) (hserves : s.packageRetired c = false) (hready : s.ftl.ready = true)
    (hopen : s.openNext c 0 true = some ((b, pos), s0)) (hlines : s0.wordlines c b pos (min np (ceilDiv (s.toProgram c).length 3)) = l :: ls)
    (hkeys : s0.keysHere c ((s.toProgram c).take (3 * (l :: ls).length)) = true) (hdie : s0.dieRefuses c (locDie l) = none)
    (hidle : s0.dieOp c (locDie l) = none) (hreal : s0.injectLeft 0x22 0 3 = 0)
    (htracked : ∀ m ∈ l :: ls, (s0.block (m / 2048)).st < 2 ∧ (s0.block (m / 2048)).next = locPage m) {u : State}
    (hu : u = (s0.programWls (l :: ls) (s.toProgram c)).setPos c 0 b (pos + 3 * (l :: ls).length)) (done : Bool) :
    execFlashProgram c np done s =
      .next (if done = true then u else u.setDieOp c (locDie l) (some (s.newOp 1 ((l :: ls).map (· / 2048))))) := by
  subst hu
  have hbegins : ¬ (¬ colanderFitted s.variant c = true ∨ np = 0 ∨ 6 < np ∨ (s.toProgram c).isEmpty = true ∨ s.packageRetired c = true ∨
      ¬ s.ftl.ready = true) := by simp [hfitted, hnp, hnp6, hwaits, hserves, hready]
  have hgood : ¬ ((l :: ls).any fun m => decide ((s0.block (m / 2048)).st = 4)) = true := by
    rw [List.any_eq_true]
    rintro ⟨m, hm, hbad⟩
    have := (htracked m hm).1
    simp only [decide_eq_true_eq] at hbad
    omega
  have hnext : ¬ ((l :: ls).any fun m => decide ((s0.block (m / 2048)).st ≥ 2 ∨ (s0.block (m / 2048)).next ≠ locPage m)) = true := by
    rw [List.any_eq_true]
    rintro ⟨m, hm, hbad⟩
    obtain ⟨hst, hplace⟩ := htracked m hm
    simp only [decide_eq_true_eq] at hbad
    omega
  have hfree : ¬ (s0.dieOp c (locDie l)).isSome = true := by simp [hidle]
  simp only [execFlashProgram, hbegins, hopen, hlines, hkeys, hdie, hfree, hreal, hgood, hnext, not_true_eq_false, ne_eq,
    Bool.false_eq_true, if_false]

/-- A failed program closes the block, and the staged IUs of its last wordline wait again. -/
theorem execFlashProgramFail_of_programming {d k b key l : Nat} {mine : Nat → Bool} (hfitted : colanderFitted s.variant c = true)
    (hplace : d < 16 ∧ k < 6 ∧ b < 2208) (hkey : key = blockKey c d k b) (hused : (s.block key).st ≠ 0) (hgood : (s.block key).st ≠ 4)
    (hbegun : 3 ≤ (s.block key).next) (hnew : s.ftl.failed.contains key = false) (hl : l = key * 2048 + ((s.block key).next - 3))
    (hmine : ∀ m, mine m = (decide (l ≤ m) && decide (m < l + 3))) (hstaged : ∃ y ∈ s.ftl.staging, y.loc.any mine = true) :
    execFlashProgramFail c d k b s = .next (s.failProgram c d key l mine) := by
  obtain rfl : mine = fun m => decide (l ≤ m) && decide (m < l + 3) := funext hmine
  subst hl hkey
  obtain ⟨hd, hk, hb⟩ := hplace
  have hholds : ¬ (s.ftl.staging.all fun y => !(y.loc.any fun m => decide (blockKey c d k b * 2048 + ((s.block (blockKey c d k b)).next - 3) ≤ m) &&
      decide (m < blockKey c d k b * 2048 + ((s.block (blockKey c d k b)).next - 3) + 3))) = true := by
    obtain ⟨y, hy, hloc⟩ := hstaged
    rw [List.all_eq_true]
    exact fun hall => by simpa [hloc] using hall y hy
  simp only [execFlashProgramFail, hfitted, hd.not_ge, hk.not_ge, hb.not_ge, hused, hgood, hbegun.not_gt, hnew, hholds, not_true_eq_false,
    Bool.false_eq_true, or_self, if_false]

/-- A staged IU whose wordline and stripe have programmed is committed. -/
theorem execStagingSlotCommit_of_done {seq l : Nat} {x : Staged} (hx : s.stagedSeq seq = some x) (hloc : x.loc = some l)
    (hdone : s.stripeDone l = true) (hidle : s.dieOp (locCol l) (locDie l) = none) : execStagingSlotCommit seq s =
    .next (((s.setDieOp (locCol l) (locDie l) none).commitStaged x l).settleBad) := by
  simp only [execStagingSlotCommit, hx, hloc, hdone, hidle, not_true_eq_false, if_false]

/-! ### Erases (R404, R406, R407) -/

section
variable {d b k key : Nat} (hfitted : colanderFitted s.variant c = true) (hplace : d < 16 ∧ b < 2208 ∧ k < 6) (hkey : key = blockKey c d k b)
  (hunused : ∀ m ∈ s.validLocs, m / 2048 ≠ key) (hclosed : s.isOpen c b = false) (hdie : s.dieRefuses c d = none) (hgood : (s.block key).st ≠ 4)
  (hinput : s.power.brownOut = false)
include hfitted hplace hkey hunused hclosed hdie hgood hinput

omit hdie in
/-- The guards of an erase of one block. -/
theorem eraseGuards : ([k].filter (· < 6)).eraseDups.map (fun k => blockKey c d k b) = [key] ∧
    ¬ (¬ colanderFitted s.variant c = true ∨ 16 ≤ d ∨ 2208 ≤ b ∨ [key].isEmpty = true ∨
      (s.validLocs.any fun m => [key].contains (m / 2048)) = true ∨ s.isOpen c b = true) ∧
    ¬ ([key].any fun k => decide ((s.block k).st = 4)) = true ∧ ¬ s.power.brownOut = true := by
  obtain ⟨hd, hb, hk⟩ := hplace
  have hvalid : ¬ (s.validLocs.any fun m => [key].contains (m / 2048)) = true := by simpa using hunused
  refine ⟨by simp [hk, hkey, List.eraseDups_cons], ?_, by simpa using hgood, by simp [hinput]⟩
  simp only [hfitted, hd.not_ge, hb.not_ge, hvalid, hclosed, not_true_eq_false, List.isEmpty_cons, Bool.false_eq_true, or_self, not_false_eq_true]

/-- An erase of an unused block begins on an idle die. -/
theorem execFlashErase_begins (hidle : s.dieOp c d = none) :
    execFlashErase c d b [k] 0 [] s = .next (s.setDieOp c d (some (s.newOp 2 [key]))) := by
  obtain ⟨hks, hbegins, hblocks, hpower⟩ := eraseGuards hfitted hplace hkey hunused hclosed hgood hinput
  simp only [execFlashErase, hks, hbegins, hdie, hblocks, hpower, hidle, Option.isSome_none, Bool.false_eq_true, false_and, if_false, if_true]

/-- It ends with the block ERASED, or, where the die reports its plane, BAD. -/
theorem execFlashErase_ends {o : DieOp} (hop : s.dieOp c d = some o) (hkind : o.kind = 2) (hblocks : o.blocks = [key])
    (hrunning : o.suspendedAt = none) (bad : List Nat) : execFlashErase c d b [k] 1 bad s = .next
      ((if bad.contains (locPlane (key * 2048)) = true then (((s.setDieOp c d none).flashStatus (key * 2048) 0x12).markBad key)
        else (s.setDieOp c d none).eraseBlock key).countErase c b) := by
  obtain ⟨hks, hbegins, hgoods, hpower⟩ := eraseGuards hfitted hplace hkey hunused hclosed hgood hinput
  simp only [execFlashErase, hks, hbegins, hdie, hgoods, hpower, hop, hkind, hblocks, hrunning, Option.isSome_some, Option.isNone_none,
    beq_self_eq_true, Bool.and_self, one_ne_zero, ne_eq, not_false_eq_true, and_self, not_true_eq_false, and_false, Bool.false_eq_true,
    List.foldl_cons, List.foldl_nil, if_false]

end

end

/-! ### Reads (R399, R400, R409 to R415) -/

section
variable {s s0 : State} {c d k b p l : Nat} (hfitted : colanderFitted s.variant c = true) (hplace : d < 16 ∧ k < 6 ∧ b < 2208 ∧ p < 1152)
  (hon : s.fget (hdr_STATE 0x21) c = 2) (hkept : (s.dieRetired c d && s.nand.relocated.contains (16 * c + d)) = false)
  (hstep : s.channelStep c d ≠ 3) (hgood : (s.block (blockKey c d k b)).st ≠ 4) (hready : s.suspendFor c d = some s0)
  (hl : l = mkLoc c d k b p)
include hfitted hplace hon hkept hstep hgood hready hl

omit hstep hgood hready hl in
/-- What admits a read. -/
theorem readGuards : ¬ (¬ colanderFitted s.variant c = true ∨ 16 ≤ d ∨ 6 ≤ k ∨ 2208 ≤ b ∨ 1152 ≤ p ∨ s.fget (hdr_STATE 0x21) c ≠ 2) ∧
    ¬ (s.dieRetired c d = true ∧ s.nand.relocated.contains (16 * c + d) = true) := by
  obtain ⟨hd, hk, hb, hp⟩ := hplace
  refine ⟨?_, by simpa only [Bool.and_eq_false_iff, not_and_or, Bool.not_eq_true] using hkept⟩
  simp only [hfitted, hd.not_ge, hk.not_ge, hb.not_ge, hp.not_ge, hon, not_true_eq_false, ne_eq, or_self, not_false_eq_true]

/-- A programmed page that decodes at step 0 counts a read of its block. -/
theorem execFlashRead_of_decoded {x : Page} (member : Nat) (own : Bool) (hpage : sget? s.nand.pages l = some x) (hkey : s.keyMissing c x.iu = false)
    (hdecodes : s.ladderStep l 0 = 0) {u : State} (hu : u = s0.countRead (blockKey c d k b)) :
    execFlashRead c d k b p 0 member own s = .next ((if own then u.countOwn c else u).suspect l false) := by
  subst hl hu
  obtain ⟨hserved, hcurrent⟩ := readGuards (k := k) (b := b) hfitted hplace hon hkept
  simp only [execFlashRead, hserved, hcurrent, hstep, hgood, hpage, hkey, hready, hdecodes, false_and, Bool.false_eq_true, if_false,
    Nat.reduceLeDiff, if_true]

/-- A page that is not programmed says so. -/
theorem execFlashRead_of_erased (member : Nat) (own : Bool) (hpage : sget? s.nand.pages l = none) (herased : s.readsErased l = true) {u : State}
    (hu : u = s0.countRead (blockKey c d k b)) : execFlashRead c d k b p 0 member own s = .next (u.flashStatus l 0x03) := by
  subst hl hu
  obtain ⟨hserved, hcurrent⟩ := readGuards (k := k) (b := b) hfitted hplace hon hkept
  simp only [execFlashRead, hserved, hcurrent, hstep, hgood, hpage, hready, herased, false_and, if_false, if_true]

end

/-! ### Keys, suspended operations, timeouts and calibration (R336, R401, R415) -/

section
variable {s : State} {c d : Nat}

theorem execFlashKeyLoad_of_range {slot first n ns : Nat} (hrange : s.rangeOf slot = some (ns, first, n))
    (hfitted : colanderFitted s.variant c = true) (hlow : 64 ≤ slot) (hhigh : slot < 72) (hon : s.fget (hdr_STATE 0x21) c = 2)
    (hnew : s.ftl.keysLoaded.contains (128 * c + slot) = false) (hopen : s.lockedAt ns first false = false) :
    execFlashKeyLoad c slot s = .next { s with ftl := { s.ftl with keysLoaded := s.ftl.keysLoaded ++ [128 * c + slot] } } := by
  simp only [execFlashKeyLoad, hrange, hfitted, hlow.not_gt, hhigh.not_ge, hon, hnew, hopen, not_true_eq_false, ne_eq, Bool.false_eq_true, or_self,
    if_false]

theorem execProgramEraseResume_of_suspended {t : Nat} {o : DieOp} (hop : s.dieOp c d = some o) (hsuspended : o.suspendedAt = some t)
    (hinput : o.kind = 2 → s.power.brownOut = false) :
    execProgramEraseResume c d s = .next (s.setDieOp c d (some { o with since := s.tick, suspendedAt := none })) := by
  have hresumes : ¬ (o.suspendedAt.isNone = true ∨ (o.kind = 2 ∧ s.power.brownOut = true)) := by simpa [hsuspended] using hinput
  simp only [execProgramEraseResume, hop, hresumes, if_false]

/-- A timeout is noted; the first is cured, and a second within 1 s condemns the die. -/
theorem execDieTimeout_of_serving (hfitted : colanderFitted s.variant c = true) (hd : d < 16) (hkept : s.dieRetired c d = false) {u : State}
    (hu : u = { s with nand := { s.nand with timeouts := sput s.nand.timeouts (16 * c + d) s.tick } }) :
    (sget? s.nand.timeouts (16 * c + d) = none → execDieTimeout c d s = .next (u.err 0x21 c [2] (d / 2 * 256))) ∧
    (∀ t, sget? s.nand.timeouts (16 * c + d) = some t → s.tick < t + secTicks → execDieTimeout c d s =
      .next (((u.setDieOp c d none).flashStatus (mkLoc c d 0 0 0) 0x20).condemn c d)) := by
  subst hu
  have hserves : ¬ (¬ colanderFitted s.variant c = true ∨ 16 ≤ d ∨ s.dieRetired c d = true) := by simp [hfitted, hd, hkept]
  constructor
  · intro hfirst
    simp only [execDieTimeout, hserves, hfirst, Bool.false_eq_true, if_false]
  · intro t hlast hsoon
    simp only [execDieTimeout, hserves, hlast, hsoon, decide_true, if_false, if_true]

theorem execZqCalibration_of_due (hfitted : colanderFitted s.variant c = true) (hd : d < 16) (hkept : s.dieRetired c d = false)
    (hchannel : s.channelDead c d = false) (hidle : s.dieOp c d = none) (hdue : ∀ (t : Nat) (x : Int), sget? s.nand.zq (16 * c + d) = some (t, x) →
      t + secTicks ≤ s.tick ∨ 160 < (s.nandTemp c - x).natAbs) :
    execZqCalibration c d s = .next { s with nand := { s.nand with zq := sput s.nand.zq (16 * c + d) (s.tick, s.nandTemp c) } } := by
  cases hlast : sget? s.nand.zq (16 * c + d) with
  | none => simp [execZqCalibration, hfitted, hd, hkept, hchannel, hidle, hlast]
  | some p =>
    have hagain := hdue p.1 p.2 hlast
    simp [execZqCalibration, hfitted, hd, hkept, hchannel, hidle, hlast, hagain]

theorem execThresholdTemperatureUpdate_of_due {term : Int} (hfitted : colanderFitted s.variant c = true) (hd : d < 16)
    (hdue : ∀ t, sget? s.nand.tempTick (16 * c + d) = some t → t + secTicks ≤ s.tick) : execThresholdTemperatureUpdate c d term s =
    .next { s with nand := { s.nand with
      tempTerm := sput s.nand.tempTerm (16 * c + d) term, tempTick := sput s.nand.tempTick (16 * c + d) s.tick } } := by
  cases hlast : sget? s.nand.tempTick (16 * c + d) with
  | none => simp [execThresholdTemperatureUpdate, hfitted, hd, hlast]
  | some t => simp [execThresholdTemperatureUpdate, hfitted, hd, hlast, hdue t hlast]

end

/-- Settles O23: each command passes its guards, and its row's effect follows. -/
theorem flashCommandsComplete : Obligations.FlashCommandsComplete := by
  refine ⟨?program, ?fail, ?commit, ?erase, ?read, ?keyLoad, ?resume, ?timeout, ?calibration, ?temperature⟩
  case program =>
    intro c np b pos l ls s0 s hfitted hnp hnp6 hwaits hserves hready hopen hlines hkeys hdie hidle hreal htracked
    have hprogram := execFlashProgram_of_accepted hfitted hnp hnp6 hwaits hserves hready hopen hlines hkeys hdie hidle hreal htracked rfl
    exact ⟨_, rfl, hprogram true, hprogram false⟩
  case fail =>
    intro c d k b key l mine s hfitted hd hk hb hkey hused hgood hbegun hnew hl hmine hstaged
    exact execFlashProgramFail_of_programming hfitted ⟨hd, hk, hb⟩ hkey hused hgood hbegun hnew hl hmine hstaged
  case commit =>
    intro seq l x s hx hloc hdone hidle
    exact execStagingSlotCommit_of_done hx hloc hdone hidle
  case erase =>
    intro c d b k key s hfitted hd hb hk hkey hunused hclosed hdie hgood hinput
    refine ⟨execFlashErase_begins hfitted ⟨hd, hb, hk⟩ hkey hunused hclosed hdie hgood hinput, fun o hop hkind hblocks hrunning => ?_⟩
    have hends := execFlashErase_ends hfitted ⟨hd, hb, hk⟩ hkey hunused hclosed hdie hgood hinput hop hkind hblocks hrunning
    exact ⟨hends [], (hends _).trans (by rw [if_pos (by simp)])⟩
  case read =>
    intro c d k b p member l own s0 s hfitted hd hk hb hp hon hkept hstep hgood hready hl
    exact ⟨_, rfl, fun x hpage hkey hdecodes =>
        execFlashRead_of_decoded hfitted ⟨hd, hk, hb, hp⟩ hon hkept hstep hgood hready hl member own hpage hkey hdecodes rfl,
      fun hpage herased => execFlashRead_of_erased hfitted ⟨hd, hk, hb, hp⟩ hon hkept hstep hgood hready hl member own hpage herased rfl⟩
  case keyLoad =>
    intro c slot first n ns s hrange hfitted hlow hhigh hon hnew hopen
    exact execFlashKeyLoad_of_range hrange hfitted hlow hhigh hon hnew hopen
  case resume =>
    intro c d t o s hop hsuspended hinput
    exact execProgramEraseResume_of_suspended hop hsuspended hinput
  case timeout =>
    intro c d s hfitted hd hkept
    exact ⟨_, rfl, execDieTimeout_of_serving hfitted hd hkept rfl⟩
  case calibration =>
    intro c d s hfitted hd hkept hchannel hidle hdue
    exact execZqCalibration_of_due hfitted hd hkept hchannel hidle hdue
  case temperature =>
    intro c d term s hfitted hd hdue
    exact execThresholdTemperatureUpdate_of_due hfitted hd hdue

end Sys2Proof.Machine
end

section
/-!
What the commands of the translation layer and of the retirement of dies, channels and packages do (R398, R417 to R422, R434, R440, R445 to R449).
-/

namespace Sys2Proof.Machine

/-! ### The journal and collection (R440, R446 to R448) -/

section
variable {s : State}

theorem execJournalFlush_of_due (hready : s.ftl.ready = true) (hwaits : s.ftl.records ≠ 0)
    (hdue : 64 * mib ≤ s.ftl.sinceFlush ∨ s.fget64 ftl_FLUSH_TICK_LO ftl_FLUSH_TICK_HI 0 + ticksMs 50 ≤ s.tick) :
    execJournalFlush s = .next s.flush :=
  if_pos ⟨hready, hwaits, hdue⟩

theorem execMapEccReload_of_segment {seg : Nat} (hready : s.ftl.ready = true) (hseg : seg < mapSegments s.variant) :
    execMapEccReload seg s = .next (s.err 0x22 0 [8] (64 * seg)) :=
  if_pos ⟨hready, hseg⟩

theorem execGcStart_of_low {c : Nat} (hfitted : colanderFitted s.variant c = true) (hcollects : s.collects = true)
    (hidle : s.ftl.collecting.contains c = false) (hserves : s.packageRetired c = false) (hlow : (s.freeSbs c).length < 8) :
    execGcStart c s = .next { s with ftl := { s.ftl with collecting := s.ftl.collecting ++ [c] } } :=
  if_neg (by simp only [hfitted, hcollects, hidle, hserves, hlow.not_ge, not_true_eq_false, Bool.false_eq_true, or_self, not_false_eq_true])

theorem execGcStop_of_high {c : Nat} (hcollecting : s.ftl.collecting.contains c = true) (hhigh : 12 ≤ (s.freeSbs c).length) :
    execGcStop c s = .next { s with ftl := { s.ftl with collecting := s.ftl.collecting.filter (· ≠ c) } } :=
  if_neg (by simp only [hcollecting, hhigh.not_gt, not_true_eq_false, or_self, not_false_eq_true])

section
variable (hcollects : s.collects = true)
include hcollects

/-- A moving IU that is not SUSPECT is copied on its package, where that has room. -/
theorem execGcCopyCommit_of_room {iu src : Nat} {p : Page} {u : State} (hmoving : s.moving src = true)
    (hreads : (s.mapEntry iu).st = 2 → (s.mapEntry iu).loc ≠ src) (hpage : sget? s.nand.pages src = some p) (hiu : p.iu = iu)
    (hcopy : s.copyPage iu src (locCol src) = some u) : execGcCopyCommit iu src s = .next u.settleBad := by
  have hmoves : ¬ (¬ s.collects = true ∨ ¬ s.moving src = true ∨ ((s.mapEntry iu).st == 2 && (s.mapEntry iu).loc == src) = true ∨
      (sget? s.nand.pages src).all (fun p => decide (p.iu ≠ iu)) = true) := by
    simpa [hcollects, hmoving, hpage, hiu] using hreads
  exact (if_neg hmoves).trans (by rw [hcopy])

section
variable {iu l : Nat} (hsuspect : (s.mapEntry iu).st = 2) (hl : (s.mapEntry iu).loc = l)
  (hmoves : s.moving l = true ∨ l / 2048 ∈ s.ftl.refresh ∨ locCol l ∈ s.ftl.evacuating)
include hsuspect hl hmoves

/-- What admits the relocation of a SUSPECT IU. -/
theorem suspectGuards : ¬ (¬ s.collects = true ∨ (s.mapEntry iu).st ≠ 2 ∨ ¬ (s.moving (s.mapEntry iu).loc = true ∨
    s.ftl.evacuating.contains (locCol (s.mapEntry iu).loc) = true ∨ s.ftl.refresh.contains ((s.mapEntry iu).loc / 2048) = true)) := by
  simp only [hcollects, hsuspect, hl, List.contains_iff_mem, not_true_eq_false, ne_eq, false_or, not_not]
  tauto

/-- A SUSPECT IU that has to move and does not decode is LOST. -/
theorem execSuspectIuRelocate_lost : execSuspectIuRelocate iu false s =
    .next ((s.setMap iu 3 0).err 0x22 0 [11] (locCol l + 64 * locBlock l)).settleBad := by
  have hguards := suspectGuards hcollects hsuspect hl hmoves
  subst hl
  exact (if_neg hguards).trans (if_neg Bool.false_ne_true)

/-- One that decodes moves. -/
theorem execSuspectIuRelocate_moved {u : State}
    (hcopy : s.copyPage iu l (if s.packageRetired (locCol l) then s.packageOf (iuTier iu) else locCol l) = some u) :
    execSuspectIuRelocate iu true s = .next u.settleBad := by
  have hguards := suspectGuards hcollects hsuspect hl hmoves
  subst hl
  refine (if_neg hguards).trans ((if_pos rfl).trans ?_)
  rw [hcopy]

end

/-- A superblock that is due and holds no valid IU leaves the refresh list. -/
theorem execRetentionRefresh_of_empty {c b : Nat} (hfitted : colanderFitted s.variant c = true) (hserves : s.packageRetired c = false)
    (hdue : s.refreshDue c b = true) (hclosed : s.isOpen c b = false) (hempty : s.validIn c b = []) : execRetentionRefresh c b s =
    .next ({ s with ftl := { s.ftl with
      refresh := s.ftl.refresh.filter fun k => !(locCol (k * 2048) == c && locBlock (k * 2048) == b) } } : State).settleBad := by
  simp only [execRetentionRefresh, hfitted, hcollects, hclosed, hserves, hdue, hempty, List.foldl_nil, not_true_eq_false, Bool.false_eq_true, or_self,
    if_false]

end

/-- The next tier page of an evacuated package moves. -/
theorem execPackageShed_of_evacuated {c dest tk : Nat} {tks : List Nat} {u : State} (hfitted : colanderFitted s.variant c = true)
    (hready : s.ftl.ready = true) (hidle : s.sanitizing = false) (hevacuated : s.ftl.evacuating.contains c = true)
    (hleaving : s.leaving c = tk :: tks) (htaker : s.takerOf tk = some dest) (hmove : s.moveTier tk dest = some u) :
    execPackageShed c s = .next u := by
  simp only [execPackageShed, hfitted, hready, hidle, hevacuated, hleaving, htaker, hmove, not_true_eq_false, Bool.false_eq_true, or_self, false_and,
    if_false, if_true, Option.getD_some]

/-! ### Channels, dies and packages (R398, R420 to R422, R449) -/

/-- The fourth retraining of a channel in an hour steps it down; at step 3 it is retired. -/
theorem execOnfiChannelStepDown_of_fourth {c ch : Nat} (ok : Bool) (hfitted : colanderFitted s.variant c = true) (hch : ch < 8)
    (hlive : s.nand.dead.contains (8 * c + ch) = false) (hstep : sget s.nand.rateStep (8 * c + ch) 0 < 3)
    (hthree : 3 ≤ ((sget s.nand.retrains (8 * c + ch) []).filter fun t => decide (s.tick < t + hourTicks)).length) {u : State}
    (hu : u = { s with nand := { s.nand with
      retrains := serase s.nand.retrains (8 * c + ch), rateStep := sput s.nand.rateStep (8 * c + ch) (sget s.nand.rateStep (8 * c + ch) 0 + 1) } }) :
    execOnfiChannelStepDown c ch ok s = .next (if sget s.nand.rateStep (8 * c + ch) 0 = 2 then
        (u.fsetBit col_CH_RETIRED c ch).recordRetirement 0x21 c (16 + ch)
      else { u with eflash := { u.eflash with retirements := u.eflash.retirements ++ [(0x21, c, 16 + ch)] } }) := by
  subst hu
  have hserves : ¬ (¬ colanderFitted s.variant c = true ∨ 8 ≤ ch ∨ s.nand.dead.contains (8 * c + ch) = true) := by
    simp only [hfitted, hch.not_ge, hlive, not_true_eq_false, Bool.false_eq_true, or_self, not_false_eq_true]
  have hfour : ¬ ((s.tick :: ((sget s.nand.retrains (8 * c + ch) []).filter fun t => decide (s.tick < t + hourTicks))).length < 4) := by
    rw [List.length_cons]
    omega
  refine (if_neg hserves).trans ((if_neg hstep.ne).trans ((if_neg hfour).trans ?_))
  by_cases hlast : sget s.nand.rateStep (8 * c + ch) 0 = 2
  · exact (if_pos (by omega)).trans (congrArg _ (if_pos hlast).symm)
  · exact (if_neg (by omega)).trans (congrArg _ (if_neg hlast).symm)

theorem execDieRetire_of_condemned {c d : Nat} (hcondemned : s.nand.condemned.contains (16 * c + d) = true) (hd : d < 16)
    (hkept : s.dieRetired c d = false) (hfitted : colanderFitted s.variant c = true) : execDieRetire c d s =
    .next (((((s.fsetBit col_DIE_RETIRED c d).recordRetirement 0x21 c d).unplace (s.lostWith c d)).closeAll c).refreshMargin) :=
  if_neg (by simp only [hcondemned, hd.not_ge, hkept, hfitted, not_true_eq_false, Bool.false_eq_true, or_self, not_false_eq_true])

/-- A retired die with nothing valid left ends its relocation. -/
theorem execDieRelocationComplete_of_empty {c d : Nat} (hretired : s.dieRetired c d = true)
    (hnew : s.nand.relocated.contains (16 * c + d) = false) (hempty : ∀ m ∈ s.validLocs, locCol m = c → locDie m ≠ d) :
    execDieRelocationComplete c d s = .next { s with nand := { s.nand with relocated := s.nand.relocated ++ [16 * c + d] } } := by
  have hleft : ¬ (s.validLocs.any fun m => locCol m == c && locDie m == d) = true := by simpa using hempty
  exact if_neg (by simp only [hretired, hnew, hleft, not_true_eq_false, Bool.false_eq_true, or_self, not_false_eq_true])

theorem execPackageRetire_of_failing {c : Nat} (hfitted : colanderFitted s.variant c = true) (hserves : s.packageRetired c = false)
    (hfails : s.packageFails c = true) {u : State} (hu : u = s.dropPackage c) :
    execPackageRetire c s = .next (if 3 < (u.packages.filter u.packageRetired).length then u.enterReadOnly 2 else u) := by
  subst hu
  exact if_neg (by simp [hfitted, hserves, hfails])

/-- An evacuated package with nothing left but what is SUSPECT or out of reach is RETIRED. -/
theorem execPackageEvacuationComplete_of_empty {c : Nat} (hevacuated : s.ftl.evacuating.contains c = true) (hleaving : s.leaving c = [])
    (hempty : ∀ l ∈ s.validLocs, locCol l = c → c ∈ s.ftl.unreach ∨ ∀ p, sget? s.nand.pages l = some p → (s.mapEntry p.iu).st = 2) {u : State}
    (hu : u = { s with ftl := { s.ftl with evacuating := s.ftl.evacuating.filter (· ≠ c) } }) :
    execPackageEvacuationComplete c s = .next ((u.toRetired 0x21 c).refreshMargin).flush := by
  subst hu
  have hleft : ¬ (s.validLocs.any fun l => locCol l == c && !s.ftl.unreach.contains c &&
      (sget? s.nand.pages l).any fun p => (s.mapEntry p.iu).st != 2) = true := by
    rw [List.any_eq_true]
    rintro ⟨l, hl, hvalid⟩
    simp only [Bool.and_eq_true, beq_iff_eq, Bool.not_eq_true', Option.any_eq_true, bne_iff_ne] at hvalid
    obtain ⟨⟨hcol, hreached⟩, p, hp, hst⟩ := hvalid
    rcases hempty l hl hcol with hunreached | hall
    · simp [hunreached] at hreached
    · exact hst (hall p hp)
  exact if_neg (by simp only [hevacuated, hleaving, hleft, not_true_eq_false, ne_eq, Bool.false_eq_true, or_self, not_false_eq_true])

end

/-- Settles O24: each command passes its guards, and its row's effect follows. -/
theorem translationAndRetirementCommandsComplete : Obligations.TranslationAndRetirementCommandsComplete := by
  refine ⟨?flush, fun s hready => if_pos hready, ?reload, ?start, ?stop, ?copy, ?suspect, ?refresh, ?shed, ?step, ?die, ?relocated, ?package,
    ?evacuated⟩
  case flush =>
    intro s hready hwaits hdue
    exact execJournalFlush_of_due hready hwaits hdue
  case reload =>
    intro seg s hready hseg
    exact execMapEccReload_of_segment hready hseg
  case start =>
    intro c s hfitted hcollects hidle hserves hlow
    exact execGcStart_of_low hfitted hcollects hidle hserves hlow
  case stop =>
    intro c s hcollecting hhigh
    exact execGcStop_of_high hcollecting hhigh
  case copy =>
    intro iu src p u s hcollects hmoving hreads hpage hiu hcopy
    exact execGcCopyCommit_of_room hcollects hmoving hreads hpage hiu hcopy
  case suspect =>
    intro iu l s hcollects hsuspect hl hmoves
    exact ⟨execSuspectIuRelocate_lost hcollects hsuspect hl hmoves, fun u => execSuspectIuRelocate_moved hcollects hsuspect hl hmoves⟩
  case refresh =>
    intro c b s hfitted hcollects hserves hdue hclosed hempty
    exact execRetentionRefresh_of_empty hcollects hfitted hserves hdue hclosed hempty
  case shed =>
    intro c dest tk tks u s hfitted hready hidle hevacuated hleaving htaker hmove
    exact execPackageShed_of_evacuated hfitted hready hidle hevacuated hleaving htaker hmove
  case step =>
    intro c ch ok s hfitted hch hlive hstep hthree
    have hsteps := execOnfiChannelStepDown_of_fourth ok hfitted hch hlive hstep hthree rfl
    exact ⟨_, rfl, fun hlow => hsteps.trans (congrArg _ (if_neg hlow.ne)), fun hlast => hsteps.trans (congrArg _ (if_pos hlast))⟩
  case die =>
    intro c d s hcondemned hd hkept hfitted
    exact execDieRetire_of_condemned hcondemned hd hkept hfitted
  case relocated =>
    intro c d s hretired hnew hempty
    exact execDieRelocationComplete_of_empty hretired hnew hempty
  case package =>
    intro c s hfitted hserves hfails
    exact ⟨_, rfl, execPackageRetire_of_failing hfitted hserves hfails rfl⟩
  case evacuated =>
    intro c s hevacuated hleaving hempty
    exact ⟨_, rfl, execPackageEvacuationComplete_of_empty hevacuated hleaving hempty rfl⟩

end Sys2Proof.Machine
end

section
/-!
What the commands of the Snilo Link ports do (R544 to R550, R555).
-/

namespace Sys2Proof.Machine

theorem Frame.snilo_eq {ps : List Part} {s t : State} (h : Frame ps s t) (hp : Part.snilo ∉ ps) : t.snilo = s.snilo := h.1 .snilo hp

/-! ### Frames received (R546, R548, R549) -/

section
variable {s : State} {port : Nat} (src : Nat) (hx : s.variant = .x) (hup : s.portUp port = true) (hwhole : s.rxCorrupt port = false)
include hx hup hwhole

/-- A request is dropped by a full queue; else the table entries allow it, and its bytes go, or a NAK answers it. -/
theorem execSniloReadReq_of_whole {a n : Nat} {u v : State} (hon : s.fget (hdr_STATE 0x30) port = 2) (hn : n ≠ 0) (hpage : a % 4096 + n ≤ 4096)
    (hu : u = s.frame port 64 src 0 false) (hv : v = u.wake.serve 5 0 3) :
    execSniloReadReq port src a n true s = .next (u.fbump snilo_REQ_DROPPED port 1) ∧
    (∀ bs : List Byte, v.t3Serve src a n = .ok bs → execSniloReadReq port src a n false s =
      .next ((((v.t3Served a n).count 0x30 port 2 1).countUnits 0x30 port 3 bs.length 4096).frame port 64 src bs.length true)) ∧
    (∀ reason : Nat, v.t3Serve src a n = .error reason → execSniloReadReq port src a n false s = .next (v.frame port 64 src 0 true)) := by
  subst hu hv
  have hserved : ¬ (s.variant ≠ .x ∨ s.fget (hdr_STATE 0x30) port ≠ 2 ∨ ¬ s.portUp port = true ∨ n = 0 ∨ 4096 < a % 4096 + n) := by
    simp [hx, hon, hup, hn, hpage]
  refine ⟨?_, fun bs hbs => ?_, fun reason hreason => ?_⟩
  · simp only [execSniloReadReq, hserved, hwhole, Bool.false_eq_true, if_false, if_true]
  · simp only [execSniloReadReq, hserved, hwhole, hbs, Bool.false_eq_true, if_false]
  · simp only [execSniloReadReq, hserved, hwhole, hreason, Bool.false_eq_true, if_false]

section
variable {tag : Nat} {r : SReq} (hmatch : s.match? (tagOf tag) = some r)
include hmatch

/-- The answer to an outstanding request ends it, goes to its move and is timed. -/
theorem execSniloReadRsp_of_match {data : List Byte} (hlen : data.length = r.len) : execSniloReadRsp tag data s port src =
    .next (((((s.endReq r).count 0x30 r.port 1 1).setPiece r.ch r.piece data).noteRtt r.port ((s.tick - r.first) * 1024 / 1000)).frame port
      (s.chCtx r.ch) src data.length false) := by
  have hserved : ¬ (s.variant ≠ .x ∨ ¬ s.portUp port = true) := by simp [hx, hup]
  have htaken : (s.match? (tagOf tag)).filter (fun r => data.length == r.len) = some r := by simp [hmatch, hlen]
  simp only [execSniloReadRsp, hserved, hwhole, htaken, Bool.false_eq_true, if_false]

/-- A NAK is noted; one of reason 1 to 4 ends the request and its move. -/
theorem execSniloNak_of_match (reason : Nat) {u : State}
    (hu : u = ((((s.frame port (s.chCtx r.ch) src 0 false).fbump snilo_NAKS_RECEIVED r.port 1).fset snilo_LAST_NAK_SLED r.port r.sled).fset
      snilo_LAST_NAK_REASON r.port reason).err 0x30 r.port [9] r.sled) : execSniloNak tag reason s port src =
    .next (if 1 ≤ reason ∧ reason ≤ 4 then (u.endReq r).t3Halt r.ch r.addr 0x5E (reason + 65536 * r.sled) else u) := by
  subst hu
  have hserved : ¬ (s.variant ≠ .x ∨ ¬ s.portUp port = true) := by simp [hx, hup]
  simp only [execSniloNak, hserved, hwhole, hmatch, Bool.false_eq_true, if_false]
  split <;> rfl

end

end

/-! ### Waits and credits (R548, R550) -/

section
variable {s : State} {ch port credit : Nat} {r : SReq} (hreq : s.reqAt ch port credit = some r)
include hreq

/-- A request whose wait has passed is sent again, and its wait doubles up to 3.2 ms. -/
theorem execSniloRetransmit_of_waited {via : Nat} (hdue : r.last + r.wait ≤ s.tick) (hvia : via < 2) (hup : s.portUp via = true)
    (hrunning : s.time.paused.contains via = false) : ∃ t, execSniloRetransmit ch port credit via s = .next t ∧
    t.snilo.reqs = s.snilo.reqs.map fun x => if x = r then { r with last := s.tick, wait := min (2 * r.wait) (ticksUs 3200) } else x := by
  have hport : via % 2 = via := Nat.mod_eq_of_lt hvia
  have hsends : ¬ (s.tick < r.last + r.wait ∨ ¬ s.portUp (via % 2) = true ∨ s.time.paused.contains (via % 2) = true) := by
    simp only [hport, hdue.not_gt, hup, hrunning, not_true_eq_false, Bool.false_eq_true, or_self, not_false_eq_true]
  have hexec : execSniloRetransmit ch port credit via s = .next ((({ s with snilo := { s.snilo with reqs := s.snilo.reqs.map fun x =>
      if x = r then { r with last := s.tick, wait := min (2 * r.wait) (ticksUs 3200) } else x } } : State).fbump snilo_RETRANSMITS
        (via % 2) 1).frame (via % 2) (s.chCtx r.ch) r.sled 0 true) := by
    simp only [execSniloRetransmit, hreq, hsends, if_false]
  exact ⟨_, hexec, congrArg SniloState.reqs ((State.frame_frame ..).snilo_eq (by decide))⟩

theorem execSniloRemoteTimeout_of_waited (hdue : r.first + ticksMs (s.fget snilo_REMOTE_TIMEOUT_MS 0) ≤ s.tick) :
    execSniloRemoteTimeout ch port credit s = .next (((s.endReq r).err 0x30 r.port [8] r.sled).t3Halt r.ch r.addr 0x0D r.sled) := by
  simp only [execSniloRemoteTimeout, hreq, hdue.not_gt, if_false]

end

/-! ### The tables (R544, R545, R555) -/

theorem length_loadEntries (s : State) (n size : Nat) : (s.loadEntries n size).length = n := by
  simp [State.loadEntries]

/-- A load that ends without a bad entry shows DONE and RESULT 0, and leaves the other fields. -/
theorem State.loadDone_zero (s : State) (bad : Nat) : (s.loadDone 0 bad).fget snilo_RESULT 0 = 0 ∧ (s.loadDone 0 bad).fget snilo_DONE 0 = 1 ∧
    (s.loadDone 0 bad).fget snilo_EXPORTS_VALID 0 = s.fget snilo_EXPORTS_VALID 0 ∧ (s.loadDone 0 bad).snilo = s.snilo := by
  refine ⟨?_, ?_, ?_, rfl⟩
  · exact (State.fget_fset_ne _ _ _ _ _ _ (by decide)).trans (State.fget_fset_self ..)
  · exact (State.fget_fset_ne _ _ _ _ _ _ (by decide)).trans ((State.fget_fset_ne _ _ _ _ _ _ (by decide)).trans (State.fget_fset_self ..))
  · exact (State.fget_fset_ne _ _ _ _ _ _ (by decide)).trans
      ((State.fget_fset_ne _ _ _ _ _ _ (by decide)).trans (State.fget_fset_ne _ _ _ _ _ _ (by decide)))

section
variable {s : State} (hx : s.variant = .x) (hon : s.planesOn = true)
include hx hon

theorem State.sniloOn_of_planesOn : s.sniloOn = true := by
  simp [State.sniloOn, hx, hon]

section
variable {f n : Nat} (hf : f = s.fget snilo_FIRST_ENTRY 0) (hcount : n = s.fget snilo_ENTRY_COUNT 0) (hn : n ≠ 0)
  (haligned : s.fget64 snilo_SRC_ADDR_LO snilo_SRC_ADDR_HI 0 % 64 = 0)
include hf hcount hn haligned

/-- Peer entries that are all well formed are loaded. -/
theorem execLoadPeers_of_good (hfits : f + n ≤ 32768) (hgood : (s.loadEntries n 64).all peerOk = true) : ∃ t, execLoadPeers s = .next t ∧
    t.snilo.peers = putEntries f (s.loadEntries n 64) s.snilo.peers ∧ t.fget snilo_RESULT 0 = 0 ∧ t.fget snilo_DONE 0 = 1 := by
  subst hf hcount
  have hon := State.sniloOn_of_planesOn hx hon
  have hbounds : ¬ (s.fget snilo_ENTRY_COUNT 0 = 0 ∨ 32768 < s.fget snilo_FIRST_ENTRY 0 + s.fget snilo_ENTRY_COUNT 0 ∨
      s.fget64 snilo_SRC_ADDR_LO snilo_SRC_ADDR_HI 0 % 64 ≠ 0) := by
    simp [hn, hfits, haligned]
  have htaken : (s.loadEntries (s.fget snilo_ENTRY_COUNT 0) 64).takeWhile peerOk = s.loadEntries (s.fget snilo_ENTRY_COUNT 0) 64 :=
    List.takeWhile_eq_self_iff.mpr (List.all_eq_true.mp hgood)
  obtain ⟨hresult, hdone, -, hsnilo⟩ := State.loadDone_zero (((({ s.fset snilo_OP 0 1 with snilo := { s.snilo with
    peers := putEntries (s.fget snilo_FIRST_ENTRY 0) (s.loadEntries (s.fget snilo_ENTRY_COUNT 0) 64) s.snilo.peers } } : State).work 64 17
      (64 * s.fget snilo_ENTRY_COUNT 0)).refreshReady)) 0
  refine ⟨_, ?_, (congrArg SniloState.peers (hsnilo.trans (((State.refreshReady_frame _).snilo_eq (by decide)).trans
    ((State.work_frame ..).snilo_eq (by decide))))), hresult, hdone⟩
  simp only [execLoadPeers, hon, hbounds, htaken, length_loadEntries, not_true_eq_false, if_false, if_true]
  rfl

/-- Windows that are all well formed, and overlap none, are loaded. -/
theorem execLoadExports_of_good (hfits : f + n ≤ 256) (hgood : (s.loadEntries n 32).all windowOk = true)
    (hapart : windowsOverlap (putEntries f (s.loadEntries n 32) s.snilo.exports) = false) : ∃ t, execLoadExports s = .next t ∧
    t.snilo.exports = putEntries f (s.loadEntries n 32) s.snilo.exports ∧ t.fget snilo_RESULT 0 = 0 ∧ t.fget snilo_DONE 0 = 1 := by
  subst hf hcount
  have hon := State.sniloOn_of_planesOn hx hon
  have hbounds : ¬ (s.fget snilo_ENTRY_COUNT 0 = 0 ∨ 256 < s.fget snilo_FIRST_ENTRY 0 + s.fget snilo_ENTRY_COUNT 0 ∨
      s.fget64 snilo_SRC_ADDR_LO snilo_SRC_ADDR_HI 0 % 64 ≠ 0) := by
    simp [hn, hfits, haligned]
  have htaken : (s.loadEntries (s.fget snilo_ENTRY_COUNT 0) 32).takeWhile windowOk = s.loadEntries (s.fget snilo_ENTRY_COUNT 0) 32 :=
    List.takeWhile_eq_self_iff.mpr (List.all_eq_true.mp hgood)
  let es := putEntries (s.fget snilo_FIRST_ENTRY 0) (s.loadEntries (s.fget snilo_ENTRY_COUNT 0) 32) s.snilo.exports
  obtain ⟨hresult, hdone, -, hsnilo⟩ := State.loadDone_zero ((({ (s.fset snilo_OP 0 2).work 64 17 (32 * s.fget snilo_ENTRY_COUNT 0) with
    snilo := { s.snilo with exports := es } } : State).fset snilo_EXPORTS_VALID 0 (es.filter fun (e : Nat × List Byte) => wKind e.2 != 0).length)) 0
  refine ⟨_, ?_, congrArg SniloState.exports hsnilo, hresult, hdone⟩
  simp only [execLoadExports, hon, hbounds, htaken, length_loadEntries, not_true_eq_false, if_false, if_true]
  exact if_neg (by simp only [State.fset_snilo, hapart, Bool.false_eq_true, not_false_eq_true])

end

theorem execClearExports_of_on : ∃ t, execClearExports s = .next t ∧ t.snilo.exports = [] ∧ t.fget snilo_EXPORTS_VALID 0 = 0 ∧
    t.fget snilo_RESULT 0 = 0 ∧ t.fget snilo_DONE 0 = 1 := by
  have hon := State.sniloOn_of_planesOn hx hon
  obtain ⟨hresult, hdone, hvalid, hsnilo⟩ := State.loadDone_zero
    (((({ s with snilo := { s.snilo with exports := [] } } : State).fset snilo_OP 0 3).fset snilo_EXPORTS_VALID 0 0)) 0
  exact ⟨_, if_neg (not_not_intro hon), congrArg SniloState.exports hsnilo, hvalid.trans (State.fget_fset_self ..), hresult, hdone⟩

theorem execSledIdWrite_of_idle (v : Nat) (hidle : s.snilo.reqs = []) :
    execSledIdWrite v s = .next ((s.fset snilo_SLED_ID 0 v).refreshReady) := by
  simp [execSledIdWrite, State.sniloOn_of_planesOn hx hon, hidle]

end

/-- Settles O18: each command by the lemma about it above. -/
theorem sniloCommandsComplete : Obligations.SniloCommandsComplete := by
  refine ⟨?readReq, ?readRsp, ?nak, ?retransmit, ?timeout, ?credits, ?loads, ?clear, ?sledId⟩
  case readReq =>
    intro port src a n u v s hx hon hup hn hpage hwhole hu hv
    exact execSniloReadReq_of_whole src hx hup hwhole hon hn hpage hu hv
  case readRsp =>
    intro port src tag data r s hx hup hwhole hmatch hlen
    exact execSniloReadRsp_of_match src hx hup hwhole hmatch hlen
  case nak =>
    intro port src tag reason r s hx hup hwhole hmatch
    have hexec := execSniloNak_of_match src hx hup hwhole hmatch reason rfl
    exact ⟨_, rfl, fun h1 h4 => hexec.trans (congrArg _ (if_pos ⟨h1, h4⟩)), fun h5 => hexec.trans (congrArg _ (if_neg (by omega)))⟩
  case retransmit =>
    intro ch port credit via r s hreq hdue hvia hup hrunning
    exact execSniloRetransmit_of_waited hreq hdue hvia hup hrunning
  case timeout =>
    intro ch port credit r s hreq hdue
    exact execSniloRemoteTimeout_of_waited hreq hdue
  case credits =>
    intro ch s hends
    exact if_neg (by simp [hends])
  case loads =>
    intro f n s hx hon hf hcount hn haligned
    exact ⟨execLoadPeers_of_good hx hon hf hcount hn haligned, execLoadExports_of_good hx hon hf hcount hn haligned⟩
  case clear =>
    intro s hx hon
    exact execClearExports_of_on hx hon
  case sledId =>
    intro v s hx hon hidle
    exact execSledIdWrite_of_idle hx hon v hidle

end Sys2Proof.Machine
end

section
/-!
What the descriptors of the Skimmer merge unit do (R371 to R376, R387).
-/

namespace Sys2Proof.Machine

/-! ### At decode (Table 14-7) -/

/-- A SKIM_MERGE whose record passes every check, with its ports free and room in OUT_LADLE, takes its place there and is in flight. -/
theorem State.mergeIssue_of_checked {c h a mode : Nat} {d : Desc} {r k : List Byte} {ps : List Span} {j : Job} {q : Channel} {s u : State}
    (hd : s.nextDesc c h 0x22 = .go d) (hmode : smMode d.w = mode) (hsource : s.tableSource d (smSel d.w) (smOff d.w) 128 = some a)
    (hr : r = s.sbRead h a 128) (hcheck : s.mergeCheck d r = none) (hk : k = (s.collection c d.x (mqColl r)).getD [])
    (hps : ps = smSpans d.w (d.t.regs h).base r k)
    (hj : j = { prog := if mode = 4 ∧ mqFilter r then (s.slotProg h c (mqFslot r)).getD [] else [],
                tables := if mode = 2 then (s.slotTables h (mqTslot r) (smQ d.w)).filterMap id else [],
                epoch := d.t.epochOf (clDomain k) })
    (hread : s.portBound h false ((ps.filter fun p => !p.write).flatMap Span.groups) = false)
    (hwrite : s.portBound h true ((ps.filter Span.write).flatMap Span.groups) = false)
    (hroom : (s.chan (64 * h + smOut d.w)).queue.length < 8) (hchan : s.fget (hdr_DRAIN 0x12) (64 * h + smOut d.w) ≠ 1)
    (hunit : s.fget (hdr_DRAIN 0x17) h ≠ 1)
    (hq : q = { s.chan (64 * h + smOut d.w) with queue := (s.chan (64 * h + smOut d.w)).queue ++ [d.outMove r j] })
    (hu : u = (((s.bind d false ((ps.filter fun p => !p.write).flatMap Span.groups)).bind d true ((ps.filter Span.write).flatMap Span.groups)).setChan
      (64 * h + smOut d.w) q).noteColl c (mqColl r)) :
    s.mergeIssue c h mode = .next ((ps.filter Span.write).foldl (fun (t : State) (p : Span) => t.noteSpan d p) (u.issue d (mqDstKind r))) := by
  subst hr hk hps hj hq hu
  have hthis : ¬ (smMode d.w ≠ mode ∧ smMode d.w ≤ 5) := fun h => h.1 hmode
  rw [State.mergeIssue, State.onDesc_of_go hd]
  simp only [hthis, hsource, hcheck, hread, hwrite, hroom.not_ge, hchan, hunit, Bool.false_eq_true, or_self, if_false]

/-- An EPOCH_ADVANCE that passes the checks of R387 is noted for the end of the task. -/
theorem execEpochAdvance_of_checked {c h : Nat} {d : Desc} {k : List Byte} {s : State} (hd : s.nextDesc c h 0x23 = .go d)
    (hcoll : s.collection c d.x (eaColl d.w) = some k) (hreserved : bits d.w 98 6 = 0) (hneigh : eaNeigh d.w = 0xFF) (hflag : bit d.w 29 = false)
    (hvisible : eaVisible d.w ≤ clRecords k) (hsan : s.sanitizing = false) (hmedia : s.fget glob_MEDIA_MODE 0 ≠ 1)
    (hdomains : (s.ftl.domains.filter fun p => p.2.live).length < 4096) :
    execEpochAdvance c h s = .next ((s.pass d fun t => { t with advances := t.advances ++ [(d.i, d.w)] }).noteColl c (eaColl d.w)) := by
  rw [execEpochAdvance, State.onDesc_of_go hd]
  simp only [hcoll, hreserved, hneigh, hflag, hvisible.not_gt, hsan, hmedia, hdomains.not_ge, ne_eq, not_true_eq_false, bne_self_eq_false,
    decide_false, Bool.false_and, Bool.or_self, Bool.false_eq_true, and_false, or_self, if_false]

/-! ### Completion (R376) -/

/-- No injection is armed on any of the bits listed. -/
theorem State.armed_eq_none {s : State} {c i : Nat} {bs : List Nat} (h : ∀ b ∈ bs, s.injectLeft c i b = 0) : s.armed c i bs = none := by
  simpa [State.armed] using h

section
variable {c h i : Nat} {e : Issued} {m : Move} {x : Ctx} {j : Job} {k : Collection} {s : State} (hissue : s.issueOf c h i = some e)
  (hcls : e.cls = 0x22) (hrun : (s.chan (64 * h + smOut e.word)).run = some m) (hx : s.ctx? c = some x) (hjob : m.job = some j)
  (hcoll : sget? s.near.collections (65536 * x.req.fn + mqColl m.record) = some k) (hctx : m.ctx = c) (hser : m.ser = e.ser)
  (hgranted : s.ungranted c e.ser = false) (hchan : s.fget (hdr_STATE 0x12) (64 * h + smOut e.word) = 2) (hunit : s.fget (hdr_STATE 0x17) h = 2)
  (hstall : s.injectLeft 0x17 h 1 = 0) (hbuffer : s.injectLeft 0x17 h 3 = 0) (hresidue : s.injectLeft 0x17 h 8 = 0)
include hissue hcls hrun hx hjob hcoll hctx hser hgranted hchan hunit hstall hbuffer hresidue

/-- An output whose operands and records show no fault is accepted, and leaves its channel. -/
theorem execSkimMergeComplete_of_sound {o : MOut} (hlist : s.listFault m = none) (hout : s.mergeOut m j k.bytes = some o)
    (hreads : s.mergeReadFault c h x m j k.bytes o = none) :
    execSkimMergeComplete c h i 0 s = .next ((s.endMerge c h m j k.bytes o).endMove (64 * h + smOut e.word) m) := by
  have harmed : s.armed 0x17 h [3, 8] = none := State.armed_eq_none (by simp [hbuffer, hresidue])
  simp only [execSkimMergeComplete, hissue, hx, hrun, hjob, hcoll, hcls, hctx, hser, hgranted, hchan, hunit, hstall, harmed, hlist, hout, hreads,
    ne_eq, not_true_eq_false, Bool.false_eq_true, Option.isSome_none, or_self, if_false]

/-- A residue error that the unit detects is MERGE_CHECK. -/
theorem execSkimMergeComplete_of_residue : execSkimMergeComplete c h i 1 s = .next ((s.err 0x17 h [8] 0 c).faultCtx c
    { code := 0x5D, index := i, hob := h, ucls := 0x17, uinst := h }) := by
  simp only [execSkimMergeComplete, hissue, hx, hrun, hjob, hcoll, hcls, hctx, hser, hgranted, hchan, hunit, hstall, hbuffer, hresidue,
    ne_eq, not_true_eq_false, Bool.false_eq_true, one_ne_zero, not_false_eq_true, or_self, true_or, if_false, if_true]

end

/-- Settles O20: at decode and at completion by the lemmas about them above. -/
theorem vectorSearchDescriptorsComplete : Obligations.VectorSearchDescriptorsComplete := by
  refine ⟨?issue, ?complete, ?advance⟩
  case issue =>
    intro c h a mode d r k ps j s hd hmode hsource hr hcheck hk hps hj hread hwrite hroom hchan hunit
    have hissue := State.mergeIssue_of_checked hd hmode hsource hr hcheck hk hps hj hread hwrite hroom hchan hunit rfl rfl
    refine ⟨_, _, _, rfl, rfl, rfl, ?_, ?_, ?_, ?_, ?_, ?_⟩ <;> rintro rfl <;> exact hissue
  case complete =>
    intro c h i e m x j k s hissue hcls hrun hx hjob hcoll hctx hser hgranted hchan hunit hstall hbuffer hresidue
    refine ⟨fun o hlist hout hreads => ?_, ?_⟩
    · exact execSkimMergeComplete_of_sound hissue hcls hrun hx hjob hcoll hctx hser hgranted hchan hunit hstall hbuffer hresidue hlist hout hreads
    · exact execSkimMergeComplete_of_residue hissue hcls hrun hx hjob hcoll hctx hser hgranted hchan hunit hstall hbuffer hresidue
  case advance =>
    intro c h d k s hd hcoll hreserved hneigh hflag hvisible hsan hmedia hdomains
    exact execEpochAdvance_of_checked hd hcoll hreserved hneigh hflag hvisible hsan hmedia hdomains

end Sys2Proof.Machine
end

section
/-!
What the descriptors of the Colanders do (R348 to R359).
-/

namespace Sys2Proof.Machine

/-! ### At decode (Table 13-11) -/

section
variable {c h : Nat} {d : Desc} {s : State}

/-- The descriptor that a Hob's sequencer goes on with is of the context and the Hob asked. -/
theorem State.nextDesc_go {k : Nat} (hd : s.nextDesc c h k = .go d) : d.c = c ∧ d.h = h := by
  simp only [State.nextDesc] at hd
  repeat' split at hd
  all_goals cases hd
  exact ⟨rfl, rfl⟩

/-- A descriptor of the mode asked is decoded as that mode says. -/
theorem State.onMode_of_go {k mode n top : Nat} (hd : s.nextDesc c h k = .go d) (hmode : bits d.w 12 n = mode) (f : Desc → State) :
    s.onMode c h k mode n top f = .next (f d) := by
  rw [State.onMode, State.onDesc_of_go hd, if_pos hmode]

/-- An output with its ports free and room in OUT_LADLE takes its place at the end of the channel's queue and is in flight. -/
theorem State.queueOut_of_room {out dst : Nat} {r : List Byte} {j : Job} {p : Span} (hc : d.c = c) (hh : d.h = h)
    (hports : s.portBound h true p.groups = false) (hroom : (s.chan (64 * h + out)).queue.length < 8)
    (hchan : s.fget (hdr_DRAIN 0x12) (64 * h + out) ≠ 1) :
    s.queueOut d out r j p dst = (((((s.bind d true p.groups).setChan (64 * h + out) { s.chan (64 * h + out) with
      queue := (s.chan (64 * h + out)).queue ++ [d.outMove r j] }).noteColl c (rqColl r)).issue d dst).noteSpan d p) := by
  simp only [State.queueOut, hc, hh, hports, hroom.not_ge, hchan, Bool.false_eq_true, or_self, if_false]

/-- FILTER LOAD with a valid image fills the context's slot on every Colander of the reach, and is issued. -/
theorem execFilterLoad_of_valid {a : Nat} {u : State} (hd : s.nextDesc c h 0x20 = .go d) (hmode : bits d.w 12 2 = 0) (hbody : filterBodyOk d.w = true)
    (hsource : s.tableSource d (flSel d.w) (flOff d.w) 2048 = some a) (himage : filterOk (s.sbRead h a 2048) = true) (hsan : s.sanitizing = false)
    (hports : s.portBound h false (if flSel d.w = 0 then [] else groupsOfHull a (a + 2047)) = false)
    (hu : u = { s with near := { s.near with
      fslots := (s.reach h).foldl (fun m k => sput m (fslotKey k c (flSlot d.w)) (s.sbRead h a 2048)) s.near.fslots } }) :
    execFilterLoad c h s = .next ((u.bind d false (if flSel d.w = 0 then [] else groupsOfHull a (a + 2047))).issue d) := by
  subst hu
  rw [execFilterLoad, State.onMode_of_go hd hmode]
  simp only [hbody, hsource, himage, hsan, hports, not_true_eq_false, Bool.false_eq_true, if_false]

/-- LOAD_TABLES fills the table slots of every Colander of the reach, and is issued. -/
theorem execSkimScanLoadTables_of_valid {a n : Nat} {gs : List Nat} {u : State} (hd : s.nextDesc c h 0x21 = .go d) (hmode : bits d.w 12 2 = 0)
    (hbody : scanBodyOk d.w = true) (hn : n = tableLen (skM d.w) (skCode4 d.w))
    (hsource : s.tableSource d (skSel d.w) (skOff d.w) (skQ d.w * n) = some a)
    (hgs : gs = (if skSel d.w = 0 then [] else groupsOfHull a (a + skQ d.w * n - 1))) (howner : s.fget (hdr_OWNER_CONTEXT 0x17) h = c)
    (hunit : s.outGone 0x17 h = none) (hsan : s.sanitizing = false) (hports : s.portBound h false gs = false)
    (hu : u = { s with near := { s.near with
      tslots := ((s.reach h).flatMap fun k => (List.range (skQ d.w)).map fun q => (k, q)).foldl (fun m kq =>
        sput m (64 * kq.1 + skSlot d.w + kq.2) (skM d.w, if skCode4 d.w then 4 else 8, s.sbRead h (a + kq.2 * n) n)) s.near.tslots } }) :
    execSkimScanLoadTables c h s = .next ((u.bind d false gs).issue d) := by
  subst hn hgs hu
  rw [execSkimScanLoadTables, State.onMode_of_go hd hmode]
  simp only [hbody, hsource, howner, hunit, hsan, hports, ne_eq, not_true_eq_false, Bool.false_eq_true, if_false]

section
variable {a : Nat} {r k : List Byte} {j : Job} {p : Span} {q : Channel}

/-- COUNT, BITMAP and GATHER, with a request that passes every check, take their place in OUT_LADLE. -/
theorem State.filterIssue_of_checked {mode : Nat} (hd : s.nextDesc c h 0x20 = .go d) (hmode : bits d.w 12 2 = mode) (hbody : filterBodyOk d.w = true)
    (hsource : s.tableSource d (flSel d.w) (flOff d.w) 64 = some a) (hr : r = s.sbRead h a 64) (hrequest : filterReqOk mode r = true)
    (hcheck : s.nearCheck d r (flOut d.w) false (decide (mode = 3)) (some (flSlot d.w)) []
      (fun q => filterLen mode (s.reach h).length (colWidth q (rqCol r)) r) = none) (hcoll : s.collection c d.x (rqColl r) = some k)
    (hj : j = { prog := (s.slotProg h c (flSlot d.w)).getD [], tables := [], epoch := d.t.epochOf (clDomain k) })
    (hp : p = rqSpan (d.t.regs h).base r (filterLen mode (s.reach h).length (colWidth k (rqCol r)) r))
    (hports : s.portBound h true p.groups = false) (hroom : (s.chan (64 * h + flOut d.w)).queue.length < 8)
    (hchan : s.fget (hdr_DRAIN 0x12) (64 * h + flOut d.w) ≠ 1)
    (hq : q = { s.chan (64 * h + flOut d.w) with queue := (s.chan (64 * h + flOut d.w)).queue ++ [d.outMove r j] }) :
    s.filterIssue c h mode =
      .next (((((s.bind d true p.groups).setChan (64 * h + flOut d.w) q).noteColl c (rqColl r)).issue d (rqKind r)).noteSpan d p) := by
  obtain ⟨hc, hh⟩ := State.nextDesc_go hd
  subst hr hj hp hq
  rw [State.filterIssue, State.onMode_of_go hd hmode]
  simp only [hbody, hsource, hrequest, hcheck, hcoll, not_true_eq_false, if_false]
  rw [State.queueOut_of_room hc hh hports hroom hchan]

/-- SCAN, with a request that passes every check, takes its place in OUT_LADLE with the tables of its slots. -/
theorem execSkimScanScan_of_checked (hd : s.nextDesc c h 0x21 = .go d) (hmode : bits d.w 12 2 = 1) (hbody : scanBodyOk d.w = true)
    (hsource : s.tableSource d (skSel d.w) (skOff d.w) 64 = some a) (hr : r = s.sbRead h a 64) (hrequest : scanReqOk r = true)
    (hcheck : s.nearCheck d r (skOut d.w) true false (if rqFilter r then some (rqSlot r) else none) (s.slotTables h (skSlot d.w) (skQ d.w))
      (fun _ => skQ d.w * (s.reach h).length * listBytes (rqK r)) = none) (hcoll : s.collection c d.x (rqColl r) = some k)
    (hj : j = { prog := if rqFilter r then (s.slotProg h c (rqSlot r)).getD [] else [],
                tables := (s.slotTables h (skSlot d.w) (skQ d.w)).filterMap id, epoch := d.t.epochOf (clDomain k) })
    (hp : p = rqSpan (d.t.regs h).base r (skQ d.w * (s.reach h).length * listBytes (rqK r))) (hports : s.portBound h true p.groups = false)
    (hroom : (s.chan (64 * h + skOut d.w)).queue.length < 8) (hchan : s.fget (hdr_DRAIN 0x12) (64 * h + skOut d.w) ≠ 1)
    (hq : q = { s.chan (64 * h + skOut d.w) with queue := (s.chan (64 * h + skOut d.w)).queue ++ [d.outMove r j] }) :
    execSkimScanScan c h s =
      .next (((((s.bind d true p.groups).setChan (64 * h + skOut d.w) q).noteColl c (rqColl r)).issue d (rqKind r)).noteSpan d p) := by
  obtain ⟨hc, hh⟩ := State.nextDesc_go hd
  subst hr hj hp hq
  rw [execSkimScanScan, State.onMode_of_go hd hmode]
  simp only [hbody, hsource, hrequest, hcheck, hcoll, not_true_eq_false, if_false]
  rw [State.queueOut_of_room hc hh hports hroom hchan]

end

end

/-! ### Completion and faults (R357, R359) -/

section
variable {c h i : Nat} {e : Issued} {s : State} (hissue : s.issueOf c h i = some e) (hcls : e.cls = 0x20 ∨ e.cls = 0x21)
include hissue hcls

/-- A LOAD with nothing before it completes. -/
theorem execColanderDescriptorComplete_of_load (hmode : bits e.word 12 2 = 0)
    (hfirst : (s.earlier c h e.ser [0x20, 0x21]).all (fun k => s.runsJob c k.ser) = true) :
    execColanderDescriptorComplete c h i s = .next (s.descDone c e.ser) := by
  have hnear : ¬ (e.cls ≠ 0x20 ∧ e.cls ≠ 0x21) := by omega
  simp only [execColanderDescriptorComplete, hissue, hnear, hmode, hfirst, if_false, if_true]

/-- An output whose job meets no fault and no injection is accepted, and leaves its channel. -/
theorem execColanderDescriptorComplete_of_sound {ch : Nat} {m : Move} {x : Ctx} {j : Job} {k : Collection} (hmode : bits e.word 12 2 ≠ 0)
    (hch : ch = 64 * h + (if e.cls = 0x20 then flOut e.word else skOut e.word)) (hrun : (s.chan ch).run = some m) (hx : s.ctx? c = some x)
    (hjob : m.job = some j) (hcoll : sget? s.near.collections (65536 * x.req.fn + rqColl m.record) = some k) (hctx : m.ctx = c)
    (hser : m.ser = e.ser) (hgranted : s.ungranted c e.ser = false) (hfault : s.jobFault m j = none) (hchan : s.fget (hdr_STATE 0x12) ch = 2)
    (harmed : s.colanderArmed (((s.reachRecords h k.bytes (rqFirst m.record) (rqCount m.record)).map (s.recColander k.bytes)).eraseDups)
      (e.cls == 0x21) = none) :
    execColanderDescriptorComplete c h i s = .next ((s.endOutput c h e m j k.bytes).endMove ch m) := by
  have hnear : ¬ (e.cls ≠ 0x20 ∧ e.cls ≠ 0x21) := by omega
  subst hch
  simp only [execColanderDescriptorComplete, hissue, hnear, hmode, hrun, hx, hjob, hcoll, hctx, hser, hgranted, hfault, hchan, harmed, ne_eq,
    not_true_eq_false, Bool.false_eq_true, Option.isSome_none, or_self, if_false]

/-- A fault met while running sets its error bit and faults the context. -/
theorem execColanderRunFault_of_kind {kind col code : Nat} (info : Nat) {x : Ctx} (hx : s.ctx? c = some x)
    (hcol : colanderFitted s.variant col = true) (hlow : 1 ≤ kind) (hhigh : kind ≤ 6)
    (hcode : code = (if kind = 1 then 0x0C else if kind = 2 then 0x56 else if kind = 5 then 0x21 else 0x57)) :
    execColanderRunFault c h i kind col info s = .next ((s.colanderHit kind col info c).faultCtx c
      { code := code, index := i, case := 0, hob := h, ucls := 0x21, uinst := col, info := info }) := by
  have hnear : (e.cls == 0x20 || e.cls == 0x21) = true := by simpa using hcls
  subst hcode
  simp only [execColanderRunFault, hissue, hx, hnear, hcol, Bool.true_or, not_true_eq_false, or_self, if_false]
  interval_cases kind <;> rfl

end

/-- Settles O19: at decode, at completion and at a fault by the lemmas about them above. -/
theorem colanderDescriptorsComplete : Obligations.ColanderDescriptorsComplete := by
  refine ⟨?load, ?filter, ?tables, ?scan, ?loaded, ?output, ?fault⟩
  case load =>
    intro c h a d s hd hmode hbody hsource himage hsan hports
    exact ⟨{ s with near := { s.near with
      fslots := (s.reach h).foldl (fun m k => sput m (fslotKey k c (flSlot d.w)) (s.sbRead h a 2048)) s.near.fslots } },
      rfl, rfl, rfl, rfl, execFilterLoad_of_valid hd hmode hbody hsource himage hsan hports rfl⟩
  case filter =>
    intro c h a mode d r k j p s hd hmode hbody hsource hr hrequest hcheck hcoll hj hp hports hroom hchan
    have hissue := State.filterIssue_of_checked hd hmode hbody hsource hr hrequest hcheck hcoll hj hp hports hroom hchan rfl
    refine ⟨_, _, rfl, rfl, ?_, ?_, ?_⟩ <;> rintro rfl <;> exact hissue
  case tables =>
    intro c h a n gs d u s hd hmode hbody hn hsource hgs howner hunit hsan hports hu
    exact execSkimScanLoadTables_of_valid hd hmode hbody hn hsource hgs howner hunit hsan hports hu
  case scan =>
    intro c h a d r k j p s hd hmode hbody hsource hr hrequest hcheck hcoll hj hp hports hroom hchan
    exact ⟨_, rfl, execSkimScanScan_of_checked hd hmode hbody hsource hr hrequest hcheck hcoll hj hp hports hroom hchan rfl⟩
  case loaded =>
    intro c h i e s hissue hcls hmode hfirst
    exact execColanderDescriptorComplete_of_load hissue hcls hmode hfirst
  case output =>
    intro c h i ch e m x j k s hissue hcls hmode hch hrun hx hjob hcoll hctx hser hgranted hfault hchan harmed
    exact execColanderDescriptorComplete_of_sound hissue hcls hmode hch hrun hx hjob hcoll hctx hser hgranted hfault hchan harmed
  case fault =>
    intro c h i kind col info code e x s hissue hx hcls hcol hlow hhigh hcode
    exact execColanderRunFault_of_kind hissue hcls info hx hcol hlow hhigh hcode

end Sys2Proof.Machine
end

section
/-!
What the commands of the context manager do (R278 to R303).
-/

namespace Sys2Proof.Machine

/-! ### The CMD word and the contexts -/

theorem Frame.cp_eq {ps : List Part} {s t : State} (h : Frame ps s t) (hp : Part.cp ∉ ps) : t.cp = s.cp := h.1 .cp hp

/-- What each change of a fold keeps, the fold keeps. -/
theorem State.foldl_keeps {α β : Type} (g : State → β) {f : State → α → State} (hf : ∀ t a, g (f t a) = g t) (l : List α) (s : State) :
    g (l.foldl f s) = g s := by
  induction l generalizing s with
  | nil => rfl
  | cons a l ih => exact (ih _).trans (hf s a)

/-- A CMD write while the host is up and no command is BUSY takes its effect. -/
theorem State.onCmd_of_idle {s : State} (hu : s.hostUp = true) (hbusy : s.fget ctxm_BUSY 0 ≠ 1) (f : State → State) : s.onCmd f = .next (f s) := by
  simp only [State.onCmd, hu, hbusy, not_true_eq_false, if_false]

theorem State.setCtx_ctx?_ne {s : State} {c k : Nat} (x : Ctx) (h : c ≠ k) : (s.setCtx k x).ctx? c = s.ctx? c := by
  simp [State.setCtx, State.ctx?, h]

/-! ### Creation (R278, R280, R281) -/

/-- What follows the entry of a new context in the table changes no context. -/
theorem State.created_cp (s : State) (hs groups : List Nat) (c n : Nat) (r : Request) (ps : List (Nat × Nat)) :
    ((((hs.foldl (fun (t : State) h => t.showProgram c h (groups.getD h 48)) s).markWindows ps).addBatch c r ps).pcie c n).cp = s.cp :=
  calc _ = _ := (State.pcie_frame ..).cp_eq (by decide)
    _ = _ := (State.addBatch_frame ..).cp_eq (by decide)
    _ = _ := (State.markWindows_frame ..).cp_eq (by decide)
    _ = s.cp := State.foldl_keeps State.cp (fun t h => (t.showProgram_frame c h _).cp_eq (by decide)) hs s

/-- A creation with RESULT 0 leaves an IDLE context with no task. -/
theorem State.createContext_of_zero {s : State} {v : Nat} {q : Nat × Nat × State} (hq : s.createContext v = q) (hresult : q.1 = 0) :
    ∃ x, sget? q.2.2.cp.ctxs q.2.1 = some x ∧ x.st = .idle ∧ x.task = none := by
  simp only [State.createContext] at hq
  iterate 9
    split at hq
    · subst hq
      exact nomatch hresult
  subst hq
  rw [State.created_cp, sget?_sput, if_pos rfl]
  exact ⟨_, rfl, rfl, rfl⟩

section
variable {s : State} (hu : s.hostUp = true) (hbusy : s.fget ctxm_BUSY 0 ≠ 1)
include hu hbusy

theorem execCreateContext_of_idle (v : Nat) : execCreateContext v s =
    .next ((if (s.createContext v).1 = 0 then (s.createContext v).2.2 else s.pcie 64 256).cmdDone 1 0 v (s.createContext v).1
      (s.createContext v).2.1) :=
  State.onCmd_of_idle hu hbusy _

theorem execCreateContext_of_accepted {v : Nat} (hresult : (s.createContext v).1 = 0) : ∃ x t, execCreateContext v s = .next t ∧
    sget? t.cp.ctxs (s.createContext v).2.1 = some x ∧ x.st = .idle ∧ x.task = none := by
  obtain ⟨x, hx, hst, htask⟩ := State.createContext_of_zero rfl hresult
  have hexec := execCreateContext_of_idle hu hbusy v
  rw [if_pos hresult] at hexec
  exact ⟨x, _, hexec, hx, hst, htask⟩

/-- A refused creation leaves every context, page and host byte as it was. -/
theorem execCreateContext_of_refused {v : Nat} (hresult : (s.createContext v).1 ≠ 0) : ∃ t, execCreateContext v s = .next t ∧
    t.cp = s.cp ∧ t.tiers = s.tiers ∧ t.host = s.host := by
  have hexec := execCreateContext_of_idle hu hbusy v
  have hframe := (State.pcie_frame s 64 256).trans (State.cmdDone_frame _ 1 0 v (s.createContext v).1 (s.createContext v).2.1)
  rw [if_neg hresult] at hexec
  exact ⟨_, hexec, hframe.1 .cp (by decide), hframe.1 .tiers (by decide), hframe.1 .host (by decide)⟩

section
variable (hon : s.globalOn = true) {v : Nat} {x : Ctx} (hx : s.ctx? v = some x)
include hon hx

/-! ### Teardown, pre-emption and policy by CMD (R297, R298, R303) -/

/-- CMD_TEAR_DOWN puts a context into TEARING_DOWN, with its task gone. -/
theorem execCmdTearDown_of_held (hst : x.st ≠ .tearingDown) : ∃ (y : Ctx) (t : State), execCmdTearDown v s = .next t ∧ t.ctx? v = some y ∧
    y.st = .tearingDown ∧ y.task = none ∧ y.tearWord = true := by
  obtain ⟨y, hy, hyst, hytask⟩ : ∃ y : Ctx, (s.startTear v).ctx? v = some y ∧ y.st = .tearingDown ∧ y.task = none := by
    simp only [State.startTear, hx, hst, if_false, State.setCtx_ctx?]
    exact ⟨_, rfl, rfl, rfl⟩
  let s2 := ((((s.startTear v).fset ctxm_BUSY 0 1).fset ctxm_DONE 0 0).fset ctxm_OP 0 2).fset ctxm_CONTEXT 0 v
  have hy2 : s2.ctx? v = some y := hy
  refine ⟨{ y with tearWord := true }, s2.setCtx v { y with tearWord := true }, (State.onCmd_of_idle hu hbusy _).trans ?_,
    State.setCtx_ctx? .., hyst, hytask, rfl⟩
  simp only [hon, hx, hst, not_true_eq_false, if_false]
  exact congrArg Host.Outcome.next (by rw [hy2])

/-- CMD_PREEMPT decides a pre-emption of a running task: by force where the context is forceable and has passed a cheap point. -/
theorem execCmdPreempt_of_running {force : Bool} {t : Task} (htask : x.task = some t) (hissuing : x.issuing = true)
    (hforce : force = true → x.req.forceable = true ∧ t.checkpoint.isSome = true) : execCmdPreempt v force s =
    .next ((s.setCtx v { x with st := .preempting, preempt := (if force then 2 else 3), preemptTick := s.tick }).cmdDone 3 (b2n force) v 0 v) := by
  have hallowed : ¬ (force = true ∧ (¬ x.req.forceable = true ∨ ¬ t.passedYield = true)) := by
    rintro ⟨hf, hno⟩
    exact hno.elim (fun h => h (hforce hf).1) (fun h => h (hforce hf).2)
  refine (State.onCmd_of_idle hu hbusy _).trans ?_
  simp only [hon, hx, htask, hissuing, hallowed, State.preemptCtx, not_true_eq_false, if_false]

/-- CMD_SET_POLICY with values in range replaces the policy. -/
theorem execCmdSetPolicy_of_valid {r : Request} (hr : r = decodeRequest s.requestBytes) (hprio : r.prio ≤ 3) (hbit : fld s.requestBytes 5 1 < 2)
    (hforced : r.forceable = true → 1 ≤ r.forceAfter ∧ r.forceAfter ≤ 10000) (hunforced : r.forceable = false → r.forceAfter = 0)
    (hstill : r.forceable ≠ x.req.forceable → x.st = .idle ∨ x.st = .idleLoaded ∨ x.st = .frozen ∨ x.st = .suspended) : execCmdSetPolicy v s =
    .next (((s.setCtx v { x with req := { x.req with
      prio := r.prio, forceable := r.forceable, quantum := r.quantum, forceAfter := r.forceAfter } }).pcie v 256).cmdDone 4 0 v 0 v) := by
  subst hr
  refine (State.onCmd_of_idle hu hbusy _).trans ?_
  generalize decodeRequest s.requestBytes = r at *
  have hok : r.prio ≤ 3 ∧ fld s.requestBytes 5 1 < 2 ∧ (if r.forceable then 1 ≤ r.forceAfter ∧ r.forceAfter ≤ 10000 else r.forceAfter = 0) := by
    refine ⟨hprio, hbit, ?_⟩
    split
    · exact hforced ‹_›
    · exact hunforced (Bool.eq_false_iff.mpr ‹_›)
  have hmoved : ¬ (r.forceable ≠ x.req.forceable ∧ ¬ (x.st = .idle ∨ x.st = .idleLoaded ∨ x.st = .frozen ∨ x.st = .suspended)) :=
    fun h => h.2 (hstill h.1)
  simp only [hon, hx, hok, hmoved, not_true_eq_false, and_self, if_false]

end

end

/-! ### Loading (R284) -/

theorem State.foldl_fset_cp {p : Nat → Prop} [DecidablePred p] (f : Nat → Field) (i : Nat → Nat) (v : Nat) (l : List Nat) (s : State) :
    (l.foldl (fun (t : State) n => if p n then t.fset (f n) (i n) v else t) s).cp = s.cp :=
  State.foldl_keeps State.cp (fun t n => by split <;> rfl) l s

/-- Taking or releasing a home changes the owners that the pages show, and no context. -/
theorem State.setHome_ctxs (s : State) (r : Request) (c : Nat) : (s.setHome r c).cp.ctxs = s.cp.ctxs := by
  simp only [State.setHome]
  refine congrArg Compute.ctxs (State.foldl_keeps State.cp (fun t h => ?_) r.hobs s)
  simp only [apply_ite State.cp, State.fset_cp, ite_self, State.foldl_fset_cp]
  refine State.foldl_keeps State.cp (fun u g => ?_) (List.range 16) t
  split
  case isTrue => rfl
  split
  case h_1 => rfl
  case h_2 i _ =>
    rw [(State.refreshOwner_frame ..).cp_eq (by decide), State.foldl_fset_cp]
    split
    · rfl
    · exact (State.setMode_frame ..).cp_eq (by decide)

theorem State.releaseHome_ctx? (s : State) (r : Request) (c : Nat) : (s.releaseHome r).ctx? c = s.ctx? c :=
  congrArg (fun m => sget? m c) ((congrArg Compute.ctxs ((State.clearHalts_frame ..).cp_eq (by decide))).trans (s.setHome_ctxs r 0xFF))

/-- Contexts in the way of another's home become IDLE; it stays as it is. -/
theorem State.displace_ctx? (s : State) (c : Nat) (r : Request) : (s.displace c r).ctx? c = s.ctx? c := by
  refine State.foldl_keeps (fun t : State => t.ctx? c) (fun t p => ?_) s.cp.ctxs s
  dsimp only
  split
  case isTrue h => rw [State.setCtx_ctx?_ne _ h.1.symm, State.releaseHome_ctx?]
  case isFalse => rfl

/-- A context whose load is presented waits at crossing point 1 of each Hob it uses. -/
theorem State.withLoads_presents {s : State} {cs : List Nat} {c h : Nat} {x : Ctx} (hc : c ∈ cs) (hx : s.ctx? c = some x) (hh : h ∈ x.req.hobs) :
    ∃ w ∈ (s.withLoads cs).arb.waiting, w.cp = 1 ∧ w.inst = h ∧ w.party = c := by
  refine ⟨(s.arb.waiting.find? fun (q : ArbReq) => q.at 1 h && q.party == c).getD (loadReq s c h), ?_, ?_⟩
  · refine List.mem_append_left _ (List.mem_flatMap.mpr ⟨c, hc, ?_⟩)
    rw [hx]
    exact List.mem_map_of_mem hh
  · cases hold : s.arb.waiting.find? fun (q : ArbReq) => q.at 1 h && q.party == c with
    | none => exact ⟨rfl, rfl, rfl⟩
    | some w => simpa [ArbReq.at, and_assoc] using List.find?_some hold

/-- CONTEXT_LOAD of the first waiter presents it at crossing point 1 of each Hob it uses. -/
theorem execContextLoad_of_first {s : State} {c : Nat} {x : Ctx} (hx : s.ctx? c = some x) (hwaits : x.waits = true)
    (hfree : s.homeFree c x.req = true) (hfirst : s.firstInLine c x = true) : ∃ t, execContextLoad c s = .next t ∧
    t.cp = (s.displace c x.req).cp ∧ ∀ h ∈ x.req.hobs, ∃ w ∈ t.arb.waiting, w.cp = 1 ∧ w.inst = h ∧ w.party = c := by
  refine ⟨(s.displace c x.req).withLoads (s.loadable.filter (· ≠ c) ++ [c]), ?_, rfl, fun h hh => ?_⟩
  · simp only [execContextLoad, hx, hwaits, hfree, hfirst, not_true_eq_false, or_self, if_false]
  · exact State.withLoads_presents (by simp) ((s.displace_ctx? c x.req).trans hx) hh

/-! ### Decisions on a running task (R286, R292) -/

section
variable {s : State} {c : Nat} {x : Ctx} {t : Task} (hrun : s.runningTask c = some (x, t))
include hrun

/-- PREEMPT_DECISION decides for a waiter of higher priority. -/
theorem execPreemptDecision_of_higher (hnone : x.preempt = 0) (hunarmed : s.fget glob_ARMED 0 = 0) (hmode : s.lockstepPending = false)
    (hhigher : s.waiterFor c x (fun w => decide (x.req.prio < w.req.prio)) = true) :
    execPreemptDecision c s = .next (s.setCtx c { x with st := .preempting, preempt := 1, preemptTick := s.tick }) := by
  simp only [execPreemptDecision, hrun, hnone, hunarmed, hmode, hhigher, true_or, and_self, Bool.false_eq_true, not_false_eq_true, if_true]
  rfl

/-- PREEMPT_DECISION withdraws a decision that no waiter asks for. -/
theorem execPreemptDecision_of_unasked (hpending : x.preempt = 1) (hhigher : s.waiterFor c x (fun w => decide (x.req.prio < w.req.prio)) = false)
    (hquantum : s.quantumOver x t = false) : execPreemptDecision c s = .next (s.setCtx c { x with st := .running, preempt := 0 }) := by
  simp only [execPreemptDecision, hrun, hpending, hhigher, hquantum, Bool.false_and, Bool.false_eq_true, or_self, and_false, false_and,
    not_false_eq_true, and_self, if_false, if_true]

/-- An expired FORCE_AFTER_MS forces. -/
theorem execForceAfterExpiry_of_due (hpending : x.preempt = 1) (hforceable : x.req.forceable = true)
    (hdue : x.preemptTick + ticksMs x.req.forceAfter ≤ s.tick) (hunarmed : s.fget glob_ARMED 0 = 0)
    (hhigher : s.waiterFor c x (fun w => decide (x.req.prio < w.req.prio)) = true) :
    execForceAfterExpiry c s = .next (s.setCtx c { x with preempt := 2 }) := by
  simp only [execForceAfterExpiry, hrun, hpending, hforceable, hdue, hunarmed, hhigher, and_self, if_true]

/-- A forced pre-emption of a task past a cheap point stops its work and saves the checkpoint. -/
theorem execForcedPreempt_of_checkpoint {k : Saved} (hforced : x.preempt = 2) (hsave : s.forcedSave x t = some k) (hyield : t.atYield x.req = false)
    (hpinned : t.pinned = false) (hforceable : x.req.forceable = true)
    (hended : ((List.range 2).all fun h => !x.req.uses h || s.seqDone x t h) = false) : ∃ u y t1, execForcedPreempt c s = .next u ∧
    sget? u.cp.ctxs c = some y ∧ y.saved = some k ∧ y.task = some t1 ∧ t1.inflight = [] ∧ t1.signals = [] ∧ t1.replayed = true ∧
    y.replays = satAdd x.replays 1 255 := by
  have hfree : ¬ (t.atYield x.req = true ∨ t.pinned = true ∨ ((List.range 2).all fun h => !x.req.uses h || s.seqDone x t h) = true ∨
      ¬ x.req.forceable = true) := by
    simp only [hyield, hpinned, hended, hforceable, Bool.false_eq_true, not_true_eq_false, or_self, not_false_eq_true]
  simp only [execForcedPreempt, hrun, hforced, hsave, hfree, ne_eq, not_true_eq_false, if_false]
  exact ⟨_, _, _, rfl, State.setCtx_ctx? .., rfl, rfl, rfl, rfl, rfl, rfl⟩

end

/-! ### Save and restore (R289 to R291, R294) -/

theorem State.noteSwitch_ctx? (s : State) (c n us k : Nat) : (s.noteSwitch c n us).ctx? k = s.ctx? k := rfl

theorem State.count_setCtx_ctx? (s : State) (k i n m c : Nat) (y : Ctx) : ((s.setCtx c y).count k i n m).ctx? c = some y :=
  State.setCtx_ctx? ..

section
variable {s : State} {c : Nat} {x : Ctx} {k : Saved} (hx : s.ctx? c = some x) (hsaved : x.saved = some k)
include hx hsaved

/-- A completed save leaves the context SUSPENDED. -/
theorem execContextSaveComplete_of_saved (hst : x.st = .preempting) (harea : s.saveLost x = false) : ∃ t y, execContextSaveComplete c s = .next t ∧
    sget? t.cp.ctxs c = some y ∧ y.st = .suspended ∧ y.preempt = 0 ∧ y.saved = some k ∧ y.waitSince = s.tick := by
  simp only [execContextSaveComplete, hx, hsaved, hst, harea, ne_eq, not_true_eq_false, Bool.false_eq_true, if_false]
  exact ⟨_, _, rfl, (State.noteSwitch_ctx? ..).trans (State.count_setCtx_ctx? ..), rfl, rfl, rfl, rfl⟩

section
variable {t : Task} (htask : x.task = some t)
include htask

/-- A restore that crossing point 1 grants brings the context to RESTORING. -/
theorem execContextRestore_of_granted {g : State} (hmay : s.mayRestore c x = true) (hgrant : s.grantedLoad c x x.waitSince = some g)
    (hhome : g.homeLost x.req = false) :
    ∃ u y, execContextRestore c s = .next u ∧ u.ctx? c = some y ∧ y.st = .restoring ∧ y.preemptTick = s.tick := by
  simp only [execContextRestore, hx, hsaved, htask, hmay, hgrant, hhome, not_true_eq_false, Bool.false_eq_true, if_false]
  exact ⟨_, _, rfl, State.setCtx_ctx? .., rfl, rfl⟩

/-- A completed restore brings the context to RUNNING with the saved registers. -/
theorem execContextRestoreComplete_of_saved (hst : x.st = .restoring) (harea : s.saveLost x = false) : ∃ u y t1,
    execContextRestoreComplete c s = .next u ∧ sget? u.cp.ctxs c = some y ∧ y.st = .running ∧ y.saved = none ∧ y.task = some t1 ∧
    t1.regs0 = k.regs.getD 0 t.regs0 ∧ t1.regs1 = k.regs.getD 1 t.regs1 ∧ t1.loadTick = s.tick := by
  simp only [execContextRestoreComplete, hx, hsaved, htask, hst, harea, ne_eq, not_true_eq_false, Bool.false_eq_true, if_false]
  exact ⟨_, _, _, rfl, (State.noteSwitch_ctx? ..).trans (State.setCtx_ctx? ..), rfl, rfl, rfl, rfl, rfl, rfl⟩

end

end

/-- Settles O13: each command by the lemma about it above. -/
theorem contextCommandsComplete : Obligations.ContextCommandsComplete := by
  refine ⟨?create, ?tearDown, ?preempt, ?policy, ?load, ?decides, ?withdraws, ?expiry, ?forced, ?saved, ?restore, ?restored⟩
  case create =>
    intro v s hu hbusy
    exact ⟨execCreateContext_of_idle hu hbusy v, execCreateContext_of_accepted hu hbusy, execCreateContext_of_refused hu hbusy⟩
  case tearDown =>
    intro v x s hu hbusy hon hx hst
    exact execCmdTearDown_of_held hu hbusy hon hx hst
  case preempt =>
    intro v force x t s hu hbusy hon hx htask hissuing hforce
    exact execCmdPreempt_of_running hu hbusy hon hx htask hissuing hforce
  case policy =>
    intro v x r s hu hbusy hon hx hr hprio hbit hforced hunforced hstill
    exact execCmdSetPolicy_of_valid hu hbusy hon hx hr hprio hbit hforced hunforced hstill
  case load =>
    intro c x s hx hwaits hfree hfirst
    exact execContextLoad_of_first hx hwaits hfree hfirst
  case decides =>
    intro c x t s hrun hnone hunarmed hmode hhigher
    exact execPreemptDecision_of_higher hrun hnone hunarmed hmode hhigher
  case withdraws =>
    intro c x t s hrun hpending hhigher hquantum
    exact execPreemptDecision_of_unasked hrun hpending hhigher hquantum
  case expiry =>
    intro c x t s hrun hpending hforceable hdue hunarmed hhigher
    exact execForceAfterExpiry_of_due hrun hpending hforceable hdue hunarmed hhigher
  case forced =>
    intro c x t k s hrun hforced hsave hyield hpinned hforceable hended
    exact execForcedPreempt_of_checkpoint hrun hforced hsave hyield hpinned hforceable hended
  case saved =>
    intro c x k s hx hsaved hst harea
    exact execContextSaveComplete_of_saved hx hsaved hst harea
  case restore =>
    intro c x k t g s hx hsaved htask hmay hgrant hhome
    exact execContextRestore_of_granted hx hsaved htask hmay hgrant hhome
  case restored =>
    intro c x k t s hx hsaved htask hst harea
    exact execContextRestoreComplete_of_saved hx hsaved htask hst harea

end Sys2Proof.Machine
end
